-- ==== Sys2Proof/Word.lean ====
section
/-! DEFINITION. The word types of the model. -/

namespace Sys2Proof

/-- One byte. -/
abbrev Byte := BitVec 8

/-- One register word of 32 bits (00, Controls). -/
abbrev Word := BitVec 32

end Sys2Proof
end

