-- ==== Sys2Proof/Syntax.lean ====
section
/-! DEFINITION. The commands of the block: `Instr`, one constructor per row of the opcode table,
and the data their operands carry. Every command carries `dt`, the datapath clock ticks (3.125 ns)
that have passed since the command before it (log entry 1). -/

namespace Sys2Proof

/-- What the test of step 3 finds (R698, R699): a failing cell of a bank, a spare row or spare column
that fails, and a new failure when the bank is tested again. -/
inductive BankFault where
  | cell (bank row lane : Nat)
  | spareRow (bank n : Nat)
  | spareCol (bank n : Nat)
  | retest (bank : Nat)
  deriving DecidableEq, Repr

/-- What a read of an ECC word finds (R693, R696): nothing wrong, one lane wrong (and whether it is
still wrong on the scrubber's second read), or an error that the code does not correct. -/
inductive WordRead where
  | ok
  | single (lane : Nat) (hard : Bool)
  | double
  deriving DecidableEq, Repr

/-- What the decoder finds of a picture (R544, R545): it is decoded, with the samples of its coded rows and
whether it is the last of a loaded stream; or the stream is outside the subset or damaged, with its class
(Table PC-10) and the CTB address. -/
inductive DecResult where
  | picture (y cb cr : List Nat) (last : Bool)
  | unsupported (cls ctb : Nat)
  | damaged (cls ctb : Nat)
  deriving DecidableEq, Repr

/-- The commands: one constructor per row of the opcode table. -/
inductive Instr where
  /-- The main domain leaves reset once every rail is in its window, RESET_N has been high for 1 ms and the Hearth
  has requested the start, and the boot ROM, memory test, firmware load and Hearth restore (steps 2 to 5) run
  (R45). `pins` are TREE_EN and TEST_N, high or low; `ref` is the reference's offset from 20.480 MHz in ppm, `none`
  when it is absent (R68); `faults` are what step 3's test finds in the SRAM; `rextOk` says that the calibration against
  LN_REXT succeeds (R288); `rails` are the levels of the main rails in mV, in the order of the rail map of Table AL-2. -/
  | mainResetRelease (dt : Nat) (msel : BitVec 2) (member : BitVec 3) (pins : Bool × Bool) (ref : Option Int)
    (faults : List BankFault) (rextOk : Bool) (rails : List Nat)
  /-- RESET_N held low for at least 10 µs resets the main domain only, never the Hearth (R46). `lowUs` is how long
  RESET_N was low, in microseconds. -/
  | resetN (dt : Nat) (lowUs : Nat)
  /-- A main rail leaves its monitor window while PSU_OK is high; the main domain is reset, an ash record is written
  and lockout is applied after three resets in 60 s (R66). `rails` are the levels of the main
  rails in mV, in the order of the rail map of Table AL-2, and how many nanoseconds the excursion lasts. -/
  | railOutOfWindow (dt : Nat) (rails : List Nat × Nat)
  /-- After the 10 ms wait following a rail reset, the Hearth starts the main domain again from cold (R66). -/
  | railRestart (dt : Nat)
  /-- The main rails are not all in their windows 50 ms after PEN_MAIN rose; PEN_MAIN is driven low, an ash record
  is written and a retry is scheduled (R67). `rails` are their levels in mV. -/
  | railsNotUp (dt : Nat) (rails : List Nat)
  /-- After 1 s the Hearth retries the start by driving PEN_MAIN high again (R67). -/
  | railRetry (dt : Nat)
  /-- If START has not been queued 5 s after step 5 ended, step 9 begins (R126). -/
  | step9Timeout (dt : Nat)
  /-- A Stoker core watchdog expires; the Hearth writes a WATCHDOG record and the main domain is reset with cause
  0x06 (R152). `code` is the last checkpoint code Stoker recorded on the core. -/
  | watchdog (dt : Nat) (core : Nat) (code : BitVec 32)
  /-- A WRITE transaction carrying one command packet ends when SPI_CS_N rises, and the packet is checked, accepted
  or refused (R77). `bytes` are the bytes after the transaction byte. -/
  | spiWrite (dt : Nat) (bytes : List Byte)
  /-- A READ transaction returns the next outbound packet and removes it only if the transaction clocked out its
  last byte (R78). `clocked` is the number of bytes clocked out after the dummy byte. -/
  | spiRead (dt : Nat) (clocked : Nat)
  /-- A STATUS transaction returns OUT_LEN and IN_FREE (R76). -/
  | spiStatus (dt : Nat)
  /-- An SDU of port 0x001 delivered downstream is read as one command packet and checked (R74). -/
  | mgmtSdu (dt : Nat)
  /-- The service UART receiver finds a packet by SYNC and HCRC, takes its extent from LENGTH and checks it (R80).
  `bytes` are the bytes that arrived since the last event of the receiver. -/
  | uartPacket (dt : Nat) (bytes : List Byte)
  /-- A gap of more than 1 ms inside a begun packet abandons it, counts TRUNC and resumes the hunt (R81). -/
  | uartGapTimeout (dt : Nat)
  /-- An accepted command starts on its member once ordering allows, after the checks of R755, and runs its opcode
  (R91). -/
  | commandStart (dt : Nat) (tag : BitVec 16)
  /-- An operation that has queued no reply for CMD_OP_LIMIT ends with a final TIMEOUT reply (R93). -/
  | opTimeout (dt : Nat) (tag : BitVec 16)
  /-- An outbound packet leaves the transport; its reply-pool place is freed and alarm repeat timing starts (R94). -/
  | packetLeft (dt : Nat)
  /-- 1.024 s after the previous copy left, an unacknowledged alarm is repeated, and it is given up after 64 repeats
  with an ALARM_UNACKED record (R101). -/
  | alarmRepeat (dt : Nat) (num : BitVec 16)
  /-- Command NOP replies with no parameters (R122). -/
  | nop (dt : Nat) (tag : BitVec 16) (params : List Byte)
  /-- Command GET_INFO returns the chip ID, straps, firmware version, the terminal serial and the chip serial
  (R122). -/
  | getInfo (dt : Nat) (tag : BitVec 16) (params : List Byte)
  /-- Command REG_READ returns COUNT words in ascending address order and clears RC fields (R105). -/
  | regRead (dt : Nat) (tag : BitVec 16) (params : List Byte)
  /-- Command REG_WRITE writes COUNT words in ascending order and stops at the first reserved value with BAD_VALUE;
  it stands for every register with no row of its own (R106). -/
  | regWrite (dt : Nat) (tag : BitVec 16) (params : List Byte)
  /-- Command REG_MODIFY sets the masked bits of one register in one indivisible step and returns the previous value
  (R107). -/
  | regModify (dt : Nat) (tag : BitVec 16) (params : List Byte)
  /-- Command OP_QUERY reports a tag's state, member, opcode and age without disturbing it (R122). -/
  | opQuery (dt : Nat) (tag : BitVec 16) (params : List Byte)
  /-- Command CANCEL aborts a QUEUED operation or reports that a RUNNING or REPLYING one runs on (R110). -/
  | cancel (dt : Nat) (tag : BitVec 16) (params : List Byte)
  /-- Command NOTICE_ACK acknowledges an alarm notice, stops its repeats, frees its place and clears any held entry
  (R113). -/
  | noticeAck (dt : Nat) (tag : BitVec 16) (params : List Byte)
  /-- Command RESET_MAIN with key 0x5A3C resets the main domain after its reply (R122). -/
  | resetMain (dt : Nat) (tag : BitVec 16) (params : List Byte)
  /-- A write to CMD_OP_LIMIT applies at once to every interval under way and ends any operation already over the
  new limit (R93). -/
  | cmdOpLimitWrite (dt : Nat) (value : Word)
  /-- Command IMG_STATUS returns both slots' headers and digests, the boot record, MIN_SEC, the running slot and the
  trial count (R154). -/
  | imgStatus (dt : Nat) (tag : BitVec 16) (params : List Byte)
  /-- Command IMG_ERASE erases an image slot and replies when all 16 blocks are erased (R154). -/
  | imgErase (dt : Nat) (tag : BitVec 16) (params : List Byte)
  /-- Command IMG_WRITE writes data into an erased slot and verifies it by read-back (R154). -/
  | imgWrite (dt : Nat) (tag : BitVec 16) (params : List Byte)
  /-- Command IMG_VERIFY runs the full acceptance check with signature and records the digest in the Hearth on
  success (R154). -/
  | imgVerify (dt : Nat) (tag : BitVec 16) (params : List Byte)
  /-- Command IMG_ACTIVATE verifies a slot, writes a TRIAL boot record and, with MODE 1, resets now (R149). -/
  | imgActivate (dt : Nat) (tag : BitVec 16) (params : List Byte)
  /-- Command IMG_COMMIT writes a COMMITTED boot record and then raises MIN_SEC (R137). -/
  | imgCommit (dt : Nat) (tag : BitVec 16) (params : List Byte)
  /-- Command BOOT_REPORT returns the end times of steps 1 to 9 (R154). -/
  | bootReport (dt : Nat) (tag : BitVec 16) (params : List Byte)
  /-- VDD_AON or VBAT reaches 2.5 V and the Hearth starts as at a first connection, with empty keys, held alarms and
  ring (R49). The two supply levels in millivolts. -/
  | hearthStart (dt : Nat) (aonMv : Nat) (vbatMv : Nat)
  /-- The supply the Hearth draws falls below 2.2 V and the Hearth returns to its first-connection state (R49). -/
  | hearthReset (dt : Nat) (aonMv : Nat) (vbatMv : Nat)
  /-- The Hearth switches between VDD_AON and VBAT around 2.9 V without losing state (R64). -/
  | supplySwitch (dt : Nat) (aonMv : Nat) (vbatMv : Nat)
  /-- Every 64 s in Working, Stoker steps Hearth time to network time and sets TRIM (R160). -/
  | hearthAlign (dt : Nat)
  /-- The wake timer fires when Hearth time reaches the wake value, clears EN and wakes the chip (R162). -/
  | wakeTimer (dt : Nat)
  /-- A tamper input becomes active after DEBOUNCE samples and the Hearth records, zeroises, notifies or starts the
  backup alarm sequence (R164). `code` is what the reserve ADC reads if the Hearth samples it (R179). -/
  | tamperActive (dt : Nat) (input : Nat) (code : BitVec 10)
  /-- A tamper input returns inactive after DEBOUNCE samples at the other level (R163). -/
  | tamperInactive (dt : Nat) (input : Nat)
  /-- Two consecutive mesh mismatches declare a break of kind SHORT_LOW, SHORT_HIGH or MISMATCH, acted on as a
  tamper input (R165). `samples` are the return's readings throughout the mismatches. -/
  | meshBreak (dt : Nat) (pair : Nat) (samples : List Bool) (code : BitVec 10)
  /-- After 64 matching samples a broken mesh pair re-arms (R165). -/
  | meshRearm (dt : Nat) (pair : Nat)
  /-- Every 1.024 s in Blaze, Stoker reseeds each mesh LFSR from the DRBG (R166). -/
  | meshReseed (dt : Nat)
  /-- The Hearth measures VBAT and enters or leaves CELL_LOW and CELL_ABSENT (R167). -/
  | cellMeasure (dt : Nat) (code : BitVec 8)
  /-- Every 100 µs the reserve ADC is sampled and the energy estimate E is recomputed (R168). -/
  | reserveSample (dt : Nat) (code : BitVec 10)
  /-- The scheduled return from Bank or Smoulder to Blaze falls due before the next known event (R173). -/
  | scheduledReturn (dt : Nat)
  /-- PSU_OK falls; ON_RESERVE is set, ON_RESERVE is queued and the HRT_SHED functions are disabled (R176). -/
  | psuOkFall (dt : Nat)
  /-- PSU_OK rises; ON_RESERVE clears and shed functions return, or the chip starts from Ember (R178). -/
  | psuOkRise (dt : Nat)
  /-- The Hearth drives PEN_MAIN low once the reserve ride is over or E falls below a quarter of RIDE_MJ, after the
  tree record and start state are saved (R177). -/
  | emberEntry (dt : Nat)
  /-- ALARM_MS after PEN_MAIN rose in a minimal Blaze, the Hearth drives PEN_MAIN low and holds any unsent alarm
  (R179). -/
  | alarmMsExpiry (dt : Nat)
  /-- The Hearth crystal stops; the internal oscillator takes over, XTAL_FAULT is set and HCLK_FAULT is raised
  (R190). -/
  | xtalStop (dt : Nat)
  /-- Command PS_STATUS returns the power state, the deepest state allowed, the next event and the time spent in
  each state (R196). -/
  | psStatus (dt : Nat) (tag : BitVec 16) (params : List Byte)
  /-- Command HELD_READ returns the 16 held-alarm entries (R196). -/
  | heldRead (dt : Nat) (tag : BitVec 16) (params : List Byte)
  /-- The nanoseconds field passes 1e9, the seconds field increases and PPS_OUT rises unless gated (R219). -/
  | secondBoundary (dt : Nat)
  /-- PPS_OUT falls after WIDTH_MS (R219). -/
  | ppsEnd (dt : Nat)
  /-- 1 ms after PPS_OUT rises, the time-of-day line is sent on UART_TXD, or as a notice while the UART is master
  (R220). -/
  | timeOfDay (dt : Nat)
  /-- The slew's tick count runs out and the increment returns to NT_INCR (R202). -/
  | slewEnd (dt : Nat)
  /-- A time message is accepted or refused on its checks (R204). -/
  | timeMessage (dt : Nat)
  /-- When the reference frame's latch is known, the error is computed and the clock is slewed or stepped and
  NT_INCR updated (R208). -/
  | timeCorrection (dt : Nat)
  /-- No accepted message for MISS_S takes LOCKED to HOLDOVER (R209). -/
  | servoMissTimeout (dt : Nat)
  /-- HOLDOVER lasting HOLD_S takes the servo to UNLOCKED (R209). -/
  | holdoverTimeout (dt : Nat)
  /-- A compare unit reaches its target, takes its action, rearms if periodic and may queue CMP_FIRED (R218). -/
  | cmpFire (dt : Nat) (unit : Nat)
  /-- Command NT_STATUS returns the servo state, flags, time, last error and increment (R229). -/
  | ntStatus (dt : Nat) (tag : BitVec 16) (params : List Byte)
  /-- Command NT_SET steps network time to a given value (R229). -/
  | ntSet (dt : Nat) (tag : BitVec 16) (params : List Byte)
  /-- Command NT_ADJUST slews network time by an offset (R229). -/
  | ntAdjust (dt : Nat) (tag : BitVec 16) (params : List Byte)
  /-- Command CMP_ARM arms a compare unit in ring or epoch mode and tests its target at once (R216). -/
  | cmpArm (dt : Nat) (tag : BitVec 16) (params : List Byte)
  /-- Command CMP_DISARM disarms a compare unit (R229). -/
  | cmpDisarm (dt : Nat) (tag : BitVec 16) (params : List Byte)
  /-- A valid zero crossing gives a phase error to the loop, updates presence and may end ACQUIRE (R237). `peak` is
  the half-cycle's peak, `samples` those of the cycle that a rising crossing ends. -/
  | zeroCrossing (dt : Nat) (phase : Nat) (rising : Bool) (peak : Nat) (samples : List Int)
  /-- A crossing window closes with no crossing, and a phase missing two in a row is lost (R238). -/
  | crossingMissed (dt : Nat) (phase : Nat)
  /-- After PHANTOM_S in PHANTOM, MA_FREQ takes the nominal word and the block enters TIMED (R243). -/
  | phantomTimeout (dt : Nat)
  /-- With no phase present 1 s after step 6, the block enters TIMED at angle 0 (R257). -/
  | absentTimeout (dt : Nat)
  /-- A schedule entry reaches its issue position and takes its action, or is marked missed (R247). An `entry` of
  512 + r is the pending MA_PULSE of relay r. -/
  | entryFire (dt : Nat) (entry : Nat)
  /-- RLYn falls after WIDTH_MS (R252). -/
  | relayPulseEnd (dt : Nat) (relay : Nat)
  /-- A write to a schedule entry applies from its next contact position, and clearing EN disarms it (R255). `cfg`
  is 0 for MA_ENTn_CFG0, 1 for MA_ENTn_CFG1. -/
  | entryWrite (dt : Nat) (entry : Nat) (cfg : Nat) (value : Word)
  /-- Command MA_STATUS returns state, cycle, angle, offsets and frequencies (R258). -/
  | maStatus (dt : Nat) (tag : BitVec 16) (params : List Byte)
  /-- Command MA_ARM arms an entry and replies when it fires or is marked (R249). -/
  | maArm (dt : Nat) (tag : BitVec 16) (params : List Byte)
  /-- Command MA_PULSE pulses a relay now or at an angle (R256). -/
  | maPulse (dt : Nat) (tag : BitVec 16) (params : List Byte)
  /-- Command MA_WAVE returns the last complete cycle's samples of a phase (R258). -/
  | maWave (dt : Nat) (tag : BitVec 16) (params : List Byte)
  /-- A lane's amplitude stays below LOS_THR for 2 µs, or TREE_SD stays low, and LOS is declared (R263). `sd` says
  that TREE_SDn low is the cause (R264). -/
  | losDeclared (dt : Nat) (lane : Nat) (sd : Bool)
  /-- The amplitude stays above LOS_THR plus 30 mV for 10 µs and LOS clears (R263). With the lane comes
  whether it is TREE_SDn that has risen (R264). -/
  | losCleared (dt : Nat) (lane : Nat × Bool)
  /-- A 100 µs frequency window ends and the lane is declared locked or LOL (R265). `offset` is the window's offset
  in 0.1 ppm, `atLimit` that the loop's integrator is at its limit, `cv` the code violations in the window. -/
  | lockWindowEnd (dt : Nat) (lane : Nat) (offset : Int) (atLimit : Bool) (cv : Nat)
  /-- Burst enable or serialiser activity outside a granted window latches a rogue transmitter and holds the laser
  dark (R270). `cause` is 0 for the burst enable, 1 for the serialiser. -/
  | rogue (dt : Nat) (lane : Nat) (cause : Nat)
  /-- A lane marker is received; it deskews the lanes and advances a spare swap (R274). `lane` is the link's first,
  second or third lane, from 0; `skew` its marker's distance in symbols from the link's earliest; the symbols are as
  received, a control symbol with 0x100 added (Table LN-3). -/
  | laneMarker (dt : Nat) (link : Nat) (lane : Nat) (skew : Nat) (symbols : List Nat)
  /-- A receiver declares an active Strait lane failed, pauses the link and requests the spare (R273). `cv` are the
  code violations and disparity errors of the lane's last 1.024 ms window. -/
  | laneFail (dt : Nat) (lane : Nat) (cv : Nat)
  /-- A failed lane clean for QUAL_S seconds becomes the spare again (R276). -/
  | laneRequalify (dt : Nat) (lane : Nat)
  /-- Every EYE_PERIOD minutes Stoker measures each lane's horizontal opening and may raise LN_MARGIN or fail the
  lane (R279). -/
  | eyePeriodic (dt : Nat)
  /-- A lane PLL loses lock, every lane on it declares LOL and the tree transmitters are held dark (R287). `lanes`
  maps the lanes on the PLL. -/
  | pllUnlock (dt : Nat) (lanes : BitVec 9)
  /-- Command LN_REPORT returns the status and errors of every lane and the maps (R291). -/
  | lnReport (dt : Nat) (tag : BitVec 16) (params : List Byte)
  /-- Command LN_EYE measures the eye openings or one point of a lane (R278). -/
  | lnEye (dt : Nat) (tag : BitVec 16) (params : List Byte)
  /-- Command LN_TX_RELEASE clears a latched rogue if no rogue was seen for 1 ms (R271). -/
  | lnTxRelease (dt : Nat) (tag : BitVec 16) (params : List Byte)
  /-- Command LN_SPARE_FORCE forces a swap to the spare and replies when it completes (R291). -/
  | lnSpareForce (dt : Nat) (tag : BitVec 16) (params : List Byte)
  /-- A downstream frame arrives; alignment, the identity block, SRQ filters and protection are evaluated and the
  frame is delivered if LOCKED (R300). `bytes` are the frame as received, where the alignment machine looks for
  it. -/
  | frameReceived (dt : Nat) (lane : Nat) (bytes : List Byte)
  /-- 30 µs after the timestamp point an incomplete grant map counts GRANT_MISS (R306). -/
  | grantMapDeadline (dt : Nat)
  /-- A write to a TD_PORTn entry takes effect at the next unit header and discards an SDU in reassembly if it
  changes the routing (R324). -/
  | tdPortWrite (dt : Nat) (port : Nat) (value : Word)
  /-- Command TD_REPORT returns the downstream status and counters (R331). -/
  | tdReport (dt : Nat) (tag : BitVec 16) (params : List Byte)
  /-- TREE_PROFILE in LISTEN leads to WARM, RANGING, SERIAL or DISABLED (R346). -/
  | treeProfile (dt : Nat)
  /-- IDENT_ASSIGN with the terminal's serial gives it identity and default allocation and enters RANGING (R343). -/
  | identAssign (dt : Nat)
  /-- RANGING_RESULT sets EQD for the active lane and enters OPERATION (R344). -/
  | rangingResult (dt : Nat)
  /-- WARM_ACK confirms, re-ranges or refuses the stored delay (R347). -/
  | warmAck (dt : Nat)
  /-- ALLOC_ASSIGN sets, replaces or withdraws an allocation slot (R350). -/
  | allocAssign (dt : Nat)
  /-- PORT_ASSIGN writes a TD_PORTn entry (R351). -/
  | portAssign (dt : Nat)
  /-- DEREGISTER with the terminal's serial invalidates the record and returns to LISTEN (R333). -/
  | deregister (dt : Nat)
  /-- DISABLE disables the terminal or lifts the disable (R361). -/
  | disable (dt : Nat)
  /-- DOZE_GRANT sets, replaces or cancels a doze agreement (R353). -/
  | dozeGrant (dt : Nat)
  /-- Stoker sends DOZE_REQ when only the missing doze agreement blocks Smoulder (R352). -/
  | dozeReq (dt : Nat)
  /-- TO1 expires in RANGING; the identity is discarded and the terminal enters SERIAL (R343). -/
  | to1Expiry (dt : Nat)
  /-- TW expires in WARM; the terminal enters SERIAL and keeps the record (R347). -/
  | twExpiry (dt : Nat)
  /-- TO2 expires in HOLD and the terminal enters INITIAL (R333). -/
  | to2Expiry (dt : Nat)
  /-- At the frame boundary after the decision, the active lane changes, EQD is reloaded and the terminal enters
  LISTEN (R357). -/
  | protectionSwitch (dt : Nat)
  /-- Every 64 s in OPERATION the lead writes the tree record and pushes it to the standby leads (R349). -/
  | treeRecordSave (dt : Nat)
  /-- Command TM_STATUS returns membership state, delays, serial, allocations and doze (R363). -/
  | tmStatus (dt : Nat) (tag : BitVec 16) (params : List Byte)
  /-- Command TM_SET_SERIAL sets the terminal serial and invalidates the record (R363). -/
  | tmSetSerial (dt : Nat) (tag : BitVec 16) (params : List Byte)
  /-- Command TM_SET_IDENT writes an identity and default allocation with no valid EQD (R363). -/
  | tmSetIdent (dt : Nat) (tag : BitVec 16) (params : List Byte)
  /-- Command TM_FORGET invalidates the tree record (R363). -/
  | tmForget (dt : Nat) (tag : BitVec 16) (params : List Byte)
  /-- Command TM_CLEAR_DISABLE, on the service UART only, clears the disabled flag (R363). -/
  | tmClearDisable (dt : Nat) (tag : BitVec 16) (params : List Byte)
  /-- At a grant's fill instant, energy admission, reservations, scheduler and queue report decide the burst (R371). -/
  | fillInstant (dt : Nat)
  /-- The burst's first preamble byte leaves at its START and the burst is sent in full (R369). -/
  | burstStart (dt : Nat)
  /-- At each upstream frame boundary damper credits are refilled and tributary containers are closed (R381). `rx`
  are the bits that each tributary has received in the frame. -/
  | upstreamFrameBoundary (dt : Nat) (rx : List (List Bool))
  /-- A source offers an SDU to an upstream queue, which accepts or refuses it (R373). `source` is 0 for a meter
  result, 1 for an ash upload, 2 for a clip, 3 and 4 for the Ethernet ports. -/
  | sduEnqueue (dt : Nat) (queue : Nat) (source : Nat) (bytes : List Byte)
  /-- ACK_FRAMES after a chimney burst, unacknowledged notices raise the back-off or are given up (R389). -/
  | chimneyAckWaitEnd (dt : Nat)
  /-- Command UP_STATUS returns upstream status, counters, E and queue fills (R396). -/
  | upStatus (dt : Nat) (tag : BitVec 16) (params : List Byte)
  /-- Command UP_ADMIT_TEST computes the admission of a hypothetical burst (R396). -/
  | upAdmitTest (dt : Nat) (tag : BitVec 16) (params : List Byte)
  /-- A port raises MPn_DE for a queued transaction once TURN has passed (R400). -/
  | xactStart (dt : Nat) (port : Nat)
  /-- The request's last stop bit ends, MPn_DE falls and FIRST_MS starts (R400). -/
  | requestSent (dt : Nat) (port : Nat)
  /-- A character is received and delimiting decides whether the reply frame is complete (R403). The samples 7, 8
  and 9 of each bit as a number of three bits, and sample 1 of a second stop bit. -/
  | charReceived (dt : Nat) (port : Nat) (samples : List Nat) (second : Bool)
  /-- In mode 1, IDLE_GAP bit times of idle complete the frame (R407). -/
  | idleGap (dt : Nat) (port : Nat)
  /-- No start bit within FIRST_MS ends the attempt MP_NO_REPLY, with a retry if allowed (R410). -/
  | firstMsExpiry (dt : Nat) (port : Nat)
  /-- No character for INTER bit times ends a begun reply MP_TIMEOUT (R410). -/
  | interTimeout (dt : Nat) (port : Nat)
  /-- MPn_RXD low for two character times outside a transmission queues MP_BUS (R412). -/
  | busHeldLow (dt : Nat) (port : Nat)
  /-- A meter SDU whose verdict is known places one transaction, or is discarded for DISTRUST or bad content (R414). -/
  | meterSdu (dt : Nat)
  /-- Held results are offered again, oldest first, when their queue accepts (R420). -/
  | holdOffer (dt : Nat)
  /-- Clearing a port's EN abandons the transaction on the wire and ends queued ones DISABLED (R423). -/
  | mpPortDisable (dt : Nat) (port : Nat)
  /-- Command MP_XACT places one transaction and replies with its result (R413). -/
  | mpXact (dt : Nat) (tag : BitVec 16) (params : List Byte)
  /-- Command MP_STATUS returns a port's configuration, state and counters (R427). -/
  | mpStatus (dt : Nat) (tag : BitVec 16) (params : List Byte)
  /-- Command MP_PROG_LOAD loads all or part of a poll program (R419). -/
  | mpProgLoad (dt : Nat) (tag : BitVec 16) (params : List Byte)
  /-- Command MP_PROG_START starts a program and replies when it ends (R416). -/
  | mpProgStart (dt : Nat) (tag : BitVec 16) (params : List Byte)
  /-- Command MP_PROG_STOP stops a program with ABORTED (R424). -/
  | mpProgStop (dt : Nat) (tag : BitVec 16) (params : List Byte)
  /-- Command MP_PROG_STATUS returns a program's state and store use (R427). -/
  | mpProgStatus (dt : Nat) (tag : BitVec 16) (params : List Byte)
  /-- 20 µs after the next timestamp point a frame's downstream container is judged valid or missing and appended to
  the egress store (R440). -/
  | containerJudge (dt : Nat)
  /-- A 16-frame window of TBt_RXC edges ends and the ingress enters or leaves FAILED (R447). -/
  | rxcWindow (dt : Nat) (trib : Nat) (edges : Nat)
  /-- Clearing a tributary's EN sends all-ones at once in both directions (R451). -/
  | tbDisable (dt : Nat) (trib : Nat)
  /-- Command TB_STATUS returns configuration, state and counters of all tributaries (R455). -/
  | tbStatus (dt : Nat) (tag : BitVec 16) (params : List Byte)
  /-- A received Ethernet frame is checked, classified, metered and offered to its queue (R461). `frame` is the
  frame with its FCS, `symbol` says that a symbol error fell in it. -/
  | ethFrameRx (dt : Nat) (port : Nat) (frame : List Byte) (symbol : Bool)
  /-- An Ethernet link comes up after 10 ms of its condition or goes down at once, queuing EM_LINK (R460). What the
  partner or the PHY reports: `speed` is 0 for 10, 1 for 100, 2 for 1000 Mbit/s. -/
  | linkChange (dt : Nat) (port : Nat) (up : Bool) (speed : Nat) (half : Bool) (pause : Bool)
  /-- A downstream SDU or local send enters the transmit buffer or is refused (R467). -/
  | ethSend (dt : Nat) (port : Nat)
  /-- A frame starts on the wire once enough bytes, or the verdict, are held (R470). -/
  | ethFrameStart (dt : Nat) (port : Nat)
  /-- The quanta of a received PAUSE run out and transmission resumes (R472). -/
  | pauseExpiry (dt : Nat) (port : Nat)
  /-- A write to EM_Pn_CFG disables the port, restarts the link or clears statistics as the fields require (R478). -/
  | emCfgWrite (dt : Nat) (port : Nat) (value : Word)
  /-- Command EM_STATUS returns a port's configuration, link and diagnostics (R481). -/
  | emStatus (dt : Nat) (tag : BitVec 16) (params : List Byte)
  /-- Command EM_STATS returns a port's 32 counters as a snapshot (R481). -/
  | emStats (dt : Nat) (tag : BitVec 16) (params : List Byte)
  /-- Command EM_MDIO runs one Clause 22 or 45 management operation (R459). -/
  | emMdio (dt : Nat) (tag : BitVec 16) (params : List Byte)
  /-- A free pipeline takes the head request of the chosen queue (R494). -/
  | cipherRequestStart (dt : Nat) (pipe : Nat)
  /-- A request completes and its completion, with any DISTRUST verdict, goes to its consumer (R496). -/
  | cipherCompletion (dt : Nat) (pipe : Nat)
  /-- A health test fails and, after three, RNG_FAIL is set and CY_RNG raised (R508). `test` is 0 for the repetition
  count, 1 for the adaptive proportion, 2 for the start-up test. -/
  | rngHealthFail (dt : Nat) (test : Nat)
  /-- Every 10 s Stoker restarts a failed entropy source (R508). -/
  | rngRestart (dt : Nat)
  /-- A DRBG instance reaches its reseed count or 60 s and reseeds from the pool (R507). `inst` is 0 or 1 for M0 and
  M1, 2 for S. -/
  | drbgReseed (dt : Nat) (inst : Nat)
  /-- Clearing a cipher queue's EN aborts its queued requests (R513). -/
  | cyQueueDisable (dt : Nat) (queue : Nat)
  /-- Command CY_STATUS returns cipher status, counters and queue fills (R516). -/
  | cyStatus (dt : Nat) (tag : BitVec 16) (params : List Byte)
  /-- Command CY_KEY_INFO returns a slot's directory word and check values (R516). -/
  | cyKeyInfo (dt : Nat) (tag : BitVec 16) (params : List Byte)
  /-- Command CY_KEY_LOAD unwraps a key into staging and commits the update (R490). -/
  | cyKeyLoad (dt : Nat) (tag : BitVec 16) (params : List Byte)
  /-- Command CY_KEY_ERASE erases a slot at once (R516). -/
  | cyKeyErase (dt : Nat) (tag : BitVec 16) (params : List Byte)
  /-- Command CY_ZEROISE with key 0xA5C3 zeroises the key store (R509). -/
  | cyZeroise (dt : Nat) (tag : BitVec 16) (params : List Byte)
  /-- Command CY_RUN runs one local GCM, CTR or CMAC operation (R503). -/
  | cyRun (dt : Nat) (tag : BitVec 16) (params : List Byte)
  /-- S2 finishes a row's coarse search and S3 may take it (R524). -/
  | s2RowDone (dt : Nat)
  /-- S3 finishes coding a row, releases its ring slot and exports its motion field row (R528). `bytes` are what the
  row adds to the stream: the parameter sets and slice header that Stoker writes ahead of it where they begin,
  and the slice data that S4 makes of it; `preds` are the AMVP predictors, in quarter samples, that coding the row
  gives its 16×16 regions in raster order; `poison` is the logical word address of an uncorrectable SRAM error that S3 met. -/
  | s3RowDone (dt : Nat) (bytes : List Byte) (preds : List (Int × Int)) (poison : Option Nat)
  /-- S5 finishes filtering a row and, at the last row, the picture completes and its record is written (R539). The
  reconstruction of the row, line by line. -/
  | s5RowDone (dt : Nat) (y : List (List Nat)) (cb : List (List Nat)) (cr : List (List Nat))
  /-- Writing a channel's EN enables it with its buffers or disables it, truncating the picture (R548). -/
  | pcChannelWrite (dt : Nat) (chan : Nat) (value : Word)
  /-- The decoder completes a picture, sends it, or stops on an unsupported or damaged stream (R545). -/
  | decodePictureDone (dt : Nat) (r : DecResult)
  /-- Command PC_STATUS returns coder, store and channel status (R553). -/
  | pcStatus (dt : Nat) (tag : BitVec 16) (params : List Byte)
  /-- Command PC_BUDGET computes a channel's memory without change (R553). -/
  | pcBudget (dt : Nat) (tag : BitVec 16) (params : List Byte)
  /-- Command PC_FORCE_IDR makes the next picture IDR (R522). -/
  | pcForceIdr (dt : Nat) (tag : BitVec 16) (params : List Byte)
  /-- Command PC_CLIP_LIST returns clip headers (R553). -/
  | pcClipList (dt : Nat) (tag : BitVec 16) (params : List Byte)
  /-- Command PC_CLIP_INDEX returns picture records of a clip (R553). -/
  | pcClipIndex (dt : Nat) (tag : BitVec 16) (params : List Byte)
  /-- Command PC_CLIP_SEND sends a clip as transfer units upstream or on Ethernet (R543). -/
  | pcClipSend (dt : Nat) (tag : BitVec 16) (params : List Byte)
  /-- Command PC_CLIP_LOCK locks a clip, optionally as evidence (R542). -/
  | pcClipLock (dt : Nat) (tag : BitVec 16) (params : List Byte)
  /-- Command PC_CLIP_UNLOCK unlocks a clip (R542). -/
  | pcClipUnlock (dt : Nat) (tag : BitVec 16) (params : List Byte)
  /-- Command PC_DEC_LOAD loads stream bytes for the decoder (R553). -/
  | pcDecLoad (dt : Nat) (tag : BitVec 16) (params : List Byte)
  /-- Command PC_DECODE scans and decodes a clip or loaded stream (R544). -/
  | pcDecode (dt : Nat) (tag : BitVec 16) (params : List Byte)
  /-- Command PC_DEC_STOP stops the running decode with ABORTED (R550). -/
  | pcDecStop (dt : Nat) (tag : BitVec 16) (params : List Byte)
  /-- A CSI-2 frame-start packet stamps the capture, or is unsolicited (R561). -/
  | frameStart (dt : Nat) (chan : Nat) (vc : Nat)
  /-- A picture line arrives, is converted or repaired and enters the capture ring (R557). `dtype` is the CSI-2 data
  type, `bad` an uncorrectable header or a failed payload CRC; the samples are as delivered, at 10 bits. -/
  | lineReceived (dt : Nat) (chan : Nat) (vc : Nat) (dtype : Nat) (bad : Bool) (y : List Nat) (cb : List Nat) (cr : List Nat)
  /-- The frame-end packet ends the capture and darkens the lamp (R564). -/
  | frameEnd (dt : Nat) (chan : Nat) (vc : Nat)
  /-- No frame start within FS_TMO_MS ends the capture NO_FRAME (R560). -/
  | frameTimeout (dt : Nat) (chan : Nat)
  /-- The lamp-on position is reached and the infrared lamp is lit (R563). -/
  | lampOn (dt : Nat) (chan : Nat)
  /-- LAMP_MAX_MS after lighting, the lamp is darkened and LAMP_CUT counted (R564). -/
  | lampMax (dt : Nat) (chan : Nat)
  /-- No certain rotation for STOP_S queues WA_DISC stopped (R573). -/
  | discStopTimeout (dt : Nat) (disc : Nat)
  /-- Command WA_STATUS returns a channel's camera, lamp, state and counters (R581). -/
  | waStatus (dt : Nat) (tag : BitVec 16) (params : List Byte)
  /-- Command WA_CAPTURE triggers a capture and replies at frame start (R581). -/
  | waCapture (dt : Nat) (tag : BitVec 16) (params : List Byte)
  /-- Command WA_FIELD returns the last complete motion field (R581). -/
  | waField (dt : Nat) (tag : BitVec 16) (params : List Byte)
  /-- Command WA_DISC returns a reader's totals and speed (R581). -/
  | waDisc (dt : Nat) (tag : BitVec 16) (params : List Byte)
  /-- Command WA_I2C performs a camera register transfer on a disabled channel (R581). -/
  | waI2c (dt : Nat) (tag : BitVec 16) (params : List Byte)
  /-- Every 10 µs the fuse channels' sense, output and bus are sampled and slow trips, OV and output good are
  decided (R585). The codes of VBUS_IN, and of each channel's sense and output. -/
  | pwSample (dt : Nat) (bus : Nat) (sense : List Nat) (out : List Nat)
  /-- The fast comparator crosses FAST_MV and the gate is discharged within 1 µs (R595). -/
  | fastTrip (dt : Nat) (chan : Nat)
  /-- The hold comparator sees the bus below UVH and an inrush freezes, or resumes when it recovers (R594). `low`
  says that the hold comparator sees the bus below UVH, not that it sees it recovered. -/
  | sagFreeze (dt : Nat) (chan : Nat) (low : Bool)
  /-- A freeze lasting 5 ms aborts the inrush with SAG (R594). -/
  | sagTimeout (dt : Nat) (chan : Nat)
  /-- The bus below UVH for UV_OFF_MS turns ON channels off into WAIT (R601). -/
  | uvOff (dt : Nat) (chan : Nat)
  /-- A slot's seating pins change after deglitching; unseating discharges the gate (R590). `pins` are the
  levels of SEATc_A and SEATc_B, high or low. -/
  | seatChange (dt : Nat) (chan : Nat) (pins : Bool × Bool)
  /-- The insertion time is met and a waiting channel enters INRUSH (R588). -/
  | insTimeMet (dt : Nat) (chan : Nat)
  /-- The inrush budget ends without output good, giving INRUSH_FAIL (R593). -/
  | inrushTimeout (dt : Nat) (chan : Nat)
  /-- BACKOFF passes and the channel returns to WAIT (R597). -/
  | backoffExpiry (dt : Nat) (chan : Nat)
  /-- A channel ON for 1 s without a break clears its trip count (R597). -/
  | onStable (dt : Nat) (chan : Nat)
  /-- An output at DMG_V or above for DMG_MS with the gate off enters DAMAGED and raises PW_FET (R599). -/
  | damagedTimeout (dt : Nat) (chan : Nat)
  /-- Clearing a channel's EN discharges its gate at once and enters OFF (R602). -/
  | pwDisable (dt : Nat) (chan : Nat)
  /-- Command PW_STATUS returns bus and channel state, measurements and counters (R611). -/
  | pwStatus (dt : Nat) (tag : BitVec 16) (params : List Byte)
  /-- Command PW_CLEAR releases a LATCHED or DAMAGED channel (R600). -/
  | pwClear (dt : Nat) (tag : BitVec 16) (params : List Byte)
  /-- A flit is checked against NEXT_RX and accepted or failed, arming a NAK (R616). `flit` are the 32 bytes of the
  slot, `kcode` says that it held a K-code. -/
  | flitRx (dt : Nat) (link : Nat) (flit : List Byte) (kcode : Bool)
  /-- A flit slot falls due and the sender chooses a LINK, replay, TIME, CONTROL, METER or BULK flit or IDLE (R619). -/
  | flitSlot (dt : Nat) (link : Nat)
  /-- A received STATUS acknowledges flits and returns credits (R627). `body` are the body bytes of a LINK flit of
  this subtype that has passed its CRC, after the subtype. -/
  | status (dt : Nat) (link : Nat) (body : List Byte)
  /-- A received NAK acknowledges flits and starts a replay (R628). `body` as for STATUS. -/
  | nak (dt : Nat) (link : Nat) (body : List Byte)
  /-- A received INIT carries session, sequences and credits and may take the link to UP (R622). `body` as for
  STATUS. -/
  | init (dt : Nat) (link : Nat) (body : List Byte)
  /-- A received RETRAIN takes the link into TRAINING (R633). -/
  | retrain (dt : Nat) (link : Nat) (cause : BitVec 8)
  /-- A received IDLE_REQ is answered IDLE_ACK or STATUS (R636). -/
  | idleReq (dt : Nat) (link : Nat)
  /-- A received IDLE_ACK puts the lanes in electrical idle and the link in SLEEP (R636). -/
  | idleAck (dt : Nat) (link : Nat)
  /-- The 2 µs or 8 µs STATUS timer, or the 4 µs NAK resend, falls due (R626). -/
  | statusTimer (dt : Nat) (link : Nat)
  /-- 16 µs without advance of OLDEST starts a replay, retrain or DOWN (R628). -/
  | ackTimeout (dt : Nat) (link : Nat)
  /-- A message is offered to a class transmit queue and accepted or refused (R620). `bytes` are the message from
  its stack header on. -/
  | stMessageOffer (dt : Nat) (link : Nat) (cls : Nat) (dest : BitVec 3) (bytes : List Byte)
  /-- Two positions are locked and deskewed and the link enters INIT (R631). -/
  | trainingDone (dt : Nat) (link : Nat)
  /-- Training or INIT fails to finish in time and the link goes DOWN with cause 6 (R631). -/
  | trainingTimeout (dt : Nat) (link : Nat)
  /-- DOWN_RETRY passes, or LOS clears, and a DOWN link trains again (R631). -/
  | downRetry (dt : Nat) (link : Nat)
  /-- A side leaves electrical idle, the partner wakes and both train (R637). `partner` says that the partner left
  electrical idle first. -/
  | sleepWake (dt : Nat) (link : Nat) (partner : Bool)
  /-- Writing a link's EN disables it or trains it again (R638). -/
  | stLinkWrite (dt : Nat) (link : Nat) (value : Word)
  /-- Command ST_STATUS returns a link's state, sequences, credits and counters (R641). -/
  | stStatus (dt : Nat) (tag : BitVec 16) (params : List Byte)
  /-- Command ST_RETRAIN retrains a link and replies when it is UP or DOWN (R641). -/
  | stRetrain (dt : Nat) (tag : BitVec 16) (params : List Byte)
  /-- An ANNOUNCE updates candidate ranking, version and configuration comparison (R647). -/
  | announce (dt : Nat)
  /-- A STACK_STATE from the lead sets the followed lead, maps and power-state order (R648). -/
  | stackState (dt : Nat)
  /-- A MEMBER_STATE updates the lead's present map and power-state inputs (R649). -/
  | memberState (dt : Nat)
  /-- A ROUTE updates the hop counts to each member (R644). -/
  | route (dt : Nat)
  /-- A forwarded COMMAND is executed in sequence order on the member (R646). -/
  | command (dt : Nat)
  /-- A member's reply or notice reaches the lead for the bound transport (R88). -/
  | replyNotice (dt : Nat)
  /-- A member's meter result reaches the lead's upstream queue (R420). -/
  | meterResult (dt : Nat)
  /-- A downstream SDU with its DISTRUST flag reaches its member's destination (R317). -/
  | sduDown (dt : Nat)
  /-- Upstream traffic from a member enters the lead's queue or tributary reservation (R375). -/
  | sduUp (dt : Nat)
  /-- A refusal passed back by the lead is acted on by its source (R375). -/
  | refusal (dt : Nat)
  /-- The lead reads or writes a member's register over Strait (R439). -/
  | regAccess (dt : Nat)
  /-- Identity, allocation or downstream-loss data reach a member (R343). -/
  | termData (dt : Nat)
  /-- A pushed tree record is stored by a standby lead (R349). -/
  | treeRecord (dt : Nat)
  /-- Configuration image parts are written to flash and applied, or the member is quarantined (R657). -/
  | config (dt : Nat)
  /-- Firmware image parts are written, checked and activated on a VERSION-quarantined member (R658). -/
  | image (dt : Nat)
  /-- Every PERIOD_MS the parent starts a TIME_SYNC, TIME_REQ, TIME_RESP exchange (R652). -/
  | timeExchange (dt : Nat)
  /-- A completed time exchange gives the offset to the servo and updates B, TIME_LOOSE and suspension (R653). -/
  | timeResp (dt : Nat)
  /-- A member's PHASE message is compared with the lead's angles for PHASE_SKEW (R654). -/
  | phase (dt : Nat)
  /-- Every 16 ms each member sends ROUTE on each link that is UP (R644). -/
  | routeTimer (dt : Nat)
  /-- Every 1.024 s each member sends ANNOUNCE (R647). -/
  | announceTimer (dt : Nat)
  /-- Every 32 ms the lead sends STACK_STATE and members send MEMBER_STATE (R649). -/
  | stackStateTimer (dt : Nat)
  /-- ELECT_MS after step 7 begins, a member joins a lead or the top candidate becomes lead (R648). -/
  | electTimeout (dt : Nat)
  /-- No STACK_STATE for LOST_MS declares the lead lost and queues SK_LEAD_LOST (R660). -/
  | leadLost (dt : Nat)
  /-- A lead with fewer than half of EXPECT present for LOST_MS abdicates and darkens its transmitters (R661). -/
  | abdicate (dt : Nat)
  /-- After TAKEOVER_MS the top reachable candidate takes over, raises TERM and sends LEAD_CHANGE (R662). -/
  | takeover (dt : Nat)
  /-- Command SK_STATUS returns stack status, configuration, time and members (R667). -/
  | skStatus (dt : Nat) (tag : BitVec 16) (params : List Byte)
  /-- Command SK_CFG_WRITE writes into the lead's configuration staging area (R667). -/
  | skCfgWrite (dt : Nat) (tag : BitVec 16) (params : List Byte)
  /-- Command SK_CFG_COMMIT checks the staged image and pushes it to every member (R657). -/
  | skCfgCommit (dt : Nat) (tag : BitVec 16) (params : List Byte)
  /-- Command SK_QUARANTINE quarantines or releases a member (R667). -/
  | skQuarantine (dt : Nat) (tag : BitVec 16) (params : List Byte)
  /-- A 1.024 s rate window ends and a SUPPRESSED record gives the count (R671). -/
  | suppressWindowEnd (dt : Nat) (source : Nat)
  /-- A flush starts on the reserve, on command or when owed, and snapshots the ring (R679). -/
  | flushStart (dt : Nat)
  /-- A flush erase or page program completes and the next step is admitted or the flush ends (R681). `ok` says
  whether the read-back succeeded (at the second try at the latest). -/
  | flushStepDone (dt : Nat) (ok : Bool)
  /-- Command AL_STATUS returns ash status, next SEQ, counters and F (R688). -/
  | alStatus (dt : Nat) (tag : BitVec 16) (params : List Byte)
  /-- Command AL_READ returns records from the ring (R688). -/
  | alRead (dt : Nat) (tag : BitVec 16) (params : List Byte)
  /-- Command AL_ARCHIVES returns the archive headers and states (R688). -/
  | alArchives (dt : Nat) (tag : BitVec 16) (params : List Byte)
  /-- Command AL_ARCH_READ returns bytes of an archive slot (R688). -/
  | alArchRead (dt : Nat) (tag : BitVec 16) (params : List Byte)
  /-- Command AL_UPLOAD sends an archive or the ring upstream or on Ethernet (R684). -/
  | alUpload (dt : Nat) (tag : BitVec 16) (params : List Byte)
  /-- Command AL_FLUSH runs a flush and replies when it ends (R679). -/
  | alFlush (dt : Nat) (tag : BitVec 16) (params : List Byte)
  /-- Command AL_WAVE writes a WAVE record (R674). -/
  | alWave (dt : Nat) (tag : BitVec 16) (params : List Byte)
  /-- Command AL_MARK writes a MARK record (R688). -/
  | alMark (dt : Nat) (tag : BitVec 16) (params : List Byte)
  /-- The patrol scrubber reads the next word, corrects it and detects hard faults (R696). `r` is what the read of
  the next word finds. -/
  | scrubRead (dt : Nat) (r : WordRead)
  /-- A field repair copies a row or lane into a spare and switches it (R701). -/
  | fieldRepair (dt : Nat)
  /-- Stoker writes the repair log to the flash sector not taken, when admitted (R704). -/
  | repairLogFlash (dt : Nat)
  /-- The Hearth scrubber pass corrects words and acts on uncorrectable ones (R705). `region` is the row of Table
  MM-3, from 0, `offset` the word within the region, `r` what the read finds. -/
  | hearthScrub (dt : Nat) (region : Nat) (offset : Nat) (r : WordRead)
  /-- Command MM_STATUS returns memory status, map, counters and banks (R709). -/
  | mmStatus (dt : Nat) (tag : BitVec 16) (params : List Byte)
  /-- Command MM_LOG returns the Hearth repair log (R709). -/
  | mmLog (dt : Nat) (tag : BitVec 16) (params : List Byte)
  /-- Command MM_WITHDRAW enters a bank withdrawal taking effect at the next start (R709). -/
  | mmWithdraw (dt : Nat) (tag : BitVec 16) (params : List Byte)
  /-- A flash erase or page program that was started (image slot erase or write, boot record, configuration copy,
  repair log sector, pre-erase) completes and its reply or the next action follows (R154). `ok` says whether the
  read-back succeeded. -/
  | flashOperationDone (dt : Nat) (ok : Bool)
  /-- An eye-margin measurement finishes its dwell counts and its openings or mismatch count are reported, with
  LN_MARGIN or a lane failure if required (R278). `phase` are the mismatches at the 65 phase steps from −32 on,
  `volt` those at the 127 voltage steps from −63 on where both openings were asked for, `point` those of a measurement at
  one point. -/
  | eyeMeasurementDone (dt : Nat) (lane : Nat) (phase : List Nat) (volt : List Nat) (point : Nat)
  /-- An MPn_RXD line that was held low returns high, and MP_BUS of kind released is queued (R427). -/
  | busReleased (dt : Nat) (port : Nat)
  /-- The entropy source's start-up test of 4,096 raw bits passes, RNG_FAIL clears, the DRBG instances are
  instantiated and CY_STATUS.READY is set (R508). -/
  | startUpTestPassed (dt : Nat)
  /-- The Hearth crystal starts or runs again, the Hearth returns to it from the internal oscillator, and a CLOCK
  record of kind 2 is written (R69). -/
  | crystalRunningAgain (dt : Nat)
  /-- 3 s pass with no other member announcing a duplicated member number, and the DUPLICATE quarantine ends (R650). -/
  | duplicateQuietTimeout (dt : Nat)
  /-- A member's MEMBER_STATE has not been received for LOST_MS, it drops from the lead's present map, and SK_MEMBER
  is queued (R649). -/
  | memberStateTimeout (dt : Nat)
  /-- A phase input reads −512 or +511 for 4 or more consecutive ADC samples and MA_PHp_STAT.CLIP is set (R231). -/
  | phaseClipped (dt : Nat) (phase : Nat)
  /-- A key update has waited 1 ms for decryptions that use the inactive bank; those decryptions end with CY_NO_KEY
  and DISTRUST, and the update proceeds (R513). -/
  | inactiveBankWaitTimeout (dt : Nat)
  deriving DecidableEq, Repr

end Sys2Proof
end

