-- ==== Sys2Proof/Decode.lean ====
section
/-! DEFINITION. Decoding of table words. The opcode table of this block gives no row any bits: a
command is an event of a pin, a bus or a protocol, so no word spells one. -/

namespace Sys2Proof

/-- The command that a word of the opcode table spells: none, since the table gives no row bits. -/
def decodeTableWord (_nbits _w : Nat) : Option Instr := none

end Sys2Proof
end

