-- ==== Sys2Proof/Config.lean ====
section
/-! DEFINITION. What one part fixes (its fuses), the standards that the spec takes by reference, and
the free values: constants with no body, so that no proof can rest on what they are. -/

namespace Sys2Proof.Config

/-- A free value: what the spec leaves open in the n-th place where the machine meets it (DRBG
draws, undefined contents, choices the spec does not make). The step applies it to the counter
`State.freeIdx` and advances that counter (log entry 2). -/
opaque free : Nat → Nat

/-- The rate of the internal Hearth oscillator in its n-th interval, as an offset in parts per
million from 32,768 Hz. R69 and R741 bound it by 50,000 either way; nothing else is known of it. -/
opaque intOscPpm : Nat → Int

/-- The ticks that the main rails take to reach their windows when they begin to rise at a tick: the board's (R43). -/
opaque railRise : Nat → Nat

/-- The chip serial, a fuse of 64 bits (R25). -/
opaque chipSerial : Nat

/-- The grade fuse of CMD_CHIP_ID: `true` for the CV-7216-X (R22). -/
opaque gradeX : Bool

/-- The device key, a fuse of 256 bits (R492). -/
opaque deviceKey : List Byte

/-- The factory repairs, in fuses (R697): bank, whether a row or a lane, which one, and its spare. -/
opaque factoryRepairs : List (Nat × Bool × Nat × Nat)

/-- The Pergidom public key of the boot ROM (R134), a point of P-256. -/
opaque pergidomKey : Nat × Nat

/-- The slot and the ASEQ that the first archive takes where the flash holds none (log entry 7). -/
opaque firstArchive : Nat × Nat

/-- The copy and the SEQ that the first boot record takes where neither copy is valid (log entry 124). -/
opaque firstRecord : Nat × Nat

/-- What the parameter sets of a stream loaded with PC_DEC_LOAD say of its geometry, by the stream's bytes: the spec
leaves the layout of parameter sets to H.265 (log entry 2). -/
opaque streamGeom : Nat → Nat

end Sys2Proof.Config
end

