-- ==== Sys2Proof/Machine/Bits.lean ====
section
/-! DEFINITION. Byte strings and modular arithmetic: the most significant byte first (R9), the signed
modular difference of 00 "Tables, examples, pseudocode and timing", and the CRCs of R83 and R84. -/

namespace Sys2Proof.Machine

/-- A byte of a number. -/
def byte (n : Nat) : Byte := BitVec.ofNat 8 n

/-- The `n` bytes of a number, most significant first (R9). -/
def be : Nat → Nat → List Byte
  | 0, _ => []
  | n + 1, v => byte (v / 256 ^ n) :: be n v

/-- The number that a byte string spells, most significant byte first (R9). -/
def ofBe (l : List Byte) : Nat := l.foldl (fun a b => a * 256 + b.toNat) 0

/-- The `n` bytes of a byte string at offset `o`, as a number; bytes past its end count as 0. -/
def field (l : List Byte) (o n : Nat) : Nat :=
  ofBe (((l.drop o).take n) ++ List.replicate (n - (l.drop o).length) 0)

/-- `n` bytes of a string at offset `o`, filled with zeros past its end. -/
def bytesAt (l : List Byte) (o n : Nat) : List Byte :=
  (l.drop o).take n ++ List.replicate (n - (l.drop o).length) 0

/-- A byte string cut or filled with zeros to exactly `n` bytes. -/
def padTo (n : Nat) (l : List Byte) : List Byte := bytesAt l 0 n

/-- Bits [hi:lo] of a number (R8). -/
def bits (v hi lo : Nat) : Nat := v / 2 ^ lo % 2 ^ (hi + 1 - lo)

/-- Bit n of a number. -/
def bitOf (v n : Nat) : Bool := v / 2 ^ n % 2 == 1

/-- A Boolean as a bit. -/
def b2n (b : Bool) : Nat := if b then 1 else 0

/-- A number as a w-bit two's complement integer. -/
def toSigned (w v : Nat) : Int :=
  let m := v % 2 ^ w
  if m < 2 ^ (w - 1) then (m : Int) else (m : Int) - (2 : Int) ^ w

/-- An integer in w-bit two's complement. -/
def ofSigned (w : Nat) (v : Int) : Nat := (v % (2 : Int) ^ w).toNat

/-- The signed modular difference of width w (00): congruent to a − b modulo 2^w. -/
def sdiff (w a b : Nat) : Int := toSigned w ((a % 2 ^ w + 2 ^ w - b % 2 ^ w) % 2 ^ w)

/-- A value limited to a maximum: a counter that saturates (R18). -/
def sat (max v : Nat) : Nat := if v ≤ max then v else max

/-- One bit of CRC-16 with polynomial 0x1021, most significant bit first. -/
def crc16Bit (c : Nat) : Nat :=
  if c / 0x8000 % 2 = 1 then Nat.xor (c * 2 % 0x10000) 0x1021 else c * 2 % 0x10000

/-- One byte of CRC-16. -/
def crc16Byte (c : Nat) (b : Byte) : Nat :=
  let x := Nat.xor c (b.toNat * 256)
  crc16Bit (crc16Bit (crc16Bit (crc16Bit (crc16Bit (crc16Bit (crc16Bit (crc16Bit x)))))))

/-- CRC-16 of a byte string (R83). -/
def crc16 (l : List Byte) : Nat := l.foldl crc16Byte 0xFFFF

/-- One bit of the reflected CRC-32. -/
def crc32Bit (c : Nat) : Nat := if c % 2 = 1 then Nat.xor (c / 2) 0xEDB88320 else c / 2

/-- One byte of the reflected CRC-32. -/
def crc32Byte (c : Nat) (b : Byte) : Nat :=
  let x := Nat.xor c b.toNat
  crc32Bit (crc32Bit (crc32Bit (crc32Bit (crc32Bit (crc32Bit (crc32Bit (crc32Bit x)))))))

/-- CRC-32 of a byte string (R84): reflected, initial value and final XOR of all ones. -/
def crc32 (l : List Byte) : Nat := Nat.xor (l.foldl crc32Byte 0xFFFFFFFF) 0xFFFFFFFF

/-- Reads the entry of a list that stands for an array, with the array's empty entry past its end. -/
def at? (l : List α) (i : Nat) (d : α) : α := l.getD i d

/-- The first byte positions of SYNC, 0xC716 (Table CMD-2). -/
def sync0 : Byte := 0xC7#8
/-- The second byte of SYNC. -/
def sync1 : Byte := 0x16#8

end Sys2Proof.Machine
end

