-- ==== Sys2Proof/Machine/Registers.lean ====
section
/-! DEFINITION. The register tables of every block: each register's address, its fields, their access
codes (Table SC-3), reset values and legal values, and the sparse register store over them. -/

namespace Sys2Proof.Machine

/-- Access codes (Table SC-3). -/
inductive Acc where
  | rw | ro | wo | w1c | rc
  deriving DecidableEq, Repr

/-- One field of a register: bits [hi:lo], access, reset value, and the values [min, max] that are
not reserved. -/
structure FieldSpec where
  hi : Nat
  lo : Nat
  acc : Acc
  reset : Nat
  min : Nat
  max : Nat
  deriving DecidableEq, Repr

/-- One register, or an array of `n1` × `n2` registers at `base + i * s1 + j * s2`. -/
structure RegSpec where
  base : Nat
  n1 : Nat
  s1 : Nat
  n2 : Nat
  s2 : Nat
  fields : List FieldSpec
  deriving DecidableEq, Repr

/-- A field read and written, any value legal. -/
def fRW (hi lo reset : Nat) : FieldSpec := ⟨hi, lo, .rw, reset, 0, 0xFFFFFFFF⟩
/-- A field read and written, whose values outside [a, b] are reserved. -/
def fIn (hi lo reset a b : Nat) : FieldSpec := ⟨hi, lo, .rw, reset, a, b⟩
/-- A read-only field. -/
def fRO (hi lo : Nat) : FieldSpec := ⟨hi, lo, .ro, 0, 0, 0xFFFFFFFF⟩
/-- A read-only field with a reset value. -/
def fROv (hi lo reset : Nat) : FieldSpec := ⟨hi, lo, .ro, reset, 0, 0xFFFFFFFF⟩
/-- A field that a read clears. -/
def fRC (hi lo : Nat) : FieldSpec := ⟨hi, lo, .rc, 0, 0, 0xFFFFFFFF⟩
/-- A field that a write of 1 clears. -/
def fW1C (hi lo : Nat) : FieldSpec := ⟨hi, lo, .w1c, 0, 0, 0xFFFFFFFF⟩

/-- A single register. -/
def reg (base : Nat) (fields : List FieldSpec) : RegSpec := ⟨base, 1, 0x1000000, 1, 0x1000000, fields⟩
/-- An array of registers. -/
def regs (base n s : Nat) (fields : List FieldSpec) : RegSpec := ⟨base, n, s, 1, 0x1000000, fields⟩
/-- An array of arrays of registers. -/
def regs2 (base n1 s1 n2 s2 : Nat) (fields : List FieldSpec) : RegSpec := ⟨base, n1, s1, n2, s2, fields⟩

/-- CMD (Tables SC-5, BA-9, CMD-12 to CMD-18, SU-11, SU-12). -/
def regsCmd : List RegSpec := [
  reg 0x000000 [fROv 31 16 0x7216, fROv 15 12 3, fRO 11 8],
  reg 0x000004 [fRO 9 0],
  reg 0x000008 [fRO 31 0],
  reg 0x00000C [fIn 15 0 60 1 0xFFFF],
  reg 0x000010 [fRC 31 24, fRC 23 16, fRC 15 8, fRC 7 4, fRC 3 0],
  reg 0x000014 [fRW 18 0 0],
  reg 0x000018 [fRC 31 0],
  reg 0x00001C [fRO 31 0],
  reg 0x000020 [fRO 31 16, fRO 7 0],
  reg 0x000024 [fRO 31 0]]

/-- HRT (Tables HRT-9 to HRT-14). -/
def regsHrt : List RegSpec := [
  reg 0x010000 [fRC 31 16, fRO 7 0],
  reg 0x010004 [fRO 15 0],
  reg 0x010008 [fRO 31 0],
  reg 0x01000C [fRO 14 0],
  reg 0x010010 [fRW 15 0 0],
  reg 0x010014 [fRW 31 0 0],
  reg 0x010018 [fRW 31 31 0, fRW 14 0 0],
  regs 0x010020 8 4 [fIn 9 8 0 0 2, fIn 7 4 2 1 15, fRW 3 3 0, fRW 2 2 0, fRW 1 1 0, fRW 0 0 1],
  regs 0x010040 2 4 [fRW 31 31 0, fRW 3 0 0],
  reg 0x010048 [fW1C 25 24, fW1C 23 16, fRO 7 0],
  reg 0x01004C [fRW 23 16 140, fRO 7 0],
  reg 0x010050 [fRW 31 16 0, fIn 15 8 205 1 255, fIn 7 0 160 16 255],
  reg 0x010054 [fRW 25 16 352, fRW 9 0 384],
  reg 0x010058 [fRO 31 0],
  reg 0x01005C [fIn 31 30 2 0 2, fIn 29 24 50 3 63, fIn 23 16 20 3 255, fRW 15 8 40, fRW 7 0 30],
  reg 0x010060 [fIn 31 16 2000 1 0xFFFF, fIn 15 0 1000 1 0xFFFF],
  reg 0x010064 [fRW 5 5 0, fRW 4 4 0, fRW 3 3 0, fRW 2 2 0, fRW 1 1 1, fRW 0 0 1],
  reg 0x010068 [fRO 7 0]]

/-- NT (Tables NT-8 to NT-10). -/
def regsNt : List RegSpec := [
  reg 0x020000 [fRO 31 27, fRO 18 16, fRO 15 0],
  reg 0x020004 [fRO 15 0],
  reg 0x020008 [fRO 31 0],
  reg 0x02000C [fRO 29 0],
  reg 0x020010 [fRO 23 0],
  reg 0x020014 [fRW 31 0 0x03200000],
  reg 0x020018 [fRO 31 0],
  reg 0x02001C [fRW 15 0 0],
  reg 0x020020 [fIn 31 24 100 1 255, fIn 23 16 50 1 255, fIn 15 12 4 1 15, fIn 11 8 4 1 15, fIn 7 0 60 1 255],
  reg 0x020024 [fRC 31 16, fRC 15 8, fRC 7 0],
  reg 0x020028 [fRO 31 0],
  reg 0x02002C [fRW 31 31 1, fIn 9 0 100 1 999],
  regs 0x020100 16 16 [fRO 31 29, fW1C 28 26, fRO 25 12, fRC 11 0],
  regs 0x020104 16 16 [fRO 15 0],
  regs 0x020108 16 16 [fRO 31 0],
  regs 0x02010C 16 16 [fRO 31 0]]

/-- MA (Tables MA-4, MA-8, MA-9). -/
def regsMa : List RegSpec := [
  reg 0x030000 [fRO 22 20, fRO 17 16, fRO 8 6, fRO 2 0],
  reg 0x030004 [fIn 31 24 60 1 255, fIn 23 20 4 1 15, fIn 19 16 8 4 15, fIn 15 8 16 1 255, fRW 7 7 0,
    fIn 6 4 7 1 7, fIn 1 0 0 0 2],
  reg 0x030008 [fIn 31 24 91 1 255, fRW 23 16 64, fIn 15 12 2 0 7, fRW 11 0 1820],
  reg 0x03000C [fRO 31 0],
  reg 0x030010 [fRO 31 0],
  reg 0x030014 [fRO 15 0],
  reg 0x030018 [fRO 31 0],
  regs 0x030020 3 4 [fRO 31 16, fRC 15 8, fRO 7 6],
  reg 0x030030 [fRC 31 24, fRC 23 16, fRC 15 8, fRC 7 0],
  regs 0x030040 16 4 [fIn 31 16 0 0 15000, fIn 15 8 20 1 255, fRW 7 4 0, fRW 3 3 0, fRW 0 0 0],
  regs 0x031000 512 16 [fRW 31 16 0, fRW 15 12 0, fIn 11 10 0 0 2, fRW 9 0 0],
  regs 0x031004 512 16 [fRW 31 16 0, fRW 15 11 0],
  regs 0x031008 512 16 [fRO 31 0],
  regs 0x03100C 512 16 [fW1C 4 0]]

/-- LN (Tables LN-8 to LN-10). -/
def regsLn : List RegSpec := [
  reg 0x040000 [fIn 20 16 4 0 16, fIn 12 8 8 0 16, fRO 1 0],
  reg 0x040004 [fRC 31 16, fRC 15 0],
  reg 0x040008 [fIn 31 24 16 1 255, fIn 23 16 60 1 255, fRW 15 8 0, fRW 7 2 12, fRW 1 1 0, fRW 0 0 1],
  regs 0x040010 2 4 [fROv 15 0 0x1A1A],
  regs 0x040100 9 16 [fRW 31 31 0, fIn 30 29 0 0 2, fRW 28 25 0, fRW 24 23 2, fRW 22 20 0, fIn 19 18 1 0 2,
    fIn 15 8 12 1 255],
  regs 0x040104 9 16 [fRO 31 16, fRO 7 6, fW1C 5 5, fW1C 4 4, fRO 3 0],
  regs 0x040108 9 16 [fRO 3 0],
  regs 0x04010C 9 16 [fRC 31 16, fRC 15 8, fRC 7 0]]

/-- TD (Tables TD-13 to TD-16). -/
def regsTd : List RegSpec := [
  reg 0x050000 [fIn 27 24 3 1 15, fIn 23 19 5 2 16, fIn 18 15 3 1 8, fRW 14 13 1, fRW 0 0 1],
  reg 0x050004 [fRO 31 31, fROv 30 30 1, fRO 29 18, fRO 5 0],
  reg 0x050008 [fRO 29 0],
  reg 0x05000C [fRO 31 0],
  reg 0x050010 [fRC 31 16, fRC 15 8, fRC 7 0],
  reg 0x050014 [fRC 31 16, fRC 15 8, fRC 7 0],
  reg 0x050018 [fRC 31 16, fRC 15 0],
  reg 0x05001C [fRC 31 16, fRC 15 8, fRC 7 0],
  reg 0x050020 [fRC 31 24, fRC 23 16, fRC 15 8, fRC 7 0],
  regs 0x050100 2 32 [fRC 31 16, fRC 15 8, fRC 7 0],
  regs 0x050104 2 32 [fRC 31 0],
  regs 0x050108 2 32 [fRC 31 16, fRC 15 0],
  reg 0x054000 [fIn 31 31 0 0 0, fRW 30 30 0, fIn 29 28 0 0 1, fRW 27 25 0, fIn 24 20 0 0 11, fRW 9 8 0, fRW 7 0 0],
  reg 0x054004 [fROv 31 31 1, fRW 30 30 0, fIn 29 28 0 0 1, fRW 27 25 0, fRO 24 20, fRW 9 8 0, fRW 7 0 0],
  regs 0x054008 4093 4 [fRW 31 31 0, fRW 30 30 0, fIn 29 28 0 0 1, fRW 27 25 0, fIn 24 20 0 0 11, fRW 9 8 0, fRW 7 0 0],
  reg 0x057FFC [fIn 31 31 0 0 0, fRW 30 30 0, fIn 29 28 0 0 1, fRW 27 25 0, fIn 24 20 0 0 11, fRW 9 8 0, fRW 7 0 0]]

/-- TM (Tables TM-12, TM-13). -/
def regsTm : List RegSpec := [
  reg 0x060000 [fRO 31 20, fRO 15 0],
  reg 0x060004 [fRO 23 0],
  reg 0x060008 [fRO 31 31, fRO 23 0],
  reg 0x06000C [fRO 31 31, fRO 23 0],
  reg 0x060010 [fRW 31 24 20, fRW 16 16 1, fIn 15 8 72 1 255, fIn 1 0 3 1 3],
  reg 0x060014 [fIn 31 24 100 1 255, fIn 23 16 10 1 255, fIn 15 8 20 1 255],
  reg 0x060018 [fRW 31 31 0, fRW 30 30 1, fRW 23 16 20, fIn 15 0 300 1 0xFFFF],
  reg 0x06001C [fRO 31 31, fRO 29 0],
  reg 0x060020 [fRC 31 24, fRC 23 16, fRC 15 8, fRC 7 0],
  reg 0x060024 [fRC 31 16, fRC 15 8, fRC 7 4, fRC 3 0],
  regs 0x060040 8 4 [fRO 31 30, fRO 11 0]]

/-- UP (Tables UP-10 to UP-12). -/
def regsUp : List RegSpec := [
  reg 0x070000 [fIn 23 16 32 1 255, fIn 15 8 20 10 60],
  reg 0x070004 [fRO 31 29, fRO 20 0],
  reg 0x070008 [fRW 31 20 150, fRW 19 8 1200, fRW 7 0 25],
  reg 0x07000C [fIn 10 0 384 64 1024],
  reg 0x070010 [fIn 12 8 31 1 31, fIn 4 0 30 1 31],
  reg 0x070014 [fRW 31 31 1, fIn 27 24 6 1 10, fIn 23 16 24 1 255, fIn 15 8 8 1 255],
  reg 0x070018 [fRC 31 16, fRC 15 8, fRC 7 0],
  reg 0x07001C [fRC 31 16, fRC 15 0],
  reg 0x070020 [fRC 31 16, fRC 15 8],
  reg 0x070024 [fRC 31 0],
  regs 0x070040 4 4 [fRW 31 31 0, fRW 18 16 0],
  reg 0x070100 [fROv 31 31 1, fRO 30 28, fRO 27 26, fIn 25 18 1 1 255, fROv 17 8 512],
  reg 0x070104 [fROv 31 20 1, fIn 19 18 0 0 1, fRW 17 16 0, fRW 15 8 0],
  regs 0x070110 31 16 [fRW 31 31 0, fRW 30 28 0, fRW 27 26 0, fIn 25 18 1 1 255, fIn 17 8 64 1 1023],
  regs 0x070114 31 16 [fRW 31 20 0, fIn 19 18 0 0 1, fRW 17 16 0, fRW 15 8 0],
  regs 0x070108 32 16 [fRO 20 0],
  regs 0x07010C 32 16 [fRC 31 16, fRC 15 0],
  regs 0x070400 40 16 [fRW 31 31 1, fRW 30 30 0, fRW 29 24 8, fIn 19 0 16384 1 0xFFFFF],
  regs 0x070404 40 16 [fRW 23 0 0],
  regs 0x070408 40 16 [fRO 31 0],
  regs 0x070800 16 32 [fRW 31 31 0, fRW 30 30 0, fRW 29 29 0, fIn 28 24 0 1 31, fIn 22 16 75 0 100, fRW 4 0 20],
  regs 0x070804 16 32 [fRW 23 0 0],
  regs 0x070808 16 32 [fRW 23 0 0],
  regs 0x07080C 16 32 [fRW 31 16 0x0100, fRW 15 0 0x0100],
  regs 0x070810 16 32 [fRC 31 16, fRC 15 0]]

/-- MP (Tables MP-11, MP-12). -/
def regsMp : List RegSpec := [
  reg 0x080000 [fIn 9 0 256 16 1023],
  reg 0x080004 [fRC 31 16, fRC 15 8, fRC 7 0],
  regs 0x080100 48 32 [fRW 31 31 0, fRW 30 30 0, fRW 29 29 0, fRW 28 28 1, fIn 27 26 0 0 2, fRW 25 25 0,
    fIn 24 23 0 0 2, fRW 22 21 0, fIn 20 16 1 1 31, fIn 11 0 512 16 2048],
  regs 0x080104 48 32 [fIn 16 0 2083 174 66667],
  regs 0x080108 48 32 [fRW 31 24 16, fRW 23 16 8, fRW 15 8 4, fIn 7 0 35 2 255],
  regs 0x08010C 48 32 [fIn 31 16 500 1 0xFFFF, fIn 15 8 40 2 255, fRW 7 0 20],
  regs 0x080110 48 32 [fRW 31 24 0, fIn 20 16 16 1 16, fRW 15 8 0, fRW 1 1 0, fRW 0 0 0],
  regs 0x080114 48 32 [fRO 6 4, fROv 2 0 7],
  regs 0x080118 48 32 [fRC 31 24, fRC 23 16, fRC 15 8, fRC 7 0],
  regs 0x08011C 48 32 [fRC 31 16, fRC 15 8, fRC 7 0],
  regs 0x081000 64 4 [fRO 31 30, fRO 23 8, fRC 7 0]]

/-- TB (Tables TB-7, TB-8). -/
def regsTb : List RegSpec := [
  reg 0x090000 [fIn 15 12 2 1 15, fIn 11 8 4 1 15],
  regs 0x090100 4 32 [fRW 31 31 0, fIn 13 12 1 0 2, fIn 11 8 2 2 6, fIn 5 0 1 1 32],
  regs 0x090104 4 32 [fRW 31 20 0, fIn 19 18 0 0 1, fRW 17 16 0, fRW 7 0 0],
  regs 0x090108 4 32 [fRO 31 27, fRO 11 0],
  regs 0x09010C 4 32 [fRC 31 16, fRC 15 0],
  regs 0x090110 4 32 [fRC 31 24, fRC 23 16, fRC 15 8, fRC 7 0],
  regs 0x090114 4 32 [fRC 31 24, fRC 23 16],
  regs 0x090118 4 32 [fRC 31 16, fRC 15 0]]

/-- EM (Tables EM-8, EM-9). -/
def regsEm : List RegSpec := [
  reg 0x0A0000 [fIn 7 0 64 64 255],
  regs 0x0A0100 2 256 [fRW 31 31 0, fRW 30 30 0, fRW 29 29 0, fRW 28 28 1, fIn 27 26 2 0 2, fRW 25 25 0,
    fRW 24 24 0, fRW 23 23 0, fRW 22 22 0, fRW 21 18 0, fIn 13 0 1522 64 9216],
  regs 0x0A0104 2 256 [fRO 31 27, fRC 15 0],
  regs 0x0A0108 2 256 [fRC 31 28, fRC 27 24, fRC 23 20, fRC 19 16, fRC 15 12, fRC 11 8, fRC 7 0],
  regs2 0x0A0110 2 256 8 4 [fRW 31 31 0, fRW 30 30 0, fRW 29 18 0, fRW 17 10 0, fRW 3 0 0],
  regs2 0x0A0140 2 256 32 4 [fRO 31 0]]

/-- CY (Table CY-13). -/
def regsCy : List RegSpec := [
  reg 0x0B0000 [fIn 15 8 64 1 255, fRW 1 0 3],
  reg 0x0B0004 [fRO 31 27, fRO 8 0],
  reg 0x0B0008 [fRC 31 16, fRC 15 8, fRC 7 0],
  reg 0x0B000C [fRC 31 16, fRC 15 0],
  reg 0x0B0010 [fRC 31 16, fRC 15 0],
  regs 0x0B0100 4 16 [fRW 31 31 1],
  regs 0x0B0104 4 16 [fRO 10 0],
  regs 0x0B0108 4 16 [fRC 31 16, fRC 15 0]]

/-- PC (Tables PC-16, PC-17). -/
def regsPc : List RegSpec := [
  reg 0x0C0000 [fIn 28 16 4096 1024 4096, fIn 15 8 16 1 255, fIn 6 0 50 10 90],
  reg 0x0C0004 [fRO 31 16, fRO 11 6],
  reg 0x0C0008 [fRO 31 0],
  reg 0x0C000C [fIn 31 30 0 0 2, fIn 13 0 1456 256 8176],
  reg 0x0C0010 [fRW 15 0 0],
  reg 0x0C0014 [fRW 31 0 0],
  reg 0x0C0018 [fRW 15 0 0],
  reg 0x0C001C [fRW 31 0 0],
  reg 0x0C0020 [fRW 31 0 0],
  reg 0x0C0024 [fRW 31 0 0],
  reg 0x0C0028 [fRW 31 16 0, fRW 15 0 0],
  regs 0x0C0100 4 64 [fRW 31 31 0, fRW 30 30 0, fRW 29 29 0, fRW 28 27 1, fRW 26 26 0, fIn 23 16 160 8 160,
    fIn 15 8 120 8 120, fIn 3 0 2 2 8],
  regs 0x0C0104 4 64 [fIn 25 16 50 1 1023, fIn 4 0 30 1 30],
  regs 0x0C0108 4 64 [fRW 31 31 1, fIn 29 24 30 0 51, fIn 21 16 32 0 51, fIn 13 8 20 0 51, fIn 5 0 45 0 51],
  regs 0x0C010C 4 64 [fIn 31 18 1000 64 12000, fIn 17 4 2000 64 12000, fRW 3 0 3],
  regs 0x0C0110 4 64 [fRC 31 16, fRC 15 8, fRC 7 0],
  regs 0x0C0114 4 64 [fRC 31 24, fRC 23 16, fRC 15 8, fRC 7 0],
  regs 0x0C0118 4 64 [fRO 22 0],
  regs 0x0C011C 4 64 [fRO 31 24, fRO 15 0],
  reg 0x0C0200 [fRO 31 0]]

/-- WA (Table WA-7). -/
def regsWa : List RegSpec := [
  regs 0x0D0100 4 64 [fRW 31 31 0, fIn 30 29 0 0 2, fRW 28 28 0, fRW 26 20 0, fIn 19 17 0 1 7, fIn 15 0 100 1 0xFFFF],
  regs 0x0D0104 4 64 [fRW 31 0 0],
  regs 0x0D0108 4 64 [fRW 31 8 0],
  regs 0x0D010C 4 64 [fIn 31 30 0 0 2, fRW 29 21 0, fRW 20 20 0, fRW 15 0 0],
  regs 0x0D0110 4 64 [fRW 31 24 40, fIn 23 16 20 1 255, fRW 7 0 8],
  regs 0x0D0114 4 64 [fRO 31 20],
  regs 0x0D0118 4 64 [fRC 31 24, fRC 23 16, fRC 15 8, fRC 7 0],
  regs 0x0D011C 4 64 [fRC 31 24, fRC 23 16, fRC 15 8],
  regs2 0x0D0400 4 64 8 8 [fRW 31 25 0, fRW 24 18 0, fRW 17 12 0, fRW 11 6 0],
  regs2 0x0D0404 4 64 8 8 [fRW 31 31 0, fRW 30 30 0, fRW 29 29 0, fRW 28 28 0, fRW 27 20 4, fIn 19 16 2 1 15,
    fRW 15 8 8, fRW 7 0 64],
  regs 0x0D0800 4 32 [fRW 31 31 0, fRW 30 30 0, fRW 29 28 0, fRW 27 27 0, fRW 26 20 0, fRW 19 13 0, fRW 12 7 0,
    fRW 6 1 0, fRW 0 0 0],
  regs 0x0D0804 4 32 [fIn 31 16 0 64 0xFFFF, fIn 15 5 0 0 1279],
  regs 0x0D0808 4 32 [fRW 31 24 48, fRW 23 15 200, fRW 14 0 0],
  regs 0x0D080C 4 32 [fRW 31 24 64, fIn 23 20 3 1 15, fRW 19 12 60, fRW 11 0 0],
  regs 0x0D0810 4 32 [fRO 31 0],
  regs 0x0D0814 4 32 [fRO 31 0],
  regs 0x0D0818 4 32 [fRO 31 0],
  regs 0x0D081C 4 32 [fRO 31 8, fRO 2 0]]

/-- PW (Tables PW-8, PW-9). -/
def regsPw : List RegSpec := [
  reg 0x0E0000 [fRO 9 0],
  reg 0x0E0004 [fRO 27 16, fRO 11 0],
  regs 0x0E0100 8 32 [fRW 31 31 0, fRW 30 30 0, fRO 29 29, fIn 23 16 10 1 255, fIn 15 8 50 10 200, fIn 7 0 10 1 255],
  regs 0x0E0200 4 32 [fRW 31 31 0, fRW 30 30 0, fROv 29 29 1, fIn 23 16 10 1 255, fIn 15 8 50 10 200,
    fIn 7 0 10 1 255],
  regs 0x0E0104 12 32 [fIn 26 18 200 80 320, fIn 17 9 280 80 320, fIn 8 0 180 80 320],
  regs 0x0E0108 12 32 [fIn 31 24 100 20 200, fIn 23 16 50 1 255, fIn 15 8 40 1 255, fIn 7 0 50 1 255],
  regs 0x0E010C 12 32 [fIn 31 24 120 1 255, fIn 23 16 10 1 255, fIn 15 8 5 1 50],
  regs 0x0E0110 12 32 [fIn 31 24 30 1 255, fIn 23 16 50 1 255, fRW 15 12 2, fIn 7 0 10 1 255],
  regs 0x0E0114 12 32 [fRO 31 25, fRO 23 0],
  regs 0x0E0118 12 32 [fRO 25 16, fRO 9 0],
  regs 0x0E011C 12 32 [fRC 31 24, fRC 23 16, fRC 15 8, fRC 7 0]]

/-- ST (Tables ST-9, ST-10). -/
def regsSt : List RegSpec := [
  reg 0x0F0000 [fRO 31 16, fRO 6 4, fRO 2 0],
  regs 0x0F0100 2 256 [fRW 31 31 1, fIn 27 24 4 1 15, fIn 22 20 2 1 7, fIn 19 16 1 1 15, fIn 15 12 1 1 15,
    fIn 7 0 10 1 255],
  regs 0x0F0104 2 256 [fRO 31 23, fRO 10 0],
  regs 0x0F0108 2 256 [fRO 27 16, fRO 11 0],
  regs 0x0F010C 2 256 [fRO 27 24, fRO 19 16, fRO 11 0],
  regs 0x0F0110 2 256 [fIn 31 24 16 1 255, fIn 11 0 128 1 4095],
  regs 0x0F0114 2 256 [fIn 31 24 8 1 255, fIn 11 0 8 1 4095],
  regs 0x0F0118 2 256 [fIn 31 24 32 1 255, fIn 11 0 512 1 4095],
  regs 0x0F011C 2 256 [fIn 31 24 32 1 255, fIn 11 0 1024 1 4095],
  regs2 0x0F0120 2 256 4 4 [fRO 31 16, fRO 15 0],
  regs 0x0F0130 2 256 [fIn 31 24 16 1 255, fIn 23 16 1 1 255, fIn 15 8 64 1 255, fIn 7 0 96 1 255],
  regs 0x0F0134 2 256 [fRC 31 16, fRC 15 0],
  regs 0x0F0138 2 256 [fRC 31 16, fRC 15 8, fRC 7 0],
  regs 0x0F013C 2 256 [fRC 31 24, fRC 23 16, fRC 15 8, fRC 7 0]]

/-- SK (Table SK-10). -/
def regsSk : List RegSpec := [
  reg 0x100000 [fRO 31 0],
  reg 0x100004 [fIn 31 28 1 1 8, fRW 27 27 1, fRW 26 26 1, fIn 23 16 10 5 255, fIn 15 8 10 5 100, fRW 7 0 25],
  reg 0x100008 [fIn 31 22 16 1 128, fRO 21 0],
  reg 0x10000C [fRC 31 16, fRC 15 8, fRC 7 0],
  regs 0x100100 8 4 [fROv 31 28 8, fRO 27 19, fRO 15 0]]

/-- AL (Table AL-11). -/
def regsAl : List RegSpec := [
  reg 0x110000 [fRW 31 31 1, fRW 30 28 3, fRW 27 27 1, fIn 23 16 64 1 255, fIn 15 8 50 1 255],
  reg 0x110004 [fIn 31 20 3400 100 4095, fIn 19 8 2000 1 4095, fIn 7 0 120 1 255],
  reg 0x110008 [fRO 31 21, fRO 15 0],
  reg 0x11000C [fRO 31 0],
  reg 0x110010 [fRO 31 0],
  reg 0x110014 [fRC 31 16, fRC 15 8, fRC 7 0]]

/-- MM (Table MM-10). -/
def regsMm : List RegSpec := [
  reg 0x120000 [fRO 31 28, fRO 6 0],
  reg 0x120004 [fRO 31 0],
  reg 0x120008 [fRW 31 31 1, fRW 23 16 64, fIn 15 12 3 2 15, fIn 11 8 3 2 15, fIn 7 0 24 1 255],
  reg 0x12000C [fRC 31 16, fRC 15 0],
  reg 0x120010 [fRC 31 16, fRC 15 0],
  regs 0x120100 64 4 [fRO 31 29, fRO 27 0]]

/-- The registers of a block, by its number (Table SC-4). -/
def blockRegs : Nat → List RegSpec
  | 0x00 => regsCmd | 0x01 => regsHrt | 0x02 => regsNt | 0x03 => regsMa | 0x04 => regsLn
  | 0x05 => regsTd | 0x06 => regsTm | 0x07 => regsUp | 0x08 => regsMp | 0x09 => regsTb
  | 0x0A => regsEm | 0x0B => regsCy | 0x0C => regsPc | 0x0D => regsWa | 0x0E => regsPw
  | 0x0F => regsSt | 0x10 => regsSk | 0x11 => regsAl | 0x12 => regsMm | _ => []

/-- Whether a register, or an array of registers, is at an address. -/
def RegSpec.covers (r : RegSpec) (a : Nat) : Bool :=
  let o := a - r.base
  let i := o / r.s1
  let j := o % r.s1 / r.s2
  decide (r.base ≤ a) && decide (i < r.n1) && decide (j < r.n2) && r.base + i * r.s1 + j * r.s2 == a

/-- The fields of the register at an address; none where no register table lists it (R20). -/
def regFields (a : Nat) : List FieldSpec :=
  match (blockRegs (a / 0x10000)).find? (fun r => r.covers a) with
  | some r => r.fields
  | none => []

/-- The mask of a field's bits. -/
def FieldSpec.mask (f : FieldSpec) : Nat := (2 ^ (f.hi + 1 - f.lo) - 1) * 2 ^ f.lo

/-- The reset value of a register: its fields' reset values (R19). -/
def regReset (a : Nat) : Nat := (regFields a).foldl (fun v f => v + f.reset * 2 ^ f.lo) 0

/-- A field of the word of a register, as a number. -/
def FieldSpec.get (f : FieldSpec) (w : Nat) : Nat := bits w f.hi f.lo

/-- The register store: address and word, addresses strictly rising, no word equal to its
register's reset value (the canonical form; log entry 3). -/
abbrev RegFile := List (Nat × Nat)

/-- The word that the store holds for a register. -/
def RegFile.get : RegFile → Nat → Nat
  | [], a => regReset a
  | (b, v) :: t, a => if b = a then v else if b < a then RegFile.get t a else regReset a

/-- Writes a word into the store and keeps its canonical form. -/
def RegFile.set : RegFile → Nat → Nat → RegFile
  | [], a, v => if v = regReset a then [] else [(a, v)]
  | (b, w) :: t, a, v =>
    if b < a then (b, w) :: RegFile.set t a v
    else if b = a then if v = regReset a then t else (a, v) :: t
    else if v = regReset a then (b, w) :: t else (a, v) :: (b, w) :: t

/-- The canonical form of the register store. -/
def RegFile.wf : RegFile → Bool
  | [] => true
  | [(a, v)] => v != regReset a
  | (a, v) :: (b, w) :: t => v != regReset a && decide (a < b) && RegFile.wf ((b, w) :: t)

/-- The store after a reset of the main domain: every register outside the Hearth block at its
Reset column (R19). -/
def RegFile.hearthOnly (r : RegFile) : RegFile := r.filter (fun p => p.1 / 0x10000 == 0x01)

/-- Replaces bits [hi:lo] of a word. -/
def putBits (w hi lo v : Nat) : Nat :=
  w - bits w hi lo * 2 ^ lo + (v % 2 ^ (hi + 1 - lo)) * 2 ^ lo

/-- The word that a write of `v` leaves in a register holding `w`: RW fields take the value, W1C
bits written with 1 clear, every other field keeps what it holds (R15, R16, R21). -/
def regWritten (fs : List FieldSpec) (w v : Nat) : Nat :=
  fs.foldl (fun x f => match f.acc with
    | .rw => putBits x f.hi f.lo (f.get v)
    | .w1c => putBits x f.hi f.lo (Nat.land (f.get w) (Nat.xor (f.get v) (2 ^ (f.hi + 1 - f.lo) - 1)))
    | _ => x) w

/-- Whether a write gives no RW or WO field a reserved value (R17). -/
def regLegal (fs : List FieldSpec) (v : Nat) : Bool :=
  fs.all (fun f => match f.acc with
    | .rw | .wo => decide (f.min ≤ f.get v) && decide (f.get v ≤ f.max)
    | _ => true)

/-- The word that remains after a read has cleared the RC fields (Table SC-3). -/
def regCleared (fs : List FieldSpec) (w : Nat) : Nat :=
  fs.foldl (fun x f => if f.acc = .rc then putBits x f.hi f.lo 0 else x) w

/-- A word with its RC fields taken from another. -/
def regTakes (fs : List FieldSpec) (w v : Nat) : Nat :=
  fs.foldl (fun x f => if f.acc = .rc then putBits x f.hi f.lo (f.get v) else x) w

/-- What a read returns of a stored word: WO fields and reserved bits read 0 (R15, R21). -/
def regVisible (fs : List FieldSpec) (w : Nat) : Nat :=
  fs.foldl (fun x f => if f.acc = .wo then x else x + f.get w * 2 ^ f.lo) 0

end Sys2Proof.Machine
end

