-- ==== Sys2Proof/Machine/State.lean ====
section
/-! DEFINITION. The state of the block: everything the spec gives the chip, as plain data. `Hearth`
is what only a Hearth reset loses (R49), `Main` what every reset of the main domain loses (R120,
R726), `regs` the register words that differ from their reset values. -/

namespace Sys2Proof.Machine

/-! ### Command port (03) -/

/-- The transports a master may be bound to (Table BA-7). -/
inductive Transport where
  | tree | spi | uart
  deriving DecidableEq, Repr

/-- The states of an operation entry that is not FREE (Table CMD-3). -/
inductive OpState where
  | queued | running | replying
  deriving DecidableEq, Repr

/-- What a packet in the outbound queue is: a reply of an operation (its handle, and whether it is
final), the refusal of a packet that was not accepted, a copy of a notice (its number), or a NO_ROOM
reply of the reserved pool (R116). -/
inductive OutKind where
  | reply (op : Nat) (final : Bool)
  | refusal
  | notice (num : Nat)
  | pool
  deriving DecidableEq, Repr

/-- A packet on its way out. -/
structure OutPkt where
  kind : OutKind
  bytes : List Byte
  deriving DecidableEq, Repr

/-- The result of one member's execution of a command: status and reply parameters. -/
structure Result where
  member : Nat
  status : Nat
  params : List Byte
  deriving DecidableEq, Repr

/-- An entry of the operation table (R86, R87, Table CMD-3). `id` is the model's own handle: blocks
that reply later hold it, and it is never used twice. -/
structure OpEntry where
  id : Nat
  tag : Nat
  opcode : Nat
  member : Nat := 0
  all : Bool := false
  ordered : Bool := false
  st : OpState := .queued
  params : List Byte := []
  /-- When the command was accepted, and when its last reply packet was queued (R93). -/
  accepted : Nat := 0
  lastReply : Nat := 0
  /-- PART of the next reply packet (R92). -/
  part : Nat := 0
  /-- The intake it holds, in units of 16 bytes (R116). -/
  space : Nat := 0
  /-- The members whose final reply is awaited, and the results held for R90. -/
  await : List Nat := []
  results : List Result := []
  /-- Parts of a reply of another member that have arrived with MORE (R92): member and parameters. -/
  parts : List (Nat × List Byte) := []
  /-- Reply packets that wait for those of an earlier register access on the same member (R91). -/
  formed : List OutPkt := []
  /-- A command that the lead has forwarded to this member: its shadow entry (R87). -/
  shadow : Bool := false
  deriving DecidableEq, Repr

/-- What the held alarms need of a tamper event or mesh break that an alarm reports (R177, Table HRT-6): its Hearth
time, and whether it zeroised. -/
structure HrtEvent where
  time : List Byte := List.replicate 8 0#8
  zeroised : Bool := false
  deriving DecidableEq, Repr

/-- A notice that holds a place in the notice store (R97 to R101). -/
structure Notice where
  num : Nat
  code : Nat
  member : Nat
  alarm : Bool
  /-- The parameter field: the 16-byte prefix and the contents. -/
  bytes : List Byte
  /-- The original has been placed in the outbound queue. -/
  placed : Bool := false
  /-- A copy waits in the outbound queue (R101). -/
  copyOut : Bool := false
  repeats : Nat := 0
  /-- When the previous copy left the transport. -/
  leftAt : Option Nat := none
  /-- The held-alarm source that the notice reports (R183), and the event of one that is not held. -/
  held : Option Nat := none
  ev : HrtEvent := {}
  /-- The SDU that queue 0 holds, or held, for it: the ciphertext where the queue is encrypted; empty until it
  is complete (R388). -/
  wire : List Byte := []
  /-- Times carried in a chimney burst, and whether the chimney has given it up (R389). -/
  chimney : Nat := 0
  chimneyOff : Bool := false
  deriving DecidableEq, Repr

/-- An entry in use of the deferred alarm list (R100). -/
structure Deferred where
  code : Nat
  member : Nat
  bytes : List Byte
  merges : Nat := 0
  held : Option Nat := none
  /-- The event of the newest content, and the Hearth time of the first. -/
  ev : HrtEvent := {}
  first : List Byte := List.replicate 8 0#8
  deriving DecidableEq, Repr

/-- A notice raised before START is queued: it takes its number after START (R119, R147, R714). -/
structure Raised where
  code : Nat
  member : Nat
  alarm : Bool
  bytes : List Byte
  held : Option Nat := none
  ev : HrtEvent := {}
  deriving DecidableEq, Repr

/-- The command port (03). -/
structure Cmd where
  ops : List OpEntry := []
  out : List OutPkt := []
  /-- Replies formed before START was queued, or that wait for room in the outbound queue, oldest
  first (R117, R121). -/
  hold : List OutPkt := []
  raised : List Raised := []
  pool : Nat := 0
  notices : List Notice := []
  deferred : List Deferred := []
  nextNum : Nat := 0x8000
  nextOp : Nat := 0
  /-- What the last SPI transaction returned on SPI_MISO after its dummy byte. -/
  miso : List Byte := []
  /-- The last time-of-day line sent on UART_TXD (R220). -/
  todLine : List Byte := []
  /-- Discarded notices by source, since the last of the source was queued (Table CMD-5). -/
  lost : List (Nat × Nat) := []
  /-- The bytes that the UART receiver holds, and when the last of them arrived (R80, R81). -/
  uart : List Byte := []
  uartAt : Nat := 0
  started : Bool := false
  bound : Transport := .tree
  deriving DecidableEq, Repr

/-! ### Flash operations and the start (04) -/

/-- An erase or program of the flash that Stoker has in hand. -/
inductive FlashOp where
  | imgErase (op slot : Nat)
  | imgWrite (op slot offset : Nat) (data : List Byte)
  /-- A boot record with PREFERRED and STATE; `op` is the operation that asked for it, with what
  follows it: 0 nothing, 1 raise MIN_SEC (R137), 2 reset (R149), 3 raise IMG_REVERTED (R136). -/
  | bootRecord (op : Option Nat) (preferred state follow : Nat)
  | config (copy : Nat) (image : List Byte)
  | repairLog (sector : Nat) (bytes : List Byte)
  | preErase (slot : Nat)
  /-- A firmware image that the lead has sent, for the non-running slot (R658). -/
  | image (slot : Nat) (bytes : List Byte)
  deriving DecidableEq, Repr

/-- What a start leaves: straps, the running image, the steps reached (04, R157). -/
structure Boot where
  msel : Nat := 0
  member : Nat := 0
  treeEn : Bool := false
  mselInvalid : Bool := false
  mselChanged : Bool := false
  cause : Nat := 0
  lastStep : Nat := 0
  failStep : Nat := 0
  rescue : Bool := false
  /-- The slot that is not PREFERRED runs (R136), and its boot record is still to be written. -/
  reverted : Bool := false
  revertDue : Bool := false
  trial : Bool := false
  /-- IMG_COMMIT has made the running image COMMITTED; CMD_BOOT_STATUS.TRIAL holds (R157). -/
  committed : Bool := false
  /-- The running slot; none while no image runs. -/
  slot : Option Nat := none
  digestMatch : Bool := false
  fullTest : Bool := false
  configDefault : Bool := false
  warm : Bool := false
  fw : Nat := 0
  /-- The image header's SECURITY, and MAJOR, MINOR and BUILD of an image that failed (IMG_REVERTED). -/
  security : Nat := 0
  failedFw : Nat := 0
  /-- The slot that PREFERRED named. -/
  preferred : Nat := 0
  /-- Camera register writes of the configuration, for step 9: channel, I2C address, bytes (R656). -/
  camWrites : List (Nat × Nat × List Byte) := []
  /-- End of steps 1 to 9, in ticks since first connection. -/
  ends : List (Option Nat) := List.replicate 9 none
  startAt : Option Nat := none
  /-- The reference was bad, or TEST_N low, and the chip stopped in the boot ROM (R60, R68). -/
  stopped : Bool := false
  /-- What the boot ROM has reported on the service UART (R68). -/
  report : List Byte := []
  /-- When step 6 began, and whether its calibration has failed, so that no lane starts (R288). -/
  step6At : Option Nat := none
  noLanes : Bool := false
  /-- The ticks for which a Stoker core has been clocked since its watchdog was armed (R152). -/
  dog : Nat := 0
  /-- Step 9 has begun (R126). -/
  local9 : Bool := false
  /-- When step 9 began. -/
  localAt : Nat := 0
  /-- The RESET_MAIN whose reply is to leave before the reset (R122). -/
  resetWait : Option Nat := none
  /-- The flash operation in progress and those that wait. -/
  flashOp : Option FlashOp := none
  /-- When the operation in progress began. -/
  flashAt : Nat := 0
  flashQ : List FlashOp := []
  deriving DecidableEq, Repr

/-! ### Ash log (21) -/

/-- A record of the ash ring: its sequence number and its 32 bytes. -/
structure AshRec where
  seq : Nat
  bytes : List Byte
  deriving DecidableEq, Repr

/-- The rate window of a source (R671). -/
structure AshWin where
  source : Nat
  since : Nat
  count : Nat
  suppressed : Nat
  deriving DecidableEq, Repr

/-- A step of a flush (R680). -/
inductive FlushStep where
  | erase (n : Nat) | header | ring (n : Nat) | held (n : Nat) | tree | trailer
  deriving DecidableEq, Repr

/-- A flush that runs (R679 to R682). -/
structure Flush where
  slot : Nat
  aseq : Nat
  cause : Nat
  tag : Option Nat
  steps : List FlushStep
  pages : Nat := 0
  firstSeq : Nat
  lastSeq : Nat
  header : List Byte
  ring : List AshRec
  heldCopy : List Byte
  treeCopy : List Byte
  tries : Nat := 0
  deriving DecidableEq, Repr

/-- The main domain's part of the ash log. -/
structure Ash where
  /-- The write buffer, oldest first (R670): source, kind, and bytes 4 to 29 of the record. -/
  buf : List (List (List Byte)) := []
  wins : List AshWin := []
  flush : Option Flush := none
  /-- When the flush on the reserve falls due (R679). -/
  flushDue : Option Nat := none
  /-- Mains angle was LOCKED when PSU_OK fell: the flush waits for mains lost (R679). -/
  awaitMains : Bool := false
  owed : Bool := false
  /-- The owed flush runs in step 9 of this start (R679). -/
  owedDue : Bool := false
  next : Nat := 0
  /-- A flush triggered while a pre-erase runs: cause and tag (R685). -/
  trigger : Option (Nat × Option Nat) := none
  deriving DecidableEq, Repr

/-! ### Hearth (05) -/

/-- The power states (Table HRT-3). -/
inductive PState where
  | blaze | bank | smoulder | ember
  deriving DecidableEq, Repr

/-- A held-alarm entry (Table HRT-6); COUNT 0 is an empty entry. -/
structure Held where
  flags : Nat := 0
  count : Nat := 0
  first : List Byte := List.replicate 8 0#8
  last : List Byte := List.replicate 8 0#8
  reserve : Nat := 0
  /-- The kind of a mesh break, kept for the notice (Table HRT-8). -/
  kind : Nat := 0
  deriving DecidableEq, Repr

/-- A slot of the key store: its directory word and its two banks (15). -/
structure KeySlot where
  dir : Nat := 0
  bank0 : List Byte := []
  bank1 : List Byte := []
  deriving DecidableEq, Repr

/-- The start state of the Hearth (Table HRT-1). -/
structure StartState where
  digestA : Option (List Byte) := none
  digestB : Option (List Byte) := none
  trialCount : Nat := 0
  msel : Option Nat := none
  lead : Bool := false
  mainsFreq : Option Nat := none
  leadTerm : Nat := 0
  deriving DecidableEq, Repr

/-- The Hearth: what only a Hearth reset loses (R49, R158). -/
structure Hearth where
  running : Bool := true
  aonMv : Nat := 3300
  vbatMv : Nat := 3000
  onVbat : Bool := false
  /-- The switch between the two is held up, and since when the other one has been at 2.9 V or above (R64). -/
  supHold : Bool := false
  otherSince : Option Nat := none
  /-- Hearth time in units of 2^-41 s, and the part of a Hearth clock cycle passed, in 1/78125. -/
  time : Nat := 0
  phase : Nat := 0
  /-- Hearth clock cycles since the Hearth started. -/
  cycles : Nat := 0
  xtalFault : Bool := false
  xtalSec : Nat := 0
  /-- The last alignment: instant, network time in ns, Hearth clock cycles (R160). -/
  aligned : Option (Nat × Nat × Nat) := none
  /-- The last step of Hearth time: its instant, and Hearth time before it (R188). -/
  stepped : Nat × Nat := (0, 0)
  tampNow : List Bool := List.replicate 8 false
  /-- The mesh LFSRs as last seeded, and the Hearth clock cycle of the seed (R165). -/
  lfsr : List Nat := [1, 1]
  lfsrAt : Nat := 0
  meshBroken : List Bool := [false, false]
  cellCode : Nat := 150
  cellLow : Bool := false
  cellAbsent : Bool := false
  cellRun : Nat := 0
  resCode : Nat := 0
  resE : Nat := 0
  resFault : Bool := false
  psuOk : Bool := false
  onReserve : Bool := false
  psuFell : Option Nat := none
  ps : PState := .ember
  pen : Bool := false
  penRise : Nat := 0
  wakeSrc : Nat := 0
  /-- The cause the next start reports (Table CMD-8). -/
  cause : Nat := 0x01
  railResets : List Nat := []
  lockout : Bool := false
  /-- PSU_OK has been low since the lockout (R66). -/
  lockoutLow : Bool := false
  retryAt : Option Nat := none
  restartAt : Option Nat := none
  /-- The source of a minimal Blaze in progress (R179), and those of the events before its release (R185). -/
  minBlaze : Option Nat := none
  minMore : List Nat := []
  /-- The main rails have been in their windows since PEN_MAIN rose, and from when they have been rising (R45, R70). -/
  railsUp : Bool := false
  railsFrom : Nat := 0
  /-- When RESET_N last rose (R45). -/
  rstHighAt : Nat := 0
  held : List Held := List.replicate 13 {}
  ring : List AshRec := []
  seq : Nat := 0
  /-- A flush was under way when the main domain was lost (Table AL-6, INTERRUPTED). -/
  cutFlush : Option (Nat × Nat × Nat) := none
  /-- The last flush ended with a result other than COMPLETE, so that the next start owes one (R679, R682). -/
  flushOwed : Bool := false
  keys : List KeySlot := List.replicate 256 {}
  treeRec : List Byte := List.replicate 256 0#8
  /-- The retained lane maps of the two links, as LN_MAPn reads (R277). -/
  maps : List Nat := [0x1A1A, 0x1A1A]
  /-- The repair log (Table MM-2); at a first connection it is invalid (R708). -/
  repairLog : List Byte := List.replicate 4096 0#8
  start : StartState := {}
  /-- Stoker's retained state: fuse channels in DAMAGED (R600), and locked clips lost (R546). -/
  damaged : List Bool := List.replicate 12 false
  clipsLost : Nat := 0
  deriving DecidableEq, Repr

/-- Time spent in the power states since START, and the scheduled return (R173, R196). -/
structure Power where
  blaze : Nat := 0
  bank : Nat := 0
  smoulder : Nat := 0
  /-- The event a return is scheduled for, and when the return falls due. -/
  event : Option Nat := none
  wakeAt : Option Nat := none
  /-- The selection of R173 is owed: the chip has returned to Blaze with no blocker set. -/
  owed : Bool := false
  /-- When the last wake brings the chip to Blaze (Table HRT-3). -/
  blazeAt : Nat := 0
  /-- The Hearth clock cycle of the last wake source, with the lowest code of those that fired in it, of the last
  entry into Bank or Smoulder, and of the last return (R184). -/
  fired : Option (Nat × Nat) := none
  enteredAt : Option Nat := none
  wokeAt : Option Nat := none
  /-- The last wake was from Smoulder. -/
  deep : Bool := false
  deriving DecidableEq, Repr

/-! ### Network time (06) -/

/-- The servo states (Table NT-2). -/
inductive Servo where
  | free | acquiring | locked | holdover | unlocked
  deriving DecidableEq, Repr

/-- An accepted time message that waits for its reference frame (R204, R207). -/
structure TimeMsg where
  sfc : Nat
  sec : Nat
  ns : Nat
  teqd : Nat
  asym : Nat
  utc : Nat
  flags : Nat
  deriving DecidableEq, Repr

/-- The latched network time of a frame (R205). -/
structure Latch where
  sfc : Nat
  sec : Nat
  ns : Nat
  /-- NT_ADJ_LEFT at that frame (R208), and the equalisation delay in force (R223). -/
  left : Int
  eqd : Nat := 0
  deriving DecidableEq, Repr

/-- A compare unit (R215 to R218); its LAST and FIRED fields are register fields. -/
structure Cmp where
  armed : Bool := false
  epoch : Bool := false
  notify : Bool := false
  action : Nat := 0
  param : Nat := 0
  sec : Nat := 0
  ns : Nat := 0
  period : Nat := 0
  /-- The target lay in the past when it was tested (R216). -/
  late : Bool := false
  /-- A step has carried time past the target (R223). -/
  stepped : Bool := false
  deriving DecidableEq, Repr

/-- Network time and its servo. -/
structure NetTime where
  sec : Nat := 0
  ns : Nat := 0
  frac : Nat := 0
  slewNeg : Bool := false
  slewTicks : Nat := 0
  servo : Servo := .free
  /-- Consecutive messages below LOCK_NS. -/
  good : Nat := 0
  lastErr : Int := 0
  /-- The reference of the last message used: its SFC, or on a member the lead's time in nanoseconds;
  none right after a step (R208). -/
  lastRef : Option Int := none
  /-- An error at or above the step threshold, from the message before (R208). -/
  pendErr : Option Int := none
  /-- Values of NT_INCR that Stoker wrote in LOCKED, newest first (R211). -/
  incrLog : List (Nat × Nat) := []
  lastAccepted : Nat := 0
  holdSince : Nat := 0
  latches : List Latch := []
  msgs : List TimeMsg := []
  utc : Nat := 0
  traceable : Bool := false
  leap61 : Bool := false
  leap59 : Bool := false
  mark : Bool := false
  range : Bool := false
  cmps : List Cmp := List.replicate 16 {}
  pps : Bool := false
  ppsEnd : Nat := 0
  /-- The last second boundary passed (to be marked by SECOND_BOUNDARY), and the seconds marked, as
  ranges, newest first (R219). -/
  boundary : Option Nat := none
  marked : List (Nat × Nat) := []
  /-- A time-of-day line is due: second, marker bit, when, and the notice prefix of the edge (R220). -/
  tod : Option (Nat × Bool × Nat × List Byte) := none
  deriving DecidableEq, Repr

/-! ### Mains angle (07) -/

/-- The angle states (Table MA-1). -/
inductive AngleSt where
  | absent | acquire | locked | phantom | timed
  deriving DecidableEq, Repr

/-- A mains phase (R235 to R238). -/
structure Phase where
  present : Bool := false
  offset : Nat := 0
  /-- Reference angles at the last rising crossings, newest first, at most 16 (R235). -/
  window : List Nat := []
  missed : Nat := 0
  /-- Half-periods of consecutive valid crossings, in datapath ticks, newest first (R238). -/
  halves : List Nat := []
  lastCross : Option Nat := none
  lastRising : Bool := false
  clip : Bool := false
  /-- The samples of the last complete cycle and its MA_CYCLE. -/
  samples : List Int := []
  sampleCycle : Nat := 0
  /-- In LOCKED: the number of the last half-cycle whose crossing was seen, or counted as missed (R238). -/
  half : Nat := 0
  /-- MA_CYCLE at the last rising crossing, and when the phase was lost. -/
  riseCycle : Nat := 0
  lostAt : Option Nat := none
  deriving DecidableEq, Repr

/-- A schedule entry's state beside its registers (R247 to R250). -/
structure Entry where
  /-- The next contact position (R248); none while none is held. -/
  contact : Option Nat := none
  /-- The contact position that an arming has added to those of R248 (R249). -/
  extra : Option Nat := none
  armed : Bool := false
  tag : Option Nat := none
  /-- CFG0 and CFG1 in force until the next contact position (R255). -/
  cfg : Option (Nat × Nat) := none
  deriving DecidableEq, Repr

/-- A relay output (R252, R256). -/
structure Relay where
  /-- A pending MA_PULSE at an angle: its tag and its contact position. -/
  pulse : Option (Nat × Nat) := none
  deriving DecidableEq, Repr

/-- The mains angle block. -/
structure Mains where
  running : Bool := false
  st : AngleSt := .absent
  /-- The state that ACQUIRE was entered from. -/
  base : AngleSt := .absent
  acc : Nat := 0
  /-- Network time since the last microsecond tick, in 2^-24 ns (R233). -/
  rem : Nat := 0
  freq : Nat := 0
  frozen : Nat := 0
  frozenValid : Bool := false
  cycle : Nat := 0
  loopPhase : Nat := 0
  pulling : Bool := false
  /-- In ACQUIRE entered from PHANTOM or TIMED: the loop's own accumulator and frequency (R245). -/
  loop : Option (Nat × Nat) := none
  /-- Consecutive crossings with small error in ACQUIRE. -/
  acq : Nat := 0
  /-- MA_FREQ in each half-cycle of LOCKED, newest first, at most 32 (R243). -/
  freqLog : List Nat := []
  since : Nat := 0
  lostAt : Nat := 0
  savedAt : Nat := 0
  rotation : Bool := false
  /-- MA_FREQ and the offsets with which the schedule table works: taken once per cycle (R247). -/
  calcFreq : Nat := 0
  calcOffs : List Nat := [0, 0, 0]
  phases : List Phase := List.replicate 3 {}
  relays : List Relay := List.replicate 16 {}
  entries : List Entry := List.replicate 512 {}
  deriving DecidableEq, Repr

/-! ### Serial lanes (08) -/

/-- An eye measurement that runs on a lane (R278): the operation that asked for it, none for the
periodic one, and its MODE, DWELL, PHASE and VOLT. -/
structure Eye where
  op : Option Nat
  mode : Nat
  dwell : Nat := 20
  phase : Int := 0
  volt : Int := 0
  deriving DecidableEq, Repr

/-- A serial lane (R263 to R266). LN_Lk_CFG.EN says that it is enabled. -/
structure Lane where
  /-- The detector of R263 declares LOS. -/
  det : Bool := false
  /-- TREE_SDn is low, and has been for 1 µs (R264). -/
  sdLow : Bool := false
  /-- LOL is declared, and no lock has followed it; `lolNew` says that it was declared in the window under way
  (R281). -/
  lol : Bool := false
  lolNew : Bool := false
  /-- The lane is locked (R265). -/
  locked : Bool := false
  /-- Consecutive windows within 250 ppm. -/
  good : Nat := 0
  foff : Int := 0
  /-- Since when the lane has been clean and locked (R276). -/
  cleanSince : Option Nat := none
  /-- The adapted equaliser setting (R266). -/
  eq : Nat := 0
  eye : Option Eye := none
  /-- When the transmit monitor last saw a rogue condition (R271). -/
  rogueAt : Option Nat := none
  deriving DecidableEq, Repr

/-- The LOS that a lane reports: the detector, or the level of TREE_SDn (R264). -/
def Lane.los (l : Lane) : Bool := l.det || l.sdLow

/-- A lane that is powered down, or has to lock again: not locked, and no windows counted. -/
def Lane.unlock (l : Lane) : Lane := { l with locked := false, good := 0, cleanSince := none }

/-- A lane whose receiver is off: nothing is declared on it. -/
def Lane.off (l : Lane) : Lane := { l.unlock with det := false, lol := false, lolNew := false }

/-- A lane swap (R274) of one Strait link, as receiver and as transmitter. -/
structure Swap where
  /-- The position that the receiver asks for, and the operation that forced it. -/
  rx : Option (Nat × Option Nat) := none
  /-- Per lane: the position asked for in its last markers, and how many in a row (R274). -/
  req : List (Nat × Nat) := List.replicate 3 (0, 0)
  /-- The transmitter has accepted the request under way. -/
  accepted : Bool := false
  deriving DecidableEq, Repr

/-- The lanes. -/
structure Lanes where
  lanes : List Lane := List.replicate 9 {}
  swaps : List Swap := List.replicate 2 {}
  /-- A lane PLL lost lock: the tree transmitters stay dark (R287). -/
  pllHold : Bool := false
  eyeAt : Nat := 0
  deriving DecidableEq, Repr


/-! ### Tree downstream (09) -/

/-- A persistence filter of R309: the value of the run under way, its length, and the value accepted. -/
structure Filter where
  value : Nat := 0
  run : Nat := 0
  accepted : Option Nat := none
  deriving DecidableEq, Repr

/-- The alignment states of a tree lane (R300). -/
inductive Align where
  | hunt | confirm | locked
  deriving DecidableEq, Repr

/-- A tree lane's alignment machine (R299 to R303) and filters. -/
structure TdLane where
  st : Align := .hunt
  good : Nat := 0
  errs : Nat := 0
  /-- SFC of the last frame, received or expected. -/
  sfc : Nat := 0
  /-- VERSION of the lane's last valid identity block. -/
  version : Nat := 0
  /-- The frame timing: when the last frame, received or missing, began (R301). -/
  at_ : Nat := 0
  srq1 : Filter := {}
  srq2 : Filter := {}
  /-- When the lane entered LOCKED. -/
  lockedAt : Nat := 0
  deriving DecidableEq, Repr

/-- An SDU in reassembly (R315, R316). `stream` is its cipher context where the port is encrypted. -/
structure Reasm where
  port : Nat
  bytes : List Byte
  fec : Bool := false
  overrun : Bool := false
  stream : Option Nat := none
  deriving DecidableEq, Repr

/-- An SDU on its way to its destination (R317): `done` is clear while its verdict is awaited. -/
structure DownSdu where
  port : Nat
  dest : Nat
  member : Nat
  bytes : List Byte
  distrust : Bool := false
  done : Bool := true
  /-- The frame of its LAST unit (R440). -/
  sfc : Nat := 0
  stream : Option Nat := none
  deriving DecidableEq, Repr

/-- A valid frame identity block (Table TD-2). -/
structure FrameId where
  version : Nat
  fec : Bool
  sfc : Nat
  srq1 : Nat
  srq2 : Nat
  gm : Nat
  msg : Nat
  tree : Nat
  deriving DecidableEq, Repr

/-- What is still to be processed of the frame that is being delivered (R302): its identity block, when its FSYNC came
and its timestamp point, the place in its data area, the data from there on and the ranges of it that are lost.
`mine` is the verdict on the unit whose header stands there (R313). -/
structure FrameRest where
  id : FrameId
  since : Nat
  ts : Nat
  at_ : Nat
  data : List Byte
  lost : List (Nat × Nat)
  mine : Option Bool := none
  deriving DecidableEq, Repr

/-- A grant passed on (R304, R305, R341): times in datapath ticks, LENGTH in byte times. -/
structure Grant where
  sfc : Nat
  alloc : Nat
  start : Nat
  at_ : Nat
  fillAt : Nat
  length : Nat
  chimney : Bool
  ranging : Bool
  warm : Bool
  report : Bool
  deriving DecidableEq, Repr

/-- The tree downstream block. -/
structure TreeDown where
  lanes : List TdLane := List.replicate 2 {}
  active : Nat := 0
  lost : Bool := true
  lostAt : Nat := 0
  /-- SFC, FEC, TREE of the last delivered frame, and its timestamp point. -/
  sfc : Nat := 0
  fec : Bool := false
  tree : Nat := 0
  frameAt : Nat := 0
  frame : Option FrameRest := none
  reasm : List Reasm := []
  /-- Ports whose SDU is discarded up to its LAST unit. -/
  skip : List Nat := []
  /-- Accepted overhead messages: SFC of their frame and their 32 bytes (R308). -/
  msgs : List (Nat × List Byte) := []
  sdus : List DownSdu := []
  grants : List Grant := []
  /-- A grant map that cannot be decoded: when its deadline falls, and whether it is counted (R306). -/
  miss : Option Nat := none
  deriving DecidableEq, Repr


/-! ### Tree membership (10) -/

/-- The terminal states (Table TM-1). -/
inductive TmState where
  | initial | listen | serial | ranging | warm | operation | hold | disabled
  deriving DecidableEq, Repr

/-- A TREE_PROFILE (Table TM-3). -/
structure Profile where
  epoch : Nat
  preamble : Nat
  delimiter : Nat
  preEqd : Nat
  bexp : Nat
  rdelay : Nat
  chimneyK : Nat
  fec : Bool
  deriving DecidableEq, Repr

/-- An allocation slot in force (R350). -/
structure Alloc where
  shared : Bool
  id : Nat
  deriving DecidableEq, Repr

/-- A doze agreement (R353). -/
structure Doze where
  start : Nat
  stop : Nat
  poll : Nat
  deriving DecidableEq, Repr

/-- Tree membership, on the lead. -/
structure Membership where
  st : TmState := .initial
  profile : Option Profile := none
  /-- The TREE_PROFILE received on the active lane since that lane entered LOCKED (R334). -/
  seen : Option Profile := none
  ident : Option Nat := none
  eqd : Nat := 0
  eqds : List (Option Nat) := [none, none]
  trees : List (Option Nat) := [none, none]
  epochs : List Nat := [0, 0]
  allocs : List (Option Alloc) := List.replicate 8 none
  version : Nat := 0
  countdown : Nat := 0
  /-- When TO1, TW or TO2 started. -/
  timer : Nat := 0
  doze : Option Doze := none
  dozeReq : Option Nat := none
  lastOp : Nat := 0
  disabled : Bool := false
  /-- The record read at the start was valid. -/
  recValid : Bool := false
  savedAt : Nat := 0
  /-- A warm resume in the minimal Blaze has failed (R180, R348). -/
  warmFailed : Bool := false
  /-- The request decided under R356. -/
  req : Nat := 0
  deriving DecidableEq, Repr


/-! ### Upstream (11) -/

/-- Where an upstream SDU comes from (Table UP-3): a packet of queue 0, a meter result, an ash upload,
a clip, an Ethernet frame of a port, or the traffic of another member. -/
inductive SduKind where
  | packet (k : OutKind)
  | meter (key : Nat)
  | ash
  | clip
  | eth (port : Nat)
  | member (m : Nat)
  deriving DecidableEq, Repr

/-- An SDU in an upstream queue: its bytes (the plaintext until its ciphertext is complete), its
length as sent, how much has been placed, and for an encrypted queue its cipher request
(R374, R380). -/
structure Sdu where
  kind : SduKind
  bytes : List Byte
  len : Nat
  sent : Nat := 0
  /-- When its bytes were complete; none while its ciphertext is not. -/
  readyAt : Option Nat := some 0
  slot : Nat := 0
  cq : Nat := 0
  req : Option Nat := none
  deriving DecidableEq, Repr

/-- An upstream queue (R372, R378). -/
structure UpQueue where
  sdus : List Sdu := []
  deficit : Int := 0
  deriving DecidableEq, Repr

/-- What a unit placed in a burst holds: part of an SDU of a queue, a tributary container, a
membership message, a copy of an alarm notice (R368, R376, R377, R388), or nothing any more (R380). -/
inductive UnitSrc where
  | queue (q : Nat) (sdu : Sdu) (take : Nat)
  | trib (t : Nat)
  | message
  | notice (num : Nat)
  | withdrawn
  deriving DecidableEq, Repr

/-- A unit placed in a burst (R368, R378): its data where they are known, when they were complete,
and the cipher request that completes them. -/
structure UpUnit where
  src : UnitSrc
  port : Nat
  data : List Byte
  len : Nat
  last : Bool
  readyAt : Option Nat := some 0
  req : Option Nat := none
  deriving DecidableEq, Repr

/-- A burst that has been filled: it waits for its START, or is under way (R369, R371). `ranging` holds
the membership message of a ranging, warm or discovery burst (R340). -/
structure Burst where
  start : Nat
  length : Nat
  lane : Nat
  slot : Nat
  alloc : Nat
  preamble : Nat
  delimiter : Nat
  fec : Bool
  ident : Nat
  chimney : Bool := false
  report : Option (List Nat) := none
  onReserve : Bool := false
  alarmWaiting : Bool := false
  units : List UpUnit := []
  ranging : Option (List Byte) := none
  deriving DecidableEq, Repr

/-- The token buckets of a policer, in 1/1,024 byte (R383), and when they were last filled. -/
structure Bucket where
  c : Nat := 16777216
  e : Nat := 16777216
  since : Nat := 0
  deriving DecidableEq, Repr

/-- The upstream block. -/
structure Upstream where
  queues : List UpQueue := List.replicate 32 {}
  /-- Round-robin pointers, one for each slot and priority (slot × 4 + priority): the queue the pointer stands
  at, and whether its deficit has been increased for it (R378). -/
  rr : List (Nat × Bool) := List.replicate 32 (0, false)
  credits : List Int := List.replicate 40 0
  /-- The words of a damper, UP_DAMPER_n and its RATE, that stay in force until the next frame boundary, where a write
  to it waits for that (R382). -/
  damperOld : List (Option (Nat × Nat)) := List.replicate 40 none
  buckets : List Bucket := List.replicate 16 {}
  /-- A of R384 and R681: energy admitted since the last reserve sample, in microjoules. -/
  admitted : Nat := 0
  /-- A decline has been reported since the last admitted burst, or since ON_RESERVE was set (R385). -/
  declineRun : Bool := false
  /-- The end of the last window used, in datapath ticks (R370), and the lane of the last burst sent there (R267). -/
  lastEnd : Option Nat := none
  sentEnd : Nat := 0
  sentLane : Option Nat := none
  /-- The slots that have used a grant of the frame `usedSfc` (R376), and the SFC of the current upstream
  frame (R381). -/
  usedSlots : List Nat := []
  usedSfc : Nat := 0
  frameSfc : Nat := 0
  bursts : List Burst := []
  current : Option Burst := none
  /-- The bytes of the last burst on the line, from its preamble to its window's end (R365, R366). -/
  line : List Byte := []
  /-- Packets whose last unit has been sent in full (R94). -/
  leaving : List OutKind := []
  /-- A waiting DOZE_REQ or DOZE_END (R377). -/
  membership : Option (List Byte) := none
  /-- The chimney path (R389): attempts, windows to let pass, when the wait for acknowledgement ends,
  and the notices carried in the last chimney burst. -/
  attempt : Nat := 0
  skip : Nat := 0
  waitUntil : Option Nat := none
  carried : List Nat := []
  deriving DecidableEq, Repr



/-! ### Meter ports (12) -/

/-- Where a transaction comes from: MP_XACT (its operation), a meter SDU, or a step of a poll program. -/
inductive XactSrc where
  | op (op : Nat)
  | sdu
  | step (prog step : Nat)
  deriving DecidableEq, Repr

/-- A transaction (12, Transactions). -/
structure Xact where
  src : XactSrc
  noReply : Bool
  ref : Nat
  firstMs : Nat
  request : List Byte
  attempts : Nat := 0
  deriving DecidableEq, Repr

/-- The states of the head transaction that are not QUEUED (Table MP-2). -/
inductive XactSt where
  | queued | sending | waiting | receiving
  deriving DecidableEq, Repr

/-- A meter port. -/
structure MPort where
  xacts : List Xact := []
  st : XactSt := .queued
  /-- The words of MP_Pn_CFG, BAUD, TIME, TMO and LEN in force for the attempt under way (R424). -/
  held : List Nat := []
  /-- A frame has begun, its bytes, its bad characters, and whether it has become MP_OVERSIZE (R411). -/
  begun : Bool := false
  frame : List Byte := []
  bad : Nat := 0
  overrun : Bool := false
  /-- SECONDS to ANGLE and the flags of the result's stamp (Table MP-5). -/
  stamp : List Byte := []
  stampFlags : Nat := 0
  /-- End of the last character's last stop bit, the rise and the fall of DE, the end of FIRST_MS, and of the
  turnaround (R402). -/
  lastEnd : Nat := 0
  deRise : Nat := 0
  deFall : Nat := 0
  deadline : Nat := 0
  freeAt : Nat := 0
  /-- From when on a falling edge starts a character (R403 to R405). -/
  armAt : Nat := 0
  /-- MPn_RXD is held low (Table MP-7). -/
  low : Bool := false
  deriving DecidableEq, Repr

/-- A step of a poll program. -/
structure PStep where
  port : Nat
  noReply : Bool
  firstMs : Nat
  request : List Byte
  /-- In a run: 0 not placed, 1 placed, 2 done, 3 not run. -/
  at_ : Nat := 0
  deriving DecidableEq, Repr

/-- A poll program (R416 to R420): its steps, COUNT, its state (0 idle, 1 running, 2 stopped), the steps done
in the last run, the operation that waits for its end, and the status that stops it. -/
structure Prog where
  steps : List PStep := []
  count : Nat := 0
  st : Nat := 0
  done : Nat := 0
  op : Option Nat := none
  stop : Option Nat := none
  deriving DecidableEq, Repr

/-- The meter ports of a member; `hold` are refused results: program (none for others), queue, bytes (R420). -/
structure Meter where
  ports : List MPort := List.replicate 48 {}
  progs : List Prog := List.replicate 64 {}
  hold : List (Option Nat × Nat × List Byte) := []
  deriving DecidableEq, Repr


/-! ### Tributaries (13) -/

/-- A container closed for an upstream frame that waits for its reservation (R437 to R439): its member and
tributary, slot, port and bytes, when they were complete, its cipher request, and when the frame is over. -/
structure Container where
  member : Nat
  trib : Nat
  sfc : Nat
  slot : Nat
  port : Nat
  data : List Byte
  readyAt : Option Nat
  req : Option Nat := none
  overrun : Nat
  deriving DecidableEq, Repr

/-- A tributary (R436 to R448): its egress and ingress states (Table TB-3) and stores, oldest bit first. -/
structure Trib where
  egress : Nat := 0
  ingress : Nat := 0
  farFail : Bool := false
  store : List Bool := []
  rx : List Bool := []
  /-- Consecutive frames judged missing, and judged valid in RECOVER (R441, R446). -/
  missing : Nat := 0
  good : Nat := 0
  /-- Consecutive valid containers with FAIL 1, and with FAIL 0 (R448). -/
  fails : Nat := 0
  clears : Nat := 0
  /-- Consecutive valid windows (R447). -/
  windows : Nat := 0
  /-- The store has run empty and refills to its target (R444). -/
  refill : Bool := false
  /-- The bits sent on TBt_TXD since the frame judged before. -/
  txd : List Bool := []
  deriving DecidableEq, Repr

/-- A reservation that the lead holds for a tributary of another member, as its last container said (R439): slot, port
and N. -/
structure Remote where
  member : Nat
  trib : Nat
  slot : Nat
  port : Nat
  n : Nat
  deriving DecidableEq, Repr

/-- The tributary block: the notice prefix of the current frame (R449) and the timestamp point of the frame after the one
judged last (R440). -/
structure Tribs where
  tribs : List Trib := List.replicate 4 {}
  closed : List Container := []
  remote : List Remote := []
  frameAt : List Byte := []
  judged : Option Nat := none
  deriving DecidableEq, Repr


/-! ### Ethernet ports (14) -/

/-- A send in a transmit buffer (R466 to R471): its bytes as far as they are held, whether that is all of
them, the cipher stream that its verdict is awaited from, and FWD as it was when the send entered. -/
structure Send where
  bytes : List Byte
  whole : Bool
  stream : Option Nat := none
  fwd : Bool
  /-- The next frame of the send, and the frames already sent with a correct FCS. -/
  next : Nat := 0
  sent : Nat := 0
  deriving DecidableEq, Repr

/-- A frame on the wire: when it started, its bytes before padding and FCS (none for a frame of a send whose
length is not known yet), whether it is a segment, and whether it belongs to the send at the head. -/
structure Wire where
  start : Nat
  bytes : Option (List Byte)
  segment : Bool
  ofHead : Bool := true
  /-- The cipher stream that its verdict is awaited from. -/
  stream : Option Nat := none
  deriving DecidableEq, Repr

/-- A received frame that waits to be metered (R465): the entry it matched, its policer, its stamp and its bytes. -/
structure RxFrame where
  cls : Nat
  policer : Nat
  stamp : Nat
  bytes : List Byte
  deriving DecidableEq, Repr

/-- An Ethernet port. -/
structure EPort where
  up : Bool := false
  speed : Nat := 0
  pause : Bool := false
  half : Bool := false
  rx : List RxFrame := []
  sends : List Send := []
  wire : Option Wire := none
  /-- When the wire is free for the next frame. -/
  freeAt : Nat := 0
  pauseUntil : Option Nat := none
  /-- The pending mask of R474. -/
  mask : Nat := 0
  /-- The last frame put on the wire, with its FCS. -/
  out : List Byte := []
  deriving DecidableEq, Repr

/-- The Ethernet ports. -/
structure Ether where
  ports : List EPort := List.replicate 2 {}
  deriving DecidableEq, Repr

/-! ### Cipher engine (15) -/

/-- Who receives the completion of a request (Table CY-4): an upstream SDU, a tributary container, a
fragment of a downstream stream, or CY_RUN. -/
inductive CyFor where
  | sdu
  | trib (t : Nat)
  | down (stream : Nat)
  | run (op : Nat)
  deriving DecidableEq, Repr

/-- A request (Table CY-4): `op` 1 GCM encrypt, 2 GCM decrypt, 3 CTR, 4 CMAC generate, 5 CMAC verify;
`fixed` the fixed field of Table CY-7 for a TREE request, else the IV or counter block; `tag` what
CY_RUN compares with. -/
structure CyReq where
  id : Nat
  for_ : CyFor
  op : Nat
  first : Bool := true
  last : Bool := true
  slot : Nat
  fixed : List Byte
  data : List Byte
  tag : List Byte := []
  queue : Nat
  since : Nat
  /-- What was decided when the request started: the key and its generation, EXPLICIT, and a status
  other than OK (R499, R501). -/
  key : List Byte := []
  gen : Nat := 0
  bank : Nat := 0
  explicit : Nat := 0
  status : Nat := 0
  startAt : Nat := 0
  /-- What it produced (R496). -/
  out : List Byte := []
  deriving DecidableEq, Repr

/-- The GHASH and counter state of a downstream SDU (R494, R499, R500). -/
structure CyStream where
  id : Nat
  slot : Nat
  fixed : List Byte
  /-- Key, generation and bank chosen at the first fragment; none while EXPLICIT is not complete. -/
  key : Option (List Byte × Nat × Nat) := none
  /-- The bytes that have passed the engine, and the plaintext they gave (R500). -/
  raw : List Byte := []
  plain : List Byte := []
  /-- A status that no later fragment lifts (R324, R499, R502). -/
  status : Nat := 0
  deriving DecidableEq, Repr

/-- A key update that has been committed and waits for decryptions on the inactive bank (R488, R513). -/
structure KeyUpdate where
  op : Nat
  slot : Nat
  len : Nat
  usage : Nat
  gen : Nat
  key : List Byte
  since : Nat
  deriving DecidableEq, Repr

/-- The cipher engine. -/
structure Cipher where
  queues : List (List CyReq) := List.replicate 4 []
  pipes : List (Option CyReq) := [none, none]
  streams : List CyStream := []
  /-- Finished requests whose completion waits for an earlier one of their queue (R496). -/
  fin : List CyReq := []
  nextId : Nat := 0
  /-- Upstream counters of the slots (R501). -/
  ctrs : List Nat := List.replicate 256 0
  /-- Key opcodes that wait their turn: handle, opcode, parameters (R512). -/
  keyOps : List (Nat × Nat × List Byte) := []
  update : Option KeyUpdate := none
  ready : Bool := false
  rngFail : Bool := false
  /-- The start-up test runs. -/
  testing : Bool := true
  fails : Nat := 0
  restartAt : Nat := 0
  /-- Instances M0, M1 and S: stopped, and until when the pipelines of M0 and M1 wait for a reseed (R507, R508). -/
  stopped : List Bool := [false, false, false]
  busy : List Nat := [0, 0]
  deriving DecidableEq, Repr


/-! ### Picture coder (16) -/

/-- A picture line at 10 bits, 4:2:0 (Table WA-1): its luma, the chroma that it closes (none on the first
line of a pair of which the chroma is combined), and whether it was repaired (R557). -/
structure PLine where
  y : List Nat
  cb : List Nat := []
  cr : List Nat := []
  repaired : Bool := false
  deriving DecidableEq, Repr

/-- The stamp of a capture (R561, Table PC-2): seconds and nanoseconds as 10 bytes, the mains angle, FLAGS bits 3
to 6, the datapath tick, and network time in ns. -/
structure CapStamp where
  time : List Byte := List.replicate 10 0#8
  angle : Nat := 0
  flags : Nat := 0
  tick : Nat := 0
  ns : Nat := 0
  deriving DecidableEq, Repr

/-- The geometry and the coding options of a channel as a picture takes them (Table PC-17). -/
structure PcGeom where
  w : Nat := 1280
  h : Nat := 960
  main : Bool := false
  lean : Bool := false
  esc : Nat := 1
  cap : Nat := 2
  deriving DecidableEq, Repr

/-- A picture captured or coded (R522 to R533). -/
structure Pic where
  no : Nat
  poc : Nat
  stamp : CapStamp := {}
  /-- Time from the channel's previous capture, in ticks. -/
  interval : Nat := 0
  lit : Bool := false
  geom : PcGeom := {}
  /-- Lines captured, in the ring or past it; the picture still takes lines. -/
  lines : Nat := 0
  capturing : Bool := true
  /-- Lines of the rows in the ring, oldest first, from CTB row `ringRow` on. -/
  ring : List PLine := []
  ringRow : Nat := 0
  /-- Repaired lines, and for each 16-line row of regions the sums of the top 8 bits over 4-sample columns. -/
  repaired : List Nat := []
  prof : List (List Nat) := []
  /-- Rows of the picture, fewer when it is truncated; when it was cut to them. -/
  rows : Nat := 0
  cutAt : Nat := 0
  truncated : Bool := false
  byDisable : Bool := false
  noref : Bool := false
  /-- Its clip was closed under R541. -/
  cut : Bool := false
  /-- It has entered S2 (R525). -/
  started : Bool := false
  idr : Bool := false
  /-- Its reference, by number (none: no valid reference), and that picture's lamp state. -/
  ref : Option Nat := none
  refLit : Bool := false
  /-- When each row became ready for S2, left S2 and left S3; rows filtered. -/
  inAt : List Nat := []
  s2At : List Nat := []
  s3At : List Nat := []
  s5 : Nat := 0
  /-- The samples of the row in S3 as they are coded (R519). -/
  coding : List PLine := []
  clip : Option Nat := none
  offset : Nat := 0
  dtUs : Nat := 0
  tUs : Nat := 0
  qp : Nat := 0
  rowQp : Nat := 0
  fillStart : Nat := 0
  /-- PC_Cc_RC and PC_Cc_RATE as they apply to the picture (R549). -/
  rc : Nat := 0
  rate : Nat := 0
  /-- The reconstruction before lean compression, and the reference rows as stored. -/
  recY : List Nat := []
  recCb : List Nat := []
  recCr : List Nat := []
  refRows : List (List Nat × List Nat × List Nat) := []
  /-- The search copy: rows of the 1/2 and 1/4 levels, top 8 bits. -/
  half : List (List Nat) := []
  quarter : List (List Nat) := []
  /-- The motion field received from S3 so far (Table WA-2). -/
  field : List Nat := []
  fieldDone : Bool := false
  deriving DecidableEq, Repr

/-- A camera channel of the coder. -/
structure PcChan where
  on : Bool := false
  mem : Nat := 0
  pics : List Pic := []
  nextNo : Nat := 0
  poc : Nat := 0
  needIdr : Bool := true
  /-- P pictures coded since the last IDR picture. -/
  pCount : Nat := 0
  /-- The picture in the reference buffer that may serve as a reference: its number and lamp state. -/
  ref : Option (Nat × Bool) := none
  refRows : List (List Nat × List Nat × List Nat) := []
  half : List (List Nat) := []
  quarter : List (List Nat) := []
  clip : Option Nat := none
  /-- fill of R529 in 10^-6 bits, qp_p, and network time of the last coded picture's capture. -/
  fill : Nat := 0
  qpP : Nat := 32
  lastNs : Nat := 0
  lastQp : Nat := 0
  lastCap : Option Nat := none
  deriving DecidableEq, Repr

/-- A picture record (Table PC-8). -/
structure PicRec where
  tick : Nat
  offset : Nat
  size : Nat
  flags : Nat
  dtUs : Nat
  angle : Nat
  rows : Nat
  qp : Nat
  deriving DecidableEq, Repr

/-- A clip (Table PC-7). -/
structure Clip where
  id : Nat
  chan : Nat
  isOpen : Bool := true
  locked : Bool := false
  evidence : Bool := false
  cut : Bool := false
  damaged : Bool := false
  geom : PcGeom := {}
  first : CapStamp := {}
  lock : Nat := 0
  records : List PicRec := []
  stream : List Byte := []
  /-- It has been sent in full (R546). -/
  sentFull : Bool := false
  deriving DecidableEq, Repr

/-- A sequence of transfer units on its way (R543, R684): the operation that waits for it, the upstream queue
(DEST 0) or the port (1 E0, 2 E1), the units that wait, the clip it pins, and whether it sends a closed clip
whole. -/
structure Xfer where
  op : Option Nat
  queue : Nat := 0
  dest : Nat
  units : List (List Byte)
  sent : Nat := 0
  clip : Option Nat := none
  whole : Bool := false
  /-- It sends an archive or the ash ring. -/
  ash : Bool := false
  deriving DecidableEq, Repr

/-- A running decode (R537, R544, R545). -/
structure Dec where
  op : Nat
  clip : Option Nat
  dest : Nat
  mem : Nat
  scanning : Bool := true
  /-- The records of the clip when the command was accepted; the next picture. -/
  records : List PicRec := []
  next : Nat := 0
  refOk : Bool := false
  out : Nat := 0
  seq : Nat := 0
  deriving DecidableEq, Repr

/-- The picture coder and the clip store. -/
structure Picture where
  chans : List PcChan := List.replicate 4 {}
  /-- The channel whose row each stage holds. -/
  s2 : Option Nat := none
  s3 : Option Nat := none
  s5 : Option Nat := none
  /-- The clip store, oldest first, and the next clip ID. -/
  clips : List Clip := []
  nextClip : Nat := 0
  load : List Byte := []
  dec : Option Dec := none
  decStopped : Bool := false
  xfers : List Xfer := []
  deriving DecidableEq, Repr

/-! ### Watch (17) -/

/-- The capture state of a channel (WA_Cc_STAT). -/
inductive CapSt where
  | idle | awaiting | receiving
  deriving DecidableEq, Repr

/-- An intrusion zone's run (R568). -/
structure Zone where
  run : Nat := 0
  below : Nat := 0
  fired : Bool := false
  deriving DecidableEq, Repr

/-- A camera channel of Watch. -/
structure WaChan where
  cap : CapSt := .idle
  trigAt : Nat := 0
  /-- The entry that triggered the capture, or the operation that waits for its frame start. -/
  entry : Option Nat := none
  op : Option Nat := none
  /-- Lines of the frame so far, the last line as delivered, and the sum of the top 8 bits of luma. -/
  line : Nat := 0
  above : Option PLine := none
  ysum : Nat := 0
  geom : PcGeom := {}
  /-- When CAMc_RST_N rose, and the camera register writes held for 10 ms later (R580). -/
  rst : Option Nat := none
  writes : List (Nat × List Byte) := []
  /-- The last trigger write: the tick of its START, and its bytes after it (R559). -/
  write : Option (Nat × List Byte) := none
  lit : Bool := false
  litAt : Nat := 0
  /-- The stamp of the capture being received (R561). -/
  stamp : CapStamp := {}
  /-- The lamp was lit at the frame start; the capture is an ambient test. -/
  picLit : Bool := false
  ambient : Bool := false
  inUse2 : Bool := false
  accepted : Nat := 0
  mean : Nat := 0
  blind : Bool := false
  noFrame : Nat := 0
  lost : Bool := false
  /-- The contact position of the lamp's entry last seen, and the last for which the lamp was lit (R563). -/
  lampSeen : Option Nat := none
  lampDone : Option Nat := none
  /-- The last complete field: POC, regions across and down, entries (R567). -/
  last : Option (Nat × Nat × Nat × List Nat) := none
  zones : List Zone := List.replicate 8 {}
  deriving DecidableEq, Repr

/-- A disc reader (R570 to R574). -/
structure Reader where
  /-- The last picture with a known phase: its number, phase and time in µs. -/
  last : Option (Nat × Int × Nat) := none
  /-- The last certain rotation and the µs it took. -/
  speed : Option (Int × Nat) := none
  fwd : Nat := 0
  rev : Nat := 0
  unc : Nat := 0
  /-- The certain rotations of the revolution in progress, with their µs. -/
  speeds : List (Int × Nat) := []
  irreg : Nat := 0
  irregRun : Nat := 0
  rotAt : Nat := 0
  stopped : Bool := false
  overrun : Bool := false
  deriving DecidableEq, Repr

/-- Watch. -/
structure Watch where
  chans : List WaChan := List.replicate 4 {}
  readers : List Reader := List.replicate 4 {}
  deriving DecidableEq, Repr

/-! ### Electronic fuse channels (18) -/

/-- The channel states (Table PW-1). -/
inductive FuseSt where
  | off | wait | inrush | on | backoff | latched | damaged
  deriving DecidableEq, Repr

/-- A fuse channel. -/
structure Fuse where
  st : FuseSt := .off
  /-- The last samples: sense, 0.2 mV per code, and output, 32 mV per code (R585). -/
  sense : Nat := 0
  out : Nat := 0
  /-- When the last sample was taken. -/
  sampledAt : Option Nat := none
  seated : Bool := false
  seatedAt : Nat := 0
  /-- The channel is off by the shed; from when its INS time runs after it (R607). -/
  shed : Bool := false
  insFrom : Nat := 0
  /-- When the channel entered WAIT, INRUSH or ON, and when its gate went off. -/
  waitAt : Nat := 0
  inrushAt : Nat := 0
  onAt : Nat := 0
  offAt : Nat := 0
  /-- Since when the bus has been within UV to OV. -/
  busOk : Option Nat := none
  /-- The target voltage at the entry to INRUSH in mV (R592). -/
  startMv : Nat := 0
  frozenAt : Option Nat := none
  /-- Ticks frozen in the last inrush. -/
  frozen : Nat := 0
  trips : Nat := 0
  lastKind : Nat := 0
  /-- Samples in a row at OC_MV or above (R596). -/
  ocRun : Nat := 0
  /-- Since when the hold comparator has seen the bus below UVH. -/
  uvSince : Option Nat := none
  /-- Since when the output has stayed at DMG_V or above with the gate off (R599). -/
  dmgSince : Option Nat := none
  /-- CFG, WIN, LIM, RAMP and TIME as they were at the entry to INRUSH (R604). -/
  held : Option (List Nat) := none
  deriving DecidableEq, Repr

/-- The fuse channels and the bus code. -/
structure Fuses where
  bus : Nat := 0
  chans : List Fuse := List.replicate 12 {}
  deriving DecidableEq, Repr

/-! ### Strait links (19) and stacks (20) -/

/-- The states of a link (Table ST-3). -/
inductive LinkSt where
  | disabled | down | training | init | up | paused | sleep
  deriving DecidableEq, Repr

/-- A message between members: class, final destination, and its bytes from the stack header on. -/
structure StMsg where
  cls : Nat
  dest : Nat
  bytes : List Byte
  deriving DecidableEq, Repr

/-- A TRAFFIC flit held in the replay buffer (R614, R626). -/
structure RFlit where
  cls : Nat
  first : Bool
  last : Bool
  dest : Nat
  body : List Byte
  deriving DecidableEq, Repr

/-- A whole message in a receive buffer (R645): its flits, whether they still count for the credits
returned (a fresh start ends that), and network time in nanoseconds at its timestamp point (R651). -/
structure Waiting where
  msg : StMsg
  flits : Nat
  counted : Bool
  at_ : Nat
  deriving DecidableEq, Repr

/-- A message being reassembled: destination, flits, bytes, and its timestamp point. -/
structure Partial where
  dest : Nat
  flits : Nat
  bytes : List Byte
  at_ : Nat
  /-- An uncorrectable word has been found in it: it is discarded once whole (R638). -/
  lost : Bool := false
  deriving DecidableEq, Repr

/-- One class of a link: transmit queue, the message being turned into flits, credit counts, and
the message being reassembled (R618 to R625). -/
structure StClass where
  txq : List StMsg := []
  sending : Option (StMsg × Nat) := none
  hc : Nat := 0
  dc : Nat := 0
  hf : Nat := 0
  df : Nat := 0
  /-- The partner's HF and DF as last adopted, and its advertised HDR and DATA. -/
  phf : Nat := 0
  pdf : Nat := 0
  advH : Nat := 0
  advD : Nat := 0
  /-- This side's HDR and DATA, as advertised at the last fresh start. -/
  ownH : Nat := 0
  ownD : Nat := 0
  /-- Messages and flits received since the last fresh start. -/
  rh : Nat := 0
  rd : Nat := 0
  rx : Option Partial := none
  /-- Whole messages that wait in the receive buffer, oldest first (R645). -/
  wait : List Waiting := []
  deriving DecidableEq, Repr

/-- A Strait link. -/
structure Link where
  st : LinkSt := .disabled
  since : Nat := 0
  cause : Nat := 0
  partnerSession : Nat := 0
  partnerMember : Nat := 0
  partnerLink : Nat := 0
  /-- Own and partner's session at the last UP; none before the first. -/
  lastUp : Option (Nat × Nat) := none
  resumed : Bool := false
  fresh : Bool := true
  nextTx : Nat := 0
  nextRx : Nat := 0
  oldest : Nat := 0
  r : Nat := 0
  t : Nat := 0
  replay : List RFlit := []
  /-- Position in the replay buffer of the next flit of a replay. -/
  replayAt : Option Nat := none
  /-- A replay trigger taken while PAUSED waits for UP (R638). -/
  trigger : Bool := false
  classes : List StClass := List.replicate 4 {}
  /-- Flits at the end of the replay buffer not sent since a fresh start: they still take credit. -/
  unsent : Nat := 0
  /-- A NAK is pending, and when it was last sent. -/
  nak : Bool := false
  nakAt : Option Nat := none
  uncovered : Nat := 0
  uncoveredAt : Option Nat := none
  lastStatus : Nat := 0
  lastAdvance : Nat := 0
  gotInit : Bool := false
  gotSeen : Bool := false
  sentSeen : Bool := false
  partnerResume : Bool := false
  partnerAdv : List (Nat × Nat) := []
  partnerRx : Nat := 0
  /-- LINK flits due: subtype and body after the subtype. -/
  due : List (Nat × List Byte) := []
  /-- Flits of METER, then of BULK, sent in the round under way (R619). -/
  wrr : Nat × Nat := (0, 0)
  /-- Slots since INIT was entered (R622). -/
  slots : Nat := 0
  /-- The link is ordered into SLEEP (R636), and when IDLE_REQ was last sent. -/
  sleepOrder : Bool := false
  idleAt : Option Nat := none
  tag : Option Nat := none
  /-- The last flit sent, 32 bytes; none before the first. -/
  lastFlit : Option (List Byte) := none
  deriving DecidableEq, Repr

/-- The Strait block. -/
structure Strait where
  session : Nat := 0
  links : List Link := List.replicate 2 {}
  deriving DecidableEq, Repr

/-- What the stack logic holds of a member (R647 to R654). -/
structure Peer where
  announced : Bool := false
  flags : Nat := 0
  fw : Nat := 0
  seq : Nat := 0
  hash : List Byte := []
  term : Nat := 0
  serial : Nat := 0
  announcedAt : Nat := 0
  /-- Hop counts that the two neighbours report for the member (R644). -/
  hops : List Nat := [8, 8]
  /-- Quarantine cause (Table SK-5), 0 for none. -/
  quar : Nat := 0
  /-- SK_QUARANTINE has quarantined the member (cause COMMAND). -/
  command : Bool := false
  present : Bool := false
  stateAt : Option Nat := none
  next : Nat := 0xFFFFFFFF
  blockers : Nat := 0
  stateFlags : Nat := 0
  /-- The number of the next COMMAND to the member (R646). -/
  cmdSeq : Nat := 0
  duplicateAt : Option Nat := none
  skewRun : List Nat := [0, 0, 0]
  okRun : List Nat := [0, 0, 0]
  skewed : List Bool := [false, false, false]
  /-- The header of the configuration image last pushed to it (R657), and whether the firmware image has
  been sent to it (R658). -/
  pushed : List Byte := []
  imageSent : Bool := false
  deriving DecidableEq, Repr

/-- An exchange of time under way (R652): t1 of the parent, t2, t3 in nanoseconds, B of the parent, and the part of
the slew not yet applied at t2. -/
structure Exch where
  t1 : Int
  t2 : Int
  t3 : Int
  bParent : Nat
  left : Int
  deriving DecidableEq, Repr

/-- A push of a configuration image (R657): the SK_CFG_COMMIT that waits for it, the image, the members still
awaited and those that failed. -/
structure Push where
  op : Option Nat
  image : List Byte
  await : List Nat := []
  failed : List Nat := []
  deriving DecidableEq, Repr

/-- The stack logic. -/
structure Stack where
  term : Nat := 0
  leadValid : Bool := false
  lead : Nat := 0
  isLead : Bool := false
  formed : Bool := false
  step7At : Option Nat := none
  peers : List Peer := List.replicate 8 {}
  /-- When the last STACK_STATE of the current TERM arrived (R660). -/
  lastState : Nat := 0
  /-- When the lead was declared lost, and the stamp of that instant (R660). -/
  leadLost : Option Nat := none
  lostStamp : List Byte := []
  /-- Since when the lead has held fewer than half of EXPECT (R661). -/
  lowSince : Option Nat := none
  /-- The lead before a takeover, until LEAD_CHANGE is queued (R112, R662). -/
  changed : Option Nat := none
  /-- The power state that the lead orders (R171). -/
  order : Nat := 0
  /-- The COMMAND that this member takes next, none before its first one, and those that arrived early (R646). -/
  rxSeq : Option Nat := none
  earlyCmds : List (Nat × List Byte) := []
  /-- Messages that no route can carry, or that wait for a transmit queue (R645). -/
  held : List StMsg := []
  /-- What ANNOUNCE last said, and when the periodic messages were last sent (R644, R647, R649). -/
  lastAnnounce : List Byte := []
  announceAt : Nat := 0
  routeAt : Nat := 0
  stateAt : Nat := 0
  exch : Option Exch := none
  exchAt : Nat := 0
  lastExch : Nat := 0
  bound : Nat := 0
  timeLoose : Bool := false
  suspended : Bool := false
  /-- This member's phase angles at the last second boundary: second, and angle and presence in LOCKED (R654). -/
  latch : Nat × List (Nat × Bool) := (0, [])
  /-- SEQ, SERIAL and HASH of the configuration image in force, and its flash copy (R655). -/
  cfgSeq : Nat := 0
  serial : Nat := 0
  cfgHash : List Byte := []
  cfgCopy : Option Nat := none
  /-- The staging area of SK_CFG_WRITE: bytes other than 0xFF by offset (log entry 13). -/
  staging : List Host.Cell := []
  /-- A flash write or an apply of a configuration image has failed on this member (R657). -/
  cfgBad : Bool := false
  /-- Parts of an image on its way to this member: offset and bytes. -/
  rxImage : List (Nat × List Byte) := []
  rxCfg : List (Nat × List Byte) := []
  /-- The push that runs, and the images that wait for it to end (R657, R664). -/
  push : Option Push := none
  pushQ : List (Option Nat × List Byte) := []
  deriving DecidableEq, Repr

/-! ### Memory (22) -/

/-- A corrected error of a bank, as Stoker records it (R700): Hearth seconds, row, lane. -/
structure MemErr where
  sec : Nat
  row : Nat
  lane : Nat
  deriving DecidableEq, Repr

/-- A repair of a bank: a row or a lane, and the spare that replaces it. -/
structure Repair where
  bank : Nat
  isRow : Bool
  index : Nat
  spare : Nat
  deriving DecidableEq, Repr

/-- A physical bank (R690, R698 to R700). -/
structure Bank where
  withdrawn : Bool := false
  exhausted : Bool := false
  /-- Repairs in force. -/
  repairs : List Repair := []
  /-- Unusable spares: bits 0 to 3 spare rows, 4 and 5 spare columns. -/
  bad : Nat := 0
  corrected : Nat := 0
  errs : List MemErr := []
  deriving DecidableEq, Repr

/-- The SRAM and its repair. -/
structure Memory where
  banks : List Bank := List.replicate 64 {}
  logLost : Bool := false
  /-- The next logical word that the patrol scrubber reads, and when it read the last. -/
  scrubWord : Nat := 0
  scrubAt : Nat := 0
  /-- Logical words that are poisoned (R693, R695), as far as they have been found. -/
  poison : List Nat := []
  /-- Field repairs in progress, in the order triggered (R706). -/
  repairs : List Repair := []
  /-- The flash copy of the repair log is to be written (R704). -/
  logDue : Bool := false
  deriving DecidableEq, Repr


/-- The main domain: what every reset of it loses. -/
structure Main where
  /-- The main domain is out of reset. -/
  out : Bool := false
  boot : Boot := {}
  cmd : Cmd := {}
  ash : Ash := {}
  power : Power := {}
  nt : NetTime := {}
  ma : Mains := {}
  up : Upstream := {}
  tb : Tribs := {}
  mp : Meter := {}
  em : Ether := {}
  st : Strait := {}
  sk : Stack := {}
  mm : Memory := {}
  ln : Lanes := {}
  td : TreeDown := {}
  tm : Membership := {}
  cy : Cipher := {}
  pc : Picture := {}
  wa : Watch := {}
  pw : Fuses := {}
  deriving DecidableEq, Repr

/-- The main domain off or in reset: every value of it at its reset value. -/
def Main.cold : Main := {}

/-- Why the machine stops with a fault. -/
inductive Fault where
  /-- Raised by no command of this model: every command has an effect the spec gives. Safe. -/
  | none
  deriving DecidableEq, Repr

/-- Why a command is refused. -/
inductive Refusal where
  /-- The command has no meaning in the model yet. Safe. -/
  | notModelled (mnemonic : String)
  deriving DecidableEq, Repr

/-- What hardware has done to a register since the last datapath tick passed (R12, R13): its word before, the
events counted, each in its field, and the W1C bits set. -/
structure Cycle where
  addr : Nat
  before : Nat
  counted : Nat := 0
  latched : Nat := 0
  deriving DecidableEq, Repr

/-- The state of the block. -/
structure State where
  /-- The commands that wait, first in, first out. -/
  pending : List Instr := []
  /-- Datapath clock ticks (3.125 ns) since the first connection of the backup cell (log entry 1). -/
  now : Nat := 0
  /-- The next free value (log entry 2): the model's own field, not the spec's. -/
  freeIdx : Nat := 0
  /-- What hardware has counted and latched in the present datapath cycle (R12, R13). -/
  cycle : List Cycle := []
  /-- When the pulse on each RLYn ends; only the loss of the main rails cuts one (R252). -/
  pulses : List (Option Nat) := List.replicate 16 none
  regs : RegFile := []
  /-- The anti-rollback fuse MIN_SEC (R135, R137): how many bits are set. -/
  minSec : Nat := 0
  /-- The flash: addresses rising, no byte equal to 0xFF, which an erased byte reads as (R131). -/
  flash : List Host.Cell := []
  hearth : Hearth := {}
  main : Main := .cold
  deriving DecidableEq, Repr

/-- The chip at the first connection of its backup cell (R19, R70, R194): the Hearth runs, PEN_MAIN
is low, the main domain is in reset, no command waits. -/
def State.reset : State := {}

end Sys2Proof.Machine
end

