-- ==== Sys2Proof/Machine/Ops.lean ====
section
/-! DEFINITION. The operations that every family uses: registers and counters, the passing of time,
stamps, the ash log's record port, messages between members, packets, notices and replies, the
reserve's energy and waking. -/

namespace Sys2Proof.Machine

/-! ### Registers and free values -/

/-- The word of a register. -/
def State.word (s : State) (a : Nat) : Nat := RegFile.get s.regs a

/-- Bits [hi:lo] of a register. -/
def State.fld (s : State) (a hi lo : Nat) : Nat := bits (s.word a) hi lo

/-- A bit of a register. -/
def State.bit (s : State) (a n : Nat) : Bool := bitOf (s.word a) n

/-- The register left holding a word. -/
def State.setWord (s : State) (a v : Nat) : State := { s with regs := RegFile.set s.regs a v }

/-- Bits [hi:lo] of a register set to a value. -/
def State.setFld (s : State) (a hi lo v : Nat) : State := s.setWord a (putBits (s.word a) hi lo v)

/-- What hardware has done to a register in the present cycle. -/
def State.cycleOf (s : State) (a : Nat) : Cycle := (s.cycle.find? (fun c => c.addr == a)).getD { addr := a, before := s.word a }

/-- The record of a register's present cycle replaced. -/
def State.inCycle (s : State) (c : Cycle) : State := { s with cycle := c :: s.cycle.filter (fun d => d.addr != c.addr) }

/-- `n` events counted in a saturating counter field. -/
def State.countN (s : State) (a hi lo n : Nat) : State :=
  let m := 2 ^ (hi + 1 - lo) - 1
  let c := s.cycleOf a
  (s.inCycle { c with counted := putBits c.counted hi lo (sat m (bits c.counted hi lo + n)) }).setFld a hi lo
    (sat m (s.fld a hi lo + n))

/-- `n` events counted in a counter field that wraps. -/
def State.countWrap (s : State) (a hi lo n : Nat) : State :=
  let c := s.cycleOf a
  (s.inCycle { c with counted := putBits c.counted hi lo (bits c.counted hi lo + n) }).setFld a hi lo (s.fld a hi lo + n)

/-- W1C bits that hardware sets: those of `v` in the field [hi:lo]. -/
def State.latchFld (s : State) (a hi lo v : Nat) : State :=
  let c := s.cycleOf a
  (s.inCycle { c with latched := putBits c.latched hi lo (Nat.lor (bits c.latched hi lo) v) }).setFld a hi lo
    (Nat.lor (s.fld a hi lo) v)

/-- One event counted in a saturating counter field. -/
def State.count (s : State) (a hi lo : Nat) : State := s.countN a hi lo 1

/-- The next free value, and the state with the counter advanced (log entry 2). -/
def State.draw (s : State) : Nat × State :=
  (Config.free s.freeIdx, { s with freeIdx := s.freeIdx + 1 })

/-- A draw of a byte string from the DRBG: free values. -/
def State.drawBytes (s : State) (n : Nat) : List Byte × State :=
  ((List.range n).map (fun i => byte (Config.free (s.freeIdx + i))), { s with freeIdx := s.freeIdx + n })

/-! ### Time -/

/-- Datapath ticks in a microsecond, a millisecond and a second (06, The counter). -/
def usT : Nat := 320
/-- Datapath ticks in a millisecond. -/
def msT : Nat := 320000
/-- Datapath ticks in a second. -/
def secT : Nat := 320000000

/-- The switch between VDD_AON and VBAT is held up now: the other source has not yet been at 2.9 V for 1 ms (R64). -/
def State.supplyHeld (s : State) : Bool :=
  s.hearth.supHold && !(match s.hearth.otherSince with | some t => decide (t + msT ≤ s.now) | none => false)

/-- Whether the Hearth draws from VBAT (R48, R64). -/
def State.drawsVbat (s : State) : Bool :=
  if s.hearth.supHold && !s.supplyHeld then decide (s.hearth.aonMv < 2900) else s.hearth.onVbat

/-- The signed TRIM of HRT_TRIM (R159). -/
def State.trim (s : State) : Int := toSigned 16 (s.fld 0x010010 15 0)

/-- The offset of the internal oscillator in the interval that starts now, within ±5 % (R69). -/
def State.oscPpm (s : State) : Int := max (-50000) (min 50000 (Config.intOscPpm s.freeIdx))

/-- Hearth clock cycles, in 1/78,125, that `dt` datapath ticks last (log entry 4). -/
def State.hearthParts (s : State) (dt : Nat) : Nat :=
  if s.hearth.xtalFault then ((dt : Int) * 8 * (1000000 + s.oscPpm) / 1000000).toNat else dt * 8

/-- Hearth time moved on by `dt` ticks (R159). -/
def State.passHearth (s : State) (dt : Nat) : State :=
  if s.hearth.running then
    let p := s.hearth.phase + s.hearthParts dt
    let cycles := p / 78125
    { s with
      freeIdx := s.freeIdx + b2n (s.hearth.xtalFault && decide (0 < dt))
      hearth := { s.hearth with
        phase := p % 78125
        cycles := s.hearth.cycles + cycles
        time := s.hearth.time + (cycles * ((2 : Int) ^ 26 + s.trim)).toNat } }
  else s

/-- What network time advances in `dt` ticks, in 2^-24 ns (R198, R202). -/
def NetTime.advance (n : NetTime) (incr dt : Nat) : Nat :=
  let k := min dt n.slewTicks
  if n.slewNeg then dt * incr - k * 0x8000 else dt * incr + k * 0x8000

/-- Network time moved on by an amount in 2^-24 ns (R198). -/
def NetTime.add (n : NetTime) (adv : Nat) : NetTime :=
  let t := n.ns * 2 ^ 24 + n.frac + adv
  let carry := t / (1000000000 * 2 ^ 24)
  let r := t % (1000000000 * 2 ^ 24)
  { n with sec := (n.sec + carry) % 2 ^ 48, ns := r / 2 ^ 24, frac := r % 2 ^ 24,
           boundary := if carry = 0 then n.boundary else some ((n.sec + carry) % 2 ^ 48) }

/-- Whether the angle is valid in the state of the block (R240). -/
def Mains.angleValid (m : Mains) : Bool :=
  match m.st with
  | .locked | .phantom | .timed => true
  | .acquire => m.base != .absent
  | .absent => false

/-- MA_FREQ and the offsets taken for the schedule table (R247). -/
def Mains.recalc (m : Mains) : Mains := { m with calcFreq := m.freq, calcOffs := m.phases.map (·.offset) }

/-- The mains angle moved on by an amount of network time in 2^-24 ns (R233, R242); where a cycle begins, the schedule
table is recomputed (R247). -/
def Mains.pass (m : Mains) (adv : Nat) : Mains :=
  if m.running then
    let r := m.rem + adv
    let n := r / (1000 * 2 ^ 24)
    let a := m.acc + n * m.freq
    match m.st with
    | .absent => { m with rem := r % (1000 * 2 ^ 24) }
    | _ => { (if a < 2 ^ 40 then m else m.recalc) with
        rem := r % (1000 * 2 ^ 24)
        acc := a % 2 ^ 40
        cycle := if m.angleValid then (m.cycle + a / 2 ^ 40) % 2 ^ 32 else m.cycle
        loop := m.loop.map (fun l => ((l.1 + n * l.2) % 2 ^ 40, l.2)) }
  else m

/-- Network time and the mains angle moved on by `dt` ticks. -/
def State.passMain (s : State) (dt : Nat) : State :=
  if s.main.out then
    let adv := s.main.nt.advance (s.word 0x020014) dt
    let nt := s.main.nt.add adv
    let p := s.main.power
    let b := s.main.boot
    { s with main := { s.main with
        boot := if b.slot.isSome && s.hearth.ps == .blaze then { b with dog := b.dog + dt } else b
        nt := { nt with slewTicks := s.main.nt.slewTicks - min dt s.main.nt.slewTicks }
        ma := s.main.ma.pass adv
        power := if s.main.cmd.started || (s.main.boot.local9 && s.main.sk.formed && !s.main.sk.isLead) then match s.hearth.ps with
          | .blaze => { p with blaze := p.blaze + dt }
          | .bank => { p with bank := p.bank + dt }
          | .smoulder => { p with smoulder := p.smoulder + dt }
          | .ember => p
        else p } }
  else s

/-! ### Stamps -/

/-- Hearth seconds and fraction (05, Hearth time). -/
def State.hearthSec (s : State) : Nat := s.hearth.time / 2 ^ 41 % 2 ^ 48
/-- The fraction of Hearth time in 1/32,768 s. -/
def State.hearthFrac (s : State) : Nat := s.hearth.time / 2 ^ 26 % 2 ^ 15

/-- A Hearth time as bytes: seconds 6, fraction 2 (Table HRT-6). -/
def State.hearthBytes (s : State) : List Byte := be 6 s.hearthSec ++ be 2 s.hearthFrac

/-- The Hearth time that an event of this instant carries: that from before a step of the same instant (R188). -/
def State.eventTime (s : State) : List Byte :=
  if s.hearth.stepped.1 = s.now ∧ s.hearth.stepped.2 ≠ 0 then
    be 6 (s.hearth.stepped.2 / 2 ^ 41 % 2 ^ 48) ++ be 2 (s.hearth.stepped.2 / 2 ^ 26 % 2 ^ 15)
  else s.hearthBytes

/-- The stamp of an event: bytes 0 to 9 of Table CMD-5, network time where it runs, Hearth time
elsewhere (R161, R209). -/
def State.stamp (s : State) : List Byte :=
  if s.main.out then
    be 6 s.main.nt.sec ++ be 4 (b2n s.main.sk.timeLoose * 2 ^ 31
      + b2n (s.main.nt.servo == .free) * 2 ^ 30 + s.main.nt.ns)
  else be 6 s.hearthSec ++ be 4 (2 ^ 30 + s.hearthFrac * 1000000000 / 32768)

/-- The reference mains angle (R240). -/
def State.angle (s : State) : Nat := s.main.ma.acc / 2 ^ 24 % 65536

/-- The position: MA_CYCLE × 65,536 + angle (R242). -/
def State.position (s : State) : Nat := s.main.ma.cycle * 65536 + s.angle

/-- The reference phase (MA_CFG.REF). -/
def State.refPhase (s : State) : Nat := s.fld 0x030004 1 0

/-- Whether the angle of a phase is a phantom one where it is valid: the running angle is not measured, or the phase is not
present (R236, Table CMD-5; log entry 5). -/
def Mains.isPhantom (m : Mains) (p : Nat) : Bool := m.st != .locked || !(at? m.phases p {}).present

/-- The bits ANGLE_VALID and PHANTOM of a stamp (Table CMD-5, byte 13). -/
def State.angleFlags (s : State) : Nat :=
  if s.main.out then b2n s.main.ma.angleValid * 128 + b2n (s.main.ma.angleValid && s.main.ma.isPhantom s.refPhase) * 64
  else 0

/-! ### The record port of the ash log (21) -/

/-- Bytes 4 to 29 of an event record (Table AL-1). -/
def State.ashBody (s : State) (source kind : Nat) (detail : List Byte) : List Byte :=
  s.stamp ++ be 2 s.angle ++ [byte source,
    byte (s.angleFlags + b2n s.hearth.xtalFault * 32 + b2n s.hearth.onReserve * 16 + s.main.boot.member),
    byte kind] ++ padTo 11 detail

/-- A record of SEQ `seq` with the given bytes 4 to 29 (R672). -/
def mkRecord (seq : Nat) (body : List Byte) : AshRec :=
  let b := be 4 seq ++ padTo 26 body
  ⟨seq, b ++ be 2 (crc16 b)⟩

/-- One record written through the record port: it takes the next SEQ, and overwrites the record
2,048 before it (R669). -/
def State.ringWrite (s : State) (body : List Byte) : State :=
  let r := s.hearth.ring ++ [mkRecord s.hearth.seq body]
  { s with hearth := { s.hearth with ring := r.drop (r.length - 2048), seq := (s.hearth.seq + 1) % 2 ^ 32 } }

/-- The write buffer emptied into the ring, oldest first (R670). -/
def State.drainAsh (s : State) : State :=
  let s' := s.main.ash.buf.foldl (fun x g => g.foldl State.ringWrite x) s
  { s' with main := { s'.main with ash := { s'.main.ash with buf := [] } } }

/-- A record of source HRT, or one that the boot ROM writes: straight through the port (R670). -/
def State.ashHearth (s : State) (source kind : Nat) (detail : List Byte) : State :=
  s.ringWrite (s.ashBody source kind detail)

/-- 1.024 s in ticks, the rate window of R671. -/
def ashWindow : Nat := 327680000

/-- A group of records that Stoker raises for one source, entered in the write buffer within the
rate limit and the buffer's 256 records (R670, R671). -/
def State.ashGroup (s : State) (source : Nat) (bodies : List (List Byte)) : State :=
  let a := s.main.ash
  let n := bodies.length
  let old := a.wins.find? (fun w => w.source == source && decide (s.now < w.since + ashWindow))
  let w : AshWin := old.getD ⟨source, s.now, 0, 0⟩
  let stale : Option AshWin := match old with
    | some _ => none
    | none => a.wins.find? (fun x => x.source == source && decide (0 < x.suppressed))
  let used := (a.buf.map List.length).sum
  let limited := source != 0x01 && source != 0x11
  let fits := decide (used + n ≤ 256) && (!limited || decide (w.count + n ≤ s.fld 0x110000 23 16))
  let w' : AshWin := if fits then { w with count := w.count + n } else { w with suppressed := w.suppressed + n }
  let late := match stale with
    | some x => [[s.ashBody 0x11 0x01 ([byte source] ++ be 2 (sat 0xFFFF x.suppressed))]]
    | none => []
  let s1 := if fits then s else s.countN 0x110014 31 16 n
  { s1 with main := { s1.main with ash := { a with
      buf := a.buf ++ late ++ (if fits then [bodies] else [])
      wins := w' :: a.wins.filter (fun x => x.source != source) } } }

/-- One record that Stoker raises (R670). -/
def State.ash (s : State) (source kind : Nat) (detail : List Byte) : State :=
  s.ashGroup source [s.ashBody source kind detail]

/-! ### The passing of time -/

/-- `dt` datapath ticks pass: Hearth time, network time and the mains angle run on, and the ash
write buffer reaches the ring (R670). -/
def State.elapse (s : State) (dt : Nat) : State :=
  let s' := (s.passMain dt).passHearth dt
  let s'' := { s' with now := s.now + dt }
  if dt = 0 then s'' else { s'' with cycle := [] }.drainAsh

/-! ### The stack: who leads, and messages between members (19, 20) -/

/-- This member's number. -/
def State.self (s : State) : Nat := s.main.boot.member

/-- The chip serial (R25). -/
def ownSerial : Nat := Config.chipSerial % 2 ^ 64

/-- The terminal's serial number: SERIAL of the configuration image in force, or the chip serial of the lead where
there is none or it is 0 (R25). Which serial stands while no other member is known as lead the spec does not say; the
model takes this chip's own (DESIGN CHOICE, log entry 127). -/
def State.termSerial (s : State) : Nat :=
  let k := s.main.sk
  if k.serial ≠ 0 then k.serial
  else if k.isLead || !k.leadValid || k.lead == s.self then ownSerial
  else (at? k.peers k.lead {}).serial

/-- Whether this member is quarantined (R659). -/
def State.quarantined (s : State) : Bool := (at? s.main.sk.peers s.self {}).quar != 0

/-- The stack header of a message (Table SK-1) and its content. -/
def State.stackMsg (s : State) (type aux : Nat) (body : List Byte) : List Byte :=
  [byte type, byte s.self] ++ be 2 s.main.sk.term ++ be 4 aux ++ body

/-- The hop count to a member over one link (R644). -/
def State.hopsOn (s : State) (k m : Nat) : Nat :=
  if (at? s.main.st.links k {}).st = .up then
    let h := at? (at? s.main.sk.peers m {}).hops k 8
    if h < 7 then h + 1 else 8
  else 8

/-- The link with the least hop count to a member; link 0 where they are equal (R644). Nothing is
routed to a duplicated number (R650). -/
def State.route (s : State) (m : Nat) : Option Nat :=
  let a := s.hopsOn 0 m
  let b := s.hopsOn 1 m
  if (a = 8 ∧ b = 8) ∨ (at? s.main.sk.peers m {}).quar = 3 then none else if b < a then some 1 else some 0

/-- The size of a class's transmit queue in bytes (ST_Lk_TXQ). -/
def State.txqSize (s : State) (k cls : Nat) : Nat :=
  4096 * s.fld (0x0F0130 + 256 * k) (31 - 8 * cls) (24 - 8 * cls)

/-- The bytes that wait in a class's transmit queue. -/
def StClass.queued (c : StClass) : Nat := (c.txq.map (fun m => m.bytes.length)).sum

/-- A link changed by a function. -/
def State.modLink (s : State) (k : Nat) (f : Link → Link) : State :=
  { s with main := { s.main with st := { s.main.st with links := s.main.st.links.modify k f } } }

/-- A class of a link changed by a function. -/
def Link.modClass (l : Link) (c : Nat) (f : StClass → StClass) : Link :=
  { l with classes := l.classes.modify c f }

/-- A message offered to a link's transmit queue; none where it is refused (R620, R638): a TIME
message while the link is not UP, any message while it is DISABLED, or one that does not fit. -/
def State.offerOn (s : State) (k : Nat) (m : StMsg) : Option State :=
  let l := at? s.main.st.links k {}
  let c := at? l.classes m.cls {}
  if (m.cls = 1 ∧ l.st ≠ .up) ∨ l.st = .disabled ∨ m.bytes = [] ∨ 27648 < m.bytes.length then none
  else if c.queued + m.bytes.length ≤ s.txqSize k m.cls then
    some (s.modLink k (fun l => l.modClass m.cls (fun c => { c with txq := c.txq ++ [m] })))
  else none

/-- A message offered to the transmit queue of its route; none where no route or no queue takes it. -/
def State.offer (s : State) (m : StMsg) : Option State :=
  match s.route m.dest with
  | none => none
  | some k => s.offerOn k m

/-- A message sent to a member; where no route or no queue takes it, where one of its class to that member waits
already, or where it is for a lead that is lost, it waits (R645, R660). -/
def State.sendMsg (s : State) (cls dest type aux : Nat) (body : List Byte) : State :=
  let m : StMsg := ⟨cls, dest, s.stackMsg type aux body⟩
  let hold : State := { s with main := { s.main with sk := { s.main.sk with held := s.main.sk.held ++ [m] } } }
  let behind := s.main.sk.held.any (fun x => x.cls == cls && x.dest == dest)
  if behind || ((s.main.sk.leadLost.isSome || !s.main.sk.leadValid) && dest == s.main.sk.lead && !s.main.sk.isLead) then
    if cls = 1 then s else hold
  else match s.offer m with
    | some s' => s'
    | none => if cls = 1 then s else hold

/-- Whether this member's notices and replies go out on its own transport: it is lead, or no stack
has formed. -/
def State.leads (s : State) : Bool := s.main.sk.isLead || !s.main.sk.formed

/-! ### Packets (03) -/

/-- A packet: header with its HCRC, parameters, payload CRC (R82 to R84). -/
def mkPacket (kind member flags opcode tag status part : Nat) (params : List Byte) : List Byte :=
  let h := [sync0, sync1, byte (kind * 64 + 16 + member), byte flags] ++ be 2 opcode ++ be 2 tag
    ++ be 2 params.length ++ be 2 status ++ be 2 part
  h ++ be 2 (crc16 h) ++ (if params = [] then [] else params ++ be 4 (crc32 params))

/-- The bytes that wait in the outbound queue of the bound transport; with the head end as master
that queue is upstream queue 0 (R117, R372). -/
def State.outBytes (s : State) : Nat :=
  if s.main.cmd.bound = .tree then
    ((at? s.main.up.queues 0 {}).sdus.map (fun d => d.len - d.sent)).sum
  else (s.main.cmd.out.map (fun p => p.bytes.length)).sum

/-- The outbound queue holds 512 KiB (R117). -/
def outLimit : Nat := 524288

/-- Whether a packet fits the outbound queue. -/
def State.outRoom (s : State) (p : OutPkt) : Bool := decide (s.outBytes + p.bytes.length ≤ outLimit)

/-- The command port changed by a function. -/
def State.modCmd (s : State) (f : Cmd → Cmd) : State :=
  { s with main := { s.main with cmd := f s.main.cmd } }

/-- The operation entry with a handle. -/
def State.op? (s : State) (id : Nat) : Option OpEntry := s.main.cmd.ops.find? (fun e => e.id == id)

/-- The operation entry of a tag of the master; none while the tag is FREE. -/
def State.opOfTag (s : State) (tag : Nat) : Option OpEntry :=
  s.main.cmd.ops.find? (fun e => !e.shadow && e.tag == tag)

/-- Whether a message is the COMMAND with which this member forwards a tag to another (R88, R646). -/
def StMsg.carries (m : StMsg) (self dest tag : Nat) : Bool :=
  m.dest == dest && field m.bytes 0 1 == 0x05 && field m.bytes 1 1 % 8 == self && field m.bytes 14 2 == tag

/-- The messages that this member has not begun to send. -/
def State.unsent (s : State) : List StMsg :=
  s.main.sk.held ++ s.main.st.links.flatMap (fun l => l.classes.flatMap (fun c => c.txq))

/-- Whether the COMMAND of a forwarded operation still waits in this member's queues: the operation waits to start
(Table CMD-3, R118; log entry 54). -/
def State.atHome (s : State) (e : OpEntry) : Bool :=
  e.st == .running && !e.shadow && !e.all && s.unsent.any (fun m => m.carries s.self e.member e.tag)

/-- The state of an operation entry (Table CMD-3). -/
def State.opState (s : State) (e : OpEntry) : OpState := if s.atHome e then .queued else e.st

/-- A COMMAND message later than one of number `seq` counted one down (R646). -/
def StMsg.renumber (m : StMsg) (self dest seq : Nat) : StMsg :=
  if m.dest = dest ∧ field m.bytes 0 1 = 0x05 ∧ field m.bytes 1 1 % 8 = self ∧ 0 < sdiff 16 (field m.bytes 4 4) seq then
    { m with bytes := m.bytes.take 4 ++ be 4 ((field m.bytes 4 4 + 65535) % 65536) ++ m.bytes.drop 8 }
  else m

/-- The COMMAND of an operation that has not left is taken back, and those behind it keep their numbers without a
gap (R110, R118, R646). -/
def State.unsend (s : State) (e : OpEntry) : State :=
  match s.unsent.find? (fun m => m.carries s.self e.member e.tag) with
  | none => s
  | some m0 =>
    let seq := field m0.bytes 4 4
    let fix (l : List StMsg) : List StMsg :=
      (l.filter (fun m => !m.carries s.self e.member e.tag)).map (fun m => m.renumber s.self e.member seq)
    { s with main := { s.main with
        sk := { s.main.sk with
          held := fix s.main.sk.held
          peers := s.main.sk.peers.modify e.member (fun p => { p with cmdSeq := (p.cmdSeq + 65535) % 65536 }) }
        st := { s.main.st with links := s.main.st.links.map (fun l =>
          { l with classes := l.classes.map (fun c => { c with txq := fix c.txq }) }) } } }

/-- An operation entry changed by a function. -/
def State.modOp (s : State) (id : Nat) (f : OpEntry → OpEntry) : State :=
  s.modCmd (fun c => { c with ops := c.ops.map (fun e => if e.id = id then f e else e) })

/-- An operation's tag becomes FREE (R87). -/
def State.freeOp (s : State) (id : Nat) : State :=
  s.modCmd (fun c => { c with ops := c.ops.filter (fun e => e.id != id) })

/-- Whether the SDUs of an upstream queue are encrypted (R374); queue 0 sends in clear while its key slot
is empty (R493). -/
def State.upCipher (s : State) (q : Nat) : Bool :=
  let w := s.word (0x070104 + 16 * q)
  bits w 19 18 == 1 && !(q == 0 && bits (at? s.hearth.keys (bits w 15 8) {}).dir 10 8 == 0)

/-- An SDU for an upstream queue: encrypted, it is 24 bytes longer (R374, R498). -/
def State.mkSdu (s : State) (q : Nat) (k : SduKind) (b : List Byte) : Sdu :=
  let w := s.word (0x070104 + 16 * q)
  if s.upCipher q then
    { kind := k, bytes := b, len := b.length + 24, readyAt := none, slot := bits w 15 8, cq := bits w 17 16 }
  else { kind := k, bytes := b, len := b.length }

/-- A packet placed in the outbound queue of the bound transport. -/
def State.pushOut (s : State) (p : OutPkt) : State :=
  if s.main.cmd.bound = .tree then
    { s with main := { s.main with
        cmd := { s.main.cmd with notices := s.main.cmd.notices.map (fun n =>
          if p.kind = .notice n.num then { n with wire := if s.upCipher 0 then [] else p.bytes } else n) }
        up := { s.main.up with queues := s.main.up.queues.modify 0 (fun q =>
          { q with sdus := q.sdus ++ [s.mkSdu 0 (.packet p.kind) p.bytes] }) } } }
  else s.modCmd (fun c => { c with out := c.out ++ [p] })

/-- A reply packet placed: its final packet frees the tag (R87). -/
def State.placeReply (s : State) (p : OutPkt) : State :=
  let s1 := s.pushOut p
  match p.kind with
  | .reply id true => s1.freeOp id
  | _ => s1

/-! ### Notices (R97 to R102) -/

/-- The first number from `n` on that is not in use (R97). -/
def freshNum (used : List Nat) : Nat → Nat → Nat
  | 0, n => n
  | k + 1, n => if used.contains n then freshNum used k (if n = 0xFFFF then 0x8000 else n + 1) else n

/-- The packet of a copy of a notice (Table CMD-2): REPEAT and PART count the repeats. -/
def Notice.packet (n : Notice) : OutPkt :=
  ⟨.notice n.num, mkPacket 2 n.member (b2n n.alarm * 16 + b2n (decide (0 < n.repeats)) * 8) n.code n.num 0
    n.repeats n.bytes⟩

/-- The block a notice code belongs to (R98). -/
def codeSource (code : Nat) : Nat := code / 256

/-- The discards counted for a source since its last notice (Table CMD-5, LOST). -/
def Cmd.lostOf (c : Cmd) (source : Nat) : Nat := ((c.lost.find? (fun p => p.1 == source)).map (·.2)).getD 0

/-- A notice discarded under R99: counted for its source and in CMD_NOTICE_LOST. -/
def State.noticeLost (s : State) (source : Nat) : State :=
  (s.modCmd (fun c => { c with
    lost := (source, sat 0xFFFF (c.lostOf source + 1)) :: c.lost.filter (fun p => p.1 != source) })).count 0x000018 31 0

/-- A notice takes a place in the store and its number; LOST is filled in (R97, R98). -/
def State.storeNotice (s : State) (r : Raised) (lost : Option Nat) : State :=
  let c := s.main.cmd
  let num := freshNum ((c.notices.filter (·.alarm)).map (·.num)) 513 c.nextNum
  let src := codeSource r.code
  let l := lost.getD (c.lostOf src)
  let bytes := r.bytes.take 14 ++ be 2 (sat 0xFFFF l) ++ r.bytes.drop 16
  s.modCmd (fun c => { c with
    notices := c.notices ++ [{ num := num, code := r.code, member := r.member, alarm := r.alarm, bytes := bytes,
                               held := r.held, ev := r.ev }]
    nextNum := if num = 0xFFFF then 0x8000 else num + 1
    lost := if lost.isSome then c.lost else c.lost.filter (fun p => p.1 != src) })

/-- Removes the first element that satisfies a condition. -/
def dropFirst (p : α → Bool) : List α → List α
  | [] => []
  | a :: t => if p a then t else a :: dropFirst p t

/-- An alarm that finds the store full of alarms: the deferred list (R100). -/
def State.defer (s : State) (r : Raised) : State :=
  if s.main.cmd.deferred.any (fun d => d.code == r.code && d.member == r.member) then
    s.modCmd (fun c => { c with deferred := c.deferred.map (fun d =>
      if d.code = r.code ∧ d.member = r.member then
        { d with bytes := r.bytes, merges := sat 0xFFFF (d.merges + 1), held := r.held, ev := r.ev } else d) })
  else
    (s.modCmd (fun c => { c with deferred := c.deferred ++ [{ code := r.code, member := r.member, bytes := r.bytes,
                                                              held := r.held, ev := r.ev, first := r.ev.time }] })).ash 0x00 0x03
      (be 2 r.code ++ [byte r.member])

/-- A new notice meets the notice store (R99, R100). -/
def State.takePlace (s : State) (r : Raised) : State :=
  let src := codeSource r.code
  let ns := s.main.cmd.notices
  if ns.length < 512 then s.storeNotice r none
  else if ns.any (fun n => !n.alarm && codeSource n.code == src) then
    ((s.modCmd (fun c => { c with
      notices := dropFirst (fun n => !n.alarm && codeSource n.code == src) c.notices })).noticeLost src).storeNotice r none
  else match ns.find? (fun n => !n.alarm) with
    | some n => ((s.modCmd (fun c => { c with
        notices := dropFirst (fun n => !n.alarm) c.notices })).noticeLost (codeSource n.code)).storeNotice r none
    | none => if r.alarm then s.defer r else s.noticeLost src

/-- A notice's original is placed in the outbound queue: an alarm keeps its place in the store, any
other notice gives it up (R99). -/
def Cmd.place (c : Cmd) (n : Notice) : Cmd :=
  { c with notices :=
      if n.alarm then
        c.notices.map (fun x => if x.num = n.num ∧ x.alarm then { x with placed := true, copyOut := true } else x)
      else dropFirst (fun x => x.num == n.num && !x.alarm) c.notices }

/-- The oldest deferred alarm takes a place of the store that is free (R100). -/
def State.promote (s : State) : Option State :=
  match s.main.cmd.deferred with
  | d :: t =>
    if s.main.cmd.notices.length < 512 then
      some ((s.modCmd (fun c => { c with deferred := t })).storeNotice
        { code := d.code, member := d.member, alarm := true, bytes := d.bytes, held := d.held, ev := d.ev } (some d.merges))
    else none
  | [] => none

/-- One move of the outbound side: the oldest deferred alarm into a free place, else a held reply, else the oldest
notice not placed. None where nothing can move (R99, R100, R117). -/
def State.pumpOnce (s : State) : Option State :=
  match s.promote with
  | some s1 => some s1
  | none =>
    let c := s.main.cmd
    let free := c.started || (s.main.sk.formed && !s.main.sk.isLead)
    if !free && s.hearth.minBlaze.isNone then none else
    match (if free then c.hold else []) with
    | p :: t => if s.outRoom p then some ((s.modCmd (fun c => { c with hold := t })).placeReply p) else none
    | [] =>
      match c.notices.find? (fun n => !n.placed) with
      | some n => if s.outRoom n.packet then some ((s.modCmd (fun c => c.place n)).pushOut n.packet) else none
      | none => none

/-- The outbound side moves as far as it can; `k` bounds the moves. -/
def State.pump : Nat → State → State
  | 0, s => s
  | k + 1, s => match s.pumpOnce with
    | some s' => State.pump k s'
    | none => s

/-- How many moves the outbound side can make at most. -/
def State.pumpBound (s : State) : Nat :=
  s.main.cmd.hold.length + s.main.cmd.notices.length + 2 * s.main.cmd.deferred.length + 1

/-- The outbound side moves as far as it can. -/
def State.pumpOut (s : State) : State := s.pump s.pumpBound

/-- The parameter field of a notice: prefix and contents (Table CMD-5). -/
def State.noticeBytes (s : State) (code : Nat) (contents : List Byte) : List Byte :=
  s.stamp ++ be 2 s.angle ++ [byte (codeSource code), byte s.angleFlags] ++ be 2 0 ++ contents

/-- A notice with its whole parameter field, raised on a member: masked, sent to the lead, kept until START is queued,
or queued. The spec does not say whose CMD_NOTICE_MASK a notice of another member meets: the model takes that of the
member that raises it (R102; DESIGN CHOICE, log entry 128). -/
def State.raise (s : State) (r : Raised) : State :=
  if !s.main.out then s
  else if !r.alarm && s.bit 0x000014 (codeSource r.code) then s
  else if !s.leads then s.sendMsg 0 s.main.sk.lead 0x06 0
    (mkPacket 2 s.self (b2n r.alarm * 16) r.code 0x8000 0 0 r.bytes)
  else if !s.main.cmd.started then s.modCmd (fun c => { c with raised := c.raised ++ [r] })
  else (s.takePlace r).pumpOut

/-- A notice of this member, stamped now (R98). -/
def State.notify (s : State) (code : Nat) (alarm : Bool) (contents : List Byte) : State :=
  s.raise { code := code, member := s.self, alarm := alarm, bytes := s.noticeBytes code contents,
            ev := { time := s.eventTime } }

/-! ### Replies (R87, R92, R117, R121) -/

/-- A byte string cut into pieces of at most 4,096 bytes; `k` bounds the pieces. -/
def chunks : Nat → List Byte → List (List Byte)
  | 0, l => [l]
  | k + 1, l => if l.length ≤ 4096 then [l] else l.take 4096 :: chunks k (l.drop 4096)

/-- The packets of one member's reply: split at 4,096 bytes, PART from `part`, MORE on every packet
but the last of the last member (R90, R92). -/
def replyPackets (id opcode tag part : Nat) (r : Result) (lastMember : Bool) : List OutPkt :=
  let ps := chunks (r.params.length / 4096 + 1) r.params
  (ps.zipIdx).map (fun (b, i) =>
    let final := lastMember && i + 1 == ps.length
    ⟨.reply id final, mkPacket 1 r.member (b2n (!final) * 32) opcode tag r.status (part + i) b⟩)

/-- Reply packets formed: placed in order, held while START is not queued or no room is left. -/
def State.emit (s : State) (ps : List OutPkt) : State :=
  (s.modCmd (fun c => { c with hold := c.hold ++ ps })).pumpOut

/-- The replies of several members, in the order given, PART counted on (R90). -/
def packetsOf (id opcode tag : Nat) : Nat → List Result → List OutPkt
  | _, [] => []
  | part, [r] => replyPackets id opcode tag part r true
  | part, r :: t =>
    let ps := replyPackets id opcode tag part r false
    ps ++ packetsOf id opcode tag (part + ps.length) t

/-- Whether an opcode is a register access (R91). -/
def regOpcode (op : Nat) : Bool := op == 0x10 || op == 0x11 || op == 0x12

/-- Whether two operations name a common member (R91). -/
def OpEntry.shares (a b : OpEntry) : Bool := a.all || b.all || a.member == b.member

/-- Whether an operation with a formed reply must wait: an earlier register access on its member has not placed its own
(R91). -/
def State.regWaits (s : State) (e : OpEntry) : Bool :=
  regOpcode e.opcode && (s.main.cmd.ops.takeWhile (fun x => x.id != e.id)).any (fun x =>
    !x.shadow && regOpcode x.opcode && x.shares e && (x.st != .replying || x.formed != []))

/-- The formed replies whose turn has come are placed; `k` bounds them (R91). -/
def State.placeFormed : Nat → State → State
  | 0, s => s
  | k + 1, s =>
    match s.main.cmd.ops.find? (fun e => e.st == .replying && e.formed != [] && !s.regWaits e) with
    | none => s
    | some e => State.placeFormed k ((s.modOp e.id (fun e => { e with formed := [] })).emit e.formed)

/-- The reply packets of an operation formed (R87, R91, R116). -/
def State.reply (s : State) (id : Nat) (ps : List OutPkt) : State :=
  let s1 := s.modOp id (fun e => { e with st := .replying, await := [], space := 0, lastReply := s.now, formed := ps })
  s1.placeFormed s1.main.cmd.ops.length

/-- A member's result arrives for an operation of the lead's table: the reply goes out, or waits for
the other members (R88, R90). -/
def State.memberResult (s : State) (id : Nat) (r : Result) : State :=
  match s.op? id with
  | none => s
  | some e =>
    if e.st = .replying then s
    else if e.all then
      let await := e.await.filter (fun m => m != r.member)
      let results := e.results ++ [r]
      if await = [] then
        let sorted := (List.range 8).flatMap (fun m => results.filter (fun x => x.member == m))
        s.reply id (packetsOf e.id e.opcode e.tag 0 sorted)
      else s.modOp id (fun e => { e with await := await, results := results })
    else s.reply id (packetsOf e.id e.opcode e.tag 0 [r])

/-- The end of an operation on this member: its result, for the lead's table or, for a forwarded
command, in REPLY messages to the lead (R88). -/
def State.finish (s : State) (id status : Nat) (params : List Byte) : State :=
  match s.op? id with
  | none => s
  | some e =>
    if e.shadow then
      let ps := replyPackets e.id e.opcode e.tag 0 ⟨s.self, status, params⟩ true
      let cls := if e.opcode = 0x0800 ∧ params ≠ [] then 2 else 0
      (ps.foldl (fun x p => x.sendMsg cls x.main.sk.lead 0x06 0 p.bytes) s).freeOp id
    else s.memberResult id ⟨s.self, status, params⟩

/-- The end of the operation that a block waits with, where one waits. -/
def State.finish? (s : State) (op : Option Nat) (status : Nat) (params : List Byte) : State :=
  match op with
  | some t => s.finish t status params
  | none => s

/-- A reply to a packet that was not accepted: it neither occupies nor frees a tag (R75, R85, R86). -/
def State.refuse (s : State) (opcode tag status : Nat) (kind : OutKind) : State :=
  s.emit [⟨kind, mkPacket 1 s.self 0 opcode tag status 0 []⟩]

/-! ### Energy and the reserve -/

/-- The energy estimate in millijoules for a reserve code (R168): 0 at or below the floor. -/
def State.energyOf (s : State) (code : Nat) : Nat :=
  let cap := s.fld 0x010050 31 16
  let eta := s.fld 0x010050 15 8
  let ratio := s.fld 0x010050 7 0
  let vf := s.fld 0x010054 9 0
  if code ≤ vf then 0
  else cap * 625 * ratio ^ 2 * (code ^ 2 - vf ^ 2) * eta / (65536 * 512 * 1000000)

/-- MARGIN_MJ of UP_ENERGY in millijoules. -/
def State.marginMj (s : State) : Nat := 10 * s.fld 0x070008 31 20

/-- The energy of a flush step in microjoules (R681). -/
def State.stepUj (s : State) (st : FlushStep) : Nat :=
  match st with
  | .erase _ => s.fld 0x110004 31 20 * s.fld 0x110004 19 8
  | _ => (s.fld 0x110004 31 20 * (s.fld 0x110004 7 0 * 25) + 999) / 1000

/-- Whether an energy in microjoules is admitted (R384, R681): always while PSU_OK is high. -/
def State.admits (s : State) (uj f : Nat) : Bool :=
  !s.hearth.onReserve ||
    decide (uj + 1000 * s.marginMj + f + s.main.up.admitted ≤ 1000 * s.hearth.resE)

/-- An admitted energy enters A (R384). -/
def State.charge (s : State) (uj : Nat) : State :=
  if s.hearth.onReserve then
    { s with main := { s.main with up := { s.main.up with admitted := s.main.up.admitted + uj } } }
  else s

/-! ### Waking -/

/-- Whether a wake source returns the chip from Bank, and from Smoulder (Table HRT-5). -/
def wakes (ps : PState) (src : Nat) : Bool :=
  match ps with
  | .bank => src != 0x04 && decide (1 ≤ src ∧ src ≤ 0x0E)
  | .smoulder => src != 0x04 && src != 0x08 && src != 0x09 && src != 0x0A && decide (1 ≤ src ∧ src ≤ 0x0E)
  | _ => false

/-- The lowest code of the wake sources that have fired in the present Hearth clock cycle, `src` among them (R184). -/
def State.firedCode (s : State) (src : Nat) : Nat :=
  match s.main.power.fired with
  | some (c, k) => if c = s.hearth.cycles then min k src else src
  | none => src

/-- The power block changed by a function. -/
def State.modPower (s : State) (f : Power → Power) : State :=
  { s with main := { s.main with power := f s.main.power } }

/-- A wake source fires: from Bank or Smoulder the chip returns to Blaze (R175), which it reaches 15 µs or 1.5 ms
later (Table HRT-3), or at once where the state was entered in the same Hearth clock cycle: that entry is abandoned
(R184). LOST_MS starts again at the wake from Smoulder (R664). In Blaze the source is noted, for an entry that falls in
the same cycle. -/
def State.wake (s : State) (src : Nat) : State :=
  let c := s.hearth.cycles
  let code := s.firedCode src
  if wakes s.hearth.ps src then
    let late := if s.hearth.ps = .smoulder then 1500 else 15
    { s with
      hearth := { s.hearth with ps := .blaze, wakeSrc := code }
      main := { s.main with
        power := { s.main.power with
          event := none, wakeAt := none, fired := some (c, code), wokeAt := some c, deep := s.hearth.ps == .smoulder
          blazeAt := if s.main.power.enteredAt = some c then s.now else s.now + late * usT }
        sk := { s.main.sk with lastState := if s.hearth.ps = .smoulder then s.now else s.main.sk.lastState } } }
  else if s.main.out && s.hearth.ps == .blaze && wakes .bank src then
    let s1 := s.modPower (fun p => { p with fired := some (c, code) })
    if s.main.power.wokeAt = some c then { s1 with hearth := { s1.hearth with wakeSrc := code } } else s1
  else s

/-- The chip has reached Blaze: it is in that state, and the wake that led to it is over (Table HRT-3). -/
def State.blazing (s : State) : Bool := s.hearth.ps == .blaze && decide (s.main.power.blazeAt ≤ s.now)

/-- In Smoulder, and on the way back from it until Blaze is reached: what R319 lets through is all that is taken from the
tree. -/
def State.smouldering (s : State) : Bool :=
  s.hearth.ps == .smoulder || (s.main.power.deep && decide (s.now < s.main.power.blazeAt))

/-- The lead's TREE_TXDISn are held high by the hard floor (R40, R169). -/
def State.hardFloor (s : State) : Bool :=
  s.hearth.onReserve && decide (s.hearth.resCode < s.fld 0x010054 25 16)

/-- Every slot of the key store is empty (R139). -/
def State.keysEmpty (s : State) : Bool := s.hearth.keys.all (fun k => k.dir == 0)

/-! ### The flash -/

/-- A byte of the flash; an erased byte reads 0xFF. -/
def flashGet (m : List Host.Cell) (a : Nat) : Byte :=
  match m with
  | [] => 0xFF#8
  | (b, v) :: t => if b = a then v else if b < a then flashGet t a else 0xFF#8

/-- A byte written to a byte memory whose unlisted bytes read 0xFF; the canonical form is kept. -/
def flashSet (m : List Host.Cell) (a : Nat) (v : Byte) : List Host.Cell :=
  match m with
  | [] => if v = 0xFF#8 then [] else [(a, v)]
  | (b, w) :: t =>
    if b < a then (b, w) :: flashSet t a v
    else if b = a then (if v = 0xFF#8 then t else (a, v) :: t)
    else (if v = 0xFF#8 then (b, w) :: t else (a, v) :: (b, w) :: t)

/-- The canonical form of the flash: addresses rising, no byte 0xFF. -/
def flashWf : List Host.Cell → Bool
  | [] => true
  | [(_, v)] => v != 0xFF#8
  | (a, v) :: (b, w) :: t => v != 0xFF#8 && decide (a < b) && flashWf ((b, w) :: t)

/-- `n` bytes of the flash. -/
def State.flashRead (s : State) (a n : Nat) : List Byte := (List.range n).map (fun i => flashGet s.flash (a + i))

/-- Bytes programmed into the flash. -/
def flashWrite (m : List Host.Cell) (a : Nat) (l : List Byte) : List Host.Cell :=
  match l with
  | [] => m
  | b :: t => flashWrite (flashSet m a b) (a + 1) t

/-- A range of the flash erased. -/
def flashErase (m : List Host.Cell) (a n : Nat) : List Host.Cell :=
  m.filter (fun c => !(decide (a ≤ c.1) && decide (c.1 < a + n)))

/-- Whether a range of the flash is erased. -/
def flashBlank (m : List Host.Cell) (a n : Nat) : Bool :=
  m.all (fun c => !(decide (a ≤ c.1) && decide (c.1 < a + n)))

end Sys2Proof.Machine
end

