-- ==== Sys2Proof/Machine/Ash.lean ====
section
/-! DEFINITION. The ash log (21): waveform records, archives, the flush, and the AL opcodes. -/

namespace Sys2Proof.Machine

/-! ### Waveforms (R674 to R676) -/

/-- A number as `n` bits, most significant first. -/
def toBits : Nat → Nat → List Bool
  | 0, _ => []
  | n + 1, v => bitOf v n :: toBits n v

/-- Bits packed into bytes, most significant first, zeros to the next byte boundary; `k` bounds the
bytes. -/
def packBits : Nat → List Bool → List Byte
  | 0, _ => []
  | k + 1, l => if l = [] then [] else
      byte ((List.range 8).foldl (fun a i => a * 2 + b2n (l.getD i false)) 0) :: packBits k (l.drop 8)

/-- The codes of the samples after the first two (R675): `h1` and `h2` are the last two
reconstructions. -/
def waveCodes (e : Nat) : Int → Int → List Int → List Bool
  | _, _, [] => []
  | h2, h1, x :: t =>
    let p := 2 * h1 - h2
    let step : Int := 2 * e + 1
    let q := (x - p + e) / step
    let v := p + q * step
    if -7 ≤ q ∧ q ≤ 7 ∧ -512 ≤ v ∧ v ≤ 511 then toBits 4 (ofSigned 4 q) ++ waveCodes e h1 v t
    else toBits 4 8 ++ toBits 10 (ofSigned 10 x) ++ waveCodes e h1 x t

/-- The block of one phase in a WAVE payload (R675). -/
def waveBlock (e : Nat) (l : List Int) : List Byte :=
  let s0 := l.getD 0 0
  let s1 := l.getD 1 0
  let bits := waveCodes e s0 s1 (l.drop 2)
  be 2 l.length ++ be 2 (ofSigned 16 s0) ++ be 2 (ofSigned 16 s1) ++ packBits (bits.length / 8 + 1) bits

/-- Whether a phase is present in the cycle concerned: it is present, or was lost less than a cycle
ago (R674). -/
def State.inPeriod (s : State) (p : Phase) : Bool :=
  p.present || (match p.lostAt with
    | some t => decide ((s.now - t) * s.main.ma.freq ≤ 2 ^ 40 * 320)
    | none => false)

/-- The WAVE head and its continuation records, as record bodies (Table AL-3). -/
def State.waveBodies (s : State) (cause : Nat) : List (List Byte) :=
  let e := s.fld 0x110000 30 28
  let ps := s.main.ma.phases.zipIdx.filter (fun p => s.inPeriod p.1 && p.1.samples != [])
  let map := (ps.map (fun p => 2 ^ p.2)).sum
  let payload := ps.flatMap (fun p => waveBlock e p.1.samples)
  let parts := (payload.length + 23) / 24
  let head := s.ashBody 0x03 0x10 (be 4 s.main.ma.cycle ++ [byte map, byte e, byte parts, byte cause]
    ++ be 2 payload.length)
  head :: (List.range parts).map (fun i => [0xFF#8, byte (i + 1)] ++ bytesAt payload (24 * i) 24)

/-- Mains angle writes a WAVE record with its continuation records (R674). -/
def State.wave (s : State) (cause : Nat) : State :=
  if s.bit 0x110000 31 && s.main.ma.phases.any (fun p => s.inPeriod p && p.samples != []) then
    s.ashGroup 0x03 (s.waveBodies cause)
  else s

/-! ### Archives (R677, R678) -/

/-- The flash address of an archive slot (R677). -/
def archAddr (slot : Nat) : Nat := 0x2A0000 + slot * 0x20000

/-- Whether 64 bytes are a valid archive header (Table AL-5). -/
def archHeaderOk (h : List Byte) : Bool := field h 0 4 == 0x4356414C && field h 60 4 == crc32 (h.take 60)

/-- The header of a slot, where it is valid. -/
def State.archHeader (s : State) (slot : Nat) : Option (List Byte) :=
  let h := s.flashRead (archAddr slot) 64
  if archHeaderOk h then some h else none

/-- Whether a slot's trailer is valid with the same ASEQ (R677). -/
def State.archTrailer (s : State) (slot aseq : Nat) : Bool :=
  let t := s.flashRead (archAddr slot + 0x11300) 16
  field t 0 4 == 0x4356444E && field t 4 4 == aseq && field t 12 4 == crc32 (t.take 12)

/-- The state of a slot: 0 erased, 1 complete, 2 partial, 3 neither (Table AL-8). -/
def State.archState (s : State) (slot : Nat) : Nat :=
  match s.archHeader slot with
  | some h => if s.archTrailer slot (field h 4 4) then 1 else 2
  | none => if flashBlank s.flash (archAddr slot) 0x20000 then 0 else 3

/-- The newest archive: slot and ASEQ, the greatest under sdiff_32 (R677). -/
def State.newestArch (s : State) : Option (Nat × Nat) :=
  (List.range 16).foldl (fun best i =>
    match s.archHeader i with
    | none => best
    | some h =>
      let a := field h 4 4
      match best with
      | none => some (i, a)
      | some (_, b) => if 0 < sdiff 32 a b then some (i, a) else best) none

/-- The slot after the newest archive; where there is none the spec names no slot (log entry 7). -/
def State.nextSlot (s : State) : Nat :=
  match s.newestArch with
  | some (i, _) => (i + 1) % 16
  | none => Config.firstArchive.1 % 16

/-- The ASEQ that the next archive takes; where there is none the spec names no number (log entry 7). -/
def State.nextAseq (s : State) : Nat :=
  match s.newestArch with
  | some (_, a) => (a + 1) % 2 ^ 32
  | none => Config.firstArchive.2 % 2 ^ 32

/-! ### Flash operations wait for one another (R685) -/

/-- The boot data changed by a function. -/
def State.modBoot (s : State) (f : Boot → Boot) : State :=
  { s with main := { s.main with boot := f s.main.boot } }

/-- The end of a step recorded (BOOT_REPORT, CMD_BOOT_STATUS). -/
def State.stepEnd (s : State) (n : Nat) : State :=
  s.modBoot (fun b => { b with ends := b.ends.set (n - 1) (some s.now), lastStep := max b.lastStep n })

/-- The first failed step recorded (R150). -/
def State.stepFail (s : State) (n : Nat) : State :=
  s.modBoot (fun b => { b with failStep := if b.failStep = 0 then n else b.failStep })

/-- Stoker runs: the main domain is out of reset, not stopped in the boot ROM and not in rescue (R60, R68, R138). -/
def State.stoker (s : State) : Bool := s.main.out && !s.main.boot.stopped && !s.main.boot.rescue

/-- The ash log's main-domain part changed by a function. -/
def State.modAsh (s : State) (f : Ash → Ash) : State :=
  { s with main := { s.main with ash := f s.main.ash } }

/-- The worst-case energy of a flash operation in microjoules: that of an erase or of a page
(R145, R681; log entry 8). -/
def State.flashUj (s : State) (op : FlashOp) : Nat :=
  match op with
  | .imgErase _ _ | .image _ _ => s.stepUj (.erase 0)
  | .preErase _ => 2 * s.stepUj (.erase 0)
  | _ => s.stepUj .header

/-- The next waiting flash operation starts, once no other operation and no flush runs and its
energy is admitted (R145, R685). -/
def State.flashPump (s : State) : State :=
  match s.main.boot.flashOp, s.main.boot.flashQ with
  | none, op :: t =>
    if s.main.ash.flush.isSome then s
    else if s.admits (s.flashUj op) 0 then
      (s.charge (s.flashUj op)).modBoot (fun b => { b with flashOp := some op, flashQ := t, flashAt := s.now })
    else s
  | _, _ => s

/-- A flash operation asked for: it starts at once or waits. -/
def State.flashAsk (s : State) (op : FlashOp) : State :=
  (s.modBoot (fun b => { b with flashQ := b.flashQ ++ [op] })).flashPump

/-- The slot that the next flush will use is erased (R683). -/
def State.preErase (s : State) : State :=
  if s.bit 0x110000 27 && s.hearth.psuOk && !flashBlank s.flash (archAddr s.main.ash.next) 0x20000 then
    s.flashAsk (.preErase s.main.ash.next)
  else s

/-! ### The flush (R679 to R682) -/

/-- The 512 bytes of the held-alarm store (Table HRT-6): 13 entries, the rest zero. -/
def heldBytes (l : List Held) : List Byte :=
  padTo 512 (l.zipIdx.flatMap (fun (h, i) =>
    if h.count = 0 then List.replicate 32 0#8
    else [byte i, byte h.flags] ++ be 2 h.count ++ h.first ++ h.last ++ be 2 h.reserve ++ List.replicate 10 0#8))

/-- The archive header of a flush that starts now (Table AL-5). -/
def State.flushHeader (s : State) (aseq cause first last : Nat) : List Byte :=
  let h := be 4 0x4356414C ++ be 4 aseq ++ be 8 s.termSerial ++ [byte s.self, byte cause] ++ be 2 0 ++ s.stamp
    ++ be 4 first ++ be 4 last ++ be 4 s.main.boot.fw ++ be 2 s.hearth.resCode ++ be 4 s.hearth.resE
    ++ List.replicate 12 0#8
  h ++ be 4 (crc32 h)

/-- The steps of a flush into a slot (R680). -/
def flushSteps (blank : Bool) : List FlushStep :=
  (if blank then [] else [.erase 0, .erase 1]) ++ [.header] ++ (List.range 256).map .ring ++ [.held 0, .held 1]
    ++ [.tree, .trailer]

/-- A flush is pending: it falls due, waits for an operation of the flash, or is owed in step 9 (R679, R685). -/
def State.flushPending (s : State) : Bool :=
  let a := s.main.ash
  a.flush.isNone && (a.flushDue.isSome || a.trigger.isSome || (a.owedDue && s.main.boot.local9))

/-- The energy of what a pre-erase in progress still takes at most (R685). -/
def State.eraseLeftUj (s : State) : Nat :=
  match s.main.boot.flashOp with
  | some (.preErase _) =>
    (s.fld 0x110004 31 20 * (2 * s.fld 0x110004 19 8 * msT - (s.now - s.main.boot.flashAt)) + msT - 1) / msT
  | _ => 0

/-- F of R384 in microjoules: what the flush that runs, or is pending, still needs (R681, R685). -/
def State.flushUj (s : State) : Nat :=
  match s.main.ash.flush with
  | some f => (f.steps.map s.stepUj).sum
  | none =>
    if s.flushPending then
      let erasing := match s.main.boot.flashOp with | some (.preErase _) => true | _ => false
      let blank := erasing || flashBlank s.flash (archAddr s.main.ash.next) 0x20000
      ((flushSteps blank).map s.stepUj).sum + s.eraseLeftUj
    else 0

/-- A page of the ring image: page 0 of the flush holds LAST_SEQ, the next ones go backwards
(R680). Slots that hold no record are zeros. -/
def ringPage (ring : List AshRec) (page : Nat) : List Byte :=
  (List.range 8).flatMap (fun i =>
    match ring.find? (fun r => r.seq % 2048 == page * 8 + i) with
    | some r => r.bytes
    | none => List.replicate 32 0#8)

/-- What a step of a flush programs: flash address and bytes (Table AL-4). -/
def Flush.data (f : Flush) (st : FlushStep) : Nat × List Byte :=
  let a := archAddr f.slot
  match st with
  | .erase _ => (a, [])
  | .header => (a, f.header)
  | .ring n =>
    let page := (f.lastSeq % 2048 / 8 + 256 - n) % 256
    (a + 0x1000 + 256 * page, ringPage f.ring page)
  | .held n => (a + 0x11000 + 256 * n, bytesAt f.heldCopy (256 * n) 256)
  | .tree => (a + 0x11200, f.treeCopy)
  | .trailer =>
    let t := be 4 0x4356444E ++ be 4 f.aseq ++ be 2 (f.pages + 1) ++ be 2 0
    (a + 0x11300, t ++ be 4 (crc32 t))

/-- Whether a flush is owed, for this start and for the next one (R679, R682). -/
def State.setOwed (s : State) (v : Bool) : State :=
  { s.modAsh (fun a => { a with owed := v, owedDue := false }) with hearth := { s.hearth with flushOwed := v } }

/-- A flush ends: record, notice, reply, and the flush owed unless it was COMPLETE (R682). -/
def State.endFlush (s : State) (f : Flush) (result : Nat) : State :=
  let s1 := (s.modAsh (fun a => { a with flush := none })).setOwed (result != 0)
  let s2 := if result = 0 then s1 else s1.count 0x110014 7 0
  let s3 := if result = 3 then s2.count 0x110014 15 8 else s2
  let s4 := s3.modAsh (fun a => { a with next := if result = 3 then (f.slot + 1) % 16 else s3.nextSlot })
  let c := [byte f.slot, byte result] ++ be 2 f.pages ++ be 4 f.aseq
  let s5 := ((s4.ash 0x11 0x02 c).notify 0x1101 false c).finish? f.tag 0 ([byte f.slot, byte result] ++ be 4 f.aseq)
  s5.flashPump.preErase

/-- The next step of the flush is admitted and starts, or the flush ends DECLINED (R681). -/
def State.admitStep (s : State) (f : Flush) : State :=
  match f.steps with
  | [] => s.endFlush f 0
  | st :: _ =>
    if s.admits (s.stepUj st) 0 then
      (s.modAsh (fun a => { a with flush := some f })).charge (s.stepUj st)
    else s.endFlush f 1

/-- A flush starts: the snapshot, then its first step (R679, R680). -/
def State.startFlush (s : State) (cause : Nat) (tag : Option Nat) : State :=
  let slot := s.main.ash.next
  let aseq := s.nextAseq
  let last := (s.hearth.seq + 2 ^ 32 - 1) % 2 ^ 32
  let first := (last + 2 ^ 32 - 2047) % 2 ^ 32
  let f : Flush := {
    slot := slot, aseq := aseq, cause := cause, tag := tag
    steps := flushSteps (flashBlank s.flash (archAddr slot) 0x20000)
    firstSeq := first, lastSeq := last
    header := s.flushHeader aseq cause first last
    ring := s.hearth.ring, heldCopy := heldBytes s.hearth.held, treeCopy := s.hearth.treeRec }
  (s.modAsh (fun a => { a with flushDue := none, awaitMains := false, trigger := none })).admitStep f

/-- A flush is triggered: it starts, or waits for a pre-erase in progress (R685). -/
def State.triggerFlush (s : State) (cause : Nat) (tag : Option Nat) : State :=
  match s.main.boot.flashOp with
  | some _ => s.modAsh (fun a => { a with trigger := some (cause, tag), flushDue := none, awaitMains := false })
  | none => s.startFlush cause tag

/-- When the flush on the reserve falls due (R679): 10 ms after `t`, no later than FLUSH_WAIT_MS
after PSU_OK fell. -/
def State.flushDueAt (s : State) (t fell : Nat) : Nat := min (t + 10 * msT) (fell + s.fld 0x110000 15 8 * msT)

/-- PSU_OK falls: the flush on the reserve falls due (R679). -/
def State.flushOnReserve (s : State) : State :=
  if s.main.ash.flush.isSome || s.main.ash.trigger.isSome then s
  else if s.main.ma.st = .locked then
    s.modAsh (fun a => { a with awaitMains := true, flushDue := some (s.now + s.fld 0x110000 15 8 * msT) })
  else s.modAsh (fun a => { a with flushDue := some (s.flushDueAt s.now s.now) })

/-- Mains is declared lost while the flush waits for it (R679). -/
def State.flushMainsLost (s : State) : State :=
  if s.main.ash.awaitMains then
    match s.hearth.psuFell with
    | some t => s.modAsh (fun a => { a with awaitMains := false, flushDue := some (s.flushDueAt s.now t) })
    | none => s
  else s

/-- What FLUSH_START does at its instant. -/
def State.flushStart (s : State) : State :=
  let a := s.main.ash
  if !s.main.out || a.flush.isSome || a.trigger.isSome then s
  else match a.flushDue with
    | some t => if t ≤ s.now ∧ s.hearth.onReserve then s.triggerFlush 0 none else s
    | none => if a.owedDue && s.main.boot.local9 then s.triggerFlush 2 none else s

/-- What FLUSH_STEP_DONE does: the bytes are in the flash, or the step is tried once more and then
the flush ends FLASH_ERROR (R680, Table AL-6). -/
def State.flushStepDone (s : State) (ok : Bool) : State :=
  match s.main.ash.flush with
  | none => s
  | some f =>
    match f.steps with
    | [] => s
    | st :: t =>
      if !ok then
        if f.tries = 0 then s.modAsh (fun a => { a with flush := some { f with tries := 1 } })
        else s.endFlush f 3
      else match st with
        | .erase n =>
          { s with flash := flashErase s.flash (archAddr f.slot + n * 0x10000) 0x10000 }.admitStep
            { f with steps := t, tries := 0 }
        | _ =>
          let d := f.data st
          { s with flash := flashWrite s.flash d.1 d.2 }.admitStep { f with steps := t, tries := 0, pages := f.pages + 1 }

/-- What SUPPRESS_WINDOW_END does: the rate window of a source ends, and a SUPPRESSED record gives the count of
what was not written in it (R671). -/
def State.suppressEnd (s : State) (source : Nat) : State :=
  match s.main.ash.wins.find? (fun w => w.source == source && decide (w.since + ashWindow ≤ s.now)) with
  | none => s
  | some w =>
    let s1 := s.modAsh (fun a => { a with wins := a.wins.filter (fun x => x.source != source) })
    if w.suppressed = 0 then s1 else s1.ash 0x11 0x01 ([byte source] ++ be 2 (sat 0xFFFF w.suppressed))

/-! ### AL opcodes (Table AL-8) -/

/-- AL_STATUS as the register reads (Table AL-11). -/
def State.alStatusWord (s : State) : Nat :=
  let newest := match s.newestArch with | some (i, _) => i | none => 0
  newest * 2 ^ 28 + s.main.ash.next * 2 ^ 24
    + b2n (flashBlank s.flash (archAddr s.main.ash.next) 0x20000) * 2 ^ 23
    + b2n s.main.ash.flush.isSome * 2 ^ 22 + b2n s.main.ash.owed * 2 ^ 21
    + ((List.range 16).map (fun i => if s.archState i = 1 then 2 ^ i else 0)).sum

/-- AL_STATUS: the oldest valid SEQ is a free value while the ring holds no record. -/
def opAlStatus (tag : Nat) (p : List Byte) (s : State) : State :=
  if p ≠ [] then s.finish tag 0x0004 [] else
  let (free, s1) := s.draw
  let oldest := match s.hearth.ring with | r :: _ => r.seq | [] => free % 2 ^ 32
  s1.finish tag 0 (be 4 s.alStatusWord ++ be 4 s.hearth.seq ++ be 4 (s.word 0x110014) ++ be 4 (s.flushUj / 1000)
    ++ be 4 oldest)

/-- AL_READ (R713): FIRST 4, COUNT 1. -/
def opAlRead (tag : Nat) (p : List Byte) (s : State) : State :=
  if p.length ≠ 5 then s.finish tag 0x0004 [] else
  let first := field p 0 4
  let count := field p 4 1
  if count < 1 ∨ 127 < count then s.finish tag 0x0005 [] else
  let recs := (s.hearth.ring.filter (fun r => decide (0 ≤ sdiff 32 r.seq first))).take count
  let (free, s1) := s.draw
  let seq := match recs with | r :: _ => r.seq | [] => free % 2 ^ 32
  s1.finish tag 0 (be 4 seq ++ recs.flatMap (·.bytes))

/-- AL_ARCHIVES: headers and states of the 16 slots. -/
def opAlArchives (tag : Nat) (p : List Byte) (s : State) : State :=
  if p ≠ [] then s.finish tag 0x0004 [] else
  s.finish tag 0 ((List.range 16).flatMap (fun i =>
    (s.archHeader i).getD (List.replicate 64 0#8) ++ [byte (s.archState i)]))

/-- AL_ARCH_READ: SLOT 1, OFFSET 4, LENGTH 2. -/
def opAlArchRead (tag : Nat) (p : List Byte) (s : State) : State :=
  if p.length ≠ 7 then s.finish tag 0x0004 [] else
  let slot := field p 0 1
  let off := field p 1 4
  let len := field p 5 2
  if 15 < slot ∨ len < 1 ∨ 4096 < len ∨ 0x20000 < off + len then s.finish tag 0x0005 []
  else if (s.archHeader slot).isNone then s.finish tag 0x1101 []
  else s.finish tag 0 (s.flashRead (archAddr slot + off) len)

/-- AL_FLUSH: replies when the flush ends (R679, R685). -/
def opAlFlush (tag : Nat) (p : List Byte) (s : State) : State :=
  if p ≠ [] then s.finish tag 0x0004 []
  else if s.main.ash.flush.isSome || s.main.ash.trigger.isSome then s.finish tag 0x1100 []
  else s.triggerFlush 1 (some tag)

/-- AL_WAVE: writes a WAVE record and gives its head's SEQ (R674, R688). -/
def opAlWave (tag : Nat) (p : List Byte) (s : State) : State :=
  if p ≠ [] then s.finish tag 0x0004 []
  else if s.main.ma.st ≠ .locked ∨ !s.bit 0x110000 31 then s.finish tag 0x000E []
  else
    let s1 := s.drainAsh
    let s2 := s1.wave 2
    if s2.main.ash.buf = [] then (s2.draw.2).finish tag 0 (be 4 (s2.draw.1 % 2 ^ 32))
    else s2.drainAsh.finish tag 0 (be 4 s1.hearth.seq)

/-- AL_MARK: DATA 11. -/
def opAlMark (tag : Nat) (p : List Byte) (s : State) : State :=
  if p.length ≠ 11 then s.finish tag 0x0004 []
  else
    let s1 := s.drainAsh
    (s1.ash 0x11 0x03 p).drainAsh.finish tag 0 (be 4 s1.hearth.seq)

end Sys2Proof.Machine
end

