-- ==== Sys2Proof/Machine/Memory.lean ====
section
/-! DEFINITION. Memory and self-repair (22): banks and the partition, the test at start, scrubbing, field
repair, the repair log and the MM opcodes. -/

namespace Sys2Proof.Machine

/-- The memory block changed by a function. -/
def State.modMem (s : State) (f : Memory → Memory) : State :=
  { s with main := { s.main with mm := f s.main.mm } }

/-- A bank changed by a function. -/
def State.modBank (s : State) (b : Nat) (f : Bank → Bank) : State :=
  s.modMem (fun m => { m with banks := m.banks.modify b f })

/-! ### The partition (R690 to R692) -/

/-- How many banks are healthy. -/
def Memory.healthy (m : Memory) : Nat := (m.banks.filter (fun b => !b.withdrawn)).length

/-- The capacity C in KiB. -/
def Memory.capKib (m : Memory) : Nat := 128 * m.healthy

/-- The picture pool P in KiB (R691). -/
def State.poolKib (s : State) : Nat :=
  let c := s.main.mm.capKib
  if c < 3648 then 0
  else
    let p := min (s.fld 0x0C0000 28 16) (c - 3648)
    if p < 1024 then 0 else p

/-- With 26 healthy banks or fewer no Strait replay buffer is allocated (R692). -/
def State.noStrait (s : State) : Bool := decide (s.main.mm.healthy ≤ 26)

/-- The general region in KiB (R691, R692). -/
def State.generalKib (s : State) : Nat :=
  s.main.mm.capKib - 3328 - (if s.noStrait then 0 else 64) - s.poolKib

/-- Enough banks for the regions that are always allocated (R692, Table SU-7 step 3). -/
def State.genFits (s : State) : Bool := decide (26 ≤ s.main.mm.healthy)

/-- The physical bank of a logical bank: the healthy banks in ascending order (R690). -/
def Memory.physical (m : Memory) (l : Nat) : Nat :=
  at? ((List.range 64).filter (fun i => !(at? m.banks i {}).withdrawn)) l 0

/-- The words of the healthy banks. -/
def Memory.words (m : Memory) : Nat := 16384 * m.healthy

/-! ### Spares (R699, R700) -/

/-- The spare rows, or spare columns, of a bank that are neither used, nor taken by a repair in
progress, nor unusable; the lowest first. -/
def Memory.spares (m : Memory) (b : Nat) (isRow : Bool) : List Nat :=
  let k := at? m.banks b {}
  let used := (k.repairs ++ m.repairs.filter (fun r => r.bank == b)).filter (fun r => r.isRow == isRow)
  (List.range (if isRow then 4 else 2)).filter (fun i =>
    !used.any (fun r => r.spare == i) && !bitOf k.bad (if isRow then i else 4 + i))

/-- Whether a row or lane of a bank is repaired, or its repair is in progress (R706). -/
def Memory.repaired (m : Memory) (b : Nat) (isRow : Bool) (i : Nat) : Bool :=
  ((at? m.banks b {}).repairs ++ m.repairs).any (fun r => r.bank == b && r.isRow == isRow && r.index == i)

/-! ### The repair log (R702 to R704, R708) -/

/-- Whether a copy of the repair log is valid (R702). -/
def logOk (b : List Byte) : Bool :=
  field b 0 4 == 0x4356524C && decide (field b 8 2 ≤ 510)
    && field b 12 4 == crc32 (b.take 12 ++ bytesAt b 16 (8 * field b 8 2))

/-- The entries of a copy, 8 bytes each. -/
def logEntries (b : List Byte) : List (List Byte) := (List.range (field b 8 2)).map (fun i => bytesAt b (16 + 8 * i) 8)

/-- A repair log of 4,096 bytes. -/
def mkLog (seq : Nat) (es : List (List Byte)) : List Byte :=
  let h := be 4 0x4356524C ++ be 4 seq ++ be 2 es.length ++ be 2 0
  padTo 4096 (h ++ be 4 (crc32 (h ++ es.flatten)) ++ es.flatten)

/-- An entry of the log (Table MM-2): kind 0 row, 1 column, 2 bank withdrawn. -/
def logEntry (bank kind origin spare index sec : Nat) : List Byte :=
  [byte (bank % 64), byte (kind * 64 + origin * 16 + spare * 4)] ++ be 2 index ++ be 4 sec

/-- The flash sector that holds the copy taken (R704). -/
def State.flashLog (s : State) : Option Nat :=
  let a := s.flashRead 0x290000 4096
  let b := s.flashRead 0x291000 4096
  match logOk a, logOk b with
  | true, true => if 0 < sdiff 32 (field b 4 4) (field a 4 4) then some 1 else some 0
  | true, false => some 0
  | false, true => some 1
  | false, false => none

/-- Entries added to the log, one change each, and its flash copy due (R702 to R704). Where no copy is
valid, the SEQ that the new log counts on from is a free value. -/
def State.logAdd (s : State) (es : List (List Byte)) : State :=
  if es = [] then s else
  let old := s.hearth.repairLog
  let (free, s1) := s.draw
  let seq := if logOk old then field old 4 4 else free
  let all := ((if logOk old then logEntries old else []) ++ es).take 510
  { s1 with
    hearth := { s1.hearth with repairLog := mkLog ((seq + es.length) % 2 ^ 32) all }
    main := { s1.main with mm := { s1.main.mm with logDue := true } } }

/-- Whether the log holds the withdrawal of a bank. -/
def State.logWithdrawn (s : State) (b : Nat) : Bool :=
  logOk s.hearth.repairLog && (logEntries s.hearth.repairLog).any (fun e =>
    field e 0 1 % 64 == b && bits (field e 1 1) 7 6 == 2)

/-- An entry of the log applied to the banks (R697). -/
def Memory.applyEntry (m : Memory) (e : List Byte) : Memory :=
  let b := field e 0 1 % 64
  let k := bits (field e 1 1) 7 6
  { m with banks := m.banks.modify b (fun x =>
    if k = 2 then { x with withdrawn := true }
    else { x with repairs := x.repairs ++ [⟨b, k == 0, field e 2 2, bits (field e 1 1) 3 2⟩] }) }

/-! ### The test at start (R697 to R699) -/

/-- The banks with the factory repairs of the fuses. -/
def factoryBanks : List Bank :=
  (List.range 64).map (fun b => { repairs :=
    (Config.factoryRepairs.filter (fun f => f.1 == b)).map (fun f => ⟨b, f.2.1, f.2.2.1, f.2.2.2⟩) })

/-- A spare that the test finds failing becomes unusable (R698). -/
def Memory.markSpare (m : Memory) (f : BankFault) : Memory :=
  let mark (b bit : Nat) : Memory := { m with banks := m.banks.modify b (fun x => { x with bad := Nat.lor x.bad (2 ^ bit) }) }
  match f with
  | .spareRow b n => if n < 4 then mark b n else m
  | .spareCol b n => if n < 2 then mark b (4 + n) else m
  | _ => m

/-- The failing cells of a bank, row and lane. -/
def cellsOf (faults : List BankFault) (b : Nat) : List (Nat × Nat) :=
  faults.filterMap (fun f => match f with | .cell k r l => if k = b then some (r, l) else none | _ => none)

/-- Spares taken in order for the failing rows or lanes of a list: the repairs, and what is left
uncovered. -/
def takeSpares (b : Nat) (isRow : Bool) : List Nat → List Nat → List Repair × List Nat
  | _, [] => ([], [])
  | [], is => ([], is)
  | sp :: sps, i :: is =>
    let (r, u) := takeSpares b isRow sps is
    (⟨b, isRow, i, sp⟩ :: r, u)

/-- The repairs of a bank that the test finds failing (R699), and whether it is withdrawn. -/
def Memory.repairBank (m : Memory) (faults : List BankFault) (b : Nat) : List Repair × Bool :=
  let cells := cellsOf faults b
  let lanes := (List.range 72).filter (fun l =>
    decide (3 ≤ ((List.range 512).filter (fun r => cells.contains (r, l))).length))
  let (cols, _) := takeSpares b false (m.spares b false) lanes
  let left := cells.filter (fun c => !cols.any (fun r => r.index == c.2))
  let rows := (List.range 512).filter (fun r => left.any (fun c => c.1 == r))
  let (rr, uncovered) := takeSpares b true (m.spares b true) rows
  (cols ++ rr, uncovered != [] || faults.contains (.retest b))

/-- A log entry of a repair. -/
def Repair.entry (r : Repair) (origin sec : Nat) : List Byte :=
  logEntry r.bank (if r.isRow then 0 else 1) origin r.spare r.index sec

/-- A bank that the test finds failing is repaired or withdrawn (R699): the state and the log
entries. -/
def State.testBank (faults : List BankFault) (acc : State × List (List Byte)) (b : Nat) : State × List (List Byte) :=
  let s := acc.1
  let k := at? s.main.mm.banks b {}
  if k.withdrawn ∨ (cellsOf faults b = [] ∧ !faults.contains (.retest b)) then acc
  else
    let (rs, out) := s.main.mm.repairBank faults b
    let s1 := s.modBank b (fun x => { x with withdrawn := out, repairs := x.repairs ++ rs })
    let sec := s.hearthSec % 2 ^ 32
    let es := rs.map (fun r => r.entry 0 sec) ++ (if out then [logEntry b 2 0 0 0 sec] else [])
    (es.foldl (fun x e => x.ashHearth 0x12 0x01 e) s1, acc.2 ++ es)

/-- Step 3: fuse repairs, the log taken, the test's failures repaired, the log written, and the
notice that summarises them (R697, R699, R704, R708). -/
def State.memStart (s : State) (_full : Bool) (faults : List BankFault) : State :=
  let hOk := logOk s.hearth.repairLog
  let copy := s.flashLog
  let taken : Option (List Byte) := if hOk then some s.hearth.repairLog
    else copy.map (fun c => s.flashRead (0x290000 + 0x1000 * c) 4096)
  let m0 : Memory := { banks := factoryBanks, logLost := taken.isNone, scrubAt := s.now }
  let m1 := match taken with | some l => (logEntries l).foldl Memory.applyEntry m0 | none => m0
  let m2 := faults.foldl Memory.markSpare m1
  let s1 := s.modMem (fun _ => m2)
  let s2 := match hOk, taken with
    | false, some l => { s1 with hearth := { s1.hearth with repairLog := l } }
    | _, _ => s1
  let stale := match hOk, copy with
    | true, some c => s.flashRead (0x290000 + 0x1000 * c) 16 != s.hearth.repairLog.take 16
    | true, none => true
    | false, _ => false
  let s3 := s2.modMem (fun m => { m with logDue := stale })
  let (s4, es) := (List.range 64).foldl (State.testBank faults) (s3, [])
  let s5 := s4.logAdd es
  let withdrawals := (es.filter (fun e => bits (field e 1 1) 7 6 == 2)).length
  if es = [] then s5
  else s5.notify 0x1201 false [byte (sat 255 (es.length - withdrawals)), byte withdrawals]

/-! ### Reads and field repair (R693 to R701, R706) -/

/-- A field repair triggered for a row or a lane: it takes its spare and waits its turn, or the bank
is exhausted (R700, R706). -/
def State.repairTrigger (s : State) (b : Nat) (isRow : Bool) (i : Nat) : State :=
  let m := s.main.mm
  if m.repaired b isRow i then s
  else
    let add (r : Repair) : State := s.modMem (fun m => { m with repairs := m.repairs ++ [r] })
    let out : State :=
      if (at? m.banks b {}).exhausted then s
      else ((s.modBank b (fun x => { x with exhausted := true })).ash 0x12 0x03 [byte b]).notify 0x1203 false [byte b]
    match m.spares b isRow with
    | sp :: _ => add ⟨b, isRow, i, sp⟩
    | [] =>
      if isRow then
        let lanes := ((at? m.banks b {}).errs.filter (fun e => e.row == i)).map (·.lane)
        match lanes, m.spares b false with
        | l :: t, sp :: _ => if t.all (· == l) ∧ !m.repaired b false l then add ⟨b, false, l, sp⟩ else out
        | _, _ => out
      else out

/-- A poisoned read (R694): counted, recorded, MM_UNCORR, and a wake; it triggers the repair of its row (R700). -/
def State.poisonedRead (s : State) (addr phys blk : Nat) : State :=
  let c := be 4 addr ++ [byte phys, byte blk]
  let s1 := (((s.count 0x12000C 15 0).ash 0x12 0x02 c).wake 0x0E).notify 0x1202 false c
  if s.bit 0x120008 31 then s1.repairTrigger phys true (addr % 131072 / 8 / 32) else s1

/-- The corrected errors of a bank within FIELD_H hours. -/
def State.recentErrs (s : State) (b : Nat) : List MemErr :=
  (at? s.main.mm.banks b {}).errs.filter (fun e => decide (s.hearthSec < e.sec + 3600 * s.fld 0x120008 7 0))

/-- A corrected error reported (R693, R700): counted, recorded, and the triggers it meets; the row's
trigger comes before the lane's. -/
def State.correctedRead (s : State) (b row lane : Nat) (hard : Bool) : State :=
  let s1 := (s.countN 0x12000C 31 16 1).modBank b (fun x => { x with
    corrected := sat 0xFFFF (x.corrected + 1)
    errs := (⟨s.hearthSec, row, lane⟩ :: x.errs).take 64 })
  if !s.bit 0x120008 31 then s1
  else
    let es := s1.recentErrs b
    let rowTrig := hard || decide (s.fld 0x120008 15 12 ≤ (es.filter (fun e => e.row == row)).length)
    let rows := (List.range 512).filter (fun r => es.any (fun e => e.row == r && e.lane == lane))
    let colTrig := decide (s.fld 0x120008 11 8 ≤ rows.length)
    let s2 := if rowTrig then s1.repairTrigger b true row else s1
    if colTrig then s2.repairTrigger b false lane else s2

/-- What SCRUB_READ does (R696): the next word, in Blaze and Bank, evenly spaced over SCRUB_S. -/
def State.scrubRead (s : State) (r : WordRead) : State :=
  let m := s.main.mm
  let sec := s.fld 0x120008 23 16
  let on := s.main.out && !s.main.boot.stopped && (s.hearth.ps == .blaze || s.hearth.ps == .bank)
  if !on ∨ sec = 0 ∨ m.words = 0 ∨ s.now < m.scrubAt + sec * secT / m.words then s
  else
    let w := m.scrubWord % m.words
    let b := m.physical (w / 16384)
    let row := w % 16384 / 32
    let s1 := s.modMem (fun m => { m with scrubWord := (w + 1) % m.words, scrubAt := s.now })
    match r with
    | .ok => s1.modMem (fun m => { m with poison := m.poison.filter (· != w) })
    | .single lane hard => s1.correctedRead b row (lane % 72) hard
    | .double =>
      (s1.modMem (fun m => { m with poison := w :: m.poison.filter (· != w) })).poisonedRead (8 * w) b 0x12

/-- What FIELD_REPAIR does (R701): the oldest repair completes and is switched in, logged and
reported. -/
def State.fieldRepair (s : State) : State :=
  match s.main.mm.repairs with
  | [] => s
  | r :: t =>
    let e := r.entry 1 (s.hearthSec % 2 ^ 32)
    let s1 := (s.modMem (fun m => { m with repairs := t })).modBank r.bank (fun x => { x with
      repairs := x.repairs ++ [r]
      errs := x.errs.filter (fun e => if r.isRow then e.row != r.index else e.lane != r.index) })
    ((s1.logAdd [e]).ash 0x12 0x01 e).notify 0x1201 false e

/-- What REPAIR_LOG_FLASH does (R704): the sector not taken is erased and written. -/
def State.repairLogFlash (s : State) : State :=
  if s.main.out && s.main.mm.logDue then
    let l := s.hearth.repairLog
    let n := match s.flashLog with | some c => 1 - c | none => 0
    (s.modMem (fun m => { m with logDue := false })).flashAsk
      (.repairLog n (l.take (16 + 8 * field l 8 2)))
  else s

/-- The write of a repair log sector ends; one that fails its read-back is made again. -/
def State.repairLogWritten (s : State) (n : Nat) (bytes : List Byte) (ok : Bool) : State :=
  let a := 0x290000 + 0x1000 * n
  if ok then { s with flash := flashWrite (flashErase s.flash a 0x1000) a bytes }
  else ({ s with flash := flashErase s.flash a 0x1000 }).modMem (fun m => { m with logDue := true })

/-! ### Registers and opcodes (R709, R710) -/

/-- MM_STATUS as it reads. -/
def State.mmStatusWord (s : State) : Nat :=
  b2n s.main.mm.logLost * 2 ^ 31 + b2n s.noStrait * 2 ^ 30 + b2n (s.main.mm.repairs != []) * 2 ^ 29
    + b2n (decide (s.generalKib < 256)) * 2 ^ 28 + s.main.mm.healthy

/-- MM_MAP as it reads. -/
def State.mmMapWord (s : State) : Nat := s.main.mm.capKib * 65536 + s.poolKib

/-- MM_BANKn as it reads. -/
def State.mmBankWord (s : State) (n : Nat) : Nat :=
  let b := at? s.main.mm.banks n {}
  b2n b.withdrawn * 2 ^ 30 + b2n b.exhausted * 2 ^ 29 + (b.repairs.filter (·.isRow)).length % 16 * 2 ^ 24
    + (b.repairs.filter (fun r => !r.isRow)).length % 4 * 2 ^ 22 + b.bad * 2 ^ 16 + b.corrected

/-- MM_STATUS: reading MM_CNT and MM_HRT_CNT here clears nothing (R105 applies to REG_READ). -/
def opMmStatus (op : Nat) (p : List Byte) (s : State) : State :=
  if p ≠ [] then s.finish op 0x0004 []
  else s.finish op 0 (be 4 s.mmStatusWord ++ be 4 s.mmMapWord ++ be 4 (s.word 0x12000C) ++ be 4 (s.word 0x120010)
    ++ (List.range 64).flatMap (fun n => be 4 (s.mmBankWord n)))

/-- MM_LOG: the Hearth log, 4,096 bytes. -/
def opMmLog (op : Nat) (p : List Byte) (s : State) : State :=
  if p ≠ [] then s.finish op 0x0004 [] else s.finish op 0 s.hearth.repairLog

/-- MM_WITHDRAW: BANK 1. -/
def opMmWithdraw (op : Nat) (p : List Byte) (s : State) : State :=
  if p.length ≠ 1 then s.finish op 0x0004 []
  else if 63 < field p 0 1 then s.finish op 0x0005 []
  else
    let b := field p 0 1
    let gone (i : Nat) : Bool := (at? s.main.mm.banks i {}).withdrawn || s.logWithdrawn i || i == b
    if ((List.range 64).filter (fun i => !gone i)).length < 27 then s.finish op 0x1200 []
    else (s.logAdd [logEntry b 2 2 0 0 (s.hearthSec % 2 ^ 32)]).finish op 0 []

end Sys2Proof.Machine
end

