-- ==== Sys2Proof/Machine/NetTime.lean ====
section
/-! DEFINITION. Network time (06): steps and slews, the time messages and the servo, the compare units,
PPS_OUT and the time-of-day line, and the NT opcodes. -/

namespace Sys2Proof.Machine

/-- Network time changed by a function. -/
def State.modNt (s : State) (f : NetTime → NetTime) : State :=
  { s with main := { s.main with nt := f s.main.nt } }

/-- Network time in nanoseconds since its epoch. -/
def NetTime.totalNs (n : NetTime) : Nat := n.sec * 1000000000 + n.ns

/-- The ring value r of R215. -/
def NetTime.ring (n : NetTime) : Nat := n.totalNs % 2 ^ 32

/-- Network time is valid (R209). -/
def State.ntValid (s : State) : Bool := s.main.nt.servo == .locked || s.main.nt.servo == .holdover

/-- The state codes of Table NT-2. -/
def Servo.code : Servo → Nat
  | .free => 0 | .acquiring => 1 | .locked => 2 | .holdover => 3 | .unlocked => 4

/-- NT_ADJ_LEFT: the part of a slew not yet applied, in nanoseconds (R202). -/
def NetTime.adjLeft (n : NetTime) : Int :=
  if n.slewNeg then -((n.slewTicks / 512 : Nat) : Int) else ((n.slewTicks / 512 : Nat) : Int)

/-- A signed number limited to 32 bits (R201, NT_LAST_ERR). -/
def sat32 (v : Int) : Int := max (-2147483647) (min 2147483647 v)

/-- NT_STATE queued (R210, R226). -/
def State.ntStateNotice (s : State) (old new : Servo) : State :=
  s.notify 0x0201 false [byte old.code, byte new.code, byte (b2n s.main.nt.range)]

/-- The mean of the values of NT_INCR that Stoker wrote in the last 64 s of LOCKED, to the nearest
step; none where it wrote none (R211). -/
def State.meanIncr (s : State) : Option Nat :=
  let vs := (s.main.nt.incrLog.filter (fun p => decide (s.now ≤ p.1 + 64 * secT))).map (·.2)
  if vs = [] then none else some ((2 * vs.sum + vs.length) / (2 * vs.length))

/-- The servo enters a state; each change queues NT_STATE (R209 to R211). -/
def State.setServo (s : State) (new : Servo) : State :=
  let old := s.main.nt.servo
  if old = new then s else
  let s1 := s.modNt (fun n => { n with
    servo := new
    incrLog := if new = .locked then [] else n.incrLog
    holdSince := if new = .holdover then s.now else n.holdSince })
  let s2 := match old, new with
    | .locked, .holdover => (match s.meanIncr with | some v => s1.setFld 0x020014 31 0 v | none => s1)
    | _, _ => s1
  s2.ntStateNotice old new

/-- A slew by a number of nanoseconds replaces the one in progress (R202). -/
def State.slew (s : State) (e : Int) : State :=
  s.modNt (fun n => { n with slewNeg := decide (e < 0), slewTicks := e.natAbs * 512 })

/-- Whether the target of a compare unit lies in the past (R216). -/
def Cmp.past (c : Cmp) (n : NetTime) : Bool :=
  if c.epoch then decide (c.sec * 1000000000 + c.ns < n.totalNs) || (decide (c.sec * 1000000000 + c.ns = n.totalNs) && decide (0 < n.frac))
  else decide (sdiff 32 c.ns n.ring < 0)

/-- Whether a compare unit fires at this tick (R215, R216). -/
def Cmp.due (c : Cmp) (n : NetTime) : Bool :=
  c.armed && (c.late ||
    (if c.epoch then decide (c.sec * 1000000000 + c.ns ≤ n.totalNs) else decide (0 ≤ sdiff 32 n.ring c.ns)))

/-- After a forward step the units whose target now lies in the past fire with LATE and STEPPED
(R221). -/
def Cmp.stepped' (c : Cmp) (n : NetTime) : Cmp :=
  if c.armed && c.past n then { c with late := true, stepped := true } else c

/-- A step of network time to a value in nanoseconds, with its fraction (R201, R202, R208, R219,
R221). -/
def State.ntStep (s : State) (ns frac : Nat) : State :=
  let n := s.main.nt
  let delta : Int := sat32 (((ns : Int) * 2 ^ 24 + frac - (n.totalNs * 2 ^ 24 + n.frac : Nat)).tdiv (2 ^ 24))
  let fwd := decide (n.totalNs * 2 ^ 24 + n.frac < ns * 2 ^ 24 + frac)
  let n1 : NetTime := { n with
    sec := ns / 1000000000 % 2 ^ 48, ns := ns % 1000000000, frac := frac
    slewTicks := 0, slewNeg := false, lastRef := none, pendErr := none, good := 0, boundary := none }
  let n2 := if fwd then { n1 with cmps := n1.cmps.map (fun c => c.stepped' n1) } else n1
  let free := n.servo == .free
  let s1 := { s with main := { s.main with nt := { n2 with servo := if free then .acquiring else n2.servo } } }
  let body := be 4 (ofSigned 32 delta)
  let s2 := (s1.ash 0x02 0x01 body).notify 0x0202 false body
  if free then s2.ntStateNotice .free .acquiring else s2.setServo .acquiring

/-- Stoker writes NT_INCR (R198, R211, R226): outside its range the nearest limit, with RANGE. -/
def State.writeIncr (s : State) (v : Int) : State :=
  let lo : Int := 0x03100000
  let hi : Int := 0x03300000
  let out := decide (v < lo) || decide (hi < v)
  let w := (max lo (min hi v)).toNat
  let servo := s.main.nt.servo
  let s1 := (s.setFld 0x020014 31 0 w).modNt (fun n => { n with
    range := out
    incrLog := if servo = .locked then
      (s.now, w) :: n.incrLog.filter (fun p => decide (s.now ≤ p.1 + 64 * secT)) else n.incrLog })
  if out || s.main.nt.range then s1.ntStateNotice servo servo else s1

/-- A ratio rounded to the nearest integer. -/
def roundDiv (a b : Int) : Int := (2 * a + b) / (2 * b)

/-- NT_INCR updated from a change in error over an interval in nanoseconds (R208). -/
def State.rateUpdate (s : State) (change interval : Int) : State :=
  if interval ≤ 0 then s else
  let incr : Int := s.word 0x020014
  let lim := incr / 1000000
  s.writeIncr (incr + max (-lim) (min lim (roundDiv (incr * change) interval)))

/-- The error of one accepted message or time exchange applied (R208 to R210): `left` is the part of the
previous slew still to be applied at its reference, `ref` the reference and `interval` the time
since the previous one. -/
def State.ntApply (s : State) (e left ref : Int) (interval : Option Int) : State :=
  let lock : Int := 10 * s.fld 0x020020 23 16
  let a : Int := e.natAbs
  let small := decide (a < lock)
  let s1 := s.modNt (fun n => { n with lastErr := e, good := if small then n.good + 1 else 0 })
  let s2 := match s1.main.nt.servo with
    | .free => s1.setServo .acquiring
    | .holdover | .unlocked => s1.setServo (if small && !s1.main.nt.range then .locked else .acquiring)
    | .locked => if 4 * lock ≤ a then s1.setServo .acquiring else s1
    | .acquiring => s1
  let thr : Int := 1000 * s.fld 0x020020 31 24
  let step := decide (thr ≤ a) && (match s.main.nt.pendErr with | some p => decide ((e - p).natAbs ≤ 1000) | none => false)
  if step then s2.ntStep ((s2.main.nt.totalNs : Int) + e).toNat s2.main.nt.frac
  else
    let s3 := if thr ≤ a then s2.modNt (fun n => { n with pendErr := some e })
      else (s2.modNt (fun n => { n with pendErr := none })).slew e
    let s4 := match interval with | some i => s3.rateUpdate (e - left) i | none => s3
    let s5 := s4.modNt (fun n => { n with lastRef := some ref })
    if s5.main.nt.servo = .acquiring ∧ !s5.main.nt.range ∧ s5.fld 0x020020 15 12 ≤ s5.main.nt.good then s5.setServo .locked
    else s5

/-! ### Time messages (R203 to R208, R222, R223) -/

/-- `n` messages counted BAD in NT_MSG_CNT. -/
def State.ntBad (s : State) (n : Nat) : State := s.countN 0x020024 15 8 n
/-- `n` messages counted LATE in NT_MSG_CNT. -/
def State.ntLate (s : State) (n : Nat) : State := s.countN 0x020024 7 0 n

/-- The checks of R204 but that of lateness, for the 24-byte body of a time message. -/
def timeBodyOk (b : List Byte) : Bool :=
  bits (field b 0 4) 31 30 == 0 && bits (field b 10 4) 31 30 == 0 && decide (field b 10 4 < 1000000000)
    && field b 22 1 % 32 == 0 && field b 23 1 == 0 && !(bitOf (field b 22 1) 6 && bitOf (field b 22 1) 5)

/-- A time message carried by the frame with counter `carry` (R204): accepted or refused. On a member
that is not lead, and while alignment is lost, it is ignored (R225, 06 Members of a stack). UTC_OFFSET, the flags and
the interval of MISS_S follow the acceptance, also where the message is dropped later for a negative rtd (DESIGN
CHOICE, log entry 62). -/
def State.timeMessage (s : State) (carry : Nat) (b : List Byte) : State :=
  let sfc := field b 0 4 % 2 ^ 30
  let d := sdiff 30 sfc carry
  if !s.leads || s.main.td.lost then s
  else if !timeBodyOk b ∨ 8191 < d then s.ntBad 1
  else if d ≤ 0 then s.ntLate 1
  else
    let f := field b 22 1
    (s.modNt (fun n => { n with
      msgs := n.msgs ++ [⟨sfc, field b 4 6, field b 10 4, field b 14 4, field b 18 2, field b 20 2, f⟩]
      utc := field b 20 2, traceable := bitOf f 7, leap61 := bitOf f 6, leap59 := bitOf f 5
      lastAccepted := s.now })).setServo (if s.main.nt.servo = .free then .acquiring else s.main.nt.servo)

/-- Network time latched at a frame's timestamp point (R205), `late` ticks ago where the frame failed to come; the last
8,192 frames are kept. -/
def State.latchFrame (s : State) (sfc late : Nat) : State :=
  s.modNt (fun n =>
    let t := n.sec * 1000000000 + n.ns - late * 25 / 8
    { n with latches := (⟨sfc, t / 1000000000, t % 1000000000, n.adjLeft, s.main.tm.eqd⟩ :: n.latches).take 8192 })

/-- Latches and messages discarded at a jump of the counter (R303). -/
def State.ntJump (s : State) : State :=
  (s.ntBad s.main.nt.msgs.length).modNt (fun n => { n with latches := [], msgs := [] })

/-- The latch of a message's reference frame. -/
def NetTime.latchOf (n : NetTime) (m : TimeMsg) : Option Latch := n.latches.find? (fun l => l.sfc == m.sfc)

/-- The error of a message at its reference frame, in nanoseconds; none where rtd is negative (R207). -/
def State.timeError (s : State) (m : TimeMsg) (l : Latch) : Option Int :=
  let rtd : Int := (m.teqd : Int) - 35000 - ((l.eqd * 15625 / 10000 : Nat) : Int)
  if rtd < 0 then none
  else some ((m.sec * 1000000000 + m.ns : Nat) + rtd * m.asym / 65536 + s.fld 0x02001C 15 0
    - ((l.sec * 1000000000 + l.ns : Nat) : Int))

/-- What TIME_CORRECTION does: the first accepted message whose reference frame has been latched is
applied (R207, R208). -/
def State.timeCorrection (s : State) : State :=
  match s.main.nt.msgs.find? (fun m => (s.main.nt.latchOf m).isSome) with
  | none => s
  | some m =>
    let s1 := s.modNt (fun n => { n with msgs := n.msgs.erase m })
    match s.main.nt.latchOf m with
    | none => s
    | some l =>
      match s.timeError m l with
      | none => s1.ntBad 1
      | some e => (s1.count 0x020024 31 16).ntApply e l.left m.sfc
          (s.main.nt.lastRef.map (fun r => sdiff 30 m.sfc r.toNat * 125000))

/-- What SERVO_MISS_TIMEOUT does (R209). -/
def State.servoMiss (s : State) : State :=
  if s.main.nt.servo = .locked ∧ s.main.nt.lastAccepted + s.fld 0x020020 11 8 * secT ≤ s.now then s.setServo .holdover
  else s

/-- What HOLDOVER_TIMEOUT does (R209). -/
def State.holdoverTimeout (s : State) : State :=
  if s.main.nt.servo = .holdover ∧ s.main.nt.holdSince + s.fld 0x020020 7 0 * 60 * secT ≤ s.now then s.setServo .unlocked
  else s

/-- Downstream alignment is lost (R225). -/
def State.ntAlignLost (s : State) : State := if s.main.nt.servo = .locked then s.setServo .holdover else s

/-- What SLEW_END does: the increment is NT_INCR again (R202). -/
def State.slewEnd (s : State) : State :=
  s.modNt (fun n => if n.slewTicks = 0 then { n with slewNeg := false } else n)

/-! ### Compare units (R213, R215 to R218) -/

/-- A compare unit of the state. -/
def State.cmpUnit (s : State) (u : Nat) : Cmp := at? s.main.nt.cmps u {}

/-- A compare unit changed by a function. -/
def State.modCmp (s : State) (u : Nat) (f : Cmp → Cmp) : State :=
  s.modNt (fun n => { n with cmps := n.cmps.modify u f })

/-- The target of a periodic unit moved on by its period, and tested (R216, R217). -/
def Cmp.next (c : Cmp) (n : NetTime) : Cmp :=
  let t := c.ns + c.period
  let c1 : Cmp := if c.epoch then { c with sec := (c.sec + t / 1000000000) % 2 ^ 48, ns := t % 1000000000, stepped := false }
    else { c with ns := t % 2 ^ 32, stepped := false }
  { c1 with late := c1.past n }

/-- What CMP_FIRE does for a unit whose target is reached; `act` takes the action of Table NT-4
(R213, R217, R218). -/
def State.cmpFire (s : State) (u : Nat) (act : Nat → Nat → State → State) : State :=
  let c := s.cmpUnit u
  if !c.due s.main.nt then s else
  let missed := s.main.sk.suspended
  let flags := b2n c.late + b2n missed * 2 + b2n c.stepped * 4
  let last := b2n c.late * 4 + b2n missed * 2 + b2n c.stepped
  let a := 0x020100 + 16 * u
  let s1 := ((s.modCmp u (fun c => if c.period = 0 then { c with armed := false } else c.next s.main.nt)).latchFld a 28 26 last).count a 11 0
  let s2 := if missed then s1 else act c.action c.param s1
  if c.notify || c.late || missed then s2.notify 0x0203 false ([byte u, byte flags] ++ be 4 c.ns) else s2

/-! ### PPS_OUT and the time-of-day line (R219, R220) -/

/-- A second boundary enters the seconds marked. -/
def markSecond (l : List (Nat × Nat)) (b : Nat) : List (Nat × Nat) :=
  match l with
  | (lo, hi) :: t => if b = hi + 1 then (lo, b) :: t else (b, b) :: (lo, hi) :: t
  | [] => [(b, b)]

/-- PPS_OUT and the time-of-day line have started: step 5 has ended (R228). -/
def State.ppsOn (s : State) : Bool := (at? s.main.boot.ends 4 none).isSome

/-- PPS_OUT rises at a second boundary, unless it is gated or the second is already marked (R219). -/
def State.ppsRise (s : State) : State :=
  match s.main.nt.boundary with
  | none => s
  | some b =>
    let s1 := s.modNt (fun n => { n with boundary := none })
    if !s.ppsOn || (s.bit 0x02002C 31 && !s.ntValid) || s.main.nt.marked.any (fun r => decide (r.1 ≤ b ∧ b ≤ r.2)) then s1
    else s1.modNt (fun n => { n with
      pps := true, ppsEnd := s.now + s.fld 0x02002C 9 0 * msT, marked := markSecond n.marked b
      tod := some (b, n.mark, s.now + msT,
        be 6 b ++ be 4 (b2n s.main.sk.timeLoose * 2 ^ 31 + b2n (s.main.nt.servo == .free) * 2 ^ 30) ++ be 2 s.angle ++ [0#8, byte s.angleFlags] ++ be 2 0) })

/-- What PPS_END does. -/
def State.ppsFall (s : State) : State :=
  if s.main.nt.pps ∧ s.main.nt.ppsEnd ≤ s.now then s.modNt (fun n => { n with pps := false }) else s

/-- The decimal digits of a number; `k` bounds their count. -/
def decimal : Nat → Nat → List Byte
  | 0, _ => []
  | k + 1, n => if n < 10 then [byte (48 + n)] else decimal k (n / 10) ++ [byte (48 + n % 10)]

/-- Two upper-case hexadecimal digits. -/
def hex2 (n : Nat) : List Byte :=
  [n / 16 % 16, n % 16].map (fun d => byte (if d < 10 then 48 + d else 55 + d))

/-- A signed decimal with its sign. -/
def signedDec (v : Int) : List Byte := (if v < 0 then byte 45 else byte 43) :: decimal 8 v.natAbs

/-- The flags of the time-of-day line (R220). -/
def State.todFlags (s : State) (mark : Bool) : Nat :=
  let n := s.main.nt
  b2n n.traceable * 128 + b2n n.leap61 * 64 + b2n n.leap59 * 32 + b2n mark * 2 + b2n s.ntValid

/-- The time-of-day line of R220. -/
def State.todText (s : State) (sec : Nat) (mark : Bool) : List Byte :=
  let body := [67, 86, 84, 79, 68, 44].map byte ++ decimal 16 sec ++ [byte 44] ++ signedDec (toSigned 16 s.main.nt.utc)
    ++ [byte 44] ++ decimal 2 s.main.nt.servo.code ++ [byte 44] ++ hex2 (s.todFlags mark)
  [byte 36] ++ body ++ [byte 42] ++ hex2 (body.foldl (fun a b => Nat.xor a b.toNat) 0) ++ [byte 13, byte 10]

/-- What TIME_OF_DAY does: the line, or the notice while the service UART is master (R81, R220). -/
def State.timeOfDay (s : State) : State :=
  match s.main.nt.tod with
  | none => s
  | some (sec, mark, due, pre) =>
    if s.now < due then s else
    let s1 := s.modNt (fun n => { n with tod := none })
    if s.main.cmd.bound = .uart then
      s1.raise { code := 0x0003, member := s.self, alarm := false,
                 bytes := pre ++ be 2 s.main.nt.utc ++ [byte s.main.nt.servo.code, byte (s.todFlags mark)] }
    else s1.modCmd (fun c => { c with todLine := s.todText sec mark })

/-! ### Registers and opcodes (R229, R230) -/

/-- NT_STATUS as the register reads. -/
def State.ntStatusWord (s : State) : Nat :=
  let n := s.main.nt
  b2n n.range * 2 ^ 31 + b2n n.traceable * 2 ^ 30 + b2n n.leap61 * 2 ^ 29 + b2n n.leap59 * 2 ^ 28 + b2n n.mark * 2 ^ 27
    + n.servo.code * 65536 + n.utc

/-- NT_CMPn_CTL as it reads. -/
def State.cmpCtlWord (s : State) (u : Nat) : Nat :=
  let c := s.cmpUnit u
  let w := s.word (0x020100 + 16 * u)
  b2n c.armed * 2 ^ 31 + b2n c.epoch * 2 ^ 30 + b2n c.notify * 2 ^ 29 + bits w 28 26 * 2 ^ 26 + c.action * 2 ^ 22
    + c.param * 4096 + bits w 11 0

/-- NT_STATUS. -/
def opNtStatus (op : Nat) (p : List Byte) (s : State) : State :=
  if p ≠ [] then s.finish op 0x0004 [] else
  let n := s.main.nt
  s.finish op 0 ([byte n.servo.code, byte (b2n n.range + b2n n.traceable * 2)] ++ be 2 n.utc ++ be 6 n.sec ++ be 4 n.ns
    ++ be 4 (ofSigned 32 (sat32 n.lastErr)) ++ be 4 (s.word 0x020014))

/-- NT_SET and NT_ADJUST are refused on a member that is not lead, and on a lead that is LOCKED,
unless FORCE is 1 (R229). -/
def State.ntRefused (s : State) (force : Nat) : Bool :=
  force != 1 && (!s.leads || s.main.nt.servo == .locked)

/-- NT_SET: SECONDS, NANOSECONDS, UTC_OFFSET, FORCE (R222, R229). -/
def opNtSet (op : Nat) (p : List Byte) (s : State) : State :=
  if p.length ≠ 13 then s.finish op 0x0004 []
  else if 1000000000 ≤ field p 6 4 ∨ 1 < field p 12 1 then s.finish op 0x0005 []
  else if s.ntRefused (field p 12 1) then s.finish op 0x000E []
  else
    let old := s.main.nt.msgs.filter (fun m => (s.main.nt.latchOf m).isSome)
    let s1 := (s.ntLate old.length).modNt (fun n => { n with
      msgs := n.msgs.filter (fun m => (n.latchOf m).isNone), utc := field p 10 2 })
    (s1.ntStep (field p 0 6 * 1000000000 + field p 6 4) 0).finish op 0 []

/-- NT_ADJUST: OFFSET, FORCE (R229). -/
def opNtAdjust (op : Nat) (p : List Byte) (s : State) : State :=
  let off := toSigned 32 (field p 0 4)
  if p.length ≠ 5 then s.finish op 0x0004 []
  else if 1000000000 < off.natAbs ∨ 1 < field p 4 1 then s.finish op 0x0005 []
  else if s.ntRefused (field p 4 1) then s.finish op 0x000E []
  else (s.slew off).finish op 0 []

/-- The highest PARAM of a compare action (Table NT-4, R756); none where any value is permitted. -/
def cmpParamMax (a : Nat) : Option Nat := if a = 1 then some 3 else if a = 2 then some 63 else if a = 3 then some 511 else none

/-- CMP_ARM: UNIT, MODE, ACTION, NOTIFY, PARAM, TARGET_SEC, TARGET_NS, PERIOD (R216, R229, R756). -/
def opCmpArm (op : Nat) (p : List Byte) (s : State) : State :=
  let u := field p 0 1
  let mode := field p 1 1
  let a := field p 2 1
  let par := field p 4 2
  if p.length ≠ 20 then s.finish op 0x0004 []
  else if (match cmpParamMax a with | some m => decide (m < par) | none => false) || decide (15 < u) || decide (1 < mode)
      || decide (4 < a) || decide (1 < field p 3 1) || decide (mode = 0 ∧ field p 6 6 ≠ 0)
      || decide (mode = 1 ∧ 1000000000 ≤ field p 12 4) then s.finish op 0x0005 []
  else
    let c : Cmp := { armed := true, epoch := mode == 1, notify := field p 3 1 == 1, action := a, param := par % 1024,
                     sec := field p 6 6, ns := field p 12 4, period := field p 16 4 }
    (s.modCmp u (fun _ => { c with late := c.past s.main.nt })).finish op 0 []

/-- CMP_DISARM: UNIT (R229). -/
def opCmpDisarm (op : Nat) (p : List Byte) (s : State) : State :=
  if p.length ≠ 1 then s.finish op 0x0004 []
  else if 15 < field p 0 1 then s.finish op 0x0005 []
  else if !(s.cmpUnit (field p 0 1)).armed then s.finish op 0x0200 []
  else (s.modCmp (field p 0 1) (fun c => { c with armed := false, late := false })).finish op 0 []

end Sys2Proof.Machine
end

