-- ==== Sys2Proof/Machine/Mains.lean ====
section
/-! DEFINITION. Mains angle and the schedule table (07): crossings, the tracking loop, presence, the
angle states, the entries and the relays, and the MA opcodes. -/

namespace Sys2Proof.Machine

/-- Mains angle changed by a function. -/
def State.modMa (s : State) (f : Mains → Mains) : State := { s with main := { s.main with ma := f s.main.ma } }

/-- A phase of the state. -/
def State.phase (s : State) (p : Nat) : Phase := at? s.main.ma.phases p {}

/-- A phase changed by a function. -/
def State.modPhase (s : State) (p : Nat) (f : Phase → Phase) : State :=
  s.modMa (fun m => { m with phases := m.phases.modify p f })

/-- Whether a phase is enabled (MA_CFG.PHASE_EN). -/
def State.phaseOn (s : State) (p : Nat) : Bool := decide (p < 3) && s.bit 0x030004 (4 + p)

/-- OFFSET_p: 0 for the reference phase (R235). -/
def State.offsetOf (s : State) (p : Nat) : Nat := if p = s.refPhase then 0 else (s.phase p).offset

/-- The nominal frequency word (R234). -/
def State.nominalFreq (s : State) : Nat := if s.bit 0x030004 7 then 65970698 else 54975581

/-- A frequency word kept within the lock range (R234). -/
def clampFreq (v : Int) : Nat := (max 49478023 (min 71468256 v)).toNat

/-- The codes of Table MA-1. -/
def AngleSt.code : AngleSt → Nat
  | .absent => 0 | .acquire => 1 | .locked => 2 | .phantom => 3 | .timed => 4

/-- The accumulator moved by a number of units; the position moves with it (R237, R242). -/
def Mains.moveBy (m : Mains) (units : Int) : Mains :=
  let v := (m.acc : Int) + units * 2 ^ 24
  { (if v < 2 ^ 40 then m else m.recalc) with
    acc := (v % 2 ^ 40).toNat
    cycle := if m.angleValid then (((m.cycle : Int) + v / 2 ^ 40) % 2 ^ 32).toNat else m.cycle }

/-! ### Entries: contact and issue positions (R247 to R250, R253) -/

/-- The registers of a schedule entry. -/
def entReg (n : Nat) : Nat := 0x031000 + 16 * n

/-- CFG0 and CFG1 in force for an entry (R255). -/
def State.entCfg (s : State) (n : Nat) : Nat × Nat :=
  ((at? s.main.ma.entries n {}).cfg).getD (s.word (entReg n), s.word (entReg n + 4))

/-- An entry's state. -/
def State.ent (s : State) (n : Nat) : Entry := at? s.main.ma.entries n {}

/-- An entry changed by a function. -/
def State.modEnt (s : State) (n : Nat) (f : Entry → Entry) : State :=
  s.modMa (fun m => { m with entries := m.entries.modify n f })

/-- The advance of a relay (R253), at the frequency of the present cycle (R247). -/
def State.relayAdvance (s : State) (r : Nat) : Nat :=
  (s.fld (0x030040 + 4 * r) 31 16 * s.main.ma.calcFreq + 2 ^ 23) / 2 ^ 24

/-- The advance of an entry: that of its relay, else 0 (R247). -/
def State.entAdvance (s : State) (c0 : Nat) : Nat := if bits c0 15 12 = 1 then s.relayAdvance (bits c0 3 0) else 0

/-- The reference angle of a contact at an angle of a phase, with the offsets of the present cycle (R247). -/
def State.contactAngle (s : State) (phase angle : Nat) : Nat :=
  (angle + if phase = s.refPhase then 0 else at? s.main.ma.calcOffs phase 0) % 65536

/-- A contact position moved to the contact angle in force, within half a cycle (R247). -/
def adjusted (contact target : Nat) : Nat :=
  (((contact : Int) + sdiff 16 target contact) % 2 ^ 48).toNat

/-- The issue position of a contact position (R247). -/
def issueOf (contact advance : Nat) : Nat := (contact + 2 ^ 48 - advance % 2 ^ 48) % 2 ^ 48

/-- The earliest contact position at an angle whose issue position is later than a position (R248). -/
def firstContact (pos target advance : Nat) : Nat :=
  let c := (pos + advance) / 65536 * 65536 + target
  (if c ≤ pos + advance then c + 65536 else c) % 2 ^ 48

/-- The contact position held for an entry: that of an arming, which comes first, else that of R248. -/
def State.entHeld (s : State) (n : Nat) : Option Nat := (s.ent n).extra.or (s.ent n).contact

/-- The contact position of a waiting entry, with the offset of the present cycle. -/
def State.entContact (s : State) (n : Nat) : Option Nat :=
  let c0 := (s.entCfg n).1
  (s.entHeld n).map (fun c => adjusted c (s.contactAngle (bits c0 11 10) (bits c0 31 16)))

/-- The issue position of a waiting entry. -/
def State.entIssue (s : State) (n : Nat) : Option Nat :=
  (s.entContact n).map (fun c => issueOf c (s.entAdvance (s.entCfg n).1))

/-- Whether a position has been reached (R247). -/
def State.reached (s : State) (pos : Nat) : Bool := decide (0 ≤ sdiff 48 s.position pos)

/-- The earliest contact position of an entry whose issue position is later than the present position. -/
def State.nextContact (s : State) (n : Nat) : Nat :=
  let c0 := s.word (entReg n)
  firstContact s.position (s.contactAngle (bits c0 11 10) (bits c0 31 16)) (s.entAdvance c0)

/-- An enabled entry takes its first contact position while the angle is valid (R248, R249, R257). -/
def State.takeContact (s : State) (n : Nat) : State :=
  let c1 := s.word (entReg n + 4)
  let e := s.ent n
  if s.main.ma.angleValid && bitOf c1 15 && e.contact.isNone && (decide (0 < bits c1 31 16) || e.armed) then
    s.modEnt n (fun e => { e with contact := some (s.nextContact n) })
  else s

/-- Every entry that waits for a valid angle takes its first contact position (R257). -/
def State.takeContacts (s : State) : State := (List.range 512).foldl State.takeContact s

/-! ### States (R240 to R245) -/

/-- The number of the half-cycle of a phase whose crossing lies nearest to the present angle (R238). -/
def State.nearHalf (s : State) (p : Nat) : Nat := (s.position + 2 ^ 48 + 16384 - s.offsetOf p) % 2 ^ 48 / 32768

/-- WIN in units of angle (R238). -/
def State.winUnits (s : State) : Nat := s.fld 0x030004 23 20 * 512

/-- The number of the half-cycle of a phase whose window closed last: WIN × 512 units after its crossing (R238). -/
def State.closedHalf (s : State) (p : Nat) : Nat := (s.position + 2 ^ 48 - s.offsetOf p - s.winUnits) % 2 ^ 48 / 32768

/-- The present phases' windows are watched from now on: LOCKED begins (R238). -/
def State.watchWindows (s : State) : State :=
  s.modMa (fun m => { m with phases := m.phases.zipIdx.map (fun (x, p) => { x with half := s.nearHalf p, missed := 0 }) })

/-- The block enters a state, with MA_STATE (R240); entries take their contact positions when the angle
becomes valid. -/
def State.setAngle (s : State) (st : AngleSt) : State :=
  let old := s.main.ma.st
  if old = st then s else
  let was := s.main.ma.angleValid
  let s1 := s.modMa (fun m => { m with
    st := st, base := (if st = .acquire then old else m.base), since := s.now, pulling := false, acq := 0,
    freqLog := (if st = .locked then [] else m.freqLog), loop := (if st = .acquire then m.loop else none) })
  let s2 := (if st = .locked then s1.watchWindows else s1).notify 0x0304 false [byte old.code, byte st.code]
  if !was && s2.main.ma.angleValid then (s2.modMa Mains.recalc).takeContacts else s2

/-- What mainsStart leaves: the block starts in ABSENT at step 6 (R257). -/
def State.mainsStart (s : State) : State :=
  s.modMa (fun m => { m with
    running := true, since := s.now
    freq := match s.hearth.start.mainsFreq with | some f => f | none => s.nominalFreq })

/-- The loop phase: the reference while present, else the present one it is on, else the lowest
present one (R239). -/
def State.relocate (s : State) : State :=
  let r := s.refPhase
  let cur := s.main.ma.loopPhase
  let next := if (s.phase r).present then r else if (s.phase cur).present then cur
    else ((List.range 3).find? (fun p => (s.phase p).present)).getD cur
  s.modMa (fun m => { m with loopPhase := next })

/-- Mains is lost (R241, R243): PHANTOM on the frozen frequency. -/
def State.mainsLost (s : State) : State :=
  let f := if s.main.ma.frozenValid then s.main.ma.frozen else s.main.ma.freq
  let s1 := s.modMa (fun m => { m with freq := f, frozen := f, frozenValid := true, lostAt := s.now, savedAt := s.now })
  let s2 := { s1 with hearth := { s1.hearth with start := { s1.hearth.start with mainsFreq := some f } } }
  let body := be 4 s2.main.ma.cycle ++ be 4 f
  let s3 := (((s2.count 0x030030 31 24).ash 0x03 0x01 body).wave 0).setAngle .phantom
  ((s3.wake 0x0C).notify 0x0301 true body).flushMainsLost

/-- ACQUIRE with no phase present any more: the state that it was entered from goes on, the running angle with it
(log entry 71). -/
def State.acquireLost (s : State) : State :=
  let m := s.main.ma
  (s.setAngle m.base).modMa (fun x => { x with
    since := if m.base = .phantom then m.lostAt else x.since
    acc := if m.base = .absent then 0 else x.acc })

/-- A phase is lost (R238, R239, R241). -/
def State.phaseLost (s : State) (p : Nat) : State :=
  if !(s.phase p).present then s else
  let s1 := (s.modPhase p (fun x => { x with present := false, missed := 0, halves := [], lastCross := none
                                             lostAt := some s.now })).notify 0x0303 false [byte p, 0#8]
  let s2 := s1.relocate
  if s2.main.ma.phases.any (·.present) then s2
  else match s2.main.ma.st with
    | .locked => s2.mainsLost
    | .acquire => s2.acquireLost
    | _ => s2

/-- What CROSSING_MISSED does where a window has closed without a crossing: two in a row lose the phase (R238). -/
def State.crossingMissed (s : State) (p : Nat) : State :=
  if !s.phaseOn p ∨ !(s.phase p).present then s
  else match s.main.ma.st with
    | .locked =>
      if sdiff 33 (s.closedHalf p) (s.phase p).half ≤ 0 then s
      else if 1 ≤ (s.phase p).missed then s.phaseLost p
      else s.modPhase p (fun x => { x with missed := x.missed + 1, half := s.closedHalf p })
    | .acquire => match (s.phase p).lastCross with
      | some t => if t + 7111112 ≤ s.now then s.phaseLost p else s
      | none => s
    | _ => s

/-- What PHANTOM_TIMEOUT does (R243). -/
def State.phantomTimeout (s : State) : State :=
  if s.main.ma.st = .phantom ∧ s.main.ma.since + s.fld 0x030004 31 24 * secT ≤ s.now then
    (s.modMa (fun m => { m with freq := s.nominalFreq })).setAngle .timed
  else s

/-- What ABSENT_TIMEOUT does (R257). -/
def State.absentTimeout (s : State) : State :=
  if s.main.ma.running ∧ s.main.ma.st = .absent ∧ s.main.ma.since + secT ≤ s.now then
    (s.modMa (fun m => { m with freq := s.nominalFreq, acc := 0, lostAt := s.now })).setAngle .timed
  else s

/-! ### Presence and offsets (R235, R236, R238) -/

/-- The mean of angles on the ring, taken around the newest of them. -/
def ringMean (l : List Nat) : Nat :=
  match l with
  | [] => 0
  | a :: _ =>
    let sum := (l.map (fun x => sdiff 16 x a)).foldl (· + ·) 0
    (((a : Int) + roundDiv sum l.length) % 65536).toNat

/-- ROTATION from OFFSET_B (R235). -/
def State.setRotation (s : State) : State :=
  let near (x : Nat) : Bool := decide ((sdiff 16 (s.offsetOf 1) x).natAbs ≤ 1820)
  s.modMa (fun m => { m with rotation := if near 43691 then true else if near 21845 then false else m.rotation })

/-- OFFSET_p measured at a rising crossing, and ROTATION with it (R235). -/
def State.measureOffset (s : State) (p a : Nat) : State :=
  (s.modPhase p (fun x => let w := (a :: x.window).take 16; { x with window := w, offset := ringMean w })).setRotation

/-- Whether the last half-periods make a phase present (R238): 45 Hz to 65 Hz, within 1 % of their mean. -/
def steady (l : List Nat) (n : Nat) : Bool :=
  let sum := l.sum
  l.length == n && l.all (fun h => decide (h * 90 ≤ secT) && decide (secT ≤ h * 130)
    && decide ((h * n - sum) * 100 ≤ sum) && decide ((sum - h * n) * 100 ≤ sum))

/-- The mean frequency word of half-periods in ticks (R245). -/
def meanFreq (l : List Nat) : Nat :=
  if l.sum = 0 then 0 else clampFreq ((2 ^ 40 * 320 * l.length / (2 * l.sum) : Nat) : Int)

/-- The block enters ACQUIRE on a phase: the loop starts from the mean frequency, with its phase taken
from the last crossing (R245, R246). -/
def State.acquire (s : State) (p : Nat) (rising : Bool) : State :=
  let f := meanFreq (s.phase p).halves
  let a := (s.offsetOf p + if rising then 0 else 0x8000) % 65536 * 2 ^ 24
  let absent := s.main.ma.st == .absent
  let s1 := (s.modMa (fun m =>
    if absent then { m with acc := a, freq := f } else { m with loop := some (a, f) })).setAngle .acquire
  s1.modMa (fun m => { m with loopPhase := p })

/-- A phase becomes present (R238 to R240, R245). -/
def State.phasePresent (s : State) (p angle : Nat) (rising : Bool) : State :=
  let s1 := (s.modPhase p (fun x => { x with present := true, missed := 0, lostAt := none, half := s.nearHalf p })).notify 0x0303 false
    [byte p, 1#8]
  let s2 := match s1.main.ma.st with
    | .absent | .phantom | .timed => s1.acquire p rising
    | _ =>
      if (s1.phase p).window = [] ∧ p ≠ s1.refPhase then
        s1.measureOffset p ((angle + if rising then 0 else 0x8000) % 65536)
      else s1
  let s3 := s2.relocate
  s3.modPhase p (fun x => { x with halves := [] })

/-- A valid crossing of a phase that is not present (R238). -/
def State.returning (s : State) (p angle : Nat) (rising : Bool) : State :=
  let x := s.phase p
  let n := 2 * s.fld 0x030004 19 16
  let hs := match x.lastCross with
    | some t => if x.lastRising = rising then [] else ((s.now - t) :: x.halves).take n
    | none => []
  let s1 := s.modPhase p (fun x => { x with halves := hs, lastCross := some s.now, lastRising := rising })
  if steady hs n then s1.phasePresent p angle rising else s1

/-! ### Relays (R252, R256) -/

/-- Whether RLYn is high. -/
def State.relayHigh (s : State) (r : Nat) : Bool :=
  match at? s.pulses r none with | some t => decide (s.now < t) | none => false

/-- Whether one relay names the other as its partner (R252). -/
def State.partners (s : State) (a b : Nat) : Bool :=
  s.bit (0x030040 + 4 * a) 3 && s.fld (0x030040 + 4 * a) 7 4 == b

/-- A relay pulse; none where it is refused (R252). -/
def State.relayPulse (s : State) (r : Nat) : Option State :=
  if !s.bit (0x030040 + 4 * r) 0 || s.relayHigh r
      || (List.range 16).any (fun q => q != r && (s.partners r q || s.partners q r) && s.relayHigh q) then none
  else some { s with pulses := s.pulses.set r (some (s.now + s.fld (0x030040 + 4 * r) 15 8 * msT)) }

/-- What RELAY_PULSE_END does: the pulse has run its full width, whatever the main domain does meanwhile (R252). -/
def State.relayEnd (s : State) (r : Nat) : State :=
  if s.relayHigh r then s else { s with pulses := s.pulses.set r none }

/-! ### Firing (R247 to R251, R254, R255) -/

/-- The actions of other blocks: a capture trigger on a channel with the entry that names its angle's
phase, and the start of a poll program. -/
structure Acts where
  capture : Nat → Option Nat → State → State
  prog : Nat → State → State

/-- Flags latched in MA_ENTn_LAST (Table MA-8). -/
def State.latchEnt (s : State) (n flags : Nat) : State :=
  s.latchFld (entReg n + 12) 4 0 flags

/-- An arming of an entry (R249), with the operation that asked for it: ignored where the entry is not
enabled or already armed. Its next contact position is one of its own unless R248 has it already. -/
def State.armEntry (s : State) (n : Nat) (op : Option Nat) : State :=
  if !bitOf (s.entCfg n).2 15 || (s.ent n).armed then (s.latchEnt n 16).finish? op 0 [16#8]
  else
    let s1 := s.modEnt n (fun e => { e with armed := true, tag := op })
    if s.main.ma.angleValid ∧ (s.ent n).contact.isSome ∧ s.entContact n ≠ some (s.nextContact n) then
      s1.modEnt n (fun e => { e with extra := some (s.nextContact n) })
    else s1.takeContact n

/-- Whether an entry may fire in the state of the angle (R250, R255). -/
def State.entAllowed (s : State) (c1 : Nat) : Bool :=
  match s.main.ma.st with
  | .locked => true
  | .acquire => s.main.ma.angleValid
  | .phantom => bitOf c1 13 || s.main.ma.lostAt == s.now
  | .timed => bitOf c1 12
  | .absent => false

/-- The action of an entry, and the flags it gives (Table MA-2, R252, R254). -/
def State.entAct (s : State) (acts : Acts) (n c0 : Nat) : State × Nat :=
  match bits c0 15 12 with
  | 1 => if s.quarantined then (s, 4) else match s.relayPulse (bits c0 3 0) with
    | some s' => (s', 0)
    | none => (s, 4)
  | 2 => (acts.capture (bits c0 1 0) (some n) s, 0)
  | 3 => if s.quarantined then (s, 4) else (acts.prog (bits c0 5 0) s, 0)
  | 4 => (s.armEntry (bits c0 8 0) none, 0)
  | _ => (s, 0)

/-- ENTRY_EVENT (Table MA-7), without PHANTOM for an entry that fires at the tick of the loss (R255). -/
def State.entNotice (s : State) (n flags : Nat) : State :=
  let b := s.noticeBytes 0x0305 (be 2 n ++ [byte flags] ++ be 4 s.main.ma.cycle)
  let b' := if s.main.ma.st = .phantom ∧ s.main.ma.lostAt = s.now then
      b.take 13 ++ [byte (field b 13 1 - (if bitOf (field b 13 1) 6 then 64 else 0))] ++ b.drop 14
    else b
  s.raise { code := 0x0305, member := s.self, alarm := false, bytes := b' }

/-- The end of a contact position: flags, notice, the reply to MA_ARM, and the next contact position
(R248, R249, R251, R255). -/
def State.entDone (s : State) (n c1 flags : Nat) (fired : Bool) : State :=
  let e := s.ent n
  let next := if e.extra.isSome then e.contact
    else if 0 < bits c1 31 16 then (s.entContact n).map (fun c => (c + bits c1 31 16 * 65536) % 2 ^ 48) else none
  let s1 := if bitOf flags 1 then (s.latchEnt n flags).count 0x030030 15 8 else s.latchEnt n flags
  let s2 := if bitOf flags 2 then s1.count 0x030030 7 0 else s1
  let s3 := if flags ≠ 0 ∨ (fired ∧ bitOf c1 11) then s2.entNotice n flags else s2
  let s4 := (s3.modEnt n (fun e => { e with armed := false, tag := none, cfg := none, extra := none, contact := next })).finish?
    e.tag 0 [byte flags]
  -- New values written at the tick of the firing apply from here (R255).
  if e.cfg.isNone then s4
  else if !s4.bit (entReg n + 4) 15 then s4.modEnt n (fun e => { e with contact := none })
  else if s4.fld (entReg n + 4) 31 16 = 0 then s4.modEnt n (fun e => { e with contact := none })
  else s4.takeContact n

/-- An entry fires with flags decided so far (R250): 1 for LATE. -/
def State.entFire (s : State) (acts : Acts) (n late : Nat) : State :=
  let c := s.entCfg n
  let r := s.entAct acts n c.1
  r.1.entDone n c.2 (late + r.2) true

/-- An MA_PULSE at an angle issues (R252, R256). On a member quarantined since it is refused (R254; DEDUCED, log entry
137). -/
def State.pulseIssue (s : State) (r op : Nat) : State :=
  let s1 := s.modMa (fun m => { m with relays := m.relays.modify r (fun x => { x with pulse := none }) })
  if s.quarantined then (s1.count 0x030030 7 0).finish op 0x000C []
  else match s1.relayPulse r with
  | some s2 => s2.finish op 0 (be 4 s2.main.ma.cycle ++ be 2 s2.angle)
  | none => (s1.count 0x030030 7 0).finish op 0x0301 []

/-- The contact angle's pending MA_PULSE has reached its issue position. -/
def State.pulseDue (s : State) (r : Nat) : Option Nat :=
  match (at? s.main.ma.relays r {}).pulse with
  | some (op, c) => if s.reached (issueOf c (s.relayAdvance r)) then some op else none
  | none => none

/-- What ENTRY_FIRE does for an entry that has reached its issue position (R247, R250, R257), and, for
512 + r, for the pending MA_PULSE of relay r (R256). -/
def State.entryFire (s : State) (acts : Acts) (n : Nat) : State :=
  if 512 ≤ n then
    match s.pulseDue (n - 512) with
    | some op => s.pulseIssue (n - 512) op
    | none => s
  else match s.entIssue n with
  | none => s
  | some i =>
    if !s.reached i then s
    else if s.main.boot.local9 && s.main.ma.angleValid && s.entAllowed (s.entCfg n).2 then s.entFire acts n 0
    else s.entDone n (s.entCfg n).2 0 false

/-- A forward step has carried the position past an entry's issue position (R250). -/
def State.stepPast (acts : Acts) (s : State) (n : Nat) : State :=
  match s.entIssue n with
  | none => s
  | some i =>
    if !s.reached i then s
    else
      let c := s.entCfg n
      if !s.main.boot.local9 then s.entDone n c.2 0 false
      else if bitOf c.2 14 && bits c.1 15 12 != 1 then s.entFire acts n 1
      else s.entDone n c.2 2 false

/-- A forward step has carried the position past the issue position of a pending MA_PULSE: it is not
issued. -/
def State.pulsePast (s : State) (r : Nat) : State :=
  match s.pulseDue r with
  | some op => (s.modMa (fun m => { m with relays := m.relays.modify r (fun x => { x with pulse := none }) })).finish op
      0x0012 []
  | none => s

/-! ### Zero crossings (R231, R232, R237, R245) -/

/-- The measured angle at this instant: the loop's where ACQUIRE came from PHANTOM or TIMED, else the
running angle. -/
def State.measured (s : State) : Nat :=
  match s.main.ma.loop with
  | some l => l.1 / 2 ^ 24 % 65536
  | none => s.angle

/-- The loop corrections of R237 for a phase error. -/
def State.loopCorrect (s : State) (e : Int) : State :=
  let pmax : Int := s.fld 0x030008 31 24
  let adj := max (-pmax) (min pmax (e.tdiv (2 ^ (s.fld 0x030008 15 12))))
  let kf : Int := s.fld 0x030008 23 16
  match s.main.ma.loop with
  | some l => s.modMa (fun m => { m with
      loop := some ((((l.1 : Int) + adj * 2 ^ 24) % 2 ^ 40).toNat, clampFreq (l.2 + e * kf)) })
  | none => s.modMa (fun m => { m.moveBy adj with freq := clampFreq (m.freq + e * kf) })

/-- ACQUIRE has ended and the running angle agrees with the measured one: LOCKED (R245). -/
def State.lockOn (s : State) : State :=
  let s1 := match s.main.ma.loop with
    | some l =>
      let m := s.main.ma.moveBy (sdiff 16 (l.1 / 2 ^ 24) s.angle)
      { s with main := { s.main with ma := { m with acc := m.acc / 2 ^ 24 * 2 ^ 24 + l.1 % 2 ^ 24, freq := l.2 } } }
    | none => s
  (s1.setAngle .locked).wave 1

/-- The running angle is pulled towards the measured one by 128 units at a crossing (R245). -/
def State.pullStep (s : State) : State :=
  let d := sdiff 16 s.measured s.angle
  if d.natAbs ≤ 128 then s.lockOn
  else s.modMa (fun m => m.moveBy (if d < 0 then -128 else 128))

/-- ACQUIRE ends: from ABSENT the loop's angle stands; else pull or step (R245, R246). -/
def State.acquireEnd (s : State) (acts : Acts) : State :=
  let m := s.main.ma
  if m.base = .absent then s.setAngle .locked
  else
    let d := sdiff 16 s.measured s.angle
    let pull := decide (d.natAbs ≤ s.fld 0x030008 11 0)
    let body := be 4 ((s.now - m.lostAt) / msT) ++ [byte (b2n (!pull))] ++ be 2 (ofSigned 16 d)
    if pull then
      let s1 := ((s.ash 0x03 0x02 body).wake 0x0C).notify 0x0302 false body
      if d = 0 then s1.lockOn else s1.modMa (fun m => { m with pulling := true })
    else
      let fwd := (s.measured + 65536 - s.angle) % 65536
      let s1 := (s.modMa (fun m => m.moveBy fwd)).count 0x030030 23 16
      let s2 := ((s1.ash 0x03 0x02 body).wake 0x0C).notify 0x0302 false body
      let s3 := s2.lockOn
      (List.range 16).foldl State.pulsePast ((List.range 512).foldl (State.stepPast acts) s3)

/-- The mean of MA_FREQ over the last 16 cycles of LOCKED becomes MA_FROZEN, which Stoker writes to the
Hearth every 64 s (R243); `f0` is MA_FREQ in the half-cycle that has ended. -/
def State.noteFreq (s : State) (f0 : Nat) : State :=
  let l := (s.main.ma.freqLog.cons f0).take 32
  let f := l.sum / l.length
  let due := decide (s.main.ma.savedAt + 64 * secT ≤ s.now)
  let s1 := s.modMa (fun m => { m with freqLog := l, frozen := f, frozenValid := true
                                       savedAt := if due then s.now else m.savedAt })
  if due then { s1 with hearth := { s1.hearth with start := { s1.hearth.start with mainsFreq := some f } } } else s1

/-- A valid crossing on the loop phase (R237, R245). -/
def State.loopCrossing (s : State) (acts : Acts) (p : Nat) (rising : Bool) : State :=
  let e := sdiff 16 (s.offsetOf p + if rising then 0 else 0x8000) s.measured
  let s1 := s.loopCorrect e
  match s1.main.ma.st with
  | .locked => s1.noteFreq s.main.ma.freq
  | .acquire =>
    if s1.main.ma.pulling then s1.pullStep
    else
      let n := if e.natAbs < 182 then s1.main.ma.acq + 1 else 0
      let s2 := s1.modMa (fun m => { m with acq := n })
      if 8 ≤ n then s2.acquireEnd acts else s2
  | _ => s1

/-- A valid crossing of a present phase (R235, R237). -/
def State.trackedCrossing (s : State) (acts : Acts) (p : Nat) (rising : Bool) : State :=
  let s1 := s.modPhase p (fun x => { x with missed := 0, lastCross := some s.now, lastRising := rising, half := s.nearHalf p })
  let measuring := s1.main.ma.st == .locked || s1.main.ma.st == .acquire
  let s2 := if rising && measuring && p != s1.refPhase && p != s1.main.ma.loopPhase then s1.measureOffset p s1.measured
    else s1
  if p = s2.main.ma.loopPhase ∧ measuring then s2.loopCrossing acts p rising else s2

/-- Whether a crossing of a present phase falls in its window (R238). -/
def State.inWindow (s : State) (p : Nat) (rising : Bool) : Bool :=
  let a := sdiff 16 s.angle (s.offsetOf p + if rising then 0 else 0x8000)
  decide (a.natAbs ≤ s.fld 0x030004 23 20 * 512)

/-- What ZERO_CROSSING does: `peak` is what the filtered signal reached in the half-cycle before, and
`samples` the cycle that a rising crossing completes (R231, R232). -/
def State.zeroCrossing (s : State) (acts : Acts) (p : Nat) (rising : Bool) (peak : Nat) (samples : List Int) : State :=
  if !s.main.ma.running ∨ !s.phaseOn p ∨ peak ≤ s.fld 0x030004 15 8 then s
  else if peak < 64 ∨ ((s.phase p).present ∧ s.main.ma.st = .locked ∧ !s.inWindow p rising) then
    s.count (0x030020 + 4 * p) 15 8
  else
    let s1 := if rising then s.modPhase p (fun x => { x with
        samples := samples.take 285, sampleCycle := x.riseCycle, riseCycle := s.main.ma.cycle }) else s
    if (s1.phase p).present then s1.trackedCrossing acts p rising
    else s1.returning p s1.measured rising

/-- What PHASE_CLIPPED does (Table MA-3). -/
def State.phaseClipped (s : State) (p : Nat) : State :=
  if s.main.ma.running ∧ s.phaseOn p then s.modPhase p (fun x => { x with clip := true }) else s

/-! ### Register writes and words -/

/-- MA_CFG.REF names another phase than `old`: angle 0 is that phase's rising crossing from now on. The angle moves
forward to it, since nothing but a loop correction moves the position back (R242), and every offset is taken from it
(R234, R235; log entry 123). -/
def State.newReference (s : State) (old : Nat) : State :=
  let r := s.refPhase
  if r = old then s
  else
    let d := (s.phase r).offset
    let back (a : Nat) : Nat := (a + 65536 - d) % 65536
    let moved := s.modMa (fun m => { (if m.st = .absent then m else m.moveBy (back 0)) with
      loop := m.loop.map (fun l => ((l.1 + 2 ^ 40 - d * 2 ^ 24) % 2 ^ 40, l.2))
      phases := (m.phases.zipIdx).map (fun (x, p) =>
        if p = r then { x with offset := 0, window := [] }
        else { x with offset := back (if p = old then 0 else x.offset), window := x.window.map back }) })
    ((moved.modMa Mains.recalc).setRotation).watchWindows

/-- A write to MA_CFG: a phase no longer enabled is no longer present. -/
def State.maCfgWritten (s : State) (old : Nat) : State :=
  let s0 := s.newReference (bits old 1 0)
  let s1 := (List.range 3).foldl (fun x p => if x.phaseOn p then x else x.phaseLost p) s0
  if s1.main.ma.running then s1.relocate else s1

/-- A schedule entry has been written: `old` are its words before (R248, R255). -/
def State.entryWritten (s : State) (n : Nat) (old : Nat × Nat) : State :=
  let e := s.ent n
  let prev := e.cfg.getD old
  let due := match ({ s with regs := RegFile.set (RegFile.set s.regs (entReg n) prev.1) (entReg n + 4) prev.2 } : State).entIssue n with
    | some i => s.reached i
    | none => false
  let new := (s.word (entReg n), s.word (entReg n + 4))
  if bitOf prev.2 15 && due then s.modEnt n (fun e => { e with cfg := some prev })
  else if bitOf prev.2 15 && !bitOf new.2 15 then
    let s1 := s.modEnt n (fun _ => {})
    if e.armed then ((s1.latchEnt n 8).entNotice n 8).finish? e.tag 0 [8#8] else s1
  else if !bitOf prev.2 15 && bitOf new.2 15 then (s.modEnt n (fun _ => {})).takeContact n
  else if bitOf new.2 15 ∧ bits new.2 31 16 = 0 ∧ !e.armed then s.modEnt n (fun e => { e with contact := none })
  else s.takeContact n

/-- MA_STATUS as the register reads. -/
def State.maStatusWord (s : State) : Nat :=
  let m := s.main.ma
  ((List.range 3).map (fun p => b2n (s.phase p).present * 2 ^ (20 + p))).sum + m.loopPhase * 65536
    + b2n m.rotation * 256 + b2n m.frozenValid * 128 + b2n m.pulling * 64 + m.st.code

/-- MA_FREQ: the loop's frequency in ACQUIRE from PHANTOM or TIMED, else the running one (R237). -/
def State.maFreqWord (s : State) : Nat :=
  match s.main.ma.loop with | some l => l.2 | none => s.main.ma.freq

/-- MA_PHp_STAT as it reads. -/
def State.maPhaseWord (s : State) (p : Nat) : Nat :=
  s.offsetOf p * 65536 + s.fld (0x030020 + 4 * p) 15 8 * 256 + b2n (s.phase p).clip * 128 + b2n (s.phase p).present * 64

/-- MA_ENTn_NEXT: the next contact cycle. -/
def State.maNextWord (s : State) (n : Nat) : Nat :=
  match s.entContact n with | some c => c / 65536 % 2 ^ 32 | none => 0

/-! ### Opcodes (R258) -/

/-- MA_STATUS. -/
def opMaStatus (op : Nat) (p : List Byte) (s : State) : State :=
  if p ≠ [] then s.finish op 0x0004 []
  else s.finish op 0 (be 4 s.maStatusWord ++ be 4 s.main.ma.cycle ++ be 2 s.angle
    ++ (List.range 3).flatMap (fun p => be 2 (s.offsetOf p)) ++ be 4 s.maFreqWord ++ be 4 s.main.ma.frozen)

/-- MA_ARM: ENTRY; it replies when the entry fires or is marked (R249). -/
def opMaArm (op : Nat) (p : List Byte) (s : State) : State :=
  if p.length ≠ 2 then s.finish op 0x0004 []
  else if 511 < field p 0 2 then s.finish op 0x0005 []
  else s.armEntry (field p 0 2) (some op)

/-- MA_PULSE: RELAY, MODE, PHASE, reserved, ANGLE (R252, R253, R256). -/
def opMaPulse (op : Nat) (p : List Byte) (s : State) : State :=
  if p.length ≠ 6 then s.finish op 0x0004 []
  else
    let r := field p 0 1
    let mode := field p 1 1
    if 15 < r ∨ 1 < mode ∨ 2 < field p 2 1 ∨ field p 3 1 ≠ 0 then s.finish op 0x0005 []
    else if mode = 1 ∧ !s.main.ma.angleValid then s.finish op 0x000E []
    else if (at? s.main.ma.relays r {}).pulse.isSome then s.finish op 0x0300 []
    else if mode = 0 then s.pulseIssue r op
    else
      let c := firstContact s.position (s.contactAngle (field p 2 1) (field p 4 2)) (s.relayAdvance r)
      s.modMa (fun m => { m with relays := m.relays.modify r (fun x => { x with pulse := some (op, c) }) })

/-- MA_WAVE: PHASE. -/
def opMaWave (op : Nat) (p : List Byte) (s : State) : State :=
  if p.length ≠ 1 then s.finish op 0x0004 []
  else if 2 < field p 0 1 then s.finish op 0x0005 []
  else
    let x := s.phase (field p 0 1)
    s.finish op 0 (be 4 x.sampleCycle ++ be 2 x.samples.length ++ x.samples.flatMap (fun v => be 2 (ofSigned 16 v)))

end Sys2Proof.Machine
end

