-- ==== Sys2Proof/Machine/Strait.lean ====
section
/-! DEFINITION. The Strait links (19): flits, credits, acknowledgement and replay, link states, and the ST
opcodes. -/

namespace Sys2Proof.Machine

/-! ### Flits (R613 to R617) -/

/-- One bit of CRC-24. -/
def crc24Bit (c : Nat) : Nat :=
  if c / 0x800000 % 2 = 1 then Nat.xor (c * 2 % 0x1000000) 0x864CFB else c * 2 % 0x1000000

/-- One byte of CRC-24. -/
def crc24Byte (c : Nat) (b : Byte) : Nat :=
  let x := Nat.xor c (b.toNat * 65536)
  crc24Bit (crc24Bit (crc24Bit (crc24Bit (crc24Bit (crc24Bit (crc24Bit (crc24Bit x)))))))

/-- CRC-24 of a byte string (R615). -/
def crc24 (l : List Byte) : Nat := l.foldl crc24Byte 0xB704CE

/-- The CRC of a flit: over the sequence value, the header and the body. -/
def flitCrc (seq : Nat) (h : List Byte) (body : List Byte) : Nat := crc24 (be 2 (seq % 4096) ++ h ++ body)

/-- A flit of 32 bytes. -/
def mkFlit (seq header : Nat) (body : List Byte) : List Byte :=
  let h := be 2 header
  let b := padTo 27 body
  h ++ b ++ be 3 (flitCrc seq h b)

/-- The IDLE flit. -/
def idleFlit : List Byte := mkFlit 0 0 []

/-- A LINK flit of a subtype. -/
def linkFlit (sub : Nat) (body : List Byte) : List Byte := mkFlit 0 0x4000 (byte sub :: body)

/-- A TRAFFIC flit. -/
def RFlit.bytes (f : RFlit) (seq : Nat) : List Byte :=
  mkFlit seq (0x8000 + f.cls * 4096 + b2n f.first * 2048 + b2n f.last * 1024 + f.body.length * 32 + f.dest * 4) f.body

/-! ### Lanes, and links on them -/

/-- A lane by its number. -/
def State.lane (s : State) (n : Nat) : Lane := at? s.main.ln.lanes n {}

/-- A lane changed by a function. -/
def State.modLane (s : State) (n : Nat) (f : Lane → Lane) : State :=
  { s with main := { s.main with ln := { s.main.ln with lanes := s.main.ln.lanes.modify n f } } }

/-- A link's swap state changed by a function. -/
def State.modSwap (s : State) (k : Nat) (f : Swap → Swap) : State :=
  { s with main := { s.main with ln := { s.main.ln with swaps := s.main.ln.swaps.modify k f } } }

/-- The swap state of a link. -/
def State.swap (s : State) (k : Nat) : Swap := at? s.main.ln.swaps k {}

/-- The lane of a link's first, second or third place (Table LN-1). -/
def laneOf (k i : Nat) : Nat := 2 + 3 * k + i

/-- An eye measurement ends with LANE_DOWN (R284). -/
def State.eyeLost (s : State) (n : Nat) : State :=
  match (s.lane n).eye with
  | some e => (s.modLane n (fun l => { l with eye := none })).finish? e.op 0x0400 []
  | none => s

/-- A lane loses its lock, or its power: what runs on it ends. -/
def State.laneOut (s : State) (n : Nat) (f : Lane → Lane) : State := (s.modLane n f).eyeLost n

/-- The three lanes of a link change together. -/
def State.linkLanes (s : State) (k : Nat) (f : Lane → Lane) : State :=
  (List.range 3).foldl (fun x i => x.laneOut (laneOf k i) f) s

/-- A swap of a link ends before the receiver has re-steered (R282): the operation that forced it ends with it. -/
def State.endSwap (s : State) (k status : Nat) : State :=
  match (s.swap k).rx with
  | some (_, op) => (s.modSwap k (fun w => { w with rx := none })).finish? op status []
  | none => s

/-- A link by its number. -/
def State.link (s : State) (k : Nat) : Link := at? s.main.st.links k {}

/-- A link's configuration register. -/
def State.linkCfg (s : State) (k : Nat) : Nat := s.word (0x0F0100 + 256 * k)

/-- OUT (R627): the flits outstanding. -/
def Link.out (l : Link) : Nat := l.replay.length

/-- A flit dropped from both ends of nothing: the signed 12-bit difference of two sequences. -/
def sdiff12 (a b : Nat) : Int := sdiff 12 a b

/-- Available credits of a class: headers and data (R624). -/
def StClass.avail (c : StClass) : Int × Int :=
  (sdiff 16 (c.advH + c.phf) c.hc, sdiff 16 (c.advD + c.pdf) c.dc)

/-- ST_LINK queued, as an alarm where the new state is DOWN (Table ST-8). -/
def State.linkNotice (s : State) (k old new cause : Nat) : State :=
  s.notify 0x0F01 (new == 1) [byte k, byte old, byte new, byte cause, byte (s.link k).partnerMember]

/-- The contents of ST_LINK as an ash record (Table AL-2). -/
def State.linkAsh (s : State) (k old new cause : Nat) : State :=
  s.ash 0x0F 0x01 [byte k, byte old, byte new, byte cause, byte (s.link k).partnerMember]

/-- The code of a link state (Table ST-3). -/
def LinkSt.code : LinkSt → Nat
  | .disabled => 0 | .down => 1 | .training => 2 | .init => 3 | .up => 4 | .paused => 5 | .sleep => 6

/-! ### Routes that follow a link's state (R644) -/

/-- The least hop count to a member. -/
def State.hops (s : State) (m : Nat) : Nat :=
  if m = s.self then 0 else min (s.hopsOn 0 m) (s.hopsOn 1 m)

/-- ROUTE sent on each link that is UP (R644). -/
def State.sendRoutes (s : State) : State :=
  let body := s.stackMsg 0x04 0 ((List.range 8).map (fun m => byte (s.hops m)))
  (List.range 2).foldl (fun x k =>
    if (x.link k).st = .up then (x.offerOn k ⟨0, (x.link k).partnerMember, body⟩).getD x else x) s

/-- The messages that wait for a route or for room, offered again in order (R645). -/
def State.offerHeld (s : State) : State :=
  let held := s.main.sk.held
  held.foldl (fun x m =>
    let keep : State := { x with main := { x.main with sk := { x.main.sk with held := x.main.sk.held ++ [m] } } }
    if x.main.sk.held.any (fun y => y.cls == m.cls && y.dest == m.dest) then keep
    else match x.offer m with
      | some y => y
      | none => keep)
    { s with main := { s.main with sk := { s.main.sk with held := [] } } }

/-- A message leaves a receive buffer: its credits are returned (R624, R645). -/
def State.freeWaiting (s : State) (k cls : Nat) (w : Waiting) : State :=
  s.modLink k (fun l => l.modClass cls (fun c => { c with
    wait := c.wait.erase w
    hf := if w.counted then (c.hf + 1) % 65536 else c.hf
    df := if w.counted then (c.df + w.flits) % 65536 else c.df }))

/-- One waiting message forwarded where its route takes it (R645); `stuck` lists the members for which an earlier message
of its class still waits, which no later one overtakes. -/
def State.forwardOne (x : State) (k cls : Nat) (w : Waiting) (stuck : List Nat) : State × List Nat :=
  if w.msg.dest = x.self ∨ w.msg.dest ∈ stuck then (x, stuck)
  else match x.offer w.msg with
    | some y => (y.freeWaiting k cls w, stuck)
    | none => (x, stuck ++ [w.msg.dest])

/-- The messages for other members forwarded as far as their routes take them (R645). -/
def State.forwardAll (s : State) : State :=
  (List.range 2).foldl (fun x k => (List.range 4).foldl (fun x cls =>
    ((at? (x.link k).classes cls {}).wait.foldl (fun p w => p.1.forwardOne k cls w p.2) (x, ([] : List Nat))).1) x) s

/-- Everything that waits for a route or for room moves as far as it can. -/
def State.moveMsgs (s : State) : State := s.offerHeld.forwardAll

/-! ### State changes (R631 to R638) -/

/-- A link enters a state. -/
def State.setLink (s : State) (k : Nat) (st : LinkSt) (cause : Nat) : State :=
  s.modLink k (fun l => { l with st := st, since := s.now, cause := cause })

/-- What leaving UP does: the TIME messages still queued are discarded (R620), a replay ends, and the
routes change (R644). -/
def State.leaveUp (s : State) (k : Nat) : State :=
  let n := (at? (s.link k).classes 1 {}).txq.length
  (s.modLink k (fun l => { (l.modClass 1 (fun c => { c with txq := [] })) with replayAt := none })).countN
    (0x0F013C + 256 * k) 15 8 n

/-- The operation that waits for a retrain ends (R641). -/
def State.endRetrain (s : State) (k status : Nat) : State :=
  match (s.link k).tag with
  | some t => (s.modLink k (fun l => { l with tag := none })).finish t status []
  | none => s

/-- The handshake state of a link cleared for its next training. -/
def Link.clearHandshake (l : Link) : Link :=
  { l with gotInit := false, gotSeen := false, sentSeen := false, partnerResume := false, slots := 0, nak := false,
           nakAt := none, idleAt := none, sleepOrder := false }

/-- A link enters TRAINING: each of its lanes locks again (R633, R634). -/
def State.train (s : State) (k cause : Nat) : State :=
  ((s.setLink k .training cause).modLink k Link.clearHandshake).linkLanes k Lane.unlock

/-- An UP link retrains (R633): counted, recorded, reported; `own` says that this side decided it and
sends RETRAIN in its next three slots. -/
def State.retrain (s : State) (k cause : Nat) (own : Bool) : State :=
  if (s.link k).st ≠ .up then s else
  let s1 := ((s.leaveUp k).count (0x0F0138 + 256 * k) 15 8).train k cause
  let s2 := s1.modLink k (fun l => { l with due := if own then List.replicate 3 (0x04, [byte cause]) else [] })
  ((s2.linkAsh k 4 2 cause).linkNotice k 4 2 cause).sendRoutes

/-- A link goes DOWN (R635); a swap on it ends. -/
def State.linkDown (s0 : State) (k cause : Nat) : State :=
  let s := s0.endSwap k 0x0400
  let old := (s.link k).st
  let s1 := if old = .up ∨ old = .paused then s.leaveUp k else s
  let s2 := ((s1.setLink k .down cause).modLink k (fun l => { l.clearHandshake with due := [] })).count
    (0x0F0138 + 256 * k) 7 0
  let s3 := ((s2.linkAsh k old.code 1 cause).linkNotice k old.code 1 cause).endRetrain k 0x0F00
  if old = .up then s3.sendRoutes else s3

/-- A protocol error (R632): counted, and an UP link retrains with cause 2. -/
def State.protoError (s : State) (k : Nat) : State :=
  (s.count (0x0F013C + 256 * k) 31 24).retrain k 2 true

/-- The lane layer pauses a link (R275): a replay under way stands still. -/
def State.pauseLink (s : State) (k : Nat) : State :=
  let l := s.link k
  if l.st = .up then
    (((s.leaveUp k).setLink k .paused 3).modLink k (fun x => { x with replayAt := l.replayAt, trigger := false })).sendRoutes
  else s

/-- A replay trigger for the flit at OLDEST (R628, R629). -/
def State.replayTrigger (s : State) (k : Nat) : State :=
  let l := s.link k
  let cfg := s.linkCfg k
  if l.out = 0 then s
  else if l.r < bits cfg 27 24 then
    (s.modLink k (fun l => { l with r := l.r + 1, replayAt := some 0, lastAdvance := s.now })).count
      (0x0F0138 + 256 * k) 31 16
  else if l.t < bits cfg 22 20 then
    (s.modLink k (fun l => { l with r := 0, t := l.t + 1 })).retrain k 1 true
  else s.linkDown k 1

/-- The lane layer's re-steer ends the pause: the timers of R626 and R628 have stood still, and a replay triggered
meanwhile starts (R638). -/
def State.resumeLink (s : State) (k : Nat) : State :=
  let l := s.link k
  if l.st = .paused then
    let d := s.now - l.since
    ((s.setLink k .up l.cause).modLink k (fun l => { l with
      lastAdvance := l.lastAdvance + d, lastStatus := l.lastStatus + d, nakAt := l.nakAt.map (· + d), trigger := false
      uncoveredAt := l.uncoveredAt.map (· + d) })).sendRoutes.moveMsgs
      |> fun x => if l.trigger then x.replayTrigger k else x
  else s

/-- A link whose swap was abandoned goes DOWN and tries to train at once (R282, R635). -/
def State.abandonSwap (s : State) (k : Nat) : State :=
  if (s.link k).st = .paused then (s.linkDown k 3).train k 3 else s

/-- The links that step 6 starts (R640, R692): SESSION drawn, never 0; each enabled link trains and
starts fresh. -/
def State.straitStart (s : State) : State :=
  let (x, s1) := s.draw
  let s2 := { s1 with main := { s1.main with st := { s1.main.st with session := 1 + x % 65535 } } }
  if s2.noStrait then s2
  else (List.range 2).foldl (fun y k => if bitOf (y.linkCfg k) 31 then y.train k 0 else y) s2

/-- ST_Lk_CFG has been written: EN (R631, R638). DESIGN CHOICE (log entry 138): a link whose EN is cleared answers an
ST_RETRAIN that waits with ST_NOT_UP, and an LN_SPARE_FORCE with DISABLED (R34). -/
def State.stLinkWritten (s : State) (k : Nat) : State :=
  let l := s.link k
  if !bitOf (s.linkCfg k) 31 then
    if l.st = .disabled then s
    else
      let s0 := (s.endSwap k 0x0010).linkLanes k Lane.off
      let s1 := if l.st = .up then s0.leaveUp k else s0
      let s2 := ((s1.setLink k .disabled 5).modLink k (fun l => { l.clearHandshake with due := [] })).linkNotice k
        l.st.code 0 5
      (s2.endRetrain k 0x0F00).sendRoutes
  else if l.st = .disabled && s.main.out && !s.noStrait then s.train k 0 else s

/-! ### Initialisation (R622, R623) -/

/-- RESUME_OK as this side sends it (R622). -/
def State.resumeOk (s : State) (k : Nat) : Bool :=
  let l := s.link k
  !l.fresh && l.gotInit && l.lastUp == some (s.main.st.session, l.partnerSession)

/-- The body of this side's INIT flit after its subtype (Table ST-2). -/
def State.initBody (s : State) (k : Nat) : List Byte :=
  let l := s.link k
  [1#8, byte (k * 8 + s.self)] ++ be 2 s.main.st.session ++ be 2 l.nextRx ++ be 2 l.nextTx
    ++ [byte (b2n l.gotInit + b2n (s.resumeOk k) * 2)]
    ++ (List.range 4).flatMap (fun c =>
      let w := s.word (0x0F0110 + 256 * k + 4 * c)
      be 2 (bits w 31 24) ++ be 2 (bits w 11 0))

/-- A class after a fresh start (R623): the counts return to 0, the partner's advertised credits are
new, and the messages that wait in the receive buffer no longer count. -/
def StClass.restart (c : StClass) (adv own : Nat × Nat) (lost : Bool) : StClass :=
  { c with hc := 0, dc := 0, hf := 0, df := 0, phf := 0, pdf := 0, rh := 0, rd := 0, rx := none
           advH := adv.1, advD := adv.2, ownH := own.1, ownD := own.2
           sending := if lost then none else c.sending
           wait := c.wait.map (fun w => { w with counted := false }) }

/-- A link reaches UP with a fresh start (R623). -/
def State.freshUp (s : State) (k : Nat) : State :=
  let l := s.link k
  let gone := l.replay.takeWhile (fun f => !f.first)
  let kept := l.replay.drop gone.length
  let lostTx (c : Nat) : Bool :=
    gone.any (fun f => f.cls == c) ||
      ((at? l.classes c {}).sending.isSome && !kept.any (fun f => f.cls == c && f.first))
  let abort (c : Nat) : Bool := lostTx c && !kept.any (fun f => f.cls == c && f.first)
  let n := ((List.range 4).filter lostTx).length
    + ((List.range 4).filter (fun c => (at? l.classes c {}).rx.isSome)).length
  let own (c : Nat) : Nat × Nat :=
    let w := s.word (0x0F0110 + 256 * k + 4 * c)
    (bits w 31 24, bits w 11 0)
  (s.modLink k (fun l => { l with
    replay := kept, unsent := kept.length, oldest := 0, nextTx := kept.length % 4096, nextRx := 0, r := 0, t := 0
    replayAt := if kept = [] then none else some 0, resumed := false, fresh := false
    classes := l.classes.zipIdx.map (fun (c, i) => c.restart (at? l.partnerAdv i (0, 0)) (own i) (abort i)) })).countN
    (0x0F013C + 256 * k) 23 16 n

/-- The flits before a sequence acknowledged: freed from the replay buffer, and OLDEST, r and t
follow (R627, R629). -/
def Link.ack (l : Link) (d now : Nat) : Link :=
  if d = 0 then l else
  { l with replay := l.replay.drop d, oldest := (l.oldest + d) % 4096, r := 0, t := 0, lastAdvance := now,
           unsent := min l.unsent (l.replay.length - d)
           replayAt := match l.replayAt with
             | some i => if l.replay.length - d ≤ i - d then none else some (i - d)
             | none => none }

/-- A link leaves INIT for UP once both sides have seen each other (R622, R623). -/
def State.tryUp (s : State) (k : Nat) : State :=
  let l := s.link k
  if l.st ≠ .init ∨ !l.sentSeen ∨ !l.gotSeen then s
  else
    let resume := s.resumeOk k && l.partnerResume
    let d := sdiff12 l.partnerRx l.oldest
    if resume ∧ (d < 0 ∨ (l.out : Int) < d) then s.count (0x0F013C + 256 * k) 31 24
    else
      let cause := if resume then l.cause else if l.lastUp.isSome then 7 else 0
      let s1 := if resume then s.modLink k (fun l =>
          let a := l.ack d.toNat s.now
          { a with resumed := true, replayAt := if a.replay = [] then none else some 0 })
        else s.freshUp k
      let s2 := (s1.setLink k .up cause).modLink k (fun l => { l with
        lastUp := some (s.main.st.session, l.partnerSession), fresh := false, lastAdvance := s.now,
        lastStatus := s.now, uncovered := 0, uncoveredAt := none, nak := false, nakAt := none, due := [] })
      ((s2.linkNotice k 3 4 cause).endRetrain k 0).sendRoutes.moveMsgs

/-- An INIT flit received (R622): the body after the subtype. One with a reserved bit set, or whose NEXT_TX lies outside
the window of a link that would resume, is a protocol error (R630, R632). A partner that is this chip itself is
not used (R643), and one of another version leaves the link in INIT. -/
def State.rxInit (s : State) (k : Nat) (b : List Byte) : State :=
  let l := s.link k
  let reserved := bits (field b 1 1) 7 4 != 0 || field b 4 2 ≥ 4096 || field b 6 2 ≥ 4096 || field b 8 1 / 4 != 0
    || !(b.drop 25).all (· == 0#8)
  let resumes := !l.fresh && l.lastUp == some (s.main.st.session, field b 2 2) && bitOf (field b 8 1) 1
  let tx := sdiff12 (field b 6 2) l.nextRx
  if l.st ≠ .init then s
  else if reserved ∨ resumes ∧ (tx < 0 ∨ 1024 < tx) then s.count (0x0F013C + 256 * k) 31 24
  else if field b 0 1 ≠ 1 ∨ field b 2 2 = s.main.st.session ∧ field b 1 1 % 8 = s.self then s
  else
    (s.modLink k (fun l => { l with
      gotInit := true, partnerSession := field b 2 2, partnerMember := field b 1 1 % 8,
      partnerLink := field b 1 1 / 8 % 2, partnerRx := field b 4 2, gotSeen := l.gotSeen || bitOf (field b 8 1) 0
      partnerResume := bitOf (field b 8 1) 1
      partnerAdv := (List.range 4).map (fun c => (field b (9 + 4 * c) 2, field b (11 + 4 * c) 2)) })).tryUp k

/-! ### Acknowledgement and replay (R626 to R630) -/

/-- The credits that a STATUS or NAK returns, per class: HF and DF. -/
def creditsOf (b : List Byte) : List (Nat × Nat) :=
  (List.range 4).map (fun c => (field b (2 + 4 * c) 2, field b (4 + 4 * c) 2))

/-- Whether a returned count may be taken: it does not exceed what was advertised (R625). -/
def creditOk (adv old new sent : Nat) : Bool :=
  if sdiff 16 new old < 0 then true else decide (sdiff 16 (adv + new) sent ≤ adv)

/-- A class with the credits returned adopted (R625). -/
def StClass.credit (c : StClass) (h d : Nat) : StClass :=
  { c with phf := if sdiff 16 h c.phf < 0 then c.phf else h, pdf := if sdiff 16 d c.pdf < 0 then c.pdf else d }

/-- A STATUS or NAK received: the body after the subtype (R627, R628); the replay that a NAK asks for while the link is
PAUSED waits for UP (R638). -/
def State.rxStatus (s : State) (k : Nat) (b : List Byte) (nak : Bool) : State :=
  let l := s.link k
  let nr := field b 0 2
  let d := sdiff12 nr l.oldest
  let cr := creditsOf b
  let ok := decide (nr < 4096) && (b.drop 18).all (· == 0#8) && decide (0 ≤ d) && decide (d ≤ l.out)
    && (List.range 4).all (fun i =>
      let c := at? l.classes i {}
      let x := at? cr i (0, 0)
      creditOk c.advH c.phf x.1 c.hc && creditOk c.advD c.pdf x.2 c.dc)
  if l.st ≠ .up ∧ l.st ≠ .paused then s
  else if !ok then s.protoError k
  else
    let s1 := s.modLink k (fun l =>
      let a := l.ack d.toNat s.now
      { a with classes := a.classes.zipIdx.map (fun (c, i) => let x := at? cr i (0, 0); c.credit x.1 x.2) })
    if !nak then s1
    else if l.st = .paused then s1.modLink k (fun l => { l with trigger := true })
    else s1.replayTrigger k

/-- The idle conditions of R636: no flit outstanding and the transmit queues empty. -/
def Link.quiet (l : Link) : Bool :=
  l.replay == [] && l.classes.all (fun c => c.txq == [] && c.sending.isNone)

/-- An IDLE_REQ received (R636). -/
def State.rxIdleReq (s : State) (k : Nat) : State :=
  let l := s.link k
  if l.st ≠ .up then s
  else s.modLink k (fun l => { l with due := l.due ++ [(if l.quiet then 0x06 else 0x01, [])] })

/-- An IDLE_ACK received: the lanes go to electrical idle, and the link to SLEEP (R636). -/
def State.rxIdleAck (s : State) (k : Nat) : State :=
  let l := s.link k
  if l.st = .up && l.sleepOrder then
    ((((s.leaveUp k).setLink k .sleep l.cause).modLink k (fun l => { l with due := [], idleAt := none })).linkLanes k
      Lane.off).sendRoutes
  else s

/-- A RETRAIN received (R633). -/
def State.rxRetrain (s : State) (k cause : Nat) : State := s.retrain k cause false

/-! ### Receiving flits (R616, R618, R626, R632) -/

/-- A flit that fails (R616, R626): a NAK becomes pending, unless one already is. -/
def State.failFlit (s : State) (k : Nat) : State :=
  if (s.link k).nak then s
  else (s.modLink k (fun l => { l with nak := true, nakAt := none })).count (0x0F0134 + 256 * k) 31 16

/-- A message complete in a receive buffer: a reserved TYPE for this member is discarded and counted
(Table SK-2), one for another member is forwarded where its route takes it (R645). -/
def State.messageIn (s : State) (k cls : Nat) (w : Waiting) : State :=
  let type := field w.msg.bytes 0 1
  let s1 := s.modLink k (fun l => l.modClass cls (fun c => { c with rx := none, wait := c.wait ++ [w] }))
  if w.msg.dest = s.self then
    if type = 0 ∨ 0x11 < type then (s1.freeWaiting k cls w).count 0x10000C 31 16 else s1
  else s1.forwardAll

/-- An accepted TRAFFIC flit whose content is discarded as a protocol error: it has left the receive
buffer. -/
def State.dropFlit (s : State) (k cls : Nat) : State :=
  (s.modLink k (fun l => l.modClass cls (fun c => { c with rd := (c.rd + 1) % 65536, df := (c.df + 1) % 65536 }))).protoError k

/-- An accepted TRAFFIC flit (R616, R618, R625, R632). -/
def State.rxTraffic (s : State) (k h : Nat) (body : List Byte) : State :=
  let cls := bits h 13 12
  let first := bitOf h 11
  let last := bitOf h 10
  let fill := bits h 9 5
  let dest := bits h 4 2
  let l := s.link k
  let c := at? l.classes cls {}
  let s0 := s.modLink k (fun l => { l with
    nextRx := (l.nextRx + 1) % 4096, nak := false, nakAt := none, uncovered := l.uncovered + 1
    uncoveredAt := some (l.uncoveredAt.getD s.now)
    due := if l.uncovered = 31 then l.due ++ [(0x01, [])] else l.due })
  let dataOk := decide (1 ≤ sdiff 16 (c.ownD + c.df) c.rd)
  let headOk := !first || decide (1 ≤ sdiff 16 (c.ownH + c.hf) c.rh)
  let n := match c.rx with | some p => p.flits + 1 | none => 1
  let bad := h % 4 != 0 || fill == 0 || decide (27 < fill) || !dataOk || !headOk || (first && c.rx.isSome)
    || (!first && c.rx.isNone) || decide (1024 < n)
  if bad then s0.dropFlit k cls
  else
    let t := s.main.nt.sec * 1000000000 + s.main.nt.ns
    let p : Partial := match c.rx with
      | some p => { p with flits := n, bytes := p.bytes ++ body.take fill }
      | none => ⟨dest, 1, body.take fill, t, false⟩
    let s1 := s0.modLink k (fun l => l.modClass cls (fun c => { c with
      rd := (c.rd + 1) % 65536, rh := if first then (c.rh + 1) % 65536 else c.rh, rx := some p }))
    let w : Waiting := ⟨⟨cls, p.dest, p.bytes⟩, p.flits, true, p.at_⟩
    if !last then s1
    else if p.lost then (s1.modLink k (fun l => l.modClass cls (fun c => { c with rx := none }))).freeWaiting k cls w
    else s1.messageIn k cls w

/-- A LINK flit that has passed its CRC (R621). -/
def State.rxLink (s : State) (k : Nat) (body : List Byte) : State :=
  let b := body.drop 1
  match field body 0 1 with
  | 0x01 => s.rxStatus k b false
  | 0x02 => s.rxStatus k b true
  | 0x03 => s.rxInit k b
  | 0x04 => if (b.drop 1).all (· == 0#8) then s.rxRetrain k (field b 0 1) else s.protoError k
  | 0x05 => if b.all (· == 0#8) then s.rxIdleReq k else s.protoError k
  | 0x06 => if b.all (· == 0#8) then s.rxIdleAck k else s.protoError k
  | _ => s.protoError k

/-- A slot filled with the training pattern, 32 symbols of D21.5 (R633). -/
def trainingSlot : List Byte := List.replicate 32 0xB5#8

/-- The partner's slots are found filled with the training pattern (R633): the link retrains. DESIGN CHOICE (log entry
138): one such slot is enough, and the cause this side gives is a free value. -/
def State.partnerTrains (s : State) (k : Nat) : State :=
  let (x, s1) := s.draw
  s1.retrain k (x % 8) false

/-- What FLIT_RX does (R613, R616, R632): a K-code in the slot fails the flit. -/
def State.flitRx (s : State) (k : Nat) (flit : List Byte) (kcode : Bool) : State :=
  let l := s.link k
  let h := field flit 0 2
  let body := bytesAt flit 2 27
  let kind := bits h 15 14
  let seq := if kind = 2 then l.nextRx else 0
  let pass := !kcode && field flit 29 3 == flitCrc seq (bytesAt flit 0 2) body
  if 2 ≤ k then s
  else match l.st with
    | .up =>
      if flit = trainingSlot ∧ !kcode then s.partnerTrains k
      else if !pass then s.failFlit k
      else match kind with
        | 0 => if h % 16384 = 0 then s else s.protoError k
        | 1 => if h % 16384 = 0 then s.rxLink k body else s.protoError k
        | 2 => s.rxTraffic k h body
        | _ => s.protoError k
    | .init => if pass && kind == 1 && h % 16384 == 0 && field body 0 1 == 3 then s.rxInit k (body.drop 1) else s
    | _ => s

/-! ### Sending flits (R619, R622, R625, R626) -/

/-- The body of a STATUS or NAK after its subtype. -/
def Link.statusBody (l : Link) : List Byte :=
  be 2 l.nextRx ++ l.classes.flatMap (fun c => be 2 c.hf ++ be 2 c.df)

/-- A flit leaves on the link. -/
def State.sent (s : State) (k : Nat) (f : Option (List Byte)) : State := s.modLink k (fun l => { l with lastFlit := f })

/-- A STATUS or NAK covers what was accepted (R626). -/
def State.sentStatus (s : State) (k : Nat) (sub : Nat) : State :=
  (s.modLink k (fun l => { l with uncovered := 0, uncoveredAt := none, lastStatus := s.now })).sent k
    (some (linkFlit sub (s.link k).statusBody))

/-- Whether a class has a flit ready for its first sending (R619, R625, R627). -/
def Link.ready (l : Link) (cls : Nat) : Bool :=
  let c := at? l.classes cls {}
  let a := c.avail
  decide (l.out < 1024) && (match c.sending with
    | some _ => decide (1 ≤ a.2)
    | none => c.txq != [] && decide (1 ≤ a.1) && decide (1 ≤ a.2))

/-- The class that a slot serves: TIME, CONTROL, then METER and BULK in the ratio of their weights. -/
def State.pickClass (s : State) (k : Nat) : Option Nat :=
  let l := s.link k
  if l.ready 1 then some 1
  else if l.ready 0 then some 0
  else match l.ready 2, l.ready 3 with
    | true, true => if l.wrr.1 < bits (s.linkCfg k) 19 16 then some 2 else some 3
    | true, false => some 2
    | false, true => some 3
    | false, false => none

/-- The service of METER and BULK counted in their round. -/
def Link.served (l : Link) (cls wm wb : Nat) : Link :=
  if cls < 2 then l
  else
    let (m, b) := l.wrr
    let n := if cls = 2 then (min wm (m + 1), b) else (m, b + 1)
    { l with wrr := if wm ≤ n.1 ∧ wb ≤ n.2 then (0, 0) else n }

/-- A TIME message takes network time at its timestamp point as its first flit leaves (R651, R652): the
model's layout, a kind byte then t1 or nothing (log entry 12). -/
def State.stampTime (s : State) (m : StMsg) : StMsg :=
  if m.cls = 1 ∧ field m.bytes 8 1 = 0 then
    { m with bytes := m.bytes.take 9 ++ be 6 s.main.nt.sec ++ be 4 s.main.nt.ns ++ m.bytes.drop 19 }
  else m

/-- This side's timestamp t3 recorded as its TIME_REQ leaves (R652). -/
def State.noteReq (s : State) (m : StMsg) : State :=
  if m.cls = 1 ∧ field m.bytes 8 1 = 1 then
    let t : Int := s.main.nt.sec * 1000000000 + s.main.nt.ns
    { s with main := { s.main with sk := { s.main.sk with
      exch := s.main.sk.exch.map (fun e => { e with t3 := t }) } } }
  else s

/-- The next flit of a class sent for the first time (R617, R618, R625). -/
def State.sendNew (s : State) (k cls : Nat) : State :=
  let l := s.link k
  let c := at? l.classes cls {}
  let start : Option (StMsg × Nat) := match c.sending with
    | some x => some x
    | none => match c.txq with
      | m :: _ => some (s.stampTime m, 0)
      | [] => none
  match start with
  | none => s.sent k (some idleFlit)
  | some (m, off) =>
    let first := off == 0
    let last := decide (m.bytes.length ≤ off + 27)
    let f : RFlit := ⟨cls, first, last, m.dest, (m.bytes.drop off).take 27⟩
    let s1 := s.modLink k (fun l =>
      let l1 := l.modClass cls (fun c => { c with
        txq := if c.sending.isSome then c.txq else c.txq.drop 1
        sending := if last then none else some (m, off + 27)
        hc := if first then (c.hc + 1) % 65536 else c.hc, dc := (c.dc + 1) % 65536 })
      { (l1.served cls (bits (s.linkCfg k) 19 16) (bits (s.linkCfg k) 15 12)) with
        replay := l1.replay ++ [f], nextTx := (l1.nextTx + 1) % 4096,
        lastAdvance := if l1.replay = [] then s.now else l1.lastAdvance })
    let base := 0x68000 + k * 4096 + l.nextTx % 1024 * 4
    let s2 := (s1.modMem (fun m => { m with poison := m.poison.filter (fun w => !(decide (base ≤ w) && decide (w < base + 4))) })).sent
      k (some (f.bytes l.nextTx))
    if first then (s2.noteReq m).moveMsgs else s2

/-- The message that holds a damaged replay entry leaves the replay buffer (R638): the flits of its
class from its FIRST to its LAST around position `i`. -/
def dropMessage (cls i : Nat) (l : List RFlit) : List RFlit :=
  let before := (l.take i).zipIdx.filter (fun (f, _) => f.cls == cls && f.last)
  let a := match before.getLast? with | some (_, j) => j + 1 | none => 0
  let after := (l.drop i).zipIdx.find? (fun (f, _) => f.cls == cls && f.last)
  let b := match after with | some (_, j) => i + j | none => l.length
  (l.zipIdx.filter (fun (f, j) => !(f.cls == cls && decide (a ≤ j) && decide (j ≤ b)))).map (·.1)

/-- A replay entry found poisoned (R638): reported, its message lost, and the link marked to start
fresh and retrained; the cause it gives is a free value. -/
def State.replayPoisoned (s : State) (k i : Nat) (f : RFlit) : State :=
  let seq := ((s.link k).oldest + i) % 1024
  let a := 0x340000 + k * 0x8000 + seq * 32
  let (x, s1) := (s.poisonedRead a (s.main.mm.physical (a / 131072)) 0x0F).draw
  let open_ := !((s.link k).replay.drop i).any (fun g => g.cls == f.cls && g.last)
  let s2 := (s1.modLink k (fun l => { (if open_ then l.modClass f.cls (fun c => { c with sending := none }) else l) with
    replay := dropMessage f.cls i l.replay, fresh := true })).count (0x0F013C + 256 * k) 23 16
  s2.retrain k (x % 8) true

/-- The next flit of a replay, or of the flits renumbered by a fresh start, which take credit
(R623, R625, R628). -/
def State.sendReplay (s : State) (k i : Nat) : State :=
  let l := s.link k
  match l.replay[i]? with
  | none => (s.modLink k (fun l => { l with replayAt := none })).sent k (some idleFlit)
  | some f =>
    let base := 0x68000 + k * 4096 + (l.oldest + i) % 1024 * 4
    if s.main.mm.poison.any (fun w => decide (base ≤ w) && decide (w < base + 4)) then s.replayPoisoned k i f
    else
      let new := decide (l.out - l.unsent ≤ i)
      let a := (at? l.classes f.cls {}).avail
      if new && (decide (a.2 < 1) || (f.first && decide (a.1 < 1))) then s.sent k (some idleFlit)
      else
        (s.modLink k (fun l =>
          let l1 := if new then l.modClass f.cls (fun c => { c with
              hc := if f.first then (c.hc + 1) % 65536 else c.hc, dc := (c.dc + 1) % 65536 }) else l
          { l1 with unsent := if new then l1.unsent - 1 else l1.unsent,
                    replayAt := if i + 1 < l1.out then some (i + 1) else none })).sent
          k (some (f.bytes (l.oldest + i)))

/-- What FLIT_SLOT does for an UP link (R619, R626). -/
def State.slotUp (s : State) (k : Nat) : State :=
  let l := s.link k
  if l.nak ∧ l.nakAt = none then
    ((s.modLink k (fun l => { l with nakAt := some s.now })).sentStatus k 0x02).count (0x0F0134 + 256 * k) 15 0
  else match l.due with
    | (0x06, _) :: t =>
      if l.quiet then
        ((((s.leaveUp k).setLink k .sleep l.cause).modLink k (fun l => { l with due := [] })).linkLanes k
          Lane.off).sendRoutes.sent k
          (some (linkFlit 0x06 []))
      else (s.modLink k (fun l => { l with due := t })).sentStatus k 0x01
    | (0x01, _) :: t => (s.modLink k (fun l => { l with due := t })).sentStatus k 0x01
    | (sub, b) :: t => (s.modLink k (fun l => { l with due := t })).sent k (some (linkFlit sub b))
    | [] =>
      let ask := l.sleepOrder && l.quiet && (match l.idleAt with | some t => decide (t + 2560 ≤ s.now) | none => true)
      if ask then (s.modLink k (fun l => { l with idleAt := some s.now })).sent k (some (linkFlit 0x05 []))
      else match l.replayAt with
        | some i => s.sendReplay k i
        | none => match s.pickClass k with
          | some c => s.sendNew k c
          | none => s.sent k (some idleFlit)

/-- What FLIT_SLOT does (R619, R622, R631, R633). -/
def State.flitSlot (s : State) (k : Nat) : State :=
  if 2 ≤ k then s else
  let l := s.link k
  match l.st with
  | .disabled | .sleep | .paused => s.sent k none
  | .down => s.sent k (some idleFlit)
  | .training => match l.due with
    | (sub, b) :: t => (s.modLink k (fun l => { l with due := t })).sent k (some (linkFlit sub b))
    | [] => s.sent k none
  | .init =>
    let s1 := s.modLink k (fun l => { l with slots := l.slots + 1 })
    if l.slots % 32 = 0 then
      ((s1.modLink k (fun l => { l with sentSeen := l.sentSeen || l.gotInit })).sent k
        (some (linkFlit 0x03 (s.initBody k)))).tryUp k
    else s1.sent k (some idleFlit)
  | .up => s.slotUp k

/-! ### Timers (R626, R628, R631, R637) -/

/-- What STATUS_TIMER does: 2 µs after an uncovered flit, every 8 µs, and a NAK outstanding for 4 µs. -/
def State.statusTimer (s : State) (k : Nat) : State :=
  let l := s.link k
  if l.st ≠ .up then s
  else
    let nak := l.nak && (match l.nakAt with | some t => decide (t + 1280 ≤ s.now) | none => false)
    let st := (match l.uncoveredAt with | some t => decide (t + 640 ≤ s.now) | none => false)
      || decide (l.lastStatus + 2560 ≤ s.now)
    s.modLink k (fun l => { l with
      nakAt := if nak then none else l.nakAt
      due := if st && !l.due.any (fun d => d.1 == 0x01) then l.due ++ [(0x01, [])] else l.due })

/-- What ACK_TIMEOUT does (R628). -/
def State.ackTimeout (s : State) (k : Nat) : State :=
  let l := s.link k
  if l.st = .up ∧ l.out ≠ 0 ∧ l.lastAdvance + 5120 ≤ s.now then
    ((s.count (0x0F013C + 256 * k) 7 0).modLink k (fun l => { l with lastAdvance := s.now })).replayTrigger k
  else s

/-- The lane of a position of a link (Table LN-8): `map` is one byte of LN_MAPn. -/
def mapLane (map pos : Nat) : Nat := if pos = 0 then bits map 7 6 else if pos = 1 then bits map 5 4 else bits map 3 2

end Sys2Proof.Machine
end

