-- ==== Sys2Proof/Machine/Lanes.lean ====
section
/-! DEFINITION. The serial lanes (08): loss of signal and of lock, the transmit monitor, markers and sparing,
eye margins, the training of the Strait links on them, and the LN and ST opcodes. -/

namespace Sys2Proof.Machine

/-! ### Lanes -/

/-- LN_Lk_CFG. -/
def lnCfg (n : Nat) : Nat := 0x040100 + 16 * n
/-- LN_Lk_STAT. -/
def lnStat (n : Nat) : Nat := 0x040104 + 16 * n
/-- LN_Lk_ERR. -/
def lnErr (n : Nat) : Nat := 0x04010C + 16 * n

/-- The Strait link of a lane, and its number within the link (Table LN-1). -/
def linkOfLane (n : Nat) : Option (Nat × Nat) :=
  if 2 ≤ n ∧ n ≤ 7 then some ((n - 2) / 3, (n - 2) % 3) else none

/-- A lane is powered down in Smoulder, all but the tree lane in use (R280), and in electrical idle while its link is
DISABLED or in SLEEP (Table ST-3). -/
def State.laneIdle (s : State) (n : Nat) : Bool :=
  (s.hearth.ps == .smoulder && n != s.main.td.active) ||
    match linkOfLane n with
    | some (k, _) => (s.link k).st == .disabled || (s.link k).st == .sleep
    | none => false

/-- Whether a lane is enabled and its receiver runs: no lane starts once the calibration of step 6 has failed
(R288). -/
def State.laneOn (s : State) (n : Nat) : Bool :=
  decide (n < 9) && s.bit (lnCfg n) 31 && !s.main.boot.noLanes && !s.laneIdle n

/-- Whether a lane is locked (R265). -/
def State.laneLocked (s : State) (n : Nat) : Bool := s.laneOn n && !(s.lane n).los && (s.lane n).locked

/-- The receive map of a link. -/
def State.rxMap (s : State) (k : Nat) : Nat := at? s.hearth.maps k 0x1A1A / 256

/-- The transmit map of a link. -/
def State.txMap (s : State) (k : Nat) : Nat := at? s.hearth.maps k 0x1A1A % 256

/-- The maps of a link retained in the Hearth (R277). -/
def State.setMap (s : State) (k rx tx : Nat) : State :=
  { s with hearth := { s.hearth with maps := s.hearth.maps.set k (rx * 256 + tx) } }

/-- A map after a swap of a position to the spare: the failed lane takes the spare's place, not
valid (R274). -/
def swapMap (m pos : Nat) : Nat :=
  let sp := mapLane m 2
  let old := mapLane m pos
  if pos = 0 then sp * 64 + bits m 5 4 * 16 + old * 4 else bits m 7 6 * 64 + sp * 16 + old * 4

/-- The spare of a link is valid (Table LN-8). -/
def State.spareValid (s : State) (k : Nat) : Bool := bitOf (s.rxMap k) 1

/-- The role that a map gives a lane of its link: position 0 or 1, spare 2, quiet 3 (Table LN-8). -/
def mapRole (m i : Nat) : Nat :=
  if mapLane m 0 = i then 0 else if mapLane m 1 = i then 1 else if bitOf m 1 then 2 else 3

/-- The receive role of a lane of a link. -/
def State.laneRole (s : State) (k i : Nat) : Nat := mapRole (s.rxMap k) i

/-! ### Sparing (R273 to R277, R282) -/

/-- A swap abandoned (R282): the operation that forced it ends, and a paused link goes down. -/
def State.dropSwap (s : State) (k : Nat) : State :=
  if (s.swap k).rx.isSome then (s.endSwap k 0x0400).abandonSwap k else s

/-- A lane of a Strait link has failed: what it showed before does not count for R276. `hard` says that it shows LOS or
LOL, which retrains an UP link that has no valid spare (Table ST-4); `force`, that a swap is made whatever AUTO (R633).
The lane that is being swapped fails no second time; a second active lane, or the spare, ends the swap (R282). -/
def State.laneFailed (s : State) (n : Nat) (hard force : Bool) (op : Option Nat) : State :=
  match linkOfLane n with
  | none => s
  | some (k, i) =>
    let role := s.laneRole k i
    let s1 := s.modLane n (fun l => { l with cleanSince := if l.locked then some s.now else none })
    match (s.swap k).rx with
    | some (pos, _) =>
      if role = pos ∨ role = 3 then s1
      else if role = 2 then (s1.setMap k (s.rxMap k / 4 * 4) (s.txMap k)).dropSwap k
      else s1.dropSwap k
    | none =>
      if 2 ≤ role then s1.setMap k (s.rxMap k / 4 * 4) (s.txMap k)
      else if s.spareValid k ∧ (s.bit 0x040008 0 ∨ force) then
        (s1.modSwap k (fun w => { w with rx := some (role, op) })).pauseLink k
      else if !s.spareValid k && hard then s1.retrain k 3 true
      else s1

/-- LN_SPARE queued and recorded (R277). -/
def State.spareEvent (s : State) (k dir pos kind map : Nat) : State :=
  let c := [byte k, byte dir, byte pos, byte kind, byte map]
  (s.ash 0x04 0x02 c).notify 0x0403 false c

/-- The receiver re-steers a position to the spare (R274, R275). -/
def State.resteer (s : State) (k pos : Nat) (op : Option Nat) : State :=
  let old := laneOf k (mapLane (s.rxMap k) pos)
  let m := swapMap (s.rxMap k) pos
  let s1 := ((s.setMap k m (s.txMap k)).modSwap k (fun w => { w with rx := none })).eyeLost old
  ((s1.spareEvent k 0 pos 0 m).finish? op 0 []).resumeLink k

/-- The transmitter accepts a request: from its next marker the position is on the spare (R274). -/
def State.acceptSwap (s : State) (k pos : Nat) : State :=
  let m := swapMap (s.txMap k) pos
  ((s.setMap k (s.rxMap k) m).modSwap k (fun w => { w with accepted := true })).spareEvent k 1 pos 0 m

/-- The symbols K28.5 and K28.0 of a marker; a data symbol is its byte. -/
def k28_5 : Nat := 0x1BC
def k28_0 : Nat := 0x11C

/-- The marker that a lane of a link sends (Table LN-3): its role in the transmit map, and the position that the
receiver asks for. -/
def State.marker (s : State) (k i : Nat) : List Nat :=
  let ctrl := match (s.swap k).rx with | some (pos, _) => 8 + 2 * pos | none => 0
  [k28_5, mapRole (s.txMap k) i, ctrl, k28_0]

/-- The LANE_ID and CTRL of a received marker: SKIP may have been deleted or repeated (R272). One with another symbol, or
with a reserved bit set, carries nothing. -/
def markerOf (symbols : List Nat) : Option (Nat × Nat) :=
  match symbols with
  | a :: id :: ctrl :: skips =>
    if a = k28_5 ∧ id < 4 ∧ ctrl < 16 ∧ ctrl % 2 = 0 ∧ skips.all (· == k28_0) then some (id, ctrl) else none
  | _ => none

/-- A lane's marker has no request, or none of this position, before the one it carries now: how often in a row it has
asked (R274). -/
def State.sawRequest (s : State) (k i ctrl : Nat) : State :=
  let pos := bits ctrl 2 1
  if bitOf ctrl 3 ∧ pos < 2 then
    let old := at? (s.swap k).req i (0, 0)
    let n := if old.1 = pos then old.2 + 1 else 1
    let s1 := s.modSwap k (fun w => { w with req := w.req.set i (pos, n) })
    if 2 ≤ n ∧ !(s.swap k).accepted then s1.acceptSwap k pos else s1
  else s.modSwap k (fun w => { w with req := List.replicate 3 (0, 0), accepted := false })

/-- What LANE_MARKER does (R272, R274): the request that it carries, and the position arriving on the spare lane. More
than 64 symbols of skew cannot be deskewed, and a marker that carries nothing interrupts its lane's run. -/
def State.laneMarker (s : State) (k i skew : Nat) (symbols : List Nat) : State :=
  if 2 ≤ k ∨ 3 ≤ i ∨ 64 < skew ∨ !s.laneOn (laneOf k i) then s
  else match markerOf symbols with
    | none => s.modSwap k (fun w => { w with req := w.req.set i (0, 0) })
    | some (id, ctrl) =>
      let s1 := s.sawRequest k i ctrl
      match (s1.swap k).rx with
      | some (p, op) => if id = p ∧ i = mapLane (s1.rxMap k) 2 then s1.resteer k p op else s1
      | none => s1

/-- What LANE_FAIL does: LOS, LOL, or more than CV_LIMIT violations in a window (R273); and, in TRAINING, an active lane
that has not locked in 0.5 ms, or that shows a code violation (R633). -/
def State.laneFail (s : State) (n cv : Nat) : State :=
  let hard := (s.lane n).los || (s.lane n).lol
  let training : Bool := match linkOfLane n with
    | some (k, _) => (s.link k).st == .training && (cv != 0 || (!s.laneLocked n && decide ((s.link k).since + msT / 2 ≤ s.now)))
    | none => false
  if !s.laneOn n then s
  else if training then s.laneFailed n hard true none
  else if s.bit 0x040008 0 && (hard || decide (s.fld 0x040008 31 24 < cv)) then s.laneFailed n hard false none
  else s

/-- What LANE_REQUALIFY does (R276, R277): the failed lane becomes the link's spare again. -/
def State.laneRequalify (s : State) (n : Nat) : State :=
  match linkOfLane n, (s.lane n).cleanSince with
  | some (k, i), some t =>
    if s.laneLocked n ∧ s.laneRole k i = 3 ∧ (s.swap k).rx = none ∧ t + s.fld 0x040008 23 16 * secT ≤ s.now then
      let m := s.rxMap k + 2
      (s.setMap k m (s.txMap k)).spareEvent k 0 2 1 m
    else s
  | _, _ => s

/-! ### Loss of signal and of lock (R263 to R265, R281, R287) -/

/-- LN_LOS queued: flags bit 0 LOS, bit 1 LOL, bit 2 cleared (Table LN-7). -/
def State.losNotice (s : State) (n flags : Nat) : State := s.notify 0x0401 false [byte n, byte flags]

/-- LN_LOS of a lane that has declared LOL in this window already: one notice reports both (R281), the one that waits
where it has not been placed, else this one. -/
def State.losBoth (s : State) (n : Nat) : State :=
  let hit (d : Notice) : Bool :=
    d.code == 0x0401 && d.member == s.self && !d.placed && d.bytes.drop 16 == [byte n, 2#8]
  if s.main.cmd.notices.any hit then
    s.modCmd (fun c => { c with notices := c.notices.map (fun d =>
      if hit d then { d with bytes := d.bytes.take 16 ++ [byte n, 3#8] } else d) })
  else s.losNotice n 3

/-- LOL declared on a lane (R265): latched and counted where it is not declared yet; a measurement on it ends. -/
def State.lolDeclared (s : State) (n : Nat) : State :=
  let s1 := s.laneOut n (fun l => { l.unlock with lol := true, lolNew := l.lolNew || !l.lol })
  if (s.lane n).lol then s1 else (s1.latchFld (lnStat n) 4 4 1).count (lnErr n) 7 0

/-- LOS declared on a lane by one of its two causes, the other giving none yet: latched, counted, and LOL with it (R265,
R281). -/
def State.losNow (s : State) (n : Nat) : State :=
  let l := s.lane n
  let s1 := ((s.count (lnErr n) 15 8).latchFld (lnStat n) 5 5 1).lolDeclared n
  (if l.lolNew then s1.losBoth n else s1.losNotice n (if l.lol then 1 else 3)).laneFailed n true false none

/-- What LOS_DECLARED does, by the detector, or by TREE_SDn (R263, R264). -/
def State.losDeclared (s : State) (n : Nat) (sd : Bool) : State :=
  let l := s.lane n
  if sd then
    if 2 ≤ n ∨ l.sdLow then s
    else
      let s1 := s.modLane n (fun l => { l with sdLow := true })
      if s.laneOn n ∧ !l.det then s1.losNow n else s1
  else if !s.laneOn n ∨ l.det then s
  else
    let s1 := s.modLane n (fun l => { l with det := true })
    if l.sdLow then s1 else s1.losNow n

/-- What LOS_CLEARED does, by the detector, or by TREE_SDn (R263, R264): LOS clears when neither gives it. A DOWN link of
the lane trains (Table ST-4). -/
def State.losCleared (s : State) (n : Nat) (sd : Bool) : State :=
  let was := (s.lane n).los
  let s1 := s.modLane n (fun l => if sd then { l with sdLow := false } else { l with det := false })
  if !was ∨ (s1.lane n).los ∨ !s.laneOn n then s1
  else
    let s2 := s1.losNotice n 5
    match linkOfLane n with
    | some (k, _) => if (s2.link k).st = .down then s2.train k (s2.link k).cause else s2
    | none => s2

/-- The transmitters held dark for an unlocked PLL may light again once the tree lane in use is locked (R287). -/
def State.pllFollow (s : State) : State :=
  if s.main.ln.pllHold && s.laneLocked s.main.td.active then
    { s with main := { s.main with ln := { s.main.ln with pllHold := false } } }
  else s

/-- A lane locks: LOL that stands is over (R265). In mode 1 the equaliser of L8 freezes at what it adapted to, a free
value (R266). -/
def State.lockNow (s : State) (n : Nat) : State :=
  let lol := (s.lane n).lol
  let s1 := s.modLane n (fun l => { l with lol := false, locked := true, cleanSince := some s.now })
  let s2 := if n = 8 ∧ s.fld (lnCfg n) 30 29 = 1 then
      let (e, x) := s1.draw
      x.modLane n (fun l => { l with eq := e % 16 })
    else s1
  (if lol then s2.losNotice n 6 else s2).pllFollow

/-- In mode 2 a locked lane's equaliser goes on adapting: a free value at each window (R266). -/
def State.adapt (s : State) (n : Nat) : State :=
  if s.laneLocked n ∧ s.fld (lnCfg n) 30 29 = 2 then
    let (e, x) := s.draw
    x.modLane n (fun l => { l with eq := e % 16 })
  else s

/-- What LOCK_WINDOW_END does (R265): more than 500 ppm, or the integrator at its limit, is LOL; two
consecutive windows within 250 ppm with LOS clear are lock. A code violation breaks the lane's clean time (R276). -/
def State.lockWindow (s : State) (n : Nat) (off : Int) (atLimit : Bool) (cv : Nat) : State :=
  if !s.laneOn n then s else
  let l := s.lane n
  let s1 := (s.modLane n (fun l => { l with
    foff := max (-32768) (min 32767 off)
    lolNew := false
    cleanSince := if cv = 0 then l.cleanSince else l.cleanSince.map (fun _ => s.now) })).countN (lnErr n) 31 16 cv
  if l.los then s1
  else if atLimit || decide (5000 < off) || decide (off < -5000) then
    if l.lol then s1.modLane n (fun l => { l with good := 0 })
    else (((s1.lolDeclared n).losNotice n 2).laneFailed n true false none).modLane n (fun l => { l with lolNew := false })
  else if -2500 ≤ off ∧ off ≤ 2500 then
    let s2 := s1.modLane n (fun l => { l with good := l.good + 1 })
    (if !l.locked ∧ 1 ≤ l.good then s2.lockNow n else s2).adapt n
  else (s1.modLane n (fun l => { l with good := 0 })).adapt n

/-- What PLL_UNLOCK does (R287): every enabled lane of the PLL declares LOL and reports it, and the tree transmitters go
dark until the tree lane in use is locked. -/
def State.pllUnlock (s : State) (map : Nat) : State :=
  let ls := (List.range 9).filter (fun n => bitOf map n && s.laneOn n)
  let s1 := ls.foldl (fun x n =>
    let y := x.lolDeclared n
    (if (x.lane n).lolNew then y else y.losNotice n 2).laneFailed n true false none) s
  let s2 := s1.ash 0x04 0x03 (be 2 ((ls.map (fun n => 2 ^ n)).sum))
  if ls = [] then s
  else State.pllFollow { s2 with main := { s2.main with ln := { s2.main.ln with pllHold := true } } }

/-! ### The transmit monitor (R267, R270, R271) -/

/-- A rogue is latched on a tree lane. -/
def State.rogueLatched (s : State) (n : Nat) : Bool := s.bit 0x040000 n

/-- Whether a lane lies between LEAD before a burst of its own and LAG after it (R267, R270): TREE_BENn is high there. -/
def State.inBurst (s : State) (n : Nat) : Bool :=
  let u := s.main.up
  u.current.any (fun b => b.lane == n)
    || u.bursts.any (fun b => b.lane == n && decide (b.start ≤ s.now + 4 * s.fld 0x040000 12 8))
    || (u.sentLane == some n && decide (s.now < u.sentEnd + 4 * s.fld 0x040000 20 16))

/-- What ROGUE does (R270): outside a granted burst, the laser is held dark, recorded and alarmed. -/
def State.rogue (s : State) (n cause : Nat) : State :=
  if 2 ≤ n ∨ !s.main.out ∨ s.inBurst n then s
  else
    let s1 := s.modLane n (fun l => { l with rogueAt := some s.now })
    if s.rogueLatched n then s1
    else
      let c := [byte n, byte cause]
      (((s1.setFld 0x040000 n n 1).count 0x040004 15 0).ash 0x04 0x01 c).notify 0x0402 true c

/-! ### Eye margins (R278, R279) -/

/-- What EYE_PERIODIC does: a horizontal opening is measured, with DWELL 20, on every locked receiver. -/
def State.eyePeriodic (s : State) : State :=
  let p := s.fld 0x040008 15 8
  if !s.main.out ∨ p = 0 ∨ s.now < s.main.ln.eyeAt + p * 60 * secT then s
  else
    let s1 := (List.range 9).foldl (fun x n =>
      if x.laneLocked n ∧ (x.lane n).eye = none then x.modLane n (fun l => { l with eye := some { op := none, mode := 0 } })
      else x) s
    { s1 with main := { s1.main with ln := { s1.main.ln with eyeAt := s.now } } }

/-- The opening of a row of points, each with its mismatches, about its centre `c`: the passing points contiguous with
the centre, the centre among them; none where the centre does not pass (R278). -/
def opening (counts : List Nat) (c : Nat) : Nat :=
  let run (l : List Nat) : Nat := (l.takeWhile (· == 0)).length
  if at? counts c 1 = 0 then run (counts.drop c) + run ((counts.take c).reverse) else 0

/-- Whether counts cover the points of a measurement: 65 in phase at zero voltage, then, where an opcode asked for both openings,
127 in voltage at the centre phase; or the one point (R278, R279). -/
def Eye.covers (e : Eye) (phase volt : List Nat) : Bool :=
  e.mode == 1 || (phase.length == 65 && (e.op.isNone || volt.length == 127))

/-- What EYE_MEASUREMENT_DONE does with the mismatches counted at each point: the reply, or LN_MARGIN and, with
EYE_SPARE, a lane failure. -/
def State.eyeDone (s : State) (n : Nat) (phase volt : List Nat) (point : Nat) : State :=
  match (s.lane n).eye with
  | none => s
  | some e =>
    if !e.covers phase volt then s
    else
      let h := opening phase 32
      let v := opening volt 63
      let s1 := s.modLane n (fun l => { l with eye := none })
      match e.op with
      | some op => s1.finish op 0 (if e.mode = 0 then [byte h, byte v] else be 4 (sat 0xFFFFFFFF point))
      | none =>
        if h < s.fld 0x040008 7 2 then
          let s2 := s1.notify 0x0404 false [byte n, byte h]
          let active := match linkOfLane n with | some (k, i) => decide (s.laneRole k i < 2) | none => false
          if active && s.bit 0x040008 1 && s.bit 0x040008 0 then s2.laneFailed n false false none else s2
        else s1

/-! ### Training of the links on their lanes (R631, R640) -/

/-- A receiver starts: LOS stands at once where TREE_SDn is low already. -/
def State.wakeLane (s : State) (n : Nat) : State :=
  let s1 := s.modLane n Lane.off
  if s.laneOn n && (s.lane n).sdLow then s1.losNow n else s1

/-- A lane is enabled in step 6. -/
def State.startLane (s : State) (n : Nat) : State := (s.setFld (lnCfg n) 31 31 1).wakeLane n

/-- Lanes and links started in step 6 (R290, R640): both tree lanes of a member strapped TREE_EN, the
lanes of each enabled link, and L8 where the configuration enables Ethernet port E0. -/
def State.lanesStart (s : State) : State :=
  let s1 := if s.main.boot.treeEn then (s.startLane 0).startLane 1 else s
  let s2 := (List.range 2).foldl (fun x k =>
    if bitOf (x.linkCfg k) 31 then (List.range 3).foldl (fun y i => y.startLane (laneOf k i)) x else x) s1
  let s3 := if s2.bit 0x0A0100 31 then s2.startLane 8 else s2
  s3.straitStart

/-- The lanes that Smoulder powers down (R280, R284). -/
def State.lanesSleep (s : State) : State :=
  (List.range 9).foldl (fun x n => if n = x.main.td.active then x else x.laneOut n Lane.off) s

/-- The lanes that the return from Smoulder powers up again (R280). -/
def State.lanesReturn (s : State) : State :=
  (List.range 9).foldl (fun x n => if n = x.main.td.active then x else x.wakeLane n) s

/-- What TRAINING_DONE does (Table ST-4): both positions locked, and no swap in progress (R638); equalisers in mode 1
freeze at what each adapted to, a free value (R266). -/
def State.trainingDone (s : State) (k : Nat) : State :=
  let m := s.rxMap k
  if 2 ≤ k ∨ (s.link k).st ≠ .training ∨ (s.swap k).rx.isSome ∨ !s.laneLocked (laneOf k (mapLane m 0))
    ∨ !s.laneLocked (laneOf k (mapLane m 1)) then s
  else
    let s1 := (List.range 3).foldl (fun x i =>
      if x.fld (lnCfg (laneOf k i)) 30 29 = 1 then
        let (e, y) := x.draw
        y.modLane (laneOf k i) (fun l => { l with eq := e % 16 })
      else x) s
    s1.setLink k .init (s.link k).cause

/-- What TRAINING_TIMEOUT does: 2 ms in TRAINING without two usable lanes while one shows no LOS, or
1 ms in INIT. -/
def State.trainingTimeout (s : State) (k : Nat) : State :=
  let l := s.link k
  let ls := (List.range 3).map (laneOf k)
  let usable := (ls.filter s.laneLocked).length
  match l.st with
  | .training =>
    if l.since + 2 * msT ≤ s.now ∧ usable < 2 ∧ ls.any (fun n => !(s.lane n).los) then s.linkDown k 6 else s
  | .init => if l.since + msT ≤ s.now then s.linkDown k 6 else s
  | _ => s

/-- What DOWN_RETRY does. -/
def State.downRetry (s : State) (k : Nat) : State :=
  let l := s.link k
  if l.st = .down ∧ l.since + bits (s.linkCfg k) 7 0 * 10 * msT ≤ s.now then s.train k l.cause else s

/-- What SLEEP_WAKE does (R637): woken by the partner, the chip wakes with source 0x0B. -/
def State.sleepWake (s : State) (k : Nat) (partner : Bool) : State :=
  if (s.link k).st ≠ .sleep then s
  else
    let s1 := if partner then s.wake 0x0B else s
    if s1.hearth.ps = .smoulder then s else s1.train k (s.link k).cause

/-! ### Registers and opcodes -/

/-- LN_Lk_STAT as it reads. DESIGN CHOICE (log entry 139): TREE_SD and the role read 0, the register's reset value, while
the lane does not run. -/
def State.lnStatWord (s : State) (n : Nat) : Nat :=
  let l := s.lane n
  let on := s.laneOn n
  let role := match linkOfLane n with | some (k, i) => if on then s.laneRole k i else 0 | none => 0
  let requal := role == 3 && l.cleanSince.isSome
  ofSigned 16 l.foff * 65536 + b2n (on && l.los) * 128 + b2n (on && l.lol) * 64
    + s.fld (lnStat n) 5 4 * 16 + b2n (on && decide (n < 2) && !l.sdLow) * 8 + role * 2 + b2n requal

/-- LN_Lk_EQ as it reads (R266). -/
def State.lnEqWord (s : State) (n : Nat) : Nat :=
  if s.fld (lnCfg n) 30 29 = 0 then s.fld (lnCfg n) 28 25 else (s.lane n).eq

/-- LN_REPORT. -/
def opLnReport (op : Nat) (p : List Byte) (s : State) : State :=
  if p ≠ [] then s.finish op 0x0004 []
  else s.finish op 0 ((List.range 9).flatMap (fun n => be 4 (s.lnStatWord n) ++ be 4 (s.word (lnErr n)))
    ++ be 4 (at? s.hearth.maps 0 0) ++ be 4 (at? s.hearth.maps 1 0) ++ be 4 (s.word 0x040004))

/-- LN_EYE: LANE, MODE, DWELL, PHASE, VOLT. -/
def opLnEye (op : Nat) (p : List Byte) (s : State) : State :=
  if p.length ≠ 5 then s.finish op 0x0004 []
  else
    let n := field p 0 1
    let ph := toSigned 8 (field p 3 1)
    let v := toSigned 8 (field p 4 1)
    if 8 < n ∨ 1 < field p 1 1 ∨ field p 2 1 < 16 ∨ 30 < field p 2 1 ∨ ph < -32 ∨ 32 < ph ∨ v < -63 ∨ 63 < v then
      s.finish op 0x0005 []
    else if !s.laneLocked n then s.finish op 0x0400 []
    else if (s.lane n).eye.isSome then s.finish op 0x0403 []
    else s.modLane n (fun l => { l with eye := some ⟨some op, field p 1 1, field p 2 1, ph, v⟩ })

/-- LN_TX_RELEASE: LANE (R271). -/
def opLnTxRelease (op : Nat) (p : List Byte) (s : State) : State :=
  if p.length ≠ 1 then s.finish op 0x0004 []
  else
    let n := field p 0 1
    if 1 < n then s.finish op 0x0005 []
    else
      let seen := match (s.lane n).rogueAt with | some t => decide (s.now < t + msT) | none => false
      if seen then s.finish op 0x0401 [] else (s.setFld 0x040000 n n 0).finish op 0 []

/-- LN_SPARE_FORCE: LINK, POSITION; replies when the swap completes. -/
def opLnSpareForce (op : Nat) (p : List Byte) (s : State) : State :=
  if p.length ≠ 2 then s.finish op 0x0004 []
  else
    let k := field p 0 1
    let pos := field p 1 1
    if 1 < k ∨ 1 < pos then s.finish op 0x0005 []
    else if !s.spareValid k ∨ (s.swap k).rx.isSome then s.finish op 0x0402 []
    else s.laneFailed (laneOf k (mapLane (s.rxMap k) pos)) false true (some op)

/-- ST_STATUS as the register reads. -/
def State.stStatusWord (s : State) : Nat :=
  s.main.st.session * 65536 + (s.link 1).st.code * 16 + (s.link 0).st.code

/-- ST_Lk_STAT as it reads. -/
def State.stLkStat (s : State) (k : Nat) : Nat :=
  let l := s.link k
  l.st.code * 2 ^ 28 + l.partnerMember * 2 ^ 25 + l.partnerLink * 2 ^ 24 + b2n l.resumed * 2 ^ 23 + l.out

/-- ST_Lk_SEQ as it reads. -/
def State.stLkSeq (s : State) (k : Nat) : Nat := (s.link k).nextTx * 65536 + (s.link k).nextRx

/-- ST_Lk_OLDEST as it reads. -/
def State.stLkOldest (s : State) (k : Nat) : Nat :=
  let l := s.link k
  l.t % 16 * 2 ^ 24 + l.r % 16 * 65536 + l.oldest

/-- ST_Lk_AVAILc as it reads. -/
def State.stLkAvail (s : State) (k c : Nat) : Nat :=
  let a := (at? (s.link k).classes c {}).avail
  a.1.toNat % 65536 * 65536 + a.2.toNat % 65536

/-- ST_STATUS: LINK. -/
def opStStatus (op : Nat) (p : List Byte) (s : State) : State :=
  if p.length ≠ 1 then s.finish op 0x0004 []
  else
    let k := field p 0 1
    if 1 < k then s.finish op 0x0005 []
    else s.finish op 0 (be 4 (s.stLkStat k) ++ be 4 (s.stLkSeq k) ++ be 4 (s.stLkOldest k)
      ++ (List.range 4).flatMap (fun c => be 4 (s.stLkAvail k c))
      ++ (List.range 3).flatMap (fun i => be 4 (s.word (0x0F0134 + 256 * k + 4 * i))))

/-- ST_RETRAIN: LINK; replies when the link is UP or DOWN again (R641). -/
def opStRetrain (op : Nat) (p : List Byte) (s : State) : State :=
  if p.length ≠ 1 then s.finish op 0x0004 []
  else
    let k := field p 0 1
    if 1 < k then s.finish op 0x0005 []
    else if (s.link k).st ≠ .up then s.finish op 0x0F00 []
    else (s.retrain k 4 true).modLink k (fun l => { l with tag := some op })

end Sys2Proof.Machine
end

