-- ==== Sys2Proof/Machine/Crypto.lean ====
section
/-! DEFINITION. The published algorithms that the spec takes by reference: AES (FIPS 197), GCM (NIST SP
800-38D), CTR (SP 800-38A), CMAC (SP 800-38B), SHA-256 (FIPS 180-4) and ECDSA P-256 verification
(FIPS 186-5). -/

namespace Sys2Proof.Machine

/-! ### AES -/

/-- Multiplication by x in GF(2^8) with the polynomial of AES. -/
def xtime (a : Nat) : Nat := if a < 128 then a * 2 else Nat.xor (a * 2 % 256) 0x1B

/-- Multiplication in GF(2^8); `k` bounds the bits of `b`. -/
def gmul : Nat → Nat → Nat → Nat
  | 0, _, _ => 0
  | k + 1, a, b => Nat.xor (if b % 2 = 1 then a else 0) (gmul k (xtime a) (b / 2))

/-- Product in GF(2^8). -/
def gf (a b : Nat) : Nat := gmul 8 a b

/-- The inverse in GF(2^8), a^254, with 0 for 0. -/
def ginv (a : Nat) : Nat :=
  let a2 := gf a a
  let a4 := gf a2 a2
  let a8 := gf a4 a4
  let a16 := gf a8 a8
  let a32 := gf a16 a16
  let a64 := gf a32 a32
  let a128 := gf a64 a64
  gf (gf (gf a2 a4) (gf a8 a16)) (gf (gf a32 a64) a128)

/-- A byte rotated left. -/
def rotl8 (a n : Nat) : Nat := a * 2 ^ n % 256 + a / 2 ^ (8 - n)

/-- The S-box of AES. -/
def sbox (a : Nat) : Nat :=
  let b := ginv a
  Nat.xor (Nat.xor (Nat.xor b (rotl8 b 1)) (Nat.xor (rotl8 b 2) (rotl8 b 3))) (Nat.xor (rotl8 b 4) 0x63)

/-- Two lists of numbers combined by exclusive or. -/
def xorL (a b : List Nat) : List Nat := (a.zip b).map (fun p => Nat.xor p.1 p.2)

/-- The next words of the key schedule: `w` holds the words so far, newest first; `i` is the index of
the next, `n` how many remain, `rc` the round constant. -/
def expand (nk : Nat) : Nat → Nat → Nat → List (List Nat) → List (List Nat)
  | 0, _, _, w => w
  | n + 1, i, rc, w =>
    let prev := w.getD 0 []
    let t := if i % nk = 0 then xorL ((prev.drop 1 ++ prev.take 1).map sbox) [rc, 0, 0, 0]
      else if nk = 8 ∧ i % nk = 4 then prev.map sbox else prev
    expand nk n (i + 1) (if i % nk = 0 then xtime rc else rc) (xorL (w.getD (nk - 1) []) t :: w)

/-- Groups of four. -/
def fours : Nat → List α → List (List α)
  | 0, _ => []
  | k + 1, l => l.take 4 :: fours k (l.drop 4)

/-- The round keys, 16 bytes each, for a key of 16, 24 or 32 bytes. -/
def roundKeys (key : List Byte) : List (List Nat) :=
  let nk := key.length / 4
  let w0 := fours nk (key.map (·.toNat))
  let words := (expand nk (4 * (nk + 7) - nk) nk 1 w0.reverse).reverse
  (fours (nk + 7) words).map List.flatten

/-- ShiftRows on 16 bytes in column order. -/
def shiftRows (s : List Nat) : List Nat := (List.range 16).map (fun i => s.getD ((i + 4 * (i % 4)) % 16) 0)

/-- MixColumns on one column. -/
def mixColumn (c : List Nat) : List Nat :=
  (List.range 4).map (fun i =>
    let a := c.getD i 0
    let b := c.getD ((i + 1) % 4) 0
    Nat.xor (Nat.xor (xtime a) (Nat.xor (xtime b) b)) (Nat.xor (c.getD ((i + 2) % 4) 0) (c.getD ((i + 3) % 4) 0)))

/-- The rounds after the first key addition. -/
def aesRounds : List (List Nat) → List Nat → List Nat
  | [], s => s
  | [k], s => xorL (shiftRows (s.map sbox)) k
  | k :: t, s => aesRounds t (xorL ((fours 4 (shiftRows (s.map sbox))).flatMap mixColumn) k)

/-- AES encryption of one block of 16 bytes. -/
def aes (key : List Byte) (block : List Byte) : List Byte :=
  match roundKeys key with
  | k :: t => (aesRounds t (xorL (block.map (·.toNat)) k)).map byte
  | [] => block

/-- Two byte strings combined by exclusive or, as long as the shorter. -/
def xorB (a b : List Byte) : List Byte := (a.zip b).map (fun p => p.1 ^^^ p.2)

/-- Pieces of 16 bytes, the last one as long as what is left; `k` bounds them. -/
def blocks : Nat → List Byte → List (List Byte)
  | 0, _ => []
  | k + 1, l => if l = [] then [] else l.take 16 :: blocks k (l.drop 16)

/-- All pieces of 16 bytes of a byte string. -/
def blocksOf (l : List Byte) : List (List Byte) := blocks (l.length / 16 + 1) l

/-! ### CTR, GCM and CMAC -/

/-- Encryption in CTR mode, with a counter of `w` bits at the end of the block (R503: 128; GCM: 32). -/
def ctrMode (w : Nat) (key : List Byte) : List Byte → List (List Byte) → List Byte
  | _, [] => []
  | ctr, b :: t =>
    let n := ofBe ctr
    let next := n / 2 ^ w * 2 ^ w + (n + 1) % 2 ^ w
    xorB b (aes key ctr) ++ ctrMode w key (be 16 next) t

/-- A product in the field of GHASH; `k` bounds the bits of `y`, most significant first. -/
def ghmul : Nat → Nat → Nat → Nat → Nat
  | 0, _, _, z => z
  | k + 1, v, y, z =>
    ghmul k (if v % 2 = 1 then Nat.xor (v / 2) (0xE1 * 2 ^ 120) else v / 2) y
      (if bitOf y k then Nat.xor z v else z)

/-- GHASH under H of blocks. -/
def ghash (h : Nat) (bs : List (List Byte)) : Nat :=
  bs.foldl (fun y b => ghmul 128 h (Nat.xor y (ofBe (padTo 16 b))) 0) 0

/-- The GCM tag of a ciphertext with additional data, under a 96-bit IV. -/
def gcmTag (key iv aad ct : List Byte) : List Byte :=
  let h := ofBe (aes key (List.replicate 16 0#8))
  let s := ghash h (blocksOf aad ++ blocksOf ct ++ [be 8 (8 * aad.length) ++ be 8 (8 * ct.length)])
  xorB (be 16 s) (aes key (iv ++ be 4 1))

/-- GCM encryption, or decryption, of data under a 96-bit IV, without the tag. -/
def gcmCrypt (key iv data : List Byte) : List Byte := ctrMode 32 key (iv ++ be 4 2) (blocksOf data)

/-- A subkey of CMAC doubled. -/
def cmacDouble (v : Nat) : Nat := if v / 2 ^ 127 % 2 = 1 then Nat.xor (v * 2 % 2 ^ 128) 0x87 else v * 2 % 2 ^ 128

/-- CMAC with a 16-byte tag. -/
def cmac (key data : List Byte) : List Byte :=
  let k1 := cmacDouble (ofBe (aes key (List.replicate 16 0#8)))
  let bs := blocksOf data
  let last := bs.getLast?.getD []
  let m := if last.length = 16 then xorB last (be 16 k1)
    else xorB (padTo 16 (last ++ [0x80#8])) (be 16 (cmacDouble k1))
  aes key (xorB m ((bs.dropLast).foldl (fun x b => aes key (xorB x b)) (List.replicate 16 0#8)))

/-! ### SHA-256

FIPS 180-4 defines its constants as the fractions of roots of primes, and its words by rotations; both are written here
as it says them. -/

/-- The primes up to 311, the 64th. -/
def shaPrimes : List Nat :=
  (List.range 312).filter (fun n => decide (1 < n) && [2, 3, 5, 7, 11, 13, 17].all (fun d => n == d || n % d != 0))

/-- The greatest `r` whose power `k` is at most `n`, found from its bit 35 down. -/
def rootBits (k n : Nat) : Nat → Nat → Nat
  | 0, r => r
  | b + 1, r => rootBits k n b (if (r + 2 ^ b) ^ k ≤ n then r + 2 ^ b else r)

/-- The first 32 bits of the fraction of the k-th root of a number. -/
def rootFraction (k p : Nat) : Nat := rootBits k (p * 2 ^ (32 * k)) 36 0 % 2 ^ 32

/-- A 32-bit word rotated right. -/
def rotr (v n : Nat) : Nat := v / 2 ^ n + v * 2 ^ (32 - n) % 2 ^ 32

/-- The exclusive or of a word's rotations. -/
def rotations (l : List Nat) (v : Nat) : Nat := l.foldl (fun acc n => Nat.xor acc (rotr v n)) 0

/-- The next `n` words of the message schedule; the window holds the sixteen that come first. -/
def shaWords : Nat → List Nat → List Nat
  | 0, _ => []
  | n + 1, win =>
    let at_ (i : Nat) : Nat := win.getD i 0
    let small (l : List Nat) (k i : Nat) : Nat := Nat.xor (rotations l (at_ i)) (at_ i / 2 ^ k)
    at_ 0 :: shaWords n (win.drop 1 ++ [(at_ 0 + small [7, 18] 3 1 + at_ 9 + small [17, 19] 10 14) % 2 ^ 32])

/-- One round on the eight working words: `kw` is the sum of the round's constant and its word. -/
def shaRound (v : List Nat) (kw : Nat) : List Nat :=
  let x (i : Nat) : Nat := v.getD i 0
  let pick := Nat.xor (x 6) (Nat.land (x 4) (Nat.xor (x 5) (x 6)))
  let most := Nat.lor (Nat.land (x 0) (x 1)) (Nat.land (x 2) (Nat.lor (x 0) (x 1)))
  let t := x 7 + rotations [6, 11, 25] (x 4) + pick + kw
  (t + rotations [2, 13, 22] (x 0) + most) % 2 ^ 32 :: ((v.take 7).set 3 ((x 3 + t) % 2 ^ 32))

/-- Two lists of words added word by word. -/
def addWords (a b : List Nat) : List Nat := (a.zip b).map (fun p => (p.1 + p.2) % 2 ^ 32)

/-- One block of 64 bytes taken into the hash value. -/
def shaBlock (ks v : List Nat) (b : List Byte) : List Nat :=
  let w := shaWords 64 ((List.range 16).map (fun i => field b (4 * i) 4))
  addWords v ((addWords ks w).foldl shaRound v)

/-- The blocks of a padded message; `k` bounds them. -/
def shaBlocks (ks : List Nat) : Nat → List Nat → List Byte → List Nat
  | 0, v, _ => v
  | k + 1, v, l => if l = [] then v else shaBlocks ks k (shaBlock ks v (l.take 64)) (l.drop 64)

/-- SHA-256 of a byte string. -/
def sha256 (l : List Byte) : List Byte :=
  let m := l ++ 0x80#8 :: List.replicate ((119 - l.length % 64) % 64) 0#8 ++ be 8 (8 * l.length)
  let start := (shaPrimes.take 8).map (rootFraction 2)
  (shaBlocks (shaPrimes.map (rootFraction 3)) (m.length / 64 + 1) start m).flatMap (be 4)

/-! ### ECDSA P-256 -/

/-- The prime of P-256. -/
def p256 : Nat := 2 ^ 256 - 2 ^ 224 + 2 ^ 192 + 2 ^ 96 - 1

/-- The order of P-256's base point. -/
def n256 : Nat := 0xFFFFFFFF00000000FFFFFFFFFFFFFFFFBCE6FAADA7179E84F3B9CAC2FC632551

/-- The base point of P-256. -/
def g256 : Nat × Nat :=
  (0x6B17D1F2E12C4247F8BCE6E563A440F277037D812DEB33A0F4A13945D898C296,
   0x4FE342E2FE1A7F9B8EE7EB4A7C0F9E162BCE33576B315ECECBB6406837BF51F5)

/-- A power modulo m; `k` bounds the bits of the exponent. -/
def powMod (m : Nat) : Nat → Nat → Nat → Nat
  | 0, _, _ => 1 % m
  | k + 1, a, e => let r := powMod m k (a * a % m) (e / 2); if e % 2 = 1 then r * a % m else r

/-- The inverse modulo a prime of 256 bits. -/
def invMod (m a : Nat) : Nat := powMod m 256 a (m - 2)

/-- A difference modulo m. -/
def subMod (m a b : Nat) : Nat := (a % m + m - b % m) % m

/-- The sum of two points of P-256; none is the point at infinity. -/
def addPoint (p q : Option (Nat × Nat)) : Option (Nat × Nat) :=
  match p, q with
  | none, q => q
  | p, none => p
  | some (x1, y1), some (x2, y2) =>
    if x1 = x2 ∧ (y1 + y2) % p256 = 0 then none
    else
      let l := if x1 = x2 then subMod p256 (3 * x1 * x1) 3 * invMod p256 (2 * y1 % p256) % p256
        else subMod p256 y2 y1 * invMod p256 (subMod p256 x2 x1) % p256
      let x3 := subMod p256 (subMod p256 (l * l) x1) x2
      some (x3, subMod p256 (l * subMod p256 x1 x3) y1)

/-- A multiple of a point; `k` bounds the bits of the factor. -/
def mulPoint : Nat → Nat → Option (Nat × Nat) → Option (Nat × Nat)
  | 0, _, _ => none
  | k + 1, e, p =>
    let r := mulPoint k (e / 2) (addPoint p p)
    if e % 2 = 1 then addPoint p r else r

/-- Whether (r, s) is a valid signature over a digest under a public key. -/
def ecdsaVerify (pub : Nat × Nat) (digest r s : List Byte) : Bool :=
  let r := ofBe r
  let s := ofBe s
  let z := ofBe digest
  if r = 0 ∨ n256 ≤ r ∨ s = 0 ∨ n256 ≤ s then false
  else
    let w := invMod n256 s
    match addPoint (mulPoint 256 (z * w % n256) (some g256)) (mulPoint 256 (r * w % n256) (some pub)) with
    | some (x, _) => x % n256 == r
    | none => false

end Sys2Proof.Machine
end

