-- ==== Sys2Proof/Machine/Line.lean ====
section
/-! DEFINITION. The codes of the tree's line: scrambling (R294, R366), RS(255,239) and its shortened forms
(R295), and the CRC-8 of grant entries (R304). -/

namespace Sys2Proof.Machine

/-! ### Scrambling -/

/-- The next output bit of x^7 + x^6 + 1 from a 7-bit state, and the next state (R294). -/
def scramStep (st : Nat) : Nat × Nat :=
  (st / 64 % 2, st * 2 % 128 + (st / 64 + st / 32) % 2)

/-- The next `n` output bits as a number, and the state after them. -/
def scramBits : Nat → Nat → Nat → Nat × Nat
  | 0, st, v => (v, st)
  | n + 1, st, v => let r := scramStep st; scramBits n r.2 (v * 2 + r.1)

/-- A byte string scrambled, or descrambled, from a generator state. -/
def scrambleFrom : Nat → List Byte → List Byte
  | _, [] => []
  | st, b :: t => let r := scramBits 8 st 0; (b ^^^ byte r.1) :: scrambleFrom r.2 t

/-- A byte string scrambled with the generator at all ones (R294). -/
def scramble (l : List Byte) : List Byte := scrambleFrom 127 l

/-! ### CRC-8 -/

/-- One bit of CRC-8 with polynomial 0x07. -/
def crc8Bit (c : Nat) : Nat := if c / 128 % 2 = 1 then Nat.xor (c * 2 % 256) 7 else c * 2 % 256

/-- CRC-8 of a byte string (R304). -/
def crc8 (l : List Byte) : Nat :=
  l.foldl (fun c b => crc8Bit (crc8Bit (crc8Bit (crc8Bit (crc8Bit (crc8Bit (crc8Bit (crc8Bit (Nat.xor c b.toNat))))))))) 0

/-! ### RS over GF(2^8) with x^8 + x^4 + x^3 + x^2 + 1 -/

/-- Multiplication by α. -/
def rsX (a : Nat) : Nat := if a < 128 then a * 2 else Nat.xor (a * 2 % 256) 0x1D

/-- Product in the field; `k` bounds the bits of `b`. -/
def rsMulK : Nat → Nat → Nat → Nat
  | 0, _, _ => 0
  | k + 1, a, b => Nat.xor (if b % 2 = 1 then a else 0) (rsMulK k (rsX a) (b / 2))

/-- Product in the field. -/
def rsMul (a b : Nat) : Nat := if a = 0 ∨ b = 0 then 0 else rsMulK 8 a b

/-- A power in the field. -/
def rsPow (a : Nat) : Nat → Nat
  | 0 => 1
  | n + 1 => rsMul a (rsPow a n)

/-- α^n. -/
def alpha : Nat → Nat
  | 0 => 1
  | n + 1 => rsX (alpha n)

/-- The inverse, a^254. -/
def rsInv (a : Nat) : Nat :=
  let a2 := rsMul a a
  let a4 := rsMul a2 a2
  let a8 := rsMul a4 a4
  let a16 := rsMul a8 a8
  let a32 := rsMul a16 a16
  let a64 := rsMul a32 a32
  let a128 := rsMul a64 a64
  rsMul (rsMul (rsMul a2 a4) (rsMul a8 a16)) (rsMul (rsMul a32 a64) a128)

/-- A polynomial, highest power first, evaluated at a point. -/
def rsEval (p : List Nat) (x : Nat) : Nat := p.foldl (fun a c => Nat.xor (rsMul a x) c) 0

/-- The product of two polynomials, lowest power first. -/
def polyMul : List Nat → List Nat → List Nat
  | [], _ => []
  | a :: t, q =>
    let x := q.map (rsMul a)
    let y := 0 :: polyMul t q
    (List.range (max x.length y.length)).map (fun i => Nat.xor (x.getD i 0) (y.getD i 0))

/-- The generator: the product of (x − α^i), i = 0 to 15, lowest power first (R295). -/
def rsGen : List Nat := (List.range 16).foldl (fun p i => polyMul [alpha i, 1] p) [1]

/-- One step of the division by the generator: `r` is the remainder, highest power first, and `g` the
generator without its leading 1, highest power first. -/
def rsStep (g : List Nat) (r : List Nat) (b : Byte) : List Nat :=
  let f := Nat.xor b.toNat (r.headD 0)
  ((r.drop 1 ++ [0]).zip g).map (fun (p : Nat × Nat) => Nat.xor p.1 (rsMul f p.2))

/-- The 16 parity bytes of a codeword's data bytes; leading zeros of a shortened codeword change
nothing. -/
def rsParity (d : List Byte) : List Byte :=
  let g := (rsGen.take 16).reverse
  (d.foldl (rsStep g) (List.replicate 16 0)).map byte

/-- The syndromes of a codeword. -/
def rsSyndromes (c : List Byte) : List Nat :=
  (List.range 16).map (fun i => rsEval (c.map BitVec.toNat) (alpha i))

/-- The state of the Berlekamp-Massey iteration. -/
structure BM where
  c : List Nat := [1]
  b : List Nat := [1]
  l : Nat := 0
  m : Nat := 1
  d : Nat := 1
  deriving DecidableEq, Repr

/-- The sum of two polynomials, lowest power first. -/
def polyAdd (p q : List Nat) : List Nat :=
  (List.range (max p.length q.length)).map (fun i => Nat.xor (p.getD i 0) (q.getD i 0))

/-- One step of Berlekamp-Massey on syndrome n. -/
def BM.step (s : List Nat) (x : BM) (n : Nat) : BM :=
  let d := (List.range (x.l + 1)).foldl (fun a i => Nat.xor a (rsMul (x.c.getD i 0) (s.getD (n - i) 0))) 0
  if d = 0 then { x with m := x.m + 1 }
  else
    let f := rsMul d (rsInv x.d)
    let c := polyAdd x.c (List.replicate x.m 0 ++ x.b.map (rsMul f))
    if 2 * x.l ≤ n then { c := c, b := x.c, l := n + 1 - x.l, m := 1, d := d } else { x with c := c, m := x.m + 1 }

/-- A codeword of 255 bytes corrected, with the number of bytes corrected; none where it is
uncorrectable (R295, R328). -/
def rsDecode (cw : List Byte) : Option (List Byte × Nat) :=
  let s := rsSyndromes cw
  if s.all (· == 0) then some (cw, 0)
  else
    let x := (List.range 16).foldl (BM.step s) {}
    let omega := (polyMul s x.c).take 16
    let errs := (List.range 255).filterMap (fun p =>
      let xi := alpha ((255 - p) % 255)
      if rsEval x.c.reverse xi = 0 then
        let dl := (x.c.zipIdx.filter (fun q => q.2 % 2 == 1)).foldl
          (fun a q => Nat.xor a (rsMul q.1 (rsPow xi (q.2 - 1)))) 0
        if dl = 0 then none else some (p, rsMul (alpha p) (rsMul (rsEval omega.reverse xi) (rsInv dl)))
      else none)
    if 8 < x.l ∨ errs.length ≠ x.l then none
    else
      let fixed := errs.foldl (fun c e => c.modify (254 - e.1) (fun b => b ^^^ byte e.2)) cw
      if (rsSyndromes fixed).all (· == 0) then some (fixed, errs.length) else none

/-- A shortened codeword of `n` bytes, decoded as a full one whose first data bytes are 0 (R295). -/
def rsDecodeShort (cw : List Byte) : Option (List Byte × Nat) :=
  let z := 255 - cw.length
  match rsDecode (List.replicate z 0#8 ++ cw) with
  | some (c, n) => if (c.take z).all (· == 0#8) then some (c.drop z, n) else none
  | none => none

/-! ### The downstream body (R295, R296, Table TD-1) -/

/-- A decoded frame body: its data area, the ranges of it that are lost, bytes corrected, and codewords
corrected and uncorrectable. -/
structure Body where
  data : List Byte
  lost : List (Nat × Nat)
  bytes : Nat
  cws : Nat
  bad : Nat
  deriving DecidableEq, Repr

/-- One codeword added to a decoded body. -/
def Body.add (x : Body) (cw : List Byte) : Body :=
  let n := cw.length - 16
  match rsDecodeShort cw with
  | some (c, k) => { x with data := x.data ++ c.take n, bytes := x.bytes + k, cws := x.cws + b2n (decide (0 < k)) }
  | none => { x with data := x.data ++ cw.take n, lost := x.lost ++ [(x.data.length, x.data.length + n)], bad := x.bad + 1 }

/-- The codewords of a descrambled body: 156 of 255 bytes and one of 216. -/
def codewords (b : List Byte) : List (List Byte) :=
  (List.range 157).map (fun j => (b.drop (255 * j)).take 255)

/-- A descrambled frame body decoded (R295). -/
def decodeBody (fec : Bool) (b : List Byte) : Body :=
  if fec then (codewords b).foldl Body.add ⟨[], [], 0, 0, 0⟩ else ⟨b, [], 0, 0, 0⟩

/-- Whether a range of the data area touches a lost codeword. -/
def Body.hit (x : Body) (a n : Nat) : Bool := x.lost.any (fun r => decide (r.1 < a + n) && decide (a < r.2))

/-- The line byte that holds data byte d (Table TD-1). -/
def lineByte (fec : Bool) (d : Nat) : Nat := if fec then 4 + 255 * (d / 239) + d % 239 else 4 + d

/-- The last line byte of the codeword that holds data byte d, or of the byte itself with FEC off
(R306). -/
def codewordEnd (fec : Bool) (d : Nat) : Nat := if fec then min 39999 (258 + 255 * (d / 239)) else 4 + d

end Sys2Proof.Machine
end

