-- ==== Sys2Proof/Machine/Cipher.lean ====
section
/-! DEFINITION. The cipher engine (15): the key store and its updates, the queues and pipelines, GCM on the
tree, and the entropy source. Who receives the completions is in Completion.lean. -/

namespace Sys2Proof.Machine

/-- The cipher engine changed by a function. -/
def State.modCy (s : State) (f : Cipher → Cipher) : State := { s with main := { s.main with cy := f s.main.cy } }

/-! ### The key store (R483 to R487) -/

/-- A key slot. -/
def State.keySlot (s : State) (k : Nat) : KeySlot := at? s.hearth.keys k {}

/-- A key slot changed by a function. -/
def State.modKey (s : State) (k : Nat) (f : KeySlot → KeySlot) : State :=
  { s with hearth := { s.hearth with keys := s.hearth.keys.modify k f } }

/-- GEN of a directory word (Table CY-1). -/
def dirGen (d : Nat) : Nat := bits d 63 32
/-- CEIL of a directory word. -/
def dirCeil (d : Nat) : Nat := bits d 31 16
/-- ACTIVE of a directory word. -/
def dirActive (d : Nat) : Nat := bits d 15 15
/-- LEN of a directory word. -/
def dirLen (d : Nat) : Nat := bits d 10 8
/-- Whether a directory word has PAIRED set. -/
def dirPaired (d : Nat) : Bool := bitOf d 13
/-- Whether a directory word has PREV_OK set. -/
def dirPrev (d : Nat) : Bool := bitOf d 14
/-- Whether a directory word's USAGE has a bit of Table CY-2. -/
def dirUse (d n : Nat) : Bool := bitOf d n

/-- The key in a bank of a slot (R484). -/
def State.keyOf (s : State) (k bank : Nat) : List Byte :=
  let b (i : Nat) : List Byte := if bank = 0 then (s.keySlot i).bank0 else (s.keySlot i).bank1
  match dirLen (s.keySlot k).dir with
  | 1 => padTo 16 (b k)
  | 2 => padTo 16 (b k) ++ padTo 8 (b (k + 1))
  | 3 => padTo 16 (b k) ++ padTo 16 (b (k + 1))
  | _ => []

/-- A bank of a slot written. -/
def KeySlot.write (k : KeySlot) (bank : Nat) (b : List Byte) : KeySlot :=
  if bank = 0 then { k with bank0 := b } else { k with bank1 := b }

/-- Steps 3 and 4 of R488 for a committed update. -/
def State.commitKey (s : State) (u : KeyUpdate) : State :=
  let d := (s.keySlot u.slot).dir
  let bank := 1 - dirActive d
  let keep := (dirGen d + 1) % 2 ^ 32 == u.gen && dirLen d == u.len && bits d 7 0 == u.usage
  let s1 := s.modKey u.slot (fun k => k.write bank (u.key.take 16))
  let s2 := if 1 < u.len then
      s1.modKey (u.slot + 1) (fun k => { k.write bank (padTo 16 (u.key.drop 16)) with dir := 0x2000 })
    else if 1 < dirLen d then s1.modKey (u.slot + 1) (fun _ => {}) else s1
  -- PREV_OK: R488, step 4; CEIL is 0 and ACTIVE toggled. CY-1 gives the places.
  s2.modKey u.slot (fun k => { k with
    dir := u.gen * 2 ^ 32 + bank * 2 ^ 15 + b2n (keep && dirLen d != 0) * 2 ^ 14 + u.len * 256 + u.usage })

/-- A committed update that is under way is completed by the Hearth whatever becomes of the main domain
(R489). -/
def State.completeUpdate (s : State) : State :=
  match s.main.cy.update with
  | some u => s.commitKey u
  | none => s

/-- The counters of the slots set from CEIL, in step 5 (R501, R515). -/
def State.cyStart (s : State) : State :=
  s.modCy (fun c => { c with ctrs := s.hearth.keys.map (fun k => dirCeil k.dir * 2 ^ 47) })

/-! ### Submission (R494, R497) -/

/-- A queue is enabled (CY_Qq_CFG). -/
def State.cqOn (s : State) (q : Nat) : Bool := s.bit (0x0B0100 + 16 * q) 31

/-- A request submitted: 0 accepted, 1 its queue is disabled (R513), 2 its queue is full (R497). -/
def State.submit (s : State) (r : CyReq) : State × Nat :=
  if !s.cqOn r.queue then (s, 1)
  else if 1024 ≤ (at? s.main.cy.queues r.queue []).length then (s.count (0x0B0108 + 16 * r.queue) 15 0, 2)
  else (s.modCy (fun c => { c with
    queues := c.queues.modify r.queue (fun l => l ++ [{ r with id := c.nextId, since := s.now }])
    nextId := c.nextId + 1 }), 0)

/-! ### Starting a request (R487, R494, R499, R501) -/

/-- Two requests belong to one downstream SDU. -/
def CyReq.sameSdu (a b : CyReq) : Bool :=
  match a.for_, b.for_ with
  | .down i, .down j => i == j
  | _, _ => false

/-- Whether the head of a queue may go to a pipeline: its SDU is not on the other one (R494). -/
def State.headFree (s : State) (pipe q : Nat) : Bool :=
  match at? s.main.cy.queues q [], at? s.main.cy.pipes (1 - pipe) none with
  | [], _ => false
  | r :: _, some o => s.cqOn q && !r.sameSdu o
  | _, none => s.cqOn q

/-- Whether the head of a queue has waited longer than STARVE_US (R494). -/
def State.starved (s : State) (q : Nat) : Bool :=
  match at? s.main.cy.queues q [] with
  | r :: _ => decide (r.since + s.fld 0x0B0000 15 8 * usT < s.now)
  | [] => false

/-- The queue that a free pipeline takes from (R494). -/
def State.pickQueue (s : State) (pipe : Nat) : Option Nat :=
  let l := (List.range 4).filter (s.headFree pipe)
  match l.find? s.starved with
  | some q => some q
  | none => l.head?

/-- The counter of an upstream encryption, with the ceiling raised where it must be (R501). -/
def State.takeCounter (s : State) (k : Nat) : State × Option Nat :=
  let d := (s.keySlot k).dir
  let c := at? s.main.cy.ctrs k 0
  let need := decide (dirCeil d ≤ c / 2 ^ 47)
  if need ∧ 0xFFFF < c / 2 ^ 47 + 1 then
    let s1 := s.modCy (fun y => { y with ctrs := y.ctrs.set k (c + 1) })
    (if c % 2 ^ 47 = 0 then s1.notify 0x0B04 false ([byte k] ++ be 4 (dirGen d)) else s1, none)
  else
    let s1 := if need then s.modKey k (fun x => { x with dir := putBits x.dir 31 16 (c / 2 ^ 47 + 1) }) else s
    (s1.modCy (fun y => { y with ctrs := y.ctrs.set k (c + 1) }), some c)

/-- An encryption on the tree chooses its key and counter (R498, R501). -/
def State.startEncrypt (s : State) (r : CyReq) : State × CyReq :=
  let d := (s.keySlot r.slot).dir
  if dirLen d = 0 then (s, { r with status := 0x0B00 })
  else if !dirUse d 1 then (s, { r with status := 0x0B01 })
  else match s.takeCounter r.slot with
    | (s1, none) => (s1, { r with status := 0x0B05 })
    | (s1, some c) => (s1, { r with key := s.keyOf r.slot (dirActive d), gen := dirGen d, bank := dirActive d,
                                    explicit := dirGen d % 2 * 2 ^ 63 + c })

/-- Whether USAGE permits an operation of CY_RUN (Table CY-2). -/
def runPermitted (d op : Nat) : Bool :=
  dirUse d 5 && (if op = 3 then dirUse d 2 else if op = 4 ∨ op = 5 then dirUse d 3 else true)

/-- A CY_RUN chooses the active key (R503). -/
def State.startRun (s : State) (r : CyReq) : CyReq :=
  let d := (s.keySlot r.slot).dir
  if dirLen d = 0 then { r with status := 0x0B00 }
  else if !runPermitted d r.op then { r with status := 0x0B01 }
  else { r with key := s.keyOf r.slot (dirActive d), gen := dirGen d, bank := dirActive d }

/-- A downstream stream. -/
def State.stream? (s : State) (id : Nat) : Option CyStream := s.main.cy.streams.find? (fun x => x.id == id)

/-- A stream changed by a function. -/
def State.modStream (s : State) (id : Nat) (f : CyStream → CyStream) : State :=
  s.modCy (fun c => { c with streams := c.streams.map (fun x => if x.id = id then f x else x) })

/-- A stream chooses its key, once for the whole SDU, when it has its EXPLICIT; its slot's USAGE is tested at its first
fragment (R487, R499). -/
def State.chooseKey (s : State) (st : CyStream) (raw : List Byte) : State :=
  let d := (s.keySlot st.slot).dir
  if st.key.isSome ∨ st.status ≠ 0 then s
  else if dirLen d = 0 then (s.modStream st.id (fun x => { x with status := 0x0B00 })).count 0x0B0008 15 8
  else if !dirUse d 0 then s.modStream st.id (fun x => { x with status := 0x0B01 })
  else if raw.length < 8 then s
  else
    let bank := if field raw 0 1 / 128 = dirGen d % 2 then some (dirActive d)
      else if dirPrev d then some (1 - dirActive d) else none
    match bank with
    | none => (s.modStream st.id (fun x => { x with status := 0x0B00 })).count 0x0B0008 15 8
    | some b =>
      let gen := if b = dirActive d then dirGen d else (dirGen d + 2 ^ 32 - 1) % 2 ^ 32
      s.modStream st.id (fun x => { x with key := some (s.keyOf st.slot b, gen, b) })

/-- A decryption begins with a fragment. -/
def State.startDown (s : State) (r : CyReq) (id : Nat) : State :=
  match s.stream? id with
  | some st => s.chooseKey st (st.raw ++ r.data)
  | none => s

/-- What CIPHER_REQUEST_START does for a pipeline. -/
def State.cipherStart (s : State) (pipe : Nat) : State :=
  let c := s.main.cy
  if 1 < pipe ∨ !s.main.out ∨ !s.blazing ∨ !c.ready ∨ at? c.stopped pipe true ∨ (at? c.pipes pipe none).isSome
    ∨ s.now < at? c.busy pipe 0 then s
  else match s.pickQueue pipe with
    | none => s
    | some q =>
      match at? c.queues q [] with
      | [] => s
      | r :: t =>
        let s1 := s.modCy (fun c => { c with queues := c.queues.set q t })
        let (s2, r2) := match r.for_ with
          | .sdu => s1.startEncrypt r
          | .trib _ => s1.startEncrypt r
          | .down id => (s1.startDown r id, r)
          | .run _ => (s1, s1.startRun r)
        s2.modCy (fun c => { c with pipes := c.pipes.set pipe (some { r2 with startAt := s.now }) })

/-! ### The end of a request (R495, R496, R498, R500, R502, R503) -/

/-- What a CY_RUN produces: output and status. -/
def CyReq.runResult (r : CyReq) : List Byte × Nat :=
  if r.status ≠ 0 then ([], r.status)
  else match r.op with
    | 1 => let ct := gcmCrypt r.key (r.fixed.take 12) r.data
           (ct ++ gcmTag r.key (r.fixed.take 12) [] ct, 0)
    | 2 => if gcmTag r.key (r.fixed.take 12) [] r.data = r.tag then (gcmCrypt r.key (r.fixed.take 12) r.data, 0)
           else ([], 0x0B08)
    | 3 => (ctrMode 128 r.key r.fixed (blocksOf r.data), 0)
    | 4 => (cmac r.key r.data, 0)
    | _ => ([], if cmac r.key r.data = r.tag then 0 else 0x0B08)

/-- The ciphertext of an upstream SDU (R498). -/
def CyReq.sealed (r : CyReq) : List Byte :=
  let iv := r.fixed ++ be 8 r.explicit
  let ct := gcmCrypt r.key iv r.data
  be 8 r.explicit ++ ct ++ gcmTag r.key iv [] ct

/-- The plaintext that a stream's bytes give so far: the last 16 bytes are held back (R500). -/
def CyStream.open (x : CyStream) : List Byte :=
  match x.key with
  | some (k, _, _) => gcmCrypt k (x.fixed ++ x.raw.take 8) ((x.raw.drop 8).take (x.raw.length - 24))
  | none => []

/-- The verdict at a stream's last fragment (R500, R502): 0 authentic, else the status with DISTRUST. -/
def CyStream.verdict (x : CyStream) : Nat :=
  if x.status ≠ 0 then x.status
  else if x.raw.length < 24 then 0x0B06
  else match x.key with
    | some (k, _, _) =>
      let ct := (x.raw.drop 8).take (x.raw.length - 24)
      if gcmTag k (x.fixed ++ x.raw.take 8) [] ct = x.raw.drop (x.raw.length - 16) then 0 else 0x0B08
    | none => 0x0B00

/-- A fragment of a downstream SDU has been decrypted. -/
def State.endDown (s : State) (r : CyReq) (id : Nat) : State × CyReq :=
  match s.stream? id with
  | none => (s, { r with status := 0x0B07 })
  | some st =>
    let st1 := { st with raw := st.raw ++ r.data }
    let st2 := if st1.status = 0 then { st1 with plain := st1.open } else st1
    let s1 := s.modStream id (fun _ => st2)
    if r.last then
      let v := st2.verdict
      let s2 := if v = 0x0B08 ∧ st2.status = 0 then s1.count 0x0B0008 31 16 else s1
      (s2.modCy (fun c => { c with streams := c.streams.filter (fun x => x.id != id) }),
        { r with status := v, out := st2.plain })
    else (s1, { r with status := st2.status, out := st2.plain })

/-- A request has run to its end. -/
def State.endRequest (s : State) (r : CyReq) : State × CyReq :=
  match r.for_ with
  | .sdu => (s, if r.status = 0 then { r with out := r.sealed } else r)
  | .trib _ => (s, if r.status = 0 then { r with out := r.sealed } else r)
  | .down id => s.endDown r id
  | .run _ => let x := r.runResult; (s, { r with out := x.1, status := x.2 })

/-- Whether a request has been in its pipeline for its time: 40 ns and 3.2 ns a byte (R495). -/
def CyReq.elapsed (r : CyReq) (now : Nat) : Bool := decide (12800 + 1024 * r.data.length ≤ 1000 * (now - r.startAt))

/-- Finished requests whose completions may be sent: no earlier request of their queue is in a pipeline
(R496). -/
def Cipher.sendable (c : Cipher) : List CyReq :=
  c.fin.filter (fun r => c.pipes.all (fun p => match p with
    | some o => o.queue != r.queue || decide (r.id < o.id)
    | none => true))

/-- The request of a pipeline ends: the state, and the completions sent, in request order. -/
def State.cipherEnd (s : State) (pipe : Nat) : State × List CyReq :=
  match at? s.main.cy.pipes pipe none with
  | none => (s, [])
  | some r =>
    if !s.main.out ∨ s.hearth.ps ≠ .blaze ∨ !r.elapsed s.now then (s, [])
    else
      let (s1, r1) := s.endRequest r
      let s2 := s1.modCy (fun c => { c with pipes := c.pipes.set pipe none, fin := c.fin ++ [r1] })
      let done := s2.main.cy.sendable
      let sorted := done.mergeSort (fun a b => decide (a.id ≤ b.id))
      (s2.modCy (fun c => { c with fin := c.fin.filter (fun r => !done.contains r) }), sorted)

/-- Requests ended from outside with a status: their streams are marked too (R502, R510, R513). -/
def State.failRequests (s : State) (l : List CyReq) (status : Nat) : State × List CyReq :=
  let s1 := l.foldl (fun x r => match r.for_ with
    | .down id => x.modStream id (fun st => { st with status := if st.status = 0 then status else st.status })
    | _ => x) s
  let s2 := l.foldl (fun x r => match r.for_ with
    | .down id => if r.last then x.modCy (fun c => { c with streams := c.streams.filter (fun y => y.id != id) }) else x
    | _ => x) s1
  (s2, l.map (fun r => { r with status := status, out := [] }))

/-- What clearing EN of a queue does: its queued requests end ABORTED (R513). -/
def State.cqDisabled (s : State) (q : Nat) : State × List CyReq :=
  let l := at? s.main.cy.queues q []
  ((s.modCy (fun c => { c with queues := c.queues.set q [] })).countN (0x0B0108 + 16 * q) 31 16 l.length).failRequests l 0x0012

/-- The last of a downstream stream's requests in a list marked LAST. -/
def markLast (id : Nat) : List CyReq → List CyReq
  | [] => []
  | r :: t =>
    if t.any (fun x => match x.for_ with | .down i => i == id | _ => false) then r :: markLast id t
    else (match r.for_ with | .down i => if i = id then { r with last := true } else r | _ => r) :: markLast id t

/-- Whether a request belongs to a downstream stream. -/
def CyReq.ofStream (r : CyReq) (id : Nat) : Bool := match r.for_ with | .down i => i == id | _ => false

/-- A downstream SDU is discarded while fragments of it are in the engine: they complete there with
DISTRUST, and the stream ends with the last of them (R324). -/
def State.abandonStream (s : State) (id : Nat) : State :=
  let s1 := s.modStream id (fun x => { x with status := if x.status = 0 then 0x0012 else x.status })
  if s.main.cy.queues.any (fun l => l.any (fun r => r.ofStream id)) then
    s1.modCy (fun c => { c with queues := c.queues.map (markLast id) })
  else if s.main.cy.pipes.any (fun p => match p with | some r => r.ofStream id | none => false) then
    s1.modCy (fun c => { c with pipes := c.pipes.map (fun p => p.map (fun r =>
      if r.ofStream id then { r with last := true } else r)) })
  else s1.modCy (fun c => { c with streams := c.streams.filter (fun x => x.id != id) })

/-! ### Key updates (R488, R489, R513) -/

/-- Decryptions that use a bank of a slot. -/
def State.usingBank (s : State) (k bank : Nat) : List CyStream :=
  s.main.cy.streams.filter (fun x => x.slot == k && x.status == 0 && (match x.key with
    | some (_, _, b) => b == bank
    | none => false))

/-- A committed update proceeds once no decryption uses the inactive bank (R513): the slot's counter
starts at 0, CY_KEY is queued and the command replied to. -/
def State.proceedUpdate (s : State) : State :=
  match s.main.cy.update with
  | none => s
  | some u =>
    if s.usingBank u.slot (1 - dirActive (s.keySlot u.slot).dir) ≠ [] then s
    else
      let s1 := (s.commitKey u).modCy (fun c => { c with update := none, ctrs := c.ctrs.set u.slot 0 })
      (s1.notify 0x0B01 false ([byte u.slot] ++ be 4 u.gen ++ [0#8])).finish u.op 0 []

/-- Step 2 of R488, and the update put in hand. -/
def State.beginUpdate (s : State) (u : KeyUpdate) : State :=
  ((s.modKey u.slot (fun k => { k with dir := putBits k.dir 14 14 0 })).modCy (fun c => { c with update := some u })).proceedUpdate

/-- An update has waited 1 ms: the decryptions that hold it up end with CY_NO_KEY and DISTRUST (R513). -/
def State.bankWaitOver (s : State) : State :=
  match s.main.cy.update with
  | none => s
  | some u =>
    if s.now < u.since + msT then s
    else
      let l := s.usingBank u.slot (1 - dirActive (s.keySlot u.slot).dir)
      (l.foldl (fun x st => x.modStream st.id (fun y => { y with status := 0x0B00 })) s).proceedUpdate

/-- Both banks and the directory word of a slot, and of its pair, written to 0 (CY_KEY_ERASE). -/
def State.eraseKey (s : State) (k : Nat) : State :=
  let d := (s.keySlot k).dir
  let s1 := s.modKey k (fun _ => {})
  if 1 < dirLen d then s1.modKey (k + 1) (fun _ => {}) else s1

/-! ### Entropy source and DRBG (R506 to R508) -/

/-- A DRBG instance reseeded: the pipeline that it feeds waits 2 µs (R507). -/
def State.reseed (s : State) (i : Nat) : State :=
  (s.modCy (fun c => { c with
    stopped := c.stopped.set i false
    busy := c.busy.set i (s.now + 2 * usT)
    pipes := c.pipes.modify i (fun p => p.map (fun r => { r with startAt := r.startAt + 2 * usT })) })).count 0x0B000C
    (if i < 2 then 31 else 15) (if i < 2 then 16 else 0)

/-- What DRBG_RESEED does (R507, R508). -/
def State.drbgReseed (s : State) (i : Nat) : State :=
  if !s.main.out ∨ 2 < i ∨ !s.main.cy.ready then s
  else if s.main.cy.rngFail then s.modCy (fun c => { c with stopped := c.stopped.set i true })
  else s.reseed i

/-- What RNG_HEALTH_FAIL does (R508). -/
def State.rngHealthFail (s : State) (test : Nat) : State :=
  if !s.main.out ∨ 2 < test ∨ s.hearth.ps = .smoulder then s else
  let s1 := if test = 0 then s.count 0x0B0010 31 16 else if test = 1 then s.count 0x0B0010 15 0 else s
  let n := s.main.cy.fails + 1
  let s2 := s1.modCy (fun c => { c with testing := true, fails := n })
  if 3 ≤ n ∧ !s.main.cy.rngFail then
    let body := [byte test, byte (sat 255 n)]
    ((s2.modCy (fun c => { c with rngFail := true, restartAt := s.now })).ash 0x0B 0x01 body).notify 0x0B03 true body
  else s2

/-- What RNG_RESTART does (R508). -/
def State.rngRestart (s : State) : State :=
  if s.main.cy.rngFail ∧ s.main.cy.restartAt + 10 * secT ≤ s.now then
    s.modCy (fun c => { c with testing := true, restartAt := s.now })
  else s

/-- A start-up test has passed: RNG_FAIL clears, a stopped instance reseeds, and the engine is ready
(R508, R515). -/
def State.rngPassed (s : State) : State :=
  if !s.main.out ∨ !s.main.cy.testing ∨ s.hearth.ps = .smoulder then s else
  let stopped := s.main.cy.stopped
  let s1 := s.modCy (fun c => { c with testing := false, fails := 0, rngFail := false, ready := true })
  (List.range 3).foldl (fun x i => if at? stopped i false then x.reseed i else x) s1

/-- Whether a pipeline can run: the engine is ready and a mask instance generates. -/
def State.canRun (s : State) : Bool := s.main.cy.ready && !(at? s.main.cy.stopped 0 true && at? s.main.cy.stopped 1 true)

/-- A start-up test begins again at each return from Smoulder (R511). -/
def State.cyReturn (s : State) : State := s.modCy (fun c => { c with testing := true })

/-! ### Registers -/

/-- CY_STATUS as it reads. -/
def State.cyStatusWord (s : State) : Nat :=
  let c := s.main.cy
  b2n c.ready * 2 ^ 31 + b2n c.rngFail * 2 ^ 30 + b2n s.keysEmpty * 2 ^ 29
    + b2n (at? c.pipes 1 none).isSome * 2 ^ 28 + b2n (at? c.pipes 0 none).isSome * 2 ^ 27
    + (s.hearth.keys.filter (fun k => dirLen k.dir != 0)).length

/-- CY_Qq_FILL as it reads. -/
def State.cqFill (s : State) (q : Nat) : Nat := (at? s.main.cy.queues q []).length

end Sys2Proof.Machine
end

