-- ==== Sys2Proof/Machine/Membership.lean ====
section
/-! DEFINITION. The port table (R314, R324), and tree membership (10): terminal states, the membership
messages, the tree record, doze, protection, and the TM opcodes. -/

namespace Sys2Proof.Machine

/-- Tree membership changed by a function. -/
def State.modTm (s : State) (f : Membership → Membership) : State := { s with main := { s.main with tm := f s.main.tm } }

/-- Tree downstream changed by a function. -/
def State.modTd (s : State) (f : TreeDown → TreeDown) : State := { s with main := { s.main with td := f s.main.td } }

/-! ### The port table (R314, R324) -/

/-- The register of a port's entry. -/
def tdPortReg (n : Nat) : Nat := 0x054000 + 4 * n

/-- A port's entry. -/
def State.tdPort (s : State) (n : Nat) : Nat := s.word (tdPortReg n)

/-- Whether a port's entry has EN set. -/
def State.portOn (s : State) (n : Nat) : Bool := bitOf (s.tdPort n) 31

/-- Whether the SDUs of a port go through the cipher engine; port 0x001 runs in clear while its key slot is
empty (R316, R493). -/
def State.portCipher (s : State) (n : Nat) : Bool :=
  let w := s.tdPort n
  bits w 29 28 == 1 && !(n == 1 && dirLen (s.keySlot (bits w 7 0)).dir == 0)

/-- Whether a word may be written to TD_PORTn (R17, R314, Table TD-16). -/
def tdPortLegal (n w : Nat) : Bool :=
  let dest := bits w 24 20
  regLegal (regFields (tdPortReg n)) w &&
    (n == 1 || (!((n == 0 || n == 4095) && bitOf w 31) && !(decide (5 ≤ dest ∧ dest ≤ 7)) && decide (dest < 12)
      && !(dest == 0 && bitOf w 31)))

/-- An SDU in reassembly on a port is discarded: its stream, if any, is abandoned, and the rest of the SDU
is skipped (R324). -/
def State.dropReasm (s : State) (r : Reasm) (skip : Bool) : State :=
  let s1 := match r.stream with | some id => s.abandonStream id | none => s
  s1.modTd (fun t => { t with reasm := t.reasm.filter (fun x => x.port != r.port)
                              skip := if skip then t.skip ++ [r.port] else t.skip })

/-- TD_PORTn has been written (R324). -/
def State.tdPortWritten (s : State) (n old : Nat) : State :=
  let w := s.tdPort n
  let same := bits w 31 31 == bits old 31 31 && bits w 29 20 == bits old 29 20 && bits w 9 0 == bits old 9 0
  if same then s else
  match s.main.td.reasm.find? (fun r => r.port == n) with
  | some r => (s.dropReasm r true).count 0x050020 23 16
  | none => s

/-! ### Identity (R335, 10 Terminal states) -/

/-- The terminal is registered (R335). -/
def State.registered (s : State) : Bool := s.main.tm.st == .operation || s.main.tm.st == .hold

/-- The identity in force: none in SERIAL and DISABLED. -/
def State.identity (s : State) : Option Nat :=
  match s.main.tm.st with
  | .serial | .disabled => none
  | _ => s.main.tm.ident

/-- The codes of Table TM-1. -/
def TmState.code : TmState → Nat
  | .initial => 0 | .listen => 1 | .serial => 2 | .ranging => 3 | .warm => 4 | .operation => 5 | .hold => 6 | .disabled => 7

/-! ### The tree record (R349, Table TM-6) -/

/-- A delay or a default of 0 as bytes. -/
def optBytes (n : Nat) (o : Option Nat) : List Byte := be n (o.getD 0)

/-- An allocation slot as in the record (Table TM-6). -/
def allocWord (a : Option Alloc) : Nat :=
  match a with | some x => 0x8000 + b2n x.shared * 0x4000 + x.id | none => 0

/-- Whether a doze agreement is in force at a frame (R353). -/
def Membership.dozing (m : Membership) (sfc : Nat) : Bool :=
  match m.doze with
  | some d => decide (0 ≤ sdiff 30 sfc d.start) && decide (sdiff 30 sfc d.stop < 0)
  | none => false

/-- SFC of the active lane's last frame, delivered or not (R303). -/
def State.activeSfc (s : State) : Nat := (at? s.main.td.lanes s.main.td.active {}).sfc

/-- The 256 bytes of the tree record. -/
def State.treeRecord (s : State) : List Byte :=
  let m := s.main.tm
  let e0 := at? m.eqds 0 none
  let e1 := at? m.eqds 1 none
  let t0 := at? m.trees 0 none
  let t1 := at? m.trees 1 none
  let flags := b2n m.ident.isSome + b2n e0.isSome * 2 + b2n e1.isSome * 4 + b2n m.disabled * 8
    + b2n (m.dozing s.activeSfc) * 16 + s.main.td.active * 32 + b2n t0.isSome * 64 + b2n t1.isSome * 128
  let b := be 4 0x43565452 ++ optBytes 2 m.ident ++ be 8 s.termSerial ++ [byte flags, byte s.self]
    ++ optBytes 3 e0 ++ optBytes 1 t0 ++ optBytes 3 e1 ++ optBytes 1 t1
    ++ be 4 (at? m.epochs 0 0) ++ be 4 (at? m.epochs 1 0)
    ++ (List.range 8).flatMap (fun i => be 2 (allocWord (at? m.allocs i none)))
    ++ [byte m.version] ++ be 3 0 ++ be 6 m.lastOp
  let c := padTo 252 b
  c ++ be 4 (crc32 c)

/-- Whether member m is a candidate for lead (R647). -/
def State.candidate (s : State) (m : Nat) : Bool :=
  if m = s.self then s.main.boot.treeEn && (at? s.main.sk.peers m {}).quar == 0
  else
    let p := at? s.main.sk.peers m {}
    p.announced && bitOf p.flags 0 && p.quar == 0 && bits p.flags 5 3 == 0

/-- The tree record written to the Hearth and pushed to every standby lead (R349). -/
def State.saveTree (s : State) : State :=
  let op := s.main.tm.st == .operation
  let s1 := s.modTm (fun m => { m with lastOp := if op then s.hearthSec else m.lastOp, savedAt := s.now, recValid := true })
  let b := s1.treeRecord
  let s2 := { s1 with hearth := { s1.hearth with treeRec := b } }
  (List.range 8).foldl (fun x m =>
    if m ≠ s.self ∧ (at? s.main.sk.peers m {}).present ∧ s.candidate m then x.sendMsg 0 m 0x0D 0 b else x) s2

/-- The tree record read at a start, or by a lead that takes over (R139, R349, R362). -/
def State.loadTree (s : State) : State :=
  let b := s.hearth.treeRec
  let ok := field b 0 4 == 0x43565452 && field b 252 4 == crc32 (b.take 252)
  let f := field b 14 1
  let mine := ok && field b 6 8 == s.termSerial
  let opt (c : Bool) (v : Nat) : Option Nat := if c then some v else none
  let slot (i : Nat) : Option Alloc :=
    let w := field b (32 + 2 * i) 2
    if mine && bitOf w 15 then some ⟨bitOf w 14, w % 4096⟩ else none
  s.modTm (fun m => { m with
    recValid := mine, disabled := ok && bitOf f 3
    ident := opt (mine && bitOf f 0) (field b 4 2)
    eqds := [opt (mine && bitOf f 1) (field b 16 3), opt (mine && bitOf f 2) (field b 20 3)]
    trees := [opt (mine && bitOf f 6) (field b 19 1), opt (mine && bitOf f 7) (field b 23 1)]
    epochs := if mine then [field b 24 4, field b 28 4] else [0, 0]
    allocs := (List.range 8).map slot
    version := if mine then field b 48 1 else 0, lastOp := if mine then field b 52 6 else 0 })

/-- Identity, allocations and the state of the downstream sent to every present member (R343, 20). -/
def State.pushTerm (s : State) : State :=
  let m := s.main.tm
  let b := [byte (b2n s.identity.isSome + b2n s.main.td.lost * 2 + b2n s.main.cmd.started * 4)] ++ optBytes 2 s.identity
    ++ (List.range 8).flatMap (fun i => be 2 (allocWord (at? m.allocs i none)))
  (List.range 8).foldl (fun x k =>
    if k ≠ s.self ∧ (at? s.main.sk.peers k {}).present then x.sendMsg 0 k 0x0C 0 b else x) s

/-- The record invalidated: its identity and both delays are no longer valid (R349). -/
def State.invalidateRecord (s : State) : State :=
  (s.modTm (fun m => { m with ident := none, eqds := [none, none] })).saveTree.pushTerm

/-! ### States (R333, R334, Table TM-2) -/

/-- The profile's PRE_EQD. -/
def Membership.preEqd (m : Membership) : Nat := match m.profile with | some p => p.preEqd | none => 0

/-- A draw below n from the DRBG. -/
def State.drawBelow (s : State) (n : Nat) : Nat × State :=
  let (v, s1) := s.draw
  (v % n, s1)

/-- A state entered, with TM_STATE; SERIAL draws its countdown (R342). -/
def State.setTm (s : State) (st : TmState) : State :=
  let old := s.main.tm.st
  let s1 := s.modTm (fun m => { m with st := st, timer := s.now })
  let s2 := if st = .serial then
      let b := match s.main.tm.profile with | some p => p.bexp | none => 0
      let (v, x) := s1.drawBelow (2 ^ b)
      x.modTm (fun m => { m with countdown := v, eqd := m.preEqd })
    else if st = .ranging then s1.modTm (fun m => { m with eqd := m.preEqd })
    else s1
  if old = st then s2 else s2.notify 0x0601 false [byte old.code, byte st.code]

/-- Whether a VERSION of the identity blocks is permitted (R358). -/
def State.versionOk (s : State) (v : Nat) : Bool := if v = 2 then s.bit 0x060010 0 else if v = 3 then s.bit 0x060010 1 else false

/-- VERSION of the frames of the active lane. -/
def State.frameVersion (s : State) : Nat := (at? s.main.td.lanes s.main.td.active {}).version

/-- Conditions 4 and 5 of R346. -/
def State.treeMatch (s : State) (p : Profile) : Bool :=
  let m := s.main.tm
  let a := s.main.td.active
  (match at? m.trees a none with | some t => t == s.main.td.tree | none => true)
    && (at? m.epochs a 0 == 0 || at? m.epochs a 0 == p.epoch)

/-- The warm conditions (R346). -/
def State.warmOk (s : State) (p : Profile) : Bool :=
  let m := s.main.tm
  m.recValid && m.ident.isSome && (at? m.eqds s.main.td.active none).isSome
    && s.frameVersion == 3 && s.versionOk 3 && s.treeMatch p
    && decide (s.hearthSec ≤ m.lastOp + s.fld 0x060010 15 8 * 3600)

/-- A TREE_PROFILE evaluated in LISTEN (Table TM-2, R346, R348). -/
def State.evalProfile (s : State) (p : Profile) : State :=
  let m := s.main.tm
  if !s.versionOk s.frameVersion then s.count 0x060024 3 0
  else if m.disabled then s.setTm .disabled
  else if s.warmOk p then
    (s.modTm (fun m => { m with eqd := (at? m.eqds s.main.td.active none).getD 0 })).setTm .warm
  else if s.hearth.minBlaze.isSome then s.modTm (fun m => { m with warmFailed := true })
  else if m.ident.isSome && s.treeMatch p then s.setTm .ranging
  else s.setTm .serial

/-- LISTEN entered: a profile already received on the active lane is evaluated at once (R334). -/
def State.enterListen (s : State) : State :=
  let s1 := s.setTm .listen
  match s1.main.tm.seen with
  | some p => s1.evalProfile p
  | none => s1

/-- A failure of warm resume in the minimal Blaze ends the attempt (R348). -/
def State.warmOut (s : State) (next : State) : State :=
  if s.hearth.minBlaze.isSome then s.modTm (fun m => { m with warmFailed := true }) else next

/-- Step 8 has failed, where it has not ended yet (Table SU-7): registration is refused. -/
def State.step8Fail (s : State) : State :=
  if (at? s.main.boot.ends 7 none).isNone then s.stepFail 8 else s

/-- Step 8 ends with the first OPERATION of a start, by warm resume or by registration (Table SU-1, R157). -/
def State.step8End (s : State) (warm : Bool) : State :=
  if (at? s.main.boot.ends 7 none).isNone then (s.modBoot (fun b => { b with warm := warm })).stepEnd 8 else s

/-- OPERATION entered: the tree and the epoch of the active lane are recorded, and the record written. -/
def State.enterOperation (s : State) : State :=
  let a := s.main.td.active
  let s1 := s.modTm (fun m => { m with
    trees := m.trees.set a (some s.main.td.tree)
    epochs := match m.profile with | some p => m.epochs.set a p.epoch | none => m.epochs
    version := s.frameVersion })
  (s1.setTm .operation).saveTree

/-- The downstream is lost (Table TM-2, R354). -/
def State.tmLost (s : State) : State :=
  let s1 := s.modTm (fun m => { m with doze := none, seen := none })
  match s1.main.tm.st with
  | .operation => s1.setTm .hold
  | .listen | .serial | .ranging | .warm => s1.setTm .initial
  | _ => s1

/-- The downstream is restored (Table TM-2). -/
def State.tmRestored (s : State) : State :=
  match s.main.tm.st with
  | .initial => s.enterListen
  | .hold =>
    if s.main.tm.timer + s.fld 0x060014 23 16 * 10 * msT < s.now then s.enterListen
    else
      let same := match at? s.main.tm.trees s.main.td.active none with | some t => t == s.main.td.tree | none => true
      if same then s.setTm .operation else s.enterListen
  | _ => s

/-- A change of VERSION on the active lane (R326, R358). -/
def State.tmVersion (s : State) (old new : Nat) : State :=
  let s1 := s.notify 0x0605 false [byte old, byte new]
  if s1.main.tm.st = .operation then
    if s1.versionOk new then (s1.modTm (fun m => { m with version := new })).saveTree else s1.enterListen
  else s1

/-! ### Membership messages (R337 to R351, R353, R361) -/

/-- UNKNOWN counted (R337). -/
def State.tmUnknown (s : State) : State := s.count 0x060024 7 4

/-- Whether bytes a to b of a message are 0. -/
def zeros (m : List Byte) (a b : Nat) : Bool := ((m.drop a).take (b + 1 - a)).all (· == 0#8)

/-- The types whose messages carry SERIAL (Table TM-3). -/
def carriesSerial (t : Nat) : Bool := t == 3 || t == 4 || t == 5 || t == 8 || t == 9

/-- Whether a message's reserved bytes and ranges are as Table TM-3 lays down. -/
def tmFormOk (m : List Byte) : Bool :=
  match field m 0 1 with
  | 2 => zeros m 9 9 && zeros m 23 27 && field m 22 1 % 128 == 0 && decide (4 ≤ field m 8 1 ∧ field m 8 1 ≤ 64)
      && decide (field m 17 1 ≤ 8) && decide (1 ≤ field m 20 2 ∧ field m 20 2 ≤ 8192)
  | 3 => zeros m 16 27 && decide (field m 14 2 < 4096)
  | 4 => zeros m 15 27
  | 5 => zeros m 13 13 && zeros m 16 27 && decide (field m 12 1 ≤ 2)
  | 6 => zeros m 8 27 && decide (1 ≤ field m 4 1 ∧ field m 4 1 ≤ 7) && decide (field m 5 1 ≤ 2) && decide (field m 6 2 < 4096)
  | 7 => zeros m 10 27 && decide (field m 4 2 < 4096)
  | 8 => zeros m 12 27
  | 9 => zeros m 13 27 && decide (field m 12 1 ≤ 1)
  | 10 => zeros m 11 11 && zeros m 14 27 && decide (field m 4 4 < 2 ^ 30)
  | _ => false

/-- TREE_PROFILE: it is in force from now on, and leads on from LISTEN (R334, R346). -/
def State.treeProfile (s : State) (m : List Byte) : State :=
  let p : Profile := { epoch := field m 4 4, preamble := field m 8 1, delimiter := field m 10 4, preEqd := field m 14 3,
                       bexp := field m 17 1, rdelay := field m 18 2, chimneyK := field m 20 2, fec := bitOf (field m 22 1) 7 }
  let s1 := s.modTm (fun t => { t with profile := some p, seen := some p })
  match s1.main.tm.st with
  | .listen => s1.evalProfile p
  | .operation =>
    let a := s1.main.td.active
    if at? s1.main.tm.epochs a 0 = p.epoch then s1
    else (s1.modTm (fun t => { t with epochs := t.epochs.set a p.epoch })).saveTree
  | _ => s1

/-- IDENT_ASSIGN in SERIAL, and again in RANGING (R343, R360). -/
def State.identAssign (s : State) (m : List Byte) : State :=
  if s.main.tm.st = .serial ∨ s.main.tm.st = .ranging then
    let s1 := s.modTm (fun t => { t with ident := some (field m 12 2), allocs := t.allocs.set 0 (some ⟨false, field m 14 2⟩) })
    ((s1.setTm .ranging).notify 0x0602 false (be 2 (field m 12 2) ++ be 2 (field m 14 2))).saveTree.pushTerm
  else s

/-- RANGING_RESULT in RANGING (R344). -/
def State.rangingResult (s : State) (m : List Byte) : State :=
  if s.main.tm.st = .ranging then
    let e := field m 12 3
    ((s.modTm (fun t => { t with eqd := e, eqds := t.eqds.set s.main.td.active (some e) })).count 0x060020 31 24).enterOperation.step8End false
  else s

/-- WARM_ACK in WARM (R347, R348). -/
def State.warmAck (s : State) (m : List Byte) : State :=
  if s.main.tm.st ≠ .warm then s
  else
    let a := s.main.td.active
    match field m 12 1 with
    | 0 =>
      let e := (max 0 (min 0xFFFFFF ((s.main.tm.eqd : Int) + toSigned 16 (field m 14 2)))).toNat
      ((s.modTm (fun t => { t with eqd := e, eqds := t.eqds.set a (some e) })).count 0x060020 23 16).enterOperation.step8End true
    | 1 =>
      let s1 := (s.count 0x060020 15 8).modTm (fun t => { t with eqds := t.eqds.set a none })
      s1.warmOut (s1.setTm .ranging).saveTree
    | _ =>
      let s1 := (s.count 0x060020 15 8).invalidateRecord
      s1.warmOut (s1.setTm .serial)

/-- ALLOC_ASSIGN (R350). -/
def State.allocAssign (s : State) (m : List Byte) : State :=
  let a : Option Alloc := if field m 5 1 = 0 then none else some ⟨field m 5 1 == 2, field m 6 2⟩
  (s.modTm (fun t => { t with allocs := t.allocs.set (field m 4 1) a })).saveTree.pushTerm

/-- PORT_ASSIGN (R351). -/
def State.portAssign (s : State) (m : List Byte) : State :=
  let n := field m 4 2
  let w := field m 6 4
  if tdPortLegal n w then
    let a := tdPortReg n
    (s.setWord a (regWritten (regFields a) (s.word a) w)).tdPortWritten n (s.word a)
  else s.tmUnknown

/-- DEREGISTER, in every state but DISABLED. -/
def State.deregister (s : State) : State :=
  if s.main.tm.st = .disabled then s
  else ((s.step8Fail.modTm (fun t => { t with doze := none })).invalidateRecord).enterListen

/-- DISABLE (R361). -/
def State.disableTerm (s : State) (action : Nat) : State :=
  if action = 0 then
    (((s.step8Fail.modTm (fun t => { t with disabled := true, doze := none })).setTm .disabled).saveTree.pushTerm).notify 0x0604 true [0#8]
  else if s.main.tm.st = .disabled then
    ((s.modTm (fun t => { t with disabled := false })).saveTree.notify 0x0604 true [1#8]).enterListen.pushTerm
  else s

/-- DOZE_GRANT carried by the frame `carry` (R353). -/
def State.dozeGrant (s : State) (carry : Nat) (m : List Byte) : State :=
  let start := field m 4 4
  let n := field m 8 3
  let d := sdiff 30 start carry
  if n = 0 then s.modTm (fun t => { t with doze := none, dozeReq := none })
  else if 1 ≤ d ∧ d ≤ 8191 then
    s.modTm (fun t => { t with doze := some ⟨start, (start + n) % 2 ^ 30, field m 12 2⟩, dozeReq := none })
  else s

/-- An accepted membership message, carried by the frame `carry` (R337). -/
def State.tmMessage (s : State) (carry : Nat) (m : List Byte) : State :=
  let t := field m 0 1
  if !tmFormOk m then s.tmUnknown
  else if carriesSerial t && field m 4 8 != s.termSerial then
    if t = 3 then s else s.count 0x060024 15 8
  else match t with
    | 2 => s.treeProfile m
    | 3 => s.identAssign m
    | 4 => s.rangingResult m
    | 5 => s.warmAck m
    | 6 => s.allocAssign m
    | 7 => s.portAssign m
    | 8 => s.deregister
    | 9 => s.disableTerm (field m 12 1)
    | _ => s.dozeGrant carry m

/-- The head of the message queue, where it is of a type: it leaves the queue and is applied (R308); what Smoulder holds
waits for Blaze (R319). -/
def State.takeMessage (s : State) (type : Nat) : State :=
  match s.main.td.msgs with
  | (sfc, m) :: t =>
    if field m 0 1 = type ∧ !s.smouldering then
      let s1 := s.modTd (fun d => { d with msgs := t })
      if type = 1 then s1.timeMessage sfc ((m.drop 4).take 24) else s1.tmMessage sfc m
    else s
  | [] => s

/-- Every message that waits, applied in order before the map of a later frame is decoded (R338);
`k` bounds them. -/
def State.drainMessages : Nat → State → State
  | 0, s => s
  | k + 1, s => match s.main.td.msgs with
    | (_, m) :: _ => State.drainMessages k (s.takeMessage (field m 0 1))
    | [] => s

/-- A message of a type beyond Table TM-3 at the head of the queue is ignored and counted (R337). -/
def State.takeUnknown (s : State) : State :=
  match s.main.td.msgs with
  | (_, m) :: _ => if 10 < field m 0 1 then s.takeMessage (field m 0 1) else s
  | [] => s

/-! ### Timers -/

/-- What TO1_EXPIRY does: the identity is discarded (R343). -/
def State.to1Expiry (s : State) : State :=
  if s.main.tm.st = .ranging ∧ s.main.tm.timer + s.fld 0x060014 31 24 * 100 * msT ≤ s.now then
    s.warmOut (((s.step8Fail.modTm (fun m => { m with ident := none, allocs := m.allocs.set 0 none })).setTm .serial).saveTree.pushTerm)
  else s

/-- What TW_EXPIRY does: the record is kept (R347). -/
def State.twExpiry (s : State) : State :=
  if s.main.tm.st = .warm ∧ s.main.tm.timer + s.fld 0x060014 15 8 * 100 * msT ≤ s.now then
    let s1 := s.count 0x060020 15 8
    s1.warmOut (s1.setTm .serial)
  else s

/-- What TO2_EXPIRY does. -/
def State.to2Expiry (s : State) : State :=
  if s.main.tm.st = .hold ∧ s.main.tm.timer + s.fld 0x060014 23 16 * 10 * msT ≤ s.now then s.setTm .initial else s

/-- What TREE_RECORD_SAVE does (R349). -/
def State.treeRecordSave (s : State) : State :=
  if s.main.tm.st = .operation ∧ s.main.tm.savedAt + 64 * secT ≤ s.now then s.saveTree else s

/-! ### Protection (R355 to R357) -/

/-- A tree lane's alignment and filters. -/
def State.tdLane (s : State) (n : Nat) : TdLane := at? s.main.td.lanes n {}

/-- A lane is LOCKED. -/
def State.tdLocked (s : State) (n : Nat) : Bool := (s.tdLane n).st == .locked

/-- The request of a lane, and the tree it selects (R355). -/
def State.laneReq (s : State) (n : Nat) : Nat × Nat :=
  let l := s.tdLane n
  match l.srq1.accepted, l.srq2.accepted with
  | some a, some b => (if 7 ≤ a / 16 then 0 else a / 16, b / 128)
  | _, _ => (0, 0)

/-- The decision of R356: the lane, and the request of Table TM-7, or 7 for a lost lane. -/
def State.protect (s : State) : Nat × Nat :=
  let a := s.main.td.active
  let o := 1 - a
  let ra := s.laneReq a
  let ro := s.laneReq o
  let r := if ra.1 < ro.1 then ro else ra
  let lost := s.main.td.lost && decide (s.main.td.lostAt + s.fld 0x060018 23 16 * msT ≤ s.now)
  let l0 := s.tdLane 0
  if r.1 = 6 then (0, 6)
  else if r.1 = 5 then (r.2, 5)
  else if lost && s.tdLocked o then (o, 7)
  else if r.1 = 4 ∨ r.1 = 3 then (r.2, r.1)
  else if s.bit 0x060018 30 && a == 1 && r.1 == 0 && s.tdLocked 0
      && decide (l0.lockedAt + s.fld 0x060018 15 0 * secT ≤ s.now) then (0, 0)
  else (a, r.1)

/-- The request is evaluated, once per frame of the active lane (R356). -/
def State.evalProtect (s : State) : State := s.modTm (fun m => { m with req := s.protect.2 })

/-- Every SDU in reassembly is discarded and counted (R315). -/
def State.dropAllReasm (s : State) : State :=
  let l := s.main.td.reasm
  let s1 := l.foldl (fun x r => x.dropReasm r false) s
  (s1.countN 0x05001C 31 16 l.length).modTd (fun t => { t with skip := [] })

/-- What PROTECTION_SWITCH does at a frame boundary (R322, R356, R357). -/
def State.protectionSwitch (s : State) : State :=
  let d := s.protect
  let a := s.main.td.active
  if !s.main.sk.isLead ∨ d.1 = a ∨ !s.tdLocked d.1 ∨ !s.bit 0x060018 31 then s.evalProtect
  else
    let body := [byte a, byte d.1, byte d.2]
    let s1 := (s.modTd (fun t => { t with active := d.1 })).dropAllReasm
    let s2 := s1.modTm (fun m => { m with
      req := d.2, doze := none, seen := none
      eqd := match at? m.eqds d.1 none with | some e => e | none => m.preEqd })
    let s3 := ((s2.count 0x060020 7 0).ash 0x06 0x01 body).notify 0x0603 true body
    let s4 := match s3.main.tm.st with
      | .ranging | .warm | .operation | .hold => s3.setTm .listen
      | _ => s3
    s4.saveTree

/-! ### Upstream membership messages (R339) -/

/-- An upstream membership message (Tables TM-4, TM-5). -/
def State.upMessage (s : State) (type data : Nat) : List Byte :=
  let b := [byte type, byte (b2n s.identity.isSome * 128)] ++ optBytes 2 s.identity ++ be 8 s.termSerial ++ be 2 data
  b ++ be 2 (crc16 b)

/-- The members of the stack: those present, and this one. -/
def State.memberCount (s : State) : Nat :=
  1 + ((List.range 8).filter (fun m => m != s.self && (at? s.main.sk.peers m {}).present)).length

/-- SERIAL_REPORT. -/
def State.serialReport (s : State) : List Byte := s.upMessage 0x81 (s.fld 0x060010 1 0 * 256 + s.memberCount)

/-- RANGE_REPLY. -/
def State.rangeReply (s : State) : List Byte := s.upMessage 0x82 0

/-- WARM_REPLY: hours since LAST_OP. -/
def State.warmReply (s : State) : List Byte := s.upMessage 0x83 (sat 65535 ((s.hearthSec - s.main.tm.lastOp) / 3600))

/-- DOZE_REQ for a time in milliseconds; DOZE_END is never sent, as R353 leaves the terminal free. -/
def State.dozeRequest (s : State) (ms : Nat) : State :=
  { (s.modTm (fun m => { m with dozeReq := some s.now })) with
    main := { (s.modTm (fun m => { m with dozeReq := some s.now })).main with
      up := { s.main.up with membership := some (s.upMessage 0x84 (sat 65535 ms)) } } }

/-! ### Registers and opcodes (R363, R364) -/

/-- TM_STATUS as it reads. -/
def State.tmStatusWord (s : State) : Nat :=
  let m := s.main.tm
  m.st.code * 2 ^ 28 + b2n s.identity.isSome * 2 ^ 27 + b2n (m.dozing s.activeSfc) * 2 ^ 26
    + (if m.version = 2 ∨ m.version = 3 then m.version else 0) * 2 ^ 24 + m.req * 2 ^ 20 + s.identity.getD 0

/-- TM_EQD_W and TM_EQD_P as they read. -/
def State.tmEqdWord (s : State) (n : Nat) : Nat :=
  match at? s.main.tm.eqds n none with | some e => 2 ^ 31 + e | none => 0

/-- TM_DOZE as it reads. -/
def State.tmDozeWord (s : State) : Nat :=
  match s.main.tm.doze with
  | some d => b2n (s.main.tm.dozing s.activeSfc) * 2 ^ 31 + d.stop
  | none => 0

/-- TM_ALLOCn as it reads. -/
def State.tmAllocWord (s : State) (n : Nat) : Nat :=
  match at? s.main.tm.allocs n none with | some a => 2 ^ 31 + b2n a.shared * 2 ^ 30 + a.id | none => 0

/-- TM_STATUS. -/
def opTmStatus (op : Nat) (p : List Byte) (s : State) : State :=
  if p ≠ [] then s.finish op 0x0004 []
  else s.finish op 0 (be 4 s.tmStatusWord ++ be 4 s.main.tm.eqd ++ be 4 (s.tmEqdWord 0) ++ be 4 (s.tmEqdWord 1)
    ++ be 8 s.termSerial ++ (List.range 8).flatMap (fun n => be 4 (s.tmAllocWord n)) ++ be 4 s.tmDozeWord)

/-- The states in which the record may be set by an opcode (R363). -/
def State.tmIdle (s : State) : Bool :=
  match s.main.tm.st with
  | .initial | .listen | .serial => true
  | _ => false

/-- TM_SET_IDENT: IDENT, DEFAULT_ALLOC. -/
def opTmSetIdent (op : Nat) (p : List Byte) (s : State) : State :=
  if p.length ≠ 4 then s.finish op 0x0004 []
  else if 4096 ≤ field p 2 2 then s.finish op 0x0005 []
  else if !s.tmIdle then s.finish op 0x000E []
  else
    let s1 := s.modTm (fun m => { m with
      ident := some (field p 0 2), allocs := m.allocs.set 0 (some ⟨false, field p 2 2⟩)
      eqds := [none, none], trees := [none, none], epochs := [0, 0] })
    (s1.saveTree.pushTerm).finish op 0 []

/-- TM_FORGET. -/
def opTmForget (op : Nat) (p : List Byte) (s : State) : State :=
  if p ≠ [] then s.finish op 0x0004 []
  else if !s.tmIdle then s.finish op 0x000E []
  else s.invalidateRecord.finish op 0 []

/-- TM_CLEAR_DISABLE. -/
def opTmClearDisable (op : Nat) (p : List Byte) (s : State) : State :=
  if p ≠ [] then s.finish op 0x0004 []
  else
    let s1 := (s.modTm (fun m => { m with disabled := false })).saveTree
    (if s1.main.tm.st = .disabled then s1.enterListen.pushTerm else s1).finish op 0 []

end Sys2Proof.Machine
end

