-- ==== Sys2Proof/Machine/TreeDown.lean ====
section
/-! DEFINITION. Tree downstream (09): frames, alignment, the identity block, the grant map, overhead
messages, payload units, reassembly, the loss of the downstream, and the TD opcode. -/

namespace Sys2Proof.Machine

/-! ### The identity block (R296 to R298) -/

/-- The identity block at the head of a data area, where it is valid (R298). -/
def frameIdOf (d : List Byte) : Option FrameId :=
  let v := field d 0 1 / 32
  let gm := field d 7 2 % 512
  let msg := field d 9 1 % 64
  if field d 14 2 = crc16 (d.take 14) ∧ (v = 2 ∨ v = 3) ∧ gm ≤ 256 ∧ msg ≤ 32 then
    some { version := v, fec := bitOf (field d 0 1) 4, sfc := field d 1 4 % 2 ^ 30, srq1 := field d 5 1,
           srq2 := field d 6 1, gm := gm, msg := msg, tree := field d 10 1 }
  else none

/-- The identity block of a descrambled body: as received, else out of codeword 0 (R296). -/
def bodyId (b : List Byte) : Option FrameId :=
  match frameIdOf (b.take 16) with
  | some i => some i
  | none => match rsDecode (b.take 255) with
    | some (c, _) => frameIdOf (c.take 16)
    | none => none

/-- The bits in which a frame's first four bytes differ from FSYNC (R293). -/
def syncErrors (b : List Byte) : Nat :=
  let x := Nat.xor (field b 0 4) 0x39D46EB2
  ((List.range 32).filter (fun i => bitOf x i)).length

/-! ### Alignment (R299 to R301, R310) -/

/-- A tree lane changed by a function. -/
def State.modTdLane (s : State) (k : Nat) (f : TdLane → TdLane) : State :=
  s.modTd (fun t => { t with lanes := t.lanes.modify k f })

/-- The codes of the alignment states (Table TD-15). -/
def Align.code : Align → Nat
  | .hunt => 0 | .confirm => 1 | .locked => 2

/-- The alignment of a lane changes: TD_ALIGN, and its filters are empty (R310). -/
def State.setAlign (s : State) (k : Nat) (st : Align) : State :=
  let old := (s.tdLane k).st
  let s1 := s.modTdLane k (fun l => { l with
    st := st, errs := 0, srq1 := {}, srq2 := {}, lockedAt := if st = .locked then s.now else l.lockedAt })
  if old = st then s1 else s1.notify 0x0501 false [byte k, byte old.code, byte st.code]

/-- The rest of the frame under way is discarded (R323): a map that is not complete misses its deadline (R306). -/
def State.cutFrame (s : State) : State :=
  match s.main.td.frame with
  | some f => s.modTd (fun t => { t with
      frame := none, miss := if f.at_ < 16 + 8 * f.id.gm then some (f.ts + 30 * usT) else t.miss })
  | none => s

/-- Tributaries, reassembly, network time and membership hear of the loss, and no grant stands (R321, Table TD-7). -/
def State.tdLost (s0 : State) (k cause : Nat) : State :=
  let s := s0.cutFrame
  if s.main.td.lost then s
  else
    let s1 := s.modTd (fun t => { t with lost := true, lostAt := s.now, grants := [] })
    let other := b2n (s1.tdLocked (1 - k))
    let s2 := if s1.main.cmd.started then s1.notify 0x0502 true [byte k, byte cause, byte other] else s1
    ((s2.ntAlignLost.tmLost.dropAllReasm).pushTerm).wake 0x07

/-- A lane leaves CONFIRM or LOCKED: cause 0 LOS, 1 LOL, 2 errored frames (R300, R310, R321). -/
def State.toHunt (s : State) (k cause : Nat) : State :=
  match (s.tdLane k).st with
  | .hunt => s
  | .confirm => s.setAlign k .hunt
  | .locked =>
    let s1 := (s.setAlign k .hunt).count (0x050100 + 32 * k) 15 8
    if k = s.main.td.active ∧ s.main.sk.isLead then s1.tdLost k cause else s1

/-- A lane that is not locked any more goes to HUNT (R300, R323). -/
def State.laneGone (s : State) (n cause : Nat) : State := if n < 2 ∧ !s.laneLocked n then s.toHunt n cause else s

/-- The tree lanes after LOS, LOL or the loss of a PLL: cause 0 LOS, 1 LOL (Table TD-3, Table TD-12). -/
def State.treeFollow (s : State) : State :=
  (List.range 2).foldl (fun x n => x.laneGone n (if (x.lane n).los then 0 else 1)) s

/-- Whether a lane's alignment machine runs: step 5 is over, the lane has lock, and it is the active one
or is monitored (R319, R320, R330). -/
def State.watched (s : State) (k : Nat) : Bool :=
  s.ppsOn && s.laneLocked k && (k == s.main.td.active || (s.bit 0x050000 0 && s.hearth.ps != .smoulder))

/-- The return from Smoulder: the lanes run again, and the monitoring of the other tree lane restarts in HUNT (R280,
R320). -/
def State.treeReturn (s : State) : State :=
  let o := 1 - s.main.td.active
  let s1 := s.lanesReturn
  if (s1.tdLane o).st = .hunt then s1 else s1.setAlign o .hunt

/-! ### Switching-request filters (R309) -/

/-- A filter sees a value: the new filter, and whether a changed value has been accepted. -/
def Filter.see (f : Filter) (p v : Nat) : Filter × Bool :=
  let run := if f.value = v ∧ 0 < f.run then sat 16 (f.run + 1) else 1
  if p ≤ run ∧ f.accepted ≠ some v then (⟨v, run, some v⟩, true) else (⟨v, run, f.accepted⟩, false)

/-- The filters of a lane see a valid identity block. -/
def State.seeSrq (s : State) (k : Nat) (i : FrameId) : State :=
  let p := s.fld 0x050000 27 24
  let l := s.tdLane k
  let a := l.srq1.see p i.srq1
  let b := l.srq2.see p i.srq2
  let s1 := s.modTdLane k (fun l => { l with srq1 := a.1, srq2 := b.1 })
  if a.2 || b.2 then s1.notify 0x0504 false [byte k, byte (a.1.accepted.getD 0), byte (b.1.accepted.getD 0)] else s1

/-! ### The grant map (R304 to R306, R341) -/

/-- The timestamp point of a frame whose FSYNC reaches the balls at an instant (R205). -/
def State.stampOf (s : State) (t : Nat) : Nat := t - s.fld 0x02001C 15 0 * 8 / 25

/-- The timestamp point of a frame whose FSYNC reaches the balls now. -/
def State.stampPoint (s : State) : Nat := s.stampOf s.now

/-- The start of upstream frame k after a timestamp point (R206). -/
def State.upFrameStart (s : State) (ts : Nat) : Nat := ts + 11200 + s.main.tm.eqd / 2

/-- A grant entry's validity (R304). -/
def grantOk (e : List Byte) : Bool :=
  field e 7 1 == crc8 (e.take 7) && field e 0 2 / 16 != 0 && decide (field e 2 2 ≤ 9999) && decide (field e 4 2 ≤ 9999)

/-- Whether an ALLOC is for the terminal (R305). -/
def State.allocMine (s : State) (a : Nat) : Bool :=
  if a = 0xFFF then !s.registered
  else s.main.tm.allocs.any (fun x => match x with | some y => y.id == a | none => false)

/-- A grant entry of frame `sfc`, whose map is complete at `ready` (R305, R371). -/
def State.grantEntry (s : State) (ts ready : Nat) (i : FrameId) (e : List Byte) : State :=
  if !grantOk e then s.count 0x050010 15 8
  else
    let w := field e 0 2
    if !s.allocMine (w / 16) then s
    else if 16 ≤ (s.main.td.grants.filter (fun g => g.sfc == i.sfc)).length then s.count 0x050010 7 0
    else
      let warm := bitOf w 1 && i.version == 3
      let eqd := if w / 16 = 0xFFF then s.main.tm.preEqd else s.main.tm.eqd
      let start := ts + 11200 + eqd / 2 + 4 * field e 2 2
      let fill := max (start - s.fld 0x070000 15 8 * usT) ready
      s.modTd (fun t => { t with grants := t.grants ++ [⟨i.sfc, w / 16, field e 2 2, start, fill, field e 4 2,
        bitOf w 3, bitOf w 2, warm, bitOf w 0⟩] })

/-- The upstream queues hold nothing. -/
def State.queuesEmpty (s : State) : Bool := s.main.up.queues.all (fun q => q.sdus.isEmpty)

/-- The grant map is complete: a grant for a terminal that has something to send wakes it (R391). -/
def State.mapDone (s : State) (sfc : Nat) : State :=
  if s.main.td.grants.any (fun g => g.sfc == sfc) && !s.queuesEmpty then s.wake 0x08 else s

/-- A missed map is counted once its deadline has passed (R306). -/
def State.grantMapDeadline (s : State) : State :=
  match s.main.td.miss with
  | some t => if t ≤ s.now then (s.modTd (fun d => { d with miss := none })).count 0x050010 31 16 else s
  | none => s

/-! ### Overhead messages (R307, R308, R319) -/

/-- An overhead message of a delivered frame. -/
def State.overhead (s : State) (sfc : Nat) (m : List Byte) (lost : Bool) : State :=
  let t := field m 0 1
  let addr := field m 1 1 / 64
  if lost || field m 30 2 != crc16 (m.take 30) || t == 0 || decide (0x40 ≤ t) || addr == 3 then s.count 0x050014 15 8
  else if (addr = 1 ∧ s.identity ≠ some (field m 2 2)) ∨ (addr = 2 ∧ s.registered) then s
  else if s.smouldering ∧ t = 1 then s
  else
    let room := if s.smouldering then 8 else 64
    let s1 := s.count 0x050014 31 16
    let s2 := if room ≤ s1.main.td.msgs.length then s1.count 0x050014 7 0
      else s1.modTd (fun d => { d with msgs := d.msgs ++ [(sfc, m)] })
    if s.hearth.ps = .bank ∨ addr = 1 then s2.wake 0x07 else s2

/-! ### Payload units (R311 to R317, R319) -/

/-- Whether a stream's plaintext already flows into a transmit buffer (R470). -/
def State.inMac (s : State) (stream : Option Nat) : Bool :=
  stream.isSome && s.main.em.ports.any (fun p => p.sends.any (fun x => x.stream == stream))

/-- An SDU complete at its LAST unit takes its place on the way to its destination (R316, R317). -/
def State.sduIn (s : State) (r : Reasm) : State :=
  let w := s.tdPort r.port
  if s.inMac r.stream then s
  else s.modTd (fun t => { t with sdus := t.sdus ++ [{
    port := r.port, dest := bits w 24 20, member := if r.port = 1 then s.self else bits w 27 25
    bytes := r.bytes, done := r.stream.isNone, sfc := s.activeSfc, stream := r.stream }] })

/-- The reassembly of a port. -/
def State.reasm? (s : State) (port : Nat) : Option Reasm := s.main.td.reasm.find? (fun r => r.port == port)

/-- A unit's data enters its SDU, and a fragment of an encrypted port goes to the cipher engine (R315,
R316, R497). -/
def State.fragment (s : State) (r : Reasm) (first : Bool) (ident : Nat) (data : List Byte) (last lost : Bool) : State :=
  let keep (x : State) (r : Reasm) : State :=
    x.modTd (fun t => { t with reasm := t.reasm.filter (fun y => y.port != r.port) ++ (if last then [] else [r]) })
  let r1 := { r with bytes := r.bytes ++ data, fec := r.fec || lost }
  if 16384 < r1.bytes.length then (s.dropReasm r (!last)).count 0x05001C 15 8
  else if r1.fec then
    if last then (s.dropReasm r false).count 0x050020 15 8 else keep s r1
  else match r.stream with
    | none => if last then (keep s r1).sduIn r1 else keep s r1
    | some id =>
      let w := s.tdPort r.port
      let q : CyReq := { id := 0, for_ := .down id, op := 2, first := first, last := last, slot := bits w 7 0,
                         fixed := be 4 (r.port * 65536 + ident), data := data, queue := bits w 9 8, since := s.now }
      match s.submit q with
      | (s1, 0) => if last then (keep s1 r1).sduIn r1 else keep s1 r1
      | (s1, _) => s1.dropReasm r (!last)

/-- A unit for the terminal that comes in Smoulder, or before Blaze is reached again, is lost with its SDU (R319). -/
def State.unitLost (s : State) (port : Nat) (last : Bool) : State :=
  let s1 := s.count 0x050020 7 0
  match s1.reasm? port with
  | some r => s1.dropReasm r (!last)
  | none => s1.modTd (fun t => { t with skip := t.skip.filter (· != port) ++ (if last then [] else [port]) })

/-- The tributary of this member that a port leads to, where a unit on it cannot be a container: without LAST, or not N + 1
bytes long, or N + 25 encrypted (R435, R498). -/
def State.badContainer (s : State) (port len : Nat) (last : Bool) : Option Nat :=
  let w := s.tdPort port
  let t := bits w 24 20 - 8
  if port = 1 ∨ bits w 24 20 < 8 ∨ 11 < bits w 24 20 ∨ bits w 27 25 ≠ s.self then none
  else if last && len == s.fld (0x090100 + 32 * t) 5 0 + (if s.portCipher port then 25 else 1) then none
  else some t

/-- A unit for the terminal (R315, R316, R435). -/
def State.unitIn (s : State) (port ident : Nat) (data : List Byte) (last lost : Bool) : State :=
  match s.badContainer port data.length last with
  | some t => s.count (0x090110 + 32 * t) 23 16
  | none =>
  match s.reasm? port with
  | some r => s.fragment r false ident data last lost
  | none =>
    if s.main.td.skip.contains port then
      if last then s.modTd (fun t => { t with skip := t.skip.filter (· != port) }) else s
    else if 64 ≤ s.main.td.reasm.length then
      (s.count 0x05001C 7 0).modTd (fun t => { t with skip := if last then t.skip else t.skip ++ [port] })
    else if s.portCipher port then
      let id := s.main.cy.nextId
      let x : CyStream := { id := id, slot := bits (s.tdPort port) 7 0, fixed := be 4 (port * 65536 + ident) }
      (s.modCy (fun c => { c with streams := c.streams ++ [x] })).fragment ⟨port, [], false, false, some id⟩ true
        ident data last lost
    else s.fragment ⟨port, [], false, false, none⟩ true ident data last lost

/-- A valid unit header is decoded (R313, R314): whether the unit's data is to be taken. A unit for the terminal wakes the
chip (R318, R319). -/
def State.unitSeen (s : State) (port ident : Nat) (last : Bool) : State × Bool :=
  let mine (x : State) : State × Bool :=
    if x.smouldering then ((x.unitLost port last).wake 0x07, false) else (x.wake 0x07, true)
  if port = 0xFFF then (s, false)
  else if s.portOn port && bitOf (s.tdPort port) 30 && port != 1 then mine s
  else if s.identity ≠ some ident then (s, false)
  else if port = 0 ∨ !s.portOn port then
    ((s.count 0x050020 31 24).modTd (fun t => { t with skip := if last then t.skip.filter (· != port) else t.skip }), false)
  else mine s

/-- Delineation is lost: every SDU in reassembly is discarded (R312, R315). -/
def State.delinLost (s : State) : State := s.dropAllReasm

/-- Finished SDUs for other members leave for them, those of destination 2 leave the block (R317, R502);
`k` bounds them. An SDU waits for the earlier ones of its port. -/
def State.routeSdus : Nat → State → State
  | 0, s => s
  | k + 1, s =>
    let l := s.main.td.sdus
    let first (d : DownSdu) : Bool := match l.find? (fun x => x.port == d.port) with | some x => x == d | none => false
    match l.find? (fun d => d.done && first d && (d.member != s.self || d.dest == 2)) with
    | none => s
    | some d =>
      let s1 := s.modTd (fun t => { t with sdus := t.sdus.erase d })
      State.routeSdus k (
        if d.member ≠ s.self then
          s1.sendMsg 3 d.member 0x08 (b2n d.distrust * 2 ^ 31 + d.dest * 2 ^ 24) d.bytes
        else if d.distrust then s1.count 0x0B0008 7 0 else s1)

/-- The first finished SDU for a destination of this member, and the state without it (R316). -/
def State.takeSdu (s : State) (p : DownSdu → Bool) : Option (DownSdu × State) :=
  let l := s.main.td.sdus
  match l.find? (fun d => p d && d.member == s.self) with
  | some d => if d.done then some (d, s.modTd (fun t => { t with sdus := t.sdus.erase d })) else none
  | none => none

/-! ### A frame (R302, R303, R309, R326, R327) -/

/-- The downstream is restored by a delivered frame. -/
def State.tdRestored (s : State) : State :=
  if s.main.td.lost then
    let ms := (s.now - s.main.td.lostAt) / msT
    let s1 := (s.modTd (fun t => { t with lost := false })).notify 0x0503 false
      ([byte s.main.td.active] ++ be 4 (sat 0xFFFFFFFF ms))
    s1.tmRestored.pushTerm
  else s

/-- A doze agreement has come to its end (R353). -/
def State.dozeEnd (s : State) : State :=
  match s.main.tm.doze with
  | some d => if 0 ≤ sdiff 30 s.activeSfc d.stop then s.modTm (fun m => { m with doze := none }) else s
  | none => s

/-- The data of the rest of a frame touches a lost codeword within `n` bytes of its place. -/
def FrameRest.hit (f : FrameRest) (n : Nat) : Bool :=
  f.lost.any (fun r => decide (r.1 < f.at_ + n) && decide (f.at_ < r.2))

/-- The `n` bytes at the place of a frame have come and been decoded (R306, Table TD-1). -/
def FrameRest.due (f : FrameRest) (n now : Nat) : Bool := decide (f.since + codewordEnd f.id.fec (f.at_ + n - 1) < now)

/-- The rest of a frame after `n` more bytes. -/
def FrameRest.past (f : FrameRest) (n : Nat) : FrameRest :=
  { f with at_ := f.at_ + n, data := f.data.drop n, mine := none }

/-- The rest of the frame being delivered is this. -/
def State.setFrame (s : State) (f : Option FrameRest) : State := s.modTd (fun t => { t with frame := f })

/-- The header of a unit of a frame (R311 to R313): delineation is lost where it is damaged, or the unit would not
fit. -/
def State.unitHeader (s : State) (f : FrameRest) : State :=
  let h := f.data.take 8
  if f.hit 8 || field h 6 2 != crc16 (h.take 6) then ((s.count 0x050018 31 16).delinLost).setFrame none
  else
    let w := field h 0 6
    if f.data.length < 8 + bits w 19 6 then ((s.count 0x050018 15 0).delinLost).setFrame none
    else
      let (x, mine) := s.unitSeen (bits w 31 20) (bits w 47 32) (bitOf w 5)
      x.setFrame (some { f with mine := some mine })

/-- The unit of a frame whose header has been decoded is there in full. -/
def State.unitEnd (s : State) (f : FrameRest) (mine : Bool) : State :=
  let w := field f.data 0 6
  let n := bits w 19 6
  let s1 := if mine then
      (s.unitIn (bits w 31 20) (bits w 47 32) ((f.data.drop 8).take n) (bitOf w 5) ((f.past 8).hit n)).routeSdus 5000
    else s
  s1.setFrame (some (f.past (8 + n)))

/-- The next part of the frame being delivered, once it has come: an entry of its grant map (R325), a message, the header
or the data of a unit; none where nothing has come yet, or nothing is left. -/
def State.frameStep (s : State) : Option State :=
  match s.main.td.frame with
  | none => none
  | some f =>
    let gm := 16 + 8 * f.id.gm
    let msg := gm + 32 * f.id.msg
    if f.at_ < gm then
      if f.due 8 s.now then
        let ready := f.ts + codewordEnd f.id.fec (gm - 1) + 1 + usT
        let s1 := (s.grantEntry f.ts ready f.id (f.data.take 8)).setFrame (some (f.past 8))
        some (if f.at_ + 8 = gm then s1.mapDone f.id.sfc else s1)
      else none
    else if f.at_ < msg then
      if f.due 32 s.now then some ((s.overhead f.id.sfc (f.data.take 32) (f.hit 32)).setFrame (some (f.past 32))) else none
    else if f.data.length < 8 then some (s.setFrame none)
    else match f.mine with
      | none => if f.due 8 s.now then some (s.unitHeader f) else none
      | some mine => if f.due (8 + bits (field f.data 0 6) 19 6) s.now then some (s.unitEnd f mine) else none

/-- What has come by now of the frame being delivered is processed; `k` bounds its parts. -/
def State.frameGo : Nat → State → State
  | 0, s => s
  | k + 1, s => match s.frameStep with
    | some x => State.frameGo k x
    | none => s

/-- The data of a delivered frame after its identity block: a map that cannot be decoded, or that Smoulder does not decode,
is passed over, and only the first is a miss (R306, R319). -/
def State.startFrame (s : State) (i : FrameId) (body : Body) : State :=
  let ts := s.stampPoint
  let f : FrameRest := ⟨i, s.now, ts, 16, body.data.drop 16, body.lost, none⟩
  if s.smouldering then s.setFrame (some (f.past (8 * i.gm)))
  else if f.hit (8 * i.gm) then (s.setFrame (some (f.past (8 * i.gm)))).modTd (fun t => { t with miss := some (ts + 30 * usT) })
  else s.setFrame (some f)

/-- A frame with a valid identity block is delivered (R302), its TREE noted for the tree record in OPERATION (Table TM-6): its map, its messages and its units follow as they come. -/
def State.deliver (s : State) (i : FrameId) (body : Body) : State :=
  let s1 := (s.modTd (fun t => { t with sfc := i.sfc, fec := i.fec, tree := i.tree, frameAt := s.now })).tdRestored
  let s2 := if s1.main.tm.st = .operation then s1.modTm (fun m => { m with trees := m.trees.set s1.main.td.active (some i.tree) })
    else s1
  s2.dozeEnd.startFrame i body

/-- The map of a frame that delivers none misses its deadline, but in Smoulder (R306, R319). -/
def State.mapMissed (s : State) (t : Nat) : State :=
  if s.smouldering then s else s.modTd (fun d => { d with miss := some (s.stampOf t + 30 * usT) })

/-- A lane's frame of instant `t` in LOCKED, with its identity block where that is valid: filters, VERSION, FEC counts,
and on the active lane of the lead the latch and delivery. -/
def State.lockedFrame (s : State) (k t : Nat) (i : Option FrameId) (b : List Byte) : State :=
  let active := k == s.main.td.active
  let old := (s.tdLane k).version
  let body := match i with | some x => decodeBody x.fec b | none => ⟨[], [], 0, 0, 0⟩
  let s1 := match i with
    | some x => (s.seeSrq k x).modTdLane k (fun l => { l with version := x.version })
    | none => s
  let s2 := match i with
    | some x => if active && s.main.sk.isLead && old != 0 && old != x.version then s1.tmVersion old x.version else s1
    | none => s1
  let r := 0x050100 + 32 * k
  let bad := body.bad + (match i with
    | none => b2n (bitOf (field b 0 1) 4 && (rsDecode (b.take 255)).isNone)
    | some _ => 0)
  let s3 := ((s2.countN (r + 4) 31 0 body.bytes).countN (r + 8) 31 16 body.cws).countN (r + 8) 15 0 bad
  if !active || !s.main.sk.isLead then s3
  else
    let s4 := s3.latchFrame (s3.tdLane k).sfc (s3.now - t)
    let s5 := match i with
      | some x => if s4.main.td.frameAt < s4.now then s4.deliver x body else s4
      | none => (s4.mapMissed t).dropAllReasm
    s5.evalProtect

/-- The superframe counter of a frame in LOCKED (R303). -/
def State.jump (s : State) (k expected : Nat) (i : Option FrameId) : State :=
  match i with
  | none => s.modTdLane k (fun l => { l with sfc := expected })
  | some x =>
    let s1 := s.modTdLane k (fun l => { l with sfc := x.sfc })
    if x.sfc = expected then s1
    else
      let s2 := (s1.count (0x050100 + 32 * k) 7 0).notify 0x0505 false ([byte k] ++ be 4 expected ++ be 4 x.sfc)
      if k = s.main.td.active then s2.ntJump else s2

/-- A lane enters LOCKED with a frame, which is its first that is delivered (Table TD-3). -/
def State.lockLane (s : State) (k : Nat) (i : FrameId) (b : List Byte) : State :=
  ((s.setAlign k .locked).modTdLane k (fun l => { l with sfc := i.sfc })).lockedFrame k s.now (some i) b

/-- A frame at the timing of a lane in CONFIRM or LOCKED, begun at `t` (R299 to R301): `near` says that its FSYNC is within
the tolerance. One that fails to come is errored, and its identity block is not valid. -/
def State.timedFrame (s0 : State) (k t : Nat) (near : Bool) (i : Option FrameId) (b : List Byte) : State :=
  let l := s0.tdLane k
  let s := s0.modTdLane k (fun l => { l with at_ := t })
  match l.st with
  | .hunt => s0
  | .confirm =>
    match i with
    | some x =>
      if near && x.sfc == (l.sfc + 1) % 2 ^ 30 then
        if s.fld 0x050000 18 15 ≤ l.good + 1 then s.lockLane k x b
        else s.modTdLane k (fun l => { l with good := l.good + 1, sfc := x.sfc, version := x.version })
      else (s.modTdLane k (fun l => { l with version := x.version })).toHunt k 2
    | none => s.toHunt k 2
  | .locked =>
    let expected := (l.sfc + 1) % 2 ^ 30
    if near && i.isSome then
      ((s.modTdLane k (fun l => { l with errs := 0 })).jump k expected i).lockedFrame k t i b
    else
      let s1 := s.count (0x050100 + 32 * k) 31 16
      if s.fld 0x050000 23 19 ≤ l.errs + 1 then
        (if k = s.main.td.active ∧ s.main.sk.isLead then s1.mapMissed t else s1).toHunt k 2
      else ((s1.modTdLane k (fun l => { l with errs := l.errs + 1 })).jump k expected i).lockedFrame k t i b

/-- Frames of a lane that have failed to come by now, at the timing that advances by 320,000 bits a frame (R301); `n` bounds
them, since CONFIRM bears none and LOCKED fewer than M. -/
def State.framesMissed (k : Nat) : Nat → State → State
  | 0, s => s
  | n + 1, s =>
    let t := (s.tdLane k).at_ + 40000
    if (s.tdLane k).st ≠ .hunt ∧ s.watched k ∧ t < s.now then
      State.framesMissed k n ((s.grantMapDeadline).timedFrame k t false none [])
    else s

/-- What the tree lines bring by themselves as time passes: the rest of the frame being delivered, and the frames that fail
to come. -/
def State.treeGo (s : State) : State := State.framesMissed 1 32 (State.framesMissed 0 32 (State.frameGo 6000 s))

/-- What FRAME_RECEIVED does: the 40,000 bytes of a frame of a lane, from its FSYNC on, at the frame timing
of the lane, or in HUNT from a place where the search looks (R300, R301). -/
def State.frameReceived (s0 : State) (k : Nat) (bytes : List Byte) : State :=
  let s := s0.grantMapDeadline
  if 2 ≤ k ∨ !s.main.out ∨ !s.watched k ∨ bytes.length ≠ 40000 then s
  else
    let l := s.tdLane k
    let b := scramble (bytes.drop 4)
    let i := bodyId b
    if l.st = .hunt then
      match i with
      | some x =>
        if syncErrors bytes ≠ 0 then s
        else
          let s1 := s.modTdLane k (fun l => { l with at_ := s.now })
          if s.fld 0x050000 18 15 = 1 then s1.lockLane k x b
          else (s1.setAlign k .confirm).modTdLane k (fun l => { l with good := 1, sfc := x.sfc, version := x.version })
      | none => s
    else if l.at_ + 40000 ≠ s.now then s
    else
      let s1 := if k = s.main.td.active ∧ !s.smouldering then s.drainMessages 64 else s
      s1.timedFrame k s.now (decide (syncErrors bytes ≤ s.fld 0x050000 14 13)) i b

/-! ### Registers and the opcode -/

/-- TD_STATUS as it reads. -/
def State.tdStatusWord (s : State) : Nat :=
  let t := s.main.td
  let valid (k : Nat) : Bool := let l := s.tdLane k; l.srq1.accepted.isSome || l.srq2.accepted.isSome
  t.active * 2 ^ 31 + b2n t.lost * 2 ^ 30 + s.frameVersion * 2 ^ 27 + b2n t.fec * 2 ^ 26 + t.tree * 2 ^ 18
    + b2n (valid 1) * 32 + b2n (valid 0) * 16 + (s.tdLane 1).st.code * 4 + (s.tdLane 0).st.code

/-- TD_SRQ as it reads. -/
def State.tdSrqWord (s : State) : Nat :=
  let v (k : Nat) : Nat := let l := s.tdLane k; l.srq1.accepted.getD 0 * 256 + l.srq2.accepted.getD 0
  v 0 * 65536 + v 1

/-- TD_REPORT: it clears no counter (R331). -/
def opTdReport (op : Nat) (p : List Byte) (s : State) : State :=
  if p ≠ [] then s.finish op 0x0004 []
  else s.finish op 0 (be 4 s.tdStatusWord ++ be 4 s.main.td.sfc ++ be 4 s.tdSrqWord
    ++ [0x050010, 0x050014, 0x050018, 0x05001C, 0x050020, 0x050100, 0x050104, 0x050108, 0x050120, 0x050124,
        0x050128].flatMap (fun a => be 4 (s.word a)))

end Sys2Proof.Machine
end

