-- ==== Sys2Proof/Machine/Upstream.lean ====
section
/-! DEFINITION. Upstream bursts and scheduling (11): queues and sources, dampers, policers, energy admission,
the fill of a grant, bursts on the line, the chimney slot, and the UP opcodes. -/

namespace Sys2Proof.Machine

/-- The upstream block changed by a function. -/
def State.modUp (s : State) (f : Upstream → Upstream) : State := { s with main := { s.main with up := f s.main.up } }

/-- The tributary block changed by a function. -/
def State.modTb (s : State) (f : Tribs → Tribs) : State := { s with main := { s.main with tb := f s.main.tb } }

/-! ### Queues and sources (R372 to R374) -/

/-- UP_Qn_CFG. -/
def upCfg (n : Nat) : Nat := 0x070100 + 16 * n
/-- UP_Qn_PORT. -/
def upPort (n : Nat) : Nat := 0x070104 + 16 * n

/-- The upstream port of a queue: 0x001 for queue 0. -/
def State.queuePort (s : State) (n : Nat) : Nat := s.fld (upPort n) 31 20

/-- A queue. -/
def State.upQueue (s : State) (n : Nat) : UpQueue := at? s.main.up.queues n {}

/-- A queue changed by a function. -/
def State.modQueue (s : State) (n : Nat) (f : UpQueue → UpQueue) : State :=
  s.modUp (fun u => { u with queues := u.queues.modify n f })

/-- Bytes queued: UP_Qn_FILL. -/
def UpQueue.fill (q : UpQueue) : Nat := (q.sdus.map (fun d => d.len - d.sent)).sum

/-- The upstream pool in use (UP_STATUS). -/
def State.poolUsed (s : State) : Nat := ((s.main.up.queues.drop 1).map UpQueue.fill).sum

/-- Whether the key slot of a queue with CIPHER = 1 is empty, queue 0 excepted (R374, R493). -/
def State.queueKeyless (s : State) (n : Nat) : Bool :=
  n != 0 && s.fld (upPort n) 19 18 == 1 && dirLen (s.keySlot (s.fld (upPort n) 15 8)).dir == 0

/-- An SDU offered to a queue of this chip: 0 accepted, 1 refused, 2 refused with KEYS_EMPTY (R373, R374). -/
def State.enqueue (s : State) (n : Nat) (k : SduKind) (b : List Byte) : State × Nat :=
  let d := s.mkSdu n k b
  let cfg := s.word (upCfg n)
  let refused := s.count (0x07010C + 16 * n) 31 16
  if s.queueKeyless n then (refused, 2)
  else if !bitOf cfg 31 || decide (1024 * bits cfg 17 8 < (s.upQueue n).fill + d.len)
    || (n != 0 && decide (1024 * s.fld 0x07000C 10 0 < s.poolUsed + d.len)) then (refused, 1)
  else (s.modQueue n (fun q => { q with sdus := q.sdus ++ [d] }), 0)

/-- Whether the counter of a key slot can give no more values (R501). -/
def State.keyExhausted (s : State) (k : Nat) : Bool :=
  let c := at? s.main.cy.ctrs k 0
  decide (dirCeil (s.keySlot k).dir ≤ c / 2 ^ 47) && decide (0xFFFF < c / 2 ^ 47 + 1)

/-- The fixed field of an upstream request (Table CY-7). -/
def State.upFixed (s : State) (port : Nat) : List Byte :=
  be 4 (2 ^ 31 + s.self * 2 ^ 28 + port * 65536 + s.identity.getD 0)

/-- Whether an SDU can be passed to its cipher queue now. -/
def State.submittable (s : State) (d : Sdu) : Bool :=
  d.readyAt.isNone && d.req.isNone && s.cqOn d.cq && decide ((at? s.main.cy.queues d.cq []).length < 1024)
    && dirLen (s.keySlot d.slot).dir != 0 && dirUse (s.keySlot d.slot).dir 1 && !s.keyExhausted d.slot

/-- The next SDU of a queue that waits for its cipher queue is passed to it (R374, R393). -/
def State.submitSdu (s : State) (n : Nat) : Option State :=
  let q := s.upQueue n
  match q.sdus.find? s.submittable with
  | none => none
  | some d =>
    let id := s.main.cy.nextId
    let r : CyReq := { id := id, for_ := .sdu, op := 1, slot := d.slot, fixed := s.upFixed (s.queuePort n),
                       data := d.bytes, queue := d.cq, since := s.now }
    let i := q.sdus.findIdx s.submittable
    some ((s.submit r).1.modQueue n (fun q => { q with sdus := q.sdus.modify i (fun d => { d with req := some id }) }))

/-- A queue's SDUs passed to the cipher engine as far as it takes them; `k` bounds them. -/
def State.submitQueue (n : Nat) : Nat → State → State
  | 0, s => s
  | k + 1, s => match s.submitSdu n with
    | some s1 => State.submitQueue n k s1
    | none => s

/-- Every queue's SDUs passed to the cipher engine. -/
def State.submitAll (s : State) : State :=
  (List.range 32).foldl (fun x n => State.submitQueue n (x.upQueue n).sdus.length x) s

/-! ### Dampers (R380 to R382) -/

/-- UP_DAMPER_n. -/
def damperReg (n : Nat) : Nat := 0x070400 + 16 * n

/-- The words of a damper in force, UP_DAMPER_n and its RATE: EN cleared holds the traffic at once, any other change
waits for the next frame boundary (R382). -/
def State.damper (s : State) (n : Nat) : Nat × Nat :=
  let w := s.word (damperReg n)
  match at? s.main.up.damperOld n none with
  | some (old, rate) => (if bitOf w 31 then old else putBits old 31 31 0, rate)
  | none => (w, s.fld (damperReg n + 4) 23 0)

/-- A damper passes traffic (R381, R382). -/
def State.damperPasses (s : State) (n : Nat) : Bool :=
  let w := (s.damper n).1
  bitOf w 31 && (!bitOf w 30 || decide (0 < at? s.main.up.credits n 0))

/-- A damper charged with a unit, or refunded where `sign` is 1. -/
def State.damperCharge (s : State) (n take : Nat) (sign : Int) : State :=
  let w := (s.damper n).1
  if bitOf w 30 then s.modUp (fun u => { u with credits := u.credits.modify n (fun c =>
    c + sign * ((take + bits w 29 24) * 256 : Nat)) })
  else s

/-- The dampers at a frame boundary: credits are refilled, or set to 0 after a write (R381, R382). -/
def State.damperBoundary (s : State) : State :=
  s.modUp (fun u => { u with
    credits := (List.range 40).map (fun n =>
      let w := s.word (damperReg n)
      let c := at? u.credits n 0
      if (at? u.damperOld n none).isSome then 0
      else if bitOf w 31 && bitOf w 30 then min (c + s.fld (damperReg n + 4) 23 0) (bits w 19 0 * 256 : Nat)
      else c)
    damperOld := List.replicate 40 none })

/-- UP_DAMPER_n or its RATE has been written, with the words before (R382). -/
def State.damperWritten (s : State) (n old oldRate : Nat) : State :=
  let w := s.word (damperReg n)
  let changed := s.word (damperReg n + 4) != oldRate || bits w 30 24 != bits old 30 24 || bits w 19 0 != bits old 19 0
    || (bitOf w 31 && !bitOf old 31)
  let held (o : Nat × Nat) : Nat × Nat := (if bitOf w 31 then o.1 else putBits o.1 31 31 0, o.2)
  let now := at? s.main.up.damperOld n none
  let next := if changed then some (now.getD (old, oldRate % 2 ^ 24)) else now
  s.modUp (fun u => { u with damperOld := u.damperOld.set n (next.map held) })

/-! ### Policers (R383) -/

/-- UP_POLp_CFG. -/
def polReg (p : Nat) : Nat := 0x070800 + 32 * p

/-- What a rate of 8 kbit/s units has given by an instant, in 1/1,024 byte: updated every microsecond. -/
def rateUnits (rate now : Nat) : Nat := rate * 1024 * (now / usT) / 1000

/-- The buckets of a policer filled up to now (R383; RFC 2697, RFC 2698). -/
def State.fillBucket (s : State) (p : Nat) : Bucket :=
  let b := at? s.main.up.buckets p {}
  let r := polReg p
  let cap := s.fld (r + 12) 31 16 * 65536
  let cap2 := s.fld (r + 12) 15 0 * 65536
  let add := rateUnits (s.fld (r + 4) 23 0) s.now - rateUnits (s.fld (r + 4) 23 0) b.since
  if s.bit r 30 then
    let add2 := rateUnits (s.fld (r + 8) 23 0) s.now - rateUnits (s.fld (r + 8) 23 0) b.since
    ⟨min cap (b.c + add), min cap2 (b.e + add2), s.now⟩
  else ⟨min cap (b.c + add), min cap2 (b.e + (b.c + add - min cap (b.c + add))), s.now⟩

/-- A frame of `len` bytes from destination address to FCS meets a policer: colour 0 green, 1 yellow,
2 red (R383). -/
def State.police (s : State) (p len : Nat) (dei : Bool) : State × Nat :=
  let r := polReg p
  let b := s.fillBucket p
  let n := (len + s.fld r 4 0) * 1024
  let yellowIn := s.bit r 29 && dei
  let (b1, colour) : Bucket × Nat :=
    if s.bit r 30 then
      if b.e < n then (b, 2)
      else if yellowIn || decide (b.c < n) then ({ b with e := b.e - n }, 1)
      else ({ b with c := b.c - n, e := b.e - n }, 0)
    else if !yellowIn && decide (n ≤ b.c) then ({ b with c := b.c - n }, 0)
    else if n ≤ b.e then ({ b with e := b.e - n }, 1)
    else (b, 2)
  (s.modUp (fun u => { u with buckets := u.buckets.set p b1 }), colour)

/-! ### Energy admission (R384, R385) -/

/-- LN_TREE_TX: LEAD and LAG. -/
def State.leadLag (s : State) : Nat := s.fld 0x040000 12 8 + s.fld 0x040000 20 16

/-- Eb of a burst of `n` byte times, in microjoules (R384). -/
def State.burstUj (s : State) (n : Nat) : Nat :=
  let v := s.fld 0x070008 19 8 * (s.leadLag + n) * 125
  (v + 9999999) / 10000000 + 10 * s.fld 0x070008 7 0

/-- A grant is declined: counted, and for the first in a row recorded and queued (R385). -/
def State.decline (s : State) (alloc eb f : Nat) : State :=
  let s1 := s.count 0x07001C 31 16
  if s1.main.up.declineRun then s1
  else
    let body := be 2 alloc ++ be 4 eb ++ be 4 s.hearth.resE ++ be 4 (f / 1000)
    ((s1.modUp (fun u => { u with declineRun := true })).ash 0x07 0x01 body).notify 0x0701 false body

/-- TREE_TXDISn of a lane is held high: a grant for it is treated as not admitted (R40, R65, R287). -/
def State.txHeld (s : State) (lane : Nat) : Bool :=
  lane != s.main.td.active || s.rogueLatched lane || s.main.ln.pllHold || s.hardFloor

/-- F for a burst: nothing is kept back for the flush where it is an alarm burst (R384). -/
def State.flushTerm (s : State) (alarm : Bool) : Nat := if alarm then 0 else s.flushUj

/-- A burst is admitted, or declined (R65, R384, R385). -/
def State.admitBurst (s : State) (alloc n : Nat) (alarm : Bool) : State × Bool :=
  let eb := s.burstUj n
  let f := s.flushTerm alarm
  if !s.txHeld s.main.td.active && s.admits eb f then ((s.charge eb).modUp (fun u => { u with declineRun := false }), true)
  else (s.decline alloc eb f, false)

/-! ### Units and refunds (R368, R378, R380) -/

/-- An alarm notice awaits acknowledgement (Table UP-1). -/
def State.alarmWaiting (s : State) : Bool := s.main.cmd.notices.any (fun n => n.alarm)

/-- A placed unit's SDU given back to its queue; the unit is withdrawn. -/
def State.refundUnit (s : State) (u : UpUnit) : State :=
  match u.src with
  | .queue n d take =>
    let s1 := s.modQueue n (fun q => { q with
      sdus := if u.last then d :: q.sdus else q.sdus.modify 0 (fun _ => d)
      deficit := q.deficit + (8 + take : Nat) })
    (s1.damperCharge n take 1).damperCharge (32 + s.fld (upCfg n) 30 28) take 1
  | _ => s

/-- Whether a unit holds bytes of a queue. -/
def UpUnit.ofQueue (u : UpUnit) (n : Nat) : Bool := match u.src with | .queue m _ _ => m == n | _ => false

/-- The queues whose bytes units hold. -/
def unitQueues (l : List UpUnit) : List Nat :=
  (l.filterMap (fun u => match u.src with | .queue n _ _ => some n | _ => none)).eraseDups

/-- A unit that will not be sent. -/
def UpUnit.withdraw (u : UpUnit) : UpUnit := { u with src := .withdrawn, data := [], readyAt := some 0, req := none }

/-- Units not sent, in the order placed: their bytes return to the heads of their queues, those of later
bursts first, so that each queue keeps its order (R380). -/
def State.refund (s : State) (units : List UpUnit) : State :=
  let qs := unitQueues units
  let mine (u : UpUnit) : Bool := qs.any (fun n => u.ofQueue n)
  let later := (s.main.up.bursts.flatMap (fun b => b.units)).filter mine
  let s1 := (units ++ later).reverse.foldl State.refundUnit s
  s1.modUp (fun u => { u with bursts := u.bursts.map (fun b =>
    { b with units := b.units.map (fun x => if mine x then x.withdraw else x) }) })

/-! ### The burst on the line (R365 to R369) -/

/-- The data capacity of a window (R366). -/
def capacity (length preamble : Nat) (fec : Bool) : Nat :=
  let b := length - preamble - 4
  if fec then 239 * (b / 255) + (if 17 ≤ b % 255 then b % 255 - 16 else 0) else b

/-- A unit on the line (Table TD-6). -/
def unitBytes (ident port : Nat) (last : Bool) (data : List Byte) : List Byte :=
  let h := be 6 (ident * 2 ^ 32 + port * 2 ^ 20 + data.length * 64 + b2n last * 32)
  h ++ be 2 (crc16 h) ++ data

/-- Idle fill of `n` bytes (R368). -/
def idleFill (ident n : Nat) : List Byte :=
  if n < 8 then List.replicate n 0#8 else unitBytes ident 0xFFF true (List.replicate (n - 8) 0#8)

/-- The data of a unit. -/
def UpUnit.bytes (u : UpUnit) : List Byte :=
  match u.src with
  | .queue _ d take => (d.bytes.drop d.sent).take take
  | _ => u.data

/-- A unit of a burst on the line; one withdrawn is idle. -/
def UpUnit.line (u : UpUnit) (ident : Nat) : List Byte :=
  match u.src with
  | .withdrawn => idleFill ident (8 + u.len)
  | _ => unitBytes ident u.port u.last u.bytes

/-- The burst header (Table UP-1). -/
def Burst.header (b : Burst) : List Byte :=
  let h := be 2 b.ident ++ be 2 (b.alloc * 16 + b2n b.report.isSome * 8 + b2n b.fec * 4)
    ++ [byte (b2n b.onReserve * 128 + b2n b.alarmWaiting * 64), 0#8]
  h ++ be 2 (crc16 h)

/-- Header and report of a burst. -/
def Burst.head (b : Burst) : List Byte :=
  b.header ++ (match b.report with | some r => r.flatMap (be 2) | none => [])

/-- When data byte `d` of a burst falls due at the serialiser. -/
def Burst.due (b : Burst) (d : Nat) : Nat :=
  b.start + 4 * (b.preamble + 4 + if b.fec then 255 * (d / 239) + d % 239 else d)

/-- When the window ends. -/
def Burst.stop (b : Burst) : Nat := b.start + 4 * b.length

/-- The units with the data byte at which each begins. -/
def placeUnits : Nat → List UpUnit → List (UpUnit × Nat)
  | _, [] => []
  | d, u :: t => (u, d) :: placeUnits (d + 8 + u.len) t

/-- The units of a burst with their places. -/
def Burst.placed (b : Burst) : List (UpUnit × Nat) := placeUnits (8 + if b.report.isSome then 16 else 0) b.units

/-- The data of a window coded (R366): `k` bounds the codewords. -/
def encodeFec : Nat → Nat → List Byte → List Byte
  | 0, _, _ => []
  | k + 1, b, d =>
    if 255 ≤ b then d.take 239 ++ rsParity (d.take 239) ++ encodeFec k (b - 255) (d.drop 239)
    else if 17 ≤ b then d.take (b - 16) ++ rsParity (d.take (b - 16))
    else List.replicate b 0#8

/-- The bytes of a burst from its preamble to the end of its window, with the units given (R365, R366); a
ranging burst is preamble, delimiter and message (R340). -/
def Burst.line (b : Burst) (units : List UpUnit) : List Byte :=
  let front := List.replicate b.preamble 0xAA#8 ++ be 4 b.delimiter
  match b.ranging with
  | some m => front ++ m
  | none =>
    let n := b.length - b.preamble - 4
    let d := b.head ++ units.flatMap (fun u => u.line b.ident)
    let full := d ++ idleFill b.ident (capacity b.length b.preamble b.fec - d.length)
    front ++ scramble (if b.fec then encodeFec (n / 255 + 1) n full else full)

/-- Packets whose last unit has gone out leave their transport (R94). -/
def UpUnit.leaving (u : UpUnit) : List OutKind :=
  match u.src with
  | .queue _ d _ => (match d.kind with | .packet k => if u.last then [k] else [] | _ => [])
  | _ => []

/-- A burst that has come to its window's end (R380): a unit whose ciphertext was not complete as it fell due
ends the data, and it and the later ones return to their queues. -/
def State.burstEnd (s : State) : State :=
  match s.main.up.current with
  | none => s
  | some b =>
    if s.now < b.stop then s
    else
      let ok (p : UpUnit × Nat) : Bool := match p.1.readyAt with | some t => decide (t ≤ b.due p.2) | none => false
      let sent := (b.placed.takeWhile ok).map (·.1)
      let rest := b.units.drop sent.length
      let s1 := s.modUp (fun u => { u with
        current := none, sentEnd := b.stop, sentLane := some b.lane, line := b.line sent
        leaving := u.leaving ++ sent.flatMap UpUnit.leaving })
      if rest = [] then s1 else (s1.count 0x070018 31 16).refund rest

/-- The transmitters go dark in a burst under way: units not sent whole return to their queues. -/
def State.dropBurst (s : State) : State :=
  match s.main.up.current with
  | none => s
  | some b =>
    let whole (p : UpUnit × Nat) : Bool := decide (b.due (p.2 + 7 + p.1.len) + 4 ≤ s.now)
    let sent := (b.placed.takeWhile whole).map (·.1)
    (s.modUp (fun u => { u with
      current := none, sentEnd := s.now, sentLane := some b.lane, line := (b.line sent).take ((s.now - b.start) / 4)
      leaving := u.leaving ++ sent.flatMap UpUnit.leaving })).refund (b.units.drop sent.length)

/-- The hard floor cuts the burst under way (R386). -/
def State.cutBurst (s : State) : State :=
  match s.main.up.current with
  | none => s
  | some b =>
    let body := be 2 b.alloc ++ be 2 s.hearth.resCode
    ((s.dropBurst.count 0x07001C 15 0).ash 0x07 0x02 body).notify 0x0702 false body

/-- `dt` ticks pass, what the tree lines bring in them is taken, and a burst whose window they end is closed: every command
begins with it. -/
def State.begin (s : State) (dt : Nat) : State := (s.elapse dt).treeGo.burstEnd

/-! ### The scheduler (R376 to R379) -/

/-- Whether a queue may be served in a slot (R378, R393). -/
def State.eligible (s : State) (n : Nat) : Bool :=
  !(s.upQueue n).sdus.isEmpty && s.damperPasses n && s.damperPasses (32 + s.fld (upCfg n) 30 28) && !s.queueKeyless n

/-- The queues of a slot at a priority. -/
def State.levelQueues (s : State) (slot prio : Nat) : List Nat :=
  (List.range 32).filter (fun n => s.fld (upCfg n) 30 28 == slot && s.fld (upCfg n) 27 26 == prio)

/-- The queue of a level that the round-robin pointer leads to: its deficit is increased as the pointer
reaches it (R378). -/
def State.pickLevel (s : State) (slot prio : Nat) : Option (Nat × State) :=
  let i := slot * 4 + prio
  let (cur, fresh) := at? s.main.up.rr i (0, false)
  let l := s.levelQueues slot prio
  let order := l.filter (fun n => cur ≤ n) ++ l.filter (fun n => n < cur)
  match order.find? s.eligible with
  | none => none
  | some n =>
    if n = cur ∧ fresh then some (n, s)
    else some (n, (s.modQueue n (fun q => { q with deficit := q.deficit + (s.fld (upCfg n) 25 18 * 256 : Nat) })).modUp
      (fun u => { u with rr := u.rr.set i (n, true) }))

/-- The first eligible queue of a slot: lowest PRIO, then the pointer (R378). -/
def State.pickQueueUp (s : State) (slot : Nat) : Option (Nat × State) :=
  (List.range 4).findSome? (fun p => s.pickLevel slot p)

/-- One unit of a queue placed: the SDU loses the bytes, dampers and deficit are charged, and the pointer
moves on where it must. -/
def State.placeUnit (s : State) (slot n : Nat) (d : Sdu) (take : Nat) (last : Bool) : State × UpUnit :=
  let u : UpUnit := { src := .queue n d take, port := s.queuePort n, data := [], len := take, last := last,
                      readyAt := d.readyAt, req := d.req }
  let s1 := s.modQueue n (fun q => { q with
    sdus := if last then q.sdus.drop 1 else q.sdus.modify 0 (fun d => { d with sent := d.sent + take })
    deficit := if last && q.sdus.length == 1 then 0 else q.deficit - (8 + take : Nat) })
  let s2 := (s1.damperCharge n take (-1)).damperCharge (32 + slot) take (-1)
  let i := slot * 4 + s.fld (upCfg n) 27 26
  let s3 := if (s2.upQueue n).deficit ≤ 0 ∨ !s2.eligible n then
      s2.modUp (fun u => { u with rr := u.rr.set i ((n + 1) % 32, false) }) else s2
  (s3, u)

/-- The loop of R378; `k` bounds the units. -/
def State.fillLoop (slot : Nat) : Nat → Nat → State → State × List UpUnit
  | 0, _, s => (s, [])
  | k + 1, room, s =>
    match s.pickQueueUp slot with
    | none => (s, [])
    | some (n, s1) =>
      match (s1.upQueue n).sdus with
      | [] => (s, [])
      | d :: _ =>
        let rest := d.len - d.sent
        let take := if rest + 8 ≤ room then some rest
          else if s1.fld 0x070000 23 16 + 8 ≤ room then some (room - 8) else none
        match take with
        | none => (s, [])
        | some take =>
          let (s2, u) := s1.placeUnit slot n d take (take == rest)
          let (s3, l) := State.fillLoop slot k (room - 8 - take) s2
          (s3, u :: l)

/-- The unit of a closed container. -/
def Container.unit (c : Container) : UpUnit :=
  { src := .trib c.trib, port := c.port, data := c.data,
    len := if c.readyAt.isSome then c.data.length else c.data.length + 24,
    last := true, readyAt := c.readyAt, req := c.req }

/-- The container that stands in for one that has not reached the lead (R439). -/
def Remote.unit (x : Remote) : UpUnit :=
  { src := .trib x.trib, port := x.port, data := 1#8 :: List.replicate x.n 0xFF#8, len := x.n + 1, last := true }

/-- Substitutes counted in the registers of the members that own them, over Strait (REG_ACCESS: 1, a count; register;
field; R439). -/
def State.countLate (s : State) (l : List Remote) : State :=
  l.foldl (fun x r => x.sendMsg 0 r.member 0x0B 0 ([1#8] ++ be 4 (0x09010C + 32 * r.trib) ++ [15#8, 0#8])) s

/-- The reservations of a slot in frame `sfc`, in tributary order, member by member, as far as `room` takes them;
one that does not fit is lost and counted (R376, R439). -/
def State.reserve (s : State) (slot sfc room : Nat) : State × List UpUnit :=
  let mine := s.main.tb.closed.filter (fun c => c.slot == slot && c.sfc == sfc)
  let late := s.main.tb.remote.filter (fun x => x.slot == slot && (at? s.main.sk.peers x.member {}).present
    && !mine.any (fun c => c.member == x.member && c.trib == x.trib))
  let all := (List.range 8).flatMap (fun m => (List.range 4).flatMap (fun t =>
    (mine.filter (fun c => c.member == m && c.trib == t)).map Container.unit
      ++ (late.filter (fun x => x.member == m && x.trib == t)).map Remote.unit))
  let placed := (all.foldl (fun (p : Nat × List UpUnit) u =>
    if u.len + 8 ≤ p.1 then (p.1 - 8 - u.len, p.2 ++ [u]) else p) (room, [])).2
  let s0 := s.modTb (fun t => { t with closed := t.closed.filter (fun c => !mine.contains c) })
  ((s0.countLate late).countN 0x070018 7 0 (all.length - placed.length), placed)

/-- The backlog of a slot (R367). -/
def State.backlog (s : State) (slot : Nat) : Nat :=
  match at? s.main.tm.allocs slot none with
  | none => 0xFFFF
  | some _ =>
    let qs := (List.range 32).filter (fun n => s.fld (upCfg n) 30 28 == slot)
    let t := (qs.map (fun n => ((s.upQueue n).sdus.map (fun d => 8 + d.len - d.sent)).sum)).sum
    sat 0xFFFE ((t + 31) / 32)

/-- The queue report (Table UP-2). -/
def State.queueReport (s : State) : List Nat := (List.range 8).map s.backlog

/-! ### The fill of a grant (R370, R371, R385, R387, R391) -/

/-- The window tests and the lane: whether a grant may be used (R269, R370). -/
def State.windowOk (s : State) (start : Nat) (room : Bool) : State × Bool :=
  let gap := match s.main.up.lastEnd with | some e => decide (e + 4 * s.leadLag ≤ start) | none => true
  let a := s.main.td.active
  if !gap || !room then (s.count 0x070018 15 8, false)
  else if !s.laneLocked a then (s.count 0x040004 31 16, false)
  else (s, true)

/-- A burst filled: it waits for its START. -/
def State.launch (s : State) (b : Burst) : State :=
  s.modUp (fun u => { u with bursts := u.bursts ++ [b], lastEnd := some b.stop })

/-- The burst of a grant, without its content. -/
def State.mkBurst (s : State) (p : Profile) (g : Grant) (slot : Nat) : Burst :=
  { start := g.at_, length := g.length, lane := s.main.td.active, slot := slot, alloc := g.alloc
    preamble := p.preamble, delimiter := p.delimiter, fec := p.fec, ident := s.identity.getD 0
    onReserve := s.hearth.onReserve, alarmWaiting := s.alarmWaiting }

/-- A ranging, warm or discovery burst (R340 to R343, R347): `late` byte times after the window's START. -/
def State.rangingBurst (s : State) (p : Profile) (g : Grant) (late : Nat) (m : List Byte) (alarm : Bool) : State × Bool :=
  let n := p.preamble + 4 + m.length
  if g.length < p.preamble + 20 then (s, false)
  else
    let start := g.at_ + 4 * late
    match s.windowOk start true with
    | (s1, false) => (s1, false)
    | (s1, true) => match s1.admitBurst g.alloc n alarm with
      | (s2, false) => (s2, false)
      | (s2, true) => (s2.launch { s2.mkBurst p g 0 with start := start, length := n, fec := false, ranging := some m }, true)

/-- A discovery window in SERIAL (R342). -/
def State.discovery (s : State) (p : Profile) (g : Grant) : State :=
  if s.main.tm.st ≠ .serial ∨ !g.ranging then s
  else if s.main.tm.countdown ≠ 0 then s.modTm (fun m => { m with countdown := m.countdown - 1 })
  else
    let (d, s1) := s.drawBelow (p.rdelay + 1)
    match s1.rangingBurst p g d s1.serialReport false with
    | (s2, false) => s2
    | (s2, true) =>
      let (c, s3) := s2.drawBelow (2 ^ p.bexp)
      (s3.modTm (fun m => { m with countdown := c })).count 0x060024 31 16

/-- Alarm notices that the chimney may carry (R387 to R389). -/
def State.chimneyDue (s : State) : List Notice :=
  if s.main.cmd.bound = .tree then s.main.cmd.notices.filter (fun n => n.alarm && !n.chimneyOff && n.wire != []) else []

/-- Notices for as many as fit, oldest first (R388). -/
def fitNotices : Nat → List Notice → List Notice
  | _, [] => []
  | room, n :: t => if n.wire.length + 8 ≤ room then n :: fitNotices (room - 8 - n.wire.length) t else []

/-- A chimney window (R387 to R389). -/
def State.chimney (s : State) (p : Profile) (g : Grant) : State :=
  let shared := s.main.tm.allocs.any (fun a => match a with | some x => x.shared && x.id == g.alloc | none => false)
  let u := s.main.up
  if !shared ∨ u.waitUntil.isSome then s
  else if 0 < u.skip then s.modUp (fun u => { u with skip := u.skip - 1 })
  else if !s.bit 0x070014 31 ∨ s.main.tm.st ≠ .operation ∨ !s.blazing then s
  else
    let head := 8 + if g.report then 16 else 0
    let cap := capacity g.length p.preamble p.fec
    let l := fitNotices (cap - head) s.chimneyDue
    if l = [] then s
    else match s.windowOk g.at_ (decide (head ≤ cap)) with
      | (s1, false) => s1
      | (s1, true) => match s1.admitBurst g.alloc g.length true with
        | (s2, false) => s2
        | (s2, true) =>
          let nums := l.map (·.num)
          let units : List UpUnit := l.map (fun n =>
            { src := .notice n.num, port := 1, data := n.wire, len := n.wire.length, last := true })
          let b : Burst := { s2.mkBurst p g 0 with
            chimney := true, units := units, report := if g.report then some s2.queueReport else none }
          let s3 := s2.modCmd (fun c => { c with notices := c.notices.map (fun n =>
            if nums.contains n.num then { n with chimney := n.chimney + 1 } else n) })
          (s3.launch b).modUp (fun u => { u with
            carried := nums, waitUntil := some (b.stop + s.fld 0x070014 23 16 * 40000) })

/-- An ordinary grant to a slot (R365, R378, R379, R391). -/
def State.ordinary (s : State) (p : Profile) (g : Grant) (slot : Nat) : State :=
  let head := 8 + if g.report then 16 else 0
  let cap := capacity g.length p.preamble p.fec
  match s.windowOk g.at_ (decide (head ≤ cap)) with
  | (s1, false) => s1
  | (s1, true) =>
    let first := s1.main.up.usedSfc != g.sfc || !s1.main.up.usedSlots.contains slot
    let s2 := s1.modUp (fun u => { u with
      usedSfc := g.sfc, usedSlots := if u.usedSfc = g.sfc then u.usedSlots ++ [slot] else [slot] })
    let (s3, own) := if first then s2.reserve slot g.sfc (cap - head) else (s2, [])
    let room := cap - head - (own.map (fun u => 8 + u.len)).sum
    let (s4, msg) : State × List UpUnit := match s3.main.up.membership with
      | some m => if slot = 0 ∧ s3.blazing ∧ 24 ≤ room then
          (s3.modUp (fun u => { u with membership := none }),
            [{ src := .message, port := 0xFFE, data := m, len := m.length, last := true }])
        else (s3, [])
      | none => (s3, [])
    let room2 := room - (msg.map (fun u => 8 + u.len)).sum
    let (s5, units) := if s4.blazing then State.fillLoop slot 2000 room2 s4 else (s4, [])
    let alarm := units.any (fun u => match u.src with
      | .queue 0 d _ => u.last && d.sent == 0 && (match d.kind with
        | .packet (.notice k) => s.main.cmd.notices.any (fun n => n.num == k && n.alarm)
        | _ => false)
      | _ => false)
    match s5.admitBurst g.alloc g.length alarm with
    | (_, false) =>
      let s6 := (s1.admitBurst g.alloc g.length alarm).1
      s6.modUp (fun u => { u with usedSfc := s2.main.up.usedSfc, usedSlots := s2.main.up.usedSlots })
    | (s6, true) =>
      s6.launch { s6.mkBurst p g slot with
        units := own ++ msg ++ units, report := if g.report then some s6.queueReport else none }

/-- The slot of an allocation in force. -/
def State.slotOf (s : State) (alloc : Nat) : Option Nat :=
  (List.range 8).find? (fun i => match at? s.main.tm.allocs i none with | some a => a.id == alloc | none => false)

/-- A grant is decided at its fill instant (R333, R341, R371). -/
def State.fillGrant (s : State) (g : Grant) : State :=
  match s.main.tm.profile with
  | none => s
  | some p =>
    if !s.main.sk.isLead ∨ s.quarantined then s
    else if g.alloc = 0xFFF then s.discovery p g
    else if g.chimney then s.chimney p g
    else match s.slotOf g.alloc with
      | none => s
      | some slot =>
        if g.ranging then
          if slot = 0 ∧ s.main.tm.st = .ranging then (s.rangingBurst p g 0 s.rangeReply s.alarmWaiting).1 else s
        else if g.warm then
          if slot = 0 ∧ s.main.tm.st = .warm then (s.rangingBurst p g 0 s.warmReply s.alarmWaiting).1 else s
        else if s.main.tm.st = .operation then s.ordinary p g slot else s

/-- The grant that is filled next, of those whose fill instant has come: earliest start first, map order
between equals (R370). -/
def State.nextGrant (s : State) : Option Grant :=
  (s.main.td.grants.filter (fun g => decide (g.fillAt ≤ s.now))).foldl (fun (m : Option Grant) g => match m with
    | some x => if g.at_ < x.at_ then some g else some x
    | none => some g) none

/-- What FILL_INSTANT does. -/
def State.fillInstant (s : State) : State :=
  if !s.main.out ∨ s.hearth.ps = .smoulder then s
  else match s.nextGrant with
    | none => s
    | some g => (s.modTd (fun t => { t with grants := t.grants.erase g })).fillGrant g

/-- A filled burst is not sent: its bytes return, and a chimney burst has carried nothing (R389). -/
def State.burstUnsent (s : State) (b : Burst) : State :=
  let s1 := s.refund b.units
  if b.chimney then
    let nums := b.units.filterMap (fun u => match u.src with | .notice n => some n | _ => none)
    (s1.modCmd (fun c => { c with notices := c.notices.map (fun n =>
      if nums.contains n.num then { n with chimney := n.chimney - 1 } else n) })).modUp (fun u => { u with
        carried := [], waitUntil := none })
  else s1

/-- What BURST_START does (R267, R269): the next burst whose START has come begins, where the downstream, its lane and the
transmitter allow it (R65, R321); otherwise the grant stays empty. -/
def State.burstStart (s : State) : State :=
  if !s.main.out ∨ s.main.up.current.isSome then s else
  match s.main.up.bursts with
  | [] => s
  | b :: t =>
    if s.now < b.start then s
    else
      let s1 := s.modUp (fun u => { u with bursts := t })
      if !s.laneLocked b.lane then (s1.count 0x040004 31 16).burstUnsent b
      else if s.main.td.lost ∨ s.quarantined ∨ s.main.tm.disabled then s1.burstUnsent b
      else if s.txHeld b.lane then (s1.burstUnsent b).decline b.alloc (s.burstUj b.length) (s.flushTerm b.chimney)
      else
        let s2 := (s1.modUp (fun u => { u with current := some b })).count 0x070024 31 0
        if b.chimney then s2.count 0x070020 31 16 else s2

/-! ### The chimney's back-off (R389) -/

/-- What CHIMNEY_ACK_WAIT_END does. -/
def State.chimneyWaitEnd (s : State) : State :=
  match s.main.up.waitUntil with
  | none => s
  | some t =>
    if s.now < t then s
    else
      let un := s.main.cmd.notices.filter (fun n => s.main.up.carried.contains n.num)
      let s1 := s.modUp (fun u => { u with waitUntil := none })
      if un = [] then s1.modUp (fun u => { u with attempt := 0, skip := 0, carried := [] })
      else
        let i := s.main.up.attempt + 1
        let (m, s2) := s1.drawBelow (2 ^ min i (s.fld 0x070014 27 24))
        let s3 := s2.modUp (fun u => { u with attempt := i, skip := m })
        let off := un.filter (fun n => decide (s.fld 0x070014 15 8 ≤ n.chimney))
        off.foldl (fun x n =>
          ((x.modCmd (fun c => { c with notices := c.notices.map (fun y =>
            if y.num = n.num then { y with chimneyOff := true } else y) })).count 0x070020 15 8).notify 0x0703 false
            (be 2 n.num ++ [byte (sat 255 n.chimney)])) s3

/-- The attempt count returns to 0 when every notice of the last chimney burst has been acknowledged. -/
def State.chimneyAcked (s : State) : State :=
  if s.main.up.carried ≠ [] ∧ s.main.cmd.notices.all (fun n => !s.main.up.carried.contains n.num) then
    s.modUp (fun u => { u with attempt := 0, carried := [] })
  else s

/-! ### Zeroisation (R393) -/

/-- SDUs that await encryption are discarded at a zeroisation: counted, and recorded per queue. -/
def State.keyDrop (s : State) : State :=
  (List.range 32).foldl (fun x n =>
    let k := ((x.upQueue n).sdus.filter (fun d => d.readyAt.isNone)).length
    if k = 0 then x
    else ((x.modQueue n (fun q => { q with sdus := q.sdus.filter (fun d => d.readyAt.isSome) })).countN
      (0x07010C + 16 * n) 15 0 k).ash 0x07 0x03 ([byte n] ++ be 2 (sat 0xFFFF k))) s

/-! ### Registers and opcodes (R396) -/

/-- UP_STATUS as it reads. -/
def State.upStatusWord (s : State) : Nat :=
  b2n s.hearth.onReserve * 2 ^ 31 + b2n s.flushPending * 2 ^ 30 + b2n s.alarmWaiting * 2 ^ 29 + s.poolUsed

/-- A damper's credit as it reads. -/
def State.creditWord (s : State) (n : Nat) : Nat := ofSigned 32 (at? s.main.up.credits n 0)

/-- UP_STATUS: it clears no counter. -/
def opUpStatus (op : Nat) (p : List Byte) (s : State) : State :=
  if p ≠ [] then s.finish op 0x0004 []
  else s.finish op 0 (be 4 s.upStatusWord ++ be 4 (s.word 0x070018) ++ be 4 (s.word 0x07001C) ++ be 4 (s.word 0x070020)
    ++ be 4 s.hearth.resE ++ (List.range 32).flatMap (fun n => be 4 (s.upQueue n).fill))

/-- UP_ADMIT_TEST: LENGTH, ALARM. -/
def opUpAdmitTest (op : Nat) (p : List Byte) (s : State) : State :=
  if p.length ≠ 3 then s.finish op 0x0004 []
  else if 1 < field p 2 1 then s.finish op 0x0005 []
  else
    let eb := s.burstUj (field p 0 2)
    let need := eb + 1000 * s.marginMj + (if field p 2 1 = 1 then 0 else s.flushUj)
    let have_ := 1000 * s.hearth.resE - s.main.up.admitted
    s.finish op (if s.hearth.onReserve then 0 else 0x0700)
      (be 4 eb ++ be 4 need ++ be 4 have_ ++ [byte (b2n (!s.hearth.onReserve || decide (need ≤ have_)))])

/-! ### What the hardware refuses to be written (R397) -/

/-- Whether ports bind a queue wrongly: reserved, or the port of another enabled queue or tributary. -/
def State.portTaken (s : State) (n port : Nat) : Bool :=
  port == 0 || (port == 1 && n != 0) || port == 0xFFE || port == 0xFFF
    || (List.range 32).any (fun m => m != n && s.bit (upCfg m) 31 && s.queuePort m == port)
    || (List.range 4).any (fun t => s.bit (0x090100 + 32 * t) 31 && s.fld (0x090104 + 32 * t) 31 20 == port)

/-- Whether words may be written to UP_Qn_CFG and UP_Qn_PORT of queue n (R397). -/
def State.queueLegal (s : State) (n cfg port : Nat) : Bool := n == 0 || !bitOf cfg 31 || !s.portTaken n (bits port 31 20)

end Sys2Proof.Machine
end

