-- ==== Sys2Proof/Machine/Tributary.lean ====
section
/-! DEFINITION. Telecontrol tributaries (13): containers, ingress, egress, all-ones, and the TB opcode. -/

namespace Sys2Proof.Machine

/-- TB_t_CFG. -/
def tbCfg (t : Nat) : Nat := 0x090100 + 32 * t

/-- N of a tributary. -/
def State.tribN (s : State) (t : Nat) : Nat := s.fld (tbCfg t) 5 0

/-- CENTRE × N × 8, the target fill of the egress store (R442). -/
def State.egressTarget (s : State) (t : Nat) : Nat := s.fld (tbCfg t) 11 8 * s.tribN t * 8

/-- A tributary. -/
def State.trib (s : State) (t : Nat) : Trib := at? s.main.tb.tribs t {}

/-- A tributary changed by a function. -/
def State.modTrib (s : State) (t : Nat) (f : Trib → Trib) : State :=
  s.modTb (fun b => { b with tribs := b.tribs.modify t f })

/-- Whether a tributary works: EN, step 9 begun, not quarantined, not shed on the reserve (R450, R454). -/
def State.tribOn (s : State) (t : Nat) : Bool :=
  s.main.out && s.bit (tbCfg t) 31 && s.main.boot.local9 && !s.quarantined
    && !(s.hearth.onReserve && s.bit 0x010064 5)

/-- TB_STATE, stamped with the frame in which the change is decided (R449, Table NT-3). -/
def State.tbNotice (s : State) (t dir old new : Nat) : State :=
  let stamp := if s.main.tb.frameAt = [] then s.noticeBytes 0x0901 [] else s.main.tb.frameAt
  if old = new then s
  else s.raise { code := 0x0901, member := s.self, alarm := false, ev := { time := s.eventTime },
                 bytes := stamp ++ [byte t, byte dir, byte old, byte new] }

/-- The egress enters a state; entering OFF or AIS flushes the store (R445, R451). -/
def State.setEgress (s : State) (t new : Nat) : State :=
  let old := (s.trib t).egress
  (s.modTrib t (fun x => { x with
    egress := new, missing := 0, good := 0, refill := false, store := if new ≤ 1 then [] else x.store
    txd := if new ≤ 1 then [] else x.txd })).tbNotice t 0 old new

/-- The ingress enters a state; entering PRIMING or OFF empties the store (R447). -/
def State.setIngress (s : State) (t new : Nat) : State :=
  let old := (s.trib t).ingress
  (s.modTrib t (fun x => { x with ingress := new, windows := 0, rx := if new = 0 ∨ new = 2 then [] else x.rx })).tbNotice
    t 1 old new

/-- Whether a port entry of the lead leads to a tributary of this chip (R445). -/
def State.tribPort (s : State) (t : Nat) : Bool :=
  !s.main.sk.isLead || s.regs.any (fun r => decide (0x054000 ≤ r.1 ∧ r.1 < 0x058000) && bitOf r.2 31
    && bits r.2 24 20 == 8 + t && bits r.2 27 25 == s.self)

/-- Whether a cause of AIS holds that is no count of missing frames (R445). -/
def State.aisCause (s : State) (t : Nat) : Bool := s.main.td.lost || !s.tribPort t

/-- The states of a tributary follow its causes: disabled, started, AIS and the end of its cause (R445,
R446, R451, R454). -/
def State.tribFollow (s : State) (t : Nat) : State :=
  let x := s.trib t
  if !s.tribOn t then
    if x.egress = 0 ∧ x.ingress = 0 then s else (s.setEgress t 0).setIngress t 0
  else if x.egress = 0 then (s.setEgress t 1).setIngress t 2
  else if s.aisCause t then if x.egress = 1 then s else s.setEgress t 1
  else if x.egress = 1 ∧ x.missing < s.fld 0x090000 15 12 then s.setEgress t 2
  else s

/-- All four tributaries follow their causes. -/
def State.tribsFollow (s : State) : State := (List.range 4).foldl State.tribFollow s

/-! ### Ingress (R436 to R439, R447) -/

/-- Eight bits, the first in bit 0, as bytes (R433). -/
def packLsb : Nat → List Bool → List Byte
  | 0, _ => []
  | n + 1, l => byte ((l.take 8).zipIdx.map (fun (b, i) => b2n b * 2 ^ i)).sum :: packLsb n (l.drop 8)

/-- A container: the controls CN and CP, FAIL, NJO and the data bits (Table TB-1). -/
def mkContainer (n : Nat) (cn cp fail njo : Bool) (data : List Bool) : List Byte :=
  byte (b2n cn * 0xE0 + b2n cp * 0x1C + b2n fail * 2 + b2n njo) :: packLsb n data

/-- An all-ones container. -/
def onesContainer (n : Nat) (fail : Bool) : List Byte := mkContainer n false false fail true (List.replicate (8 * n) true)

/-- The container that a tributary closes, with the bits taken from its store (R436, R451). Bit positions
that carry no data are free values. -/
def State.closeContainer (s : State) (t : Nat) : State × List Byte :=
  let n := s.tribN t
  let x := s.trib t
  let f := x.rx.length
  let target := 16 * n
  let just := 0x090118 + 32 * t
  let (v, s1) := s.drawBelow 4
  if !s.tribOn t ∨ x.ingress ≠ 3 then (s, onesContainer n true)
  else if f < 8 * n - 1 then (s.count (0x09010C + 32 * t) 15 0, onesContainer n false)
  else if target + 8 < f then
    ((s.modTrib t (fun x => { x with rx := x.rx.drop (8 * n + 1) })).count just 31 16,
      mkContainer n true false false (x.rx.headD true) ((x.rx.drop 1).take (8 * n)))
  else if f + 8 < target then
    ((s1.modTrib t (fun x => { x with rx := x.rx.drop (8 * n - 1) })).count just 15 0,
      mkContainer n false true false (bitOf v 0) (x.rx.take (8 * n - 1) ++ [bitOf v 1]))
  else
    (s1.modTrib t (fun x => { x with rx := x.rx.drop (8 * n) }), mkContainer n false false false (bitOf v 0) (x.rx.take (8 * n)))

/-- An event of a tributary counted on the member that owns it, over Strait where that is another one (REG_ACCESS: 1, a
count; register; field; R439). -/
def State.tribCount (s : State) (m a hi lo : Nat) : State :=
  if m = s.self then s.count a hi lo else s.sendMsg 0 m 0x0B 0 ([1#8] ++ be 4 a ++ [byte hi, byte lo])

/-- The reservation of another member's tributary, as its last container said; none ends it (R439; log entry 82). -/
def State.noteRemote (s : State) (member t slot port : Nat) (data : List Byte) : State :=
  s.modTb (fun b => { b with remote := b.remote.filter (fun x => x.member != member || x.trib != t) ++
    (if data = [] then [] else [⟨member, t, slot, port, data.length - 1⟩]) })

/-- A container enters the reservations of the lead, encrypted where TB_t_UP (`up`) asks for it
(R437 to R439). -/
def State.holdContainer (s : State) (member t slot up : Nat) (data : List Byte) : State :=
  let sfc := s.main.up.frameSfc
  let overrun := s.upFrameStart s.stampPoint + 40000
  let port := bits up 31 20
  let c : Container := { member := member, trib := t, sfc := sfc, slot := slot, port := port, data := data,
                         readyAt := some s.now, overrun := overrun }
  let put (x : State) (c : Container) : State := x.modTb (fun b => { b with closed := b.closed ++ [c] })
  if bits up 19 18 = 0 then put s c
  else if dirLen (s.keySlot (bits up 7 0)).dir = 0 then s.tribCount member (0x090114 + 32 * t) 23 16
  else
    let id := s.main.cy.nextId
    let r : CyReq := { id := id, for_ := .trib t, op := 1, slot := bits up 7 0, fixed := s.upFixed port,
                       data := data, queue := bits up 17 16, since := s.now }
    match s.submit r with
    | (s1, 0) => put s1 { c with readyAt := none, req := some id }
    | (s1, _) => put s1 { c with readyAt := none }

/-- A container of another member comes to the lead. One that comes after its slot's first grant of the frame was filled is
late: a substitute went in its place (R439). -/
def State.remoteContainer (s : State) (member t slot up : Nat) (data : List Byte) : State :=
  let late := s.main.up.usedSfc == s.main.up.frameSfc && s.main.up.usedSlots.contains slot
    && s.main.tb.remote.any (fun x => x.member == member && x.trib == t && x.slot == slot)
  let s1 := s.noteRemote member t slot (bits up 31 20) data
  if late ∨ data = [] then s1 else s1.holdContainer member t slot up data

/-- What a write of UP_TRIBt does on a member that is not lead: a reservation released is told to the lead (R451). -/
def State.tribReleased (s : State) (t : Nat) : State :=
  if !s.main.sk.isLead && s.main.sk.formed && !s.bit (0x070040 + 4 * t) 31 then
    s.sendMsg 2 s.main.sk.lead 0x09 0 ([2#8, byte t, 0#8] ++ be 4 0)
  else s

/-- The ingress of a tributary at an upstream frame boundary, with the bits sampled since the one before
(R430, R436). -/
def State.closeTrib (s : State) (t : Nat) (bits_ : List Bool) : State :=
  let s1 := if s.tribOn t ∧ 2 ≤ (s.trib t).ingress then s.modTrib t (fun x => { x with rx := x.rx ++ bits_ }) else s
  let s2 := if (s1.trib t).ingress = 2 ∧ 16 * s1.tribN t ≤ (s1.trib t).rx.length then s1.setIngress t 3 else s1
  let b := s2.word (0x070040 + 4 * t)
  if !bitOf b 31 ∧ !s2.tribOn t ∨ s2.hearth.ps = .smoulder then s2
  else
    let (s3, c) := s2.closeContainer t
    if !bitOf b 31 then s3
    else if s3.main.sk.isLead then s3.holdContainer s3.self t (bits b 18 16) (s3.word (0x090104 + 32 * t)) c
    else if s3.main.sk.formed then
      s3.sendMsg 2 s3.main.sk.lead 0x09 0 ([2#8, byte t, byte (bits b 18 16)] ++ be 4 (s3.word (0x090104 + 32 * t)) ++ c)
    else s3

/-- Containers whose upstream frame is over without their having been sent are lost and counted (R376,
R437). -/
def State.dropContainers (s : State) : State :=
  let old := s.main.tb.closed.filter (fun c => decide (c.overrun ≤ s.now))
  (s.modTb (fun b => { b with closed := b.closed.filter (fun c => !decide (c.overrun ≤ s.now)) })).countN 0x070018 7 0 old.length

/-- What UPSTREAM_FRAME_BOUNDARY does (R381, R436): `rx` are the bits of the four tributaries. -/
def State.frameBoundary (s : State) (rx : List (List Bool)) : State :=
  if !s.main.out then s
  else
    let sfc := if s.tdLocked s.main.td.active then s.activeSfc else (s.main.up.frameSfc + 1) % 2 ^ 30
    let s0 := (s.modUp (fun u => { u with frameSfc := sfc })).modTb (fun b => { b with frameAt := s.noticeBytes 0x0901 [] })
    let s1 := s0.damperBoundary.dropContainers
    (List.range 4).foldl (fun x t => x.closeTrib t (at? rx t [])) s1

/-- What RXC_WINDOW does: the rising edges of TBt_RXC in 16 frames (R447). -/
def State.rxcWindow (s : State) (t edges : Nat) : State :=
  if 4 ≤ t ∨ !s.tribOn t ∨ (s.trib t).ingress = 0 then s
  else
    let n := s.tribN t
    let ok := decide (edges ≤ 128 * n + 2 * n + 2) && decide (128 * n ≤ edges + 2 * n + 2)
    if !ok then (s.modTrib t (fun x => { x with windows := 0 })).setIngress t 1
    else if (s.trib t).ingress = 1 then
      if 4 ≤ (s.trib t).windows + 1 then s.setIngress t 2
      else s.modTrib t (fun x => { x with windows := x.windows + 1 })
    else s

/-! ### Egress (R434, R440 to R446, R448) -/

/-- A container taken apart: data bits, FAIL, and how many controls had unequal copies (R434). -/
def openContainer (c : List Byte) : List Bool × Bool × Nat :=
  let h := field c 0 1
  let maj (v : Nat) : Bool := decide (2 ≤ v / 4 + v / 2 % 2 + v % 2)
  let cn := h / 32
  let cp := h / 4 % 8
  let uneven (v : Nat) : Nat := if v = 0 ∨ v = 7 then 0 else 1
  let data := (c.drop 1).flatMap (fun b => (List.range 8).map (fun i => bitOf b.toNat i))
  ((if maj cn then [bitOf h 0] else []) ++ (if maj cp then data.take (data.length - 1) else data), bitOf h 1,
    uneven cn + uneven cp)

/-- What goes out on TBt_TXD between two judgements in RUN: the number of bits is the desynchroniser's, a
free value within one of N × 8 (R442, R444). -/
def State.playOut (s : State) (t : Nat) : State :=
  let x := s.trib t
  if x.egress ≠ 3 then s
  else
    let (v, s1) := s.drawBelow 3
    let n := 8 * s.tribN t + v - 1
    if x.refill ∧ x.store.length < s.egressTarget t then s1.modTrib t (fun x => { x with txd := List.replicate n true })
    else if x.store.length < n then
      (s1.modTrib t (fun x => { x with
        txd := x.store ++ List.replicate (n - x.store.length) true, store := [], refill := true })).count (0x090110 + 32 * t) 7 0
    else s1.modTrib t (fun x => { x with txd := x.store.take n, store := x.store.drop n, refill := false })

/-- Bits appended to the egress store: beyond its capacity the oldest go, down to target (R444). -/
def State.appendBits (s : State) (t : Nat) (b : List Bool) : State :=
  let l := (s.trib t).store ++ b
  if 64 * s.tribN t < l.length then
    (s.modTrib t (fun x => { x with store := l.drop (l.length - s.egressTarget t) })).count (0x090110 + 32 * t) 7 0
  else s.modTrib t (fun x => { x with store := l })

/-- FAR_FAIL follows runs of FAIL (R448). -/
def State.farFail (s : State) (t : Nat) (fail : Bool) : State :=
  let x := s.trib t
  let fails := if fail then sat 15 (x.fails + 1) else 0
  let clears := if fail then 0 else sat 15 (x.clears + 1)
  let new := if fail && decide (s.fld 0x090000 15 12 ≤ fails) then true
    else if !fail && decide (s.fld 0x090000 11 8 ≤ clears) then false else x.farFail
  (s.modTrib t (fun x => { x with fails := fails, clears := clears, farFail := new })).tbNotice t 2 (b2n x.farFail) (b2n new)

/-- A frame of a tributary judged: its container, or none (R441, R446). -/
def State.judgeFrame (s : State) (t : Nat) (c : Option (List Byte)) : State :=
  let x := s.trib t
  match c with
  | some b =>
    let (data, fail, uneven) := openContainer b
    let s1 := (s.countN (0x090110 + 32 * t) 31 24 uneven).farFail t fail
    match x.egress with
    | 3 => (s1.appendBits t data).modTrib t (fun x => { x with missing := 0 })
    | 0 => s1
    | e =>
      if e = 1 ∧ s1.aisCause t then s1
      else
        let s2 := if e = 1 then s1.setEgress t 2 else s1
        let l := (s2.trib t).store ++ data
        let s3 := s2.modTrib t (fun x => { x with
          store := l.drop (l.length - s2.egressTarget t), good := x.good + 1 })
        if s.fld 0x090000 11 8 ≤ (s3.trib t).good then s3.setEgress t 3 else s3
  | none =>
    match x.egress with
    | 3 =>
      let s1 := (s.appendBits t (List.replicate (8 * s.tribN t) true)).count (0x09010C + 32 * t) 31 16
      if s.fld 0x090000 15 12 ≤ x.missing + 1 then
        (s1.setEgress t 1).modTrib t (fun x => { x with missing := s.fld 0x090000 15 12 })
      else s1.modTrib t (fun x => { x with missing := x.missing + 1 })
    | 2 => s.modTrib t (fun x => { x with good := 0 })
    | _ => s

/-- The container of a tributary judged for the frame before the last one: the first valid one counts
(R435, R440). A tributary that is off refuses them all and counts them in EXTRA: R317 asks for a count and names none
(DESIGN CHOICE, log entry 141). -/
def State.judgeTrib (s : State) (t : Nat) : State :=
  let k := (s.activeSfc + 2 ^ 30 - 1) % 2 ^ 30
  let here (d : DownSdu) : Bool := d.dest == 8 + t && d.member == s.self
  let due (d : DownSdu) : Bool := here d && (!s.main.sk.isLead || decide (sdiff 30 d.sfc k ≤ 0))
  let l := s.main.td.sdus.filter (fun d => due d && (!s.main.sk.isLead || d.sfc == k))
  let s0 := s.modTd (fun d => { d with sdus := d.sdus.filter (fun x => !due x) })
  if !s.tribOn t then s0.countN (0x090110 + 32 * t) 15 8 l.length
  else
    let n := s.tribN t
    let bad := l.filter (fun d => d.done && !d.distrust && d.bytes.length != n + 1)
    let distrust := l.filter (fun d => d.done && d.distrust)
    let good := l.filter (fun d => d.done && !d.distrust && d.bytes.length == n + 1)
    let s1 := ((s0.countN (0x090110 + 32 * t) 23 16 bad.length).countN (0x090114 + 32 * t) 31 24 distrust.length).countN
      (0x090110 + 32 * t) 15 8 (good.length - 1)
    (s1.playOut t).judgeFrame t (good.head?.map (fun d => d.bytes))

/-- The timestamp point of the last frame that the lead located, where its active lane is LOCKED. -/
def State.judgePoint (s : State) : Option Nat :=
  if s.main.sk.isLead && s.tdLocked s.main.td.active then some (s.stampOf (s.tdLane s.main.td.active).at_) else none

/-- What CONTAINER_JUDGE does: 20 µs after the timestamp point of the frame after it, a frame is judged, once (R440). -/
def State.containerJudge (s : State) : State :=
  let p := s.judgePoint
  if !s.main.out || p.any (fun t => decide (s.now < t + 20 * usT)) || (p.isSome && s.main.tb.judged == p) then s
  else (List.range 4).foldl State.judgeTrib (s.modTb (fun b => { b with judged := p }))

/-! ### Registers and the opcode (R452, R455, R456) -/

/-- TB_t_STAT as it reads. -/
def State.tbStatWord (s : State) (t : Nat) : Nat :=
  let x := s.trib t
  x.egress * 2 ^ 30 + x.ingress * 2 ^ 28 + b2n x.farFail * 2 ^ 27 + sat 2048 x.store.length

/-- Whether words may be written to TB_t_CFG and TB_t_UP (R452, Table TB-7). -/
def State.tribLegal (s : State) (t cfg up : Nat) : Bool :=
  let old := s.word (tbCfg t)
  let oldUp := s.word (0x090104 + 32 * t)
  let port := bits up 31 20
  !(bitOf old 31 && (bits old 5 0 != bits cfg 5 0 || bits old 11 8 != bits cfg 11 8 || oldUp != up))
    && !(bitOf cfg 31 && (port == 0 || port == 1 || port == 0xFFE || port == 0xFFF
      || (List.range 32).any (fun m => s.bit (upCfg m) 31 && s.queuePort m == port)))

/-- TB_STATUS: it clears no counter. -/
def opTbStatus (op : Nat) (p : List Byte) (s : State) : State :=
  if p ≠ [] then s.finish op 0x0004 []
  else s.finish op 0 ((List.range 4).flatMap (fun t => be 4 (s.word (tbCfg t)) ++ be 4 (s.tbStatWord t)
    ++ [0x09010C, 0x090110, 0x090114, 0x090118].flatMap (fun a => be 4 (s.word (a + 32 * t)))))

end Sys2Proof.Machine
end

