-- ==== Sys2Proof/Machine/Meter.lean ====
section
/-! DEFINITION. Meter ports (12): characters, delimiting, transactions, poll programs, results and the hold,
and the MP opcodes. A character is taken at its start edge. -/

namespace Sys2Proof.Machine

/-- The meter ports changed by a function. -/
def State.modMp (s : State) (f : Meter → Meter) : State := { s with main := { s.main with mp := f s.main.mp } }

/-- MP_Pn_CFG. -/
def mpReg (n : Nat) : Nat := 0x080100 + 32 * n

/-- A meter port. -/
def State.mport (s : State) (n : Nat) : MPort := at? s.main.mp.ports n {}

/-- A meter port changed by a function. -/
def State.modPort (s : State) (n : Nat) (f : MPort → MPort) : State :=
  s.modMp (fun m => { m with ports := m.ports.modify n f })

/-- A poll program. -/
def State.prog (s : State) (p : Nat) : Prog := at? s.main.mp.progs p {}

/-- A poll program changed by a function. -/
def State.modProg (s : State) (p : Nat) (f : Prog → Prog) : State :=
  s.modMp (fun m => { m with progs := m.progs.modify p f })

/-- Whether a port works: EN, step 9 begun, not shed on the reserve (R422, R426). -/
def State.mpOn (s : State) (n : Nat) : Bool :=
  decide (n < 48) && s.main.out && s.bit (mpReg n) 31 && s.main.boot.local9
    && !(s.hearth.onReserve && s.bit 0x010064 3)

/-- A configuration word of a port: 0 CFG, 1 BAUD, 2 TIME, 3 TMO, 4 LEN; those of an attempt under way are as
they were at its start (R424). -/
def State.mpWord (s : State) (n i : Nat) : Nat :=
  match (s.mport n).held with
  | [] => s.word (mpReg n + 4 * i)
  | l => at? l i 0

/-- A sixteenth of a bit in ticks (R398). -/
def State.sixteenth (s : State) (n : Nat) : Nat := bits (s.mpWord n 1) 16 0

/-- The bits of a character before its stop bits (R399). -/
def State.charBits (s : State) (n : Nat) : Nat :=
  let c := s.mpWord n 0
  1 + (if bitOf c 28 then 8 else 7) + (if bits c 27 26 = 0 then 0 else 1)

/-- The time from a start edge to the end of the last stop bit, and to the decision of the last stop bit
(R403, R404). -/
def State.charEnd (s : State) (n : Nat) : Nat × Nat :=
  let two := bitOf (s.mpWord n 0) 25
  let b := s.charBits n
  (16 * (b + if two then 2 else 1) * s.sixteenth n, (if two then 16 * (b + 1) + 1 else 16 * b + 9) * s.sixteenth n)

/-- When the start detector is armed after a character begun now (R405): at sample 10 of the one stop bit, or sample 2 of
the second; after a FRAMING_ERROR once two further samples can have read high (R404; log entry 140). -/
def State.armed (s : State) (n : Nat) (badStop : Bool) : Nat :=
  let b := s.charBits n
  let k := if bitOf (s.mpWord n 0) 25 then 16 * (b + 1) + (if badStop then 4 else 2) else 16 * b + (if badStop then 12 else 10)
  s.now + k * s.sixteenth n

/-- The bits of a character on the line, in order: start, data with the least significant first, parity, stop (R399). -/
def State.charLine (s : State) (n : Nat) (c : Byte) : List Bool :=
  let cfg := s.mpWord n 0
  let d := (List.range (if bitOf cfg 28 then 8 else 7)).map (fun i => bitOf c.toNat i)
  let odd := (d.filter id).length % 2 == 1
  let p := match bits cfg 27 26 with | 1 => [odd] | 2 => [!odd] | _ => []
  [false] ++ d ++ p ++ List.replicate (if bitOf cfg 25 then 2 else 1) true

/-- The bits of a character with its stop bits. -/
def State.charLen (s : State) (n : Nat) : Nat := s.charBits n + if bitOf (s.mpWord n 0) 25 then 2 else 1

/-- How long MPn_DE is high for a request of `k` characters: DE_LEAD, the characters, DE_LAG (R400). -/
def State.sendT (s : State) (n k : Nat) : Nat :=
  let w := s.mpWord n 2
  (bits w 31 24 + 16 * s.charLen n * k + bits w 23 16) * s.sixteenth n

/-- MPn_TXD: the bit of the request that is on the line, else mark (R400). -/
def State.mpTxd (s : State) (n : Nat) : Bool :=
  let t := s.mport n
  let begin_ := t.deRise + bits (s.mpWord n 2) 31 24 * s.sixteenth n
  if t.st ≠ .sending ∨ s.now < begin_ then true
  else
    let i := (s.now - begin_) / (16 * s.sixteenth n)
    match t.xacts with
    | x :: _ => match x.request[i / s.charLen n]? with
      | some c => (s.charLine n c).getD (i % s.charLen n) true
      | none => true
    | [] => true

/-! ### Results (R415, R420) -/

/-- The stamp of a result `dt` ticks from now: bytes 8 to 19 of Table MP-5, and the flags of byte 3. -/
def State.mpStamp (s : State) (dt : Nat) : List Byte × Nat :=
  let x := s.passMain dt
  let v := x.main.ma.angleValid
  (be 6 x.main.nt.sec ++ be 4 x.main.nt.ns ++ be 2 x.angle,
   b2n x.main.sk.timeLoose * 128 + b2n (x.main.nt.servo == .free) * 64 + b2n (v && x.main.ma.isPhantom x.refPhase) * 8 + b2n v * 4)

/-- A result with its header (Table MP-5). -/
def mkResult (port prog step flags attempts status ref : Nat) (stamp reply : List Byte) (bad : Nat) : List Byte :=
  [byte port, byte prog, byte step, byte (flags + attempts % 4 * 16)] ++ be 2 status ++ be 2 ref ++ padTo 12 stamp
    ++ be 2 reply.length ++ be 2 (sat 0xFFFF bad) ++ reply

/-- A result offered to an upstream queue: on the lead to the queue itself, elsewhere over Strait in the METER
class (R375, R420). Whether it was taken. -/
def State.offerResult (s : State) (q : Nat) (b : List Byte) : State × Bool :=
  if s.main.sk.isLead ∨ !s.main.sk.formed then
    let (s1, r) := s.enqueue q (.meter 0) b
    (s1, r == 0)
  else (s.sendMsg 2 s.main.sk.lead 0x07 q b, true)

/-- The bytes that the hold has room for (R420; 22). -/
def State.holdLimit (s : State) : Nat := 1024 * min (s.fld 0x080000 9 0) s.generalKib

/-- The bytes in the hold. -/
def Meter.held (m : Meter) : Nat := (m.hold.map (fun h => h.2.2.length)).sum

/-- A result that its queue has refused goes to the hold, or is lost; whether the hold took it. -/
def State.holdResult (s : State) (prog : Option Nat) (q : Nat) (b : List Byte) : State × Bool :=
  if s.main.mp.held + b.length ≤ s.holdLimit then (s.modMp (fun m => { m with hold := m.hold ++ [(prog, q, b)] }), true)
  else (s.count 0x080004 31 16, false)

/-- A result goes to the RESULT_Q of its port, or to the hold; whether it was kept. -/
def State.putResult (s : State) (prog : Option Nat) (port : Nat) (b : List Byte) : State × Bool :=
  let q := s.fld (mpReg port) 20 16
  match s.offerResult q b with
  | (s1, true) => (s1, true)
  | (s1, false) => s1.holdResult prog q b

/-! ### Poll programs (R416 to R420) -/

/-- A program ends: MP_PROG_END, and the operation that waits for it is answered. -/
def State.endProg (s : State) (p : Nat) : State :=
  let g := s.prog p
  let done := (g.steps.filter (fun x => x.at_ == 2)).length
  let status := g.stop.getD 0
  ((s.modProg p (fun g => { g with st := if g.stop.isSome then 2 else 0, done := done, op := none, stop := none })).notify
    0x0801 false ([byte p] ++ be 2 status ++ [byte done, byte (g.steps.length - done)])).finish? g.op status []

/-- A step has come to its end; the program ends with its last one. -/
def State.stepDone (s : State) (p i at_ : Nat) : State :=
  let s1 := s.modProg p (fun g => { g with steps := g.steps.modify i (fun x => { x with at_ := at_ }) })
  let g := s1.prog p
  let open_ := g.steps.any (fun x => x.at_ == 1 || (x.at_ == 0 && g.stop.isNone))
  if g.st = 1 ∧ !open_ then s1.endProg p else s1

/-- A program is stopped with a status: its QUEUED steps are withdrawn (R420, R424). -/
def State.stopProg (s : State) (p status : Nat) : State :=
  let g := s.prog p
  if g.st ≠ 1 ∨ g.stop.isSome then s
  else
    let mine (x : Xact) : Bool := match x.src with | .step q _ => q == p | _ => false
    let live (m : MPort) : Nat := if m.st = .queued then 0 else 1
    let gone := s.main.mp.ports.flatMap (fun m => (m.xacts.drop (live m)).filterMap (fun x =>
      match x.src with | .step q i => if q = p then some i else none | _ => none))
    let s1 := s.modMp (fun m => { m with ports := m.ports.map (fun t =>
      { t with xacts := t.xacts.take (live t) ++ (t.xacts.drop (live t)).filter (fun x => !mine x) }) })
    let s2 := s1.modProg p (fun g => { g with stop := some status, steps := (g.steps.zipIdx).map (fun (x, i) =>
      if x.at_ = 0 ∨ gone.contains i then { x with at_ := 3 } else x) })
    if (s2.prog p).steps.any (fun x => x.at_ == 1) then s2 else s2.endProg p

/-- The result of a step is offered, kept or lost, and the program goes on or stops with QUEUE_FULL (R420). -/
def State.stepResult (s : State) (p i port : Nat) (b : List Byte) : State :=
  match s.putResult (some p) port b with
  | (s1, true) => s1.stepDone p i 2
  | (s1, false) => (s1.stopProg p 0x0015).stepDone p i 2

/-- The step of a program that a port may take next: the first not placed, once the one before on that port
is done (R416). -/
def Prog.nextFor (g : Prog) (port : Nat) : Option (Nat × PStep) :=
  if g.st ≠ 1 ∨ g.stop.isSome ∨ g.steps.any (fun x => x.port == port && x.at_ == 1) then none
  else (g.steps.zipIdx.find? (fun (x, _) => x.port == port && x.at_ == 0)).map (fun (x, i) => (i, x))

/-- One step of program `p` placed where one can be; none where none can (R417, R423). -/
def State.placeStep (s : State) (p : Nat) : Option State :=
  let g := s.prog p
  let can (n : Nat) : Bool := (g.nextFor n).isSome && (!s.mpOn n || decide ((s.mport n).xacts.length < 4))
  match (List.range 48).find? can with
  | none => none
  | some n =>
    match g.nextFor n with
    | none => none
    | some (i, x) =>
      let s1 := s.modProg p (fun g => { g with steps := g.steps.modify i (fun x => { x with at_ := 1 }) })
      if s.mpOn n then
        some (s1.modPort n (fun t => { t with xacts := t.xacts ++ [{ src := .step p i, noReply := x.noReply, ref := 0,
                                                                     firstMs := x.firstMs, request := x.request }] }))
      else
        let st := s1.mpStamp 0
        some (s1.stepResult p i n (mkResult n p i st.2 0 0x0010 0 st.1 [] 0))

/-- The steps of a program placed as far as they can be; `k` bounds them. -/
def State.placeSteps (p : Nat) : Nat → State → State
  | 0, s => s
  | k + 1, s => match s.placeStep p with
    | some s1 => State.placeSteps p k s1
    | none => s

/-- The steps of every running program placed. -/
def State.progPump (s : State) : State :=
  (List.range 64).foldl (fun x p => if (x.prog p).st = 1 then State.placeSteps p 40 x else x) s

/-- A program is loaded (R419). -/
def Prog.loaded (g : Prog) : Bool := g.count != 0 && g.steps.length == g.count

/-- A program starts (R416, R418, R419, R426); `op` is the operation that waits for its end. -/
def State.startProg (s : State) (p : Nat) (op : Option Nat) : State :=
  let g := s.prog p
  if !s.main.boot.local9 then s.finish? op 0x000E []
  else if g.st = 1 then
    let r := 0x081000 + 4 * p
    let s1 := s.count r 7 0
    (s1.notify 0x0803 false [byte p, byte (s1.fld r 7 0)]).finish? op 0x0804 []
  else if !g.loaded then
    match op with
    | some t => s.finish t 0x0806 []
    | none => s.notify 0x0801 false ([byte p] ++ be 2 0x0806 ++ [0#8, byte g.steps.length])
  else if s.quarantined then
    (s.notify 0x0801 false ([byte p] ++ be 2 0x000C ++ [0#8, byte g.steps.length])).finish? op 0x000C []
  else (s.modProg p (fun g => { g with
      st := 1, op := op, stop := none, steps := g.steps.map (fun x => { x with at_ := 0 }) })).progPump

/-! ### The end of a transaction (R410, R415) -/

/-- The result of a transaction is handed on. -/
def State.deliverXact (s : State) (n : Nat) (x : Xact) (status flags : Nat) (stamp reply : List Byte) (bad : Nat) : State :=
  let mk (prog step : Nat) : List Byte := mkResult n prog step flags (x.attempts - 1) status x.ref stamp reply bad
  match x.src with
  | .op op => s.finish op status (mk 0xFD 0)
  | .sdu => (s.putResult none n (mk 0xFE 0)).1
  | .step p i => s.stepResult p i n (mk p i)

/-- A port's frame state cleared. -/
def MPort.quiet (t : MPort) : MPort := { t with begun := false, frame := [], bad := 0, overrun := false }

/-- The attempt of the head transaction has ended with a status: it is sent again, or its result is handed on (R410). A
turnaround runs from `at_` where a reply has ended, or MP_NO_REPLY is decided; not after a broadcast, nor after ABANDONED
(R402). -/
def State.endXact (s : State) (n status at_ : Nat) (again : Bool) : State :=
  let t := s.mport n
  match t.xacts with
  | [] => s
  | x :: rest =>
    let turn := 16 * s.sixteenth n * bits (s.mpWord n 3) 7 0
    let retry := bits (s.mpWord n 0) 22 21
    let s1 := if status = 0x0800 then s.count (mpReg n + 24) 7 0 else s
    let s2 := if status = 0x0803 then s1.count (mpReg n + 28) 7 0 else s1
    let clear (t : MPort) : MPort := { t.quiet with
      st := .queued, held := [], freeAt := if x.noReply || status == 0x0011 then t.freeAt else max t.freeAt (at_ + turn) }
    if again ∧ (status = 0x0800 ∨ status = 0x0802) ∧ x.attempts < retry + 1 then s2.modPort n clear
    else
      let s3 := (s2.modPort n (fun t => { clear t with xacts := rest })).count (mpReg n + 28) 31 16
      (s3.deliverXact n x status t.stampFlags t.stamp t.frame t.bad).progPump

/-- A QUEUED transaction ends with a status, without having been sent. -/
def State.endQueued (s : State) (n status : Nat) (x : Xact) : State :=
  let st := s.mpStamp 0
  s.deliverXact n { x with attempts := 1 } status st.2 st.1 [] 0

/-- When MPn_DE falls of a request that is abandoned now: DE_LAG after the character under way, or at once before the
first (R423). -/
def State.deCut (s : State) (n : Nat) : Nat :=
  let w := s.mpWord n 2
  let six := s.sixteenth n
  let begin_ := (s.mport n).deRise + bits w 31 24 * six
  let c := 16 * s.charLen n * six
  if s.now ≤ begin_ then s.now else begin_ + ((s.now - begin_ + c - 1) / c) * c + bits w 23 16 * six

/-- A port that has been disabled, or shed, abandons the transaction on the wire and ends the others
(R423). -/
def State.abandonPort (s : State) (n : Nat) : State :=
  let t := s.mport n
  let live := t.st != .queued
  let s0 := if t.st = .sending then s.modPort n (fun t => { t with deFall := s.deCut n }) else s
  let s1 := if live then s0.endXact n 0x0011 s.now false else s0
  let l := (s1.mport n).xacts
  ((l.foldl (fun x y => x.endQueued n 0x0010 y) (s1.modPort n (fun t => { t.quiet with xacts := [], held := [] })))).progPump

/-- A quarantined member's ports: QUEUED transactions end, programs stop (R422). -/
def State.quarantinePort (s : State) (n : Nat) : State :=
  let t := s.mport n
  let k := if t.st = .queued then 0 else 1
  (t.xacts.drop k).foldl (fun x y => x.endQueued n 0x000C y) (s.modPort n (fun t => { t with xacts := t.xacts.take k }))

/-- The meter ports follow EN, HRT_SHED and the quarantine. -/
def State.metersFollow (s : State) : State :=
  let s1 := (List.range 48).foldl (fun x n => if (x.mport n).xacts ≠ [] ∧ !x.mpOn n then x.abandonPort n else x) s
  if s1.quarantined then
    let s2 := (List.range 64).foldl (fun x p => if (x.prog p).st = 1 then x.stopProg p 0x000C else x) s1
    (List.range 48).foldl (fun x n => if (x.mport n).xacts ≠ [] then x.quarantinePort n else x) s2
  else s1

/-! ### Sending (R400 to R402) -/

/-- What XACT_START does: MPn_DE rises for the head transaction, once the turnaround has passed. -/
def State.xactStart (s : State) (n : Nat) : State :=
  let t := s.mport n
  match t.xacts with
  | [] => s
  | x :: rest =>
    if !s.mpOn n ∨ t.st ≠ .queued ∨ s.now < t.freeAt ∨ s.hearth.ps ≠ .blaze ∨ s.quarantined then s
    else
      let words := (List.range 5).map (fun i => s.word (mpReg n + 4 * i))
      let st := s.mpStamp (bits (at? words 2 0) 31 24 * bits (at? words 1 0) 16 0)
      s.modPort n (fun t => { t.quiet with
        st := .sending, held := words, stamp := st.1, stampFlags := st.2, deRise := s.now
        xacts := { x with attempts := x.attempts + 1 } :: rest })

/-- FIRST_MS of a transaction in ticks. -/
def State.firstT (s : State) (n : Nat) (x : Xact) : Nat :=
  (if x.firstMs = 0 then bits (s.mpWord n 3) 31 16 else x.firstMs) * msT

/-- What REQUEST_SENT does, once the request is on the line in full: MPn_DE falls and FIRST_MS starts (R400, R410). -/
def State.requestSent (s : State) (n : Nat) : State :=
  let t := s.mport n
  match t.xacts with
  | [] => s
  | x :: _ =>
    let fall := t.deRise + s.sendT n x.request.length
    if t.st ≠ .sending ∨ s.now < fall then s
    else if x.noReply then (s.modPort n (fun t => { t with deFall := fall })).endXact n 0 fall false
    else s.modPort n (fun t => { t with st := .waiting, deFall := fall, deadline := fall + s.firstT n x })

/-! ### Receiving (R401 to R408, R411, R412) -/

/-- The majority of three samples, and whether they disagree. -/
def sampled (t : Nat) : Bool × Bool :=
  let n := t / 4 % 2 + t / 2 % 2 + t % 2
  (decide (2 ≤ n), n == 1 || n == 2)

/-- A frame has come to its end: a reply, or an unsolicited frame (R410, R412). -/
def State.frameDone (s : State) (n status at_ : Nat) : State :=
  let t := s.mport n
  if t.st = .receiving then s.endXact n status at_ true
  else
    let s1 := s.modPort n MPort.quiet
    if bitOf (s.mpWord n 0) 29 then
      (s1.putResult none n (mkResult n 0xFF 0 t.stampFlags 0 status 0 t.stamp t.frame t.bad)).1
    else s1.count (mpReg n + 28) 15 8

/-- The whole length that mode 2 computes from a frame, once its length field is there (R407). -/
def modeLength (len : Nat) (f : List Byte) : Option Nat :=
  let ofs := bits len 15 8
  let w := bits len 0 0 + 1
  if f.length < ofs + w then none
  else
    let b := bytesAt f ofs w
    some (ofBe (if bitOf len 1 then b.reverse else b) % 2 ^ bits len 20 16 + bits len 31 24)

/-- A character enters the frame of its port (R407, R411, Table MP-1); `at_` is when it is decided. -/
def State.charIn (s : State) (n : Nat) (c : Byte) (isBad : Bool) (at_ : Nat) : State :=
  let t := s.mport n
  let cfg := s.mpWord n 0
  let mode := bits cfg 24 23
  let maxlen := bits cfg 11 0
  let status (b : Nat) : Nat := if b = 0 then 0 else 0x0802
  if t.overrun then s
  else if mode = 0 ∧ t.frame = [] ∧ c ≠ 0x7E#8 then s
  else if mode = 0 ∧ t.frame.length = 1 ∧ c = 0x7E#8 then s.modPort n (fun t => { t with bad := b2n isBad })
  else if maxlen ≤ t.frame.length then s.modPort n (fun t => { t with overrun := true })
  else
    let f := t.frame ++ [c]
    let bad := t.bad + b2n isBad
    let s1 := s.modPort n (fun t => { t with frame := f, bad := bad })
    if mode = 0 ∧ 2 ≤ f.length ∧ c = 0x7E#8 then s1.frameDone n (status bad) at_
    else if mode = 2 then
      let len := s.mpWord n 4
      match modeLength len f with
      | none => s1
      | some l =>
        if l ≤ bits len 15 8 + bits len 0 0 + 1 ∨ maxlen < l then s1.modPort n (fun t => { t with overrun := true })
        else if l = f.length then s1.frameDone n (status bad) at_ else s1
    else s1

/-- No reply has begun within FIRST_MS (R410). -/
def State.noReply (s : State) (n : Nat) : State :=
  if (s.mport n).st = .waiting ∧ (s.mport n).deadline ≤ s.now then s.endXact n 0x0800 s.now true else s

/-- What CHAR_RECEIVED does: a start edge, and the samples 7, 8 and 9 of the start bit, the data bits, the
parity bit and the first stop bit as numbers of three bits, and sample 1 of a second stop bit (R401 to R404). An edge before
the start detector is armed starts nothing (R405). -/
def State.charReceived (s0 : State) (n : Nat) (samples : List Nat) (second : Bool) : State :=
  let s := if (s0.mport n).st = .waiting ∧ (s0.mport n).deadline < s0.now then s0.noReply n else s0
  let t := s.mport n
  if !s.mpOn n ∨ t.st = .sending ∨ t.low ∨ s.now < t.armAt ∨ s.now < t.deFall + bits (s.mpWord n 2) 15 8 * s.sixteenth n then s
  else if s.hearth.ps = .smoulder ∨ s.hearth.ps = .ember ∨ (s.hearth.ps = .bank ∧ !bitOf (s.mpWord n 0) 30) then s
  else
    let s := s.wake 0x0A
    let b := s.charBits n
    let l := ((List.range (b + 1)).map (fun i => sampled (at? samples i 7)))
    let noise := (l.filter (·.2)).length
    if (at? l 0 (true, false)).1 then
      (s.modPort n (fun t => { t with armAt := s.now + 10 * s.sixteenth n })).count (mpReg n + 24) 15 8
    else
      let s1 := s.countN (mpReg n + 24) 15 8 noise
      let cfg := s.mpWord n 0
      let par := bits cfg 27 26
      let d := (l.drop 1).take (if bitOf cfg 28 then 8 else 7)
      let v := (d.zipIdx.map (fun (x, i) => b2n x.1 * 2 ^ i)).sum
      let ones := (d.filter (·.1)).length
      let badPar := par != 0 && (ones + b2n (at? l (b - 1) (false, false)).1) % 2 != (if par = 1 then 0 else 1)
      let badStop := !(at? l b (true, false)).1 || (bitOf cfg 25 && !second)
      let s2 := if badPar then s1.count (mpReg n + 24) 23 16 else s1
      let s3 := if badStop then s2.count (mpReg n + 24) 31 24 else s2
      let (full, decided) := s3.charEnd n
      let st := s3.mpStamp 0
      let s4 := s3.modPort n (fun t =>
        let u := { t with begun := true, lastEnd := s.now + full, armAt := s.armed n badStop }
        match t.st with
        | .waiting => { u with st := .receiving, frame := [], bad := 0, overrun := false }
        | .receiving => u
        | _ => if t.begun then u else { u with stamp := st.1, stampFlags := st.2, frame := [], bad := 0, overrun := false })
      s4.charIn n (byte v) (badPar || badStop) (s.now + decided)

/-- What IDLE_GAP does: in mode 1 the frame is complete (R407). -/
def State.idleGap (s : State) (n : Nat) : State :=
  let t := s.mport n
  if t.begun ∧ !t.overrun ∧ bits (s.mpWord n 0) 24 23 = 1 ∧ t.frame ≠ []
      ∧ t.lastEnd + 16 * s.sixteenth n * bits (s.mpWord n 2) 7 0 ≤ s.now then
    s.frameDone n (if t.bad = 0 then 0 else 0x0802) s.now
  else s

/-- What INTER_TIMEOUT does: the frame ends incomplete, or the discarding after MP_OVERSIZE ends (R410, R411). -/
def State.interTimeout (s : State) (n : Nat) : State :=
  let t := s.mport n
  if t.begun ∧ t.lastEnd + 16 * s.sixteenth n * bits (s.mpWord n 3) 15 8 ≤ s.now then
    s.frameDone n (if t.overrun then 0x0803 else 0x0801) s.now
  else s

/-- What BUS_HELD_LOW does: MPn_RXD has been low for two character times outside a transmission; a
transaction in WAITING ends (Table MP-7). -/
def State.busLow (s : State) (n : Nat) : State :=
  if !s.mpOn n ∨ (s.mport n).st = .sending ∨ (s.mport n).low then s
  else
    let s1 := ((s.modPort n (fun t => { t with low := true })).count (mpReg n + 24) 31 24).notify 0x0802 false [byte n, 0#8]
    if (s.mport n).st = .waiting then s1.endXact n 0x0800 s.now true else s1

/-- What BUS_RELEASED does. -/
def State.busReleased (s : State) (n : Nat) : State :=
  if (s.mport n).low then (s.modPort n (fun t => { t with low := false })).notify 0x0802 false [byte n, 1#8] else s

/-! ### Meter SDUs and the hold (R413, R414, R420) -/

/-- A result for an SDU that starts no transaction. -/
def State.sduResult (s : State) (port ref status : Nat) : State :=
  let st := s.mpStamp 0
  (s.putResult none port (mkResult port 0xFE 0 st.2 0 status ref st.1 [] 0)).1

/-- A meter SDU whose verdict is known (R414). One for a port that is off is refused with DISABLED (R423) and counted, as
R317 asks, in BAD_SDU: which counter takes it the spec does not say (DESIGN CHOICE, log entry 141). -/
def State.meterSdu (s : State) (b : List Byte) (distrust : Bool) : State :=
  let n := field b 0 1
  let ref := field b 2 2
  if distrust then
    let s1 := s.count 0x080004 15 8
    if n < 48 then s1.sduResult n ref 0x0013 else s1
  else if b.length < 9 ∨ 2056 < b.length ∨ 47 < n ∨ 1 < field b 1 1 ∨ field b 6 2 ≠ 0 then s.count 0x080004 7 0
  else if s.quarantined then s.sduResult n ref 0x000C
  else if !s.mpOn n then (s.count 0x080004 7 0).sduResult n ref 0x0010
  else if 4 ≤ (s.mport n).xacts.length then s.sduResult n ref 0x0015
  else s.modPort n (fun t => { t with xacts := t.xacts ++ [{ src := .sdu, noReply := bitOf (field b 1 1) 0, ref := ref,
                                                             firstMs := field b 4 2, request := b.drop 8 }] })

/-- What METER_SDU does: the first meter SDU on its way whose verdict is known. -/
def State.meterSduIn (s : State) : State :=
  if s.hearth.ps ≠ .blaze then s else
  match s.takeSdu (fun d => d.dest == 1) with
  | some (d, s1) => s1.meterSdu d.bytes d.distrust
  | none => s

/-- What HOLD_OFFER does: held results are offered again, oldest first for each queue. -/
def State.holdOffer (s : State) : State :=
  s.main.mp.hold.foldl (fun x (h : Option Nat × Nat × List Byte) =>
    if x.main.mp.hold.find? (fun y => y.2.1 == h.2.1) ≠ some h then x
    else match x.offerResult h.2.1 h.2.2 with
      | (y, true) => y.modMp (fun m => { m with hold := m.hold.erase h })
      | (y, false) => y) s

/-! ### Registers and opcodes (R427, R428) -/

/-- MP_Pn_STAT as it reads. -/
def State.mpStatWord (s : State) (n : Nat) : Nat :=
  let t := s.mport n
  t.xacts.length * 16 + (if t.xacts = [] then 7 else match t.st with
    | .queued => 0 | .sending => 1 | .waiting => 2 | .receiving => 3)

/-- MP_PROGp_STAT as it reads. -/
def State.progStatWord (s : State) (p : Nat) : Nat :=
  let g := s.prog p
  let kib := (((s.main.mp.hold.filter (fun h => h.1 == some p)).map (fun h => h.2.2.length)).sum + 1023) / 1024
  g.st * 2 ^ 30 + g.done * 65536 + sat 255 kib * 256 + s.fld (0x081000 + 4 * p) 7 0

/-- The bytes a step takes in the program store. -/
def PStep.size (x : PStep) : Nat := 6 + x.request.length

/-- The bytes a program takes in the program store. -/
def Prog.size (g : Prog) : Nat := (g.steps.map PStep.size).sum

/-- MP_XACT: PORT, FLAGS, REF, FIRST_MS, REQUEST. -/
def opMpXact (op : Nat) (p : List Byte) (s : State) : State :=
  if p.length < 7 ∨ 2054 < p.length then s.finish op 0x0004 []
  else
    let n := field p 0 1
    if 47 < n ∨ 1 < field p 1 1 then s.finish op 0x0005 []
    else if !s.main.boot.local9 then s.finish op 0x000E []
    else if !s.mpOn n then s.finish op 0x0010 []
    else if 4 ≤ (s.mport n).xacts.length then s.finish op 0x0015 []
    else s.modPort n (fun t => { t with xacts := t.xacts ++ [{
      src := .op op, noReply := bitOf (field p 1 1) 0, ref := field p 2 2, firstMs := field p 4 2, request := p.drop 6 }] })

/-- MP_STATUS: PORT; it clears no counter. -/
def opMpStatus (op : Nat) (p : List Byte) (s : State) : State :=
  if p.length ≠ 1 then s.finish op 0x0004 []
  else
    let n := field p 0 1
    if 47 < n then s.finish op 0x0005 []
    else s.finish op 0 (be 4 (s.word (mpReg n)) ++ be 4 (s.mpStatWord n) ++ be 4 (s.word (mpReg n + 24))
      ++ be 4 (s.word (mpReg n + 28)))

/-- The steps of an MP_PROG_LOAD; none where the bytes do not spell whole steps. `k` bounds them. -/
def parseSteps : Nat → List Byte → Option (List PStep)
  | _, [] => some []
  | 0, _ => none
  | k + 1, b =>
    let n := field b 4 2
    if b.length < 6 + n then none
    else (parseSteps k (b.drop (6 + n))).map (fun l =>
      { port := field b 0 1, noReply := bitOf (field b 1 1) 0, firstMs := field b 2 2, request := (b.drop 6).take n } :: l)

/-- Whether the steps of an MP_PROG_LOAD keep their ranges. -/
def stepsOk : Nat → List Byte → Bool
  | _, [] => true
  | 0, _ => false
  | k + 1, b =>
    decide (field b 0 1 ≤ 47) && decide (field b 1 1 ≤ 1) && decide (1 ≤ field b 4 2 ∧ field b 4 2 ≤ 2048)
      && stepsOk k (b.drop (6 + field b 4 2))

/-- The partial load, or the program, held under a number is discarded. -/
def State.dropProg (s : State) (p : Nat) : State := s.modProg p (fun g => { g with steps := [], count := 0 })

/-- A load of a program: the state and the status it ends with (R419). -/
def State.loadProg (s : State) (b : List Byte) : State × Nat :=
  if b.length < 4 then (s, 0x0004)
  else
    let p := field b 0 1
    let count := field b 1 1
    let first := field b 2 1
    match parseSteps 33 (b.drop 3) with
    | none => (s, 0x0004)
    | some l =>
      if 63 < p ∨ count = 0 ∨ 32 < count ∨ 31 < first ∨ !stepsOk 33 (b.drop 3) ∨ count < first + l.length then (s, 0x0005)
      else if (s.prog p).st = 1 then (s, 0x0804)
      else
        let g := s.prog p
        if first ≠ 0 ∧ (g.count ≠ count ∨ g.steps.length ≠ first ∨ g.loaded) then
          (if g.loaded then s else s.dropProg p, 0x0005)
        else
          let steps := if first = 0 then l else g.steps ++ l
          let s1 := s.modProg p (fun _ => { steps := steps, count := count })
          if 65536 < ((s1.main.mp.progs.map Prog.size)).sum then (s1.dropProg p, 0x0805) else (s1, 0)

/-- MP_PROG_LOAD. -/
def opMpProgLoad (op : Nat) (p : List Byte) (s : State) : State :=
  let (s1, st) := s.loadProg p
  s1.finish op st []

/-- MP_PROG_START. -/
def opMpProgStart (op : Nat) (p : List Byte) (s : State) : State :=
  if p.length ≠ 1 then s.finish op 0x0004 []
  else if 63 < field p 0 1 then s.finish op 0x0005 []
  else s.startProg (field p 0 1) (some op)

/-- MP_PROG_STOP (R424). -/
def opMpProgStop (op : Nat) (p : List Byte) (s : State) : State :=
  if p.length ≠ 1 then s.finish op 0x0004 []
  else if 63 < field p 0 1 then s.finish op 0x0005 []
  else (s.stopProg (field p 0 1) 0x0012).finish op 0 []

/-- MP_PROG_STATUS. -/
def opMpProgStatus (op : Nat) (p : List Byte) (s : State) : State :=
  if p.length ≠ 1 then s.finish op 0x0004 []
  else
    let n := field p 0 1
    if 63 < n then s.finish op 0x0005 []
    else s.finish op 0 (be 4 (s.progStatWord n) ++ [byte (s.prog n).steps.length] ++ be 2 (s.prog n).size)

end Sys2Proof.Machine
end

