-- ==== Sys2Proof/Machine/Ethernet.lean ====
section
/-! DEFINITION. Ethernet ports (14): reception, classification and bridging, the transmit buffer, checksums and
segmentation, DISTRUST on the wire, flow control, statistics, and the EM opcodes. A received frame is taken when its
FCS ends. -/

namespace Sys2Proof.Machine

/-- The Ethernet ports changed by a function. -/
def State.modEm (s : State) (f : Ether → Ether) : State := { s with main := { s.main with em := f s.main.em } }

/-- EM_Pn_CFG. -/
def emReg (n : Nat) : Nat := 0x0A0100 + 256 * n

/-- An Ethernet port. -/
def State.eport (s : State) (n : Nat) : EPort := at? s.main.em.ports n {}

/-- An Ethernet port changed by a function. -/
def State.modEport (s : State) (n : Nat) (f : EPort → EPort) : State :=
  s.modEm (fun e => { e with ports := e.ports.modify n f })

/-- Whether a port bridges: EN and BRIDGE, step 9 begun, not shed on the reserve, not quarantined
(R476, R480). -/
def State.bridges (s : State) (n : Nat) : Bool :=
  decide (n < 2) && s.bit (emReg n) 31 && s.bit (emReg n) 30 && s.main.boot.local9
    && !(s.hearth.onReserve && s.bit 0x010064 4) && !s.quarantined

/-! ### Statistics (R473, R474) -/

/-- EM_Pn_STATk. -/
def emStat (n k : Nat) : Nat := 0x0A0140 + 256 * n + 4 * k

/-- An amount counted in counter k of a port: saturating in basic mode, wrapping in full mode. -/
def State.emCountN (s : State) (n k amount : Nat) : State :=
  let a := emStat n k
  if s.bit (emReg n) 23 then
    let w := s.word a
    let v := (w + amount) % 2 ^ 32
    let s1 := s.countWrap a 31 0 amount
    if bitOf w 31 = bitOf v 31 then s1
    else s1.modEport n (fun p => { p with mask := Nat.lor p.mask (2 ^ k) })
  else if k < 8 then s.countN a 31 0 amount
  else s

/-- One event counted in counter k of a port. -/
def State.emCount (s : State) (n k : Nat) : State := s.emCountN n k 1

/-- The size bin of a frame of `len` bytes, from 0 (counters 8 to 14, 22 to 28). -/
def sizeBin (len : Nat) : Nat :=
  if len ≤ 64 then 0 else if len ≤ 127 then 1 else if len ≤ 255 then 2 else if len ≤ 511 then 3
  else if len ≤ 1023 then 4 else if len ≤ 1518 then 5 else 6

/-- Broadcast, and other group destinations, counted. -/
def State.emGroup (s : State) (n k : Nat) (f : List Byte) : State :=
  if f.take 6 = List.replicate 6 0xFF#8 then s.emCount n (k + 1)
  else if bitOf (field f 0 1) 0 then s.emCount n k else s

/-- A superframe boundary: the pending masks are queued and cleared (R474). -/
def State.emSuperframe (s : State) : State :=
  (List.range 2).foldl (fun x n =>
    let m := (x.eport n).mask
    if m = 0 then x
    else (x.modEport n (fun p => { p with mask := 0 })).notify 0x0A02 false ([byte n] ++ be 4 m)) s

/-! ### Checksums and segmentation (R468, R469) -/

/-- What the parse of a frame finds: where its IP header and its TCP or UDP header begin, where its payload
begins, whether it is IPv6 and whether UDP. -/
structure Parsed where
  l3 : Nat
  l4 : Nat
  body : Nat
  v6 : Bool
  udp : Bool
  deriving DecidableEq, Repr

/-- Whether an EtherType is a VLAN tag's. -/
def isTag (e : Nat) : Bool := e == 0x8100 || e == 0x88A8

/-- The parse of R468. -/
def parseFrame (f : List Byte) : Option Parsed :=
  let o1 := if isTag (field f 12 2) then 16 else 12
  let o := if o1 = 16 ∧ isTag (field f 16 2) then 20 else o1
  let l3 := o + 2
  let e := field f o 2
  let h : Option (Nat × Nat × Bool) :=
    if e = 0x0800 then
      let ihl := field f l3 1 % 16
      if field f l3 1 / 16 = 4 ∧ 5 ≤ ihl ∧ field f (l3 + 6) 2 % 0x4000 = 0 then
        some (l3 + 4 * ihl, field f (l3 + 9) 1, false) else none
    else if e = 0x86DD then some (l3 + 40, field f (l3 + 6) 1, true) else none
  match h with
  | none => none
  | some (l4, proto, v6) =>
    let body := if proto = 6 then l4 + 4 * (field f (l4 + 12) 1 / 16) else l4 + 8
    if (proto = 6 ∨ proto = 17) ∧ body ≤ f.length ∧ (proto = 17 ∨ l4 + 20 ≤ body) then
      some ⟨l3, l4, body, v6, proto == 17⟩ else none

/-- Sixteen-bit words of a byte string added up; an odd last byte counts as the upper byte. -/
def sumWords : List Byte → Nat
  | [] => 0
  | [a] => a.toNat * 256
  | a :: b :: t => a.toNat * 256 + b.toNat + sumWords t

/-- The Internet checksum of a sum. -/
def inetSum (v : Nat) : Nat :=
  let f (x : Nat) : Nat := x / 65536 + x % 65536
  0xFFFF - f (f (f v))

/-- Bytes of a string replaced at an offset. -/
def putAt (l : List Byte) (o : Nat) (b : List Byte) : List Byte := l.take o ++ b ++ l.drop (o + b.length)

/-- Segment i of a frame: headers replicated and updated, the payload given (Table EM-3); `whole` is the
frame of a send with CSUM alone, whose identification, flags and UDP length stand. -/
def segment (p : Parsed) (f payload : List Byte) (i mss : Nat) (last whole : Bool) : List Byte :=
  let h := f.take p.body
  let n := p.body + payload.length
  let h1 := if p.v6 then putAt h (p.l3 + 4) (be 2 (n - p.l3 - 40)) else
    let a := putAt h (p.l3 + 2) (be 2 (n - p.l3))
    let b := if whole then a else putAt a (p.l3 + 4) (be 2 (field h (p.l3 + 4) 2 + i))
    let c := putAt b (p.l3 + 10) [0#8, 0#8]
    putAt c (p.l3 + 10) (be 2 (inetSum (sumWords ((c.drop p.l3).take (p.l4 - p.l3)))))
  let fl := field h (p.l4 + 13) 1
  let fl1 := if last then fl else fl - fl % 2 - (if bitOf fl 3 then 8 else 0)
  let fl2 := if i = 0 then fl1 else fl1 % 128
  let h2 := if p.udp then (if whole then h1 else putAt h1 (p.l4 + 4) (be 2 (n - p.l4)))
    else if whole then h1 else putAt (putAt h1 (p.l4 + 4) (be 4 (field h (p.l4 + 4) 4 + i * mss))) (p.l4 + 13) [byte fl2]
  let at_ := if p.udp then p.l4 + 6 else p.l4 + 16
  if !whole && p.udp && !p.v6 && field h at_ 2 == 0 then h2 ++ payload
  else
    let h3 := putAt h2 at_ [0#8, 0#8]
    let addr := if p.v6 then (h3.drop (p.l3 + 8)).take 32 else (h3.drop (p.l3 + 12)).take 8
    let sum := inetSum (sumWords addr + (n - p.l4) + (if p.udp then 17 else 6) + sumWords (h3.drop p.l4 ++ payload))
    putAt h3 at_ (be 2 (if p.udp ∧ sum = 0 then 0xFFFF else sum)) ++ payload

/-- SEG, CSUM and MSS of a send's prefix (R466). -/
def Send.seg (x : Send) : Bool := bitOf (field x.bytes 0 4) 31
/-- CSUM of a send's prefix. -/
def Send.csum (x : Send) : Bool := bitOf (field x.bytes 0 4) 30
/-- MSS of a send's prefix. -/
def Send.mss (x : Send) : Nat := bits (field x.bytes 0 4) 29 16

/-- The bytes of a frame on the wire up to its FCS: padded to 60 (R466). -/
def padFrame (f : List Byte) : List Byte := f ++ List.replicate (60 - f.length) 0#8

/-- The FCS of a frame, least significant byte of the CRC first. -/
def fcs (f : List Byte) : List Byte := (be 4 (crc32 f)).reverse

/-- How many frames a whole send makes. -/
def Send.count (x : Send) : Nat :=
  if x.seg then match parseFrame (x.bytes.drop 4) with
    | some p => max 1 ((x.bytes.length - 4 - p.body + x.mss - 1) / x.mss)
    | none => 1
  else 1

/-- Whether a send can be made into frames: its prefix, its parse, its MSS, and MAX_FRAME (R466, R468, R469). -/
def Send.ok (x : Send) (maxFrame : Nat) : Bool :=
  let f := x.bytes.drop 4
  let fits (n : Nat) : Bool := decide (max 60 n + 4 ≤ maxFrame)
  if x.seg then
    match parseFrame f with
    | some p => decide (64 ≤ x.mss ∧ x.mss ≤ 9000) && fits (p.body + min x.mss (f.length - p.body))
    | none => false
  else if x.csum then (parseFrame f).isSome && fits f.length
  else true

/-- Whether a send that has not started can be seen to fail R468 or R469 by the bytes held: all of them, or enough for
any headers. -/
def Send.broken (x : Send) (maxFrame : Nat) : Bool :=
  let f := x.bytes.drop 4
  if x.whole then !x.ok maxFrame
  else (x.seg || x.csum) && decide (256 ≤ f.length) && (match parseFrame f with
    | none => true
    | some p => x.seg && (decide (x.mss < 64 ∨ 9000 < x.mss)
        || (decide (p.body + x.mss ≤ f.length) && decide (maxFrame < max 60 (p.body + x.mss) + 4))))

/-- The next frame of a send, where its bytes are held: `some none` is a frame whose end is not known yet
(R470). -/
def Send.frame (x : Send) : Option (Option (List Byte)) :=
  let f := x.bytes.drop 4
  if x.seg then
    match parseFrame f with
    | none => none
    | some p =>
      let o := p.body + x.next * x.mss
      let n := f.length
      if x.whole ∨ o + x.mss ≤ n then
        some (some (segment p f ((f.drop o).take x.mss) x.next x.mss (x.whole && decide (n ≤ o + x.mss)) false))
      else none
  else if x.csum then
    match parseFrame f with
    | none => none
    | some p => if x.whole then some (some (segment p f (f.drop p.body) 0 0 true true)) else none
  else if x.whole then some (some f)
  else if 64 ≤ f.length then some none
  else none

/-! ### The wire (R470, R471) -/

/-- `n` byte times of a port's speed in ticks. -/
def EPort.bytesT (p : EPort) (n : Nat) : Nat := n * 64 * (if p.speed = 2 then 1 else if p.speed = 1 then 10 else 100) / 25

/-- When the last FCS byte of a frame on the wire goes out; none while its length is not known. -/
def EPort.wireEnd (p : EPort) : Option Nat :=
  match p.wire with
  | some w => w.bytes.map (fun f => w.start + p.bytesT (8 + (padFrame f).length + 4))
  | none => none

/-- The head send counts a frame sent, and leaves the buffer with its last one. -/
def EPort.sdsSent (q : EPort) : List Send :=
  match q.sends with
  | [] => []
  | x :: t =>
    let y := { x with sent := x.sent + 1 }
    if x.whole ∧ x.stream = none ∧ x.count ≤ x.next then t else y :: t

/-- A frame has gone out, with a correct or an inverted FCS (R471, Table EM-4). -/
def State.wireDone (s : State) (n : Nat) (good : Bool) : State :=
  let p := s.eport n
  match p.wire with
  | some ⟨_, some f, seg, ofHead, _⟩ =>
    let b := padFrame f
    let tail := if good then fcs b else (fcs b).map (fun x => ~~~ x)
    let s1 := s.modEport n (fun q => { q with
      wire := none, out := b ++ tail
      freeAt := (p.wireEnd.getD s.now) + p.bytesT 12
      sends := if ofHead then q.sdsSent else q.sends })
    if !good then s1.emCount n 6
    else
      let len := b.length + 4
      let s2 := ((s1.emCount n 4).emCountN n 5 len).emCount n (22 + sizeBin len)
      let s3 := s2.emGroup n 29 b
      if seg then s3.emCount n 31 else s3
  | _ => s

/-- Frames that have gone out by now are closed. -/
def State.wiresDone (s : State) : State :=
  (List.range 2).foldl (fun x n => match (x.eport n).wireEnd with
    | some e => if e ≤ x.now then x.wireDone n true else x
    | none => x) s

/-- A send leaves the buffer whole or in part; a frame of it on the wire goes on alone. -/
def EPort.dropHead (p : EPort) : EPort :=
  { p with sends := p.sends.drop 1, wire := p.wire.map (fun w => { w with ofHead := false }) }

/-- The position of the send with a stream. -/
def EPort.sendOf (p : EPort) (stream : Nat) : Option Nat := p.sends.findIdx? (fun x => x.stream == some stream)

/-- The verdict of a bridged SDU whose send has been discarded while a frame of it was on the wire: the frame completes
(R471, R477). -/
def State.wireVerdict (s : State) (n stream : Nat) (bytes : List Byte) (distrust : Bool) : State :=
  if !(s.eport n).wire.any (fun w => w.stream == some stream) then s
  else
    let s1 := s.modEport n (fun q => { q with
      wire := q.wire.map (fun w => { w with bytes := some (w.bytes.getD (bytes.drop 4)), stream := none }) })
    if (s1.eport n).wireEnd.any (fun e => decide (e ≤ s.now)) then
      let s2 := s1.wireDone n true
      if distrust then s2.emCount n 7 else s2
    else if distrust then (s1.count (emReg n + 8) 11 8).wireDone n false
    else s1

/-- The verdict of a bridged SDU whose plaintext is now whole (R470, R471): 0 authentic. -/
def State.macVerdict (s : State) (n stream : Nat) (bytes : List Byte) (distrust : Bool) : State :=
  let p := s.eport n
  match p.sendOf stream with
  | none => s.wireVerdict n stream bytes distrust
  | some i =>
    let x := at? p.sends i ⟨[], true, none, false, 0, 0⟩
    let y := { x with bytes := bytes, whole := true, stream := none }
    let live := i == 0 && (match p.wire with | some w => w.ofHead | none => false)
    let s1 := s.modEport n (fun q => { q with
      sends := q.sends.set i y
      wire := if live then q.wire.map (fun w => { w with bytes := some (w.bytes.getD (bytes.drop 4)), stream := none })
        else q.wire })
    let overrun := live && (match (s1.eport n).wireEnd with | some e => decide (e ≤ s.now) | none => false)
    let s2 := if overrun then s1.wireDone n true else s1
    if !distrust then
      (if ((s2.eport n).sends[i]?).any (fun z => z.stream.isNone && z.whole && decide (z.count ≤ z.next) && z.count == z.sent)
       then s2.modEport n (fun q => { q with sends := q.sends.eraseIdx i }) else s2)
    else
      let sent := x.sent + b2n overrun
      let cut := live && !overrun
      let left := y.count - x.next
      let s3 := s2.emCountN n 7 sent
      let s4 := if cut then (s3.count (emReg n + 8) 11 8).wireDone n false else s3
      let s5 := s4.countN (emReg n + 8) 7 0 left
      s5.modEport n (fun q => { q with sends := q.sends.eraseIdx (if overrun && y.count ≤ x.next then q.sends.length else i) })

/-! ### Sending (R466, R467) -/

/-- The plaintext that a stream has given so far. -/
def State.plainOf (s : State) (stream : Nat) : List Byte := match s.stream? stream with | some x => x.plain | none => []

/-- The bytes that a transmit buffer holds (R467). -/
def State.txHold (s : State) (n : Nat) : Nat :=
  ((s.eport n).sends.map (fun y => match y.stream with
    | some id => max y.bytes.length (s.plainOf id).length
    | none => y.bytes.length)).sum

/-- A send offered to a transmit buffer: whether it was taken (R467, R468, R477). -/
def State.macSend (s : State) (n : Nat) (bytes : List Byte) (whole : Bool) (stream : Option Nat) : State × Bool :=
  let p := s.eport n
  let x : Send := { bytes := bytes, whole := whole, stream := stream, fwd := s.bit (emReg n) 24 }
  let refuse (hi lo : Nat) : State × Bool := ((s.count (emReg n + 8) hi lo).emCount n 6, false)
  if !s.bit (emReg n) 31 then refuse 15 12
  else if !p.up then refuse 23 20
  else if !s.bridges n then refuse 27 24
  else if 131072 < s.txHold n + bytes.length then refuse 27 24
  else if (4 ≤ bytes.length ∧ field bytes 2 2 ≠ 0) ∨ (whole ∧ bytes.length < 5) then refuse 27 24
  else if whole && !x.ok (s.fld (emReg n) 13 0) then refuse 19 16
  else (s.modEport n (fun q => { q with sends := q.sends ++ [x] }), true)

/-- A whole bridged SDU enters the transmit buffer; one whose verdict is DISTRUST leaves it at once, its frames counted
(R471). -/
def State.sendWhole (s : State) (n : Nat) (bytes : List Byte) (distrust : Bool) : State :=
  match s.macSend n bytes true none with
  | (s1, true) =>
    if distrust then
      (s1.modEport n (fun q => { q with sends := q.sends.take (q.sends.length - 1) })).countN (emReg n + 8) 7 0
        (Send.count ⟨bytes, true, none, false, 0, 0⟩)
    else s1
  | (s1, false) => s1

/-- What ETH_SEND does: the next bridged SDU of a port is offered to its transmit buffer. One that the MAC has refused is
discarded; one in reassembly up to its LAST unit. -/
def State.ethSend (s : State) (n : Nat) : State :=
  if !s.blazing ∨ 2 ≤ n then s else
  match s.main.td.sdus.find? (fun d => d.dest == 3 + n && d.member == s.self) with
  | some d =>
    let s1 := s.modTd (fun t => { t with sdus := t.sdus.erase d })
    if d.done then s1.sendWhole n d.bytes d.distrust
    else (s1.macSend n (s.plainOf (d.stream.getD 0)) false d.stream).1
  | none =>
    match s.main.td.reasm.find? (fun r => r.stream.isSome && !r.fec && bits (s.tdPort r.port) 24 20 == 3 + n
        && bits (s.tdPort r.port) 27 25 == s.self && !s.inMac r.stream && s.plainOf (r.stream.getD 0) != []) with
    | some r => match s.macSend n (s.plainOf (r.stream.getD 0)) false r.stream with
      | (s1, true) => s1
      | (s1, false) => s1.dropReasm r true
    | none => s

/-- What ETH_FRAME_START does: the next frame of the send at the head starts where its bytes, and with FWD 0
its verdict, are held, and neither PAUSE nor the wire holds it (R470, R472). -/
def State.ethFrameStart (s : State) (n : Nat) : State :=
  let p := s.eport n
  match p.sends with
  | [] => s
  | x :: _ =>
    let held : Bool := match p.pauseUntil with | some t => decide (s.now < t) | none => false
    if !p.up ∨ p.wire.isSome ∨ s.now < p.freeAt ∨ held ∨ !s.blazing then s
    else if !x.fwd && (!x.whole || x.stream.isSome) then s
    else
      let y := match x.stream with | some id => if x.whole then x else { x with bytes := s.plainOf id } | none => x
      if x.whole ∧ x.count ≤ x.next then s
      else if x.next = 0 && y.broken (s.fld (emReg n) 13 0) then
        ((s.modEport n EPort.dropHead).count (emReg n + 8) 19 16).emCount n 6
      else match y.frame with
        | none => s
        | some f => s.modEport n (fun q => { q with
            wire := some { start := s.now, bytes := f, segment := x.seg, stream := x.stream }
            sends := q.sends.modify 0 (fun z => { z with next := z.next + 1 }) })

/-! ### Receiving (R461 to R465, R472) -/

/-- A frame on the pause opcode of Annex 31B: its quanta. -/
def pauseOf (f : List Byte) : Option Nat :=
  if f.take 6 = [0x01#8, 0x80#8, 0xC2#8, 0#8, 0#8, 0x01#8] ∧ field f 12 2 = 0x8808 ∧ field f 14 2 = 1 then
    some (field f 16 2) else none

/-- VID, PCP and DEI of a frame's outer tag (R462). -/
def outerTag (f : List Byte) : Nat × Nat × Bool :=
  if isTag (field f 12 2) then (field f 14 2 % 4096, field f 14 2 / 8192, bitOf (field f 14 2) 12) else (0, 0, false)

/-- The entry that a frame matches and its policer; the default's CLASS is 0xFF (R462). -/
def State.classify (s : State) (n : Nat) (f : List Byte) : Option (Nat × Nat) :=
  let (vid, pcp, _) := outerTag f
  let hit (k : Nat) : Bool :=
    let w := s.word (emReg n + 16 + 4 * k)
    bitOf w 31 && (bitOf w 30 || bits w 29 18 == vid) && bitOf w (10 + pcp)
  match (List.range 8).find? hit with
  | some k => some (k, s.fld (emReg n + 16 + 4 * k) 3 0)
  | none => if s.bit (emReg n) 22 then some (0xFF, s.fld (emReg n) 21 18) else none

/-- An SDU that a policer has coloured is offered to the policer's queue of this chip (R383, Table UP-4). -/
def State.offerColoured (s : State) (member p q colour : Nat) (sdu : List Byte) : State :=
  let limit := s.fld (upCfg q) 17 8 * 1024
  let pct := s.fld (polReg p) 22 16
  if colour = 1 ∧ pct * limit ≤ 100 * (s.upQueue q).fill then
    if member = s.self then s.count (polReg p + 16) 15 0
    else s.sendMsg 0 member 0x0B 0 ([1#8] ++ be 4 (polReg p + 16) ++ [15#8, 0#8])
  else (s.enqueue q (.eth (field sdu 0 1 / 16 % 2)) sdu).1

/-- Network time on the ring of R215 some ticks ago, at the present rate. -/
def State.ringBefore (s : State) (ticks : Nat) : Nat :=
  (s.main.nt.totalNs * 2 ^ 24 + s.main.nt.frac - ticks * s.word 0x020014) / 2 ^ 24 % 2 ^ 32

/-- A frame that has passed, whose FCS ends now, is stamped at the end of its SFD and classified, and enters the receive
buffer (R462, R465). -/
def State.rxHold (s : State) (n : Nat) (f : List Byte) : State :=
  match s.classify n f with
  | none => s.emCount n 3
  | some (cls, p) =>
    if 32768 < ((s.eport n).rx.map (fun x => x.bytes.length)).sum + f.length then (s.emCount n 3).count (emReg n + 8) 31 28
    else s.modEport n (fun q => { q with rx := q.rx ++ [⟨cls, p, s.ringBefore (q.bytesT f.length), f⟩] })

/-- A frame is metered and offered upstream (R383, R464, R465). -/
def State.bridgeUp (s : State) (n : Nat) (x : RxFrame) : State :=
  let p := x.policer
  let f := x.bytes
  if !s.bit (polReg p) 31 then s.emCount n 3
  else
    let (_, _, dei) := outerTag f
    let (s1, colour) := s.police p f.length dei
    let q := s.fld (polReg p) 28 24
    let sdu := [byte (s.self * 32 + n * 16 + p), byte x.cls, 0#8, 0#8] ++ be 4 x.stamp ++ f.take (f.length - 4)
    if colour = 2 then s1.count (polReg p + 16) 31 16
    else if s1.main.sk.isLead ∨ !s1.main.sk.formed then s1.offerColoured s1.self p q colour sdu
    else s1.sendMsg 3 s1.main.sk.lead 0x09 0 ([1#8, byte q, byte colour, byte p] ++ sdu)

/-- In Blaze the frames of the receive buffers are metered, in order of arrival (R465, R475). -/
def State.meterFrames (s : State) : State :=
  if !s.blazing then s
  else (List.range 2).foldl (fun x n =>
    (x.eport n).rx.foldl (fun y f => y.bridgeUp n f) (x.modEport n (fun q => { q with rx := [] }))) s

/-- What ETH_FRAME_RX does: a frame from destination address to FCS, and whether a code group or RX_ER in it
was invalid (R461). -/
def State.ethFrameRx (s : State) (n : Nat) (f : List Byte) (symbol : Bool) : State :=
  let c := emReg n
  if 2 ≤ n ∨ !s.main.out ∨ !s.bit c 31 ∨ !(s.eport n).up ∨ s.hearth.ps = .smoulder then s
  else
    let s := s.wake 0x09
    let bad (k : Nat) : State := (s.emCount n 2).emCount n k
    let len := f.length
    if symbol then bad 18
    else if len < 64 then bad 19
    else if s.fld c 13 0 < len then bad 20
    else if f.drop (len - 4) ≠ fcs (f.take (len - 4)) then bad 17
    else
      let s1 := (((s.emCount n 0).emCountN n 1 len).emCount n (8 + sizeBin len)).emGroup n 15 f
      match pauseOf f with
      | some q =>
        let s2 := s1.emCount n 21
        if s.bit c 25 then s2.modEport n (fun p => { p with
          pauseUntil := if q = 0 then none else some (s.now + p.bytesT (64 * q)) }) else s2
      | none => if s1.bridges n then s1.rxHold n f else s1.emCount n 3

/-- What PAUSE_EXPIRY does (R472). -/
def State.pauseExpiry (s : State) (n : Nat) : State :=
  match (s.eport n).pauseUntil with
  | some t => if t ≤ s.now then s.modEport n (fun p => { p with pauseUntil := none }) else s
  | none => s

/-! ### Links and configuration (R457 to R460, R475, R477, R478) -/

/-- EM_LINK. -/
def State.emLink (s : State) (n : Nat) : State :=
  let p := s.eport n
  (s.count (emReg n + 4) 15 0).notify 0x0A01 false
    [byte n, byte (b2n p.up), byte p.speed, byte (b2n p.pause + b2n p.half * 2)]

/-- The link of a port goes down: a frame on the wire ends there, and the buffer is flushed, each send counted
in a field of EM_Pn_DIAG (R478). -/
def State.linkDownEm (s : State) (n hi lo : Nat) (keepWire : Bool) : State :=
  let p := s.eport n
  let s1 := (s.modEport n (fun q => { q with
    up := false, pauseUntil := none, sends := []
    wire := if keepWire then q.wire.map (fun w => { w with ofHead := false }) else none })).countN
      (emReg n + 8) hi lo p.sends.length
  if p.up then s1.emLink n else s1

/-- What LINK_CHANGE does: the condition of R458 has held for 10 ms, with what the partner or PHY reports, or
fails. -/
def State.linkChange (s : State) (n : Nat) (up : Bool) (speed : Nat) (half pause : Bool) : State :=
  if 2 ≤ n ∨ !s.main.out ∨ !s.bit (emReg n) 31 ∨ (at? s.main.boot.ends 4 none).isNone ∨ s.hearth.ps = .smoulder then s
  else
    let s1 := s.modEport n (fun p => { p with half := half })
    let ok := up && !half
    if ok = (s.eport n).up then s1
    else if ok then
      let sp := if s.bit (emReg n) 28 then (if n = 0 ∧ !s.bit (emReg n) 29 then 2 else min speed 2) else s.fld (emReg n) 27 26
      (s1.modEport n (fun p => { p with up := true, speed := sp, pause := pause && s.bit (emReg n) 25 })).emLink n
    else s1.linkDownEm n 23 20 false

/-- EM_Pn_CFG has been written over `old` (R473, R477, R478). -/
def State.emCfgWritten (s : State) (n old : Nat) : State :=
  let w := s.word (emReg n)
  let s1 := if bitOf w 23 = bitOf old 23 then s
    else ((List.range 32).foldl (fun x k => x.setWord (emStat n k) 0) s).modEport n (fun p => { p with mask := 0 })
  let restart := bits w 29 25 != bits old 29 25 || bits w 13 0 != bits old 13 0
  if bitOf old 31 ∧ !bitOf w 31 then s1.linkDownEm n 15 12 true
  else if bitOf old 31 ∧ restart then s1.linkDownEm n 23 20 false
  else s1

/-- Whether a word may be written to EM_Pn_CFG: E0 in MODE 0 runs at 1000 Mbit/s (R458). -/
def emCfgLegal (n w : Nat) : Bool := !(n == 0 && !bitOf w 29 && bits w 27 26 != 2)

/-- In Smoulder the links are down; a stream that has vanished without a verdict is DISTRUST; frames received are metered
(R324, R475). -/
def State.etherFollow (s : State) : State :=
  let s1 := if s.hearth.ps = .smoulder then
      (List.range 2).foldl (fun x n => if (x.eport n).up then x.linkDownEm n 23 20 false else x) s else s
  let s2 := (List.range 2).foldl (fun x n =>
    (x.eport n).sends.foldl (fun y z => match z.stream with
      | some id => if (y.stream? id).isNone then y.macVerdict n id z.bytes true else y
      | none => y) x) s1
  let s3 := (List.range 2).foldl (fun x n => match (x.eport n).wire.bind (·.stream) with
    | some id => if (x.stream? id).isNone then x.macVerdict n id [] true else x
    | none => x) s2
  s3.meterFrames

/-! ### Registers and opcodes (R459, R481, R482) -/

/-- EM_Pn_LINK as it reads. -/
def State.emLinkWord (s : State) (n : Nat) : Nat :=
  let p := s.eport n
  b2n p.up * 2 ^ 31 + p.speed * 2 ^ 29 + b2n p.pause * 2 ^ 28 + b2n p.half * 2 ^ 27 + s.fld (emReg n + 4) 15 0

/-- EM_STATUS: PORT. -/
def opEmStatus (op : Nat) (p : List Byte) (s : State) : State :=
  if p.length ≠ 1 then s.finish op 0x0004 []
  else
    let n := field p 0 1
    if 1 < n then s.finish op 0x0005 []
    else s.finish op 0 (be 4 (s.word (emReg n)) ++ be 4 (s.emLinkWord n) ++ be 4 (s.word (emReg n + 8)))

/-- EM_STATS: PORT; in basic mode the counters are cleared as by a read. -/
def opEmStats (op : Nat) (p : List Byte) (s : State) : State :=
  if p.length ≠ 1 then s.finish op 0x0004 []
  else
    let n := field p 0 1
    if 1 < n then s.finish op 0x0005 []
    else
      let b := (List.range 32).flatMap (fun k => be 4 (s.word (emStat n k)))
      let s1 := if s.bit (emReg n) 23 then s else (List.range 8).foldl (fun x k => x.setWord (emStat n k) 0) s
      s1.finish op 0 b

/-- EM_MDIO: what a PHY answers to a read is a free value. -/
def opEmMdio (op : Nat) (p : List Byte) (s : State) : State :=
  if p.length ≠ 6 then s.finish op 0x0004 []
  else
    let cl := field p 0 1
    let o := field p 1 1
    if (cl ≠ 22 ∧ cl ≠ 45) ∨ 2 < o ∨ (o = 2 ∧ cl = 22) ∨ 31 < field p 2 1 ∨ 31 < field p 3 1 then s.finish op 0x0005 []
    else if o = 0 then
      let (v, s1) := s.drawBelow 65536
      s1.finish op 0 (be 2 v)
    else s.finish op 0 []

end Sys2Proof.Machine
end

