-- ==== Sys2Proof/Machine/Completion.lean ====
section
/-! DEFINITION. Completions of the cipher engine (15): who receives them, zeroisation, and the CY opcodes. -/

namespace Sys2Proof.Machine

/-! ### Consumers (R496, R502, Table CY-8) -/

/-- An upstream SDU whose request has ended: its ciphertext is complete, or it waits for another request (R374). -/
def Sdu.completed (d : Sdu) (r : CyReq) (now : Nat) : Sdu :=
  if d.req ≠ some r.id then d
  else if r.status = 0 then { d with bytes := r.out, readyAt := some now, req := none }
  else { d with req := none }

/-- A unit placed in a burst whose request has ended. -/
def UpUnit.completed (u : UpUnit) (r : CyReq) (now : Nat) : UpUnit :=
  if u.req ≠ some r.id then u
  else if r.status ≠ 0 then { u with req := none }
  else match u.src with
    | .queue q d take => { u with src := .queue q (d.completed r now) take, readyAt := some now, req := none }
    | _ => { u with data := r.out, readyAt := some now, req := none }

/-- Units of the bursts that wait, or are under way, told of a request's end. -/
def Upstream.completed (u : Upstream) (r : CyReq) (now : Nat) : Upstream :=
  let b (x : Burst) : Burst := { x with units := x.units.map (fun y => y.completed r now) }
  { u with
    queues := u.queues.map (fun q => { q with sdus := q.sdus.map (fun d => d.completed r now) })
    bursts := u.bursts.map b
    current := u.current.map b }

/-- Notices whose copy was encrypted by a request keep its ciphertext (R388). -/
def State.noteWire (s : State) (r : CyReq) : State :=
  if r.status ≠ 0 then s
  else
    let kinds := (s.main.up.queues.flatMap (fun q => q.sdus)).filterMap (fun d =>
      if d.req = some r.id then match d.kind with | .packet (.notice n) => some n | _ => none else none)
    s.modCmd (fun c => { c with notices := c.notices.map (fun n => if kinds.contains n.num then { n with wire := r.out } else n) })

/-- A fragment of a downstream SDU has been decrypted; with the last one its SDU is finished, and a send that took
its plaintext has its verdict (R471, R500, R502). -/
def State.downDone (s : State) (r : CyReq) (id : Nat) : State :=
  if !r.last then s
  else
    let distrust := decide (r.status ≠ 0)
    let s1 := s.modTd (fun t => { t with sdus := t.sdus.map (fun d =>
      if d.stream = some id then { d with bytes := r.out, distrust := distrust, done := true, stream := none } else d) })
    let s2 := (List.range 2).foldl (fun x n => x.macVerdict n id r.out distrust) s1
    State.routeSdus s2.main.td.sdus.length s2

/-- A completion given to its consumer. -/
def State.complete (s : State) (r : CyReq) : State :=
  match r.for_ with
  | .sdu => (s.noteWire r).modUp (fun u => u.completed r s.now)
  | .trib t =>
    let s1 := s.modUp (fun u => u.completed r s.now)
    if r.status = 0 then s1.modTb (fun b => { b with closed := b.closed.map (fun c =>
      if c.req = some r.id then { c with data := r.out, readyAt := some s.now, req := none } else c) })
    else
      let m := match s1.main.tb.closed.find? (fun c => c.req == some r.id) with | some c => c.member | none => s1.self
      (s1.modTb (fun b => { b with closed := b.closed.filter (fun c => c.req != some r.id) })).tribCount m
        (0x090114 + 32 * t) 23 16
  | .down id => s.downDone r id
  | .run op => s.finish op r.status r.out

/-- Completions given to their consumers in order. -/
def State.completeAll (s : State) (l : List CyReq) : State := l.foldl State.complete s

/-- What CIPHER_COMPLETION does for a pipeline. -/
def State.cipherCompletion (s : State) (pipe : Nat) : State :=
  let (s1, l) := s.cipherEnd pipe
  s1.completeAll l

/-- What CY_QUEUE_DISABLE does: queued requests complete ABORTED (Table PL-4, R513). -/
def State.queueOff (s : State) (q : Nat) : State :=
  let (s1, l) := s.cqDisabled q
  s1.completeAll l

/-! ### Zeroisation (R509, R510) -/

/-- Every key slot, every directory word and the staging register written to 0; requests end, and CY_ZEROISED is
queued: cause 0 tamper input, 1 mesh, 2 CY_ZEROISE (R189, R510). -/
def State.zeroise (s : State) (cause source : Nat) : State :=
  let s0 := { s with hearth := { s.hearth with keys := List.replicate 256 {} } }
  if !s0.main.out then s0
  else
    let c := s.main.cy
    let upd := c.update
    let reqs := (c.pipes.filterMap id) ++ c.queues.flatten
    let loads := c.keyOps.filter (fun k => k.2.1 == 0x0B02)
    let sa := (s0.modCy (fun c => { c with
      pipes := [none, none], queues := List.replicate 4 [], fin := [], update := none, ctrs := List.replicate 256 0
      keyOps := c.keyOps.filter (fun k => k.2.1 != 0x0B02) })).keyDrop
    let s1 := sa.completeAll c.fin
    let (s2, l) := s1.failRequests reqs 0x0B07
    let s3 := s2.modCy (fun c => { c with streams := c.streams.map (fun x => { x with
      key := none, status := if x.status = 0 then 0x0B07 else x.status }) })
    let s4 := s3.completeAll l
    let s5 := loads.foldl (fun x k => x.finish k.1 0x0B07 []) (match upd with | some u => s4.finish u.op 0x0B07 [] | none => s4)
    let s6 := (List.range 3).foldl (fun x i => if x.main.cy.ready then x.reseed i else x) s5
    (s6.ash 0x0B 0x02 [byte cause, byte source]).notify 0x0B02 true [byte cause, byte source]

/-! ### Key opcodes (R484, R490, R491, R512, R513, R516) -/

/-- The bytes of a wrapped key of a LEN. -/
def keyBytes (len : Nat) : Nat := 8 * (len + 1)

/-- CY_KEY_LOAD when its turn has come: the checks in the order of the slot, the pair, the generation and the
key-encryption key, then the unwrap. -/
def State.keyLoad (s : State) (op : Nat) (p : List Byte) : State :=
  let slot := field p 0 1
  let len := field p 1 1
  let usage := field p 2 1
  let kek := field p 4 2
  let gen := field p 6 4
  let w := p.drop 10
  let d := (s.keySlot slot).dir
  let up := (s.keySlot (slot + 1)).dir
  let kd := (s.keySlot kek).dir
  let free := decide (up = 0) || (dirPaired up && decide (1 < dirLen d))
  if dirPaired d || (1 < len && (slot % 2 == 1 || !free)) || (decide (kek < 256) && dirPaired kd) then s.finish op 0x0B04 []
  else if dirLen d ≠ 0 ∧ sdiff 32 gen (dirGen d) ≤ 0 then s.finish op 0x0B03 []
  else if kek < 256 ∧ dirLen kd = 0 then s.finish op 0x0B00 []
  else if kek < 256 ∧ !dirUse kd 4 then s.finish op 0x0B01 []
  else
    let key := if kek < 256 then s.keyOf kek (dirActive kd) else padTo 32 Config.deviceKey
    let serial := if kek < 256 then be 8 s.termSerial else be 8 ownSerial
    let aad := serial ++ [byte slot, byte len, byte usage, 0#8] ++ be 4 gen
    let iv := w.take 12
    let ct := (w.drop 12).take (keyBytes len)
    if gcmTag key iv aad ct ≠ w.drop (12 + keyBytes len) then s.finish op 0x0B02 []
    else s.beginUpdate ⟨op, slot, len, usage, gen, gcmCrypt key iv ct, s.now⟩

/-- SDUs of a slot that await encryption are discarded, as at a zeroisation (R393, R513). -/
def State.slotDrop (s : State) (k : Nat) : State :=
  (List.range 32).foldl (fun x n =>
    let mine (d : Sdu) : Bool := d.readyAt.isNone && d.slot == k
    let c := ((x.upQueue n).sdus.filter mine).length
    if c = 0 then x
    else ((x.modQueue n (fun q => { q with sdus := q.sdus.filter (fun d => !mine d) })).countN (0x07010C + 16 * n) 15 0 c).ash
      0x07 0x03 ([byte n] ++ be 2 (sat 0xFFFF c))) s

/-- CY_KEY_ERASE when its turn has come: decryptions in progress on the slot end with CY_NO_KEY and DISTRUST. -/
def State.keyErase (s : State) (op k : Nat) : State :=
  let d := (s.keySlot k).dir
  if dirPaired d then s.finish op 0x0B04 []
  else
    let s1 := s.modCy (fun c => { c with
      ctrs := c.ctrs.set k 0
      streams := c.streams.map (fun x => if x.slot = k ∧ x.key.isSome ∧ x.status = 0 then { x with status := 0x0B00 } else x) })
    let s2 := (s1.eraseKey k).slotDrop k
    let s3 := if dirLen d = 0 then s2 else s2.notify 0x0B01 false ([byte k] ++ be 4 (dirGen d) ++ [1#8])
    s3.finish op 0 []

/-- The key opcode at the head of its line runs, where no update is under way and, for a load, a pipeline can run
(R508, R512). -/
def State.keyStep (s : State) : Option State :=
  if s.main.cy.update.isSome then none
  else match s.main.cy.keyOps with
    | [] => none
    | (op, code, p) :: t =>
      let s1 := s.modCy (fun c => { c with keyOps := t })
      if code = 0x0B02 then (if s.canRun then some (s1.keyLoad op p) else none)
      else some (s1.keyErase op (field p 0 1))

/-- Key opcodes in their order; the number bounds them. -/
def State.keyLoop : Nat → State → State
  | 0, s => s
  | k + 1, s => match s.keyStep with
    | some s' => State.keyLoop k s'
    | none => s

/-- The engine follows: a committed update proceeds where nothing holds it up, and key opcodes take their turn. -/
def State.cyFollow (s : State) : State :=
  if !s.main.out then s
  else
    let s1 := s.proceedUpdate
    State.keyLoop s1.main.cy.keyOps.length s1

/-- CY_KEY_LOAD: accepted for its turn. -/
def opCyKeyLoad (op : Nat) (p : List Byte) (s : State) : State :=
  let len := field p 1 1
  if p.length ≠ 54 ∧ p.length ≠ 62 ∧ p.length ≠ 70 then s.finish op 0x0004 []
  else if len < 1 ∨ 3 < len ∨ 63 < field p 2 1 ∨ field p 3 1 ≠ 0 ∨ 0x100 < field p 4 2 then s.finish op 0x0005 []
  else if p.length ≠ 38 + keyBytes len then s.finish op 0x0004 []
  else s.modCy (fun c => { c with keyOps := c.keyOps ++ [(op, 0x0B02, p)] })

/-- CY_KEY_ERASE: accepted for its turn. -/
def opCyKeyErase (op : Nat) (p : List Byte) (s : State) : State :=
  if p.length ≠ 1 then s.finish op 0x0004 []
  else s.modCy (fun c => { c with keyOps := c.keyOps ++ [(op, 0x0B03, p)] })

/-- CY_ZEROISE with KEY 0xA5C3. -/
def opCyZeroise (op : Nat) (p : List Byte) (s : State) : State :=
  if p.length ≠ 2 then s.finish op 0x0004 []
  else if field p 0 2 ≠ 0xA5C3 then s.finish op 0x0005 []
  else (s.zeroise 2 0).finish op 0 []

/-- The check value of a key. -/
def checkValue (key : List Byte) : List Byte := if key = [] then [0#8, 0#8, 0#8] else (aes key (List.replicate 16 0#8)).take 3

/-- CY_KEY_INFO. -/
def opCyKeyInfo (op : Nat) (p : List Byte) (s : State) : State :=
  let k := field p 0 1
  let d := (s.keySlot k).dir
  if p.length ≠ 1 then s.finish op 0x0004 []
  else if dirPaired d then s.finish op 0x0B04 []
  else s.finish op 0 (be 8 d ++ checkValue (s.keyOf k (dirActive d))
    ++ (if dirPrev d then checkValue (s.keyOf k (1 - dirActive d)) else [0#8, 0#8, 0#8]))

/-- CY_RUN: one local operation through the queue that RUN_Q names (R503, R513). -/
def opCyRun (op : Nat) (p : List Byte) (s : State) : State :=
  let o := field p 0 1
  let tagged := decide (o = 2 ∨ o = 5)
  let h := if tagged then 36 else 20
  let data := p.drop h
  let iv := bytesAt p 4 16
  let q := s.fld 0x0B0000 1 0
  if p.length < h + 1 ∨ h + 4000 < p.length then s.finish op 0x0004 []
  else if o < 1 ∨ 5 < o then s.finish op 0x0005 []
  else if field p 2 2 ≠ 0 then s.finish op 0x0005 []
  else if dirPaired (s.keySlot (field p 1 1)).dir then s.finish op 0x0B04 []
  else if !s.cqOn q then s.finish op 0x0010 []
  else if !s.canRun then s.finish op 0x0B09 []
  else match s.submit { id := 0, for_ := .run op, op := o, slot := field p 1 1, fixed := iv, data := data,
                        tag := if tagged then bytesAt p 20 16 else [], queue := q, since := s.now } with
    | (s1, 0) => s1
    | (s1, 1) => s1.finish op 0x0010 []
    | (s1, _) => s1.finish op 0x0015 []

/-- CY_STATUS. -/
def opCyStatus (op : Nat) (p : List Byte) (s : State) : State :=
  if p ≠ [] then s.finish op 0x0004 []
  else s.finish op 0 (be 4 s.cyStatusWord ++ be 4 (s.word 0x0B0008) ++ be 4 (s.word 0x0B000C) ++ be 4 (s.word 0x0B0010)
    ++ (List.range 4).flatMap (fun q => be 4 (s.cqFill q) ++ be 4 (s.word (0x0B0108 + 16 * q))))

end Sys2Proof.Machine
end

