-- ==== Sys2Proof/Machine/Fuses.lean ====
section
/-! DEFINITION. Electronic fuse channels (18): states, start conditions, inrush, trips, the damaged check, and the PW
opcodes. -/

namespace Sys2Proof.Machine

/-- The fuse channels changed by a function. -/
def State.modPw (s : State) (f : Fuses → Fuses) : State := { s with main := { s.main with pw := f s.main.pw } }

/-- A fuse channel. -/
def State.fuse (s : State) (c : Nat) : Fuse := at? s.main.pw.chans c {}

/-- A fuse channel changed by a function. -/
def State.modFuse (s : State) (c : Nat) (f : Fuse → Fuse) : State :=
  s.modPw (fun p => { p with chans := p.chans.modify c f })

/-- PW_Cc_CFG, the first of a channel's registers. -/
def pwReg (c : Nat) : Nat := 0x0E0100 + 32 * c

/-- CFG, WIN, LIM, RAMP or TIME of a channel as it is in force: a write in INRUSH waits for its end (R604). -/
def State.pwWord (s : State) (c i : Nat) : Nat :=
  match (s.fuse c).held with
  | some l => at? l i 0
  | none => s.word (pwReg c + 4 * i)

/-- The gate is on in INRUSH and ON (R587). -/
def FuseSt.gate (st : FuseSt) : Bool := st == .inrush || st == .on

/-- The code of a state (Table PW-1). -/
def FuseSt.code : FuseSt → Nat
  | .off => 0 | .wait => 1 | .inrush => 2 | .on => 3 | .backoff => 4 | .latched => 5 | .damaged => 6

/-- A channel is enabled: EN set, in step 9 or later, not shed (R607, Table PW-2). -/
def State.pwWanted (s : State) (c : Nat) : Bool :=
  s.main.out && s.bit (pwReg c) 31 && s.main.boot.local9
    && !(s.hearth.onReserve && s.bit 0x010064 (if c < 8 then 1 else 2))

/-- The output reads DMG_V or above. -/
def State.outHigh (s : State) (c : Nat) : Bool :=
  decide (100 * bits (s.pwWord c 0) 15 8 ≤ 32 * (s.fuse c).out)

/-- The bus lies between UV and OV inclusive. -/
def State.busIn (s : State) (c : Nat) : Bool :=
  let w := s.pwWord c 1
  decide (100 * bits w 26 18 ≤ 32 * s.main.pw.bus ∧ 32 * s.main.pw.bus ≤ 100 * bits w 17 9)

/-! ### Events (R597, R598) -/

/-- PW_EVENT, with its ash record for all kinds but SEATED and UNSEATED (R590, R598). -/
def State.pwEvent (s : State) (c kind : Nat) : State :=
  let f := s.fuse c
  let b := [byte c, byte kind, byte f.trips] ++ be 2 f.sense ++ be 2 f.out ++ be 2 s.main.pw.bus
  let s1 := s.modFuse c (fun f => { f with lastKind := kind })
  let s2 := if kind < 7 then s1.ash 0x0E 0x01 b else s1
  s2.notify 0x0E01 (s.bit (pwReg c) 30 && (kind == 0 || kind == 1 || kind == 2 || kind == 6)) b

/-- A state with the gate off is entered: the gate is discharged at once (Table PW-2). -/
def State.gateOff (s : State) (c : Nat) (st : FuseSt) : State :=
  s.modFuse c (fun f => { f with
    st := st
    offAt := s.now
    waitAt := if st = .wait then s.now else f.waitAt
    frozen := f.frozen + (match f.frozenAt with | some t => s.now - t | none => 0)
    frozenAt := none
    ocRun := 0
    uvSince := none
    held := none })

/-- A trip or an INRUSH_FAIL (R597): the count, its event, and BACKOFF or LATCHED. -/
def State.trip (s : State) (c kind : Nat) : State :=
  let retry := bits (s.pwWord c 4) 15 12
  let s1 := (s.modFuse c (fun f => { f with trips := f.trips + 1 })).count (pwReg c + 28) (31 - 8 * kind) (24 - 8 * kind)
  let s2 := s1.pwEvent c kind
  if (s1.fuse c).trips ≤ retry then s2.gateOff c .backoff else (s2.gateOff c .latched).pwEvent c 6

/-! ### Starting (R588 to R592) -/

/-- The start conditions of a card channel or a fixed channel, but for the output (R588, R589). -/
def State.startMet (s : State) (c : Nat) : Bool :=
  let f := s.fuse c
  let ins := bits (s.pwWord c 4) 31 24 * 10 * msT
  if c < 8 then f.seated && decide (max (max f.seatedAt s.main.boot.localAt) f.insFrom + ins ≤ s.now) && s.busIn c
  else match f.busOk with
    | some t => decide (max t f.waitAt + ins ≤ s.now)
    | none => false

/-- A waiting channel enters INRUSH where its conditions are met, its output is below DMG_V, and the chip is not in
Smoulder (R591, R592, R605). -/
def State.inrush (s : State) (c : Nat) : State :=
  if (s.fuse c).st = .wait ∧ s.startMet c ∧ !s.outHigh c ∧ s.hearth.ps ≠ .smoulder then
    s.modFuse c (fun f => { f with
      st := .inrush
      inrushAt := s.now
      startMv := 32 * f.out
      frozen := 0
      frozenAt := none
      dmgSince := none
      uvSince := none
      held := some ((List.range 5).map (fun i => s.word (pwReg c + 4 * i))) })
  else s

/-- The target voltage in mV of a channel in INRUSH (R592, R594). -/
def State.targetMv (s : State) (c : Nat) : Nat :=
  let f := s.fuse c
  f.startMv + 100 * bits (s.pwWord c 3) 31 24 * ((f.frozenAt.getD s.now) - f.inrushAt - f.frozen) / msT

/-! ### Samples (R585, R592, R596, R599, R601) -/

/-- A channel's part of PW_SAMPLE. A sample above FAST_MV is a fast trip, whatever else it shows (R595, R604). -/
def State.pwSampleChan (s : State) (c : Nat) : State :=
  let ok := s.busIn c
  let dmg := s.outHigh c
  let f := s.fuse c
  let lim := s.pwWord c 2
  let overrun := decide (bits lim 23 16 * 10 ≤ f.sense * 2)
  let run := if f.st = .on ∧ overrun then f.ocRun + 1 else 0
  let s1 := s.modFuse c (fun f => { f with
    busOk := if ok then some (f.busOk.getD s.now) else none
    ocRun := run
    dmgSince := if dmg && !f.st.gate && f.st != .damaged then some (f.dmgSince.getD s.now) else none })
  if f.st.gate ∧ bits lim 31 24 * 10 < f.sense * 2 then s1.trip c 0
  else if f.st = .on ∧ 10 * bits lim 7 0 ≤ run then s1.trip c 1
  else if f.st.gate && decide (100 * bits (s.pwWord c 1) 17 9 < 32 * s.main.pw.bus) then (s1.pwEvent c 4).gateOff c .wait
  else if f.st = .inrush ∧ f.frozenAt.isNone ∧ 32 * s.main.pw.bus ≤ 32 * f.out + 100 * bits (s.pwWord c 3) 15 8
      ∧ f.sense * 2 < bits lim 15 8 * 10 then
    s1.modFuse c (fun f => { f with st := .on, onAt := s.now, held := none })
  else s1

/-- What PW_SAMPLE does. -/
def State.pwSample (s : State) (bus : Nat) (sense out : List Nat) : State :=
  if !s.main.out then s
  else
    let s1 := s.modPw (fun p => { bus := min 1023 bus, chans := p.chans.mapIdx (fun i f =>
      { f with sense := min 1023 (at? sense i 0), out := min 1023 (at? out i 0), sampledAt := some s.now }) })
    (List.range 12).foldl State.pwSampleChan s1

/-! ### Comparators, seating and timers (R590, R593 to R597, R599, R601) -/

/-- What FAST_TRIP does. -/
def State.fastTrip (s : State) (c : Nat) : State := if (s.fuse c).st.gate then s.trip c 0 else s

/-- What SAG_FREEZE does: the hold comparator's level changes (R594, R601). -/
def State.sagFreeze (s : State) (c : Nat) (low : Bool) : State :=
  let f := s.fuse c
  match f.st, low, f.frozenAt with
  | .inrush, true, none => s.modFuse c (fun f => { f with frozenAt := some s.now })
  | .inrush, false, some t => s.modFuse c (fun f => { f with frozenAt := none, frozen := f.frozen + (s.now - t) })
  | .on, true, _ => s.modFuse c (fun f => { f with uvSince := some (f.uvSince.getD s.now) })
  | .on, false, _ => s.modFuse c (fun f => { f with uvSince := none })
  | _, _, _ => s

/-- What SAG_TIMEOUT does: a freeze of 5 ms aborts the inrush (R594); one that reaches 5 ms in the sample in which the bus
recovers is a recovery (R604). -/
def State.sagTimeout (s : State) (c : Nat) : State :=
  match (s.fuse c).st, (s.fuse c).frozenAt with
  | .inrush, some t =>
    if s.now < t + 5 * msT then s
    else if (s.fuse c).sampledAt = some s.now ∧ 100 * bits (s.pwWord c 1) 8 0 ≤ 32 * s.main.pw.bus then s.sagFreeze c false
    else ((s.count (pwReg c + 28) 7 0).pwEvent c 3).gateOff c .backoff
  | _, _ => s

/-- What UV_OFF does (R601). -/
def State.uvOff (s : State) (c : Nat) : State :=
  match (s.fuse c).st, (s.fuse c).uvSince with
  | .on, some t =>
    if t + bits (s.pwWord c 4) 7 0 * msT ≤ s.now then (s.pwEvent c 5).gateOff c .wait else s
  | _, _ => s

/-- What SEAT_CHANGE does for a card channel whose pins SEATc_A and SEATc_B have these levels: it is seated while
both are low (R41, R590). -/
def State.seatChange (s : State) (c : Nat) (a b : Bool) : State :=
  let f := s.fuse c
  let seated := !a && !b
  if 8 ≤ c ∨ !s.main.out ∨ f.seated = seated then s
  else if seated then (s.modFuse c (fun f => { f with seated := true, seatedAt := s.now })).pwEvent c 7
  else
    let s1 := s.modFuse c (fun f => { f with seated := false, trips := 0 })
    let s2 := if f.st = .off ∨ f.st = .damaged then s1 else s1.gateOff c .wait
    s2.pwEvent c 8

/-- What INRUSH_TIMEOUT does: the budget, extended by the frozen time, ends (R593). -/
def State.inrushTimeout (s : State) (c : Nat) : State :=
  let f := s.fuse c
  if f.st = .inrush ∧ f.frozenAt = none ∧ f.inrushAt + f.frozen + bits (s.pwWord c 3) 23 16 * msT ≤ s.now then s.trip c 2 else s

/-- What BACKOFF_EXPIRY does. -/
def State.backoffExpiry (s : State) (c : Nat) : State :=
  let f := s.fuse c
  if f.st = .backoff ∧ f.offAt + bits (s.pwWord c 4) 23 16 * 10 * msT ≤ s.now then s.gateOff c .wait else s

/-- What ON_STABLE does (R597). -/
def State.onStable (s : State) (c : Nat) : State :=
  let f := s.fuse c
  if f.st = .on ∧ f.onAt + secT ≤ s.now then s.modFuse c (fun f => { f with trips := 0 }) else s

/-- PW_FET, with its ash record (R599). -/
def State.pwFet (s : State) (c : Nat) : State :=
  let b := [byte c] ++ be 2 (s.fuse c).out ++ be 2 s.main.pw.bus
  (s.ash 0x0E 0x02 b).notify 0x0E02 true b

/-- DAMAGED as the Hearth retains it (R600). -/
def State.setDamaged (s : State) (c : Nat) (v : Bool) : State :=
  { s with hearth := { s.hearth with damaged := s.hearth.damaged.set c v } }

/-- What DAMAGED_TIMEOUT does (R599). -/
def State.damagedTimeout (s : State) (c : Nat) : State :=
  let f := s.fuse c
  match f.dmgSince with
  | some t =>
    if !f.st.gate ∧ f.st ≠ .damaged ∧ t + bits (s.pwWord c 0) 7 0 * 10 * msT ≤ s.now then
      ((s.modFuse c (fun f => { f with st := .damaged, dmgSince := none })).setDamaged c true).pwFet c
    else s
  | none => s

/-! ### Enabling, disabling and the start (R600, R602, R607, R610) -/

/-- A channel follows EN, the shed and step 9 (Table PW-2). -/
def State.pwFollowChan (s : State) (c : Nat) : State :=
  let f := s.fuse c
  if f.st = .damaged then s
  else if f.st = .off then
    (if s.pwWanted c then
      (s.modFuse c (fun f => { f with insFrom := if f.shed then s.now else f.insFrom, shed := false })).gateOff c .wait
    else s)
  else if !s.pwWanted c then
    (s.modFuse c (fun f => { f with trips := 0, shed := s.bit (pwReg c) 31 })).gateOff c .off
  else s

/-- The fuse channels follow their registers. -/
def State.pwFollow (s : State) : State := if s.main.out then (List.range 12).foldl State.pwFollowChan s else s

/-- The channels that the Hearth retains as DAMAGED start there (R600). -/
def State.fuseStart (s : State) : State :=
  (List.range 12).foldl (fun x c =>
    if at? s.hearth.damaged c false then (x.modFuse c (fun f => { f with st := .damaged })).pwFet c else x) s

/-! ### Registers and opcodes (R611, R612) -/

/-- Whether the thresholds of a channel's words fit together (R612). -/
def pwLegal (win lim : Nat) : Bool :=
  decide (bits win 8 0 < bits win 26 18 ∧ bits win 26 18 < bits win 17 9 ∧ bits lim 23 16 < bits lim 31 24
    ∧ bits lim 15 8 < bits lim 31 24)

/-- PW_STATUS as it reads. -/
def State.pwStatusWord (s : State) : Nat :=
  ((List.range 12).map (fun c => b2n ((s.fuse c).st == .on) * 2 ^ (16 + c)
    + b2n ((s.fuse c).st == .latched || (s.fuse c).st == .damaged) * 2 ^ c)).sum

/-- PW_Cc_STAT as it reads. -/
def State.pwStatWord (s : State) (c : Nat) : Nat :=
  let f := s.fuse c
  let frozen := f.frozen + (match f.frozenAt with | some t => s.now - t | none => 0)
  f.st.code * 2 ^ 28 + b2n f.seated * 2 ^ 27 + b2n (s.busIn c) * 2 ^ 26 + b2n f.frozenAt.isSome * 2 ^ 25
    + sat 15 f.trips * 2 ^ 20 + f.lastKind * 65536 + sat 0xFFFF (frozen / (10 * usT))

/-- PW_Cc_MEAS as it reads. -/
def State.pwMeasWord (s : State) (c : Nat) : Nat := (s.fuse c).out * 65536 + (s.fuse c).sense

/-- PW_STATUS. -/
def opPwStatus (op : Nat) (p : List Byte) (s : State) : State :=
  if p ≠ [] then s.finish op 0x0004 []
  else s.finish op 0 (be 4 s.main.pw.bus ++ be 4 s.pwStatusWord ++ (List.range 12).flatMap (fun c =>
    be 4 (s.pwStatWord c) ++ be 4 (s.pwMeasWord c) ++ be 4 (s.word (pwReg c + 28))))

/-- PW_CLEAR: leaves LATCHED or DAMAGED (R600, R604, Table PW-2). -/
def opPwClear (op : Nat) (p : List Byte) (s : State) : State :=
  let c := field p 0 1
  if p.length ≠ 1 then s.finish op 0x0004 []
  else if 11 < c then s.finish op 0x0005 []
  else match (s.fuse c).st with
    | .latched => (((s.modFuse c (fun f => { f with trips := 0 })).gateOff c .wait).inrush c).finish op 0 []
    | .damaged =>
      if s.outHigh c then s.finish op 0x0E00 []
      else
        let s1 := ((s.setDamaged c false).modFuse c (fun f => { f with trips := 0 })).gateOff c
          (if s.pwWanted c then .wait else .off)
        s1.finish op 0 []
    | _ => s.finish op 0x0E01 []

end Sys2Proof.Machine
end

