-- ==== Sys2Proof/Machine/Images.lean ====
section
/-! DEFINITION. Boot records and firmware images in the flash (04). -/

namespace Sys2Proof.Machine

/-- Whether 16 bytes are a valid boot record (R133, Table SU-4). -/
def bootOk (b : List Byte) : Bool :=
  field b 0 4 == 0x43564252 && decide (field b 8 1 ≤ 1) && decide (field b 9 1 ≤ 1)
    && field b 12 4 == crc32 (b.take 12)

/-- The copy of the boot record that is taken, 0 or 1 (R133). -/
def State.bootCopy (s : State) : Option Nat :=
  let a := s.flashRead 0 16
  let b := s.flashRead 0x1000 16
  match bootOk a, bootOk b with
  | true, true => if 0 < sdiff 32 (field b 4 4) (field a 4 4) then some 1 else some 0
  | true, false => some 0
  | false, true => some 1
  | false, false => none

/-- The bytes of the boot record taken. -/
def State.bootTaken (s : State) : Option (List Byte) := s.bootCopy.map (fun c => s.flashRead (0x1000 * c) 16)

/-- The copy that a new boot record is written to: the one not taken (R133); where neither is valid the spec names none. -/
def State.bootWriteCopy (s : State) : Nat :=
  match s.bootCopy with | some c => 1 - c | none => Config.firstRecord.1 % 2

/-- The SEQ of a new boot record: one greater than that of the copy taken (R133); where neither is valid the spec names
none. -/
def State.bootNextSeq (s : State) : Nat :=
  match s.bootTaken with | some b => (field b 4 4 + 1) % 2 ^ 32 | none => Config.firstRecord.2 % 2 ^ 32

/-- PREFERRED and STATE in force: slot A and COMMITTED where neither copy is valid (R133). -/
structure BootChoice where
  preferred : Nat
  state : Nat
  deriving DecidableEq, Repr

/-- The boot record in force. -/
def State.bootRecord (s : State) : BootChoice :=
  match s.bootTaken with
  | some b => ⟨field b 8 1, field b 9 1⟩
  | none => ⟨0, 0⟩

/-- The header of an image slot (Table SU-5). -/
def State.imgHeader (s : State) (i : Nat) : List Byte := s.flashRead (0x10000 + i * 0x100000) 256

/-- Whether a header's fixed parts are valid: MAGIC, HDR_VERSION, reserved bytes, LENGTH, SECURITY
(R134, R135). -/
def imgHeaderOk (h : List Byte) : Bool :=
  field h 0 4 == 0x43564657 && field h 4 2 == 1 && field h 6 2 == 0 && field h 20 12 == 0 && field h 128 128 == 0
    && decide (1 ≤ field h 16 4) && decide (field h 16 4 ≤ 655360) && decide (field h 12 4 ≤ 63)

/-- The digest of an image as loaded (R134). -/
def State.imgDigest (s : State) (i : Nat) : List Byte :=
  let h := s.imgHeader i
  sha256 (h.take 32 ++ s.flashRead (0x10000 + i * 0x100000 + 256) (field h 16 4))

/-- The full check of R135 with the signature: 0, or the status of Table SU-9. -/
def State.imgCheck (s : State) (i : Nat) : Nat :=
  let h := s.imgHeader i
  if !imgHeaderOk h then 0x0100
  else if field h 12 4 < s.minSec then 0x0103
  else if s.imgDigest i ≠ bytesAt h 32 32 then 0x0101
  else if !ecdsaVerify Config.pergidomKey (bytesAt h 32 32) (bytesAt h 64 32) (bytesAt h 96 32) then 0x0102
  else 0

/-- The verified digest that the Hearth holds for a slot. -/
def State.hearthDigest (s : State) (i : Nat) : Option (List Byte) :=
  if i = 0 then s.hearth.start.digestA else s.hearth.start.digestB

/-- The Hearth holds a verified digest for a slot (R135). -/
def State.setDigest (s : State) (i : Nat) (d : Option (List Byte)) : State :=
  { s with hearth := { s.hearth with start :=
      if i = 0 then { s.hearth.start with digestA := d } else { s.hearth.start with digestB := d } } }

/-- A slot's digest recorded after a full signature check (R135). -/
def State.recordDigest (s : State) (i : Nat) (d : List Byte) : State := s.setDigest i (some d)

/-- Whether an image is acceptable (R135). -/
def State.slotAcceptable (s : State) (i : Nat) : Bool :=
  let h := s.imgHeader i
  imgHeaderOk h && decide (s.minSec ≤ field h 12 4) && s.imgDigest i == bytesAt h 32 32
    && (s.hearthDigest i == some (bytesAt h 32 32)
      || ecdsaVerify Config.pergidomKey (bytesAt h 32 32) (bytesAt h 64 32) (bytesAt h 96 32))

/-- CMD_STRAPS (Table BA-9). -/
def State.strapsWord (s : State) : Nat :=
  let b := s.main.boot
  let bound := match s.main.cmd.bound with | .tree => 0 | .spi => 1 | .uart => 2
  bound * 256 + b2n b.mselInvalid * 128 + b2n b.mselChanged * 64 + b.msel * 16 + b.member * 2 + b2n b.treeEn

end Sys2Proof.Machine
end

