-- ==== Sys2Proof/Machine/Members.lean ====
section
/-! DEFINITION. What a member knows of its stack (20): ranking of candidates, ANNOUNCE, messages
taken from the receive buffers, quarantine, the present map, and the SK registers. -/

namespace Sys2Proof.Machine

/-- The stack logic changed by a function. -/
def State.modSk (s : State) (f : Stack → Stack) : State := { s with main := { s.main with sk := f s.main.sk } }

/-- What is held of a member. -/
def State.peer (s : State) (m : Nat) : Peer := at? s.main.sk.peers m {}

/-- What is held of a member changed by a function. -/
def State.modPeer (s : State) (m : Nat) (f : Peer → Peer) : State :=
  s.modSk (fun k => { k with peers := k.peers.modify m f })

/-- LOST_MS, TAKEOVER_MS and ELECT_MS of SK_CFG in ticks. -/
def State.lostT (s : State) : Nat := s.fld 0x100004 15 8 * 10 * msT
/-- TAKEOVER_MS in ticks. -/
def State.takeoverT (s : State) : Nat := s.fld 0x100004 7 0 * 10 * msT
/-- ELECT_MS in ticks. -/
def State.electT (s : State) : Nat := s.fld 0x100004 23 16 * msT
/-- EXPECT, the members that the stack should have. -/
def State.expect (s : State) : Nat := s.fld 0x100004 31 28

/-! ### Routes and ranking (R644, R647) -/

/-- Whether a member is reachable; a member reaches itself. -/
def State.reach (s : State) (m : Nat) : Bool := decide (s.hops m < 8)

/-- How many members are reachable, counting this one. -/
def State.reachCount (s : State) : Nat := ((List.range 8).filter s.reach).length

/-- Whether a member has a tree lane LOCKED, by its latest ANNOUNCE or MEMBER_STATE. -/
def State.treeLocked (s : State) (m : Nat) : Bool :=
  if m = s.self then s.tdLocked 0 || s.tdLocked 1 else bitOf (s.peer m).stateFlags 0

/-- Whether candidate a ranks above candidate b. -/
def State.outranks (s : State) (a b : Nat) : Bool :=
  if s.treeLocked a == s.treeLocked b then decide (a < b) else s.treeLocked a

/-- The top-ranked reachable candidate. -/
def State.topCandidate (s : State) : Option Nat :=
  let l := (List.range 8).filter (fun m => s.reach m && s.candidate m)
  (l.find? s.treeLocked).or l.head?

/-- The later of two TERMs (R648). -/
def laterTerm (a b : Nat) : Nat := if sdiff 16 a b < 0 then b else a

/-- The greatest TERM that this member holds or that a member in a list has announced. -/
def State.maxTerm (s : State) (l : List Nat) : Nat :=
  (l.filter (fun m => m != s.self && (s.peer m).announced)).foldl (fun t m => laterTerm t (s.peer m).term) s.main.sk.term

/-- TERM set, and kept in the Hearth (R648). -/
def State.setTerm (s : State) (t : Nat) : State :=
  let s1 := s.modSk (fun k => { k with term := t })
  { s1 with hearth := { s1.hearth with start := { s1.hearth.start with leadTerm := t } } }

/-- The neighbour that gives this member its time; 0 where it has none (R652). -/
def State.timeParent (s : State) : Nat :=
  if s.main.sk.isLead || !s.main.sk.leadValid then 0
  else match s.route s.main.sk.lead with
    | some k => (s.link k).partnerMember
    | none => 0

/-! ### Maps -/

/-- The map of the members that satisfy a condition. -/
def mapOf (p : Nat → Bool) : Nat := ((List.range 8).map (fun m => b2n (p m) * 2 ^ m)).sum

/-- The present map: the lead's own, or as its STACK_STATE gave it (R649). -/
def State.presentMap (s : State) : Nat := mapOf (fun m => (s.peer m).present)

/-- How many members are present. -/
def State.presentCount (s : State) : Nat := ((List.range 8).filter (fun m => (s.peer m).present)).length

/-- The quarantined map. -/
def State.quarMap (s : State) : Nat := mapOf (fun m => (s.peer m).quar != 0)

/-- The reachable map. -/
def State.reachMap (s : State) : Nat := mapOf s.reach

/-! ### ANNOUNCE (R647, Table SK-3) -/

/-- The content of ANNOUNCE. -/
def State.announceBody (s : State) : List Byte :=
  let k := s.main.sk
  [byte (b2n s.main.boot.treeEn + b2n (s.treeLocked s.self) * 2 + b2n k.isLead * 4 + (s.peer s.self).quar * 8)]
    ++ be 4 s.main.boot.fw ++ be 4 k.cfgSeq ++ padTo 32 k.cfgHash ++ be 2 s.hearth.start.leadTerm
    ++ be 8 ownSerial

/-- A message sent to every other reachable member. -/
def State.sendAll (s : State) (type : Nat) (body : List Byte) : State :=
  (List.range 8).foldl (fun x m => if m ≠ x.self ∧ x.reach m then x.sendMsg 0 m type 0 body else x) s

/-- ANNOUNCE sent to every reachable member. -/
def State.announceAll (s : State) : State :=
  (s.sendAll 0x01 s.announceBody).modSk (fun k => { k with announceAt := s.now, lastAnnounce := s.announceBody })

/-- STACK_STATE sent to every reachable member (R649, Table SK-2). -/
def State.sendStackState (s : State) : State :=
  (s.sendAll 0x02 ([byte s.main.sk.lead, byte s.presentMap, byte s.quarMap, byte s.main.sk.order] ++ be 4 0)).modSk
    (fun k => { k with stateAt := s.now })

/-- MEMBER_STATE sent to the lead: the next known event in µs, and the blockers (R171). -/
def State.sendMemberState (s : State) (next blockers : Nat) : State :=
  let k := s.main.sk
  (if k.leadValid && k.leadLost.isNone then
    s.sendMsg 0 k.lead 0x03 0 (be 4 next ++ be 2 blockers ++ [byte s.reachMap,
      byte (b2n (s.treeLocked s.self) + b2n k.timeLoose * 2 + b2n k.suspended * 4)])
  else s).modSk (fun k => { k with stateAt := s.now })

/-! ### Messages that wait for this member (R645, R648) -/

/-- A message taken from a receive buffer: the link it came on, its bytes, and its timestamp point. -/
structure Taken where
  link : Nat
  cls : Nat
  src : Nat
  term : Nat
  aux : Nat
  body : List Byte
  at_ : Nat
  deriving DecidableEq, Repr

/-- A waiting message as taken. -/
def Waiting.taken (w : Waiting) (k cls : Nat) : Taken :=
  ⟨k, cls, bits (field w.msg.bytes 1 1) 2 0, field w.msg.bytes 2 2, field w.msg.bytes 4 4, w.msg.bytes.drop 8, w.at_⟩

/-- The first message of a type that waits for this member, by link and class, with its place. -/
def State.findMsg (s : State) (type : Nat) : Option (Nat × Nat × Waiting) :=
  (([0, 1] : List Nat).flatMap (fun k => (List.range 4).flatMap (fun c =>
    ((at? (s.link k).classes c {}).wait.filter (fun w => w.msg.dest == s.self && field w.msg.bytes 0 1 == type)).map
      (fun w => (k, c, w))))).head?

/-- The first message of a type taken: it leaves the receive buffer. One of a smaller TERM is ignored, unless
it is ANNOUNCE, or ROUTE, which a member needs before it follows a lead (R648). -/
def State.takeMsg (s : State) (type : Nat) : Option Taken × State :=
  match s.findMsg type with
  | none => (none, s)
  | some (k, c, w) =>
    let t := w.taken k c
    let s1 := s.freeWaiting k c w
    if type ≠ 0x01 ∧ type ≠ 0x04 ∧ sdiff 16 t.term s.main.sk.term < 0 then (none, s1) else (some t, s1)

/-! ### Quarantine (R650, R657 to R659, Table SK-5) -/

/-- The major version of a firmware version word. -/
def major (fw : Nat) : Nat := fw / 2 ^ 24

/-- The cause for which a member is quarantined, as this member can tell it. -/
def State.causeOf (s : State) (m : Nat) : Nat :=
  let k := s.main.sk
  let p := s.peer m
  let l := s.peer k.lead
  if p.duplicateAt.isSome then 3
  else if m = s.self then
    if !k.isLead && k.leadValid && k.lead != m && l.announced && major l.fw != major s.main.boot.fw then 1
    else if k.cfgBad then 2
    else if p.command then 4 else 0
  else if k.isLead then
    if p.announced && major p.fw != major s.main.boot.fw then 1
    else if p.announced && bits p.flags 5 3 == 2 then 2
    else if p.command then 4 else 0
  else 0

/-- SK_QUARANTINE, an alarm on entry. -/
def State.quarNotice (s : State) (m cause : Nat) (entered : Bool) (status : Nat) : State :=
  s.notify 0x1002 entered ([byte m, byte cause, byte (b2n entered)] ++ be 2 status)

/-- A member's quarantine brought to its cause: the lead queues each entry and release; a quarantined member's
transmitters go dark. -/
def State.judge (s : State) (m : Nat) : State :=
  let old := (s.peer m).quar
  let new := s.causeOf m
  if new = old then s
  else
    let s1 := s.modPeer m (fun p => { p with quar := new })
    let s2 := if s.main.sk.isLead then
        (if new = 0 then s1.quarNotice m old false 0 else s1.quarNotice m new true 0) else s1
    if m = s.self ∧ new ≠ 0 then s2.dropBurst else s2

/-- Every member judged. -/
def State.judgeAll (s : State) : State := (List.range 8).foldl State.judge s

/-! ### The present map of the lead (R649) -/

/-- The operations that wait for a member end NO_MEMBER for it (R90). -/
def State.memberLeft (s : State) (m : Nat) : State :=
  (s.main.cmd.ops.filter (fun e => !e.shadow && e.await.contains m)).foldl
    (fun x e => x.memberResult e.id ⟨m, 0x000A, []⟩) s

/-- A member joins or leaves the present map. One that joins is given identity and allocations and, where it is a
standby lead, the tree record (R343, R349). -/
def State.setPresent (s : State) (m : Nat) (v : Bool) : State :=
  let old := s.presentMap
  if (s.peer m).present = v then s
  else
    let s1 := s.modPeer m (fun p => { p with present := v, pushed := if v then p.pushed else [],
                                             imageSent := v && p.imageSent })
    let s2 := s1.notify 0x1001 false [byte s1.presentMap, byte old]
    if v then
      let s3 := s2.pushTerm
      if s3.candidate m && s3.main.tm.recValid then s3.sendMsg 0 m 0x0D 0 s3.hearth.treeRec else s3
    else s2.memberLeft m

/-! ### Registers (R668) -/

/-- SK_STATUS as it reads. -/
def State.skStatusWord (s : State) : Nat :=
  let k := s.main.sk
  k.term * 65536 + b2n k.leadValid * 2 ^ 15 + k.lead * 2 ^ 12 + b2n k.isLead * 2 ^ 11 + (s.peer s.self).quar * 256
    + s.presentMap

/-- SK_TIME as it reads. -/
def State.skTimeWord (s : State) : Nat :=
  let k := s.main.sk
  s.fld 0x100008 31 22 * 2 ^ 22 + s.timeParent * 2 ^ 19 + b2n k.timeLoose * 2 ^ 18 + b2n k.suspended * 2 ^ 17
    + sat 65535 (k.bound / 16)

/-- SK_MEMn as it reads. -/
def State.skMemWord (s : State) (m : Nat) : Nat :=
  let p := s.peer m
  let sk (i : Nat) : Nat := b2n (at? p.skewed i false)
  s.hops m * 2 ^ 28 + (if m = s.self then 0 else (s.route m).getD 0) * 2 ^ 27 + p.quar * 2 ^ 24
    + b2n (s.candidate m) * 2 ^ 23 + b2n (p.skewed.any id) * 2 ^ 22
    + (sk 0 + sk 1 * 2 + sk 2 * 4) * 2 ^ 19 + (if m = s.self then s.main.boot.fw else p.fw) / 65536

/-- SK_STATUS: the registers of the block. -/
def opSkStatus (op : Nat) (p : List Byte) (s : State) : State :=
  if p ≠ [] then s.finish op 0x0004 []
  else s.finish op 0 (be 4 s.skStatusWord ++ be 4 (s.word 0x100004) ++ be 4 s.skTimeWord
    ++ (List.range 8).flatMap (fun m => be 4 (s.skMemWord m)))

end Sys2Proof.Machine
end

