-- ==== Sys2Proof/Machine/Packets.lean ====
section
/-! DEFINITION. The transports of the command port (03): receiving packets, the checks of R85, the
operation table's acceptance, outbound packets leaving, alarm repetition and time-outs. -/

namespace Sys2Proof.Machine

/-- The header of a packet (Table CMD-2). -/
structure Hdr where
  kind : Nat
  format : Nat
  res2 : Nat
  member : Nat
  flags : Nat
  opcode : Nat
  tag : Nat
  length : Nat
  status : Nat
  part : Nat
  deriving DecidableEq, Repr

/-- The header that a packet begins with. -/
def hdrOf (b : List Byte) : Hdr :=
  let b2 := field b 2 1
  { kind := bits b2 7 6, format := bits b2 5 4, res2 := bits b2 3 3, member := bits b2 2 0, flags := field b 3 1,
    opcode := field b 4 2, tag := field b 6 2, length := field b 8 2, status := field b 10 2, part := field b 12 2 }

/-- Whether HCRC holds (R83). -/
def hcrcOk (b : List Byte) : Bool := field b 14 2 == crc16 (b.take 14)

/-- Whether a packet begins with SYNC. -/
def syncOk (b : List Byte) : Bool := field b 0 2 == 0xC716

/-- The length in bytes of a packet, as its LENGTH sets it; a LENGTH over 4,096 ends the packet at
its 16th byte (R77, R85 check 6). -/
def Hdr.extent (h : Hdr) : Nat :=
  if 4096 < h.length ∨ h.length = 0 then 16 else 16 + h.length + 4

/-- Check 5 of R85: FORMAT, the reserved bits, and the fields that a command leaves clear. -/
def Hdr.formatOk (h : Hdr) : Bool :=
  h.format == 1 && h.res2 == 0 && h.flags % 64 == 0 && decide (h.tag < 0x8000) && h.status == 0 && h.part == 0

/-- The intake that a packet part-received on the UART holds, in units of 16 bytes: its extent once its header is
there, the bytes received before that (R116). -/
def Cmd.partUnits (c : Cmd) : Nat :=
  if c.uart.length < 2 ∨ !syncOk c.uart then 0
  else if 16 ≤ c.uart.length ∧ hcrcOk c.uart then ((hdrOf c.uart).extent + 15) / 16
  else (c.uart.length + 15) / 16

/-- The intake in use, in units of 16 bytes (R116). -/
def State.intake (s : State) : Nat := (s.main.cmd.ops.map (·.space)).sum + s.main.cmd.partUnits

/-- The intake holds 256 KiB (R116). -/
def intakeLimit : Nat := 16384

/-- A command that passed R85 meets the operation table (R86). -/
def State.accept (s : State) (h : Hdr) (params : List Byte) (space : Nat) : State :=
  if (s.opOfTag h.tag).isSome then s.refuse h.opcode h.tag 0x0001 .refusal
  else s.modCmd (fun c => { c with
    nextOp := c.nextOp + 1
    ops := c.ops ++ [{ id := c.nextOp, tag := h.tag, opcode := h.opcode, member := h.member, all := bitOf h.flags 7,
                       ordered := bitOf h.flags 6, params := params, accepted := s.now, lastReply := s.now,
                       space := space }] })

/-- A packet, or a fragment with all its header bytes, that begins with SYNC: checks 2 to 7 of R85
in order, with NOT_LEAD (R73) and NO_ROOM (R116) after check 3. `whole` says that every byte its
LENGTH announces has arrived. -/
def State.packet (s : State) (b : List Byte) (whole distrust : Bool) : State :=
  let h := hdrOf b
  let units := (h.extent + 15) / 16
  let full := decide (intakeLimit < s.intake + units)
  let s0 := if full then s.count 0x000010 15 8 else s
  if !hcrcOk b then s0.count 0x000010 31 24
  else if h.kind ≠ 0 then s0.count 0x000010 7 4
  else if !s.leads then s0.refuse h.opcode h.tag 0x000B .refusal
  else if full then
    if s.main.cmd.pool < 64 then (s0.modCmd (fun c => { c with pool := c.pool + 1 })).refuse h.opcode h.tag 0x0009 .pool
    else s0
  else if distrust then s.refuse h.opcode h.tag 0x0013 .refusal
  else if !h.formatOk then s.refuse h.opcode h.tag 0x0002 .refusal
  else if 4096 < h.length ∨ !whole then s.refuse h.opcode h.tag 0x0004 .refusal
  else
    let params := bytesAt b 16 h.length
    if h.length ≠ 0 ∧ field b (16 + h.length) 4 ≠ crc32 params then s.refuse h.opcode h.tag 0x0008 .refusal
    else s.accept h params units

/-- One packet delimited from outside, by SPI_CS_N or by its SDU (R74, R77). -/
def State.delimited (s : State) (b : List Byte) (distrust : Bool) : State :=
  if b.length < 2 ∨ !syncOk b then s
  else if b.length < 16 then s.count 0x000010 23 16
  else
    let h := hdrOf b
    if b.length < h.extent then (s.count 0x000010 23 16).packet b false distrust
    else
      let s1 := if h.length ≤ 4096 ∧ h.extent < b.length then s.count 0x000010 3 0 else s
      s1.packet b true distrust

/-- The UART receiver's hunt through the bytes it holds; `k` bounds its moves (R80). -/
def State.hunt : Nat → State → State
  | 0, s => s
  | k + 1, s =>
    let b := s.main.cmd.uart
    let drop (n : Nat) (x : State) : State := x.modCmd (fun c => { c with uart := c.uart.drop n })
    match b with
    | [] => s
    | b0 :: t =>
      if b0 ≠ sync0 then State.hunt k (drop 1 s)
      else match t with
        | [] => s
        | b1 :: _ =>
          if b1 ≠ sync1 then State.hunt k (drop 1 s)
          else if b.length < 16 then s
          else if !hcrcOk b then State.hunt k (drop 1 (s.count 0x000010 31 24))
          else
            let n := (hdrOf b).extent
            if b.length < n then s
            else State.hunt k ((drop n s).packet (b.take n) true false)

/-- A packet leaves its transport: a pool place is freed, an alarm's repetition timing starts
(R94, R101, R116). -/
def State.packetLeft (s : State) (k : OutKind) : State :=
  match k with
  | .pool => (s.modCmd (fun c => { c with pool := c.pool - 1 })).pumpOut
  | .notice num => (s.modCmd (fun c => { c with notices := c.notices.map (fun n =>
      if n.num = num then { n with copyOut := false, leftAt := some s.now } else n) })).pumpOut
  | _ => s.pumpOut

/-- What an SPI WRITE does (R77). -/
def State.spiWrite (s : State) (b : List Byte) : State :=
  if s.main.out && s.main.cmd.bound == .spi then (s.wake 0x06).delimited b false else s

/-- What an SPI READ does: the packet is removed only if its last byte has been clocked out (R78). -/
def State.spiRead (s : State) (clocked : Nat) : State :=
  if s.main.out && s.main.cmd.bound == .spi then
    match s.main.cmd.out with
    | [] => s.modCmd (fun c => { c with miso := List.replicate clocked 0#8 })
    | p :: t =>
      let s1 := s.modCmd (fun c => { c with miso := bytesAt p.bytes 0 clocked })
      if p.bytes.length ≤ clocked then (s1.modCmd (fun c => { c with out := t })).packetLeft p.kind else s1
  else s

/-- What an SPI STATUS returns: OUT_LEN and IN_FREE (Table CMD-1). -/
def State.spiStatus (s : State) : State :=
  if s.main.out && s.main.cmd.bound == .spi then
    let outLen := match s.main.cmd.out with | p :: _ => p.bytes.length | [] => 0
    s.modCmd (fun c => { c with miso := be 2 outLen ++ be 2 (intakeLimit - s.intake) })
  else s

/-- What an SDU of port 0x001 does (R74). -/
def State.mgmtSdu (s : State) (b : List Byte) (distrust : Bool) : State :=
  if s.main.out && s.main.cmd.bound == .tree then s.delimited b distrust else s

/-- The packet, or the single SYNC byte, that the UART receiver holds is abandoned where more than 1 ms has passed
between its last byte and `t` (R81). -/
def State.uartAbandon (s : State) (t : Nat) : State :=
  if s.main.cmd.uart = [] ∨ t ≤ s.main.cmd.uartAt + msT then s
  else
    let s1 := s.modCmd (fun c => { c with uart := [] })
    if 2 ≤ s.main.cmd.uart.length ∧ syncOk s.main.cmd.uart then s1.count 0x000010 23 16 else s1

/-- What bytes on UART_RXD do, the last of them complete now, the first begun a character time of 10 bits at 921,600
baud before it for each (R80, R81). -/
def State.uartBytes (s : State) (b : List Byte) : State :=
  if s.main.out && s.main.cmd.bound == .uart && b != [] then
    let s1 := ((s.wake 0x06).uartAbandon (s.now - b.length * 10 * secT / 921600)).modCmd (fun c =>
      { c with uart := c.uart ++ b, uartAt := s.now })
    s1.hunt s1.main.cmd.uart.length
  else s

/-- A gap on UART_RXD has lasted until now (R81). -/
def State.uartGap (s : State) : State :=
  if s.main.out && s.main.cmd.bound == .uart then s.uartAbandon s.now else s

/-- The oldest packet on its way out leaves the UART, or, with the head end as master, the burst with
its last unit has been sent (R94). -/
def State.leave (s : State) : State :=
  match s.main.cmd.bound with
  | .uart => match s.main.cmd.out with
    | p :: t => (s.modCmd (fun c => { c with out := t })).packetLeft p.kind
    | [] => s
  | .tree => match s.main.up.leaving with
    | k :: t => ({ s with main := { s.main with up := { s.main.up with leaving := t } } }).packetLeft k
    | [] => s
  | .spi => s

/-- 1.024 s in ticks (R101). -/
def repeatT : Nat := 327680000

/-- A notice leaves the store, and its held entry is cleared where it reports one (R183). -/
def State.dropNotice (s : State) (n : Notice) (clearHeld : Bool) : State :=
  let s1 := s.modCmd (fun c => { c with notices := c.notices.filter (fun x => x.num != n.num) })
  let s2 : State := match clearHeld, n.held with
    | true, some i => { s1 with hearth := { s1.hearth with held := s1.hearth.held.set i {} } }
    | _, _ => s1
  s2.pumpOut

/-- An alarm's repetition falls due: it is repeated, or given up after 64 repeats (R101). -/
def State.alarmRepeat (s : State) (num : Nat) : State :=
  match s.main.cmd.notices.find? (fun n => n.num == num && n.alarm && n.placed && !n.copyOut) with
  | none => s
  | some n =>
    match n.leftAt with
    | none => s
    | some t =>
      if s.now < t + repeatT then s
      else if 64 ≤ n.repeats then (s.ash 0x00 0x01 (be 2 n.code ++ be 2 n.num)).dropNotice n false
      else (s.modCmd (fun c => { c with notices := c.notices.map (fun x =>
        if x.num = num then { x with placed := false, repeats := x.repeats + 1, leftAt := none } else x) })).pumpOut

/-- CMD_OP_LIMIT in ticks (R93). -/
def State.opLimit (s : State) : Nat := s.fld 0x00000C 15 0 * secT

/-- Whether MP_XACT is exempt from the limit: its transaction is QUEUED at its port (R427, R715). Of one that has
left for another member the lead cannot tell, and takes it to be QUEUED there (log entry 54). -/
def State.xactQueued (s : State) (e : OpEntry) : Bool :=
  e.opcode == 0x0800 && e.st == .running && !s.atHome e &&
    (e.member != s.self || s.main.mp.ports.any (fun p => p.xacts.zipIdx.any (fun (x, i) =>
      x.src == .op e.id && (decide (0 < i) || p.st == .queued))))

/-- Whether an operation's interval has reached CMD_OP_LIMIT (R93). -/
def State.overLimit (s : State) (e : OpEntry) : Bool :=
  e.st != .replying && !e.shadow && decide (e.lastReply + s.opLimit ≤ s.now) && !s.xactQueued e

/-- The operation that a flash operation belongs to. -/
def FlashOp.asked : FlashOp → Option Nat
  | .imgErase op _ => some op
  | .imgWrite op _ _ _ => some op
  | .bootRecord op _ _ _ => op
  | _ => none

/-- What an operation has waiting in the blocks is withdrawn: a flash operation not begun, a pulse, an armed schedule
entry, a request or key opcode of the cipher engine, an eye measurement, the units not sent, the rest of a poll
program (R96; log entry 134). -/
def State.withdraw (s : State) (id : Nat) : State :=
  let m := s.main
  let s1 : State := { s with main := { m with
    boot := { m.boot with flashQ := m.boot.flashQ.filter (fun f => f.asked != some id) }
    ma := { m.ma with
      relays := m.ma.relays.map (fun r => match r.pulse with
        | some (t, _) => if t = id then { r with pulse := none } else r
        | none => r)
      entries := m.ma.entries.map (fun e => if e.tag = some id then { e with armed := false, tag := none } else e) }
    cy := { m.cy with
      queues := m.cy.queues.map (fun q => q.filter (fun r => r.for_ != .run id))
      keyOps := m.cy.keyOps.filter (fun k => k.1 != id) }
    ln := { m.ln with lanes := m.ln.lanes.map (fun l => match l.eye with
      | some e => if e.op = some id then { l with eye := none } else l
      | none => l) }
    pc := { m.pc with xfers := m.pc.xfers.filter (fun x => x.op != some id) } } }
  (List.range 64).foldl (fun x p => if (x.prog p).op = some id then x.stopProg p 0x000F else x) s1

/-- An operation ends with TIMEOUT, for every member still awaited (R93): what it has not begun is withdrawn. -/
def State.timeout (s : State) (e : OpEntry) : State :=
  let s1 := (s.unsend e).withdraw e.id
  if e.all then (if e.await = [] then [s.self] else e.await).foldl (fun x m => x.memberResult e.id ⟨m, 0x000F, []⟩) s1
  else s1.memberResult e.id ⟨e.member, 0x000F, []⟩

/-- What OP_TIMEOUT does for a tag. -/
def State.opTimeout (s : State) (tag : Nat) : State :=
  match s.opOfTag tag with
  | some e => if s.overLimit e then s.timeout e else s
  | none => s

/-- Every operation whose interval exceeds CMD_OP_LIMIT ends at once (R93). -/
def State.limitChanged (s : State) : State :=
  (s.main.cmd.ops.filter s.overLimit).foldl (fun x e => x.timeout e) s

end Sys2Proof.Machine
end

