-- ==== Sys2Proof/Machine/Transfers.lean ====
section
/-! DEFINITION. Transfer units (16, Table PC-9): clips, decoded pictures and the ash log sent upstream or exported
on an Ethernet port (R543, R545, R684). -/

namespace Sys2Proof.Machine

/-- The picture coder changed by a function. -/
def State.modPc (s : State) (f : Picture → Picture) : State := { s with main := { s.main with pc := f s.main.pc } }

/-- A byte string cut into pieces of at most `n` bytes; `k` bounds the pieces. -/
def pieces (n : Nat) : Nat → List Byte → List (List Byte)
  | 0, _ => []
  | k + 1, l => if l = [] then [] else l.take n :: pieces n k (l.drop n)

/-- The units of one KIND's sequence (Table PC-9), numbered from `seq`. -/
def unitsOf (kind clip seq size : Nat) (data : List Byte) : List (List Byte) :=
  let ps := pieces size data.length data
  ps.mapIdx (fun i p =>
    be 2 0xC7E0 ++ [byte kind, byte (b2n (i + 1 == ps.length))] ++ be 2 clip ++ be 2 (seq + i) ++ be 4 (i * size)
      ++ be 4 data.length ++ p)

/-- The data bytes that a unit carries: SDUs of up to 4,096 bytes upstream, EXP_DATA bytes on a port (R543). -/
def State.unitSize (s : State) (dest : Nat) : Nat := if dest = 0 then 4080 else s.fld 0x0C000C 13 0

/-- A unit as a UDP/IPv4 datagram in a send with CSUM set (R466, R543). What the spec does not state of the IPv4
header is free; the checksum field is not 0, so that the MAC computes it. -/
def State.datagram (s : State) (u : List Byte) : State × List Byte :=
  let (f, s1) := s.drawBytes 4
  let ip := [0x45#8, f.getD 0 0#8] ++ be 2 (28 + u.length) ++ [f.getD 1 0#8, f.getD 2 0#8, 0#8, 0#8, f.getD 3 0#8, 17#8, 0#8, 0#8]
    ++ be 4 (s.word 0x0C0020) ++ be 4 (s.word 0x0C0024)
  let udp := be 4 (s.word 0x0C0028) ++ be 2 (8 + u.length) ++ [0xFF#8, 0xFF#8]
  (s1, be 4 0x40000000 ++ be 2 (s.fld 0x0C0010 15 0) ++ be 4 (s.word 0x0C0014) ++ be 2 (s.fld 0x0C0018 15 0)
    ++ be 4 (s.word 0x0C001C) ++ be 2 0x0800 ++ ip ++ udp ++ u)

/-- The export port can take no datagrams: PC_EXP_CFG.PORT does not name it, or its link is down (R553). -/
def State.noExport (s : State) (dest : Nat) : Bool :=
  dest != 0 && (s.fld 0x0C000C 31 30 != dest || !(s.eport (dest - 1)).up)

/-- What became of a unit that was offered. -/
inductive Offered where
  | taken | waits | ends (status : Nat)
  deriving DecidableEq, Repr

/-- A unit offered to an upstream queue: on the lead to the queue itself, where it would be taken; elsewhere over
Strait in the BULK class (R373 to R375, Table UP-3). -/
def State.offerUnit (s : State) (k : SduKind) (q : Nat) (u : List Byte) : State × Offered :=
  if s.leads then
    let d := s.mkSdu q k u
    let cfg := s.word (upCfg q)
    if !s.queueKeyless q && (!bitOf cfg 31 || decide (1024 * bits cfg 17 8 < (s.upQueue q).fill + d.len)
        || decide (1024 * s.fld 0x07000C 10 0 < s.poolUsed + d.len)) then (s, .waits)
    else match s.enqueue q k u with
      | (s1, 0) => (s1, .taken)
      | (s1, 2) => (s1, .ends 0x0014)
      | (s1, _) => (s1, .waits)
  else match s.offer ⟨3, s.main.sk.lead, s.stackMsg 0x09 q ([0#8, byte q] ++ u)⟩ with
    | some s1 => (s1, .taken)
    | none => (s, .waits)

/-- A unit exported on a port: it waits for room in the transmit buffer (R467, R543). -/
def State.exportUnit (s : State) (dest : Nat) (u : List Byte) : State × Offered :=
  let n := dest - 1
  if s.noExport dest then (s, .ends 0x0C07)
  else
    let (s1, b) := s.datagram u
    if 131072 < s.txHold n + b.length then (s, .waits)
    else match s1.macSend n b true none with
      | (s2, true) => (s2, .taken)
      | (s2, false) => (s2, .ends 0x0C07)

/-- A transfer ends: its operation is replied to, and a clip sent whole is marked so (R546). -/
def State.endXfer (s : State) (x : Xfer) (status : Nat) : State :=
  let s1 := s.modPc (fun p => { p with
    xfers := p.xfers.drop 1
    clips := if status = 0 ∧ x.whole then p.clips.map (fun c => if some c.id = x.clip then { c with sentFull := true } else c)
      else p.clips })
  s1.finish? x.op status (if status = 0 then be 2 x.sent else [])

/-- One unit of the transfer at the head placed, or the transfer ended; none where it waits. -/
def State.xferStep (s : State) : Option State :=
  match s.main.pc.xfers with
  | [] => none
  | x :: t =>
    match x.units with
    | [] => some (s.endXfer x 0)
    | u :: us =>
      let r := if x.dest = 0 then s.offerUnit (if x.ash then .ash else .clip) x.queue u
        else s.exportUnit x.dest u
      match r with
      | (s1, .taken) => some (s1.modPc (fun p => { p with xfers := { x with units := us, sent := x.sent + 1 } :: t }))
      | (_, .waits) => none
      | (s1, .ends st) => some (s1.endXfer x (if x.ash ∧ st = 0x0C07 then 0x1102 else st))

/-- Transfers go on until one waits; the number bounds the steps. -/
def State.xferLoop : Nat → State → State
  | 0, s => s
  | k + 1, s => match s.xferStep with
    | some s' => State.xferLoop k s'
    | none => s

/-- Transfers go on as far as their queues and buffers take them. -/
def State.xferPump (s : State) : State :=
  State.xferLoop (s.main.pc.xfers.map (fun x => x.units.length + 1)).sum s

/-- A unit that the lead has refused comes back to the transfer (R375). -/
def State.unitRefused (s : State) (q : Nat) (u : List Byte) : State :=
  s.modPc (fun p => { p with xfers := ⟨none, q, 0, [u], 0, none, false, decide (3 ≤ field u 2 1)⟩ :: p.xfers })

/-- AL_UPLOAD: SLOT 1 (0xFF for the ring), DEST 1 (R684). -/
def opAlUpload (op : Nat) (p : List Byte) (s : State) : State :=
  let slot := field p 0 1
  let dest := field p 1 1
  let ring := decide (slot = 0xFF)
  if p.length ≠ 2 then s.finish op 0x0004 []
  else if (15 < slot ∧ !ring) ∨ 2 < dest then s.finish op 0x0005 []
  else if !ring ∧ (s.archHeader slot).isNone then s.finish op 0x1101 []
  else if s.noExport dest then s.finish op 0x1102 []
  else
    let data := if ring then (s.hearth.ring.flatMap (·.bytes)) else s.flashRead (archAddr slot) 0x11400
    let units := unitsOf (if ring then 4 else 3) (if ring then 0xFFFF else slot) 0 (s.unitSize dest) data
    s.modPc (fun x => { x with xfers := x.xfers ++ [⟨some op, s.fld 0x070010 4 0, dest, units, 0, none, false, true⟩] })

end Sys2Proof.Machine
end

