-- ==== Sys2Proof/Machine/Clips.lean ====
section
/-! DEFINITION. The clip store (16): space, overwriting, closing, locks, and the clip opcodes (R536 to R543). -/

namespace Sys2Proof.Machine

/-! ### Space (R536, R537) -/

/-- A channel of the coder. -/
def State.pcChan (s : State) (c : Nat) : PcChan := at? s.main.pc.chans c {}

/-- A channel of the coder changed by a function. -/
def State.modChan (s : State) (c : Nat) (f : PcChan → PcChan) : State :=
  s.modPc (fun p => { p with chans := p.chans.modify c f })

/-- PC_Cc_CFG, the first of a channel's registers. -/
def pcReg (c : Nat) : Nat := 0x0C0100 + 64 * c

/-- The geometry and options of a PC_Cc_CFG word: EVIDENCE takes exact references whatever LEAN holds (R535). -/
def geomOf (w : Nat) : PcGeom :=
  { w := 8 * bits w 23 16, h := 8 * bits w 15 8, main := bitOf w 30, lean := bitOf w 29 && !bitOf w 26,
    esc := bits w 28 27, cap := bits w 3 0 }

/-- Wc: the width rounded up to a multiple of 32. -/
def PcGeom.wc (g : PcGeom) : Nat := (g.w + 31) / 32 * 32

/-- Hr: the picture's CTB rows. -/
def PcGeom.hr (g : PcGeom) : Nat := (g.h + 31) / 32

/-- Regions across and down. -/
def PcGeom.across (g : PcGeom) : Nat := (g.w + 15) / 16
/-- Regions down. -/
def PcGeom.down (g : PcGeom) : Nat := (g.h + 15) / 16

/-- Bytes per sample column and row set: 60 × ESC, with ESC 1/16, 1/8, 1/4 or 1/2, times Wc (R533, R536). -/
def PcGeom.escBytes (g : PcGeom) : Nat := 60 * g.wc * 2 ^ g.esc / 16

/-- S of R536. -/
def PcGeom.rowBytes (g : PcGeom) : Nat :=
  if g.main then 58 * g.wc else if g.lean then 46 * g.wc + g.escBytes else 70 * g.wc

/-- The bytes that an enabled channel holds (R536). -/
def PcGeom.chanBytes (g : PcGeom) : Nat :=
  (g.hr + 4) * g.rowBytes + g.cap * (60 * g.wc) + 8 * g.across * g.down

/-- D of R537. -/
def PcGeom.decRow (g : PcGeom) : Nat :=
  if g.main then 48 * g.wc else if g.lean then 36 * g.wc + g.escBytes else 60 * g.wc

/-- The bytes that a running decode holds (R537). -/
def PcGeom.decBytes (g : PcGeom) : Nat := (g.hr + 5) * g.decRow + 2 * (60 * g.wc) + 262144

/-- The bytes of the picture pool that the clip store does not have: the coder's fixed area, the channels' buffers
and a running decode. -/
def Picture.taken (p : Picture) : Nat :=
  65536 + (p.chans.map (·.mem)).sum + (match p.dec with | some d => d.mem | none => 0)

/-- The clip store in bytes. -/
def State.storeBytes (s : State) : Nat := 1024 * s.poolKib - s.main.pc.taken

/-- The space of a clip: its header, its stream bytes and its records. -/
def Clip.space (c : Clip) : Nat := 32 + c.stream.length + 16 * c.records.length

/-- The space in use in the clip store. -/
def Picture.used (p : Picture) : Nat := (p.clips.map Clip.space).sum

/-- The space of locked clips. -/
def Picture.lockedBytes (p : Picture) : Nat := ((p.clips.filter (·.locked)).map Clip.space).sum

/-- CLIP_MIN in bytes. -/
def State.clipMin (s : State) : Nat := 16384 * s.fld 0x0C0000 15 8

/-- A clip is pinned while it is being sent or decoded (R540). -/
def Picture.pinned (p : Picture) (id : Nat) : Bool :=
  p.xfers.any (fun x => x.clip == some id) || (match p.dec with | some d => d.clip == some id | none => false)

/-- A clip that may be overwritten: closed, not locked, not pinned (R540). -/
def Picture.spare (p : Picture) (c : Clip) : Bool := !c.isOpen && !c.locked && !p.pinned c.id

/-- The oldest clips overwritten until the store of `cap` bytes has `n` free (R540); none where too few can be.
The number bounds the steps. -/
def makeRoom : Nat → Nat → Nat → Picture → Option Picture
  | 0, cap, n, p => if p.used + n ≤ cap then some p else none
  | k + 1, cap, n, p =>
    if p.used + n ≤ cap then some p
    else match p.clips.find? p.spare with
      | some c => makeRoom k cap n { p with clips := p.clips.erase c }
      | none => none

/-- Room for `n` bytes in the clip store. -/
def State.room (s : State) (n : Nat) : Option State :=
  (makeRoom s.main.pc.clips.length s.storeBytes n s.main.pc).map (fun p => s.modPc (fun _ => p))

/-! ### Clips (R522, R523, R538 to R541) -/

/-- A clip of the store. -/
def State.clip? (s : State) (id : Nat) : Option Clip := s.main.pc.clips.find? (fun c => c.id == id)

/-- A clip changed by a function. -/
def State.modClip (s : State) (id : Nat) (f : Clip → Clip) : State :=
  s.modPc (fun p => { p with clips := p.clips.map (fun c => if c.id = id then f c else c) })

/-- The notice PC_CLIP: kind 0 locked, 1 locked clip closed, 2 lock refused, 3 lock limit reached. -/
def State.clipNotice (s : State) (id chan kind : Nat) : State :=
  s.notify 0x0C02 false (be 2 id ++ [byte chan, byte kind])

/-- The notice PC_EVENT. -/
def State.pcEvent (s : State) (chan kind : Nat) (clip : Option Nat) (poc : Nat) : State :=
  s.notify 0x0C01 false ([byte chan, byte kind] ++ be 2 (clip.getD 0xFFFF) ++ be 2 poc)

/-- The open clip of a channel closes; the close of a locked clip is reported (R523, R538, R542). -/
def State.closeClip (s : State) (c : Nat) (cut : Bool) (kind : Nat) : State :=
  match (s.pcChan c).clip with
  | none => s
  | some id =>
    let s1 := (s.modClip id (fun k => { k with isOpen := false, cut := (k.cut || cut) })).modChan c (fun h => { h with clip := none })
    match s.clip? id with
    | some k => if k.locked then s1.clipNotice id c kind else s1
    | none => s1

/-- The next clip ID that is not in the store (R538). -/
def freeClip (used : List Nat) : Nat → Nat → Nat
  | 0, n => n
  | k + 1, n => if used.contains n then freeClip used k ((n + 1) % 65536) else n

/-- The first picture of a channel changed by a function. -/
def State.modPic (s : State) (c : Nat) (f : Pic → Pic) : State :=
  s.modChan c (fun h => { h with pics := h.pics.modify 0 f })

/-- The picture that a channel codes, or codes next. -/
def State.pic? (s : State) (c : Nat) : Option Pic := (s.pcChan c).pics[0]?

/-- The open clip of a channel that needs space is closed at its last whole picture: the rows of the picture in
hand are discarded, and it is no reference (R541); `kind` is the notice of a locked clip. -/
def State.cutClip (s : State) (c kind : Nat) : State :=
  let poc := match s.pic? c with | some p => p.poc | none => 0
  let id := (s.pcChan c).clip
  let s1 := match id, s.pic? c with
    | some i, some p => if p.clip = some i then s.modClip i (fun k => { k with stream := k.stream.take p.offset }) else s
    | _, _ => s
  let s2 := (s1.closeClip c true kind).modChan c (fun h => { h with
    needIdr := true
    pics := h.pics.modify 0 (fun p => { p with cut := p.started, clip := none }) })
  (s2.count (pcReg c + 20) 15 8).pcEvent c 4 id poc

/-- Whether a locked clip may take `n` bytes more: the locked bytes stay within LOCK_MAX_PCT of the store (R542). -/
def State.lockFits (s : State) (n : Nat) : Bool :=
  decide (100 * (s.main.pc.lockedBytes + n) ≤ s.fld 0x0C0000 6 0 * s.storeBytes)

/-- Bytes and records written to the open clip of a channel; where there is no room, or the clip is locked and
would pass the limit, the clip is cut (R539 to R542). Whether they were written. -/
def State.store (s : State) (c : Nat) (b : List Byte) (recs : List PicRec) : State × Bool :=
  match (s.pcChan c).clip with
  | none => (s, false)
  | some id =>
    let n := b.length + 16 * recs.length
    let locked := match s.clip? id with | some k => k.locked | none => false
    if locked && !s.lockFits n then (s.cutClip c 3, false)
    else match s.room n with
      | none => (s.cutClip c 1, false)
      | some s1 =>
        let put (l : List PicRec) (r : PicRec) : List PicRec :=
          l.filter (fun x => decide (x.tick ≤ r.tick)) ++ [r] ++ l.filter (fun x => !decide (x.tick ≤ r.tick))
        (s1.modClip id (fun k => { k with stream := k.stream ++ b, records := recs.foldl put k.records }), true)

/-- A clip opened by an IDR picture (R523, R538); without room for its header it is cut at once. -/
def State.openClip (s : State) (c : Nat) (g : PcGeom) (st : CapStamp) : State :=
  let s0 := s.closeClip c false 1
  match s0.room 32 with
  | none => s0.cutClip c 1
  | some s1 =>
    let ids := s1.main.pc.clips.map (·.id)
    let id := freeClip ids ids.length s1.main.pc.nextClip
    (s1.modPc (fun p => { p with clips := p.clips ++ [{ id := id, chan := c, geom := g, first := st }],
                                 nextClip := (id + 1) % 65536 })).modChan c (fun h => { h with clip := some id })

/-! ### Locks (R535, R542) -/

/-- A clip locked by the master (kind 1) or by Watch (kinds 2 and 3); the status. -/
def State.lockClip (s : State) (id : Nat) (evidence : Bool) (kind : Nat) : State × Nat :=
  match s.clip? id with
  | none => (s, 0x0C01)
  | some k =>
    if evidence && k.geom.lean then (s.clipNotice id k.chan 2, 0x0C03)
    else if !k.locked && !s.lockFits k.space then (s.clipNotice id k.chan 2, 0x0C02)
    else ((s.modClip id (fun k => { k with locked := true, evidence := (k.evidence || evidence),
                                           lock := if k.locked then k.lock else kind })).clipNotice id k.chan 0, 0)

/-! ### What a clip reads as (Tables PC-7, PC-8) -/

/-- A picture record. -/
def PicRec.bytes (r : PicRec) : List Byte :=
  be 4 r.offset ++ be 3 r.size ++ [byte r.flags] ++ be 4 r.dtUs ++ be 2 r.angle ++ [byte r.rows, byte r.qp]

/-- A clip header. -/
def Clip.header (s : State) (c : Clip) : List Byte :=
  be 2 c.id ++ [byte c.chan, byte s.self,
    byte (b2n c.isOpen * 128 + b2n c.locked * 64 + b2n c.evidence * 32 + b2n c.geom.lean * 16 + b2n c.cut * 8
      + b2n c.damaged * 4 + b2n c.geom.main * 2), byte (if c.geom.lean then c.geom.esc else 0)]
    ++ be 2 c.records.length ++ c.first.time ++ be 2 c.first.angle ++ be 4 c.stream.length ++ be 2 c.geom.w ++ be 2 c.geom.h
    ++ [byte c.lock, 0#8, 0#8, 0#8]

/-- An uncorrectable error found in a clip that is read sets DAMAGED (R549). Which clip holds a poisoned word of the
pool is free. -/
def State.readClip (s : State) (id : Nat) : State :=
  let top := 1024 * s.main.mm.capKib / 8
  if s.main.mm.poison.any (fun w => decide (top ≤ w + 1024 * s.poolKib / 8)) then
    let (f, s1) := s.draw
    if f % 2 = 1 then s1.modClip id (fun k => { k with damaged := true }) else s1
  else s

/-! ### Ember (R546) -/

/-- Locked clips that have not been sent in full. -/
def State.unsentClips (s : State) : List Clip := s.main.pc.clips.filter (fun c => c.locked && !c.sentFull)

/-- One ash record for each locked clip that has not been sent in full (R546, Table AL-3). -/
def State.recordUnsent (s : State) : State :=
  s.unsentClips.foldl (fun x c => x.ash 0x0C 0x01 (be 2 c.id ++ [byte c.chan] ++ be 4 c.stream.length)) s

/-! ### Clip opcodes (R543, R553) -/

/-- A number inserted into a rising list. -/
def insertNat (n : Nat) : List Nat → List Nat
  | [] => [n]
  | a :: t => if n ≤ a then n :: a :: t else a :: insertNat n t

/-- PC_CLIP_LIST: clip headers in ID order from FIRST. -/
def opPcClipList (op : Nat) (p : List Byte) (s : State) : State :=
  let first := field p 0 2
  let n := field p 2 1
  if p.length ≠ 3 then s.finish op 0x0004 []
  else if n < 1 ∨ 120 < n then s.finish op 0x0005 []
  else
    let ids := ((s.main.pc.clips.map (·.id)).filter (fun i => decide (first ≤ i))).foldr insertNat []
    s.finish op 0 (((ids.take n).filterMap s.clip?).flatMap (Clip.header s))

/-- PC_CLIP_INDEX: picture records of a clip. -/
def opPcClipIndex (op : Nat) (p : List Byte) (s : State) : State :=
  let n := field p 4 2
  if p.length ≠ 6 then s.finish op 0x0004 []
  else if n < 1 ∨ 255 < n then s.finish op 0x0005 []
  else match s.clip? (field p 0 2) with
    | none => s.finish op 0x0C01 []
    | some c => s.finish op 0 (((c.records.drop (field p 2 2)).take n).flatMap PicRec.bytes)

/-- The stream bytes of a clip up to the end of its last record: the pictures that are complete. -/
def Clip.complete (c : Clip) : List Byte :=
  c.stream.take ((c.records.map (fun r => r.offset + r.size)).foldl max 0)

/-- PC_CLIP_SEND: CLIP 2, FROM 2, DEST 1 (R543). -/
def opPcClipSend (op : Nat) (p : List Byte) (s : State) : State :=
  let from_ := field p 2 2
  let dest := field p 4 1
  if p.length ≠ 5 then s.finish op 0x0004 []
  else if 2 < dest then s.finish op 0x0005 []
  else match s.clip? (field p 0 2) with
    | none => s.finish op 0x0C01 []
    | some c0 =>
      if c0.records.length < from_ then s.finish op 0x0005 []
      else if s.noExport dest then s.finish op 0x0C07 []
      else
        let s1 := s.readClip c0.id
        let c := (s1.clip? c0.id).getD c0
        let recs := c.records.drop from_
        let data := match recs with | [] => [] | r :: _ => c.complete.drop r.offset
        let size := s1.unitSize dest
        let u0 := unitsOf 0 c.id 0 size (c.header s1 ++ recs.flatMap PicRec.bytes)
        let u1 := unitsOf 1 c.id u0.length size data
        s1.modPc (fun x => { x with xfers := x.xfers ++ [⟨some op, s.fld 0x070010 12 8, dest, u0 ++ u1, 0, some c.id,
          !c.isOpen && from_ == 0, false⟩] })

/-- PC_CLIP_LOCK: CLIP 2, EVIDENCE 1. -/
def opPcClipLock (op : Nat) (p : List Byte) (s : State) : State :=
  if p.length ≠ 3 then s.finish op 0x0004 []
  else if 1 < field p 2 1 then s.finish op 0x0005 []
  else
    let (s1, st) := s.lockClip (field p 0 2) (field p 2 1 == 1) 1
    s1.finish op st []

/-- PC_CLIP_UNLOCK: CLIP 2. -/
def opPcClipUnlock (op : Nat) (p : List Byte) (s : State) : State :=
  if p.length ≠ 2 then s.finish op 0x0004 []
  else match s.clip? (field p 0 2) with
    | none => s.finish op 0x0C01 []
    | some c => (s.modClip c.id (fun k => { k with locked := false, lock := 0 })).finish op 0 []

end Sys2Proof.Machine
end

