-- ==== Sys2Proof/Machine/References.lean ====
section
/-! DEFINITION. Lean references (16): the coding of a 4×4 block in 96 bits, and its decoding (R531, Table PC-5). -/

namespace Sys2Proof.Machine

/-- A value clamped to a range. -/
def clampTo (lo hi v : Int) : Int := max lo (min hi v)

/-- A lean block: its mode, its 96 bits without IDX, and the samples it decodes to. -/
structure LeanBlock where
  mode : Nat
  word : Nat
  samples : List Nat
  deriving DecidableEq, Repr

/-- Values packed from bit `top` down, `w` bits each. -/
def packDown (w : Nat) : Nat → List Nat → Nat
  | _, [] => 0
  | top, v :: t => v % 2 ^ w * 2 ^ (top + 1 - w) + packDown w (top - w) t

/-- Values of `w` bits each from bit `top` down. -/
def unpackDown (w v : Nat) : Nat → Nat → List Nat
  | _, 0 => []
  | top, n + 1 => v / 2 ^ (top + 1 - w) % 2 ^ w :: unpackDown w v (top - w) n

/-- The prediction of mode 2 at sample `i`. -/
def planeAt (base gx gy : Int) (i : Nat) : Int := base + gx * (i % 4 : Nat) + gy * (i / 4 : Nat)

/-- The sample at `i` of a block. -/
def sampleAt (s : List Nat) (i : Nat) : Int := (at? s i 0 : Nat)

/-- BASE, GX and GY of mode 2. -/
def planeOf (s : List Nat) : Int × Int × Int :=
  let v := sampleAt s
  let c0 := v 0 + v 4 + v 8 + v 12
  let c3 := v 3 + v 7 + v 11 + v 15
  let r0 := v 0 + v 1 + v 2 + v 3
  let r3 := v 12 + v 13 + v 14 + v 15
  let gx := clampTo (-128) 127 ((c3 - c0 + 6) / 12)
  let gy := clampTo (-128) 127 ((r3 - r0 + 6) / 12)
  let sum := (((List.range 16).map v).foldl (· + ·) 0)
  (clampTo 0 1023 ((sum - 24 * gx - 24 * gy + 8) / 16), gx, gy)

/-- The samples that mode 2 decodes to. -/
def planeSamples (base gx gy : Int) (q : List Int) : List Nat :=
  q.mapIdx (fun i e => (clampTo 0 1023 (planeAt base gx gy i + 5 * e)).toNat)

/-- The 16 samples of a block coded in the first mode whose condition holds (R531). -/
def leanEncode (s : List Nat) : LeanBlock :=
  let lo := s.foldl min (at? s 0 0)
  let hi := s.foldl max (at? s 0 0)
  let q1 := s.map (fun v => (v - lo + 2) / 5)
  let (base, gx, gy) := planeOf s
  let q2 := (List.range 16).map (fun i => (sampleAt s i - planeAt base gx gy i + 2) / 5)
  if hi - lo ≤ 31 then ⟨0, lo * 2 ^ 84 + packDown 5 83 (s.map (· - lo)), s⟩
  else if hi - lo ≤ 157 then
    ⟨1, 2 ^ 94 + lo * 2 ^ 84 + packDown 5 83 q1, q1.map (fun q => min 1023 (lo + 5 * q))⟩
  else if q2.all (fun q => decide (-8 ≤ q ∧ q ≤ 7)) then
    ⟨2, 2 * 2 ^ 94 + base.toNat * 2 ^ 84 + ofSigned 8 gx * 2 ^ 76 + ofSigned 8 gy * 2 ^ 68
        + packDown 4 67 (q2.map (ofSigned 4)), planeSamples base gx gy q2⟩
  else ⟨3, 3 * 2 ^ 94, s⟩

/-- The 96 bits of a block; a block in mode 3 names its overflow entry. -/
def LeanBlock.bits96 (b : LeanBlock) (idx : Nat) : Nat := if b.mode = 3 then b.word + idx % 65536 * 2 ^ 78 else b.word

/-- The samples of 96 bits; `over` are the overflow entries (R531). -/
def leanDecode (w : Nat) (overrun : List (List Nat)) : List Nat :=
  let base := bits w 93 84
  match bits w 95 94 with
  | 0 => (unpackDown 5 w 83 16).map (fun d => min 1023 (base + d))
  | 1 => (unpackDown 5 w 83 16).map (fun q => min 1023 (base + 5 * q))
  | 2 => planeSamples base (toSigned 8 (bits w 83 76)) (toSigned 8 (bits w 75 68)) ((unpackDown 4 w 67 16).map (toSigned 4))
  | _ => at? overrun (bits w 93 78) []

/-- An overflow entry: 16 samples of 10 bits in 20 bytes, from the first sample. -/
def overflowEntry (s : List Nat) : List Byte := be 20 (packDown 10 159 s)

/-- The block at column `x` of four lines. -/
def blockAt (l : List (List Nat)) (x : Nat) : List Nat := (List.range 4).flatMap (fun k => bytesOf (at? l k []) x)
  where bytesOf (r : List Nat) (x : Nat) : List Nat := (List.range 4).map (fun i => at? r (4 * x + i) 0)

/-- The blocks of four lines. -/
def lineBlocks (l : List (List Nat)) : List LeanBlock :=
  (List.range ((at? l 0 []).length / 4)).map (fun x => leanEncode (blockAt l x))

/-- A plane's lines stored lean: the lines as they decode, and the samples of the escaped blocks in order; `k` bounds
the rows of blocks. -/
def leanPlane : Nat → List (List Nat) → List (List Nat) × List (List Nat)
  | 0, _ => ([], [])
  | k + 1, l =>
    if l = [] then ([], [])
    else
      let bs := lineBlocks (l.take 4)
      let lines := (List.range 4).map (fun r => bs.flatMap (fun b => (b.samples.drop (4 * r)).take 4))
      let (a, e) := leanPlane k (l.drop 4)
      (lines ++ a, (bs.filter (·.mode == 3)).map (·.samples) ++ e)

/-- One level of the search copy: the rounded mean of each 2×2 block of samples, two lines at a time. -/
def halve : Nat → List (List Nat) → List (List Nat)
  | 0, _ => []
  | k + 1, l =>
    match l with
    | a :: b :: t =>
      (List.range (a.length / 2)).map (fun x => (at? a (2 * x) 0 + at? a (2 * x + 1) 0 + at? b (2 * x) 0 + at? b (2 * x + 1) 0 + 2) / 4)
        :: halve k t
    | _ => []

end Sys2Proof.Machine
end

