-- ==== Sys2Proof/Machine/Search.lean ====
section
/-! DEFINITION. The hierarchical motion search (16): its levels, centres and ranges, and the match of a 16×16 region
(R527, R528, Table PC-4). -/

namespace Sys2Proof.Machine

/-- A sample of a plane; beyond its edges the nearest sample of it, as H.265 pads a reference. -/
def pixel (l : List (List Nat)) (x y : Int) : Int :=
  let row := at? l (clampTo 0 ((l.length : Int) - 1) y).toNat []
  (at? row (clampTo 0 ((row.length : Int) - 1) x).toNat 0 : Nat)

/-- The sum of absolute differences of two `n` × `n` blocks. -/
def sad (n : Nat) (a b : Int → Int → Int) : Nat :=
  ((List.range n).map (fun (j : Nat) => ((List.range n).map (fun (i : Nat) => (a i j - b i j).natAbs)).sum)).sum

/-- The vectors within a range of a centre. -/
def around (c : Int × Int) (rx ry : Nat) : List (Int × Int) :=
  (List.range (2 * ry + 1)).flatMap (fun (j : Nat) => (List.range (2 * rx + 1)).map (fun (i : Nat) =>
    (c.1 + (i : Int) - rx, c.2 + (j : Int) - ry)))

/-- Whether a vector in units of `u` quarter samples lies within the search's reach: 138.75 and 74.75 samples (R527). -/
def inReach (u : Nat) (v : Int × Int) : Bool := decide (v.1.natAbs * u ≤ 555) && decide (v.2.natAbs * u ≤ 299)

/-- A vector of the least cost: which of several is the free value's choice; the cost. -/
def leastOf (l : List (Int × Int)) (cost : Int × Int → Nat) (free : Nat) : (Int × Int) × Nat :=
  let cs := l.map cost
  let m := cs.foldl min (at? cs 0 0)
  let best := (l.zip cs).filter (fun p => p.2 == m)
  ((at? best (free % max 1 best.length) ((0, 0), 0)).1, m)

/-- A vector in quarter samples scaled to a level of `u` quarter samples. -/
def scaled (v : Int × Int) (u : Nat) : Int × Int := (v.1 / (u : Int), v.2 / (u : Int))

/-- Twice a vector: its place at the next level. -/
def doubled (v : Int × Int) : Int × Int := (2 * v.1, 2 * v.2)

/-- One level of the search: a block of `n` × `n` samples at (x, y) of the picture, whose samples `cur` gives, in a
plane, around the best result of the level before it and the predictor (Table PC-4). -/
def searchLevel (n u : Nat) (cur : Int → Int → Int) (ref : Int → Int → Int) (centres : List (Int × Int)) (rx ry free : Nat) :
    (Int × Int) × Nat :=
  leastOf ((centres.flatMap (fun c => around c rx ry)).filter (inReach u)) (fun v => sad n cur (fun i j => ref (i + v.1) (j + v.2))) free

/-- The luma interpolation filters of H.265, by quarter. -/
def lumaTaps (f : Nat) : List Int :=
  if f = 1 then [-1, 4, -10, 58, 17, -5, 1, 0] else if f = 2 then [-1, 4, -11, 40, 40, -11, 4, -1]
  else [0, 1, -5, 17, 58, -10, 4, -1]

/-- An eight-tap filter over the samples from -3 to 4. -/
def taps (f : Nat) (g : Int → Int) : Int := ((lumaTaps f).mapIdx (fun k c => c * g ((k : Int) - 3))).foldl (· + ·) 0

/-- A reference sample at a place in quarter samples, as H.265 interpolates it at a bit depth. -/
def interpolated (depth : Nat) (ref : Int → Int → Int) (x y : Int) : Int :=
  let px := x / 4
  let py := y / 4
  let fx := (x % 4).toNat
  let fy := (y % 4).toNat
  let across (dy : Int) : Int :=
    if fx = 0 then ref px (py + dy) * 2 ^ (14 - depth) else taps fx (fun k => ref (px + k) (py + dy)) / 2 ^ (depth - 8)
  let v := if fy = 0 then across 0
    else if fx = 0 then taps fy (fun k => ref px (py + k)) / 2 ^ (depth - 8)
    else taps fy across / 64
  clampTo 0 (2 ^ depth - 1) ((v + 2 ^ (13 - depth)) / 2 ^ (14 - depth))

/-- The planes that a search reads: the picture's CTB row at full size, 1/2 and 1/4, whose first line is line `top` of
the picture, and the reference at full size, 1/2 and 1/4; the bit depth of the full-size samples. -/
structure SearchIn where
  cur : List (List Nat)
  cur2 : List (List Nat)
  cur4 : List (List Nat)
  top : Nat
  ref : List (List Nat)
  ref2 : List (List Nat)
  ref4 : List (List Nat)
  depth : Nat
  deriving DecidableEq, Repr

/-- The 16×16 region in column `i` and row `k` of a CTB row: the quarter-sample vector of its best match, and that
match's SAD on the top 8 bits. `pred` is the region's AMVP predictor in quarter samples (R527, R528, Table PC-4); the
free values choose between equals (log entry 142). -/
def searchRegion (p : SearchIn) (i k : Nat) (pred : Int × Int) (free : Nat → Nat) : Int × Int × Nat :=
  let cur (l : List (List Nat)) (n : Nat) (x y : Int) : Int := pixel l ((n * i : Nat) + x) ((n * k : Nat) + y)
  let ref (l : List (List Nat)) (n : Nat) (x y : Int) : Int := pixel l ((n * i : Nat) + x) ((p.top * n / 16 + n * k : Nat) + y)
  let top8 (g : Int → Int → Int) (x y : Int) : Int := g x y / 2 ^ (p.depth - 8)
  let v4 := (searchLevel 4 16 (cur p.cur4 4) (ref p.ref4 4) [(0, 0), scaled pred 16] 32 16 (free 0)).1
  let v2 := (searchLevel 8 8 (cur p.cur2 8) (ref p.ref2 8) [doubled v4, scaled pred 8] 4 4 (free 1)).1
  let (v1, cost) := searchLevel 16 4 (top8 (cur p.cur 16)) (top8 (ref p.ref 16)) [doubled v2, scaled pred 4] 2 2 (free 2)
  let quarters := (around (doubled (doubled v1)) 3 3 ++ around pred 3 3).filter (inReach 1)
  let v := (leastOf quarters (fun v =>
    sad 16 (cur p.cur 16) (fun x y => interpolated p.depth (ref p.ref 16) (4 * x + v.1) (4 * y + v.2))) (free 3)).1
  (v.1, v.2, cost)

end Sys2Proof.Machine
end

