-- ==== Sys2Proof/Machine/Coder.lean ====
section
/-! DEFINITION. The picture coder (16): captures into the ring, the CTB-row pipeline, rate control, references,
records and SEI, disabling, the decoder, and the PC opcodes (R518 to R534, R544 to R554). -/

namespace Sys2Proof.Machine

/-! ### Records and the Pergidom SEI (R521, Tables PC-2, PC-8) -/

/-- The low bits of a record's FLAGS from those of a stamp: 3 PHANTOM, 2 ANGLE_VALID, 1 TIME_LOOSE, 0 HEARTH_TIME. -/
def recFlags (f : Nat) : Nat := b2n (bitOf f 3) * 8 + b2n (bitOf f 4) * 4 + b2n (bitOf f 5) * 2 + b2n (bitOf f 6)

/-- A NAL unit's payload bytes with emulation prevention (H.265); `z` counts the zeros before. -/
def emulate : Nat → List Byte → List Byte
  | _, [] => []
  | z, b :: t =>
    if 2 ≤ z ∧ b.toNat ≤ 3 then 3#8 :: b :: emulate (if b = 0#8 then 1 else 0) t
    else b :: emulate (if b = 0#8 then z + 1 else 0) t

/-- Emulation prevention undone. -/
def unescape : Nat → List Byte → List Byte
  | _, [] => []
  | z, b :: t => if 2 ≤ z ∧ b = 3#8 then unescape 0 t else b :: unescape (if b = 0#8 then z + 1 else 0) t

/-- The UUID of the Pergidom SEI. -/
def seiUuid : List Byte := be 16 0x50474D4356373231364C45414E000001

/-- The CRC of a reconstruction: samples as 16-bit values, Y, Cb, Cr (R84, R521). -/
def recCrc (y cb cr : List Nat) : Nat := crc32 ((y ++ cb ++ cr).flatMap (be 2))

/-- The payload of a picture's SEI (Table PC-2). -/
def State.seiPayload (s : State) (c : Nat) (p : Pic) : List Byte :=
  seiUuid ++ [byte (b2n p.geom.lean + b2n p.truncated * 2 + b2n p.noref * 4 + p.stamp.flags),
    byte (if p.geom.lean then p.geom.esc else 0), byte (s.self * 32 + c), 0#8] ++ p.stamp.time ++ be 2 p.stamp.angle
    ++ be 4 (recCrc p.recY p.recCb p.recCr)

/-- The suffix SEI NAL unit that ends an access unit (R521; its framing is that of H.265). -/
def seiNal (payload : List Byte) : List Byte :=
  [0#8, 0#8, 0#8, 1#8, 0x50#8, 1#8] ++ emulate 0 ([5#8, byte payload.length] ++ payload ++ [0x80#8])

/-- The payload of the Pergidom SEI at the end of an access unit, where there is one. -/
def seiOf (au : List Byte) : Option (List Byte) :=
  let t := unescape 0 (au.drop (au.length - 60))
  let p := (t.drop (t.length - 37)).take 36
  if p.take 16 = seiUuid then some p else none

/-! ### Skips and truncation (R525, R526) -/

/-- The record of a picture that is not coded (R525, R560). -/
def State.skipRecord (s : State) (c : Nat) (st : CapStamp) : State :=
  let s1 := s.count (pcReg c + 16) 15 8
  match (s.pcChan c).clip with
  | none => s1
  | some id => match s.clip? id with
    | none => s1
    | some k =>
      (s1.store c [] [⟨st.tick, k.stream.length, 0, 32 + recFlags st.flags, (st.tick - k.first.tick) / usT, st.angle, 0, 0⟩]).1

/-- The last picture of a channel changed by a function. -/
def State.modLast (s : State) (c : Nat) (f : Pic → Pic) : State :=
  s.modChan c (fun h => { h with pics := h.pics.modify (h.pics.length - 1) f })

/-- The picture being captured is skipped: it leaves the ring, and its record is written (R525). -/
def State.skipPic (s : State) (c : Nat) : State :=
  match (s.pcChan c).pics.getLast? with
  | none => s
  | some p => (s.modChan c (fun h => { h with pics := h.pics.dropLast })).skipRecord c p.stamp

/-- A started picture's capture needs a slot that is held: it is coded to its last whole row (R526). -/
def State.overrun (s : State) (c : Nat) : State :=
  let cut := s.modLast c (fun p => { p with
    capturing := false
    truncated := true
    lines := p.lines / 32 * 32
    ring := p.ring.take ((p.lines / 32 - p.ringRow) * 32)
    rows := p.lines / 32
    cutAt := s.now })
  let p := (cut.pic? c).getD { no := 0, poc := 0 }
  (cut.count (pcReg c + 20) 31 24).pcEvent c 1 p.clip p.poc

/-- The CTB rows of a picture in the ring that have not completed S3. -/
def Pic.slots (p : Pic) : Nat := (p.lines + 31) / 32 - p.s3At.length

/-- A line's luma added to the column sums of its row of regions. -/
def addProf (prof : List (List Nat)) (row : Nat) (y : List Nat) : List (List Nat) :=
  let sums := (List.range (y.length / 4)).map (fun x =>
    ((List.range 4).map (fun i => at? y (4 * x + i) 0 / 4)).sum)
  if prof.length ≤ row then prof ++ [sums] else prof.modify row (fun l => l.zipWith (· + ·) sums)

/-- A line of the picture being captured enters the ring (S1, R524 to R526). -/
def State.ringLine (s : State) (c : Nat) (l : PLine) : State :=
  let h := s.pcChan c
  match h.pics.getLast? with
  | none => s
  | some p =>
    if !p.capturing then s
    else
      let full := p.lines % 32 == 0 && decide (p.geom.cap ≤ (h.pics.map Pic.slots).sum)
      if full && decide (h.pics.length = 1) then s.overrun c
      else if full then s.skipPic c
      else
        let n := p.lines + 1
        let s1 := s.modLast c (fun p => { p with
          lines := n
          capturing := decide (n < p.geom.h)
          ring := p.ring ++ [l]
          repaired := if l.repaired then p.lines :: p.repaired else p.repaired
          prof := addProf p.prof (p.lines / 16) l.y
          inAt := if n % 32 = 0 ∨ n = p.geom.h then p.inAt ++ [s.now] else p.inAt })
        if n = p.geom.h ∧ 1 < h.pics.length ∧ p.geom.hr ≤ p.geom.cap then s1.skipPic c else s1

/-- A trigger accepted by Watch advances the POC (R522). -/
def State.pcTrigger (s : State) (c : Nat) : State := s.modChan c (fun h => { h with poc := (h.poc + 1) % 65536 })

/-- The picture of a capture whose frame starts (R522, R561). -/
def State.pcFrame (s : State) (c : Nat) (st : CapStamp) (lit : Bool) : State :=
  let h := s.pcChan c
  if !h.on then s
  else
    let g := geomOf (s.word (pcReg c))
    let p : Pic := { no := h.nextNo, poc := h.poc, stamp := st, lit := lit, geom := g, rows := g.hr,
                     interval := st.tick - h.lastCap.getD st.tick }
    s.modChan c (fun h => { h with
      nextNo := h.nextNo + 1
      lastCap := some st.tick
      pics := if h.pics.length < 2 then h.pics ++ [p] else h.pics })

/-! ### Picture type and QP (R522, R529, R530) -/

/-- The QP of a picture under R529, with fill, and qp_p after it. -/
def rateQp (rc rate : Nat) (h : PcChan) (idr : Bool) (ns : Nat) : Nat × Nat × Nat :=
  if !bitOf rc 31 then (if idr then bits rc 29 24 else bits rc 21 16, h.fill, h.qpP)
  else
    let fill := (max 0 ((h.fill : Int) - (bits rate 31 18 : Nat) * ((ns : Int) - h.lastNs))).toNat
    let vbv := bits rate 17 4 * 1000
    let level := 16 * fill / (vbv * 1000000)
    let d : Int := if 12 ≤ level then 2 else if 9 ≤ level then 1 else if level ≤ 2 then -2 else if level ≤ 5 then -1 else 0
    let q : Int := (h.qpP : Int) + d - (if idr then (bits rate 3 0 : Nat) else 0)
    let qp := (min (max q (bits rc 13 8 : Nat)) (bits rc 5 0 : Nat)).toNat
    (qp, fill, if idr then h.qpP else qp)

/-- S2 takes the first row of a picture: its type, reference, clip and QP are settled (R520, R522, R523, R529). -/
def State.startPic (s : State) (c : Nat) : State :=
  let h := s.pcChan c
  match s.pic? c with
  | none => s
  | some p =>
    let idr := h.needIdr || decide (s.fld (pcReg c + 4) 25 16 ≤ h.pCount)
    let (qp, fill, qpP) := rateQp (s.word (pcReg c + 8)) (s.word (pcReg c + 12)) h idr p.stamp.ns
    let s1 := s.modChan c (fun h => { h with
      poc := if idr then (h.poc + 65536 - p.poc) % 65536 else h.poc
      needIdr := (!idr && h.needIdr)
      pCount := if idr then 0 else h.pCount + 1
      fill := fill
      qpP := qpP
      lastNs := p.stamp.ns
      lastQp := qp
      pics := (if idr then h.pics.map (fun q => { q with poc := (q.poc + 65536 - p.poc) % 65536 }) else h.pics).modify 0
        (fun p => { p with
          started := true, idr := idr, ref := h.ref.map (·.1), refLit := (h.ref.map (·.2)).getD false, qp := qp,
          rowQp := qp, fillStart := fill, rc := s.word (pcReg c + 8), rate := s.word (pcReg c + 12) }) })
    let s2 := if idr then s1.openClip c p.geom p.stamp else s1
    match (s2.pcChan c).clip with
    | none => s2.modPic c (fun p => { p with cut := true })
    | some id => match s2.clip? id with
      | none => s2
      | some k => s2.modPic c (fun p => { p with
          clip := some id, offset := k.stream.length, dtUs := (p.stamp.tick - k.first.tick) / usT,
          tUs := k.first.tick / usT + (p.stamp.tick - k.first.tick) / usT })

/-- The bytes of a picture written so far. -/
def State.picBytes (s : State) (p : Pic) : Nat :=
  match p.clip with
  | some id => match s.clip? id with | some k => k.stream.length - p.offset | none => 0
  | none => 0

/-- The QP of the next row of a picture, by the rate control registers as they stood at its start (R530, R549). -/
def State.nextRowQp (s : State) (p : Pic) : Nat :=
  let done := p.s3At.length
  let vbv := bits p.rate 17 4 * 1000 * 1000000
  if done = 0 ∨ !bitOf p.rc 31 then p.qp
  else if (vbv - p.fillStart) * done < 8 * s.picBytes p * p.rows * 1000000 then min (min (p.rowQp + 1) (p.qp + 3)) 51
  else p.qp

/-! ### The stages (R524, R525) -/

/-- When the next row of a picture became ready for S2. -/
def Pic.ready2 (p : Pic) : Option Nat := if p.s2At.length < p.rows then p.inAt[p.s2At.length]? else none

/-- When the next row became ready for S3. -/
def Pic.ready3 (p : Pic) : Option Nat := if p.s3At.length < p.rows then p.s2At[p.s3At.length]? else none

/-- When the next row became ready for S5: row r when S3 has finished row r + 1, the last row after its own S3. -/
def Pic.ready5 (p : Pic) : Option Nat :=
  if p.rows ≤ p.s5 then none
  else if p.s5 + 1 < p.rows then p.s3At[p.s5 + 1]?
  else (p.s3At[p.s5]?).map (max p.cutAt)

/-- The channel whose next row a stage takes: the row that became ready first, and of those ready together that of
the lowest channel (R524, R549). -/
def State.pickRow (s : State) (f : Pic → Option Nat) : Option Nat :=
  ((List.range 4).foldl (fun (best : Option (Nat × Nat)) c =>
    match (s.pic? c).bind f, best with
    | some t, some (t0, _) => if t < t0 then some (t, c) else best
    | some t, none => some (t, c)
    | none, _ => best) none).map (·.2)

/-- Each idle stage takes the row that is its turn. -/
def State.stagesFollow (s : State) : State :=
  let s1 := if s.main.pc.s5.isSome then s else s.modPc (fun p => { p with s5 := s.pickRow Pic.ready5 })
  let s2 := if s1.main.pc.s3.isSome then s1 else
    match s1.pickRow Pic.ready3 with
    | none => s1
    | some c => (s1.modPc (fun p => { p with s3 := some c })).modPic c (fun p =>
        let rowQp := s1.nextRowQp p
        let main (l : List Nat) : List Nat := if p.geom.main then l.map (fun v => min ((v + 2) / 4) 255) else l
        { p with rowQp := rowQp, coding := (p.ring.take 32).map (fun l => { l with y := main l.y, cb := main l.cb, cr := main l.cr }) })
  if s2.main.pc.s2.isSome then s2 else
    match s2.pickRow Pic.ready2 with
    | none => s2
    | some c =>
      let s3 := s2.modPc (fun p => { p with s2 := some c })
      if ((s3.pic? c).map (·.started)).getD true then s3 else s3.startPic c

/-- What S2_ROW_DONE does. -/
def State.s2RowDone (s : State) : State :=
  match s.main.pc.s2 with
  | none => s
  | some c => (s.modPc (fun p => { p with s2 := none })).modPic c (fun p => { p with s2At := p.s2At ++ [s.now] })

/-- A motion field entry (Table WA-2). -/
def fieldEntry (valid repaired : Bool) (e : Int × Int × Nat) : Nat :=
  if valid then 2 ^ 31 + b2n repaired * 2 ^ 30 + ofSigned 11 e.1 * 2 ^ 19 + ofSigned 10 e.2.1 * 2 ^ 9 + min 511 (e.2.2 / 128)
  else b2n repaired * 2 ^ 30

/-- The motion field entries of the CTB row that S3 finishes (R528, R557). -/
def Pic.fieldRow (p : Pic) (entries : List (Int × Int × Nat)) : List Nat :=
  let a := p.geom.across
  let r := p.s3At.length
  (List.range (a * (min (2 * r + 2) p.geom.down - 2 * r))).map (fun i =>
    let row := 2 * r + i / a
    fieldEntry p.ref.isSome (p.repaired.any (fun l => l / 16 == row)) (at? entries i (0, 0, 0)))

/-- A picture is marked NOREF, once (R533, R549). -/
def State.markNoref (s : State) (c kind : Nat) : State :=
  match s.pic? c with
  | none => s
  | some p =>
    if p.noref then s
    else (((s.modPic c (fun p => { p with noref := true })).count (pcReg c + 20) 23 16).pcEvent c kind p.clip p.poc)

/-- A plane's samples cut into lines. -/
def linesOf (w : Nat) (l : List Nat) : List (List Nat) := (List.range (l.length / w)).map (fun i => (l.drop (w * i)).take w)

/-- What the search of the row in S3 reads: the row's samples with its coarser levels, and the reference as stored with
the search copy (R527). -/
def PcChan.searchIn (h : PcChan) (p : Pic) : SearchIn :=
  let cur := p.coding.map (·.y)
  let ten (l : List (List Nat)) : List (List Nat) := if p.geom.main then l.map (·.map (· * 4)) else l
  let h2 := halve cur.length (ten cur)
  let top (l : List (List Nat)) : List (List Nat) := l.map (·.map (· / 4))
  { cur := cur, cur2 := top h2, cur4 := top (halve h2.length h2), top := 32 * p.s3At.length,
    ref := h.refRows.flatMap (fun r => linesOf p.geom.w r.1), ref2 := h.half, ref4 := h.quarter,
    depth := if p.geom.main then 8 else 10 }

/-- The search of the regions of the row in S3, in raster order: vectors and SADs; `preds` are the AMVP predictors
that coding the row gave its regions, in quarter samples (R527, R528). Nothing is searched without a reference. -/
def State.searchRow (s : State) (c : Nat) (p : Pic) (preds : List (Int × Int)) : State × List (Int × Int × Nat) :=
  if p.ref.isNone then (s, [])
  else
    let x := (s.pcChan c).searchIn p
    let a := p.geom.across
    let n := a * (min (2 * p.s3At.length + 2) p.geom.down - 2 * p.s3At.length)
    ({ s with freeIdx := s.freeIdx + 4 * n },
      (List.range n).map (fun i => searchRegion x (i % a) (i / a) (at? preds i (0, 0)) (fun k => Config.free (s.freeIdx + 4 * i + k))))

/-- S3 finishes a row: the slot is released, the row's bytes are written by S4, and the row's motion field leaves
(R524, R527, R528, R539). -/
def State.s3Row (s : State) (bytes : List Byte) (preds : List (Int × Int)) (poison : Option Nat) : State :=
  match s.main.pc.s3 with
  | none => s
  | some c =>
    match s.pic? c with
    | none => s.modPc (fun p => { p with s3 := none })
    | some p =>
      let (s0, entries) := s.searchRow c p preds
      let s1 := (s0.modPc (fun p => { p with s3 := none })).modPic c (fun p => { p with
        field := p.field ++ p.fieldRow entries
        s3At := p.s3At ++ [s.now]
        ring := p.ring.drop 32
        ringRow := p.ringRow + 1
        coding := [] })
      let s2 := if p.cut then s1 else (s1.store c bytes []).1
      match poison with
      | none => s2
      | some w =>
        ((s2.modMem (fun m => { m with poison := w :: m.poison.filter (· != w) })).poisonedRead (8 * w)
          (s2.main.mm.physical (w / 16384)) 0x0C).markNoref c 3

/-- A picture has completed S5: its SEI and its record are written, and the reference is released (R521 to R523,
R529, R530, R539). -/
def State.completePic (s : State) (c : Nat) : State :=
  match s.pic? c with
  | none => s
  | some p =>
    let nal := seiNal (s.seiPayload c p)
    let size := s.picBytes p + nal.length
    let flags := b2n p.idr * 128 + b2n p.truncated * 64 + b2n p.noref * 16 + recFlags p.stamp.flags
    let (s1, ok) := if p.cut then (s, false) else
      s.store c nal [⟨p.stamp.tick, p.offset, size, flags, p.dtUs, p.stamp.angle, p.rows, p.qp⟩]
    let good := ok && !p.truncated && !p.noref
    let s2 := s1.modChan c (fun h => { h with
      pics := (h.pics.drop 1).modify 0 (fun q => { q with inAt := q.inAt.map (max s.now) })
      needIdr := (h.needIdr || !good)
      ref := if good then some (p.no, p.lit) else none
      refRows := p.refRows
      half := p.half
      quarter := p.quarter })
    if !ok then s2
    else
      let s3 := s2.count (pcReg c + 16) 31 16
      let s4 := if p.byDisable then (s3.count (pcReg c + 16) 7 0).pcEvent c 0 p.clip p.poc else s3
      if !bitOf p.rc 31 then s4
      else
        let fill := (s4.pcChan c).fill + 8 * size * 1000000
        let s5 := s4.modChan c (fun h => { h with fill := fill })
        if bits p.rate 17 4 * 1000 * 1000000 < fill then s5.count (pcReg c + 20) 7 0 else s5

/-- What S5_ROW_DONE does: the filtered row joins the reconstruction, is stored in the reference, lean where the
channel codes lean, and the search copy; a row with more escapes than its slot holds makes the picture NOREF (R531,
R533, R539). -/
def State.s5RowDone (s : State) (y cb cr : List (List Nat)) : State :=
  match s.main.pc.s5 with
  | none => s
  | some c =>
    match s.pic? c with
    | none => s.modPc (fun p => { p with s5 := none })
    | some p =>
      let g := p.geom
      let (ly, ey) := leanPlane y.length y
      let (lcb, ecb) := leanPlane cb.length cb
      let (lcr, ecr) := leanPlane cr.length cr
      let overrun := decide (3 * g.wc * 2 ^ g.esc / 16 < (ey ++ ecb ++ ecr).length)
      let row := if g.lean then (ly.flatten, lcb.flatten, lcr.flatten) else (y.flatten, cb.flatten, cr.flatten)
      let stored := if g.lean then ly else y
      let h1 := halve stored.length (if g.main then stored.map (·.map (· * 4)) else stored)
      let top (l : List (List Nat)) : List (List Nat) := l.map (·.map (· / 4))
      let s1 := (s.modPc (fun p => { p with s5 := none })).modPic c (fun p => { p with
        s5 := p.s5 + 1
        recY := p.recY ++ y.flatten
        recCb := p.recCb ++ cb.flatten
        recCr := p.recCr ++ cr.flatten
        refRows := p.refRows ++ [row]
        half := p.half ++ top h1
        quarter := p.quarter ++ top (halve h1.length h1) })
      let s2 := if g.lean ∧ overrun then s1.markNoref c 2 else s1
      if p.rows ≤ p.s5 + 1 then s2.completePic c else s2

/-! ### Enabling and disabling (R536, R546, R548) -/

/-- PC_Cc_CFG.EN, without the shed of the reserve (R546). -/
def State.pcWanted (s : State) (c : Nat) : Bool :=
  s.main.out && s.bit (pcReg c) 31 && !(s.hearth.onReserve && s.bit 0x010064 0)

/-- Whether the pool holds a channel's buffers with the clip store at CLIP_MIN or above, and clips can be
overwritten for them (R536, R540). -/
def State.pcFits (s : State) (c : Nat) (g : PcGeom) : Bool :=
  let own := (s.pcChan c).mem
  let left := 1024 * s.poolKib + own - s.main.pc.taken - g.chanBytes
  decide (s.main.pc.taken + g.chanBytes + s.clipMin ≤ 1024 * s.poolKib + own)
    && (makeRoom s.main.pc.clips.length left 0 s.main.pc).isSome

/-- A channel is enabled: it takes its buffers, and rate control starts afresh (R522, R529, R536). -/
def State.pcEnable (s : State) (c : Nat) : State :=
  let g := geomOf (s.word (pcReg c))
  if !s.pcFits c g then s
  else
    let s1 := s.modChan c (fun h => { h with on := true, mem := g.chanBytes, needIdr := true, ref := none, fill := 0,
                                             qpP := s.fld (pcReg c + 8) 21 16, pCount := 0, lastCap := none })
    (s1.room 0).getD s1

/-- A channel is disabled (R548): the picture in hand ends at the last row coded, the row in S3 included; a picture
of which no row was coded is recorded as skipped. -/
def State.pcDisable (s : State) (c : Nat) : State :=
  let s0 := s.modChan c (fun h => { h with on := false, needIdr := true })
  let s1 := if 1 < (s0.pcChan c).pics.length then s0.skipPic c else s0
  match s1.pic? c with
  | none => s1
  | some p =>
    let rows := p.s3At.length + b2n (s.main.pc.s3 == some c)
    let s2 := if s1.main.pc.s2 = some c then s1.modPc (fun p => { p with s2 := none }) else s1
    if rows = 0 then s2.skipPic c
    else s2.modPic c (fun p => { p with
      rows := rows
      cutAt := s.now
      capturing := false
      truncated := true
      byDisable := true
      lines := rows * 32
      ring := p.ring.take ((rows - p.ringRow) * 32)
      inAt := p.inAt.take rows
      s2At := p.s2At.take rows })

/-- Clips of the store overwritten, oldest first, while it is over its size; the number bounds the steps. -/
def shrink : Nat → Nat → Picture → Picture
  | 0, _, p => p
  | k + 1, cap, p =>
    if p.used ≤ cap then p
    else match p.clips.find? p.spare with
      | some c => shrink k cap { p with clips := p.clips.erase c }
      | none => p

/-- A channel follows EN and the shed; one that is off with no picture in hand closes its clip and gives up its
buffers. -/
def State.pcFollowChan (s : State) (c : Nat) : State :=
  let h := s.pcChan c
  let s1 := if h.on && !s.pcWanted c then s.pcDisable c
    else if !h.on && s.pcWanted c then s.pcEnable c else s
  let h1 := s1.pcChan c
  if !h1.on && h1.pics.isEmpty && (h1.clip.isSome || h1.mem != 0) then
    (s1.closeClip c false 1).modChan c (fun h => { h with mem := 0, ref := none, refRows := [], half := [], quarter := [] })
  else s1

/-! ### The decoder (R537, R544, R545, R550) -/

/-- A decode ends: PC_DEC_END, its reply, and its space back (R545, R550). -/
def State.endDecode (s : State) (status cls ctb : Nat) : State :=
  match s.main.pc.dec with
  | none => s
  | some d =>
    let s1 := s.modPc (fun p => { p with dec := none, decStopped := decide (status ≠ 0) })
    let s2 := if status = 0 then s1 else s1.setWord 0x0C0200 (d.next % 65536 * 65536 + ctb % 65536)
    (s2.notify 0x0C03 false (be 2 status ++ [byte cls] ++ be 2 d.out ++ be 2 d.next ++ be 2 ctb)).finish d.op status []

/-- A decode is stopped: ABORTED, at a CTB of its picture that nothing fixes (R550). -/
def State.stopDecode (s : State) : State :=
  let (f, s1) := s.draw
  s1.endDecode 0x0012 0 (f % 1200)

/-- The records of a decode from its next picture on that name coded pictures; after a picture that cannot be a
reference, decoding resumes at the next IDR picture (R545). -/
def Dec.skipTo (d : Dec) : Dec :=
  let n := ((d.records.drop d.next).takeWhile (fun r => r.size == 0)).length
  { d with next := d.next + n }

/-- What DECODE_PICTURE_DONE does (R544, R545). -/
def State.decodePictureDone (s : State) (r : DecResult) : State :=
  match s.main.pc.dec with
  | none => s
  | some d0 =>
    let d := d0.skipTo
    let s0 := s.modPc (fun p => { p with dec := some { d with scanning := false } })
    match r with
    | .unsupported cls ctb => s0.endDecode 0x0C04 cls ctb
    | .damaged cls ctb => s0.endDecode 0x0C05 cls ctb
    | .picture y cb cr last =>
      let rec? := d.records[d.next]?
      let au := match rec?, d.clip.bind s.clip? with
        | some q, some k => (k.stream.drop q.offset).take q.size
        | _, _ => []
      let crcBad := match seiOf au with | some p => field p 32 4 != recCrc y cb cr | none => false
      let noRef := match rec? with | some q => !bitOf q.flags 7 && !d.refOk | none => false
      if d.clip.isSome && rec?.isNone then s0.endDecode 0 0 0
      else if noRef then s0.endDecode 0x0C05 0x12 0
      else if crcBad then s0.endDecode 0x0C05 0x13 0
      else
        let (f, s1) := if rec?.isSome then ([], s0) else s0.drawBytes 16
        let head := match rec? with | some q => q.bytes | none => f
        let us := unitsOf 2 (d.clip.getD 0xFFFF) d.seq (s.unitSize d.dest) (head ++ (y ++ cb ++ cr).flatMap (be 2))
        let refOk := match rec? with | some q => !bitOf q.flags 6 && !bitOf q.flags 4 | none => true
        let d1 := Dec.skipTo { d with scanning := false, next := d.next + 1, out := d.out + 1, seq := d.seq + us.length,
                                      refOk := refOk }
        let s2 := s1.modPc (fun p => { p with
          dec := some d1
          xfers := p.xfers ++ [⟨none, 0, d.dest, us, 0, d.clip, false, false⟩] })
        if (if d.clip.isSome then decide (d.records.length ≤ d1.next) else last) then s2.endDecode 0 0 0 else s2

/-! ### Registers and opcodes (R549, R553, R554) -/

/-- Whether a PC_Cc_CFG word may be written: LEAN with PROFILE 1 is reserved, and while EN is 1 only EN may change
(R549, Table PC-17). -/
def pcCfgLegal (old new : Nat) : Bool :=
  !(bitOf new 29 && bitOf new 30) && (!bitOf old 31 || old % 2 ^ 31 == new % 2 ^ 31)

/-- Whether a write that sets EN finds its memory (R536). -/
def State.pcCfgFits (s : State) (c old new : Nat) : Bool := bitOf old 31 || !bitOf new 31 || s.pcFits c (geomOf new)

/-- PC_STATUS as it reads, with one bit for each channel enabled (log entry 142). -/
def State.pcStatusWord (s : State) : Nat :=
  let p := s.main.pc
  p.clips.length % 65536 * 65536 + ((List.range 4).map (fun c => b2n (at? p.chans c {}).on * 2 ^ c)).sum * 256
    + (match p.dec with | some d => if d.scanning then 1 else 2 | none => if p.decStopped then 3 else 0) * 64

/-- PC_STORE as it reads. -/
def State.pcStoreWord (s : State) : Nat := s.storeBytes / 1024 * 65536 + s.main.pc.lockedBytes / 1024

/-- PC_Cc_STAT as it reads. -/
def State.pcStatWord (s : State) (c : Nat) : Nat :=
  let h := s.pcChan c
  let st := if !h.on then 0 else if 1 < h.pics.length then 1 else if ((s.pic? c).map (·.started)).getD false then 2 else 3
  st * 2 ^ 30 + h.lastQp * 2 ^ 24 + h.clip.getD 0

/-- PC_STATUS. -/
def opPcStatus (op : Nat) (p : List Byte) (s : State) : State :=
  if p ≠ [] then s.finish op 0x0004 []
  else s.finish op 0 (be 4 s.pcStatusWord ++ be 4 s.pcStoreWord ++ (List.range 4).flatMap (fun c =>
    be 4 (s.pcStatWord c) ++ be 4 (s.word (pcReg c + 16)) ++ be 4 (s.word (pcReg c + 20)) ++ be 4 (s.pcChan c).mem))

/-- PC_BUDGET: a channel's bytes, and what the clip store would have left. -/
def opPcBudget (op : Nat) (p : List Byte) (s : State) : State :=
  let w := field p 0 4
  let n := (geomOf w).chanBytes
  if p.length ≠ 4 then s.finish op 0x0004 []
  else if !regLegal (regFields (pcReg 0)) w || (bitOf w 29 && bitOf w 30) || bits w 25 24 != 0 || bits w 7 4 != 0 then s.finish op 0x0005 []
  else s.finish op 0 (be 4 n ++ be 4 (s.storeBytes - n))

/-- PC_FORCE_IDR: the next picture is IDR (R522, R549). -/
def opPcForceIdr (op : Nat) (p : List Byte) (s : State) : State :=
  let c := field p 0 1
  if p.length ≠ 1 then s.finish op 0x0004 []
  else if 3 < c then s.finish op 0x0005 []
  else if !(s.pcChan c).on then s.finish op 0x0010 []
  else (s.modChan c (fun h => { h with needIdr := true })).finish op 0 []

/-- PC_DEC_LOAD: OFFSET 4, DATA; up to 256 KiB. -/
def opPcDecLoad (op : Nat) (p : List Byte) (s : State) : State :=
  let off := field p 0 4
  let d := p.drop 4
  if p.length < 5 ∨ 4094 < p.length then s.finish op 0x0004 []
  else if 262144 < off + d.length then s.finish op 0x0005 []
  else if s.main.pc.dec.isSome then s.finish op 0x0C06 []
  else (s.modPc (fun x => { x with load := putAt (x.load ++ List.replicate (off - x.load.length) 0#8) off d })).finish op 0 []

/-- The geometry that the parameter sets of a loaded stream give: free, within Table PC-1 (log entry 2). -/
def loadedGeom (b : List Byte) : PcGeom :=
  let f := Config.streamGeom (ofBe b)
  let main := f / 32768 % 2 == 1
  { w := 8 * (8 + f % 153), h := 8 * (8 + f / 256 % 113), main := main, lean := !main && f / 65536 % 2 == 1, esc := f / 131072 % 4 }

/-- PC_DECODE: CLIP 2, LENGTH 4 with the loaded stream, DEST 1; it replies at the end (R537, R544). -/
def opPcDecode (op : Nat) (p : List Byte) (s : State) : State :=
  let id := field p 0 2
  let loaded := decide (id = 0xFFFF)
  let len := field p 2 4
  let dest := field p 6 1
  let k := s.clip? id
  if p.length ≠ 7 then s.finish op 0x0004 []
  else if dest < 1 ∨ 2 < dest ∨ (loaded ∧ (len < 1 ∨ s.main.pc.load.length < len)) then s.finish op 0x0005 []
  else if s.main.pc.dec.isSome then s.finish op 0x0C06 []
  else if !loaded ∧ k.isNone then s.finish op 0x0C01 []
  else if s.noExport dest then s.finish op 0x0C07 []
  else
    let g := match loaded, k with | false, some c => c.geom | _, _ => loadedGeom (s.main.pc.load.take len)
    let recs := match loaded, k with | false, some c => c.records | _, _ => []
    let d : Dec := { op := op, clip := if loaded then none else some id, dest := dest, mem := g.decBytes, records := recs }
    let s1 := s.modPc (fun x => { x with dec := some d, decStopped := false })
    if 1024 * s.poolKib < s1.main.pc.taken then s.finish op 0x0C00 []
    else match s1.room 0 with
      | none => s.finish op 0x0C00 []
      | some s2 => s2

/-- PC_DEC_STOP (R550). -/
def opPcDecStop (op : Nat) (p : List Byte) (s : State) : State :=
  if p ≠ [] then s.finish op 0x0004 []
  else if s.main.pc.dec.isNone then s.finish op 0x000E []
  else s.stopDecode.finish op 0 []

/-- The coder follows its registers, the shed and the store: channels and stages take what is theirs, and transfers
go on. -/
def State.pcFollow (s : State) : State :=
  if !s.main.out then s
  else
    let s1 := (List.range 4).foldl State.pcFollowChan s
    let s2 := if s1.main.pc.dec.isSome && s1.hearth.onReserve && s1.bit 0x010064 0 then s1.stopDecode else s1
    let s3 := s2.modPc (fun p => shrink p.clips.length s2.storeBytes p)
    s3.stagesFollow.xferPump

end Sys2Proof.Machine
end

