-- ==== Sys2Proof/Machine/Watch.lean ====
section
/-! DEFINITION. Watch (17): triggers and captures, infrared lamps, the motion field, intrusion zones, disc readers, and
the WA opcodes. -/

namespace Sys2Proof.Machine

/-! ### Channels -/

/-- Watch changed by a function. -/
def State.modWa (s : State) (f : Watch → Watch) : State := { s with main := { s.main with wa := f s.main.wa } }

/-- A channel of Watch. -/
def State.waChan (s : State) (c : Nat) : WaChan := at? s.main.wa.chans c {}

/-- A channel of Watch changed by a function. -/
def State.modCam (s : State) (c : Nat) (f : WaChan → WaChan) : State :=
  s.modWa (fun w => { w with chans := w.chans.modify c f })

/-- A disc reader. -/
def State.reader (s : State) (d : Nat) : Reader := at? s.main.wa.readers d {}

/-- A disc reader changed by a function. -/
def State.modReader (s : State) (d : Nat) (f : Reader → Reader) : State :=
  s.modWa (fun w => { w with readers := w.readers.modify d f })

/-- WA_Cc_CAM, the first of a channel's registers. -/
def waReg (c : Nat) : Nat := 0x0D0100 + 64 * c

/-- WA_Dd_CFG, the first of a reader's registers. -/
def discReg (d : Nat) : Nat := 0x0D0800 + 32 * d

/-! ### Notices (R561, R569, R572, R579) -/

/-- The stamp of a capture now (R236, R561): network time, and the angle of the phase that the entry names, or the
reference angle. -/
def State.capStamp (s : State) (entry : Option Nat) : CapStamp :=
  let n := s.main.nt
  let v := s.main.ma.angleValid
  let p := match entry with | some e => bits (s.entCfg e).1 11 10 | none => s.refPhase
  let ph := v && s.main.ma.isPhantom p
  { time := be 6 n.sec ++ be 4 n.ns, angle := (s.angle + 65536 - s.offsetOf p) % 65536,
    flags := b2n ph * 8 + b2n v * 16 + b2n s.main.sk.timeLoose * 32 + b2n (n.servo == .free) * 64,
    tick := s.now, ns := n.totalNs }

/-- The 16-byte prefix of a result that carries a capture's stamp (Table CMD-5). -/
def capPrefix (st : CapStamp) : List Byte :=
  st.time.take 6 ++ be 4 (b2n (bitOf st.flags 5) * 2 ^ 31 + b2n (bitOf st.flags 6) * 2 ^ 30 + field st.time 6 4)
    ++ be 2 st.angle ++ [0x0D#8, byte (b2n (bitOf st.flags 4) * 128 + b2n (bitOf st.flags 3) * 64), 0#8, 0#8]

/-- A Watch result reported with the stamp of its capture. -/
def State.waNotify (s : State) (code : Nat) (alarm : Bool) (st : CapStamp) (contents : List Byte) : State :=
  s.raise { code := code, member := s.self, alarm := alarm, bytes := capPrefix st ++ contents, ev := { time := s.eventTime } }

/-- The notice WA_CAMERA with a capture's stamp (R561): kind 0 lost, 1 returned, 2 blind. -/
def State.camNotice (s : State) (c kind : Nat) (st : CapStamp) : State :=
  s.waNotify 0x0D03 (kind != 1) st [byte c, byte kind, byte (s.waChan c).mean]

/-! ### Lamps (R562 to R564) -/

/-- The lamp is lit; one that is still lit stays lit from its first lighting (R564). -/
def State.lampLight (s : State) (c : Nat) : State :=
  s.modCam c (fun h => { h with lit := true, litAt := if h.lit then h.litAt else s.now })

/-- The lamp goes dark. -/
def State.lampDark (s : State) (c : Nat) : State := s.modCam c (fun h => { h with lit := false })

/-- Whether the lamp is in use for a channel's next capture: mode 1, or mode 2 after a dark ambient test and not for
an ambient test (R562). -/
def State.lampInUse (s : State) (c : Nat) : Bool :=
  let mode := s.fld (waReg c + 12) 31 30
  let h := s.waChan c
  mode == 1 || (mode == 2 && h.inUse2 && (h.accepted + 1) % 64 != 0)

/-- The lamp-on position of a channel whose lamp leads its entry (R563). -/
def State.lampPos (s : State) (c : Nat) : Option Nat :=
  if s.bit (waReg c + 12) 20 then
    (s.entIssue (s.fld (waReg c + 12) 29 21)).map (fun i =>
      issueOf i ((s.fld (waReg c + 12) 15 0 * s.main.ma.freq + 2 ^ 23) / 2 ^ 24))
  else none

/-- Whether the lamp's entry will fire its capture on this channel (R250, R563). -/
def State.lampWill (s : State) (c : Nat) : Bool :=
  let cfg := s.entCfg (s.fld (waReg c + 12) 29 21)
  s.lampInUse c && s.main.boot.local9 && s.main.ma.angleValid && s.entAllowed cfg.2 && bits cfg.1 15 12 == 2
    && bits cfg.1 1 0 == c && s.pcWanted c && s.bit (waReg c) 31

/-- What LAMP_ON does: the lamp-on position is reached (R563). -/
def State.lampOn (s : State) (c : Nat) : State :=
  let key := s.entHeld (s.fld (waReg c + 12) 29 21)
  match s.lampPos c with
  | none => s
  | some i =>
    if s.reached i && s.lampWill c && (s.waChan c).lampDone != key then
      (s.lampLight c).modCam c (fun h => { h with lampDone := key })
    else s

/-- A contact position newly taken by the lamp's entry: where its lamp-on position has already passed, the lamp is lit
at once (R563). -/
def State.lampFollow (s : State) (c : Nat) : State :=
  let key := s.entHeld (s.fld (waReg c + 12) 29 21)
  let h := s.waChan c
  match s.lampPos c with
  | none => s
  | some i =>
    if h.lampSeen == key then s
    else
      let s1 := s.modCam c (fun h => { h with lampSeen := key })
      if s.reached i && s.lampWill c && h.lampDone != key then (s1.lampOn c).count (waReg c + 28) 23 16 else s1

/-- What LAMP_MAX does (R564). -/
def State.lampMax (s : State) (c : Nat) : State :=
  let h := s.waChan c
  if h.lit && decide (h.litAt + s.fld (waReg c + 16) 23 16 * msT ≤ s.now) then
    (s.lampDark c).count (waReg c + 28) 15 8
  else s

/-! ### Triggers (R558, R559, R564) -/

/-- A trigger is accepted (R558, R576, R580): EN and CAM_ON, no capture in progress, no shed, and the camera's reset
10 ms past. -/
def State.trigOk (s : State) (c : Nat) : Bool :=
  (s.pcChan c).on && s.bit (waReg c) 31 && (s.waChan c).cap == .idle
    && (match (s.waChan c).rst with | some t => decide (t + 10 * msT ≤ s.now) | none => false)

/-- A capture triggered on a channel by a schedule entry, a compare unit, or WA_CAPTURE (R558, R559, R562, R564). -/
def State.capture (c : Nat) (entry op : Option Nat) (s : State) : State :=
  if !s.trigOk c then s.count (waReg c + 24) 31 24
  else
    let w := s.word (waReg c)
    let use := s.lampInUse c
    let lead := s.bit (waReg c + 12) 20 && entry == some (s.fld (waReg c + 12) 29 21)
    let lit := use && !lead
    let delay := if lit then s.fld (waReg c + 12) 15 0 * usT else 0
    let bytes := byte (2 * bits w 26 20) :: (be 4 (s.word (waReg c + 4)) ++ be 4 (s.word (waReg c + 8))).take (bits w 19 17)
    let ambient := s.fld (waReg c + 12) 31 30 == 2 && ((s.waChan c).accepted + 1) % 64 == 0
    let s1 := (s.pcTrigger c).modCam c (fun h => { h with
      cap := .awaiting
      trigAt := s.now
      entry := entry
      op := op
      line := 0
      above := none
      ysum := 0
      geom := geomOf (s.word (pcReg c))
      accepted := h.accepted + 1
      ambient := ambient
      write := if bitOf w 28 then h.write else some (s.now + delay, bytes) })
    if lit then s1.lampLight c else s1

/-- A capture ends at its frame end or its timeout; the lamp goes dark (R558, R564). -/
def State.capEnd (s : State) (c : Nat) : State :=
  (s.modCam c (fun h => { h with cap := .idle, entry := none, op := none, ambient := false })).lampDark c

/-! ### Frames and lines (R555 to R557, R560, R561, R565) -/

/-- What FRAME_START does. -/
def State.frameStart (s : State) (c vc : Nat) : State :=
  if 4 ≤ c ∨ !s.main.out then s
  else if vc ≠ 0 then s.count (waReg c + 24) 15 8
  else
    let now := s.capStamp (s.waChan c).entry
    let s0 := if (s.waChan c).lost then (s.modCam c (fun h => { h with lost := false })).camNotice c 1 now else s
    let h := s0.waChan c
    match h.cap with
    | .idle => (s0.modCam c (fun h => { h with noFrame := 0 })).count (waReg c + 28) 31 24
    | .receiving => s0
    | .awaiting =>
      let s1 := (s0.modCam c (fun h => { h with cap := .receiving, noFrame := 0, op := none, picLit := h.lit, stamp := now })).pcFrame
        c now h.lit
      s1.finish? h.op 0 (now.time ++ be 2 now.angle ++ [byte now.flags])

/-- A line repaired: the line above it, or mid-grey for line 0 (R557). -/
def repairLine (g : PcGeom) (above : Option PLine) : PLine :=
  match above with
  | some l => { l with repaired := true }
  | none => ⟨List.replicate g.w 512, List.replicate (g.w / 2) 512, List.replicate (g.w / 2) 512, true⟩

/-- A line as it enters the ring (Table WA-1): for RAW10 the chroma is 512; for YUV422 the chroma of a pair of lines
is combined on the second. -/
def convertLine (dt : Nat) (g : PcGeom) (n : Nat) (above : Option PLine) (l : PLine) : PLine :=
  let grey := List.replicate (g.w / 2) 512
  match dt with
  | 0 => { l with cb := if n % 2 = 1 then grey else [], cr := if n % 2 = 1 then grey else [] }
  | 2 =>
    if n % 2 = 0 then { l with cb := [], cr := [] }
    else
      let a := above.getD l
      { l with cb := List.zipWith (fun x y => (x + y + 1) / 2) a.cb l.cb, cr := List.zipWith (fun x y => (x + y + 1) / 2) a.cr l.cr }
  | _ => l

/-- A line of the frame in progress: counted, repaired where it is bad, and into the ring (R556, R557). -/
def State.takeLine (s : State) (c : Nat) (l : Option PLine) : State :=
  let h := s.waChan c
  let raw := l.getD (repairLine h.geom h.above)
  let s1 := if l.isNone then s.count (waReg c + 24) 7 0 else s
  let conv := convertLine (s.fld (waReg c) 30 29) h.geom h.line h.above raw
  (s1.modCam c (fun h => { h with
    line := h.line + 1
    above := some { raw with repaired := false }
    ysum := h.ysum + (raw.y.map (· / 4)).sum })).ringLine c conv

/-- The CSI-2 data type of a DT code (Table WA-1). -/
def csiType (dt : Nat) : Nat := if dt = 0 then 0x2B else if dt = 1 then 0x19 else 0x1F

/-- What LINE_RECEIVED does. -/
def State.lineReceived (s : State) (c vc dtype : Nat) (bad : Bool) (y cb cr : List Nat) : State :=
  let h := s.waChan c
  if 4 ≤ c ∨ !s.main.out then s
  else if vc ≠ 0 ∨ dtype ≠ csiType (s.fld (waReg c) 30 29) then s.count (waReg c + 24) 15 8
  else if h.cap ≠ .receiving then s
  else if h.geom.h ≤ h.line then s.count (waReg c + 24) 15 8
  else s.takeLine c (if bad ∨ y.length ≠ h.geom.w then none else some ⟨y, cb, cr, false⟩)

/-- The lines that an early frame end leaves out, repaired (R557). -/
def State.missingLines (c : Nat) : Nat → State → State
  | 0, s => s
  | k + 1, s => State.missingLines c k (s.takeLine c none)

/-- What FRAME_END does: the capture ends, its mean luma is taken, and a dark picture taken with the lamp lit is
reported (R557, R562, R564, R565). -/
def State.frameEnd (s : State) (c vc : Nat) : State :=
  if 4 ≤ c ∨ !s.main.out then s
  else if vc ≠ 0 then s.count (waReg c + 24) 15 8
  else if (s.waChan c).cap ≠ .receiving then s
  else
    let h0 := s.waChan c
    let s1 := State.missingLines c (h0.geom.h - h0.line) s
    let h := s1.waChan c
    let mean := h.ysum / (h.geom.w * h.geom.h)
    let dark := h.picLit && decide (mean < s.fld (waReg c + 16) 7 0)
    let s2 := s1.modCam c (fun h => { h with
      mean := mean
      inUse2 := if h.ambient then decide (mean < s.fld (waReg c + 16) 31 24) else h.inUse2
      blind := if h.picLit then dark else h.blind })
    let s3 := if dark && !h.blind then s2.camNotice c 2 h.stamp else s2
    s3.capEnd c

/-- What FRAME_TIMEOUT does: no frame start within FS_TMO_MS of the trigger (R560). -/
def State.frameTimeout (s : State) (c : Nat) : State :=
  let h := s.waChan c
  if 4 ≤ c ∨ h.cap ≠ .awaiting ∨ s.now < h.trigAt + s.fld (waReg c) 15 0 * msT then s
  else
    let s1 := ((s.count (waReg c + 24) 23 16).skipRecord c (s.capStamp h.entry)).finish? h.op 0x0012 []
    let s2 := (s1.modCam c (fun h => { h with noFrame := h.noFrame + 1 })).capEnd c
    if (s2.waChan c).noFrame = 3 then (s2.modCam c (fun h => { h with lost := true })).camNotice c 0 (s.capStamp h.entry) else s2

/-! ### Zones (R567 to R569) -/

/-- VALID, REPAIRED, MVX, MVY and COST of a motion field entry (Table WA-2). -/
def fValid (e : Nat) : Bool := bitOf e 31
/-- REPAIRED. -/
def fRepaired (e : Nat) : Bool := bitOf e 30
/-- MVX in quarter samples. -/
def fMvx (e : Nat) : Int := toSigned 11 (bits e 29 19)
/-- MVY in quarter samples. -/
def fMvy (e : Nat) : Int := toSigned 10 (bits e 18 9)
/-- COST. -/
def fCost (e : Nat) : Nat := bits e 8 0

/-- The entries of a rectangle of regions that lie in the picture. -/
def rectEntries (g : PcGeom) (f : List Nat) (x0 x1 y0 y1 : Nat) : List Nat :=
  (List.range g.down).flatMap (fun y => if y < y0 ∨ y1 < y then [] else
    ((List.range g.across).filter (fun x => decide (x0 ≤ x ∧ x ≤ x1))).map (fun x => at? f (y * g.across + x) 0))

/-- A region is active (R568). -/
def activeRegion (mvMin costMin e : Nat) : Bool :=
  fValid e && !fRepaired e && (decide (mvMin ≤ (fMvx e).natAbs + (fMvy e).natAbs) || decide (2 * costMin ≤ fCost e))

/-- A picture is evaluated: its entries are valid, and its lamp state is its reference's (R567). -/
def Pic.evaluated (p : Pic) : Bool := p.ref.isSome && p.lit == p.refLit

/-- A lock that Watch requests of a clip, retried once without EVIDENCE: locked, and evidence refused (R542, R569). -/
def State.waLock (s : State) (clip : Option Nat) (evidence : Bool) (kind : Nat) : State × Bool × Bool :=
  match clip with
  | none => (s, false, false)
  | some id =>
    let (s1, st) := s.lockClip id evidence kind
    if st = 0x0C03 then
      let (s2, st2) := s1.lockClip id false kind
      (s2, st2 == 0, true)
    else (s1, st == 0, false)

/-- A zone sees an evaluated picture (R568, R569). -/
def State.zoneEval (c : Nat) (p : Pic) (s : State) (z : Nat) : State :=
  let a := 0x0D0400 + 64 * c + 8 * z
  let r := s.word a
  let w := s.word (a + 4)
  if !bitOf w 31 then s
  else
    let es := rectEntries p.geom p.field (bits r 31 25) (bits r 24 18) (bits r 17 12) (bits r 11 6)
    let n := (es.filter (activeRegion (bits w 15 8) (bits w 7 0))).length
    let zn := at? (s.waChan c).zones z {}
    let overrun := decide (bits w 27 20 ≤ n)
    let run := if overrun then zn.run + 1 else 0
    let below := if overrun then 0 else zn.below + 1
    let hold := bits w 19 16
    let set (x : Zone) (t : State) : State := t.modCam c (fun h => { h with zones := h.zones.set z x })
    if !zn.fired && decide (hold ≤ run) then
      let s1 := set ⟨run, 0, true⟩ s
      let (s2, locked, refused) := if bitOf w 29 then s1.waLock p.clip (bitOf w 28) 2 else (s1, false, false)
      s2.waNotify 0x0D01 (bitOf w 30) p.stamp ([byte c, byte z] ++ be 2 n ++ be 2 (p.clip.getD 0xFFFF) ++ be 2 p.poc
        ++ [byte (b2n locked + b2n refused * 2)])
    else if zn.fired && decide (hold ≤ below) then set ⟨0, 0, false⟩ s
    else set ⟨run, below, zn.fired⟩ s

/-! ### Disc readers (R570 to R574) -/

/-- The value congruent to `a` modulo `p` in −(p div 2) to p − 1 − (p div 2). -/
def smod (p : Nat) (a : Int) : Int := (a + (p / 2 : Nat)) % p - (p / 2 : Nat)

/-- v: the signed mean MVX over the zone's usable entries; none when fewer than half are usable (R570). -/
def discV (dir : Int) (costMax : Nat) (es : List Nat) : Option Int :=
  let us := es.filter (fun e => fValid e && !fRepaired e && decide (fCost e ≤ costMax))
  if es = [] ∨ 2 * us.length < es.length then none
  else some (dir * roundDiv ((us.map fMvx).foldl (· + ·) 0) us.length)

/-- The columns of a profile below a threshold that have a neighbour below it. -/
def markColumns (thr : Nat) (means : List (Nat × Nat)) : List Nat :=
  let low := (means.filter (fun m => decide (m.2 < thr))).map (·.1)
  low.filter (fun x => low.contains (x + 1) || (decide (0 < x) && low.contains (x - 1)))

/-- The mark phase (R570): the centroid of the mark's columns, in quarter samples from MARK_X. -/
def discMark (dir : Int) (per thr markX h : Nat) (prof : List (List Nat)) (x0 x1 y0 y1 : Nat) : Option Int :=
  let rows := (prof.drop y0).take (y1 + 1 - y0)
  let lines := min h (16 * (y1 + 1)) - 16 * y0
  let cols := (List.range (4 * (x1 + 1))).filter (fun x => decide (4 * x0 ≤ x))
  let means := cols.filterMap (fun x =>
    let vs := rows.filterMap (fun r => r[x]?)
    if vs = [] then none else some (x, vs.sum / (4 * lines)))
  let ms := markColumns thr means
  if ms = [] then none
  else
    -- Four times the centroid: a column's centre is 4x + 2 samples.
    let q : Nat := ((ms.map (fun x => 16 * x + 8)).sum) / ms.length
    some (((q : Int) - 4 * markX) * dir % per)

/-- |speed × dt| is at least a limit. -/
def speedReaches (sp : Int × Nat) (dt limit : Nat) : Bool := decide (limit * sp.2 ≤ sp.1.natAbs * dt)

/-- The notice WA_DISC, with the rotation of the interval. -/
def State.discNotice (s : State) (d kind : Nat) (st : CapStamp) (rot : Int) : State :=
  let r := s.reader d
  let per := s.fld (discReg d + 4) 31 16
  let rev (n : Nat) : List Byte := be 4 (n * 256 / max 1 per)
  let c := [byte d, byte kind] ++ rev r.fwd ++ rev r.rev ++ rev r.unc ++ be 4 (ofSigned 32 (rot * 256 / (max 1 per : Nat)))
    ++ [byte r.irreg]
  s.waNotify 0x0D02 (s.bit (discReg d) 0 && (kind == 3 || kind == 4)) st c

/-- A notice of kind reverse or irregular, and the lock that it requests (R573). -/
def State.discAlarm (s : State) (d kind : Nat) (p : Pic) (rot : Int) : State :=
  let s1 := if s.bit (discReg d) 27 then (s.waLock p.clip false 3).1 else s
  s1.discNotice d kind p.stamp rot

/-- IRREG of a revolution's certain speeds: 256 × (max − min) / mean, saturating at 255 (R573). -/
def irregOf (l : List (Int × Nat)) : Nat :=
  let sp : List Rat := l.map (fun x => (x.1 : Rat) / (max 1 x.2 : Nat))
  match sp with
  | [] => 0
  | a :: t =>
    let hi := t.foldl max a
    let lo := t.foldl min a
    let mean := (t.foldl (· + ·) a) / ((l.length : Nat) : Rat)
    if mean ≤ 0 then (if lo < hi then 255 else 0) else sat 255 (256 * (hi - lo) / mean).floor.toNat

/-- A whole forward revolution is complete: irregularity is judged (R573). -/
def State.revolution (s : State) (d : Nat) (p : Pic) (rot : Int) : State :=
  let r := s.reader d
  let ir := irregOf r.speeds
  let run := if s.fld (discReg d + 12) 31 24 ≤ ir then r.irregRun + 1 else 0
  let fire := decide (s.fld (discReg d + 12) 23 20 ≤ run)
  let s1 := s.modReader d (fun r => { r with irreg := ir, irregRun := if fire then 0 else run, speeds := [] })
  if fire then s1.discAlarm d 4 p rot else s1

/-- A certain rotation accounted (R572, R573). -/
def State.certain (s : State) (d : Nat) (p : Pic) (rot : Int) (dt : Nat) : State :=
  let per := max 1 (s.fld (discReg d + 4) 31 16)
  let r := s.reader d
  let fwd := r.fwd + rot.toNat
  let big := decide (per ≤ 256 * rot.natAbs)
  let s1 := s.modReader d (fun r => { r with
    fwd := fwd
    rev := r.rev + (-rot).toNat
    speed := some (rot, dt)
    speeds := r.speeds ++ [(rot, dt)]
    rotAt := if big then s.now else r.rotAt
    stopped := (r.stopped && !big) })
  let s2 := if r.stopped && big then s1.discNotice d 1 p.stamp rot else s1
  let s3 := if big ∧ rot < 0 then s2.discAlarm d 3 p rot else s2
  let s4 := if r.fwd / per < fwd / per then s3.revolution d p rot else s3
  let n := per * s.fld (discReg d + 12) 11 0
  if 0 < n ∧ r.fwd / n < fwd / n then s4.discNotice d 0 p.stamp rot else s4

/-- An uncertain rotation accounted (R572). -/
def State.uncertain (s : State) (d : Nat) (p : Pic) (rot : Int) : State :=
  (s.modReader d (fun r => { r with unc := r.unc + rot.natAbs })).discNotice d 5 p.stamp rot

/-- Overspeed, once until the speed falls below the limit (R574). -/
def State.overspeed (s : State) (d : Nat) (p : Pic) (rot : Int) : State :=
  let per := s.fld (discReg d + 4) 31 16
  let overrun := match (s.reader d).speed with
    | some sp => speedReaches sp (p.interval / usT) (per / 2)
    | none => false
  let s1 := s.modReader d (fun r => { r with overrun := overrun })
  if overrun && !(s.reader d).overrun then s1.discNotice d 6 p.stamp rot else s1

/-- A reader follows a usable picture (R571). -/
def State.readDisc (s : State) (d : Nat) (p : Pic) (v phi0 : Option Int) : State :=
  let per := max 1 (s.fld (discReg d + 4) 31 16)
  let alias_ := s.fld (discReg d + 8) 14 0
  let dmax := min (min 555 (per / 2)) (if alias_ = 0 then 555 else alias_ / 2)
  let r := s.reader d
  match r.last with
  | none =>
    match phi0 with
    | none => s
    | some phi => s.modReader d (fun r => { r with last := some (p.no, phi, p.tUs) })
  | some (n0, phiL, tL) =>
    let dt := p.tUs - tL
    let byV := match v with
      | some v => p.ref == some n0 && decide (v.natAbs < dmax)
          && (match r.speed with | some sp => !speedReaches sp dt dmax | none => true)
      | none => false
    let pred := if byV then v else r.speed.map (fun sp => roundDiv (sp.1 * dt) (max 1 sp.2 : Nat))
    let phi := match phi0 with
      | some x => some x
      | none => if byV then v.map (fun v => (phiL + v) % per) else none
    match phi with
    | none => s
    | some ph =>
      let (s1, rot) := match pred with
        | some q =>
          if q.natAbs ≤ per / 2 then
            let rot := q + smod per (ph - phiL - q)
            (s.certain d p rot dt, rot)
          else (s.uncertain d p q, q)
        | none =>
          let rot := smod per (ph - phiL)
          (s.uncertain d p rot, rot)
      (s1.modReader d (fun r => { r with last := some (p.no, ph, p.tUs) })).overspeed d p rot

/-- A reader sees an evaluated picture of its channel: usable when every CTB row of its zone was coded (R570). -/
def State.discEval (c : Nat) (p : Pic) (s : State) (d : Nat) : State :=
  let w := s.word (discReg d)
  let g := s.word (discReg d + 4)
  let m := s.word (discReg d + 8)
  let y1 := bits w 6 1
  if !bitOf w 31 || bits w 29 28 != c || decide (p.rows ≤ y1 / 2) then s
  else
    let dir : Int := if bitOf w 30 then -1 else 1
    let es := rectEntries p.geom p.field (bits w 26 20) (bits w 19 13) (bits w 12 7) y1
    s.readDisc d p (discV dir (bits m 23 15) es)
      (discMark dir (max 1 (bits g 31 16)) (bits m 31 24) (bits g 15 5) p.geom.h p.prof (bits w 26 20) (bits w 19 13) (bits w 12 7) y1)

/-- The motion field of a picture is complete at its last coded row: Watch keeps it, and zones and readers see an
evaluated picture (R567 to R571). -/
def State.fieldFollow (s : State) (c : Nat) : State :=
  match s.pic? c with
  | none => s
  | some p =>
    if p.fieldDone || decide (p.rows = 0) || decide (p.s3At.length < p.rows) then s
    else
      let g := p.geom
      let f := p.field ++ List.replicate (g.across * g.down - p.field.length) 0
      let p1 := { p with field := f, fieldDone := true }
      let s1 := (s.modPic c (fun _ => p1)).modCam c (fun h => { h with last := some (p1.poc, g.across, g.down, f) })
      if p1.evaluated && (s.pcChan c).on then
        (List.range 4).foldl (State.discEval c p1) ((List.range 8).foldl (State.zoneEval c p1) s1)
      else s1

/-- What S3_ROW_DONE does. -/
def State.s3RowDone (s : State) (bytes : List Byte) (preds : List (Int × Int)) (poison : Option Nat) : State :=
  match s.main.pc.s3 with
  | none => s
  | some c => (s.s3Row bytes preds poison).fieldFollow c

/-- What DISC_STOP_TIMEOUT does (R573). -/
def State.discStop (s : State) (d : Nat) : State :=
  let r := s.reader d
  if 4 ≤ d ∨ !s.main.out ∨ !s.bit (discReg d) 31 ∨ r.stopped ∨ s.now < r.rotAt + s.fld (discReg d + 12) 19 12 * secT then s
  else
    let s1 := s.modReader d (fun r => { r with stopped := true })
    s1.discNotice d 2 (s.capStamp none) 0

/-! ### Disabling, registers and start (R576 to R578, R580, R582) -/

/-- A channel goes off, by EN or by the shed: the lamp dark, zones' runs and readers' last cleared (R577). -/
def State.waOff (s : State) (c : Nat) : State :=
  let op := (s.waChan c).op
  let s1 := (s.lampDark c).modCam c (fun h => { h with zones := List.replicate 8 {}, op := none })
  ((List.range 4).foldl (fun x d => if x.fld (discReg d) 29 28 = c then x.modReader d (fun r => { r with last := none }) else x) s1).finish?
    op 0x0010 []

/-- Watch follows its channels, lamps and fields. -/
def State.waFollow (s : State) : State :=
  if !s.main.out then s
  else (List.range 4).foldl (fun x c =>
    let h := x.waChan c
    let busy := h.lit || h.op.isSome || h.zones != List.replicate 8 {}
      || (List.range 4).any (fun d => x.fld (discReg d) 29 28 == c && (x.reader d).last.isSome)
    let off := !(x.pcChan c).on && busy
    (((if off then x.waOff c else x).lampFollow c)).fieldFollow c) s

/-- A zone register written: the zone's run restarts (R578). -/
def State.zoneWritten (s : State) (c z : Nat) : State := s.modCam c (fun h => { h with zones := h.zones.set z {} })

/-- WA_Dd_CFG written: a reader enabled starts with no phase and no speed (R578). -/
def State.discWritten (s : State) (d old : Nat) : State :=
  if s.bit (discReg d) 31 && !bitOf old 31 then
    s.modReader d (fun r => { r with last := none, speed := none, speeds := [], irregRun := 0, rotAt := s.now, stopped := false, overrun := false })
  else s

/-- CAMc_RST_N rises in step 9 for each channel with CAM_ON, with the writes held for it (R580). -/
def State.camStart (s : State) (c : Nat) : State :=
  if s.main.boot.local9 && s.bit (waReg c) 31 && (s.waChan c).rst.isNone then
    s.modCam c (fun h => { h with
      rst := some s.now
      writes := ((s.main.boot.camWrites.filter (fun w => w.1 == c)).take 64).map (fun w => (w.2.1, w.2.2)) })
  else s

/-- The cameras started (R580). -/
def State.camsStart (s : State) : State := (List.range 4).foldl State.camStart s

/-- Whether a WA_Cc_CAM word may be written while the channel is enabled (R578). -/
def State.camLegal (s : State) (c old new : Nat) : Bool := !s.bit (pcReg c) 31 || old / 2 ^ 20 == new / 2 ^ 20

/-- Whether a reader's register may be written while the reader is enabled: CFG but for EN, GEOM and MARK (R578). -/
def State.discLegal (s : State) (d k old new : Nat) : Bool :=
  !s.bit (discReg d) 31 || (if k = 0 then old % 2 ^ 31 == new % 2 ^ 31 else if k ≤ 2 then old == new else true)

/-- WA_Cc_STAT as it reads. -/
def State.waStatWord (s : State) (c : Nat) : Nat :=
  let h := s.waChan c
  (match h.cap with | .idle => 0 | .awaiting => 1 | .receiving => 2) * 2 ^ 30 + b2n h.lit * 2 ^ 29
    + b2n (s.fld (waReg c + 12) 31 30 == 2 && h.inUse2) * 2 ^ 28 + h.mean % 256 * 2 ^ 20

/-- A total of a reader as it reads, in 1/256 revolution. -/
def State.discTotal (s : State) (d n : Nat) : Nat := n * 256 / max 1 (s.fld (discReg d + 4) 31 16) % 2 ^ 32

/-- WA_Dd_SPEED as it reads. -/
def State.discSpeedWord (s : State) (d : Nat) : Nat :=
  let r := s.reader d
  let per := max 1 (s.fld (discReg d + 4) 31 16)
  let sp := match r.speed with
    | some (rot, dt) => clampTo (-32768) 32767 (Int.tdiv (rot * 1024000000) (max 1 dt * per : Nat))
    | none => 0
  ofSigned 16 sp * 65536 + r.irreg * 256 + (if r.stopped then 2 else if r.overrun then 3 else if r.last.isSome then 1 else 0)

/-! ### Opcodes (R581) -/

/-- WA_STATUS. -/
def opWaStatus (op : Nat) (p : List Byte) (s : State) : State :=
  let c := field p 0 1
  if p.length ≠ 1 then s.finish op 0x0004 []
  else if 3 < c then s.finish op 0x0005 []
  else s.finish op 0 (be 4 (s.word (waReg c)) ++ be 4 (s.word (waReg c + 12)) ++ be 4 (s.waStatWord c)
    ++ be 4 (s.word (waReg c + 24)) ++ be 4 (s.word (waReg c + 28)))

/-- WA_CAPTURE: it replies at the frame start. -/
def opWaCapture (op : Nat) (p : List Byte) (s : State) : State :=
  let c := field p 0 1
  if p.length ≠ 1 then s.finish op 0x0004 []
  else if 3 < c then s.finish op 0x0005 []
  else if (s.waChan c).cap ≠ .idle then (s.capture c none none).finish op 0x0D00 []
  else if !s.trigOk c then (s.capture c none none).finish op 0x0010 []
  else s.capture c none (some op)

/-- WA_FIELD: the last complete field. -/
def opWaField (op : Nat) (p : List Byte) (s : State) : State :=
  let c := field p 0 1
  if p.length ≠ 1 then s.finish op 0x0004 []
  else if 3 < c then s.finish op 0x0005 []
  else match (s.waChan c).last with
    | none => s.finish op 0x0D03 []
    | some (poc, a, dn, f) => s.finish op 0 (be 2 poc ++ [byte a, byte dn] ++ f.flatMap (be 4))

/-- WA_DISC: a reader's totals and speed. -/
def opWaDisc (op : Nat) (p : List Byte) (s : State) : State :=
  let d := field p 0 1
  if p.length ≠ 1 then s.finish op 0x0004 []
  else if 3 < d then s.finish op 0x0005 []
  else
    let r := s.reader d
    s.finish op 0 (be 4 (s.discTotal d r.fwd) ++ be 4 (s.discTotal d r.rev) ++ be 4 (s.discTotal d r.unc)
      ++ be 4 (s.discSpeedWord d))

/-- WA_I2C: a camera register transfer; whether the camera acknowledges, and what it answers, is free. -/
def opWaI2c (op : Nat) (p : List Byte) (s : State) : State :=
  let c := field p 0 1
  let wlen := field p 2 1
  let rlen := field p 3 1
  if p.length < 4 ∨ (wlen ≤ 32 ∧ p.length ≠ 4 + wlen) then s.finish op 0x0004 []
  else if 3 < c ∨ 127 < field p 1 1 ∨ 32 < wlen ∨ 32 < rlen then s.finish op 0x0005 []
  else if s.bit (pcReg c) 31 then s.finish op 0x0D01 []
  else
    let (ack, s1) := s.draw
    let (d, s2) := s1.drawBytes rlen
    if ack % 2 = 0 then s1.finish op 0x0D02 [] else s2.finish op 0 d

end Sys2Proof.Machine
end

