-- ==== Sys2Proof/Machine/Apply.lean ====
section
/-! DEFINITION. Register accesses (00 "Controls", R105 to R108): what a register reads, what a write
does beside setting its fields, and configuration images, whose register blocks are applied as
writes (R655 to R657). -/

namespace Sys2Proof.Machine

/-! ### What registers read -/

/-- CMD_STATUS (Table CMD-13). -/
def State.cmdStatusWord (s : State) : Nat :=
  let c := s.main.cmd
  (c.ops.filter (fun e => !e.shadow)).length * 65536 + c.notices.length * 64 + b2n s.main.sk.isLead * 32
    + b2n c.started * 16 + sat 15 (s.intake / 1024)

/-- CMD_CHIP_ID (Table SC-5). -/
def chipIdWord : Nat := 0x72163000 + b2n Config.gradeX * 256

/-- CMD_BOOT_STATUS (Table SU-11). -/
def State.bootStatusWord (s : State) : Nat :=
  let b := s.main.boot
  b.cause * 2 ^ 24 + b.lastStep * 2 ^ 20 + b.failStep * 2 ^ 16 + b2n b.rescue * 128 + b2n b.reverted * 64
    + b2n b.trial * 32 + b.slot.getD 0 * 16 + b2n b.digestMatch * 8 + b2n b.fullTest * 4 + b2n b.configDefault * 2
    + b2n b.warm

/-- CMD_BOOT_TIME (Table SU-12): milliseconds from PEN_MAIN rising. -/
def State.bootTimeWord (s : State) : Nat :=
  let ms (o : Option Nat) : Nat := match o with | some t => sat 65535 ((t - s.hearth.penRise) / msT) | none => 0
  ms (at? s.main.boot.ends 6 none) * 65536 + ms s.main.boot.startAt

/-- The number of a power state in HRT_STATUS, STACK_STATE and PS_STATUS. -/
def PState.code : PState → Nat
  | .blaze => 0 | .bank => 1 | .smoulder => 2 | .ember => 3

/-- HRT_STATUS (Table HRT-10). -/
def State.hrtStatusWord (s : State) : Nat :=
  let h := s.hearth
  s.fld 0x010000 31 16 * 65536 + b2n h.onReserve * 128 + b2n h.resFault * 64 + b2n h.xtalFault * 32
    + b2n h.cellAbsent * 16 + b2n h.cellLow * 8 + b2n s.drawsVbat * 4 + h.ps.code % 3

/-- The inputs active now, as HRT_TAMP_STAT reads. -/
def State.tampNow (s : State) : Nat := mapOf (fun i => at? s.hearth.tampNow i false)

/-- A register of an array with stride `k`, from `base`: which one, and whether the address lies in it. -/
def idx (a base n k : Nat) : Option Nat :=
  if base ≤ a ∧ (a - base) % k = 0 ∧ (a - base) / k < n then some ((a - base) / k) else none

/-- What blocks CMD to MA read, where hardware keeps it elsewhere than in the register store. -/
def State.liveA (s : State) (a : Nat) : Option Nat :=
  let n := s.main.nt
  let m := s.main.ma
  if a = 0x000000 then some chipIdWord
  else if a = 0x000004 then some s.strapsWord
  else if a = 0x000008 then some s.cmdStatusWord
  else if a = 0x00001C then some s.main.boot.fw
  else if a = 0x000020 then some s.bootStatusWord
  else if a = 0x000024 then some s.bootTimeWord
  else if a = 0x010000 then some s.hrtStatusWord
  else if a = 0x010004 then some (s.hearthSec / 2 ^ 32)
  else if a = 0x010008 then some (s.hearthSec % 2 ^ 32)
  else if a = 0x01000C then some s.hearthFrac
  else if a = 0x010048 then some (s.word a / 65536 * 65536 + s.tampNow)
  else if a = 0x01004C then some (s.fld a 23 16 * 65536 + s.hearth.cellCode)
  else if a = 0x010058 then some (sat (2 ^ 22 - 1) s.hearth.resE * 1024 + s.hearth.resCode)
  else if a = 0x010068 then some s.hearth.wakeSrc
  else if a = 0x020000 then some s.ntStatusWord
  else if a = 0x020004 then some (n.sec / 2 ^ 32)
  else if a = 0x020008 then some (n.sec % 2 ^ 32)
  else if a = 0x02000C then some n.ns
  else if a = 0x020010 then some n.frac
  else if a = 0x020018 then some (ofSigned 32 n.adjLeft)
  else if a = 0x020028 then some (ofSigned 32 (sat32 n.lastErr))
  else if a = 0x030000 then some s.maStatusWord
  else if a = 0x03000C then some s.maFreqWord
  else if a = 0x030010 then some m.frozen
  else if a = 0x030014 then some (if m.st = .absent then 0 else s.angle)
  else if a = 0x030018 then some m.cycle
  else match idx a 0x020100 16 16 with
    | some u => some (s.cmpCtlWord u)
    | none => match idx a 0x020104 16 16 with
      | some u => some ((s.cmpUnit u).sec / 2 ^ 32)
      | none => match idx a 0x020108 16 16 with
        | some u => some ((s.cmpUnit u).sec % 2 ^ 32)
        | none => match idx a 0x02010C 16 16 with
          | some u => some (s.cmpUnit u).ns
          | none => match idx a 0x030020 3 4 with
            | some p => some (s.maPhaseWord p)
            | none => (idx a 0x031008 512 16).map s.maNextWord

/-- What blocks LN to UP read. -/
def State.liveB (s : State) (a : Nat) : Option Nat :=
  if a = 0x050004 then some s.tdStatusWord
  else if a = 0x050008 then some s.main.td.sfc
  else if a = 0x05000C then some s.tdSrqWord
  else if a = 0x060000 then some s.tmStatusWord
  else if a = 0x060004 then some s.main.tm.eqd
  else if a = 0x060008 then some (s.tmEqdWord 0)
  else if a = 0x06000C then some (s.tmEqdWord 1)
  else if a = 0x06001C then some s.tmDozeWord
  else if a = 0x070004 then some s.upStatusWord
  else match idx a 0x040010 2 4 with
    | some k => some (at? s.hearth.maps k 0x1A1A)
    | none => match idx a 0x040104 9 16 with
      | some n => some (s.lnStatWord n)
      | none => match idx a 0x040108 9 16 with
        | some n => some (s.lnEqWord n)
        | none => match idx a 0x060040 8 4 with
          | some n => some (s.tmAllocWord n)
          | none => match idx a 0x070108 32 16 with
            | some n => some (s.upQueue n).fill
            | none => (idx a 0x070408 40 16).map s.creditWord

/-- What blocks MP to WA read. -/
def State.liveC (s : State) (a : Nat) : Option Nat :=
  if a = 0x0B0004 then some s.cyStatusWord
  else if a = 0x0C0004 then some s.pcStatusWord
  else if a = 0x0C0008 then some s.pcStoreWord
  else match idx a 0x080114 48 32 with
    | some n => some (s.mpStatWord n)
    | none => match idx a 0x081000 64 4 with
      | some p => some (s.progStatWord p)
      | none => match idx a 0x090108 4 32 with
        | some t => some (s.tbStatWord t)
        | none => match idx a 0x0A0104 2 256 with
          | some n => some (s.emLinkWord n)
          | none => match idx a 0x0B0104 4 16 with
            | some q => some (s.cqFill q)
            | none => match idx a 0x0C0118 4 64 with
              | some c => some (s.pcChan c).mem
              | none => match idx a 0x0C011C 4 64 with
                | some c => some (s.pcStatWord c)
                | none => match idx a 0x0D0114 4 64 with
                  | some c => some (s.waStatWord c)
                  | none => match idx a 0x0D0810 4 32 with
                    | some d => some (s.discTotal d (s.reader d).fwd)
                    | none => match idx a 0x0D0814 4 32 with
                      | some d => some (s.discTotal d (s.reader d).rev)
                      | none => match idx a 0x0D0818 4 32 with
                        | some d => some (s.discTotal d (s.reader d).unc)
                        | none => (idx a 0x0D081C 4 32).map s.discSpeedWord

/-- What blocks PW to MM read. -/
def State.liveD (s : State) (a : Nat) : Option Nat :=
  if a = 0x0E0000 then some s.main.pw.bus
  else if a = 0x0E0004 then some s.pwStatusWord
  else if a = 0x0F0000 then some s.stStatusWord
  else if a = 0x100000 then some s.skStatusWord
  else if a = 0x100008 then some s.skTimeWord
  else if a = 0x110008 then some s.alStatusWord
  else if a = 0x11000C then some s.hearth.seq
  else if a = 0x110010 then some s.flushUj
  else if a = 0x120000 then some s.mmStatusWord
  else if a = 0x120004 then some s.mmMapWord
  else match idx a 0x0E0114 12 32 with
    | some c => some (s.pwStatWord c)
    | none => match idx a 0x0E0118 12 32 with
      | some c => some (s.pwMeasWord c)
      | none => match idx a 0x0F0104 2 256 with
        | some k => some (s.stLkStat k)
        | none => match idx a 0x0F0108 2 256 with
          | some k => some (s.stLkSeq k)
          | none => match idx a 0x0F010C 2 256 with
            | some k => some (s.stLkOldest k)
            | none => match idx a 0x100100 8 4 with
              | some m => some (s.skMemWord m)
              | none => match idx a 0x120100 64 4 with
                | some b => some (s.mmBankWord b)
                | none =>
                  (([0, 1] : List Nat).flatMap (fun k => (List.range 4).map (fun c => (k, c)))).findSome? (fun (k, c) =>
                    if a = 0x0F0120 + 256 * k + 4 * c then some (s.stLkAvail k c) else none)

/-- The word of a register as hardware holds it. -/
def State.liveWord (s : State) (a : Nat) : Nat :=
  let live :=
    if a < 0x040000 then s.liveA a else if a < 0x080000 then s.liveB a else if a < 0x0E0000 then s.liveC a else s.liveD a
  live.getD (s.word a)

/-- What a read of an address returns; an address that no table lists reads 0 (R20, R21). -/
def State.regValue (s : State) (a : Nat) : Nat := regVisible (regFields a) (s.liveWord a)

/-- Whether an address is one of EM_Pn_STATk: reads clear them in basic mode and not in full mode (Table EM-8). -/
def State.statsCleared (s : State) (a : Nat) : Bool :=
  ((idx a 0x0A0140 32 4).isSome && !s.bit 0x0A0100 23) || ((idx a 0x0A0240 32 4).isSome && !s.bit 0x0A0200 23)

/-- The fields of a register as a read treats them: a statistics counter of a port in basic mode is RC. -/
def State.readFields (s : State) (a : Nat) : List FieldSpec := if s.statsCleared a then [fRC 31 0] else regFields a

/-- A read: the value, and the state with the register's RC fields cleared (Table SC-3); what hardware has counted in
this datapath cycle is left for the next read (R13). -/
def State.readReg (s : State) (a : Nat) : Nat × State :=
  let fs := s.readFields a
  let c := s.cycleOf a
  (regVisible fs (regTakes fs (s.liveWord a) c.before),
    (s.inCycle { c with before := regCleared fs c.before }).setWord a (regTakes fs (s.word a) c.counted))

/-- Words read in ascending address order (R14, R105). -/
def State.readRegs (s : State) (a : Nat) : Nat → List Byte × State
  | 0 => ([], s)
  | n + 1 =>
    let (v, s1) := s.readReg a
    let (l, s2) := State.readRegs s1 (a + 4) n
    (be 4 v ++ l, s2)

/-! ### Which words a register takes (R17 and the chapters' own limits) -/

/-- ACTION and PARAM of MA_ENTn_CFG0 (Table MA-2). -/
def entLegal (v : Nat) : Bool :=
  let act := bits v 15 12
  let par := bits v 9 0
  if act = 0 then true else if act = 1 then decide (par < 16) else if act = 2 then decide (par < 4)
  else if act = 3 then decide (par < 64) else act == 4 && decide (par < 512)

/-- The legal words of blocks HRT to UP beyond what their fields say one by one. -/
def State.legalA (s : State) (a v : Nat) : Bool :=
  if a = 0x010054 then decide (bits v 25 16 ≤ bits v 9 0)
  else if a = 0x020014 then decide (0x03100000 ≤ v) && decide (v ≤ 0x03300000)
  else if a = 0x030004 then bitOf v (4 + bits v 1 0)
  else if (idx a 0x031000 512 16).isSome then entLegal v
  else if a = 0x040100 ∨ a = 0x040110 then bits v 30 29 == 0
  else match idx a 0x054000 4096 4 with
    | some n => tdPortLegal n v
    | none => match idx a 0x070100 32 16 with
      | some n => s.queueLegal n v (s.word (upPort n))
      | none => match idx a 0x070104 32 16 with
        | some n => s.queueLegal n (s.word (upCfg n)) v
        | none => true

/-- The legal words of blocks MP to MM beyond what their fields say one by one. -/
def State.legalB (s : State) (a v : Nat) : Bool :=
  let old := s.word a
  if a = 0x100004 then decide (bits v 15 8 < bits v 7 0)
  else match idx a 0x090100 4 32 with
  | some t => s.tribLegal t v (s.word (0x090104 + 32 * t))
  | none => match idx a 0x090104 4 32 with
    | some t => s.tribLegal t (s.word (tbCfg t)) v
    | none => match idx a 0x0A0100 2 256 with
      | some n => emCfgLegal n v
      | none => match idx a 0x0C0100 4 64 with
        | some _ => pcCfgLegal old v
        | none => match idx a 0x0D0100 4 64 with
          | some c => s.camLegal c old v
          | none => match idx a 0x0D0800 4 32 with
            | some d => s.discLegal d 0 old v
            | none => match idx a 0x0D0804 4 32 with
              | some d => s.discLegal d 1 old v
              | none => match idx a 0x0D0808 4 32 with
                | some d => s.discLegal d 2 old v
                | none => match idx a 0x0E0104 12 32 with
                  | some c => pwLegal v (s.word (pwReg c + 8))
                  | none => match idx a 0x0E0108 12 32 with
                    | some c => pwLegal (s.word (pwReg c + 4)) v
                    | none => true

/-- The status of a write before it is made: OK, BAD_VALUE (R17), or PC_NO_MEMORY (R536). What a write gives to
reserved bits and RO fields does not count (R15, R16). -/
def State.writeStatus (s : State) (a v : Nat) : Nat :=
  let w := regWritten (regFields a) (s.word a) v
  if !regLegal (regFields a) v || !s.legalA a w || !s.legalB a w then 0x0006
  else match idx a 0x0C0100 4 64 with
    | some c => if s.pcCfgFits c (s.word a) w then 0 else 0x0C00
    | none => 0

/-! ### What writes do -/

/-- A lane's EN written (Table LN-10): it starts, or it is lost to whatever uses it. -/
def State.laneWritten (s : State) (n old : Nat) : State :=
  if s.bit (lnCfg n) 31 ∧ !bitOf old 31 then s.wakeLane n
  else if !s.bit (lnCfg n) 31 ∧ bitOf old 31 then
    ((s.laneOut n Lane.off).laneGone n 1).laneFailed n true false none
  else s

/-- What a write to blocks CMD to UP does at once, beside setting the register. -/
def State.wroteA (s : State) (a old : Nat) : State :=
  if a = 0x00000C then s.limitChanged
  else if a = 0x010054 then (if s.hardFloor then s.cutBurst else s)
  else if a = 0x030004 then s.maCfgWritten old
  else match idx a 0x031000 512 16 with
  | some n => s.entryWritten n (old, s.word (entReg n + 4))
  | none => match idx a 0x031004 512 16 with
    | some n => s.entryWritten n (s.word (entReg n), old)
    | none => match idx a 0x040100 9 16 with
      | some n => s.laneWritten n old
      | none => match idx a 0x054000 4096 4 with
        | some n => s.tdPortWritten n old
        | none => match idx a 0x070400 40 16 with
          | some n => s.damperWritten n old (s.word (damperReg n + 4))
          | none => match idx a 0x070404 40 16 with
            | some n => s.damperWritten n (s.word (damperReg n)) old
            | none => match idx a 0x070040 4 4 with
              | some t => s.tribReleased t
              | none => s

/-- What a write to blocks EM to ST does at once. -/
def State.wroteB (s : State) (a old : Nat) : State :=
  match idx a 0x0A0100 2 256 with
  | some n => s.emCfgWritten n old
  | none => match idx a 0x0B0100 4 16 with
    | some q => if s.bit a 31 ∨ !bitOf old 31 then s else s.queueOff q
    | none => match idx a 0x0D0100 4 64 with
      | some c => if s.bit a 31 ∧ !bitOf old 31 ∧ s.main.boot.local9 then s.camStart c else s
      | none => match idx a 0x0D0800 4 32 with
        | some d => s.discWritten d old
        | none => match idx a 0x0F0100 2 256 with
          | some k => if s.bit a 31 = bitOf old 31 then s else s.stLinkWritten k
          | none =>
            (([0, 1, 2, 3] : List Nat).flatMap (fun c => (List.range 8).map (fun z => (c, z)))).foldl (fun x (c, z) =>
              if a = 0x0D0404 + 64 * c + 8 * z ∨ a = 0x0D0400 + 64 * c + 8 * z then x.zoneWritten c z else x) s

/-- The buckets of a policer are filled at the rates and sizes that a write is about to change (R383). -/
def State.settlePolicer (s : State) (a : Nat) : State :=
  let p := (a - 0x070800) / 32
  if 0x070800 ≤ a ∧ p < 16 then s.modUp (fun u => { u with buckets := u.buckets.set p (s.fillBucket p) }) else s

/-- A write made: fields set, W1C bits cleared but for those set in this datapath cycle (R12), and what follows from it;
its status (R15 to R17, R21). -/
def State.writeReg (s : State) (a v : Nat) : State × Nat :=
  let st := s.writeStatus a v
  if st ≠ 0 ∨ regFields a = [] then (s, st)
  else
    let old := s.word a
    let s1 := (s.settlePolicer a).setWord a (Nat.lor (regWritten (regFields a) old v) (s.cycleOf a).latched)
    (if a < 0x080000 then s1.wroteA a old else s1.wroteB a old, 0)

/-- Words written in ascending address order up to the first that is refused: its index and status (R106). -/
def State.writeRegs (s : State) (a i : Nat) : List Nat → State × Nat × Nat
  | [] => (s, i, 0)
  | v :: t =>
    let (s1, st) := s.writeReg a v
    if st = 0 then State.writeRegs s1 (a + 4) (i + 1) t else (s1, i, st)

/-- Whether a span of registers meets a block that a quarantined member does not let be written (R547, R576,
R606). -/
def guarded (a count : Nat) : Bool :=
  (List.range count).any (fun i => let b := (a + 4 * i) / 65536; b == 0x0C || b == 0x0D || b == 0x0E)

/-- The words of a byte string. -/
def wordsOf : Nat → List Byte → List Nat
  | 0, _ => []
  | n + 1, b => field b 0 4 :: wordsOf n (b.drop 4)

/-! ### Register-access opcodes (R105 to R108) -/

/-- REG_READ. -/
def opRegRead (op : Nat) (p : List Byte) (s : State) : State :=
  let a := field p 0 4
  let n := field p 4 2
  if p.length ≠ 6 then s.finish op 0x0004 []
  else if a % 4 ≠ 0 then s.finish op 0x0007 []
  else if n = 0 ∨ 1024 < n ∨ 0xFFFFFC < a + 4 * (n - 1) then s.finish op 0x0005 []
  else
    let (b, s1) := s.readRegs a n
    s1.finish op 0 b

/-- REG_WRITE. -/
def opRegWrite (op : Nat) (p : List Byte) (s : State) : State :=
  let a := field p 0 4
  let n := field p 4 2
  if p.length < 6 then s.finish op 0x0004 []
  else if 1 ≤ n ∧ n ≤ 1022 ∧ p.length ≠ 6 + 4 * n then s.finish op 0x0004 []
  else if a % 4 ≠ 0 then s.finish op 0x0007 []
  else if n = 0 ∨ 1022 < n ∨ 0xFFFFFC < a + 4 * (n - 1) then s.finish op 0x0005 []
  else if s.quarantined ∧ guarded a n then s.finish op 0x000C []
  else
    let (s1, i, st) := s.writeRegs a 0 (wordsOf n (p.drop 6))
    if st = 0 then s1.finish op 0 [] else s1.finish op st (be 2 i)

/-- REG_MODIFY. -/
def opRegModify (op : Nat) (p : List Byte) (s : State) : State :=
  let a := field p 0 4
  let mask := field p 4 4
  if p.length ≠ 12 then s.finish op 0x0004 []
  else if a % 4 ≠ 0 then s.finish op 0x0007 []
  else if 0xFFFFFC < a then s.finish op 0x0005 []
  else if s.quarantined ∧ guarded a 1 then s.finish op 0x000C []
  else
    let prev := s.regValue a
    let w1c := ((regFields a).filter (fun f => f.acc == .w1c)).foldl (fun x f => Nat.lor x f.mask) 0
    let base := Nat.land prev (Nat.xor w1c 0xFFFFFFFF)
    let v := Nat.lor (Nat.land base (Nat.xor mask 0xFFFFFFFF)) (Nat.land (field p 8 4) mask)
    let (s1, st) := s.writeReg a v
    s1.finish op st (be 4 prev)

/-! ### Configuration images (R140, R655 to R657) -/

/-- The address of a flash copy of the configuration image (Table SU-3). -/
def cfgAddr (c : Nat) : Nat := 0x210000 + c * 0x40000

/-- Whether an image of at least its 64 header bytes is valid (R655). -/
def cfgOk (b : List Byte) : Bool :=
  field b 0 4 == 0x43564347 && field b 60 4 == crc32 (b.take 60) && decide (field b 8 4 ≤ 262080)
    && bytesAt b 20 32 == sha256 (bytesAt b 64 (field b 8 4))

/-- The bytes of a valid flash copy. -/
def State.cfgImage (s : State) (c : Nat) : Option (List Byte) :=
  let h := s.flashRead (cfgAddr c) 64
  if field h 0 4 == 0x43564347 && field h 60 4 == crc32 (h.take 60) && decide (field h 8 4 ≤ 262080) then
    let b := h ++ s.flashRead (cfgAddr c + 64) (field h 8 4)
    if cfgOk b then some b else none
  else none

/-- The copy taken, and its image (R655). -/
def State.cfgTaken (s : State) : Option (Nat × List Byte) :=
  match s.cfgImage 0, s.cfgImage 1 with
  | some a, some b => if sdiff 32 (field a 4 4) (field b 4 4) < 0 then some (1, b) else some (0, a)
  | some a, none => some (0, a)
  | none, some b => some (1, b)
  | none, none => none

/-- One record applied; none where it fails (R656). -/
def State.applyRecord (s : State) (type : Nat) (d : List Byte) : Option State :=
  if type = 1 then
    let a := field d 0 4
    let n := (d.length - 4) / 4
    if d.length < 8 ∨ d.length % 4 ≠ 0 ∨ a % 4 ≠ 0 ∨ 0xFFFFFC < a + 4 * (n - 1) then none
    else
      let (s1, _, st) := s.writeRegs a 0 (wordsOf n (d.drop 4))
      if st = 0 then some s1 else none
  else if type = 2 then
    let (s1, st) := s.loadProg d
    if st = 0 then some s1 else none
  else if type = 3 then
    if d.length < 2 ∨ 3 < field d 0 1 ∨ 127 < field d 1 1 then none
    else some (s.modBoot (fun b => { b with camWrites := b.camWrites ++ [(field d 0 1, field d 1 1, d.drop 2)] }))
  else none

/-- The records of a body applied in order, up to one that fails; `k` bounds them. -/
def State.applyBody : Nat → List Byte → State → State × Bool
  | 0, b, s => (s, b.isEmpty)
  | k + 1, b, s =>
    if b = [] then (s, true)
    else
      let n := field b 2 2
      let m := field b 1 1
      if b.length < 4 + n then (s, false)
      else if m ≠ 0xFF ∧ m ≠ s.self then State.applyBody k (b.drop (4 + n)) s
      else match s.applyRecord (field b 0 1) ((b.drop 4).take n) with
        | some s1 => State.applyBody k (b.drop (4 + n)) s1
        | none => (s, false)

/-- An image applied: its header is in force where every record succeeds. -/
def State.applyImage (s : State) (b : List Byte) : State × Bool :=
  let (s1, ok) := State.applyBody (b.length + 1) ((b.drop 64).take (field b 8 4)) (s.modBoot (fun x => { x with camWrites := [] }))
  if ok then
    (s1.modSk (fun k => { k with cfgSeq := field b 4 4, serial := field b 12 8, cfgHash := bytesAt b 20 32, cfgBad := false }),
      true)
  else (s1.modSk (fun k => { k with cfgBad := true }), false)

/-- The configuration image loaded in step 5 (R140): reset values where neither copy is valid. -/
def State.loadConfig (s : State) : State :=
  match s.cfgTaken with
  | some (c, b) => ((s.modSk (fun k => { k with cfgCopy := some c })).applyImage b).1
  | none => s.modBoot (fun b => { b with configDefault := true })

end Sys2Proof.Machine
end

