-- ==== Sys2Proof/Machine/Stack.lean ====
section
/-! DEFINITION. Stacks (20): step 7, the lead's office, loss of the lead and takeover, the messages
between members, time over Strait, PHASE_SKEW, and the configuration and image pushes. -/

namespace Sys2Proof.Machine

/-! ### Held alarms on their way to the master (R182, R183) -/

/-- The notice code of a held source (R183). -/
def heldCode (source : Nat) : Nat :=
  if source < 8 then 0x0101 else if source < 10 then 0x0102 else if source = 10 then 0x0104
  else if source = 11 then 0x0105 else 0x0107

/-- The notice of a held entry (R183, Table HRT-8): stamped with the Hearth time of its last event. -/
def State.heldNotice (s : State) (i : Nat) : Raised :=
  let h := at? s.hearth.held i {}
  let entry := bytesAt (heldBytes s.hearth.held) (32 * i) 32
  let ns := field h.last 6 2 * 1000000000 / 32768
  let pre := h.last.take 6 ++ be 4 (2 ^ 30 + ns) ++ be 2 0 ++ [1#8, 0#8] ++ be 2 0
  let body :=
    if i < 8 then [byte i] ++ be 2 h.count ++ [byte (b2n (bitOf h.flags 2))] ++ entry
    else if i < 10 then [byte (i - 8), byte h.kind] ++ be 2 h.count ++ entry
    else if i = 10 then [byte s.hearth.cellCode] ++ entry
    else if i = 11 then h.first.take 6 ++ entry
    else entry
  { code := heldCode i, member := s.self, alarm := true, bytes := pre ++ body, held := some i }

/-- The held sources in the order they are sent: those of a minimal Blaze first, then SOURCE order
(R181, R183). -/
def State.heldOrder (s : State) : List Nat :=
  let l := (List.range 13).filter (fun i => 0 < (at? s.hearth.held i {}).count)
  match s.hearth.minBlaze with
  | some i => l.filter (· == i) ++ l.filter (· != i)
  | none => l

/-! ### Office (R112, R392, R648, R661 to R663) -/

/-- Every tag FREE and the queues empty (R112, R392). -/
def State.clearOffice (s : State) : State :=
  let s1 := s.modCmd (fun c => { c with
    ops := [], out := [], hold := [], raised := [], pool := 0, notices := [], deferred := [], started := false })
  (s1.modUp (fun u => { u with queues := List.replicate 32 {}, leaving := [], membership := none, attempt := 0, skip := 0,
                               waitUntil := none, carried := [] })).modSk (fun k => { k with push := none, pushQ := [] })

/-- The transmitters dark, grants and bursts dropped, tree membership in INITIAL (R661). -/
def State.darken (s : State) : State :=
  let s1 := s.dropBurst
  let s2 := (s1.main.up.bursts.foldl (fun x b => x.refund b.units) s1).modUp (fun u => { u with bursts := [] })
  let s3 := ((s2.modTd (fun t => { t with grants := [], miss := none })).modTm (fun m => { m with doze := none })).modSk
    (fun k => { k with isLead := false, lowSince := none })
  if s3.main.tm.st = .initial then s3 else s3.setTm .initial

/-- A message for the old lead turned to the new one (R392, R660). -/
def StMsg.turn (m : StMsg) (old new term : Nat) : StMsg :=
  if m.dest = old ∧ m.cls ≠ 1 ∧ field m.bytes 0 1 ≠ 0x01 ∧ field m.bytes 0 1 ≠ 0x04 then
    { m with dest := new, bytes := m.bytes.take 2 ++ be 2 term ++ m.bytes.drop 4 }
  else m

/-- Whether a message is a reply for a lead (R88): REPLY_NOTICE with a reply packet. -/
def StMsg.isReply (m : StMsg) (lead : Nat) : Bool :=
  m.dest == lead && field m.bytes 0 1 == 0x06 && field m.bytes 10 1 / 64 == 1

/-- The replies that wait in receive buffers for an old lead are discarded (R112). -/
def State.dropReplies (s : State) (old : Nat) : State :=
  (List.range 2).foldl (fun x k => (List.range 4).foldl (fun x cls =>
    ((at? (x.link k).classes cls {}).wait.filter (fun w => w.msg.isReply old)).foldl (fun x w => x.freeWaiting k cls w) x) x) s

/-- The traffic that this member holds for the old lead flows to the new one, but for its replies, which are
discarded (R112); a member that is itself the new lead finds it in a receive buffer. -/
def State.turnTraffic (s : State) (old new : Nat) : State :=
  let turn (m : StMsg) : StMsg := m.turn old new s.main.sk.term
  let keep (l : List StMsg) : List StMsg := (l.filter (fun m => !m.isReply old)).map turn
  let s1 := (s.dropReplies old).modSk (fun k => { k with held := keep k.held })
  let s2 := (List.range 2).foldl (fun x k => x.modLink k (fun l => { l with classes := l.classes.map (fun c =>
    { c with txq := keep c.txq, wait := c.wait.map (fun w => { w with msg := turn w.msg }) }) })) s1
  if new ≠ s.self then s2
  else
    let mine (m : StMsg) : Bool := m.dest == new
    let queued := s2.main.sk.held.filter mine
      ++ (List.range 2).flatMap (fun k => (s2.link k).classes.flatMap (fun c => c.txq.filter mine))
    let s3 := s2.modSk (fun k => { k with held := k.held.filter (fun m => !mine m) })
    let s4 := (List.range 2).foldl (fun x k => x.modLink k (fun l => { l with classes := l.classes.map (fun c =>
      { c with txq := c.txq.filter (fun m => !mine m) }) })) s3
    queued.foldl (fun x m => x.modLink 0 (fun l => l.modClass m.cls (fun c =>
      { c with wait := c.wait ++ [⟨m, 0, false, s.main.nt.totalNs⟩] }))) s4

/-- SK_LEAD_LOST once a lead exists again (R660), stamped when the lead was lost. -/
def State.lostNotice (s : State) (old new : Nat) : State :=
  match s.main.sk.leadLost with
  | none => s
  | some t =>
    (s.modSk (fun k => { k with leadLost := none, lostStamp := [] })).raise
      { code := 0x1004, member := s.self, alarm := true
        bytes := s.main.sk.lostStamp ++ [byte s.self, byte old, byte new] ++ be 4 (sat 0xFFFFFFFF ((s.now - t) / msT)) }

/-- Membership of a lead in office whose downstream is in alignment starts in LISTEN (R362, R662). -/
def State.treeOffice (s : State) : State :=
  if s.main.tm.st ≠ .initial then s
  else if s.tdLocked s.main.td.active then (s.modTd (fun t => { t with lost := false })).enterListen
  else s.modTd (fun t => { t with lost := true, lostAt := s.now })

/-- TIME_LOOSE and suspension, with SK_TIME on a change (R653). -/
def State.setTimeState (s : State) (loose susp : Bool) : State :=
  let k := s.main.sk
  if k.timeLoose = loose ∧ k.suspended = susp then s
  else (s.modSk (fun k => { k with timeLoose := loose, suspended := susp })).notify 0x1005 false
    ([byte s.self, byte (b2n loose + b2n susp * 2)] ++ be 4 (sat 0xFFFFFFFF k.bound))

/-- Office taken with a TERM: STACK_STATE goes out, and every member is judged anew. -/
def State.takeOffice (s : State) (term : Nat) : State :=
  let old := s.main.sk.lead
  let s1 := (s.setTerm term).modSk (fun k => { k with
    isLead := true, leadValid := true, lead := s.self, formed := true, lowSince := none
    order := s.hearth.ps.code, earlyCmds := []
    peers := (k.peers.zipIdx).map (fun (p, m) => { p with
      cmdSeq := 0, present := m == s.self, stateAt := none, pushed := [], imageSent := false
      command := p.command || bits p.flags 5 3 == 4 }) })
  let s2 := (s1.turnTraffic old s.self).lostNotice old s.self
  ((s2.modSk (fun k => { k with bound := 0 })).setTimeState false false).judgeAll.sendStackState.announceAll

/-- A member goes on without office under a lead: its notices and held alarms travel to it, and its held replies
are placed (R121). -/
def State.joinStack (s : State) : State :=
  let raised := s.main.cmd.raised
  let s1 := (s.modSk (fun k => { k with
    formed := true, lastState := s.now, lastExch := s.now })).modCmd (fun c => { c with raised := [] })
  let s2 := s1.heldOrder.foldl (fun x i => x.raise (s.heldNotice i)) (if s1.main.sk.isLead then s1.darken else s1)
  (raised.foldl State.raise s2).pumpOut

/-- The lead that STACK_STATE names is followed (R648, R660, R663). -/
def State.follow (s : State) (t : Taken) : State :=
  let k := s.main.sk
  let lead := field t.body 0 1 % 8
  let other := k.leadValid && k.lead != lead
  let wasLead := k.isLead || (other && k.lead == s.self)
  let s1 := if k.isLead then s.darken else s
  let s2 := if wasLead then
      { s1.clearOffice with hearth := { s1.hearth with start := { s1.hearth.start with lead := false } } } else s1
  let s3 := (s2.setTerm t.term).modSk (fun q => { q with
    leadValid := true, lead := lead, isLead := false, lastState := s.now, order := field t.body 3 1
    rxSeq := if k.leadValid && k.term != t.term then some 0 else k.rxSeq
    earlyCmds := if k.term = t.term then k.earlyCmds else []
    peers := (q.peers.zipIdx).map (fun (p, m) => { p with present := bitOf (field t.body 1 1) m }) })
  let s4 := s3.modPeer s.self (fun p => { p with command := false })
  let bit := bitOf (field t.body 2 1) s.self
  let s5 := (s4.modPeer s.self (fun p => { p with command := bit && s4.causeOf s.self == 0 })).judge s.self
  let s6 := if other || !k.leadValid || k.term != t.term then
      (s5.modCmd (fun c => { c with ops := c.ops.filter (fun e => !e.shadow) })).turnTraffic (if k.leadValid then k.lead else lead) lead
    else s5
  if s.main.sk.formed then (s6.lostNotice k.lead lead).moveMsgs else s6

/-- What STACK_STATE does (R648, R649, R664). -/
def State.stackState (s : State) : State :=
  match s.takeMsg 0x02 with
  | (none, s1) => s1
  | (some t, s1) =>
    let lead := field t.body 0 1 % 8
    let k := s1.main.sk
    let d := sdiff 16 t.term k.term
    if lead = s1.self then s1
    else if 0 < d then s1.follow t
    else if k.isLead then (if s1.outranks lead s1.self then s1.follow t else s1)
    else if !k.leadValid || k.lead == lead || s1.outranks lead k.lead then s1.follow t
    else s1

/-- LEAD_CHANGE of a lead that has restarted and takes up office again (R112, R663); START, which is always the first
packet (R121), goes before it. -/
def State.leadBack (s : State) : State :=
  s.modCmd (fun c => { c with raised :=
    { code := 0x0002, member := s.self, alarm := true, bytes := s.noticeBytes 0x0002 [byte s.self, byte s.self] } :: c.raised })

/-- What ELECT_TIMEOUT does (R648). A lead that its own reset has taken out of office takes it up again where the
stack has found no other (R663). -/
def State.electTimeout (s : State) : State :=
  let k := s.main.sk
  match k.step7At with
  | none => s
  | some t =>
    if k.formed ∨ s.now < t + s.electT then s
    else
      let s1 := s.stepEnd 7
      let own := s.hearth.start.lead && s.candidate s.self && decide (4 ≤ s.main.boot.cause)
      if k.leadValid && s.reach k.lead then s1.joinStack
      else if s.topCandidate = some s.self ∨ own then
        let s2 := (s1.count 0x10000C 7 0).takeOffice ((s.maxTerm ((List.range 8).filter s.reach) + 1) % 65536)
        if own then s2.leadBack else s2
      else s1.joinStack

/-- Step 7 begins (R143, R648, R666). A stack of one forms at once. -/
def State.stackStart (s : State) : State :=
  let s1 := (s.modSk (fun k => { k with step7At := some s.now, term := s.hearth.start.leadTerm })).loadTree
  if s1.expect = 1 then
    let s2 := s1.stepEnd 7
    if s2.main.boot.treeEn && (s2.peer s2.self).quar == 0 then
      (s2.count 0x10000C 7 0).takeOffice ((s2.main.sk.term + 1) % 65536)
    else s2.joinStack
  else s1.announceAll

/-- What LEAD_LOST does (R660, R664). -/
def State.leadLost (s : State) : State :=
  let k := s.main.sk
  if !k.formed ∨ k.isLead ∨ k.leadLost.isSome ∨ s.hearth.ps = .smoulder ∨ s.now < k.lastState + s.lostT then s
  else s.modSk (fun k => { k with leadLost := some s.now, lostStamp := s.noticeBytes 0x1004 [] })

/-- What ABDICATE does (R661). -/
def State.abdicate (s : State) : State :=
  match s.main.sk.isLead && s.main.sk.formed, s.main.sk.lowSince with
  | true, some t =>
    if t + s.lostT ≤ s.now then
      s.darken.modSk (fun k => { k with leadLost := some s.now, lostStamp := s.noticeBytes 0x1004 [], lastState := s.now })
    else s
  | _, _ => s

/-- What TAKEOVER does (R662). -/
def State.takeover (s : State) : State :=
  match s.main.sk.leadLost with
  | none => s
  | some t =>
    let n := 2 * s.reachCount
    let enough := decide (s.expect < n) || (n == s.expect && s.bit 0x100004 27)
    if s.main.sk.isLead ∨ s.now < t + s.takeoverT ∨ s.topCandidate ≠ some s.self ∨ !enough then s
    else
      let old := s.main.sk.lead
      let s1 := (s.clearOffice.count 0x10000C 15 8).modSk (fun k => { k with changed := some old })
      (s1.takeOffice ((s.maxTerm (List.range 8) + 1) % 65536)).loadTree.treeOffice

/-- A lead that comes back before a takeover takes up office again with TERM one greater (R663). -/
def State.resumeOffice (s : State) : State :=
  let k := s.main.sk
  if k.formed && !k.isLead && k.leadValid && k.lead == s.self && k.leadLost.isSome && s.candidate s.self
      && decide (s.expect ≤ 2 * s.reachCount) then
    (s.takeOffice ((s.maxTerm (List.range 8) + 1) % 65536)).treeOffice
  else s

/-- What follows at once from the stack's state: ANNOUNCE on a change of its content (R647), the watch on the
present map (R661), and a lead that is back, or that is quarantined and may no longer be one (R650, R659, R663). -/
def State.stackFollow (s : State) : State :=
  let k := s.main.sk
  if !s.main.out ∨ k.step7At.isNone then s
  else
    let low := k.isLead && k.formed && decide (2 * s.presentCount < s.expect)
    let s1 := s.modSk (fun k => { k with lowSince := if low then (k.lowSince.or (some s.now)) else none })
    let s2 := if k.isLead && k.formed && (s1.peer s1.self).quar != 0 then
        s1.darken.modSk (fun k => { k with leadLost := some s.now, lostStamp := s.noticeBytes 0x1004 [] })
      else s1.resumeOffice
    if s2.announceBody = s2.main.sk.lastAnnounce then s2 else s2.announceAll

/-! ### MEMBER_STATE, ROUTE and the periodic messages (R644, R649) -/

/-- What MEMBER_STATE does. -/
def State.memberState (s : State) : State :=
  match s.takeMsg 0x03 with
  | (none, s1) => s1
  | (some t, s1) =>
    let m := t.src
    let s2 := s1.modPeer m (fun p => { p with
      stateAt := some s1.now, next := field t.body 0 4, blockers := field t.body 4 2, stateFlags := field t.body 7 1 })
    if s2.main.sk.isLead then s2.setPresent m true else s2

/-- What MEMBER_STATE_TIMEOUT does. -/
def State.memberStateTimeout (s : State) : State :=
  if !s.main.sk.isLead || !s.main.sk.formed || s.hearth.ps == .smoulder then s
  else (List.range 8).foldl (fun x m =>
    match (x.peer m).stateAt with
    | some t => if m ≠ x.self ∧ (x.peer m).present ∧ max t x.main.sk.lastState + x.lostT ≤ x.now then x.setPresent m false else x
    | none => x) s

/-- What ROUTE does: the neighbour's counts are taken for the link they came on. -/
def State.routeIn (s : State) : State :=
  match s.takeMsg 0x04 with
  | (none, s1) => s1
  | (some t, s1) =>
    let old := (List.range 8).map s1.hops
    let s2 := s1.modSk (fun k => { k with peers := (k.peers.zipIdx).map (fun (p, m) =>
      { p with hops := p.hops.set t.link (min 8 (field t.body m 1)) }) })
    (if (List.range 8).map s2.hops = old then s2 else s2.sendRoutes).moveMsgs

/-- What ROUTE_TIMER does. -/
def State.routeTimer (s : State) : State :=
  if s.main.out ∧ s.main.sk.step7At.isSome ∧ s.main.sk.routeAt + 16 * msT ≤ s.now then
    s.sendRoutes.modSk (fun k => { k with routeAt := s.now })
  else s

/-- What ANNOUNCE_TIMER does. -/
def State.announceTimer (s : State) : State :=
  if s.main.out ∧ s.main.sk.step7At.isSome ∧ s.main.sk.announceAt + 327680000 ≤ s.now then s.announceAll else s

/-- What STACK_STATE_TIMER does: `next` and `blockers` are this member's (R171). -/
def State.stateTimer (s : State) (next blockers : Nat) : State :=
  if s.main.out ∧ s.main.sk.formed ∧ s.main.sk.stateAt + 32 * msT ≤ s.now then
    if s.main.sk.isLead then s.sendStackState else s.sendMemberState next blockers
  else s

/-! ### Configuration and image pushes (R656 to R658, R664) -/

/-- A byte string sent to a member in parts of 4,096 bytes, AUX holding the offset. -/
def State.sendParts (s : State) (m type : Nat) (b : List Byte) : State :=
  ((chunks (b.length / 4096 + 1) b).zipIdx).foldl (fun x (c, i) => x.sendMsg 3 m type (4096 * i) c) s

/-- The bytes of the image in force. -/
def State.ownConfig (s : State) : List Byte :=
  match s.main.sk.cfgCopy with
  | some c => s.flashRead (cfgAddr c) (64 + field (s.flashRead (cfgAddr c) 64) 8 4)
  | none => []

/-- A configuration image sent to a member, once. -/
def State.pushTo (s : State) (m : Nat) (image : List Byte) : State :=
  if (s.peer m).pushed = image.take 64 then s
  else (s.sendParts m 0x0E image).modPeer m (fun p => { p with pushed := image.take 64 })

/-- Whether a member has announced an image as the one in force. -/
def State.hasConfig (s : State) (m : Nat) (image : List Byte) : Bool :=
  let p := s.peer m
  p.announced && p.seq == field image 4 4 && p.hash == bytesAt image 20 32

/-- The running image sent to a member of another major version (R658). -/
def State.offerImage (s : State) (m : Nat) : State :=
  match s.main.boot.slot with
  | none => s
  | some i =>
    if (s.peer m).imageSent || !s.bit 0x100004 26 then s
    else
      let n := 256 + field (s.imgHeader i) 16 4
      (s.sendParts m 0x0F (s.flashRead (0x10000 + i * 0x100000) n)).modPeer m (fun p => { p with imageSent := true })

/-- A push begins on this lead: its own copy is written, and every present member that differs is sent the image. -/
def State.startPush (s : State) (op : Option Nat) (image : List Byte) : State :=
  let others := (List.range 8).filter (fun m => m != s.self && (s.peer m).present && !s.hasConfig m image)
  let c := match s.main.sk.cfgCopy with | some c => 1 - c | none => 0
  let s1 := s.modSk (fun k => { k with push := some { op := op, image := image, await := s.self :: others } })
  let s2 := others.foldl (fun x m => if (x.peer m).quar = 1 then x else x.pushTo m image) s1
  s2.flashAsk (.config c image)

/-- A push ends once no member is awaited: the operation is answered and the next commit begins (R657, R664). -/
def State.endPush (s : State) : State :=
  match s.main.sk.push with
  | none => s
  | some p =>
    if p.await ≠ [] then s
    else
      let s1 := (s.modSk (fun k => { k with push := none })).finish? p.op (if p.failed = [] then 0 else 0x1001)
        [byte (mapOf (fun m => p.failed.contains m))]
      match s1.main.sk.pushQ with
      | (op, b) :: t => (s1.modSk (fun k => { k with pushQ := t })).startPush op b
      | [] => s1

/-- A member is done with the push that runs. -/
def State.pushDone (s : State) (m : Nat) (ok : Bool) : State :=
  (s.modSk (fun k => { k with push := k.push.map (fun p =>
    if p.await.contains m then
      { p with await := p.await.filter (· != m), failed := if ok then p.failed else p.failed ++ [m] }
    else p) })).endPush

/-- What the flash write of a configuration image leads to: the image is applied, or the member is quarantined. -/
def State.configWritten (s : State) (c : Nat) (image : List Byte) (ok : Bool) : State :=
  let f := if ok then flashWrite (flashErase s.flash (cfgAddr c) 0x40000) (cfgAddr c) image
    else flashErase s.flash (cfgAddr c) 0x40000
  let s1 := { s with flash := f }
  let (s2, good) := if ok then (s1.modSk (fun k => { k with cfgCopy := some c })).applyImage image
    else (s1.modSk (fun k => { k with cfgBad := true }), false)
  let s3 := s2.judge s.self
  if s3.main.sk.isLead then s3.pushDone s.self good
  else if good then s3 else s3.sendMsg 0 s3.main.sk.lead 0x0A 1 [0x0E#8]

/-- A part added to what has arrived of an image; a new image begins at offset 0. -/
def addPart (l : List (Nat × List Byte)) (o : Nat) (b : List Byte) : List (Nat × List Byte) :=
  if o = 0 ∧ l.any (fun p => p.1 == 0) then [(0, b)] else l ++ [(o, b)]

/-- The first `n` bytes of what has arrived, where all of them have. -/
def assembled : Nat → Nat → List (Nat × List Byte) → List Byte → Option (List Byte)
  | 0, _, _, _ => none
  | k + 1, n, l, acc =>
    if n ≤ acc.length then some (acc.take n)
    else match l.find? (fun p => p.1 == acc.length && p.2 != []) with
      | some p => assembled k n l (acc ++ p.2)
      | none => none

/-- What CONFIG does: the whole image is written to the copy not taken, then applied (R657). -/
def State.configIn (s : State) : State :=
  match s.takeMsg 0x0E with
  | (none, s1) => s1
  | (some t, s1) =>
    let l := addPart s1.main.sk.rxCfg t.aux t.body
    let h := (l.find? (fun p => p.1 == 0)).map (·.2)
    let whole := match h with | some b => assembled 66 (64 + field b 8 4) l [] | none => none
    match whole with
    | none => s1.modSk (fun k => { k with rxCfg := l })
    | some b =>
      let c := match s1.main.sk.cfgCopy with | some c => 1 - c | none => 0
      let s2 := s1.modSk (fun k => { k with rxCfg := [] })
      if cfgOk b then s2.flashAsk (.config c b)
      else ((s2.modSk (fun k => { k with cfgBad := true })).judge s2.self).sendMsg 0 s2.main.sk.lead 0x0A 1 [0x0E#8]

/-- What IMAGE does: the whole image is written to the slot that does not run (R658). -/
def State.imageIn (s : State) : State :=
  match s.takeMsg 0x0F with
  | (none, s1) => s1
  | (some t, s1) =>
    let l := addPart s1.main.sk.rxImage t.aux t.body
    let h := (l.find? (fun p => p.1 == 0)).map (·.2)
    let whole := match h with | some b => assembled 258 (256 + field b 16 4) l [] | none => none
    match whole, s1.main.boot.slot with
    | some b, some i => (s1.modSk (fun k => { k with rxImage := [] })).flashAsk (.image (1 - i) b)
    | _, _ => s1.modSk (fun k => { k with rxImage := l })

/-- What the flash write of an image leads to: it is checked and activated, or the lead is told (R658). -/
def State.imageWritten (s : State) (slot : Nat) (image : List Byte) (ok : Bool) : State :=
  let a := 0x10000 + slot * 0x100000
  let s1 := { s with flash := flashWrite (flashErase s.flash a 0x100000) a image }
  let st := if ok then s1.imgCheck slot else 0x0105
  if st = 0 then
    let s2 := s1.recordDigest slot (bytesAt (s1.imgHeader slot) 32 32)
    ({ s2 with hearth := { s2.hearth with start := { s2.hearth.start with trialCount := 0 } } }).flashAsk
      (.bootRecord none slot 1 2)
  else s1.sendMsg 0 s1.main.sk.lead 0x0A st [0x0F#8]

/-- What ANNOUNCE does (R647, R650, R657, R658). -/
def State.announceIn (s : State) : State :=
  match s.takeMsg 0x01 with
  | (none, s1) => s1
  | (some t, s1) =>
    let m := t.src
    let p := s1.peer m
    let serial := field t.body 43 8
    if m = s1.self then
      if serial = ownSerial then s1
      else (s1.modPeer m (fun p => { p with duplicateAt := some s1.now })).judge m
    else
      let dup := p.announced && p.serial != serial && s1.reach m && decide (s1.now < p.announcedAt + 3 * secT)
      let flags := field t.body 0 1
      let s2 := s1.modPeer m (fun p => { p with
        announced := true, flags := flags, fw := field t.body 1 4, seq := field t.body 5 4, hash := bytesAt t.body 9 32
        term := field t.body 41 2, serial := serial, announcedAt := s1.now
        stateFlags := p.stateFlags / 2 * 2 + b2n (bitOf flags 1)
        duplicateAt := if dup then some s1.now else p.duplicateAt })
      let s3 := s2.judge m
      if s3.main.sk.isLead && s3.main.sk.formed then
        let q := (s3.peer m).quar
        if q = 3 then s3
        else if q = 1 then s3.offerImage m
        else match s3.main.sk.push with
          | some x => if s3.hasConfig m x.image then s3.pushDone m true
              else if x.await.contains m then s3.pushTo m x.image else s3
          | none =>
            let b := s3.ownConfig
            if b = [] ∨ s3.hasConfig m b then s3 else s3.pushTo m b
      else if s3.main.sk.leadValid && m == s3.main.sk.lead then s3.judge s3.self
      else s3

/-- What DUPLICATE_QUIET_TIMEOUT does (Table SK-5). -/
def State.duplicateQuiet (s : State) : State :=
  (List.range 8).foldl (fun x m => match (x.peer m).duplicateAt with
    | some t => if t + 3 * secT ≤ x.now then (x.modPeer m (fun p => { p with duplicateAt := none })).judge m else x
    | none => x) s

/-! ### Time over Strait (R651 to R653; log entry 12) -/

/-- A TIME message: kind, a time, and B. -/
def timeBody (kind t b : Nat) : List Byte := [byte kind] ++ be 6 (t / 1000000000) ++ be 4 (t % 1000000000) ++ be 4 b

/-- The time that a TIME message carries. -/
def timeOf (b : List Byte) : Nat := field b 1 6 * 1000000000 + field b 7 4

/-- PERIOD_MS in ticks. -/
def State.periodT (s : State) : Nat := s.fld 0x100008 31 22 * 8 * msT

/-- A message sent to the neighbour on a link. -/
def State.sendNext (s : State) (k : Nat) (kind t b : Nat) : State :=
  (s.offerOn k ⟨1, (s.link k).partnerMember, s.stackMsg 0x10 0 (timeBody kind t b)⟩).getD s

/-- A message of a smaller TERM, which is ignored (R648). -/
def State.stale (s : State) (t : Taken) : Bool := decide (sdiff 16 t.term s.main.sk.term < 0)

/-- A waiting TIME message of a kind taken. -/
def State.takeTime (s : State) (kind : Nat) : Option (Taken × State) :=
  (([0, 1] : List Nat).findSome? (fun k =>
    ((at? (s.link k).classes 1 {}).wait.find? (fun w => field w.msg.bytes 0 1 == 0x10 && field w.msg.bytes 8 1 == kind)).map
      (fun w => (w.taken k 1, s.freeWaiting k 1 w))))

/-- A waiting TIME_SYNC and a waiting TIME_REQ are dealt with: t1 and t2 are recorded and TIME_REQ goes out; t4 is
returned in TIME_RESP. -/
def State.timeAnswer (s : State) : State :=
  let s1 := match s.takeTime 0 with
    | some (t, x) =>
      if !x.stale t ∧ t.src = x.timeParent ∧ !x.main.sk.isLead ∧ x.main.sk.leadValid then
        let e : Exch := ⟨timeOf t.body, t.at_, t.at_, field t.body 11 4, x.main.nt.adjLeft⟩
        (x.modSk (fun k => { k with exch := some e })).sendNext t.link 1 0 0
      else x
    | none => s
  match s1.takeTime 1 with
  | some (t, x) => if x.stale t then x else x.sendNext t.link 2 t.at_ 0
  | none => s1

/-- What TIME_EXCHANGE does: as a parent, TIME_SYNC goes out on each link that is UP when a period is due; the
messages that wait are answered; a member without an exchange for four periods is TIME_LOOSE. -/
def State.timeExchange (s : State) : State :=
  let k := s.main.sk
  if !s.main.out ∨ !k.formed then s
  else
    let due := decide (k.exchAt + s.periodT ≤ s.now) && (k.isLead || (k.leadValid && k.leadLost.isNone))
    let s1 := if due then
        ((List.range 2).foldl (fun x i =>
          if (x.link i).st = .up ∧ (x.link i).partnerMember ≠ x.timeParent ∨ (x.link i).st = .up ∧ k.isLead then
            x.sendNext i 0 0 (if k.isLead then 0 else k.bound) else x) s).modSk (fun k => { k with exchAt := s.now })
      else s
    let s2 := s1.timeAnswer
    if !k.isLead && decide (k.lastExch + 4 * s.periodT ≤ s.now) then s2.setTimeState true s2.main.sk.suspended else s2

/-- What TIME_RESP does (R652, R653). -/
def State.timeResp (s : State) : State :=
  match s.takeTime 2 with
  | none => s
  | some (t, s1) =>
    match s1.main.sk.exch with
    | none => s1
    | some e =>
      let s2 := s1.modSk (fun k => { k with exch := none })
      if s1.stale t then s1
      else if e.t2 + s1.fld 0x100008 31 22 * 8000000 < s1.main.nt.totalNs then s2
      else
        let o := Int.tdiv ((e.t2 - e.t1) - ((timeOf t.body : Int) - e.t3)) 2
        let b := o.natAbs + e.bParent
        let s3 := (s2.modNt (fun n => { n with lastAccepted := s1.now })).ntApply (-o) e.left e.t1
          (s2.main.nt.lastRef.map (fun r => e.t1 - r))
        let s4 := s3.modSk (fun k => { k with bound := b, lastExch := s1.now })
        s4.setTimeState (decide (1000 < b)) (if 100000 < b then true else if b ≤ 1000 then false else s4.main.sk.suspended)

/-! ### PHASE (R654) -/

/-- At a second boundary every member latches its phase angles and sends them to the lead. -/
def State.phaseLatch (s : State) (sec : Nat) : State :=
  let l := (List.range 3).map (fun p =>
    ((s.angle + 65536 - s.offsetOf p % 65536) % 65536, (s.phase p).present && s.main.ma.st == .locked))
  let s1 := s.modSk (fun k => { k with latch := (sec, l) })
  let k := s.main.sk
  if k.formed && !k.isLead && k.leadValid && k.leadLost.isNone then
    s1.sendMsg 0 k.lead 0x11 0 (be 6 sec ++ l.flatMap (fun x => be 2 x.1 ++ [byte (b2n x.2)]))
  else s1

/-- One phase of a member compared. -/
def State.comparePhase (s : State) (m p : Nat) (d : Int) : State :=
  let q := s.peer m
  let big := decide (364 < d.natAbs)
  let small := decide (d.natAbs ≤ 300)
  let a := if big then at? q.skewRun p 0 + 1 else 0
  let b := if small then at? q.okRun p 0 + 1 else 0
  let on := at? q.skewed p false
  let s1 := s.modPeer m (fun x => { x with skewRun := x.skewRun.set p a, okRun := x.okRun.set p b })
  let tell (x : State) (cleared : Bool) : State :=
    (x.modPeer m (fun y => { y with skewed := y.skewed.set p !cleared })).notify 0x1003 false
      ([byte m, byte p] ++ be 2 (ofSigned 16 d) ++ [byte (b2n cleared)])
  if !on && decide (3 ≤ a) then tell s1 false else if on && decide (3 ≤ b) then tell s1 true else s1

/-- What PHASE does. -/
def State.phaseIn (s : State) : State :=
  match s.takeMsg 0x11 with
  | (none, s1) => s1
  | (some t, s1) =>
    let m := t.src
    let (sec, l) := s1.main.sk.latch
    if !s1.main.sk.isLead || field t.body 0 6 != sec || bits (s1.peer m).stateFlags 2 1 != 0 then s1
    else (List.range 3).foldl (fun x p =>
      let (own, here) := at? l p (0, false)
      if here && field t.body (8 + 3 * p) 1 == 1 then x.comparePhase m p (sdiff 16 (field t.body (6 + 3 * p) 2) own) else x) s1

/-! ### Messages for the lead and from it (R88, R317, R343, R349, R375, R420, R439) -/

/-- What REPLY_NOTICE does: a reply of a member, in parts, completes its operation; a notice takes its place. -/
def State.replyNotice (s : State) : State :=
  match s.takeMsg 0x06 with
  | (none, s1) => s1
  | (some t, s1) =>
    let h := hdrOf t.body
    let d := bytesAt t.body 16 h.length
    if h.kind = 2 then
      let r : Raised := { code := h.opcode, member := t.src, alarm := bitOf h.flags 4, bytes := d }
      if s1.main.cmd.started then (s1.takePlace r).pumpOut else s1.modCmd (fun c => { c with raised := c.raised ++ [r] })
    else match s1.opOfTag h.tag with
      | none => s1
      | some e =>
        let got := e.parts.filter (fun p => p.1 == t.src)
        if !e.await.contains t.src ∨ e.opcode ≠ h.opcode ∨ h.part ≠ got.length then s1
        else
          let before := (got.map (·.2)).flatten
          let s2 := s1.modOp e.id (fun e => { e with lastReply := if e.all then e.lastReply else s1.now })
          if bitOf h.flags 5 then s2.modOp e.id (fun e => { e with parts := e.parts ++ [(t.src, d)] })
          else s2.memberResult e.id ⟨t.src, h.status, before ++ d⟩

/-- What METER_RESULT does: the result enters the queue that AUX names, or is passed back (R420). -/
def State.meterResult (s : State) : State :=
  match s.takeMsg 0x07 with
  | (none, s1) => s1
  | (some t, s1) =>
    match s1.enqueue (t.aux % 32) (.member t.src) t.body with
    | (s2, 0) => s2
    | (s2, _) => s2.sendMsg 0 t.src 0x0A t.aux ([0x07#8] ++ t.body)

/-- What SDU_DOWN does (R317). -/
def State.sduDown (s : State) : State :=
  match s.takeMsg 0x08 with
  | (none, s1) => s1
  | (some t, s1) =>
    (s1.modTd (fun d => { d with sdus := d.sdus ++
      [{ port := 0, dest := bits t.aux 28 24, member := s1.self, bytes := t.body, distrust := bitOf t.aux 31 }] })).routeSdus
      (s1.main.td.sdus.length + 1)

/-- What SDU_UP does: an SDU for a queue, a coloured Ethernet frame, or a container for its reservation. -/
def State.sduUp (s : State) : State :=
  match s.takeMsg 0x09 with
  | (none, s1) => s1
  | (some t, s1) =>
    let b := t.body
    match field b 0 1 with
    | 0 =>
      match s1.enqueue (field b 1 1 % 32) (.member t.src) (b.drop 2) with
      | (s2, 0) => s2
      | (s2, _) => s2.sendMsg 0 t.src 0x0A t.aux ([0x09#8] ++ b)
    | 1 => s1.offerColoured t.src (field b 3 1 % 16) (field b 1 1 % 32) (field b 2 1) (b.drop 4)
    | _ => s1.remoteContainer t.src (field b 1 1 % 4) (field b 2 1 % 8) (field b 3 4) (b.drop 7)

/-- What REFUSAL does: a result goes to the hold, a unit waits to be offered again, and a refused push or image is
reported (R375, R420, R657, R658). -/
def State.refusalIn (s : State) : State :=
  match s.takeMsg 0x0A with
  | (none, s1) => s1
  | (some t, s1) =>
    match field t.body 0 1 with
    | 0x07 => (s1.holdResult none (t.aux % 32) (t.body.drop 1)).1
    | 0x09 => s1.unitRefused (field t.body 2 1 % 32) (t.body.drop 3)
    | 0x0E => s1.pushDone t.src false
    | 0x0F => if s1.main.sk.isLead then s1.quarNotice t.src 1 true t.aux else s1
    | _ => s1

/-- What REG_ACCESS does: an event counted in one of this member's registers, or one of its held alarms cleared. -/
def State.regAccess (s : State) : State :=
  match s.takeMsg 0x0B with
  | (none, s1) => s1
  | (some t, s1) =>
    if field t.body 0 1 = 1 then s1.count (field t.body 1 4) (field t.body 5 1) (field t.body 6 1)
    else { s1 with hearth := { s1.hearth with held := s1.hearth.held.set (field t.body 1 1) {} } }

/-- What TREE_RECORD does: a standby lead keeps the record (R349). -/
def State.treeRecordIn (s : State) : State :=
  match s.takeMsg 0x0D with
  | (none, s1) => s1
  | (some t, s1) => { s1 with hearth := { s1.hearth with treeRec := padTo 256 t.body } }

/-- COMMAND messages taken in the order of their numbers (R646): each makes a shadow entry of its own; the handles
of those entries. `k` bounds them. -/
def State.takeEarly : Nat → State → List Nat → List Nat × State
  | 0, s, ids => (ids, s)
  | k + 1, s, ids =>
    let next := s.main.sk.rxSeq.getD 0
    match s.main.sk.earlyCmds.find? (fun c => c.1 == next) with
    | none => (ids, s)
    | some (_, b) =>
      let h := hdrOf b
      let id := s.main.cmd.nextOp
      let e : OpEntry := { id := id, tag := h.tag, opcode := h.opcode, member := s.self, st := .running,
                           params := bytesAt b 16 h.length, accepted := s.now, lastReply := s.now, shadow := true }
      let s1 := (s.modCmd (fun c => { c with nextOp := id + 1, ops := c.ops ++ [e] })).modSk (fun q => { q with
        rxSeq := some ((next + 1) % 65536), earlyCmds := q.earlyCmds.filter (fun c => c.1 != next) })
      State.takeEarly k s1 (ids ++ [id])

/-- A COMMAND message taken: the entries of the commands that may now run. -/
def State.commandIn (s : State) : List Nat × State :=
  match s.takeMsg 0x05 with
  | (none, s1) => ([], s1)
  | (some t, s1) =>
    let s2 := s1.modSk (fun k => { k with
      rxSeq := some (k.rxSeq.getD (t.aux % 65536)), earlyCmds := k.earlyCmds ++ [(t.aux % 65536, t.body)] })
    State.takeEarly s2.main.sk.earlyCmds.length s2 []

/-! ### Opcodes (R667) -/

/-- SK_CFG_WRITE: OFFSET 4, DATA. -/
def opSkCfgWrite (op : Nat) (p : List Byte) (s : State) : State :=
  if p.length < 5 ∨ 4094 < p.length then s.finish op 0x0004 []
  else if 0x40000 < field p 0 4 + (p.length - 4) then s.finish op 0x0005 []
  else (s.modSk (fun k => { k with staging := flashWrite k.staging (field p 0 4) (p.drop 4) })).finish op 0 []

/-- SK_CFG_COMMIT: LENGTH 4. -/
def opSkCfgCommit (op : Nat) (p : List Byte) (s : State) : State :=
  if p.length ≠ 4 then s.finish op 0x0004 []
  else if field p 0 4 < 64 ∨ 0x40000 < field p 0 4 then s.finish op 0x0005 []
  else
    let n := field p 0 4
    let b := (List.range n).map (fun i => flashGet s.main.sk.staging i)
    if !cfgOk b ∨ n < 64 + field b 8 4 ∨ field b 12 8 ≠ s.termSerial then s.finish op 0x1000 []
    else
      let image := b.take (64 + field b 8 4)
      if s.main.sk.push.isSome then s.modSk (fun k => { k with pushQ := k.pushQ ++ [(some op, image)] })
      else s.startPush (some op) image

/-- SK_QUARANTINE: MEMBER 1, ACTION 1. -/
def opSkQuarantine (op : Nat) (p : List Byte) (s : State) : State :=
  let m := field p 0 1
  if p.length ≠ 2 then s.finish op 0x0004 []
  else if 7 < m ∨ 1 < field p 1 1 then s.finish op 0x0005 []
  else if field p 1 1 = 1 then ((s.modPeer m (fun q => { q with command := true })).judge m).finish op 0 []
  else if (s.peer m).quar ≠ 4 then s.finish op 0x1002 []
  else ((s.modPeer m (fun q => { q with command := false })).judge m).finish op 0 []

/-- TM_SET_SERIAL (R363, R656): the serial is set and the record invalid; a new image with the serial and SEQ one
greater goes to every member. -/
def opTmSetSerial (op : Nat) (p : List Byte) (s : State) : State :=
  if p.length ≠ 8 then s.finish op 0x0004 []
  else if !s.tmIdle then s.finish op 0x000E []
  else
    let old := s.ownConfig
    let body := old.drop 64
    let h := be 4 0x43564347 ++ be 4 ((s.main.sk.cfgSeq + 1) % 2 ^ 32) ++ be 4 body.length ++ p ++ sha256 body
      ++ List.replicate 8 0#8
    let image := h ++ be 4 (crc32 h) ++ body
    let s1 := (s.modSk (fun k => { k with serial := field p 0 8 })).invalidateRecord.pushTerm
    let s2 := if s1.main.sk.push.isSome then s1.modSk (fun k => { k with pushQ := k.pushQ ++ [(none, image)] })
      else s1.startPush none image
    s2.finish op 0 []

end Sys2Proof.Machine
end

