-- ==== Sys2Proof/Machine/StartUp.lean ====
section
/-! DEFINITION. From power to Working (02, 04): resets of the main domain, rails, the boot steps, START,
and the image opcodes. -/

namespace Sys2Proof.Machine

/-- The Hearth changed by a function. -/
def State.modHearth (s : State) (f : Hearth → Hearth) : State := { s with hearth := f s.hearth }
/-- Each mesh LFSR reseeded from the DRBG; a seed of zeros is drawn again (R165, R166). -/
def State.reseedMesh (s : State) : State :=
  let (a, s1) := s.draw
  let (b, s2) := s1.draw
  s2.modHearth (fun h => { h with lfsr := [1 + a % 65535, 1 + b % 65535], lfsrAt := h.cycles })


/-! ### Resets (R45, R46, R66, R67, R119, R152) -/

/-- A byte string programmed over what the flash holds: bits can only fall (NOR flash). -/
def nor (old new : List Byte) : List Byte := (old.zip new).map (fun x => x.1 &&& x.2)

/-- What a flash operation that does not end well leaves (R148, R156): the spec gives its region no content but that a
boot record copy is invalid or holds the old one. Either the old content or what the operation's first part leaves, an
erased region or a part of the data programmed, stands; which is a free value (DESIGN CHOICE, log entry 10). -/
def State.flashCut (s : State) (op : FlashOp) : State :=
  let (c, s1) := s.draw
  if c % 2 = 0 then s1
  else
    let cut (a : Nat) (d : List Byte) : List Host.Cell :=
      let part := d.take (c / 2 % (d.length + 1))
      flashWrite s.flash a (nor (s.flashRead a part.length) part)
    { s1 with flash := match op with
      | .imgErase _ slot => flashErase s.flash (0x10000 + slot * 0x100000) 0x100000
      | .image slot _ => flashErase s.flash (0x10000 + slot * 0x100000) 0x100000
      | .imgWrite _ slot off d => cut (0x10000 + slot * 0x100000 + off) d
      | .bootRecord _ _ _ _ => flashErase s.flash (0x1000 * s.bootWriteCopy) 0x1000
      | .config c _ => flashErase s.flash (0x210000 + c * 0x40000) 0x40000
      | .repairLog n _ => flashErase s.flash (0x290000 + n * 0x1000) 0x1000
      | .preErase n => flashErase s.flash (archAddr n) 0x20000 }

/-- The flash operation in progress, cut off: the main domain is reset or loses its power (R148; log entry 10). -/
def State.cutFlashOp (s : State) : State :=
  match s.main.boot.flashOp with
  | none => s
  | some op => s.flashCut op

/-- The main domain is reset: everything outside the Hearth returns to its Reset column; a flush
under way is reported INTERRUPTED at the next start (R19, R119, Table AL-6), and the Hearth completes a key update
that is committed (R63, R489). A pulse on RLYn runs on (R252). -/
def State.resetMain (s : State) (cause : Nat) : State :=
  let s1 := s.cutFlashOp.completeUpdate
  { s1 with
    regs := RegFile.hearthOnly s1.regs
    main := .cold
    hearth := { s1.hearth with
      cause := cause, minBlaze := none, minMore := [], ps := .ember
      cutFlush := (s.main.ash.flush.map (fun f => (f.slot, f.pages, f.aseq))).or s.hearth.cutFlush } }

/-- What RESET_N does (R46, R63): its fall has been recognised, and it rises when it has been low for `lowUs`. -/
def State.resetN (s : State) (lowUs : Nat) : State :=
  if 10 ≤ lowUs ∧ s.hearth.pen then
    let s1 := if s.main.out then s.resetMain 0x04 else s
    { s1 with hearth := { s1.hearth with rstHighAt := s.now + (lowUs - 10) * usT } }
  else s

/-! ### Main rails (R45, R66, R67, Table BA-6) -/

/-- The window of a main rail in mV, in the order of the rail map of Table AL-2 (Table BA-6). -/
def railWindow (i : Nat) : Nat × Nat :=
  if i = 0 then (720, 880) else if i = 1 then (810, 990) else if i = 5 then (2970, 3630) else (1620, 1980)

/-- The map of the rails outside their windows (Table AL-2), given their levels in mV. -/
def railMap (mv : List Nat) : Nat :=
  ((List.range 7).map (fun i =>
    let v := at? mv i 0
    b2n (decide (v < (railWindow i).1 ∨ (railWindow i).2 < v)) * 2 ^ i)).sum

/-- PEN_MAIN is driven low: the main rails fall, and with them every output of the main domain. -/
def State.penLow (s : State) : State :=
  { s with
    pulses := List.replicate 16 none
    hearth := { s.hearth with pen := false, railsUp := false, minBlaze := none, minMore := [] } }

/-- The rail lockout (R66, R193): PEN_MAIN low until PSU_OK has been low and then high again. -/
def State.railLockout (s : State) (rails : Nat) : State :=
  let s1 := (s.ashHearth 0x01 0x03 [byte rails, 2#8]).penLow
  let t := s1.hearthBytes
  { s1 with hearth := { s1.hearth with
      lockout := true, lockoutLow := false, restartAt := none, retryAt := none
      held := s1.hearth.held.modify 12 (fun e => { e with
        flags := Nat.lor e.flags 1
        count := sat 0xFFFF (e.count + 1)
        first := (if e.count = 0 then t else e.first)
        last := t
        reserve := s1.hearth.resCode }) } }

/-- What RAIL_OUT_OF_WINDOW does, given the rails' levels and how long the excursion lasts (R45, R46, R66): the monitors
ignore one shorter than 2 µs. While PSU_OK is high it is recorded, and the third in 60 s locks the chip out. -/
def State.railOut (s : State) (mv : List Nat) (ns : Nat) : State :=
  let rails := railMap mv
  if !s.hearth.pen || !s.hearth.railsUp || rails == 0 || decide (ns < 2000) then s
  else
    let s0 := { s with pulses := List.replicate 16 none, hearth := { s.hearth with railsUp := false, railsFrom := s.now } }
    if !s.hearth.psuOk then s0.resetMain 0x05
    else
      let s1 := (s0.ashHearth 0x01 0x03 [byte rails, 0#8]).resetMain 0x05
      let times := s.now :: s.hearth.railResets.filter (fun t => decide (s.now < t + 60 * secT))
      let s2 := { s1 with hearth := { s1.hearth with railResets := times, restartAt := some (s.now + 10 * msT) } }
      if 3 ≤ times.length then s2.railLockout rails else s2

/-- What RAIL_RESTART does: the Hearth requests the start again (R66, and Table SU-7, step 2). -/
def State.railRestart (s : State) : State :=
  match s.hearth.restartAt with
  | some t =>
    if t ≤ s.now then
      let s1 := if s.main.boot.stopped then { s with main := .cold, regs := RegFile.hearthOnly s.regs } else s
      { s1 with hearth := { s1.hearth with restartAt := none } }
    else s
  | none => s

/-- What RAILS_NOT_UP does, given the rails' levels (R67). A minimal Blaze that fails so is retried as an ordinary start:
the spec does not say as what (DESIGN CHOICE, log entry 129). -/
def State.railsNotUp (s : State) (mv : List Nat) : State :=
  let rails := railMap mv
  if s.hearth.pen ∧ !s.main.out ∧ !s.hearth.railsUp ∧ rails ≠ 0 ∧ s.hearth.penRise + 50 * msT ≤ s.now then
    let s1 := (s.ashHearth 0x01 0x03 [byte rails, 1#8]).penLow
    { s1 with hearth := { s1.hearth with retryAt := some (s.now + secT) } }
  else s

/-- PEN_MAIN rises: the main rails begin to. -/
def Hearth.penRises (h : Hearth) (now : Nat) : Hearth :=
  { h with pen := true, penRise := now, railsUp := false, railsFrom := now }

/-- What RAIL_RETRY does (R67): nothing in a rail lockout (R66). -/
def State.railRetry (s : State) : State :=
  match s.hearth.retryAt with
  | some t =>
    if t ≤ s.now ∧ !s.hearth.lockout ∧ s.hearth.running then
      { s with hearth := { s.hearth.penRises s.now with retryAt := none } } else s
  | none => s

/-- What WATCHDOG does (R152): only a clocked core counts, no core expires before it has been clocked for 2 s, and the
boot ROM is not watched. -/
def State.watchdog (s : State) (core code : Nat) : State :=
  if s.main.out && s.main.boot.slot.isSome && s.hearth.ps == .blaze && decide (core < 4)
      && decide (2 * secT ≤ s.main.boot.dog) then
    (s.ashHearth 0x01 0x06 ([byte core] ++ be 4 code)).resetMain 0x06
  else s

/-! ### START (R120, R144, R183) -/

/-- The flags byte of START (Table SU-6). -/
def State.startFlags (s : State) : Nat :=
  let b := s.main.boot
  b2n s.keysEmpty + b2n (s.hearth.held.any (fun h => 0 < h.count)) * 2 + b2n b.configDefault * 4 + b2n b.trial * 8
    + b2n b.reverted * 16 + b2n b.rescue * 32 + b2n b.warm * 64

/-- Locked clips that were lost unsent at the entry to Ember are reported (R546). -/
def State.lostClips (s : State) : State :=
  if s.hearth.clipsLost = 0 then s
  else ({ s with hearth := { s.hearth with clipsLost := 0 } }).notify 0x0C04 true (be 2 s.hearth.clipsLost)

/-- The first packet placed, before anything else: START with its cause, or LEAD_CHANGE after a takeover (R112,
R120). -/
def State.firstPacket (s : State) : State :=
  let b := s.main.boot
  let (code, c) := match s.main.sk.changed with
    | some old => (0x0002, [byte old, byte s.self])
    | none => (0x0001, [byte b.cause] ++ be 4 s.strapsWord ++ be 4 b.fw ++ [byte s.startFlags])
  let s1 := (s.modCmd (fun c => { c with started := true })).storeNotice
    { code := code, member := s.self, alarm := true, bytes := s.noticeBytes code c } none
  match s1.main.cmd.notices.getLast? with
  | some n => (s1.modCmd (fun c => c.place n)).pushOut n.packet
  | none => s1

/-- START queued as the first packet, then the held alarms, then what was raised before it; the
replies held until then follow START (R119 to R121, R147, R183). After a takeover LEAD_CHANGE takes START's place. -/
def State.queueStart (s : State) : State :=
  if s.main.cmd.started then s else
  let s1 := (s.modCmd (fun c => { c with raised := [] })).firstPacket
  let held := if s.main.sk.changed.isSome then [] else
    s.heldOrder.filter (fun i => !s.main.cmd.notices.any (fun n => n.held == some i))
  let s2 := held.foldl (fun x i => x.takePlace (s.heldNotice i)) s1
  let s3 := s.main.cmd.raised.foldl (fun x r => x.takePlace r) s2
  let s4 := (s3.modBoot (fun b => { b with startAt := b.startAt.or (some s.now) })).modSk (fun k => { k with changed := none })
  (if s.hearth.minBlaze.isSome then s4
  else { s4 with hearth := { s4.hearth with start := { s4.hearth.start with
      msel := some s.main.boot.msel, lead := s.main.sk.isLead } } }).pumpOut

/-- The boot record of a start from the slot that is not PREFERRED, once START has been queued; IMG_REVERTED follows it
(R136). -/
def State.revertNotice (s : State) : State :=
  match s.main.boot.revertDue, s.main.boot.slot with
  | true, some i => (s.modBoot (fun b => { b with revertDue := false })).flashAsk (.bootRecord none i 0 3)
  | _, _ => s

/-- Step 9 (Table SU-1): from here on fuse channels, cameras, Watch, meter ports, poll programs, schedule actions,
tributaries and Ethernet run as their registers say. -/
def State.localStart (s : State) : State :=
  if s.main.boot.local9 then s
  else ((s.modBoot (fun b => { b with local9 := true, localAt := s.now })).camsStart).stepEnd 9

/-- Step 8 ends, START is queued and step 9 begins (R125, R126). -/
def State.goWorking (s : State) : State :=
  let s1 := if s.main.cmd.started then s
    else if s.main.sk.changed.isSome then s.queueStart.pushTerm
    else
      s.queueStart.revertNotice.pushTerm
  s1.localStart

/-- What STEP_9_TIMEOUT does (R126). -/
def State.step9Timeout (s : State) : State :=
  match at? s.main.boot.ends 4 none with
  | some t => if t + 5 * secT ≤ s.now ∧ s.hearth.minBlaze.isNone then s.localStart else s
  | none => s

/-! ### The boot steps (R124 to R141) -/

/-- The slot that the ROM starts (R136): the one boot record says, or the other, where acceptable. -/
def State.chooseSlot (s : State) (first second : Nat) : Option Nat :=
  if s.slotAcceptable first then some first else if s.slotAcceptable second then some second else none

/-- Rescue (R138): the service UART is bound, and START is sent with the rescue flag. -/
def State.enterRescue (s : State) : State :=
  ((s.modBoot (fun b => { b with rescue := true, slot := none, fw := 0 })).modCmd (fun c => { c with bound := .uart })).queueStart

/-- Network time as hardware seeds it from Hearth time when the main domain leaves reset (R228). -/
def State.seedTime (s : State) : NetTime := { sec := s.hearthSec, ns := s.hearthFrac * 1000000000 / 32768 }

/-- Step 2: straps, fuses, transport; network time is seeded from Hearth time (R55 to R57, R120,
R139, R228). -/
def State.step2 (s : State) (msel member : Nat) (treeEn : Bool) : State :=
  let cause := s.hearth.cause
  let changed := s.hearth.start.msel.isSome && s.hearth.start.msel != some msel
  let bound : Transport := if msel = 0 then .tree else if msel = 1 then .spi else .uart
  let boot : Boot := { cause := cause, msel := msel, member := member, treeEn := treeEn, mselInvalid := msel == 3, mselChanged := changed }
  let s1 := { s with
    main := { Main.cold with
      out := true
      boot := boot
      cmd := { bound := bound }
      nt := s.seedTime }
    hearth := { s.hearth with cause := 0x05, ps := .blaze } }
  let s2 := if changed && (cause == 0x02 || cause == 0x03) then s1.ash 0x00 0x02 [byte (s.hearth.start.msel.getD 0), byte msel] else s1
  (s2.stepEnd 1).stepEnd 2

/-- Step 4: slot choice, load and checks; none where the ROM enters rescue (R133 to R137). -/
def State.step4 (s : State) : Option State :=
  let r := s.bootRecord
  let n := s.hearth.start.trialCount + b2n (r.state == 1)
  let s1 := { s with hearth := { s.hearth with start := { s.hearth.start with trialCount := n } } }
  let swap := r.state == 1 && decide (3 < n)
  let first := if swap then 1 - r.preferred else r.preferred
  match s1.chooseSlot first (1 - first) with
  | none => none
  | some i =>
    let h := s1.imgHeader i
    let matched := s1.hearthDigest i == some (bytesAt h 32 32)
    let failed := s1.imgHeader r.preferred
    let s2 := if matched then s1 else s1.recordDigest i (bytesAt h 32 32)
    some ((s2.modBoot (fun b => { b with
      slot := some i, preferred := r.preferred, fw := field h 8 4, security := field h 12 4
      digestMatch := matched, trial := r.state == 1 && i == r.preferred, reverted := i != r.preferred, revertDue := i != r.preferred
      failedFw := if i = r.preferred then 0 else field failed 8 4 })).stepEnd 4)

/-- Whether step 5 finds the tree record of the Hearth damaged: neither blank nor valid (Table SU-7). -/
def State.treeDamaged (s : State) : Bool :=
  let b := s.hearth.treeRec
  b.any (· != 0#8) && !(field b 0 4 == 0x43565452 && field b 252 4 == crc32 (b.take 252))

/-- Step 5 raises the anti-rollback fuses to the SECURITY of a committed image (R137). -/
def State.raiseMinSec (s : State) : State :=
  if s.bootRecord.state = 0 ∧ s.minSec < s.main.boot.security then { s with minSec := s.main.boot.security } else s

/-- A flush that a reset cut off is reported at the next start, and a flush is owed (R679, R682). -/
def State.reportCutFlush (s : State) : State :=
  match s.hearth.cutFlush with
  | some (slot, pages, aseq) =>
    let c := [byte slot, 2#8] ++ be 2 pages ++ be 4 aseq
    { (((s.ash 0x11 0x02 c).notify 0x1101 false c).count 0x110014 7 0) with
      hearth := { s.hearth with cutFlush := none, flushOwed := true } }
  | none => s

/-- The flush that a start owes: one that was owed or cut off before the reset, or the cause of the reset asks for one
(R679). -/
def State.oweFlush (s : State) : State :=
  let owed := s.hearth.flushOwed || s.hearth.cutFlush.isSome || s.main.boot.cause == 0x05 || s.main.boot.cause == 0x06
  s.modAsh (fun a => { a with next := s.nextSlot, owed := owed, owedDue := owed })

/-- Step 5: MIN_SEC, the configuration image, the ash log and the key store (R137, R139, R140, R166,
R195, R515, R687); it fails where there is no valid configuration, or the Hearth's state is damaged (Table SU-7). -/
def State.step5 (s : State) : State :=
  let s1 := (s.raiseMinSec.loadConfig).reseedMesh
  let s2 := if s1.main.boot.configDefault || s1.treeDamaged then s1.stepFail 5 else s1
  (s2.oweFlush.reportCutFlush.cyStart).stepEnd 5

/-- Step 6 begins: lanes, Strait and mains angle start (R141, R257, R290); no lane starts where the calibration fails
(R288). In a minimal Blaze only the tree lanes start (R179). -/
def State.step6 (s : State) (rextOk : Bool) : State :=
  let tree (x : State) : State := if x.main.boot.treeEn then (x.startLane 0).startLane 1 else x
  let s1 := s.modBoot (fun b => { b with step6At := some s.now, noLanes := !rextOk })
  if !rextOk then (s1.stepFail 6).mainsStart
  else (if s.hearth.minBlaze.isSome then tree s1 else s1.lanesStart).mainsStart

/-- What step 6 waits for has come: the tree lanes have locked, and each enabled Strait link has trained or gone DOWN
(Table SU-1). -/
def State.step6Ready (s : State) : Bool :=
  (s.main.boot.noLanes || !s.main.boot.treeEn || (s.laneLocked 0 && s.laneLocked 1))
    && (s.main.boot.noLanes || s.hearth.minBlaze.isSome || (List.range 2).all (fun k =>
      !bitOf (s.linkCfg k) 31 || (s.link k).st == .up || (s.link k).st == .down))

/-- The longest that step 6 takes, 12 ms, in ticks (R128). -/
def step6T : Nat := 12 * msT

/-- Step 6 ends, and step 7 begins where there is one (R124): once what it waits for has come, or at 12 ms, where it has
failed (Table SU-7). -/
def State.step6Follow (s : State) : State :=
  match s.main.boot.step6At, at? s.main.boot.ends 5 none with
  | some t, none =>
    if s.step6Ready then
      let s1 := s.stepEnd 6
      if s.hearth.minBlaze.isSome then s1 else s1.stackStart
    else if t + step6T ≤ s.now then
      let s1 := (s.stepFail 6).stepEnd 6
      if s.hearth.minBlaze.isSome then s1 else s1.stackStart
    else s
  | _, _ => s

/-- The minimal Blaze with the head end as master (R179, R180): this chip acts as lead without a stack, with the
tree record of the Hearth, and the notices of its sources wait for the chimney slot, in the order of their events
(R185). -/
def State.minimal (s : State) (source : Nat) : State :=
  let s1 := (s.modSk (fun k => { k with isLead := true, lead := s.self, term := s.hearth.start.leadTerm })).loadTree
  (((source :: s.hearth.minMore).foldl (fun x i => x.takePlace (x.heldNotice i)) s1)).pumpOut

/-- The steps that a minimal Blaze has skipped are completed when PSU_OK rises (R146, R186). -/
def State.resumeStart (s : State) : State :=
  let s1 := (if s.main.sk.isLead then
      if s.main.boot.noLanes then s else
      let x := (List.range 2).foldl (fun x k =>
        if bitOf (x.linkCfg k) 31 then (List.range 3).foldl (fun y i => y.startLane (laneOf k i)) x else x) s
      (if x.bit 0x0A0100 31 then x.startLane 8 else x).straitStart
    else (s.modBoot (fun b => { b with step6At := some s.now })).lanesStart.mainsStart)
  let s2 := s1.lostClips
  if (at? s2.main.boot.ends 5 none).isSome then s2.stackStart else s2

/-- The boot ROM stops: nothing but network time, seeded as at every release, runs (R60, R68, R228). -/
def State.romStop (s : State) (b : Boot) : State :=
  { s with main := { Main.cold with out := true, boot := { b with stopped := true }, nt := s.seedTime } }

/-- The reference is bad: the fault is reported on the service UART, in bytes that the spec does not give, and in an
ash record, whose ppm the spec does not give where there is no reference; the Hearth retries after 1 s (R68,
Table SU-7; log entry 130). -/
def State.badReference (s : State) (ref : Option Int) : State :=
  let (p, s0) := s.draw
  let (n, s1) := s0.draw
  let (report, s2) := s1.drawBytes (1 + n % 256)
  let ppm := match ref with | some q => ofSigned 16 (max (-32768) (min 32767 q)) | none => p % 65536
  let s3 := (s2.ashHearth 0x01 0x04 ([0#8] ++ be 2 ppm)).romStop
    { cause := s.hearth.cause, failStep := 2, lastStep := 1, report := report }
  { s3 with hearth := { s3.hearth with restartAt := some (s.now + secT) } }

/-- Whether the main domain may leave reset (R45): the Hearth has requested the start, every main rail is in its window,
and RESET_N has been high for 1 ms, which it cannot have been before the rails began to rise. -/
def State.mayRelease (s : State) (mv : List Nat) : Bool :=
  s.hearth.running && s.hearth.pen && !s.main.out && s.hearth.restartAt.isNone && railMap mv == 0
    && decide (s.hearth.rstHighAt + msT ≤ s.now) && (s.hearth.railsUp || decide (s.hearth.railsFrom + msT ≤ s.now))

/-- What MAIN_RESET_RELEASE does: steps 2 to 5 and the beginning of step 6 (R45, R60, R68,
R124). A minimal Blaze goes on as R179 to R181 lay down, by the MSEL recorded at the last Working. -/
def State.release (s : State) (msel member : Nat) (treeEn testN : Bool) (ref : Option Int) (faults : List BankFault)
    (rextOk : Bool) (mv : List Nat) : State :=
  if !s.mayRelease mv then s
  else
    let s0 := { s with hearth := { s.hearth with railsUp := true } }
    if !testN then s0.romStop {}
    else
      let bad := match ref with | none => true | some p => decide (200 < p) || decide (p < -200)
      if bad then s0.badReference ref
      else
        let s1 := s0.step2 msel member treeEn
        let full := !(s1.main.boot.cause == 0x02 || s1.main.boot.cause == 0x03)
        let s2 := ((s1.memStart full faults).modBoot (fun b => { b with fullTest := full })).stepEnd 3
        if !s2.genFits then (s2.stepFail 3).enterRescue
        else match s2.step4 with
          | none => (s2.stepFail 4).enterRescue
          | some s3 =>
            let s4 := s3.step5.fuseStart
            match s4.hearth.minBlaze with
            | some i => if s4.hearth.start.msel = some 0 then (s4.step6 rextOk).minimal i else s4.queueStart.revertNotice
            | none => s4.lostClips.step6 rextOk

/-! ### Image opcodes (R154 to R156) -/

/-- IMG_STATUS. Bytes of a boot record where neither copy is valid, and the running slot in rescue,
are free values. -/
def opImgStatus (op : Nat) (p : List Byte) (s : State) : State :=
  if p ≠ [] then s.finish op 0x0004 [] else
  let slot (i : Nat) : List Byte :=
    let h := s.imgHeader i
    if field h 0 4 = 0x43564657 then bytesAt h 8 12 ++ bytesAt h 32 32 else List.replicate 44 0#8
  let (r0, s1) := s.drawBytes 16
  let (x, s2) := s1.draw
  let r := match s.bootTaken with | some b => b | none => r0
  let running := match s.main.boot.slot with | some i => byte i | none => byte x
  s2.finish op 0 (slot 0 ++ slot 1 ++ r ++ [byte s.minSec, running, byte s.hearth.start.trialCount])

/-- IMG_ERASE. -/
def opImgErase (op : Nat) (p : List Byte) (s : State) : State :=
  if p.length ≠ 1 then s.finish op 0x0004 []
  else if 1 < field p 0 1 then s.finish op 0x0005 []
  else if s.hearth.onReserve then s.finish op 0x000E []
  else if s.main.boot.slot = some (field p 0 1) then s.finish op 0x0104 []
  else s.flashAsk (.imgErase op (field p 0 1))

/-- IMG_WRITE. -/
def opImgWrite (op : Nat) (p : List Byte) (s : State) : State :=
  if p.length < 7 then s.finish op 0x0004 []
  else if 1 < field p 0 1 ∨ field p 1 1 ≠ 0 ∨ 0x100000 < field p 2 4 + (p.length - 6) then s.finish op 0x0005 []
  else if s.hearth.onReserve then s.finish op 0x000E []
  else if s.main.boot.slot = some (field p 0 1) then s.finish op 0x0104 []
  else s.flashAsk (.imgWrite op (field p 0 1) (field p 2 4) (p.drop 6))

/-- IMG_VERIFY. -/
def opImgVerify (op : Nat) (p : List Byte) (s : State) : State :=
  if p.length ≠ 1 then s.finish op 0x0004 []
  else if 1 < field p 0 1 then s.finish op 0x0005 []
  else
    let i := field p 0 1
    match s.imgCheck i with
    | 0 => (s.recordDigest i (bytesAt (s.imgHeader i) 32 32)).finish op 0 []
    | e => s.finish op e []

/-- IMG_ACTIVATE (R136, R149, R155; log entries 11 and 131). -/
def opImgActivate (op : Nat) (p : List Byte) (s : State) : State :=
  if p.length ≠ 3 then s.finish op 0x0004 []
  else if 1 < field p 0 1 ∨ 1 < field p 1 1 ∨ 1 < field p 2 1 then s.finish op 0x0005 []
  else
    let i := field p 0 1
    if s.main.boot.slot = some i then s.finish op 0x0104 []
    else match s.imgCheck i with
      | 0 =>
        if s.main.boot.slot.isSome ∧ field (s.imgHeader i) 8 1 ≠ s.main.boot.fw / 2 ^ 24 ∧ field p 2 1 = 0 then
          s.finish op 0x0106 []
        else
          let s1 := s.recordDigest i (bytesAt (s.imgHeader i) 32 32)
          ({ s1 with hearth := { s1.hearth with start := { s1.hearth.start with trialCount := 0 } } }).flashAsk
            (.bootRecord (some op) i 1 (if field p 1 1 = 1 then 2 else 0))
      | e => s.finish op e []

/-- IMG_COMMIT (R136, R137). hrt.trial_count is cleared when the opcode is executed; the spec does not say at what
point of it (DESIGN CHOICE, log entry 131). -/
def opImgCommit (op : Nat) (p : List Byte) (s : State) : State :=
  if p ≠ [] then s.finish op 0x0004 []
  else match s.main.boot.trial && !s.main.boot.committed, s.main.boot.slot with
    | true, some i =>
      ({ s with hearth := { s.hearth with start := { s.hearth.start with trialCount := 0 } } }).flashAsk
        (.bootRecord (some op) i 0 1)
    | _, _ => s.finish op 0x000E []

/-- BOOT_REPORT: microseconds from PEN_MAIN rising. -/
def opBootReport (op : Nat) (p : List Byte) (s : State) : State :=
  if p ≠ [] then s.finish op 0x0004 [] else
  s.finish op 0 (s.main.boot.ends.flatMap (fun e => match e with
    | some t => be 4 (sat 0xFFFFFFFF ((t - s.hearth.penRise) / usT))
    | none => be 4 0xFFFFFFFF))

/-- What the flash holds, and what follows, when the operation `op` in progress ends; what it holds where the read-back
has failed is as `State.flashCut` leaves it. -/
def State.flashEffect (s : State) (op : FlashOp) (ok : Bool) : State :=
  let s0 := s.modBoot (fun b => { b with flashOp := none })
  match op with
  | .imgErase id slot =>
      (if ok then { s0 with flash := flashErase s.flash (0x10000 + slot * 0x100000) 0x100000 } else s0.flashCut op).finish id
        (if ok then 0 else 0x0105) []
  | .imgWrite id slot off d =>
      let a := 0x10000 + slot * 0x100000 + off
      let w := nor (s.flashRead a d.length) d
      (if ok then { s0 with flash := flashWrite s.flash a w } else s0.flashCut op).finish id
        (if ok && w == d then 0 else 0x0105) []
  | .bootRecord id pref st follow =>
      let c := s.bootWriteCopy
      let r := be 4 0x43564252 ++ be 4 s.bootNextSeq ++ [byte pref, byte st] ++ be 2 0
      let f := flashWrite (flashErase s.flash (0x1000 * c) 0x1000) (0x1000 * c) (r ++ be 4 (crc32 r))
      let x := { s0 with flash := f }
      if !ok then (s0.flashCut op).finish? id 0x0105 []
      else if follow = 1 then
        (({ x with minSec := max x.minSec x.main.boot.security }).modBoot (fun b => { b with committed := true })).finish? id 0 []
      else if follow = 2 then (x.finish? id 0 []).resetMain 0x08
      else if follow = 3 then
        x.notify 0x0004 true ([byte pref] ++ be 4 x.main.boot.security ++ be 4 x.main.boot.failedFw)
      else x.finish? id 0 []
  | .config c image => s0.configWritten c image ok
  | .repairLog n bytes => s0.repairLogWritten n bytes ok
  | .image slot b => s0.imageWritten slot b ok
  | .preErase n => if ok then { s0 with flash := flashErase s.flash (archAddr n) 0x20000 } else s0.flashCut op

/-- What FLASH_OPERATION_DONE does: the operation in progress ends, its content is in the flash, its
reply or next action follows, and the next waiting operation starts. -/
def State.flashDone (s : State) (ok : Bool) : State :=
  match s.main.boot.flashOp with
  | none => s
  | some op =>
    let s1 := s.flashEffect op ok
    if !s1.main.out then s1
    else match s1.main.ash.trigger with
      | some (cause, tag) => s1.startFlush cause tag
      | none => s1.flashPump

end Sys2Proof.Machine
end

