-- ==== Sys2Proof/Machine/Hearth.lean ====
section
/-! DEFINITION. The Hearth (05): Hearth time, tamper inputs and mesh, cell and reserve monitors, the
reserve ride, Ember and the alarm on the backup cell, and the HRT opcodes. -/

namespace Sys2Proof.Machine


/-! ### Held alarms (R182) -/

/-- `n` events of a source entered in the held alarms, the first at the Hearth time `a` and the last at `b`
(Table HRT-6). RESERVE takes the code of step 3 of R179, or the last one read where that step has not run: the spec gives
none there (DESIGN CHOICE, log entry 132). -/
def State.holdAt (s : State) (source flags kind n : Nat) (a b : List Byte) : State :=
  s.modHearth (fun h => { h with held := h.held.modify source (fun e =>
    { e with flags := Nat.lor e.flags flags, count := sat 0xFFFF (e.count + n),
             first := if e.count = 0 then a else e.first, last := b, reserve := s.hearth.resCode, kind := kind }) })

/-- An event of this instant entered in the held alarms. -/
def State.hold (s : State) (source flags kind : Nat) : State := s.holdAt source flags kind 1 s.eventTime s.eventTime

/-! ### Tamper inputs and mesh (R163 to R166, R179) -/

/-- What an event on a tamper input or a mesh pair may do: bits of ACTIONS (Table HRT-11). -/
structure Actions where
  record : Bool
  alarm : Bool
  wake : Bool
  zeroise : Bool
  deriving DecidableEq, Repr

/-- The ACTIONS bits of a configuration word. -/
def actionsOf (w : Nat) : Actions := ⟨bitOf w 0, bitOf w 1, bitOf w 2, bitOf w 3⟩

/-- The contents of a TAMPER or MESH_BREAK notice (Table HRT-8): a tamper event's flags say whether
it zeroised; its count is that of the events since the source's held entry was last cleared, this
one included (log entry 9). -/
def State.tamperContents (s : State) (source kind : Nat) (zeroised : Bool) : List Byte :=
  let n := (at? s.hearth.held source {}).count + 1
  if source < 8 then [byte source] ++ be 2 (sat 0xFFFF n) ++ [byte (b2n zeroised)]
  else [byte (source - 8), byte kind] ++ be 2 (sat 0xFFFF n)

/-- The alarm on the backup cell, from step 3 of R179 on: the reserve is measured, and the alarm is
held or a minimal Blaze begins. -/
def State.backupAlarm (s : State) (source kind flags code : Nat) : State :=
  let s1 := s.modHearth (fun h => { h with resCode := code, resE := if h.resFault then 0 else s.energyOf code })
  let s2 := s1.hold source (1 + flags) kind
  let st := s.hearth.start
  if s1.hearth.resE < 100 * s.fld 0x01005C 7 0 ∨ !st.lead ∨ (st.msel = some 0 ∧ s.keysEmpty) ∨ s.hearth.lockout then s2
  else s2.modHearth (fun h => { h.penRises s.now with
    minBlaze := some source, minMore := [], cause := 0x03, wakeSrc := 0x03, onReserve := !h.psuOk })

/-- The actions of an event on a source, in the order of R164. Stoker takes it in Blaze, Bank and Smoulder, in a
minimal Blaze as its alarm, behind those before it (R185). While PEN_MAIN is high and Stoker does not run, of which R164
does not speak, it is entered in the held alarms as in Ember (DESIGN CHOICE, log entry 133). -/
def State.tamperActs (s : State) (source kind code : Nat) (a : Actions) : State :=
  let contents := s.tamperContents source kind a.zeroise
  let rec1 := if a.record then s.ashHearth 0x01 (if source < 8 then 1 else 2) contents else s
  let z := if a.zeroise then rec1.zeroise (if source < 8 then 0 else 1) (if source < 8 then source else source - 8) else rec1
  let flags := b2n a.zeroise * 4
  if z.stoker && z.hearth.minBlaze.isSome then
    ((z.hold source (1 + flags) kind).takePlace
      { code := heldCode source, member := z.self, alarm := true, bytes := z.noticeBytes (heldCode source) contents
        held := some source }).pumpOut
  else if z.stoker then
    let w := if a.wake then z.wake 0x03 else z
    w.raise { code := heldCode source, member := w.self, alarm := a.alarm, bytes := w.noticeBytes (heldCode source) contents
              ev := { time := w.eventTime, zeroised := a.zeroise } }
  else if z.hearth.pen then
    let x := z.hold source (1 + flags) kind
    x.modHearth (fun h => { h with minMore :=
      if h.minBlaze.isSome && h.minBlaze != some source && !h.minMore.contains source then h.minMore ++ [source]
      else h.minMore })
  else if a.wake then z.backupAlarm source kind flags code
  else z.hold source (1 + flags) kind

/-- What TAMPER_ACTIVE does for an input that is sampled and was inactive. -/
def State.tamperActive (s : State) (i code : Nat) : State :=
  let cfg := s.word (0x010020 + 4 * i)
  if 8 ≤ i ∨ !s.hearth.running ∨ bits cfg 9 8 = 0 ∨ at? s.hearth.tampNow i true then s
  else ((s.modHearth (fun h => { h with tampNow := h.tampNow.set i true })).latchFld 0x010048 (16 + i) (16 + i) 1).tamperActs
    i 0 code (actionsOf cfg)

/-- What TAMPER_INACTIVE does. -/
def State.tamperInactive (s : State) (i : Nat) : State :=
  s.modHearth (fun h => { h with tampNow := h.tampNow.set i false })

/-- The kind of a mesh break (R165, Table HRT-8): 1 SHORT_LOW, 2 SHORT_HIGH, 0 MISMATCH. -/
def meshKind (l : List Bool) : Nat := if l.all (· == false) then 1 else if l.all (· == true) then 2 else 0

/-- What MESH_BREAK does for an enabled pair that is not already broken. -/
def State.meshBreak (s : State) (n : Nat) (samples : List Bool) (code : Nat) : State :=
  let cfg := s.word (0x010040 + 4 * n)
  if 2 ≤ n ∨ !s.hearth.running ∨ !bitOf cfg 31 ∨ at? s.hearth.meshBroken n true then s
  else ((s.modHearth (fun h => { h with meshBroken := h.meshBroken.set n true })).latchFld 0x010048 (24 + n) (24 + n) 1).tamperActs
    (8 + n) (meshKind samples) code (actionsOf cfg)

/-- What MESH_REARM does. -/
def State.meshRearm (s : State) (n : Nat) : State :=
  s.modHearth (fun h => { h with meshBroken := h.meshBroken.set n false })

/-- The LFSR stepped once (R165). -/
def lfsrStep (v : Nat) : Nat :=
  (v * 2 % 65536) + (b2n (bitOf v 15) + b2n (bitOf v 13) + b2n (bitOf v 12) + b2n (bitOf v 10)) % 2

/-- The LFSR stepped `n` times. -/
def lfsrSteps : Nat → Nat → Nat
  | 0, v => v
  | n + 1, v => lfsrSteps n (lfsrStep v)

/-- A mesh pair's LFSR now: it is stepped every 32 cycles of the Hearth clock, in every power state, from its seed on
(R165, R166); its period is 65,535 steps. -/
def State.lfsrNow (s : State) (n : Nat) : Nat :=
  lfsrSteps ((s.hearth.cycles / 32 - s.hearth.lfsrAt / 32) % 65535) (at? s.hearth.lfsr n 1)

/-- What MESH_RESEED does. -/
def State.meshReseed (s : State) : State := if s.main.out && s.hearth.ps == .blaze then s.reseedMesh else s

/-! ### Cell, crystal and supplies -/

/-- The CELL_LOW verdict after a measurement: two readings in a row beyond the threshold change it, with a hysteresis of
5 codes (R167, Table HRT-2). -/
def State.cellLevel (s : State) (code : Nat) : State :=
  let thr := s.fld 0x01004C 23 16
  let h := s.hearth
  let crossing := if h.cellLow then decide (thr + 5 < code) else decide (code < thr)
  let run := if crossing then h.cellRun + 1 else 0
  let s1 := s.modHearth (fun h => { h with cellCode := code, cellRun := run })
  if 2 ≤ run then
    let x := (s1.modHearth (fun h => { h with cellLow := !h.cellLow, cellRun := 0 })).ashHearth 0x01 0x05
      [if h.cellLow then 2#8 else 0#8, byte code]
    if h.cellLow || !x.stoker then x else (x.wake 0x0D).notify 0x0103 false [byte code]
  else s1

/-- What CELL_MEASURE does (R167, Table HRT-2). -/
def State.cellMeasure (s : State) (code : Nat) : State :=
  let h := s.hearth
  if !h.running then s else
  let s2 := s.cellLevel code
  if !h.cellAbsent ∧ code < 50 ∧ !s.drawsVbat then
    let x := (s2.modHearth (fun h => { h with cellAbsent := true })).ashHearth 0x01 0x05 [1#8, byte code]
    if x.stoker then (x.wake 0x0D).notify 0x0104 true [byte code] else x.hold 10 1 0
  else if h.cellAbsent ∧ 125 < code then
    (s2.modHearth (fun h => { h with cellAbsent := false })).ashHearth 0x01 0x05 [2#8, byte code]
  else s2

/-- The wake timer brought to no more than 60 s ahead while the crystal has stopped (R190). -/
def State.clampWake (s : State) : State :=
  let ahead : Int := sdiff 32 (s.word 0x010014) (s.hearthSec % 2 ^ 32) * 32768 + s.fld 0x010018 14 0 - s.hearthFrac
  if s.hearth.xtalFault ∧ s.bit 0x010018 31 ∧ 60 * 32768 < ahead then
    (s.setWord 0x010014 ((s.hearthSec + 60) % 2 ^ 32)).setFld 0x010018 14 0 s.hearthFrac
  else s

/-- What XTAL_STOP does (R69, R190). -/
def State.xtalStop (s : State) : State :=
  if !s.hearth.running || s.hearth.xtalFault then s else
  let s1 := (s.modHearth (fun h => { h with xtalFault := true, xtalSec := s.hearthSec })).ashHearth 0x01 0x04
    ([1#8] ++ be 2 0)
  if s1.stoker then ((s1.wake 0x0D).notify 0x0105 false (be 6 s.hearthSec)).clampWake
  else s1.hold 11 1 0

/-- What CRYSTAL_RUNNING_AGAIN does (R69). -/
def State.xtalAgain (s : State) : State :=
  if s.hearth.running && s.hearth.xtalFault then
    (s.modHearth (fun h => { h with xtalFault := false })).ashHearth 0x01 0x04 ([2#8] ++ be 2 0)
  else s

/-- The Hearth as at a first connection (R49, R194); the levels of PSU_OK and RESET_N stay. -/
def freshHearth (h : Hearth) (running : Bool) (aon vbat : Nat) : Hearth :=
  { psuOk := h.psuOk, rstHighAt := h.rstHighAt, running := running, aonMv := aon, vbatMv := vbat,
    onVbat := decide (aon < 2900) }

/-- What HEARTH_START does: either supply at 2.5 V or above starts the Hearth; with PSU_OK high it
then drives PEN_MAIN high (R49, 02 From cold). -/
def State.hearthStart (s : State) (aon vbat : Nat) : State :=
  if s.hearth.running ∨ (aon < 2500 ∧ vbat < 2500) then s
  else
    let h := freshHearth s.hearth true aon vbat
    { s with
      regs := s.regs.filter (fun p => p.1 / 0x10000 != 0x01)
      main := .cold
      hearth := if h.psuOk then h.penRises s.now else h }

/-- What the two supplies do to the source that the Hearth draws (R48, R64): both crossing 2.9 V at once hold the switch
up until the other source has been at 2.9 V for 1 ms, or the one drawn falls below 2.5 V with the other at 2.9 V. -/
def State.supplySwitch (s : State) (aon vbat : Nat) : State :=
  let h := s.hearth
  if !h.running then s
  else
    let on := s.drawsVbat
    let crossed (a b : Nat) : Bool := decide (a < 2900) != decide (b < 2900)
    let held := s.supplyHeld || (crossed h.aonMv aon && crossed h.vbatMv vbat)
    let drawn := if on then vbat else aon
    let other := if on then aon else vbat
    if held && !(decide (drawn < 2500) && decide (2900 ≤ other)) then
      let since := if other < 2900 then none else (if s.supplyHeld then h.otherSince else none).or (some s.now)
      s.modHearth (fun h => { h with aonMv := aon, vbatMv := vbat, onVbat := on, supHold := true, otherSince := since })
    else
      s.modHearth (fun h => { h with
        aonMv := aon, vbatMv := vbat, onVbat := decide (aon < 2900), supHold := false, otherSince := none })

/-- What HEARTH_RESET does: below 2.2 V on the supply drawn after any switch, everything the Hearth holds is lost, and
with PEN_MAIN low the main domain too (R49, R64). -/
def State.hearthReset (s : State) (aon vbat : Nat) : State :=
  if !s.hearth.running then s
  else
    let s1 := s.supplySwitch aon vbat
    if (if s1.drawsVbat then vbat else aon) < 2200 then
      let s2 := s1.cutFlashOp.penLow
      { s2 with regs := [], main := .cold, hearth := freshHearth s2.hearth false aon vbat }
    else s1

/-! ### Hearth time (R160, R162) -/

/-- TRIM for a network interval in nanoseconds that lasted so many Hearth clock cycles: the rate
difference to the nearest step of 2^-26, within the field (R160). -/
def trimFor (ns cycles : Nat) : Int :=
  let num : Int := (ns : Int) * 32768 - (cycles : Int) * 1000000000
  let den : Int := (cycles : Int) * 1000000000
  max (-32768) (min 32767 ((2 * num * 2 ^ 26 + den) / (2 * den)))

/-- What HEARTH_ALIGN does (R160): the event of this instant carries the Hearth time from before the step (R188). -/
def State.hearthAlign (s : State) : State :=
  let due := match s.hearth.aligned with | some (t, _, _) => decide (t + 64 * secT ≤ s.now) | none => true
  if !(s.blazing && s.ntValid && !s.main.sk.timeLoose && due) then s
  else
    let n := s.main.nt.totalNs
    let time := s.main.nt.sec * 2 ^ 41 + s.main.nt.ns * 32768 / 1000000000 * 2 ^ 26
    let s1 := s.modHearth (fun h => { h with
      time := time, aligned := some (s.now, n, h.cycles), stepped := (s.now, h.time) })
    match s.hearth.aligned with
    | some (_, n0, c0) =>
      if c0 < s.hearth.cycles ∧ n0 < n then
        s1.setFld 0x010010 15 0 (ofSigned 16 (trimFor (n - n0) (s.hearth.cycles - c0)))
      else s1
    | none => s1

/-- Hearth time has reached the wake value (R162). -/
def State.wakeDue (s : State) : Bool :=
  let d := sdiff 32 (s.hearthSec % 2 ^ 32) (s.word 0x010014)
  decide (0 < d) || (d == 0 && decide (s.fld 0x010018 14 0 ≤ s.hearthFrac))

/-- The Hearth starts the chip from Ember (R175). -/
def State.penHigh (s : State) (cause src : Nat) : State :=
  if s.hearth.pen || s.hearth.lockout || !s.hearth.running then s
  else s.modHearth (fun h => { h.penRises s.now with
    wakeSrc := src, onReserve := !h.psuOk, retryAt := none, cause := if h.cause = 0x01 then 0x01 else cause })

/-- What WAKE_TIMER does (R162, R175). -/
def State.wakeTimer (s : State) : State :=
  if s.hearth.running && s.bit 0x010018 31 && s.wakeDue then
    let s1 := s.setFld 0x010018 31 31 0
    if s1.hearth.pen then s1.wake 0x02 else s1.penHigh 0x03 0x02
  else s

/-! ### The reserve (R168, R176 to R178, R192) -/

/-- What RESERVE_SAMPLE does: the code, the estimate, RES_FAULT, A from zero, and the hard floor
(R168, R169, R192, R384, R386). -/
def State.reserveSample (s : State) (code : Nat) : State :=
  if !s.hearth.pen then s else
  let fault := if s.hearth.psuOk then code == 0 else s.hearth.resFault
  let s1 := s.modHearth (fun h => { h with resCode := code, resFault := fault, resE := if fault then 0 else s.energyOf code })
  let s2 := { s1 with main := { s1.main with up := { s1.main.up with admitted := 0 } } }
  (if s2.hardFloor then s2.cutBurst else s2).flashPump

/-- What PSU_OK_FALL does (R176, R187). -/
def State.psuFall (s : State) : State :=
  if !s.hearth.psuOk then s
  else if !s.hearth.running then s.modHearth (fun h => { h with psuOk := false })
  else
  let s1 := s.modHearth (fun h => { h with psuOk := false, onReserve := true, psuFell := some s.now,
                                           lockoutLow := h.lockout })
  if s1.stoker then
    let s2 := s1.wake 0x05
    let s3 := { s2 with main := { s2.main with up := { s2.main.up with declineRun := false } } }
    (s3.notify 0x0106 false (be 2 s.hearth.resCode ++ be 4 s.hearth.resE)).flushOnReserve
  else s1

/-- What PSU_OK_RISE does: the ride ends and shed functions return (R178), a minimal Blaze goes on as
a start (R146, R186), or the chip starts from Ember (R66, R175). -/
def State.psuRise (s : State) : State :=
  if s.hearth.psuOk then s
  else if !s.hearth.running then s.modHearth (fun h => { h with psuOk := true })
  else
  let clear := s.hearth.lockout && s.hearth.lockoutLow
  let s1 := s.modHearth (fun h => { h with
    psuOk := true
    onReserve := false
    psuFell := none
    lockout := h.lockout && !clear
    lockoutLow := false
    railResets := (if clear then [] else h.railResets) })
  if s1.stoker then
    let s2 := s1.modAsh (fun a => { a with flushDue := none, awaitMains := false })
    if s2.hearth.minBlaze.isSome then (s2.modHearth (fun h => { h with minBlaze := none, minMore := [] })).resumeStart
    else s2.flashPump
  else if s1.main.out then s1.flashPump
  else (s1.modHearth (fun h => { h with minBlaze := none, minMore := [] })).penHigh 0x02 0x04

/-- The main domain loses its power: what it holds is lost, PEN_MAIN is low (R119, R177); a flash operation in progress
is cut off (log entry 10), and the Hearth completes a committed key update (R489). -/
def State.toEmber (s : State) : State :=
  let s1 := s.cutFlashOp.completeUpdate.penLow
  { s1 with
    regs := RegFile.hearthOnly s1.regs
    main := .cold
    hearth := { s1.hearth with
      ps := .ember
      cutFlush := (s.main.ash.flush.map (fun f => (f.slot, f.pages, f.aseq))).or s.hearth.cutFlush } }

/-- The start state and the tree record saved before PEN_MAIN falls, and what becomes of locked clips not sent
(R177, R546). -/
def State.saveStart (s : State) : State :=
  let s1 := (if s.main.sk.isLead then s.saveTree else s).recordUnsent
  (s1.modHearth (fun h => { h with
    start := { h.start with leadTerm := s.main.sk.term }
    clipsLost := s.unsentClips.length })).drainAsh

/-- The held source that an HRT alarm reports, by its code and its parameter field (R182). -/
def sourceOf (code : Nat) (bytes : List Byte) : Option Nat :=
  if code = 0x0101 then some (field bytes 16 1) else if code = 0x0102 then some (8 + field bytes 16 1)
  else if code = 0x0104 then some 10 else if code = 0x0105 then some 11 else if code = 0x0107 then some 12 else none

/-- The held entry that a notice reports, whoever raised it: a notice sent under R183 carries the entry's 32 bytes. -/
def noticeSource (n : Notice) : Option Nat :=
  match n.held with
  | some i => some i
  | none => if 48 ≤ n.bytes.length then sourceOf n.code n.bytes else none

/-- An alarm still pending, of this member, in the held alarms: its entry is marked, or its event is entered, `n` of
them where it has been merged (R177, R179, R182). `flag` is ALARM_UNSENT or SENT_UNACKED. -/
def State.holdOne (s : State) (r : Raised) (first : List Byte) (n flag : Nat) : State :=
  if !r.alarm || r.member != s.self then s else
  match r.held with
  | some i => s.modHearth (fun h => { h with held := h.held.modify i (fun e =>
      if e.count = 0 then e else { e with flags := Nat.lor (e.flags / 4 * 4) flag }) })
  | none => match sourceOf r.code r.bytes with
    | none => s
    | some i => s.holdAt i (flag + b2n r.ev.zeroised * 4) (if i = 8 ∨ i = 9 then field r.bytes 17 1 else 0) n first r.ev.time

/-- The alarms still pending are entered in the held alarms: ALARM_UNSENT, or SENT_UNACKED for one
that has been sent (R177, R179). -/
def State.holdPending (s : State) : State :=
  let c := s.main.cmd
  let s1 := c.notices.foldl (fun x n =>
    let sent := n.leftAt.isSome || decide (0 < n.repeats) || decide (0 < n.chimney)
    x.holdOne { code := n.code, member := n.member, alarm := n.alarm, bytes := n.bytes, held := n.held, ev := n.ev }
      n.ev.time 1 (if sent then 2 else 1)) s
  let s2 := c.deferred.foldl (fun x d =>
    x.holdOne { code := d.code, member := d.member, alarm := true, bytes := d.bytes, held := d.held, ev := d.ev }
      d.first (d.merges + 1) 1) s1
  c.raised.foldl (fun x r => x.holdOne r r.ev.time 1 1) s2

/-- The conditions of R177 for leaving the reserve ride. -/
def State.rideOver (s : State) : Bool :=
  let ride := 100 * s.fld 0x01005C 15 8
  let waiting := s.main.cmd.notices.any (fun n => n.alarm && n.chimney == 0 && !n.chimneyOff)
    && s.main.cmd.bound == .tree && s.main.up.declineRun == false
  let flushing := s.main.ash.flush.isSome || s.flushPending
  let past := match s.hearth.psuFell with
    | some t => decide (t + s.fld 0x010060 31 16 * msT ≤ s.now)
    | none => false
  decide (4 * s.hearth.resE < ride) ||
    (!waiting && !flushing && (decide (s.hearth.resE < ride) || past))

/-- What EMBER_ENTRY does (R177). -/
def State.emberEntry (s : State) : State :=
  if s.hearth.pen && s.hearth.onReserve && s.hearth.minBlaze.isNone && s.rideOver then
    (if s.main.out then s.saveStart.holdPending else s).toEmber
  else s

/-- What ALARM_MS_EXPIRY does (R179, step 5). -/
def State.alarmMsExpiry (s : State) : State :=
  if s.hearth.pen && s.hearth.minBlaze.isSome && decide (s.hearth.penRise + s.fld 0x010060 15 0 * msT ≤ s.now) then
    s.holdPending.toEmber
  else s

/-- What SCHEDULED_RETURN does (R173, R191). -/
def State.scheduledReturn (s : State) : State :=
  if s.hearth.ps ≠ .bank ∧ s.hearth.ps ≠ .smoulder then s else
  match s.main.power.wakeAt with
  | none => s
  | some t =>
    if s.now < t then s
    else
      let ready := s.now + (if s.hearth.ps = .smoulder then 1500 else 15) * usT
      let late := match s.main.power.event with | some e => decide (e < ready) | none => false
      (if late then s.count 0x010000 31 16 else s).wake 0x01

/-! ### The Hearth scrubber (R705, Table MM-3) -/

/-- The repair log rewritten from the repairs and withdrawals in force, with the times of the flash copy where it
holds the same entry. Which origin and which SEQ the entries take otherwise is free. -/
def State.rebuildLog (s : State) : State :=
  let (x, s1) := s.draw
  let copy := match s.flashLog with | some c => logEntries (s.flashRead (0x290000 + 0x1000 * c) 4096) | none => []
  let made (b : Nat) : List (List Byte) :=
    let k := at? s.main.mm.banks b {}
    (k.repairs.filter (fun r => !Config.factoryRepairs.contains (r.bank, r.isRow, r.index, r.spare))).map
      (fun r => r.entry (x % 3) 0) ++ (if k.withdrawn then [logEntry b 2 (x % 3) 0 0 0] else [])
  let es := ((List.range 64).flatMap made).map (fun e => match copy.find? (fun c =>
      c.take 1 == e.take 1 && bits (field c 1 1) 7 6 == bits (field e 1 1) 7 6
        && bits (field c 1 1) 3 2 == bits (field e 1 1) 3 2 && bytesAt c 2 2 == bytesAt e 2 2) with
    | some c => c
    | none => e)
  let (y, s2) := s1.draw
  { s2 with
    hearth := { s2.hearth with repairLog := mkLog (y % 2 ^ 32) es }
    main := { s2.main with mm := { s2.main.mm with logDue := true } } }

/-- An uncorrectable Hearth word acted on as Table MM-3 lays down: region 0 the ash ring, 1 the key store (its banks,
then the directory), 2 the tree record, 3 the held alarms, 4 the repair log, 5 the start state, 6 Stoker's own. -/
def State.hearthUncorr (s : State) (region offset : Nat) : State :=
  match region with
  | 0 => s.modHearth (fun h => { h with ring := h.ring.filter (fun r => r.seq % 2048 != offset / 8) })
  | 1 =>
    let k := if offset < 2048 then offset / 8 else (offset - 2048) / 2
    if 256 ≤ k then s
    else
      let gen := dirGen (s.keySlot k).dir
      let s1 := if s.main.out then
          s.modCy (fun c => { c with
            ctrs := c.ctrs.set k 0
            streams := c.streams.map (fun x =>
              if x.slot = k ∧ x.key.isSome ∧ x.status = 0 then { x with status := 0x0B00 } else x) })
        else s
      let s2 := s1.eraseKey k
      (if s.main.out then s2.slotDrop k else s2).notify 0x0B01 false ([byte k] ++ be 4 gen ++ [2#8])
  | 2 => s.modHearth (fun h => { h with treeRec := List.replicate 256 0#8 })
  | 3 => s.modHearth (fun h => { h with held := h.held.modify (offset / 8) (fun e =>
      { e with flags := 1, count := 65535, first := List.replicate 8 0#8, last := List.replicate 8 0#8 }) })
  | 4 => if s.main.out then s.rebuildLog else s.modHearth (fun h => { h with repairLog := [] })
  | 5 => s.modHearth (fun h => { h with start := {} })
  | _ => s

/-- What HEARTH_SCRUB does: the read of a word, corrected and counted, or acted on, recorded in every state, and
reported in Working. -/
def State.hearthScrub (s : State) (region offset : Nat) (r : WordRead) : State :=
  if !s.hearth.running ∨ 6 < region then s
  else match r with
    | .ok => s
    | .single _ _ => if s.main.out then s.count 0x120010 31 16 else s
    | .double =>
      let c := [byte region] ++ be 2 offset
      let s0 := s.wake 0x0E
      let s1 := if s0.main.out then s0.count 0x120010 15 0 else s0
      let s2 := (s1.hearthUncorr region offset).ashHearth 0x12 0x04 c
      if s2.main.boot.local9 then s2.notify 0x1204 false c else s2

/-! ### HRT opcodes -/

/-- HELD_READ: the 16 entries of Table HRT-6. -/
def opHeldRead (op : Nat) (p : List Byte) (s : State) : State :=
  if p ≠ [] then s.finish op 0x0004 [] else s.finish op 0 (heldBytes s.hearth.held)

end Sys2Proof.Machine
end

