-- ==== Sys2Proof/Machine/Power.lean ====
section
/-! DEFINITION. The choice among Blaze, Bank and Smoulder (05): known events, blockers, the lead's order, and
what follows every command at once. -/

namespace Sys2Proof.Machine

/-! ### Known events (R172) -/

/-- A known event: the block it belongs to (none for one that another member reports), the microseconds until it,
and what tells it from other events of the block. -/
structure Known where
  block : Option Nat
  us : Nat
  ident : Nat
  deriving DecidableEq, Repr

/-- Microseconds until a mains position; none while the angle is not valid. -/
def State.usToPosition (s : State) (pos : Nat) : Option Nat :=
  if s.main.ma.angleValid ∧ s.main.ma.freq ≠ 0 then some ((sdiff 48 pos s.position).toNat * 2 ^ 24 / s.main.ma.freq) else none

/-- The issue instants of the schedule entries (R251). -/
def State.entryEvents (s : State) : List Known :=
  (List.range 512).filterMap (fun n => match s.entIssue n with
    | some pos => (s.usToPosition pos).map (fun us => ⟨some 0x03, us, n * 2 ^ 48 + pos⟩)
    | none => none)

/-- The targets of the armed compare units (06, Compare units). -/
def State.cmpEvents (s : State) : List Known :=
  (List.range 16).filterMap (fun u =>
    let c := s.cmpUnit u
    let n := s.main.nt
    if c.armed then
      let ns : Int := if c.epoch then (c.sec * 1000000000 + c.ns : Nat) - (n.totalNs : Int) else sdiff 32 c.ns n.ring
      some ⟨some 0x02, ns.toNat / 1000, u * 2 ^ 80 + c.sec * 2 ^ 32 + c.ns⟩
    else none)

/-- The end of the doze agreement (R354). -/
def State.dozeEvents (s : State) : List Known :=
  match s.main.tm.doze with
  | some d => if s.main.tm.dozing s.activeSfc then
      [⟨some 0x06, (sdiff 30 d.stop s.activeSfc).toNat * 125, d.stop⟩] else []
  | none => []

/-- The wake timer (R162). -/
def State.wakeEvents (s : State) : List Known :=
  if s.bit 0x010018 31 then
    let d := sdiff 32 (s.word 0x010014) (s.hearthSec % 2 ^ 32)
    let us := d * 1000000 + ((s.fld 0x010018 14 0 : Int) - s.hearthFrac) * 1000000 / 32768
    [⟨some 0x01, us.toNat, s.word 0x010014 * 2 ^ 15 + s.fld 0x010018 14 0⟩]
  else []

/-- The next chimney window in which an alarm is due: the next frame whose SFC is a multiple of CHIMNEY_K, past the
windows that a back-off lets pass (R390). -/
def State.chimneyEvents (s : State) : List Known :=
  match s.main.tm.profile with
  | some p =>
    if s.chimneyDue ≠ [] ∧ s.bit 0x070014 31 ∧ s.main.tm.st = .operation ∧ s.main.up.waitUntil.isNone then
      let k := max 1 p.chimneyK
      let frames := k - s.activeSfc % k + s.main.up.skip * k
      [⟨some 0x07, frames * 125, s.activeSfc + frames⟩]
    else []
  | none => []

/-- What the other members report, on the lead (R171). -/
def State.memberEvents (s : State) : List Known :=
  if s.main.sk.isLead then
    (List.range 8).filterMap (fun m =>
      let p := s.peer m
      match p.stateAt with
      | some t => if m ≠ s.self ∧ p.present ∧ p.next ≠ 0xFFFFFFFF then
          some ⟨none, p.next - (s.now - t) / usT, m * 2 ^ 64 + t + p.next * usT⟩ else none
      | none => none)
  else []

/-- This member's known events. -/
def State.ownEvents (s : State) : List Known :=
  s.entryEvents ++ s.cmpEvents ++ s.dozeEvents ++ s.wakeEvents ++ s.chimneyEvents

/-- The earliest of some events, the first of equals. -/
def earliest (l : List Known) : Option Known :=
  l.foldl (fun (m : Option Known) k => match m with
    | some x => if k.us < x.us then some k else some x
    | none => some k) none

/-- The next known event (R172). -/
def State.nextKnown (s : State) : Option Known := earliest (s.ownEvents ++ s.memberEvents)

/-! ### Blockers (Table HRT-4) -/

/-- The conditions that keep the chip in Blaze, but for flits that await acknowledgement; the operation `except_` is
not counted. -/
def State.busyList (s : State) (except_ : Option Nat) : List Bool :=
  [s.main.wa.chans.any (fun c => c.cap != .idle), s.main.pc.chans.any (fun c => !c.pics.isEmpty),
   s.main.pc.dec.isSome, s.main.cy.pipes.any Option.isSome || s.main.cy.queues.any (fun q => !q.isEmpty),
   s.main.mp.ports.any (fun p => p.st != .queued),
   s.main.cmd.ops.any (fun e => s.opState e != .queued && some e.id != except_),
   s.main.ash.flush.isSome, (List.range 4).any s.tribOn]

/-- What keeps the chip in Blaze, but for flits that await acknowledgement. -/
def State.busy (s : State) (except_ : Option Nat) : Bool := (s.busyList except_).any id

/-- Strait flits await acknowledgement. -/
def State.flitsOut (s : State) : Bool := (List.range 2).any (fun k => (s.link k).out != 0)

/-- The conditions that keep the chip in Bank, but for the doze agreement; an inrush (R605), a lane swap (R284) and a
field repair (R706) hold up the entry to Smoulder, and on the reserve the chip stays in Blaze or Bank (R176). -/
def State.bankList (s : State) : List Bool :=
  [!s.queuesEmpty, (List.range 4).any (fun c => s.bit (pcReg c) 31),
   (List.range 2).any (fun n => s.bridges n && (s.eport n).up),
   (List.range 48).any (fun n => s.mpOn n && s.bit (mpReg n) 30),
   (List.range 12).any (fun c => (s.fuse c).st == .inrush),
   s.main.ln.swaps.any (fun w => w.rx.isSome), s.main.mm.repairs != [], s.hearth.onReserve]

/-- What keeps the chip in Bank, but for the doze agreement. -/
def State.bankHeld (s : State) : Bool := s.bankList.any id

/-- BLOCKERS of MEMBER_STATE (R171): bit 0 what keeps this member in Blaze, bit 1 what keeps it in Bank. -/
def State.blockerBits (s : State) : Nat := b2n (s.busy none || s.flitsOut) + b2n s.bankHeld * 2

/-- What the members that are present report: bit 0, bit 1 of their BLOCKERS. -/
def State.membersHeld (s : State) (n : Nat) : Bool :=
  s.main.sk.isLead && (List.range 8).any (fun m => m != s.self && (s.peer m).present && bitOf (s.peer m).blockers n)

/-- The deepest state allowed (R172): 0 Blaze, 1 Bank, 2 Smoulder; `except_` is an operation not counted, `strait`
says whether flits that await acknowledgement count. -/
def State.limit (s : State) (except_ : Option Nat) (strait : Bool) : Nat :=
  let own := if s.busy except_ || (strait && s.flitsOut) || s.membersHeld 0 then 0
    else if s.bankHeld || s.membersHeld 1 || !s.main.tm.dozing s.activeSfc then 1 else 2
  min own (s.fld 0x01005C 31 30)

/-! ### Selection (R171, R173, R174) -/

/-- Whether the selection runs on this member: it is Working, and lead. -/
def State.selects (s : State) : Bool :=
  s.main.out && s.main.boot.local9 && s.main.sk.isLead && s.main.sk.formed && s.hearth.minBlaze.isNone && s.hearth.pen

/-- The state that the selection chooses. -/
def State.choose (s : State) (strait : Bool) : PState :=
  let lim := s.limit none strait
  let far (us : Nat) : Bool := match s.nextKnown with | some k => decide (us ≤ k.us) | none => true
  if 2 ≤ lim ∧ far (1000 * s.fld 0x01005C 29 24) then .smoulder
  else if 1 ≤ lim ∧ far (10 * s.fld 0x01005C 23 16) then .bank
  else .blaze

/-- The return scheduled before the next known event: 15 µs and 10 µs from Bank, 1.5 ms and 500 µs from Smoulder
(R173). -/
def State.plan (s : State) (ps : PState) : State :=
  let lead := if ps = .smoulder then 2000 else 25
  s.modPower (fun p => { p with
    event := s.nextKnown.map (fun k => s.now + k.us * usT)
    wakeAt := s.nextKnown.map (fun k => s.now + (k.us - lead) * usT) })

/-- Bank or Smoulder entered in a Hearth clock cycle: Smoulder powers lanes down (R280), and no grant is served in it
(R391). -/
def State.goSleep (s : State) (ps : PState) (c : Nat) : State :=
  let s1 := if ps = .smoulder then s.lanesSleep.modTd (fun t => { t with grants := [] }) else s
  ({ s1 with hearth := { s1.hearth with ps := ps } }.modPower (fun p => { p with enteredAt := some c })).plan ps

/-- Bank or Smoulder entered, with the return scheduled; the entry is abandoned where a wake source has fired in the
same Hearth clock cycle (R184). -/
def State.sleep (s : State) (ps : PState) : State :=
  let c := s.hearth.cycles
  match s.main.power.fired with
  | some (d, code) =>
    if d = c then { (s.modPower (fun p => { p with wokeAt := some c })) with hearth := { s.hearth with ps := .blaze, wakeSrc := code } }
    else s.goSleep ps c
  | none => s.goSleep ps c

/-- The return brought forward when an earlier event becomes known (R173). -/
def State.replan (s : State) : State :=
  match s.nextKnown with
  | none => s
  | some k =>
    let later := match s.main.power.event with | some e => decide (s.now + k.us * usT < e) | none => true
    if later then s.plan s.hearth.ps else s

/-- A power-state order given by the lead: STACK_STATE carries it at once (R171). -/
def State.giveOrder (s : State) (n : Nat) : State :=
  if s.main.sk.order = n then s
  else
    let s1 := s.modSk (fun k => { k with order := n })
    if s1.presentCount ≤ 1 then s1 else s1.sendStackState

/-- Each link ordered into SLEEP, or no longer (R636). -/
def State.orderLinks (s : State) (v : Bool) : State :=
  (List.range 2).foldl (fun x k =>
    if (x.link k).sleepOrder = v then x else x.modLink k (fun l => { l with sleepOrder := v && l.st != .disabled })) s

/-- Every link is in SLEEP, DOWN or DISABLED (R284, 19 When things coincide). -/
def State.linksQuiet (s : State) : Bool :=
  (List.range 2).all (fun k => (s.link k).st == .sleep || (s.link k).st == .down || (s.link k).st == .disabled)

/-- An ordered state entered: Bank at once where nothing of this member's keeps it in Blaze, Smoulder once the links
are quiet; Smoulder is entered from Bank too. -/
def State.obey (s : State) : State :=
  if s.hearth.ps ≠ .blaze ∧ s.hearth.ps ≠ .bank then s
  else if s.main.sk.order = 2 then
    let s1 := s.orderLinks true
    if s1.linksQuiet ∧ !s1.busy none ∧ !s1.bankHeld then s1.sleep .smoulder else s1
  else
    let s1 := s.orderLinks false
    if s1.main.sk.order = 1 ∧ s1.hearth.ps = .blaze ∧ !s1.busy none then s1.sleep .bank else s1

/-- Every blocker of Table HRT-4 but the missing doze agreement, one by one. -/
def State.blockers (s : State) : List Bool :=
  s.busyList none ++ [s.flitsOut, s.membersHeld 0] ++ s.bankList ++ [s.membersHeld 1]

/-- Whether something has happened for which Stoker runs the selection: a blocker has cleared, the next known event
is another, the deepest state allowed has become deeper, or step 9 has begun (R173). -/
def State.selectDue (s old : State) : Bool :=
  s.main.power.owed || decide (old.limit none true < s.limit none true)
    || (old.blockers.zip s.blockers).any (fun p => p.1 && !p.2)
    || s.nextKnown.map (fun k => (k.block, k.ident)) != old.nextKnown.map (fun k => (k.block, k.ident))
    || (s.main.boot.local9 && !old.main.boot.local9)

/-- The power state after a command; `old` is the state before it. -/
def State.powerFollow (s old : State) : State :=
  if !s.main.out ∨ !s.main.boot.local9 ∨ s.hearth.minBlaze.isSome ∨ !s.hearth.pen then s
  else
    let owe (v : Bool) (x : State) : State := { x with main := { x.main with power := { x.main.power with owed := v } } }
    match s.hearth.ps with
    | .ember => s
    | .smoulder =>
      if !s.main.sk.isLead ∧ s.main.sk.order = 0 ∧ old.main.sk.order ≠ 0 then s.wake 0x0B else s.replan
    | .bank =>
      if s.main.sk.isLead ∧ s.membersHeld 0 then (s.wake 0x0B).giveOrder 0
      else if !s.main.sk.isLead ∧ s.main.sk.order = 0 ∧ old.main.sk.order ≠ 0 then s.wake 0x0B
      else if s.selects ∧ s.main.sk.order ≠ 2 ∧ s.selectDue old ∧ s.choose true = .smoulder then (s.giveOrder 2).obey
      else if s.main.sk.order = 2 then
        (if s.selects ∧ s.choose false ≠ .smoulder then s.giveOrder 1 else s).obey.replan
      else s.replan
    | .blaze =>
      if old.hearth.ps = .bank ∨ old.hearth.ps = .smoulder then
        let s0 := if old.hearth.ps = .smoulder then s.cyReturn.treeReturn else s
        owe (!s.blockers.any id) (if s.selects then s0.giveOrder 0 else s0)
      else if s.selects then
        if s.main.sk.order = 2 then
          (if s.choose false = .smoulder then s else s.giveOrder 0).obey
        else if s.selectDue old then
          match s.choose true with
          | .smoulder => ((owe false s).giveOrder 2).obey
          | .bank => ((owe false s).giveOrder 1).obey
          | _ => (owe false s).giveOrder 0
        else s
      else if s.main.sk.formed then
        (if s.main.sk.order ≠ old.main.sk.order ∨ s.main.sk.order = 2 then s.obey else s)
      else s

/-! ### What follows every command -/

/-- The alarm of a minimal Blaze has been sent and acknowledged: the entry of its source is cleared, and no notice of a
held entry waits for its acknowledgement (R179, step 5, R185). -/
def State.minDone (s : State) : Bool :=
  match s.hearth.minBlaze with
  | some i => s.stoker && (at? s.hearth.held i {}).count == 0 && !s.main.cmd.notices.any (fun n => n.held.isSome)
      && s.main.cmd.deferred == []
  | none => false

/-- Step 7 has failed where this member is quarantined for its version or its configuration before it is Working
(Table SU-7). -/
def State.step7Follow (s : State) : State :=
  let q := (s.peer s.self).quar
  if s.main.sk.formed ∧ !s.main.boot.local9 ∧ (q = 1 ∨ q = 2) then s.stepFail 7 else s

/-- A start goes on by itself: step 6 ends (R124), Working begins once the bound transport can carry packets (R125), a
minimal Blaze whose warm resume has failed, or whose alarm is acknowledged, ends (R179, R180). -/
def State.startFollow (s0 : State) : State :=
  let s := s0.step6Follow.step7Follow
  if !s.main.out then s
  else if s.hearth.minBlaze.isSome then
    (if s.main.tm.warmFailed || s.minDone then s.holdPending.toEmber else s)
  else if s.main.sk.isLead ∧ s.main.sk.formed ∧ (s.main.cmd.bound ≠ .tree ∨ s.main.tm.st = .operation)
      ∧ (!s.main.cmd.started ∨ !s.main.boot.local9) then s.goWorking
  else s

/-- Whether a reply of an operation still waits to leave its transport: in the outbound queue, in a burst, or, for
a forwarded command, on its way to the lead (R94). -/
def State.replyWaits (s : State) (id : Nat) : Bool :=
  let own (k : OutKind) : Bool := match k with | .reply i _ => i == id | _ => false
  let sdu (d : Sdu) : Bool := match d.kind with | .packet k => own k | _ => false
  let unit (u : UpUnit) : Bool := match u.src with | .queue _ d _ => sdu d | _ => false
  s.main.cmd.hold.any (fun p => own p.kind) || s.main.cmd.out.any (fun p => own p.kind)
    || (s.upQueue 0).sdus.any sdu || s.main.up.bursts.any (fun b => b.units.any unit)
    || s.main.up.current.any (fun b => b.units.any unit) || s.main.up.leaving.any own
    || (!s.leads && (s.main.sk.held != [] || (List.range 2).any (fun k => (s.link k).st == .up && !(s.link k).quiet)))

/-- The reset that RESET_MAIN asked for, once its reply has left; what SPI_MISO last returned stands (R122). -/
def State.resetFollow (s : State) : State :=
  match s.main.boot.resetWait with
  | some id => if s.replyWaits id then s else (s.resetMain 0x07).modCmd (fun c => { c with miso := s.main.cmd.miso })
  | none => s

/-- Every consequence that a command has at once, in the blocks and in the power state; `old` is the state before
the command. -/
def State.settle (s old : State) : State :=
  if !s.main.out then s
  else
    let s1 := s.submitAll.pumpOut.cyFollow.tribsFollow.metersFollow.etherFollow.pcFollow.waFollow.pwFollow
    let s2 := if s1.main.boot.local9 then s1.clampWake else s1
    ((s2.stackFollow.startFollow).powerFollow old).resetFollow

/-- A command: `dt` ticks pass, what has ended by then is closed, its effect takes place, and what follows at once follows. -/
def State.act (s : State) (dt : Nat) (f : State → State) : State := (f (s.begin dt).wiresDone).settle s

/-! ### Commands of the power states -/

/-- What DOZE_REQ does: sent where only the missing agreement keeps the chip from Smoulder (R352). -/
def State.dozeReq (s : State) : State :=
  let m := s.main.tm
  let wait := match m.dozeReq with | some t => decide (s.now < t + 327680000) | none => false
  let only := !s.busy none && !s.flitsOut && !s.membersHeld 0 && !s.bankHeld && !s.membersHeld 1
  let ms := match s.nextKnown with | some k => k.us / 1000 | none => 65535
  if s.main.out ∧ s.main.sk.isLead ∧ s.bit 0x060010 16 ∧ m.st = .operation ∧ only ∧ s.fld 0x01005C 31 30 = 2
      ∧ m.doze = none ∧ !wait ∧ s.fld 0x060010 31 24 ≤ ms then s.dozeRequest ms else s

/-- What STACK_STATE_TIMER does with this member's next event and blockers (R171, R649). -/
def State.periodicState (s : State) : State :=
  s.stateTimer (match earliest s.ownEvents with | some k => sat 0xFFFFFFFE k.us | none => 0xFFFFFFFF) s.blockerBits

/-- What TERM_DATA does: identity, allocations and the state of the downstream, and the begin of step 9 (20). -/
def State.termData (s : State) : State :=
  match s.takeMsg 0x0C with
  | (none, s1) => s1
  | (some t, s1) =>
    let f := field t.body 0 1
    let alloc (i : Nat) : Option Alloc :=
      let w := field t.body (3 + 2 * i) 2
      if bitOf w 15 then some ⟨bitOf w 14, bits w 11 0⟩ else none
    let s2 := (s1.modTm (fun m => { m with
      ident := if bitOf f 0 then some (field t.body 1 2) else none
      allocs := (List.range 8).map alloc })).modTd (fun d => { d with lost := bitOf f 1 })
    if bitOf f 2 ∧ !s2.main.sk.isLead then
      (s2.localStart.revertNotice).modHearth (fun h => { h with start := { h.start with
        msel := some s2.main.boot.msel, lead := false } })
    else s2

/-- PS_STATUS (Table HRT-7). The operation itself does not count as a blocker; the block of an event that another
member reports, and that of no event, are free values. -/
def opPsStatus (op : Nat) (p : List Byte) (s : State) : State :=
  if p ≠ [] then s.finish op 0x0004 []
  else
    let w := s.main.power
    let (x, s1) := s.draw
    let n := s.nextKnown
    let block := ((n.map Known.block).getD none).getD x
    let us := match n with | some k => sat 0xFFFFFFFE k.us | none => 0xFFFFFFFF
    s1.finish op 0 ([byte s.hearth.ps.code, byte (s.limit (some op) true), byte block, 0#8] ++ be 4 us
      ++ be 4 (sat 0xFFFFFFFF (w.blaze / msT)) ++ be 4 (sat 0xFFFFFFFF (w.bank / msT))
      ++ be 4 (sat 0xFFFFFFFF (w.smoulder / msT)))

end Sys2Proof.Machine
end

