-- ==== Sys2Proof/Machine/Commands.lean ====
section
/-! DEFINITION. The execution of commands (03): the checks of R755, the order of starts, forwarding, the opcodes
of block CMD, and the dispatch of every opcode to its block. -/

namespace Sys2Proof.Machine

/-! ### Opcodes: which exist, and what each is permitted (R109, R755) -/

/-- The functions that a block defines, as the number of them from 0 on (Controls of each chapter). -/
def blockFunctions (block : Nat) : Nat :=
  [0, 2, 5, 4, 4, 1, 5, 2, 6, 1, 3, 6, 11, 5, 2, 2, 4, 8, 3].getD block 0

/-- Whether an opcode is defined (check 1). -/
def opcodeDefined (op : Nat) : Bool :=
  if op < 256 then
    ([0x01, 0x02, 0x10, 0x11, 0x12, 0x20, 0x21, 0x30, 0x50] : List Nat).contains op || decide (0x40 ≤ op ∧ op ≤ 0x46)
  else decide (op % 256 < blockFunctions (op / 256))

/-- Opcodes of a block other than CMD that are not permitted in quarantine (Controls of each chapter). -/
def quarantineBarred : List Nat :=
  [0x0201, 0x0202, 0x0203, 0x0204, 0x0301, 0x0302, 0x0402, 0x0403, 0x0601, 0x0602, 0x0603, 0x0604, 0x0800, 0x0802,
   0x0803, 0x0804, 0x0A02, 0x0B05, 0x0C02, 0x0C06, 0x0C07, 0x0C08, 0x0C09, 0x0C0A, 0x0D01, 0x0D04, 0x0E01, 0x1001,
   0x1002, 0x1003, 0x1105, 0x1106, 0x1107, 0x1202]

/-- Whether a quarantined member executes an opcode (R89, check 6). -/
def quarantineOk (op : Nat) : Bool := !quarantineBarred.contains op

/-- Whether the bound transport may carry an opcode (R363, check 2). -/
def transportOk (t : Transport) (op : Nat) : Bool :=
  if op = 0x0601 ∨ op = 0x0602 ∨ op = 0x0603 then t != .tree else if op = 0x0604 then t == .uart else true

/-- Whether the state of the terminal permits an opcode (R121, R138, check 3). In a minimal Blaze an alarm ends by its
acknowledgement, so NOTICE_ACK is executed there (R179; DEDUCED, log entry 136). -/
def State.terminalOk (s : State) (op : Nat) : Bool :=
  let early := op == 0x01 || op == 0x02 || op == 0x10 || (op == 0x30 && s.hearth.minBlaze.isSome)
  if s.main.boot.rescue then early || op == 0x50 || decide (0x40 ≤ op ∧ op ≤ 0x46)
  else s.main.cmd.started || early

/-- Whether the downstream direction of port 0x001 runs in clear because the key slot that TD_PORT1 names is empty
(R493). -/
def State.clearPort (s : State) : Bool :=
  s.main.cmd.bound == .tree && dirLen (s.keySlot (bits (s.tdPort 1) 7 0)).dir == 0

/-- Whether an opcode is executed while the downstream runs in clear (R493, check 4). -/
def keylessOk (op : Nat) : Bool :=
  ([0x01, 0x02, 0x20, 0x30, 0x10, 0x0B00, 0x0B01, 0x0B02] : List Nat).contains op

/-- The opcodes that act on the lead, whatever MEMBER names (R363, R667). -/
def onLead (op : Nat) : Bool := decide (0x0601 ≤ op ∧ op ≤ 0x0604) || decide (0x1001 ≤ op ∧ op ≤ 0x1003)

/-! ### Opcodes of block CMD (R110, R113, R122) -/

/-- NOP. -/
def opNop (op : Nat) (p : List Byte) (s : State) : State :=
  if p ≠ [] then s.finish op 0x0004 [] else s.finish op 0 []

/-- GET_INFO: CMD_CHIP_ID, CMD_STRAPS, CMD_FW_VERSION, the terminal's serial and the chip serial (R25). -/
def opGetInfo (op : Nat) (p : List Byte) (s : State) : State :=
  if p ≠ [] then s.finish op 0x0004 []
  else s.finish op 0 (be 4 chipIdWord ++ be 4 s.strapsWord ++ be 4 s.main.boot.fw ++ be 8 s.termSerial ++ be 8 ownSerial)

/-- The state of an operation as OP_QUERY gives it. -/
def OpState.code : OpState → Nat
  | .queued => 1 | .running => 2 | .replying => 3

/-- The entry of a tag on this member: the operation's on the lead, its shadow elsewhere (R87). -/
def State.entryOfTag (s : State) (tag : Nat) : Option OpEntry :=
  if s.leads then s.opOfTag tag else s.main.cmd.ops.find? (fun e => e.shadow && e.tag == tag)

/-- OP_QUERY: state, member, opcode and age of the operation that holds a tag here; NO_TAG where it is FREE. -/
def opOpQuery (op : Nat) (p : List Byte) (s : State) : State :=
  if p.length ≠ 2 then s.finish op 0x0004 []
  else match s.entryOfTag (field p 0 2) with
    | none => s.finish op 0x0016 []
    | some e => s.finish op 0 ([byte (s.opState e).code, byte e.member] ++ be 2 e.opcode
        ++ be 4 (sat 0xFFFFFFFF ((s.now - e.accepted) / msT)))

/-- What CANCEL does, and its status and reply parameters: a QUEUED operation ends ABORTED (R110). -/
def State.cancel (s : State) (p : List Byte) : State × Nat × List Byte :=
  if p.length ≠ 2 then (s, 0x0004, [])
  else match s.opOfTag (field p 0 2) with
    | none => (s, 0x0016, [])
    | some e =>
      if s.opState e = .queued then ((s.unsend e).memberResult e.id ⟨s.self, 0x0012, []⟩, 0, [0#8])
      else (s, 0, [1#8])

/-- CANCEL (R110). -/
def opCancel (op : Nat) (p : List Byte) (s : State) : State :=
  let (s1, st, r) := s.cancel p
  s1.finish op st r

/-- NOTICE_ACK: the alarm gives up its number and place, its held entry is cleared, here or on its member, and a
minimal Blaze with no alarm left ends (R101, R113, R179, R183). -/
def opNoticeAck (op : Nat) (p : List Byte) (s : State) : State :=
  if p.length ≠ 2 then s.finish op 0x0004 []
  else match s.main.cmd.notices.find? (fun n => n.num == field p 0 2 && n.alarm) with
    | none => s.finish op 0x0016 []
    | some n =>
      let s1 := (s.dropNotice n true).chimneyAcked
      let other := n.member ≠ s.self ∧ (noticeSource n).isSome ∧ s.main.sk.formed
      let s2 := if other then s1.sendMsg 0 n.member 0x0B 0 ([2#8] ++ be 1 ((noticeSource n).getD 0)) else s1
      s2.finish op 0 []

/-- RESET_MAIN: the reset follows its reply. -/
def opResetMain (op : Nat) (p : List Byte) (s : State) : State :=
  if p.length ≠ 2 then s.finish op 0x0004 []
  else if field p 0 2 ≠ 0x5A3C then s.finish op 0x0005 []
  else (s.finish op 0 []).modBoot (fun b => { b with resetWait := some op })

/-! ### The dispatch of opcodes -/

/-- Block CMD. -/
def runCmd (f id : Nat) (p : List Byte) (s : State) : State :=
  if f = 0x01 then opNop id p s else if f = 0x02 then opGetInfo id p s else if f = 0x10 then opRegRead id p s
  else if f = 0x11 then opRegWrite id p s else if f = 0x12 then opRegModify id p s
  else if f = 0x20 then opOpQuery id p s else if f = 0x21 then opCancel id p s
  else if f = 0x30 then opNoticeAck id p s else if f = 0x40 then opImgStatus id p s
  else if f = 0x41 then opImgErase id p s else if f = 0x42 then opImgWrite id p s
  else if f = 0x43 then opImgVerify id p s else if f = 0x44 then opImgActivate id p s
  else if f = 0x45 then opImgCommit id p s else if f = 0x46 then opBootReport id p s
  else opResetMain id p s

/-- The opcode functions of each block but CMD, in the order of their numbers. -/
def blockOps (block : Nat) : List (Nat → List Byte → State → State) :=
  match block with
  | 0x01 => [opPsStatus, opHeldRead]
  | 0x02 => [opNtStatus, opNtSet, opNtAdjust, opCmpArm, opCmpDisarm]
  | 0x03 => [opMaStatus, opMaArm, opMaPulse, opMaWave]
  | 0x04 => [opLnReport, opLnEye, opLnTxRelease, opLnSpareForce]
  | 0x05 => [opTdReport]
  | 0x06 => [opTmStatus, opTmSetSerial, opTmSetIdent, opTmForget, opTmClearDisable]
  | 0x07 => [opUpStatus, opUpAdmitTest]
  | 0x08 => [opMpXact, opMpStatus, opMpProgLoad, opMpProgStart, opMpProgStop, opMpProgStatus]
  | 0x09 => [opTbStatus]
  | 0x0A => [opEmStatus, opEmStats, opEmMdio]
  | 0x0B => [opCyStatus, opCyKeyInfo, opCyKeyLoad, opCyKeyErase, opCyZeroise, opCyRun]
  | 0x0C => [opPcStatus, opPcBudget, opPcForceIdr, opPcClipList, opPcClipIndex, opPcClipSend, opPcClipLock,
             opPcClipUnlock, opPcDecLoad, opPcDecode, opPcDecStop]
  | 0x0D => [opWaStatus, opWaCapture, opWaField, opWaDisc, opWaI2c]
  | 0x0E => [opPwStatus, opPwClear]
  | 0x0F => [opStStatus, opStRetrain]
  | 0x10 => [opSkStatus, opSkCfgWrite, opSkCfgCommit, opSkQuarantine]
  | 0x11 => [opAlStatus, opAlRead, opAlArchives, opAlArchRead, opAlUpload, opAlFlush, opAlWave, opAlMark]
  | 0x12 => [opMmStatus, opMmLog, opMmWithdraw]
  | _ => []

/-- A defined opcode executed on this member for the operation with a handle (checks 7 to 9 of R755 are its own). -/
def State.runOpcode (s : State) (opcode id : Nat) (p : List Byte) : State :=
  if opcode < 256 then runCmd opcode id p s
  else match (blockOps (opcode / 256))[opcode % 256]? with
    | some f => f id p s
    | none => s.finish id 0x0003 []

/-! ### COMMAND_START (R88 to R91, R116, R118, R755) -/

/-- Whether two operations are commands to one member (R91). -/
def OpEntry.meets (a b : OpEntry) (self : Nat) : Bool :=
  let on (e : OpEntry) : Nat := if onLead e.opcode then self else e.member
  a.all || b.all || on a == on b

/-- Whether an accepted command may start: those accepted earlier for the same member have started, and for an
ORDERED command they have sent their final replies (R91). -/
def State.mayStart (s : State) (e : OpEntry) : Bool :=
  (s.main.cmd.ops.takeWhile (fun x => x.id != e.id)).all (fun x =>
    x.shadow || !x.meets e s.self || (x.st != .queued && !e.ordered))

/-- Whether a member is there to be named: this one, or one of the present map (R89). -/
def State.named (s : State) (m : Nat) : Bool := m == s.self || (s.main.sk.formed && (s.peer m).present)

/-- The lead's checks 1 to 4 of R755: the status of the first that fails, 0 where none does. -/
def State.leadChecks (s : State) (op : Nat) : Nat :=
  if !opcodeDefined op then 0x0003
  else if !transportOk s.main.cmd.bound op then 0x000D
  else if !s.terminalOk op then 0x000E
  else if s.clearPort && !keylessOk op then 0x0014
  else 0

/-- Whether 32,767 earlier commands to a member have no final reply yet, so that no COMMAND goes to it (R716). -/
def State.memberFull (s : State) (e : OpEntry) (m : Nat) : Bool :=
  decide (32767 ≤ (s.main.cmd.ops.filter (fun x => x.id != e.id && !x.shadow && x.await.contains m)).length)

/-- A command put on its way to another member (R88, R646): none where it cannot be placed (R118, R716). -/
def State.forward (s : State) (e : OpEntry) (m : Nat) : Option State :=
  let seq := (s.peer m).cmdSeq
  let pkt := mkPacket 0 m 0 e.opcode e.tag 0 0 e.params
  if s.memberFull e m then none
  else match s.offer ⟨0, m, s.stackMsg 0x05 seq pkt⟩ with
  | none => none
  | some s1 => some (s1.modPeer m (fun p => { p with cmdSeq := (seq + 1) % 65536 }))

/-- A command forwarded to several members; those in quarantine are answered for. -/
def State.forwardAllTo (s : State) (e : OpEntry) : List Nat → Option State
  | [] => some s
  | m :: t =>
    if (s.peer m).quar ≠ 0 ∧ !quarantineOk e.opcode then
      match s.forwardAllTo e t with
      | some s1 => some (s1.memberResult e.id ⟨m, 0x000C, []⟩)
      | none => none
    else match s.forward e m with
      | some s1 => s1.forwardAllTo e t
      | none => none

/-- A command executed on this member, after check 6 (R89). -/
def State.runHere (s : State) (e : OpEntry) : State :=
  if s.quarantined ∧ !quarantineOk e.opcode then s.memberResult e.id ⟨s.self, 0x000C, []⟩
  else s.runOpcode e.opcode e.id e.params

/-- The members that a command names: every present one, or the one of its MEMBER (R89, R90). -/
def State.targets (s : State) (e : OpEntry) : List Nat :=
  if e.all then (List.range 8).filter s.named else if s.named e.member then [e.member] else []

/-- CANCEL started: it acts once, on the lead, whose operation table it names, and each member named answers with its
outcome (R90, R110). -/
def State.startCancel (s : State) (e : OpEntry) : State :=
  let (s1, st, r) := s.cancel e.params
  (s.targets e).foldl (fun x m => x.memberResult e.id ⟨m, st, r⟩) s1

/-- A command started (R755). -/
def State.startOp (s : State) (e : OpEntry) : State :=
  let st := s.leadChecks e.opcode
  let run (await : List Nat) (x : State) : State :=
    x.modOp e.id (fun e => { e with st := .running, space := 0, await := await })
  if st ≠ 0 then (run [] s).memberResult e.id ⟨s.self, st, []⟩
  else if onLead e.opcode then (run [s.self] s).runHere e
  else if s.targets e = [] then (run [] s).memberResult e.id ⟨s.self, 0x000A, []⟩
  else if e.opcode = 0x21 then (run (s.targets e) s).startCancel e
  else
    match (run (s.targets e) s).forwardAllTo e ((s.targets e).filter (fun m => m != s.self)) with
    | some s1 => if (s.targets e).contains s.self then s1.runHere e else s1
    | none => s

/-- What COMMAND_START does for a tag: the packet has woken the chip (R114). -/
def State.commandStart (s : State) (tag : Nat) : State :=
  if !s.main.out then s else
  let s1 := s.wake 0x06
  match s1.opOfTag tag with
  | some e => if e.st = .queued ∧ s1.mayStart e then s1.startOp e else s1
  | none => s1

/-- A command of the master for this member, received whole on the bound transport: accepted (R86), and started
where its turn has come. A member that is not lead answers NOT_LEAD (R73). -/
def State.command (op tag : Nat) (p : List Byte) (s : State) : State :=
  if !s.main.out then s else
  let s1 := s.wake 0x06
  let units := (16 + (if p = [] then 0 else p.length + 4) + 15) / 16
  let h : Hdr := { kind := 0, format := 1, res2 := 0, member := s.self, flags := 0, opcode := op, tag := tag,
                   length := p.length, status := 0, part := 0 }
  if !s1.leads then s1.refuse op tag 0x000B .refusal
  else if 4096 < p.length then s1.refuse op tag 0x0004 .refusal
  else if (s1.opOfTag tag).isSome then s1.refuse op tag 0x0001 .refusal
  else (s1.accept h p units).commandStart tag

/-! ### COMMAND (R646): a forwarded command on its member -/

/-- A forwarded command executed. -/
def State.runShadow (s : State) (id : Nat) : State :=
  match s.op? id with
  | none => s
  | some e =>
    if s.quarantined ∧ !quarantineOk e.opcode then s.finish id 0x000C [] else s.runOpcode e.opcode id e.params

/-- What COMMAND does. -/
def State.commandMsg (s : State) : State :=
  let (ids, s1) := s.commandIn
  ids.foldl State.runShadow s1

end Sys2Proof.Machine
end

