-- ==== Sys2Proof/Machine/Effects.lean ====
section
/-! DEFINITION. The frame of a command's effect: which part of the chip must run for it, and the effects that several
blocks share. -/

namespace Sys2Proof.Machine

/-! ### What must run -/

/-- An effect on the main domain: nothing while it is in reset, or stopped in the boot ROM (R60, R68). -/
def State.onMain (f : State → State) (s : State) : State := if s.main.out && !s.main.boot.stopped then f s else s

/-- An effect on a block outside the command port: nothing in rescue either, where those blocks stay in their reset
states (R138). -/
def State.onBlocks (f : State → State) (s : State) : State :=
  if s.main.out && !s.main.boot.stopped && !s.main.boot.rescue then f s else s

/-! ### Registers written -/

/-- A register written by itself; a value that is reserved writes nothing (R17). -/
def State.regWrite (a v : Nat) (s : State) : State := (s.writeReg a v).1

/-- The EN bit of a register, bit 31, cleared. -/
def State.enClear (a : Nat) (s : State) : State := State.regWrite a (putBits (s.word a) 31 31 0) s

/-! ### Actions of other blocks -/

/-- The actions of a schedule entry on other blocks (Table MA-2). -/
def entryActs : Acts := ⟨fun c e s => State.capture c e none s, fun p s => s.startProg p none⟩

/-- The action of a compare unit (Table NT-4). -/
def compareAct (action param : Nat) (s : State) : State :=
  match action with
  | 1 => State.capture param none none s
  | 2 => s.startProg param none
  | 3 => s.armEntry param none
  | 4 => s.modNt (fun n => { n with mark := !n.mark })
  | _ => s

/-! ### Events that reach several blocks -/

/-- What SECOND_BOUNDARY does: PPS_OUT rises, and the phase angles are latched (R219, R654). -/
def State.secondBoundary (s : State) : State :=
  match s.main.nt.boundary with
  | some b => s.ppsRise.phaseLatch b
  | none => s

/-- What FRAME_RECEIVED does: the frame, and the statistics that Ethernet latches at a superframe (R300, R474). -/
def State.frameIn (s : State) (lane : Nat) (bytes : List Byte) : State :=
  let s1 := s.frameReceived lane bytes
  if lane = s1.main.td.active ∧ s1.tdLocked lane ∧ (s1.tdLane lane).at_ = s1.now ∧ s1.activeSfc % 8192 = 0 then s1.emSuperframe else s1

/-- What MGMT_SDU does: the first finished SDU of port 0x001 (R74). -/
def State.mgmtSduIn (s : State) : State :=
  match s.takeSdu (fun d => d.port == 1) with
  | some (d, s1) => s1.mgmtSdu d.bytes d.distrust
  | none => s

/-- The kind of an SDU by its source (Table UP-3). -/
def sourceKind (source : Nat) : SduKind :=
  match source with
  | 0 => .meter 0
  | 1 => .ash
  | 2 => .clip
  | n => .eth (n - 3)

/-- What SDU_ENQUEUE does: a source of this member offers an SDU to a queue of the lead (R373, R375). -/
def State.sourceOffers (s : State) (queue source : Nat) (bytes : List Byte) : State :=
  if 32 ≤ queue ∨ 4 < source ∨ bytes = [] then s
  else if s.leads then (s.enqueue queue (sourceKind source) bytes).1
  else if source = 0 then s.sendMsg 2 s.main.sk.lead 0x07 queue bytes
  else s.sendMsg 3 s.main.sk.lead 0x09 queue ([0#8, byte queue] ++ bytes)

/-- What ST_MESSAGE_OFFER does: a message accepted into a transmit queue, or refused (R620). -/
def State.messageOffered (s : State) (link cls dest : Nat) (bytes : List Byte) : State :=
  (s.offerOn link ⟨cls, dest, bytes⟩).getD s

end Sys2Proof.Machine
end

