-- ==== Sys2Proof/Machine/Pool.lean ====
section
/-! DEFINITION. What an uncorrectable word of the pool does to the item that holds it (R32, R315, R638, R694). DESIGN
CHOICE (log entry 143): the spec lays out the regions of the pool and not what stands where in them, so which item holds
a word is a free value, and the block that holds it acts when the scrubber finds the word. -/

namespace Sys2Proof.Machine

/-- An item that a block keeps in the pool (Table MM-1). -/
inductive PoolItem where
  /-- A queued operation, by its handle. -/
  | op (id : Nat)
  /-- A packet of the outbound queue. -/
  | packet (i : Nat)
  /-- An SDU of an upstream queue. -/
  | sdu (q i : Nat)
  /-- A message of a Strait transmit queue. -/
  | offered (k cls i : Nat)
  /-- A message of a Strait receive buffer. -/
  | received (k cls : Nat) (w : Waiting)
  /-- The message that a Strait receive buffer reassembles. -/
  | arriving (k cls : Nat)
  /-- The SDU in reassembly of a port. -/
  | reasm (port : Nat)
  /-- A result in the meter hold. -/
  | held (i : Nat)
  deriving DecidableEq, Repr

/-- The block that reads an item (Table CMD-6). -/
def PoolItem.block : PoolItem → Nat
  | .op _ | .packet _ => 0x00
  | .sdu _ _ => 0x07
  | .offered _ _ _ | .received _ _ _ | .arriving _ _ => 0x0F
  | .reasm _ => 0x05
  | .held _ => 0x08

/-- Every class of every link. -/
def linkClasses : List (Nat × Nat) := (List.range 2).flatMap (fun k => (List.range 4).map (fun c => (k, c)))

/-- What the receive buffers of Strait hold. -/
def State.receivedItems (s : State) : List PoolItem :=
  linkClasses.flatMap (fun (k, c) =>
    let x := at? (s.link k).classes c {}
    x.wait.map (.received k c) ++ (if x.rx.isSome then [.arriving k c] else []))

/-- What the packet and queue buffers hold. -/
def State.queuedItems (s : State) : List PoolItem :=
  (List.range s.main.cmd.out.length).map .packet
    ++ s.main.up.queues.zipIdx.flatMap (fun (u, q) =>
      u.sdus.zipIdx.filterMap (fun (d, i) => if d.sent = 0 then some (.sdu q i) else none))
    ++ linkClasses.flatMap (fun (k, c) => (List.range (at? (s.link k).classes c {}).txq.length).map (.offered k c))

/-- The items that may hold a word, by the region that it lies in (Table MM-1). -/
def State.itemsAt (s : State) (w : Nat) : List PoolItem :=
  let a := 8 * w
  if a < 0x0C0000 then []
  else if a < 0x1C0000 then
    (s.main.cmd.ops.filter (fun e => !e.shadow && e.st == .queued)).map (fun e => .op e.id)
  else if a < 0x340000 then s.queuedItems ++ s.receivedItems ++ s.main.td.reasm.map (fun r => .reasm r.port)
  else if a < 0x350000 ∨ 1024 * (s.main.mm.capKib - s.poolKib) ≤ a then []
  else s.receivedItems ++ s.main.td.reasm.map (fun r => .reasm r.port) ++ (List.range s.main.mp.hold.length).map .held

/-- What a block does with an item that holds a poisoned word: its own chapter's rule, or the item is discarded. -/
def State.poisonItem (s : State) : PoolItem → State
  | .op id => s.modCmd (fun c => { c with ops := c.ops.filter (fun e => e.id != id) })
  | .packet i => (s.modCmd (fun c => { c with out := c.out.eraseIdx i })).pumpOut
  | .sdu q i => s.modUp (fun u => { u with queues := u.queues.modify q (fun x => { x with sdus := x.sdus.eraseIdx i }) })
  | .offered k cls i => s.modLink k (fun l => l.modClass cls (fun c => { c with txq := c.txq.eraseIdx i }))
  | .received k cls w => (s.freeWaiting k cls w).count (0x0F013C + 256 * k) 23 16
  | .arriving k cls =>
    (s.modLink k (fun l => l.modClass cls (fun c => { c with rx := c.rx.map (fun p => { p with lost := true }) }))).count
      (0x0F013C + 256 * k) 23 16
  | .reasm port => s.modTd (fun t => { t with reasm := t.reasm.map (fun r => if r.port = port then { r with fec := true } else r) })
  | .held i => s.modMp (fun m => { m with hold := m.hold.eraseIdx i })

/-- A poisoned word found at logical word `w`: the item that holds it, if any, is read by its block; a free value names
it. -/
def State.poisonFound (s : State) (w : Nat) : State :=
  let items := s.itemsAt w
  let (x, s1) := s.draw
  match items[x % (items.length + 1)]? with
  | none => s1
  | some i =>
    ((s1.modMem (fun m => { m with poison := m.poison.filter (· != w) })).poisonedRead (8 * w)
      (s.main.mm.physical (w / 16384)) i.block).poisonItem i

/-- What SCRUB_READ does (R694, R696): the scrubber's read, and what an uncorrectable word does to the item around it. -/
def State.scrub (s : State) (r : WordRead) : State :=
  let s1 := s.scrubRead r
  match r with
  | .double =>
    if s1.main.mm.scrubWord = s.main.mm.scrubWord then s1 else s1.poisonFound (s.main.mm.scrubWord % s.main.mm.words)
  | _ => s1

end Sys2Proof.Machine
end

