-- ==== Sys2Proof/Machine/AshRows.lean ====
section
/-! DEFINITION. The meanings of commands. The ash log and the memory (21, 22). -/

namespace Sys2Proof.Machine

/-- A 1.024 s rate window ends and a SUPPRESSED record gives the count (R671). -/
def execSuppressWindowEnd (dt : Nat) (source : Nat) (s : State) : Host.Outcome State Fault Refusal :=
  .next (s.act dt (State.onBlocks (fun x => x.suppressEnd source)))

/-- A flush starts on the reserve, on command or when owed, and snapshots the ring (R679). -/
def execFlushStart (dt : Nat) (s : State) : Host.Outcome State Fault Refusal :=
  .next (s.act dt (State.onBlocks State.flushStart))

/-- A flush erase or page program completes and the next step is admitted or the flush ends (R681). -/
def execFlushStepDone (dt : Nat) (ok : Bool) (s : State) : Host.Outcome State Fault Refusal :=
  .next (s.act dt (State.onBlocks (fun x => x.flushStepDone ok)))

/-- Command AL_STATUS returns ash status, next SEQ, counters and F (R688). -/
def execAlStatus (dt : Nat) (tag : BitVec 16) (params : List Byte) (s : State) : Host.Outcome State Fault Refusal :=
  .next (s.act dt (State.onMain (State.command 0x1100 tag.toNat params)))

/-- Command AL_READ returns records from the ring (R688). -/
def execAlRead (dt : Nat) (tag : BitVec 16) (params : List Byte) (s : State) : Host.Outcome State Fault Refusal :=
  .next (s.act dt (State.onMain (State.command 0x1101 tag.toNat params)))

/-- Command AL_ARCHIVES returns the archive headers and states (R688). -/
def execAlArchives (dt : Nat) (tag : BitVec 16) (params : List Byte) (s : State) : Host.Outcome State Fault Refusal :=
  .next (s.act dt (State.onMain (State.command 0x1102 tag.toNat params)))

/-- Command AL_ARCH_READ returns bytes of an archive slot (R688). -/
def execAlArchRead (dt : Nat) (tag : BitVec 16) (params : List Byte) (s : State) : Host.Outcome State Fault Refusal :=
  .next (s.act dt (State.onMain (State.command 0x1103 tag.toNat params)))

/-- Command AL_UPLOAD sends an archive or the ring upstream or on Ethernet (R684). -/
def execAlUpload (dt : Nat) (tag : BitVec 16) (params : List Byte) (s : State) : Host.Outcome State Fault Refusal :=
  .next (s.act dt (State.onMain (State.command 0x1104 tag.toNat params)))

/-- Command AL_FLUSH runs a flush and replies when it ends (R679). -/
def execAlFlush (dt : Nat) (tag : BitVec 16) (params : List Byte) (s : State) : Host.Outcome State Fault Refusal :=
  .next (s.act dt (State.onMain (State.command 0x1105 tag.toNat params)))

/-- Command AL_WAVE writes a WAVE record (R674). -/
def execAlWave (dt : Nat) (tag : BitVec 16) (params : List Byte) (s : State) : Host.Outcome State Fault Refusal :=
  .next (s.act dt (State.onMain (State.command 0x1106 tag.toNat params)))

/-- Command AL_MARK writes a MARK record (R688). -/
def execAlMark (dt : Nat) (tag : BitVec 16) (params : List Byte) (s : State) : Host.Outcome State Fault Refusal :=
  .next (s.act dt (State.onMain (State.command 0x1107 tag.toNat params)))

/-- The patrol scrubber reads the next word, corrects it and detects hard faults (R696). -/
def execScrubRead (dt : Nat) (r : WordRead) (s : State) : Host.Outcome State Fault Refusal :=
  .next (s.act dt (State.onBlocks (fun x => x.scrub r)))

/-- A field repair copies a row or lane into a spare and switches it (R701). -/
def execFieldRepair (dt : Nat) (s : State) : Host.Outcome State Fault Refusal :=
  .next (s.act dt (State.onBlocks State.fieldRepair))

/-- Stoker writes the repair log to the flash sector not taken, when admitted (R704). -/
def execRepairLogFlash (dt : Nat) (s : State) : Host.Outcome State Fault Refusal :=
  .next (s.act dt (State.onBlocks State.repairLogFlash))

/-- The Hearth scrubber pass corrects words and acts on uncorrectable ones (R705). -/
def execHearthScrub (dt : Nat) (region : Nat) (offset : Nat) (r : WordRead)
    (s : State) : Host.Outcome State Fault Refusal :=
  .next (s.act dt (fun x => x.hearthScrub region offset r))

/-- Command MM_STATUS returns memory status, map, counters and banks (R709). -/
def execMmStatus (dt : Nat) (tag : BitVec 16) (params : List Byte) (s : State) : Host.Outcome State Fault Refusal :=
  .next (s.act dt (State.onMain (State.command 0x1200 tag.toNat params)))

/-- Command MM_LOG returns the Hearth repair log (R709). -/
def execMmLog (dt : Nat) (tag : BitVec 16) (params : List Byte) (s : State) : Host.Outcome State Fault Refusal :=
  .next (s.act dt (State.onMain (State.command 0x1201 tag.toNat params)))

/-- Command MM_WITHDRAW enters a bank withdrawal taking effect at the next start (R709). -/
def execMmWithdraw (dt : Nat) (tag : BitVec 16) (params : List Byte) (s : State) : Host.Outcome State Fault Refusal :=
  .next (s.act dt (State.onMain (State.command 0x1202 tag.toNat params)))

end Sys2Proof.Machine
end

