-- ==== Sys2Proof/Machine/CipherRows.lean ====
section
/-! DEFINITION. The meanings of commands. The cipher engine (15). -/

namespace Sys2Proof.Machine

/-- A free pipeline takes the head request of the chosen queue (R494). -/
def execCipherRequestStart (dt : Nat) (pipe : Nat) (s : State) : Host.Outcome State Fault Refusal :=
  .next (s.act dt (State.onBlocks (fun x => x.cipherStart pipe)))

/-- A request completes and its completion, with any DISTRUST verdict, goes to its consumer (R496). -/
def execCipherCompletion (dt : Nat) (pipe : Nat) (s : State) : Host.Outcome State Fault Refusal :=
  .next (s.act dt (State.onBlocks (fun x => x.cipherCompletion pipe)))

/-- A health test fails and, after three, RNG_FAIL is set and CY_RNG raised (R508). -/
def execRngHealthFail (dt : Nat) (test : Nat) (s : State) : Host.Outcome State Fault Refusal :=
  .next (s.act dt (State.onBlocks (fun x => x.rngHealthFail test)))

/-- Every 10 s Stoker restarts a failed entropy source (R508). -/
def execRngRestart (dt : Nat) (s : State) : Host.Outcome State Fault Refusal :=
  .next (s.act dt (State.onBlocks State.rngRestart))

/-- A DRBG instance reaches its reseed count or 60 s and reseeds from the pool (R507). -/
def execDrbgReseed (dt : Nat) (inst : Nat) (s : State) : Host.Outcome State Fault Refusal :=
  .next (s.act dt (State.onBlocks (fun x => x.drbgReseed inst)))

/-- The entropy source's start-up test of 4,096 raw bits passes, RNG_FAIL clears, the DRBG instances are
instantiated and CY_STATUS.READY is set (R508). -/
def execStartUpTestPassed (dt : Nat) (s : State) : Host.Outcome State Fault Refusal :=
  .next (s.act dt (State.onBlocks State.rngPassed))

/-- A key update has waited 1 ms for decryptions that use the inactive bank; those decryptions end with CY_NO_KEY
and DISTRUST, and the update proceeds (R513). -/
def execInactiveBankWaitTimeout (dt : Nat) (s : State) : Host.Outcome State Fault Refusal :=
  .next (s.act dt (State.onBlocks State.bankWaitOver))

/-- Clearing a cipher queue's EN aborts its queued requests (R513). -/
def execCyQueueDisable (dt : Nat) (queue : Nat) (s : State) : Host.Outcome State Fault Refusal :=
  .next (s.act dt (State.onBlocks (fun x => if queue < 4 then State.enClear (0x0B0100 + 16 * queue) x else x)))

/-- Command CY_STATUS returns cipher status, counters and queue fills (R516). -/
def execCyStatus (dt : Nat) (tag : BitVec 16) (params : List Byte) (s : State) : Host.Outcome State Fault Refusal :=
  .next (s.act dt (State.onMain (State.command 0x0B00 tag.toNat params)))

/-- Command CY_KEY_INFO returns a slot's directory word and check values (R516). -/
def execCyKeyInfo (dt : Nat) (tag : BitVec 16) (params : List Byte) (s : State) : Host.Outcome State Fault Refusal :=
  .next (s.act dt (State.onMain (State.command 0x0B01 tag.toNat params)))

/-- Command CY_KEY_LOAD unwraps a key into staging and commits the update (R490). -/
def execCyKeyLoad (dt : Nat) (tag : BitVec 16) (params : List Byte) (s : State) : Host.Outcome State Fault Refusal :=
  .next (s.act dt (State.onMain (State.command 0x0B02 tag.toNat params)))

/-- Command CY_KEY_ERASE erases a slot at once (R516). -/
def execCyKeyErase (dt : Nat) (tag : BitVec 16) (params : List Byte) (s : State) : Host.Outcome State Fault Refusal :=
  .next (s.act dt (State.onMain (State.command 0x0B03 tag.toNat params)))

/-- Command CY_ZEROISE with key 0xA5C3 zeroises the key store (R509). -/
def execCyZeroise (dt : Nat) (tag : BitVec 16) (params : List Byte) (s : State) : Host.Outcome State Fault Refusal :=
  .next (s.act dt (State.onMain (State.command 0x0B04 tag.toNat params)))

/-- Command CY_RUN runs one local GCM, CTR or CMAC operation (R503). -/
def execCyRun (dt : Nat) (tag : BitVec 16) (params : List Byte) (s : State) : Host.Outcome State Fault Refusal :=
  .next (s.act dt (State.onMain (State.command 0x0B05 tag.toNat params)))

end Sys2Proof.Machine
end

