-- ==== Sys2Proof/Machine/EthernetRows.lean ====
section
/-! DEFINITION. The meanings of commands. Ethernet (14). -/

namespace Sys2Proof.Machine

/-- A received Ethernet frame is checked, classified, metered and offered to its queue (R461). -/
def execEthFrameRx (dt : Nat) (port : Nat) (frame : List Byte) (symbol : Bool)
    (s : State) : Host.Outcome State Fault Refusal :=
  .next (s.act dt (State.onBlocks (fun x => x.ethFrameRx port frame symbol)))

/-- An Ethernet link comes up after 10 ms of its condition or goes down at once, queuing EM_LINK (R460). -/
def execLinkChange (dt : Nat) (port : Nat) (up : Bool) (speed : Nat) (half : Bool) (pause : Bool)
    (s : State) : Host.Outcome State Fault Refusal :=
  .next (s.act dt (State.onBlocks (fun x => x.linkChange port up speed half pause)))

/-- A downstream SDU or local send enters the transmit buffer or is refused (R467). -/
def execEthSend (dt : Nat) (port : Nat) (s : State) : Host.Outcome State Fault Refusal :=
  .next (s.act dt (State.onBlocks (fun x => x.ethSend port)))

/-- A frame starts on the wire once enough bytes, or the verdict, are held (R470). -/
def execEthFrameStart (dt : Nat) (port : Nat) (s : State) : Host.Outcome State Fault Refusal :=
  .next (s.act dt (State.onBlocks (fun x => x.ethFrameStart port)))

/-- The quanta of a received PAUSE run out and transmission resumes (R472). -/
def execPauseExpiry (dt : Nat) (port : Nat) (s : State) : Host.Outcome State Fault Refusal :=
  .next (s.act dt (State.onBlocks (fun x => x.pauseExpiry port)))

/-- A write to EM_Pn_CFG disables the port, restarts the link or clears statistics as the fields require (R478). -/
def execEmCfgWrite (dt : Nat) (port : Nat) (value : Word) (s : State) : Host.Outcome State Fault Refusal :=
  .next (s.act dt (State.onBlocks (fun x => if port < 2 then State.regWrite (emReg port) value.toNat x else x)))

/-- Command EM_STATUS returns a port's configuration, link and diagnostics (R481). -/
def execEmStatus (dt : Nat) (tag : BitVec 16) (params : List Byte) (s : State) : Host.Outcome State Fault Refusal :=
  .next (s.act dt (State.onMain (State.command 0x0A00 tag.toNat params)))

/-- Command EM_STATS returns a port's 32 counters as a snapshot (R481). -/
def execEmStats (dt : Nat) (tag : BitVec 16) (params : List Byte) (s : State) : Host.Outcome State Fault Refusal :=
  .next (s.act dt (State.onMain (State.command 0x0A01 tag.toNat params)))

/-- Command EM_MDIO runs one Clause 22 or 45 management operation (R459). -/
def execEmMdio (dt : Nat) (tag : BitVec 16) (params : List Byte) (s : State) : Host.Outcome State Fault Refusal :=
  .next (s.act dt (State.onMain (State.command 0x0A02 tag.toNat params)))

end Sys2Proof.Machine
end

