-- ==== Sys2Proof/Machine/FuseRows.lean ====
section
/-! DEFINITION. The meanings of commands. Power rails: the fuse channels (18). -/

namespace Sys2Proof.Machine

/-- Every 10 µs the fuse channels' sense, output and bus are sampled and slow trips, OV and output good are decided
(R585). -/
def execPwSample (dt : Nat) (bus : Nat) (sense : List Nat) (out : List Nat)
    (s : State) : Host.Outcome State Fault Refusal :=
  .next (s.act dt (State.onBlocks (fun x => x.pwSample bus sense out)))

/-- The fast comparator crosses FAST_MV and the gate is discharged within 1 µs (R595). -/
def execFastTrip (dt : Nat) (chan : Nat) (s : State) : Host.Outcome State Fault Refusal :=
  .next (s.act dt (State.onBlocks (fun x => x.fastTrip chan)))

/-- The hold comparator sees the bus below UVH and an inrush freezes, or resumes when it recovers (R594). -/
def execSagFreeze (dt : Nat) (chan : Nat) (low : Bool) (s : State) : Host.Outcome State Fault Refusal :=
  .next (s.act dt (State.onBlocks (fun x => x.sagFreeze chan low)))

/-- A freeze lasting 5 ms aborts the inrush with SAG (R594). -/
def execSagTimeout (dt : Nat) (chan : Nat) (s : State) : Host.Outcome State Fault Refusal :=
  .next (s.act dt (State.onBlocks (fun x => x.sagTimeout chan)))

/-- The bus below UVH for UV_OFF_MS turns ON channels off into WAIT (R601). -/
def execUvOff (dt : Nat) (chan : Nat) (s : State) : Host.Outcome State Fault Refusal :=
  .next (s.act dt (State.onBlocks (fun x => x.uvOff chan)))

/-- A slot's seating pins change after deglitching; unseating discharges the gate (R590). -/
def execSeatChange (dt : Nat) (chan : Nat) (pins : Bool × Bool) (s : State) : Host.Outcome State Fault Refusal :=
  .next (s.act dt (State.onBlocks (fun x => x.seatChange chan pins.1 pins.2)))

/-- The insertion time is met and a waiting channel enters INRUSH (R588). -/
def execInsTimeMet (dt : Nat) (chan : Nat) (s : State) : Host.Outcome State Fault Refusal :=
  .next (s.act dt (State.onBlocks (fun x => x.inrush chan)))

/-- The inrush budget ends without output good, giving INRUSH_FAIL (R593). -/
def execInrushTimeout (dt : Nat) (chan : Nat) (s : State) : Host.Outcome State Fault Refusal :=
  .next (s.act dt (State.onBlocks (fun x => x.inrushTimeout chan)))

/-- BACKOFF passes and the channel returns to WAIT (R597). -/
def execBackoffExpiry (dt : Nat) (chan : Nat) (s : State) : Host.Outcome State Fault Refusal :=
  .next (s.act dt (State.onBlocks (fun x => x.backoffExpiry chan)))

/-- A channel ON for 1 s without a break clears its trip count (R597). -/
def execOnStable (dt : Nat) (chan : Nat) (s : State) : Host.Outcome State Fault Refusal :=
  .next (s.act dt (State.onBlocks (fun x => x.onStable chan)))

/-- An output at DMG_V or above for DMG_MS with the gate off enters DAMAGED and raises PW_FET (R599). -/
def execDamagedTimeout (dt : Nat) (chan : Nat) (s : State) : Host.Outcome State Fault Refusal :=
  .next (s.act dt (State.onBlocks (fun x => x.damagedTimeout chan)))

/-- Clearing a channel's EN discharges its gate at once and enters OFF (R602). -/
def execPwDisable (dt : Nat) (chan : Nat) (s : State) : Host.Outcome State Fault Refusal :=
  .next (s.act dt (State.onBlocks (fun x => if chan < 12 then State.enClear (pwReg chan) x else x)))

/-- Command PW_STATUS returns bus and channel state, measurements and counters (R611). -/
def execPwStatus (dt : Nat) (tag : BitVec 16) (params : List Byte) (s : State) : Host.Outcome State Fault Refusal :=
  .next (s.act dt (State.onMain (State.command 0x0E00 tag.toNat params)))

/-- Command PW_CLEAR releases a LATCHED or DAMAGED channel (R600). -/
def execPwClear (dt : Nat) (tag : BitVec 16) (params : List Byte) (s : State) : Host.Outcome State Fault Refusal :=
  .next (s.act dt (State.onMain (State.command 0x0E01 tag.toNat params)))

end Sys2Proof.Machine
end

