-- ==== Sys2Proof/Machine/HearthRows.lean ====
section
/-! DEFINITION. The meanings of commands. The Hearth and the power states (05). -/

namespace Sys2Proof.Machine

/-- VDD_AON or VBAT reaches 2.5 V and the Hearth starts as at a first connection, with empty keys, held alarms and
ring (R49). -/
def execHearthStart (dt : Nat) (aonMv : Nat) (vbatMv : Nat) (s : State) : Host.Outcome State Fault Refusal :=
  .next (s.act dt (fun x => x.hearthStart aonMv vbatMv))

/-- The supply the Hearth draws falls below 2.2 V and the Hearth returns to its first-connection state (R49). -/
def execHearthReset (dt : Nat) (aonMv : Nat) (vbatMv : Nat) (s : State) : Host.Outcome State Fault Refusal :=
  .next (s.act dt (fun x => x.hearthReset aonMv vbatMv))

/-- The Hearth switches between VDD_AON and VBAT around 2.9 V without losing state (R64). -/
def execSupplySwitch (dt : Nat) (aonMv : Nat) (vbatMv : Nat) (s : State) : Host.Outcome State Fault Refusal :=
  .next (s.act dt (fun x => x.supplySwitch aonMv vbatMv))

/-- Every 64 s in Working, Stoker steps Hearth time to network time and sets TRIM (R160). -/
def execHearthAlign (dt : Nat) (s : State) : Host.Outcome State Fault Refusal :=
  .next (s.act dt (State.onBlocks State.hearthAlign))

/-- The wake timer fires when Hearth time reaches the wake value, clears EN and wakes the chip (R162). -/
def execWakeTimer (dt : Nat) (s : State) : Host.Outcome State Fault Refusal :=
  .next (s.act dt State.wakeTimer)

/-- A tamper input becomes active after DEBOUNCE samples and the Hearth records, zeroises, notifies or starts the
backup alarm sequence (R164). -/
def execTamperActive (dt : Nat) (input : Nat) (code : BitVec 10) (s : State) : Host.Outcome State Fault Refusal :=
  .next (s.act dt (fun x => x.tamperActive input code.toNat))

/-- A tamper input returns inactive after DEBOUNCE samples at the other level (R163). -/
def execTamperInactive (dt : Nat) (input : Nat) (s : State) : Host.Outcome State Fault Refusal :=
  .next (s.act dt (fun x => x.tamperInactive input))

/-- Two consecutive mesh mismatches declare a break of kind SHORT_LOW, SHORT_HIGH or MISMATCH, acted on as a tamper
input (R165). -/
def execMeshBreak (dt : Nat) (pair : Nat) (samples : List Bool) (code : BitVec 10)
    (s : State) : Host.Outcome State Fault Refusal :=
  .next (s.act dt (fun x => x.meshBreak pair samples code.toNat))

/-- After 64 matching samples a broken mesh pair re-arms (R165). -/
def execMeshRearm (dt : Nat) (pair : Nat) (s : State) : Host.Outcome State Fault Refusal :=
  .next (s.act dt (fun x => x.meshRearm pair))

/-- Every 1.024 s in Blaze, Stoker reseeds each mesh LFSR from the DRBG (R166). -/
def execMeshReseed (dt : Nat) (s : State) : Host.Outcome State Fault Refusal :=
  .next (s.act dt (State.onBlocks State.meshReseed))

/-- The Hearth measures VBAT and enters or leaves CELL_LOW and CELL_ABSENT (R167). -/
def execCellMeasure (dt : Nat) (code : BitVec 8) (s : State) : Host.Outcome State Fault Refusal :=
  .next (s.act dt (fun x => x.cellMeasure code.toNat))

/-- Every 100 µs the reserve ADC is sampled and the energy estimate E is recomputed (R168). -/
def execReserveSample (dt : Nat) (code : BitVec 10) (s : State) : Host.Outcome State Fault Refusal :=
  .next (s.act dt (fun x => x.reserveSample code.toNat))

/-- The scheduled return from Bank or Smoulder to Blaze falls due before the next known event (R173). -/
def execScheduledReturn (dt : Nat) (s : State) : Host.Outcome State Fault Refusal :=
  .next (s.act dt (State.onBlocks State.scheduledReturn))

/-- PSU_OK falls; ON_RESERVE is set, ON_RESERVE is queued and the HRT_SHED functions are disabled (R176). -/
def execPsuOkFall (dt : Nat) (s : State) : Host.Outcome State Fault Refusal :=
  .next (s.act dt State.psuFall)

/-- PSU_OK rises; ON_RESERVE clears and shed functions return, or the chip starts from Ember (R178). -/
def execPsuOkRise (dt : Nat) (s : State) : Host.Outcome State Fault Refusal :=
  .next (s.act dt State.psuRise)

/-- The Hearth drives PEN_MAIN low once the reserve ride is over or E falls below a quarter of RIDE_MJ, after the
tree record and start state are saved (R177). -/
def execEmberEntry (dt : Nat) (s : State) : Host.Outcome State Fault Refusal :=
  .next (s.act dt State.emberEntry)

/-- ALARM_MS after PEN_MAIN rose in a minimal Blaze, the Hearth drives PEN_MAIN low and holds any unsent alarm
(R179). -/
def execAlarmMsExpiry (dt : Nat) (s : State) : Host.Outcome State Fault Refusal :=
  .next (s.act dt State.alarmMsExpiry)

/-- The Hearth crystal stops; the internal oscillator takes over, XTAL_FAULT is set and HCLK_FAULT is raised (R190). -/
def execXtalStop (dt : Nat) (s : State) : Host.Outcome State Fault Refusal :=
  .next (s.act dt State.xtalStop)

/-- The Hearth crystal starts or runs again, the Hearth returns to it from the internal oscillator, and a CLOCK
record of kind 2 is written (R69). -/
def execCrystalRunningAgain (dt : Nat) (s : State) : Host.Outcome State Fault Refusal :=
  .next (s.act dt State.xtalAgain)

/-- Command PS_STATUS returns the power state, the deepest state allowed, the next event and the time spent in each
state (R196). -/
def execPsStatus (dt : Nat) (tag : BitVec 16) (params : List Byte) (s : State) : Host.Outcome State Fault Refusal :=
  .next (s.act dt (State.onMain (State.command 0x0100 tag.toNat params)))

/-- Command HELD_READ returns the 16 held-alarm entries (R196). -/
def execHeldRead (dt : Nat) (tag : BitVec 16) (params : List Byte) (s : State) : Host.Outcome State Fault Refusal :=
  .next (s.act dt (State.onMain (State.command 0x0101 tag.toNat params)))

end Sys2Proof.Machine
end

