-- ==== Sys2Proof/Machine/LaneRows.lean ====
section
/-! DEFINITION. The meanings of commands. Serial lanes (08). -/

namespace Sys2Proof.Machine

/-- A lane's amplitude stays below LOS_THR for 2 µs, or TREE_SD stays low for 1 µs, and LOS is declared (R263, R264). -/
def execLosDeclared (dt : Nat) (lane : Nat) (sd : Bool) (s : State) : Host.Outcome State Fault Refusal :=
  .next (s.act dt (State.onBlocks (fun x => (x.losDeclared lane sd).treeFollow)))

/-- The amplitude stays above LOS_THR plus 30 mV for 10 µs, or TREE_SD rises, and LOS clears where no other cause holds
it (R263, R264). -/
def execLosCleared (dt : Nat) (lane : Nat × Bool) (s : State) : Host.Outcome State Fault Refusal :=
  .next (s.act dt (State.onBlocks (fun x => x.losCleared lane.1 lane.2)))

/-- A 100 µs frequency window ends and the lane is declared locked or LOL (R265). -/
def execLockWindowEnd (dt : Nat) (lane : Nat) (offset : Int) (atLimit : Bool) (cv : Nat)
    (s : State) : Host.Outcome State Fault Refusal :=
  .next (s.act dt (State.onBlocks (fun x => (x.lockWindow lane offset atLimit cv).treeFollow)))

/-- Burst enable or serialiser activity outside a granted window latches a rogue transmitter and holds the laser
dark (R270). -/
def execRogue (dt : Nat) (lane : Nat) (cause : Nat) (s : State) : Host.Outcome State Fault Refusal :=
  .next (s.act dt (State.onBlocks (fun x => x.rogue lane cause)))

/-- A lane marker is received; it deskews the lanes and advances a spare swap (R274). -/
def execLaneMarker (dt : Nat) (link : Nat) (lane : Nat) (skew : Nat) (symbols : List Nat)
    (s : State) : Host.Outcome State Fault Refusal :=
  .next (s.act dt (State.onBlocks (fun x => x.laneMarker link lane skew symbols)))

/-- A receiver declares an active Strait lane failed, pauses the link and requests the spare (R273). -/
def execLaneFail (dt : Nat) (lane : Nat) (cv : Nat) (s : State) : Host.Outcome State Fault Refusal :=
  .next (s.act dt (State.onBlocks (fun x => x.laneFail lane cv)))

/-- A failed lane clean for QUAL_S seconds becomes the spare again (R276). -/
def execLaneRequalify (dt : Nat) (lane : Nat) (s : State) : Host.Outcome State Fault Refusal :=
  .next (s.act dt (State.onBlocks (fun x => x.laneRequalify lane)))

/-- Every EYE_PERIOD minutes Stoker measures each lane's horizontal opening and may raise LN_MARGIN or fail the lane
(R279). -/
def execEyePeriodic (dt : Nat) (s : State) : Host.Outcome State Fault Refusal :=
  .next (s.act dt (State.onBlocks State.eyePeriodic))

/-- An eye-margin measurement finishes its dwell counts and its openings or mismatch count are reported, with
LN_MARGIN or a lane failure if required (R278). -/
def execEyeMeasurementDone (dt : Nat) (lane : Nat) (phase volt : List Nat) (point : Nat) (s : State) : Host.Outcome State Fault Refusal :=
  .next (s.act dt (State.onBlocks (fun x => x.eyeDone lane phase volt point)))

/-- A lane PLL loses lock, every lane on it declares LOL and the tree transmitters are held dark (R287). -/
def execPllUnlock (dt : Nat) (lanes : BitVec 9) (s : State) : Host.Outcome State Fault Refusal :=
  .next (s.act dt (State.onBlocks (fun x => (x.pllUnlock lanes.toNat).treeFollow)))

/-- Command LN_REPORT returns the status and errors of every lane and the maps (R291). -/
def execLnReport (dt : Nat) (tag : BitVec 16) (params : List Byte) (s : State) : Host.Outcome State Fault Refusal :=
  .next (s.act dt (State.onMain (State.command 0x0400 tag.toNat params)))

/-- Command LN_EYE measures the eye openings or one point of a lane (R278). -/
def execLnEye (dt : Nat) (tag : BitVec 16) (params : List Byte) (s : State) : Host.Outcome State Fault Refusal :=
  .next (s.act dt (State.onMain (State.command 0x0401 tag.toNat params)))

/-- Command LN_TX_RELEASE clears a latched rogue if no rogue was seen for 1 ms (R271). -/
def execLnTxRelease (dt : Nat) (tag : BitVec 16) (params : List Byte)
    (s : State) : Host.Outcome State Fault Refusal :=
  .next (s.act dt (State.onMain (State.command 0x0402 tag.toNat params)))

/-- Command LN_SPARE_FORCE forces a swap to the spare and replies when it completes (R291). -/
def execLnSpareForce (dt : Nat) (tag : BitVec 16) (params : List Byte)
    (s : State) : Host.Outcome State Fault Refusal :=
  .next (s.act dt (State.onMain (State.command 0x0403 tag.toNat params)))

end Sys2Proof.Machine
end

