-- ==== Sys2Proof/Machine/MainsRows.lean ====
section
/-! DEFINITION. The meanings of commands. Mains angle and the schedule table (07). -/

namespace Sys2Proof.Machine

/-- A valid zero crossing gives a phase error to the loop, updates presence and may end ACQUIRE (R237). -/
def execZeroCrossing (dt : Nat) (phase : Nat) (rising : Bool) (peak : Nat) (samples : List Int)
    (s : State) : Host.Outcome State Fault Refusal :=
  .next (s.act dt (State.onBlocks (fun x => x.zeroCrossing entryActs phase rising peak samples)))

/-- A crossing window closes with no crossing, and a phase missing two in a row is lost (R238). -/
def execCrossingMissed (dt : Nat) (phase : Nat) (s : State) : Host.Outcome State Fault Refusal :=
  .next (s.act dt (State.onBlocks (fun x => x.crossingMissed phase)))

/-- A phase input reads −512 or +511 for 4 or more consecutive ADC samples and MA_PHp_STAT.CLIP is set (R231). -/
def execPhaseClipped (dt : Nat) (phase : Nat) (s : State) : Host.Outcome State Fault Refusal :=
  .next (s.act dt (State.onBlocks (fun x => x.phaseClipped phase)))

/-- After PHANTOM_S in PHANTOM, MA_FREQ takes the nominal word and the block enters TIMED (R243). -/
def execPhantomTimeout (dt : Nat) (s : State) : Host.Outcome State Fault Refusal :=
  .next (s.act dt (State.onBlocks State.phantomTimeout))

/-- With no phase present 1 s after step 6, the block enters TIMED at angle 0 (R257). -/
def execAbsentTimeout (dt : Nat) (s : State) : Host.Outcome State Fault Refusal :=
  .next (s.act dt (State.onBlocks State.absentTimeout))

/-- A schedule entry reaches its issue position and takes its action, or is marked missed (R247). -/
def execEntryFire (dt : Nat) (entry : Nat) (s : State) : Host.Outcome State Fault Refusal :=
  .next (s.act dt (State.onBlocks (fun x => x.entryFire entryActs entry)))

/-- RLYn falls after WIDTH_MS (R252). -/
def execRelayPulseEnd (dt : Nat) (relay : Nat) (s : State) : Host.Outcome State Fault Refusal :=
  .next (s.act dt (fun x => x.relayEnd relay))

/-- A write to a schedule entry applies from its next contact position, and clearing EN disarms it (R255). -/
def execEntryWrite (dt : Nat) (entry : Nat) (cfg : Nat) (value : Word)
    (s : State) : Host.Outcome State Fault Refusal :=
  .next (s.act dt (State.onBlocks (fun x => if entry < 512 ∧ cfg < 2 then State.regWrite (entReg entry + 4 * cfg) value.toNat x else x)))

/-- Command MA_STATUS returns state, cycle, angle, offsets and frequencies (R258). -/
def execMaStatus (dt : Nat) (tag : BitVec 16) (params : List Byte) (s : State) : Host.Outcome State Fault Refusal :=
  .next (s.act dt (State.onMain (State.command 0x0300 tag.toNat params)))

/-- Command MA_ARM arms an entry and replies when it fires or is marked (R249). -/
def execMaArm (dt : Nat) (tag : BitVec 16) (params : List Byte) (s : State) : Host.Outcome State Fault Refusal :=
  .next (s.act dt (State.onMain (State.command 0x0301 tag.toNat params)))

/-- Command MA_PULSE pulses a relay now or at an angle (R256). -/
def execMaPulse (dt : Nat) (tag : BitVec 16) (params : List Byte) (s : State) : Host.Outcome State Fault Refusal :=
  .next (s.act dt (State.onMain (State.command 0x0302 tag.toNat params)))

/-- Command MA_WAVE returns the last complete cycle's samples of a phase (R258). -/
def execMaWave (dt : Nat) (tag : BitVec 16) (params : List Byte) (s : State) : Host.Outcome State Fault Refusal :=
  .next (s.act dt (State.onMain (State.command 0x0303 tag.toNat params)))

end Sys2Proof.Machine
end

