-- ==== Sys2Proof/Machine/MeterRows.lean ====
section
/-! DEFINITION. The meanings of commands. Meter ports (12). -/

namespace Sys2Proof.Machine

/-- A port raises MPn_DE for a queued transaction once TURN has passed (R400). -/
def execXactStart (dt : Nat) (port : Nat) (s : State) : Host.Outcome State Fault Refusal :=
  .next (s.act dt (State.onBlocks (fun x => x.xactStart port)))

/-- The request's last stop bit ends, MPn_DE falls and FIRST_MS starts (R400). -/
def execRequestSent (dt : Nat) (port : Nat) (s : State) : Host.Outcome State Fault Refusal :=
  .next (s.act dt (State.onBlocks (fun x => x.requestSent port)))

/-- A character is received and delimiting decides whether the reply frame is complete (R403). -/
def execCharReceived (dt : Nat) (port : Nat) (samples : List Nat) (second : Bool)
    (s : State) : Host.Outcome State Fault Refusal :=
  .next (s.act dt (State.onBlocks (fun x => x.charReceived port samples second)))

/-- In mode 1, IDLE_GAP bit times of idle complete the frame (R407). -/
def execIdleGap (dt : Nat) (port : Nat) (s : State) : Host.Outcome State Fault Refusal :=
  .next (s.act dt (State.onBlocks (fun x => x.idleGap port)))

/-- No start bit within FIRST_MS ends the attempt MP_NO_REPLY, with a retry if allowed (R410). -/
def execFirstMsExpiry (dt : Nat) (port : Nat) (s : State) : Host.Outcome State Fault Refusal :=
  .next (s.act dt (State.onBlocks (fun x => x.noReply port)))

/-- No character for INTER bit times ends a begun reply MP_TIMEOUT (R410). -/
def execInterTimeout (dt : Nat) (port : Nat) (s : State) : Host.Outcome State Fault Refusal :=
  .next (s.act dt (State.onBlocks (fun x => x.interTimeout port)))

/-- MPn_RXD low for two character times outside a transmission queues MP_BUS (R412). -/
def execBusHeldLow (dt : Nat) (port : Nat) (s : State) : Host.Outcome State Fault Refusal :=
  .next (s.act dt (State.onBlocks (fun x => x.busLow port)))

/-- An MPn_RXD line that was held low returns high, and MP_BUS of kind released is queued (R427). -/
def execBusReleased (dt : Nat) (port : Nat) (s : State) : Host.Outcome State Fault Refusal :=
  .next (s.act dt (State.onBlocks (fun x => x.busReleased port)))

/-- A meter SDU whose verdict is known places one transaction, or is discarded for DISTRUST or bad content (R414). -/
def execMeterSdu (dt : Nat) (s : State) : Host.Outcome State Fault Refusal :=
  .next (s.act dt (State.onBlocks State.meterSduIn))

/-- Held results are offered again, oldest first, when their queue accepts (R420). -/
def execHoldOffer (dt : Nat) (s : State) : Host.Outcome State Fault Refusal :=
  .next (s.act dt (State.onBlocks State.holdOffer))

/-- Clearing a port's EN abandons the transaction on the wire and ends queued ones DISABLED (R423). -/
def execMpPortDisable (dt : Nat) (port : Nat) (s : State) : Host.Outcome State Fault Refusal :=
  .next (s.act dt (State.onBlocks (fun x => if port < 48 then State.enClear (mpReg port) x else x)))

/-- Command MP_XACT places one transaction and replies with its result (R413). -/
def execMpXact (dt : Nat) (tag : BitVec 16) (params : List Byte) (s : State) : Host.Outcome State Fault Refusal :=
  .next (s.act dt (State.onMain (State.command 0x0800 tag.toNat params)))

/-- Command MP_STATUS returns a port's configuration, state and counters (R427). -/
def execMpStatus (dt : Nat) (tag : BitVec 16) (params : List Byte) (s : State) : Host.Outcome State Fault Refusal :=
  .next (s.act dt (State.onMain (State.command 0x0801 tag.toNat params)))

/-- Command MP_PROG_LOAD loads all or part of a poll program (R419). -/
def execMpProgLoad (dt : Nat) (tag : BitVec 16) (params : List Byte) (s : State) : Host.Outcome State Fault Refusal :=
  .next (s.act dt (State.onMain (State.command 0x0802 tag.toNat params)))

/-- Command MP_PROG_START starts a program and replies when it ends (R416). -/
def execMpProgStart (dt : Nat) (tag : BitVec 16) (params : List Byte)
    (s : State) : Host.Outcome State Fault Refusal :=
  .next (s.act dt (State.onMain (State.command 0x0803 tag.toNat params)))

/-- Command MP_PROG_STOP stops a program with ABORTED (R424). -/
def execMpProgStop (dt : Nat) (tag : BitVec 16) (params : List Byte) (s : State) : Host.Outcome State Fault Refusal :=
  .next (s.act dt (State.onMain (State.command 0x0804 tag.toNat params)))

/-- Command MP_PROG_STATUS returns a program's state and store use (R427). -/
def execMpProgStatus (dt : Nat) (tag : BitVec 16) (params : List Byte)
    (s : State) : Host.Outcome State Fault Refusal :=
  .next (s.act dt (State.onMain (State.command 0x0805 tag.toNat params)))

end Sys2Proof.Machine
end

