-- ==== Sys2Proof/Machine/PictureRows.lean ====
section
/-! DEFINITION. The meanings of commands. The picture coder (16). -/

namespace Sys2Proof.Machine

/-- S2 finishes a row's coarse search and S3 may take it (R524). -/
def execS2RowDone (dt : Nat) (s : State) : Host.Outcome State Fault Refusal :=
  .next (s.act dt (State.onBlocks State.s2RowDone))

/-- S3 finishes coding a row, releases its ring slot and exports its motion field row (R528). -/
def execS3RowDone (dt : Nat) (bytes : List Byte) (preds : List (Int × Int)) (poison : Option Nat)
    (s : State) : Host.Outcome State Fault Refusal :=
  .next (s.act dt (State.onBlocks (fun x => x.s3RowDone bytes preds poison)))

/-- S5 finishes filtering a row and, at the last row, the picture completes and its record is written (R539). -/
def execS5RowDone (dt : Nat) (y : List (List Nat)) (cb : List (List Nat)) (cr : List (List Nat))
    (s : State) : Host.Outcome State Fault Refusal :=
  .next (s.act dt (State.onBlocks (fun x => x.s5RowDone y cb cr)))

/-- Writing a channel's EN enables it with its buffers or disables it, truncating the picture (R548). -/
def execPcChannelWrite (dt : Nat) (chan : Nat) (value : Word) (s : State) : Host.Outcome State Fault Refusal :=
  .next (s.act dt (State.onBlocks (fun x => if chan < 4 then State.regWrite (pcReg chan) value.toNat x else x)))

/-- The decoder completes a picture, sends it, or stops on an unsupported or damaged stream (R545). -/
def execDecodePictureDone (dt : Nat) (r : DecResult) (s : State) : Host.Outcome State Fault Refusal :=
  .next (s.act dt (State.onBlocks (fun x => x.decodePictureDone r)))

/-- Command PC_STATUS returns coder, store and channel status (R553). -/
def execPcStatus (dt : Nat) (tag : BitVec 16) (params : List Byte) (s : State) : Host.Outcome State Fault Refusal :=
  .next (s.act dt (State.onMain (State.command 0x0C00 tag.toNat params)))

/-- Command PC_BUDGET computes a channel's memory without change (R553). -/
def execPcBudget (dt : Nat) (tag : BitVec 16) (params : List Byte) (s : State) : Host.Outcome State Fault Refusal :=
  .next (s.act dt (State.onMain (State.command 0x0C01 tag.toNat params)))

/-- Command PC_FORCE_IDR makes the next picture IDR (R522). -/
def execPcForceIdr (dt : Nat) (tag : BitVec 16) (params : List Byte) (s : State) : Host.Outcome State Fault Refusal :=
  .next (s.act dt (State.onMain (State.command 0x0C02 tag.toNat params)))

/-- Command PC_CLIP_LIST returns clip headers (R553). -/
def execPcClipList (dt : Nat) (tag : BitVec 16) (params : List Byte) (s : State) : Host.Outcome State Fault Refusal :=
  .next (s.act dt (State.onMain (State.command 0x0C03 tag.toNat params)))

/-- Command PC_CLIP_INDEX returns picture records of a clip (R553). -/
def execPcClipIndex (dt : Nat) (tag : BitVec 16) (params : List Byte)
    (s : State) : Host.Outcome State Fault Refusal :=
  .next (s.act dt (State.onMain (State.command 0x0C04 tag.toNat params)))

/-- Command PC_CLIP_SEND sends a clip as transfer units upstream or on Ethernet (R543). -/
def execPcClipSend (dt : Nat) (tag : BitVec 16) (params : List Byte) (s : State) : Host.Outcome State Fault Refusal :=
  .next (s.act dt (State.onMain (State.command 0x0C05 tag.toNat params)))

/-- Command PC_CLIP_LOCK locks a clip, optionally as evidence (R542). -/
def execPcClipLock (dt : Nat) (tag : BitVec 16) (params : List Byte) (s : State) : Host.Outcome State Fault Refusal :=
  .next (s.act dt (State.onMain (State.command 0x0C06 tag.toNat params)))

/-- Command PC_CLIP_UNLOCK unlocks a clip (R542). -/
def execPcClipUnlock (dt : Nat) (tag : BitVec 16) (params : List Byte)
    (s : State) : Host.Outcome State Fault Refusal :=
  .next (s.act dt (State.onMain (State.command 0x0C07 tag.toNat params)))

/-- Command PC_DEC_LOAD loads stream bytes for the decoder (R553). -/
def execPcDecLoad (dt : Nat) (tag : BitVec 16) (params : List Byte) (s : State) : Host.Outcome State Fault Refusal :=
  .next (s.act dt (State.onMain (State.command 0x0C08 tag.toNat params)))

/-- Command PC_DECODE scans and decodes a clip or loaded stream (R544). -/
def execPcDecode (dt : Nat) (tag : BitVec 16) (params : List Byte) (s : State) : Host.Outcome State Fault Refusal :=
  .next (s.act dt (State.onMain (State.command 0x0C09 tag.toNat params)))

/-- Command PC_DEC_STOP stops the running decode with ABORTED (R550). -/
def execPcDecStop (dt : Nat) (tag : BitVec 16) (params : List Byte) (s : State) : Host.Outcome State Fault Refusal :=
  .next (s.act dt (State.onMain (State.command 0x0C0A tag.toNat params)))

end Sys2Proof.Machine
end

