-- ==== Sys2Proof/Machine/StackRows.lean ====
section
/-! DEFINITION. The meanings of commands. Stacks of chips (20). -/

namespace Sys2Proof.Machine

/-- An ANNOUNCE updates candidate ranking, version and configuration comparison (R647). -/
def execAnnounce (dt : Nat) (s : State) : Host.Outcome State Fault Refusal :=
  .next (s.act dt (State.onBlocks State.announceIn))

/-- A STACK_STATE from the lead sets the followed lead, maps and power-state order (R648). -/
def execStackState (dt : Nat) (s : State) : Host.Outcome State Fault Refusal :=
  .next (s.act dt (State.onBlocks State.stackState))

/-- A MEMBER_STATE updates the lead's present map and power-state inputs (R649). -/
def execMemberState (dt : Nat) (s : State) : Host.Outcome State Fault Refusal :=
  .next (s.act dt (State.onBlocks State.memberState))

/-- A ROUTE updates the hop counts to each member (R644). -/
def execRoute (dt : Nat) (s : State) : Host.Outcome State Fault Refusal :=
  .next (s.act dt (State.onBlocks State.routeIn))

/-- A forwarded COMMAND is executed in sequence order on the member (R646). -/
def execCommand (dt : Nat) (s : State) : Host.Outcome State Fault Refusal :=
  .next (s.act dt (State.onBlocks State.commandMsg))

/-- A member's reply or notice reaches the lead for the bound transport (R88). -/
def execReplyNotice (dt : Nat) (s : State) : Host.Outcome State Fault Refusal :=
  .next (s.act dt (State.onBlocks State.replyNotice))

/-- A member's meter result reaches the lead's upstream queue (R420). -/
def execMeterResult (dt : Nat) (s : State) : Host.Outcome State Fault Refusal :=
  .next (s.act dt (State.onBlocks State.meterResult))

/-- A downstream SDU with its DISTRUST flag reaches its member's destination (R317). -/
def execSduDown (dt : Nat) (s : State) : Host.Outcome State Fault Refusal :=
  .next (s.act dt (State.onBlocks State.sduDown))

/-- Upstream traffic from a member enters the lead's queue or tributary reservation (R375). -/
def execSduUp (dt : Nat) (s : State) : Host.Outcome State Fault Refusal :=
  .next (s.act dt (State.onBlocks State.sduUp))

/-- A refusal passed back by the lead is acted on by its source (R375). -/
def execRefusal (dt : Nat) (s : State) : Host.Outcome State Fault Refusal :=
  .next (s.act dt (State.onBlocks State.refusalIn))

/-- The lead reads or writes a member's register over Strait (R439). -/
def execRegAccess (dt : Nat) (s : State) : Host.Outcome State Fault Refusal :=
  .next (s.act dt (State.onBlocks State.regAccess))

/-- Identity, allocation or downstream-loss data reach a member (R343). -/
def execTermData (dt : Nat) (s : State) : Host.Outcome State Fault Refusal :=
  .next (s.act dt (State.onBlocks State.termData))

/-- A pushed tree record is stored by a standby lead (R349). -/
def execTreeRecord (dt : Nat) (s : State) : Host.Outcome State Fault Refusal :=
  .next (s.act dt (State.onBlocks State.treeRecordIn))

/-- Configuration image parts are written to flash and applied, or the member is quarantined (R657). -/
def execConfig (dt : Nat) (s : State) : Host.Outcome State Fault Refusal :=
  .next (s.act dt (State.onBlocks State.configIn))

/-- Firmware image parts are written, checked and activated on a VERSION-quarantined member (R658). -/
def execImage (dt : Nat) (s : State) : Host.Outcome State Fault Refusal :=
  .next (s.act dt (State.onBlocks State.imageIn))

/-- Every PERIOD_MS the parent starts a TIME_SYNC, TIME_REQ, TIME_RESP exchange (R652). -/
def execTimeExchange (dt : Nat) (s : State) : Host.Outcome State Fault Refusal :=
  .next (s.act dt (State.onBlocks State.timeExchange))

/-- A completed time exchange gives the offset to the servo and updates B, TIME_LOOSE and suspension (R653). -/
def execTimeResp (dt : Nat) (s : State) : Host.Outcome State Fault Refusal :=
  .next (s.act dt (State.onBlocks State.timeResp))

/-- A member's PHASE message is compared with the lead's angles for PHASE_SKEW (R654). -/
def execPhase (dt : Nat) (s : State) : Host.Outcome State Fault Refusal :=
  .next (s.act dt (State.onBlocks State.phaseIn))

/-- Every 16 ms each member sends ROUTE on each link that is UP (R644). -/
def execRouteTimer (dt : Nat) (s : State) : Host.Outcome State Fault Refusal :=
  .next (s.act dt (State.onBlocks State.routeTimer))

/-- Every 1.024 s each member sends ANNOUNCE (R647). -/
def execAnnounceTimer (dt : Nat) (s : State) : Host.Outcome State Fault Refusal :=
  .next (s.act dt (State.onBlocks State.announceTimer))

/-- Every 32 ms the lead sends STACK_STATE and members send MEMBER_STATE (R649). -/
def execStackStateTimer (dt : Nat) (s : State) : Host.Outcome State Fault Refusal :=
  .next (s.act dt (State.onBlocks State.periodicState))

/-- ELECT_MS after step 7 begins, a member joins a lead or the top candidate becomes lead (R648). -/
def execElectTimeout (dt : Nat) (s : State) : Host.Outcome State Fault Refusal :=
  .next (s.act dt (State.onBlocks State.electTimeout))

/-- No STACK_STATE for LOST_MS declares the lead lost and queues SK_LEAD_LOST (R660). -/
def execLeadLost (dt : Nat) (s : State) : Host.Outcome State Fault Refusal :=
  .next (s.act dt (State.onBlocks State.leadLost))

/-- A lead with fewer than half of EXPECT present for LOST_MS abdicates and darkens its transmitters (R661). -/
def execAbdicate (dt : Nat) (s : State) : Host.Outcome State Fault Refusal :=
  .next (s.act dt (State.onBlocks State.abdicate))

/-- After TAKEOVER_MS the top reachable candidate takes over, raises TERM and sends LEAD_CHANGE (R662). -/
def execTakeover (dt : Nat) (s : State) : Host.Outcome State Fault Refusal :=
  .next (s.act dt (State.onBlocks State.takeover))

/-- 3 s pass with no other member announcing a duplicated member number, and the DUPLICATE quarantine ends (R650). -/
def execDuplicateQuietTimeout (dt : Nat) (s : State) : Host.Outcome State Fault Refusal :=
  .next (s.act dt (State.onBlocks State.duplicateQuiet))

/-- A member's MEMBER_STATE has not been received for LOST_MS, it drops from the lead's present map, and SK_MEMBER
is queued (R649). -/
def execMemberStateTimeout (dt : Nat) (s : State) : Host.Outcome State Fault Refusal :=
  .next (s.act dt (State.onBlocks State.memberStateTimeout))

/-- Command SK_STATUS returns stack status, configuration, time and members (R667). -/
def execSkStatus (dt : Nat) (tag : BitVec 16) (params : List Byte) (s : State) : Host.Outcome State Fault Refusal :=
  .next (s.act dt (State.onMain (State.command 0x1000 tag.toNat params)))

/-- Command SK_CFG_WRITE writes into the lead's configuration staging area (R667). -/
def execSkCfgWrite (dt : Nat) (tag : BitVec 16) (params : List Byte) (s : State) : Host.Outcome State Fault Refusal :=
  .next (s.act dt (State.onMain (State.command 0x1001 tag.toNat params)))

/-- Command SK_CFG_COMMIT checks the staged image and pushes it to every member (R657). -/
def execSkCfgCommit (dt : Nat) (tag : BitVec 16) (params : List Byte)
    (s : State) : Host.Outcome State Fault Refusal :=
  .next (s.act dt (State.onMain (State.command 0x1002 tag.toNat params)))

/-- Command SK_QUARANTINE quarantines or releases a member (R667). -/
def execSkQuarantine (dt : Nat) (tag : BitVec 16) (params : List Byte)
    (s : State) : Host.Outcome State Fault Refusal :=
  .next (s.act dt (State.onMain (State.command 0x1003 tag.toNat params)))

end Sys2Proof.Machine
end

