-- ==== Sys2Proof/Machine/StartRows.lean ====
section
/-! DEFINITION. The meanings of commands. From power to Working, the command port and the image opcodes (02, 03, 04). -/

namespace Sys2Proof.Machine

/-- The main domain leaves reset once every rail is in its window, RESET_N has been high for 1 ms and the Hearth has
requested the start, and the boot ROM, memory test, firmware load and Hearth restore (steps 2 to 5) run (R45). -/
def execMainResetRelease (dt : Nat) (msel : BitVec 2) (member : BitVec 3) (pins : Bool × Bool)
    (ref : Option Int) (faults : List BankFault) (rextOk : Bool) (rails : List Nat) (s : State) : Host.Outcome State Fault Refusal :=
  .next (s.act dt (fun x => x.release msel.toNat member.toNat pins.1 pins.2 ref faults rextOk rails))

/-- RESET_N held low for at least 10 µs resets the main domain only, never the Hearth (R46). -/
def execResetN (dt : Nat) (lowUs : Nat) (s : State) : Host.Outcome State Fault Refusal :=
  .next (s.act dt (fun x => x.resetN lowUs))

/-- A main rail leaves its monitor window while PSU_OK is high; the main domain is reset, an ash record is written
and lockout is applied after three resets in 60 s (R66). -/
def execRailOutOfWindow (dt : Nat) (rails : List Nat × Nat) (s : State) : Host.Outcome State Fault Refusal :=
  .next (s.act dt (fun x => x.railOut rails.1 rails.2))

/-- After the 10 ms wait following a rail reset, the Hearth starts the main domain again from cold (R66). -/
def execRailRestart (dt : Nat) (s : State) : Host.Outcome State Fault Refusal :=
  .next (s.act dt State.railRestart)

/-- The main rails are not all in their windows 50 ms after PEN_MAIN rose; PEN_MAIN is driven low, an ash record is
written and a retry is scheduled (R67). -/
def execRailsNotUp (dt : Nat) (rails : List Nat) (s : State) : Host.Outcome State Fault Refusal :=
  .next (s.act dt (fun x => x.railsNotUp rails))

/-- After 1 s the Hearth retries the start by driving PEN_MAIN high again (R67). -/
def execRailRetry (dt : Nat) (s : State) : Host.Outcome State Fault Refusal :=
  .next (s.act dt State.railRetry)

/-- If START has not been queued 5 s after step 5 ended, step 9 begins (R126). -/
def execStep9Timeout (dt : Nat) (s : State) : Host.Outcome State Fault Refusal :=
  .next (s.act dt (State.onBlocks State.step9Timeout))

/-- A Stoker core watchdog expires; the Hearth writes a WATCHDOG record and the main domain is reset with cause 0x06
(R152). -/
def execWatchdog (dt : Nat) (core : Nat) (code : BitVec 32) (s : State) : Host.Outcome State Fault Refusal :=
  .next (s.act dt (fun x => x.watchdog core code.toNat))

/-- A WRITE transaction carrying one command packet ends when SPI_CS_N rises, and the packet is checked, accepted or
refused (R77). -/
def execSpiWrite (dt : Nat) (bytes : List Byte) (s : State) : Host.Outcome State Fault Refusal :=
  .next (s.act dt (State.onMain (fun x => x.spiWrite bytes)))

/-- A READ transaction returns the next outbound packet and removes it only if the transaction clocked out its last
byte (R78). -/
def execSpiRead (dt : Nat) (clocked : Nat) (s : State) : Host.Outcome State Fault Refusal :=
  .next (s.act dt (State.onMain (fun x => x.spiRead clocked)))

/-- A STATUS transaction returns OUT_LEN and IN_FREE (R76). -/
def execSpiStatus (dt : Nat) (s : State) : Host.Outcome State Fault Refusal :=
  .next (s.act dt (State.onMain State.spiStatus))

/-- An SDU of port 0x001 delivered downstream is read as one command packet and checked (R74). -/
def execMgmtSdu (dt : Nat) (s : State) : Host.Outcome State Fault Refusal :=
  .next (s.act dt (State.onMain State.mgmtSduIn))

/-- The service UART receiver finds a packet by SYNC and HCRC, takes its extent from LENGTH and checks it (R80). -/
def execUartPacket (dt : Nat) (bytes : List Byte) (s : State) : Host.Outcome State Fault Refusal :=
  .next (s.act dt (State.onMain (fun x => x.uartBytes bytes)))

/-- A gap of more than 1 ms inside a begun packet abandons it, counts TRUNC and resumes the hunt (R81). -/
def execUartGapTimeout (dt : Nat) (s : State) : Host.Outcome State Fault Refusal :=
  .next (s.act dt (State.onMain State.uartGap))

/-- An accepted command starts on its member once ordering allows, after the checks of R755, and runs its opcode
(R91). -/
def execCommandStart (dt : Nat) (tag : BitVec 16) (s : State) : Host.Outcome State Fault Refusal :=
  .next (s.act dt (State.onMain (fun x => x.commandStart tag.toNat)))

/-- An operation that has queued no reply for CMD_OP_LIMIT ends with a final TIMEOUT reply (R93). -/
def execOpTimeout (dt : Nat) (tag : BitVec 16) (s : State) : Host.Outcome State Fault Refusal :=
  .next (s.act dt (State.onMain (fun x => x.opTimeout tag.toNat)))

/-- An outbound packet leaves the transport; its reply-pool place is freed and alarm repeat timing starts (R94). -/
def execPacketLeft (dt : Nat) (s : State) : Host.Outcome State Fault Refusal :=
  .next (s.act dt (State.onMain State.leave))

/-- 1.024 s after the previous copy left, an unacknowledged alarm is repeated, and it is given up after 64 repeats
with an ALARM_UNACKED record (R101). -/
def execAlarmRepeat (dt : Nat) (num : BitVec 16) (s : State) : Host.Outcome State Fault Refusal :=
  .next (s.act dt (State.onMain (fun x => x.alarmRepeat num.toNat)))

/-- Command NOP replies with no parameters (R122). -/
def execNop (dt : Nat) (tag : BitVec 16) (params : List Byte) (s : State) : Host.Outcome State Fault Refusal :=
  .next (s.act dt (State.onMain (State.command 0x0001 tag.toNat params)))

/-- Command GET_INFO returns the chip ID, straps, firmware version, the terminal serial and the chip serial (R122). -/
def execGetInfo (dt : Nat) (tag : BitVec 16) (params : List Byte) (s : State) : Host.Outcome State Fault Refusal :=
  .next (s.act dt (State.onMain (State.command 0x0002 tag.toNat params)))

/-- Command REG_READ returns COUNT words in ascending address order and clears RC fields (R105). -/
def execRegRead (dt : Nat) (tag : BitVec 16) (params : List Byte) (s : State) : Host.Outcome State Fault Refusal :=
  .next (s.act dt (State.onMain (State.command 0x0010 tag.toNat params)))

/-- Command REG_WRITE writes COUNT words in ascending order and stops at the first reserved value with BAD_VALUE; it
stands for every register with no row of its own (R106). -/
def execRegWrite (dt : Nat) (tag : BitVec 16) (params : List Byte) (s : State) : Host.Outcome State Fault Refusal :=
  .next (s.act dt (State.onMain (State.command 0x0011 tag.toNat params)))

/-- Command REG_MODIFY sets the masked bits of one register in one indivisible step and returns the previous value
(R107). -/
def execRegModify (dt : Nat) (tag : BitVec 16) (params : List Byte) (s : State) : Host.Outcome State Fault Refusal :=
  .next (s.act dt (State.onMain (State.command 0x0012 tag.toNat params)))

/-- Command OP_QUERY reports a tag's state, member, opcode and age without disturbing it (R122). -/
def execOpQuery (dt : Nat) (tag : BitVec 16) (params : List Byte) (s : State) : Host.Outcome State Fault Refusal :=
  .next (s.act dt (State.onMain (State.command 0x0020 tag.toNat params)))

/-- Command CANCEL aborts a QUEUED operation or reports that a RUNNING or REPLYING one runs on (R110). -/
def execCancel (dt : Nat) (tag : BitVec 16) (params : List Byte) (s : State) : Host.Outcome State Fault Refusal :=
  .next (s.act dt (State.onMain (State.command 0x0021 tag.toNat params)))

/-- Command NOTICE_ACK acknowledges an alarm notice, stops its repeats, frees its place and clears any held entry
(R113). -/
def execNoticeAck (dt : Nat) (tag : BitVec 16) (params : List Byte) (s : State) : Host.Outcome State Fault Refusal :=
  .next (s.act dt (State.onMain (State.command 0x0030 tag.toNat params)))

/-- Command RESET_MAIN with key 0x5A3C resets the main domain after its reply (R122). -/
def execResetMain (dt : Nat) (tag : BitVec 16) (params : List Byte) (s : State) : Host.Outcome State Fault Refusal :=
  .next (s.act dt (State.onMain (State.command 0x0050 tag.toNat params)))

/-- A write to CMD_OP_LIMIT applies at once to every interval under way and ends any operation already over the new
limit (R93). -/
def execCmdOpLimitWrite (dt : Nat) (value : Word) (s : State) : Host.Outcome State Fault Refusal :=
  .next (s.act dt (State.onBlocks (State.regWrite 0x00000C value.toNat)))

/-- Command IMG_STATUS returns both slots' headers and digests, the boot record, MIN_SEC, the running slot and the
trial count (R154). -/
def execImgStatus (dt : Nat) (tag : BitVec 16) (params : List Byte) (s : State) : Host.Outcome State Fault Refusal :=
  .next (s.act dt (State.onMain (State.command 0x0040 tag.toNat params)))

/-- Command IMG_ERASE erases an image slot and replies when all 16 blocks are erased (R154). -/
def execImgErase (dt : Nat) (tag : BitVec 16) (params : List Byte) (s : State) : Host.Outcome State Fault Refusal :=
  .next (s.act dt (State.onMain (State.command 0x0041 tag.toNat params)))

/-- Command IMG_WRITE writes data into an erased slot and verifies it by read-back (R154). -/
def execImgWrite (dt : Nat) (tag : BitVec 16) (params : List Byte) (s : State) : Host.Outcome State Fault Refusal :=
  .next (s.act dt (State.onMain (State.command 0x0042 tag.toNat params)))

/-- Command IMG_VERIFY runs the full acceptance check with signature and records the digest in the Hearth on success
(R154). -/
def execImgVerify (dt : Nat) (tag : BitVec 16) (params : List Byte) (s : State) : Host.Outcome State Fault Refusal :=
  .next (s.act dt (State.onMain (State.command 0x0043 tag.toNat params)))

/-- Command IMG_ACTIVATE verifies a slot, writes a TRIAL boot record and, with MODE 1, resets now (R149). -/
def execImgActivate (dt : Nat) (tag : BitVec 16) (params : List Byte)
    (s : State) : Host.Outcome State Fault Refusal :=
  .next (s.act dt (State.onMain (State.command 0x0044 tag.toNat params)))

/-- Command IMG_COMMIT writes a COMMITTED boot record and then raises MIN_SEC (R137). -/
def execImgCommit (dt : Nat) (tag : BitVec 16) (params : List Byte) (s : State) : Host.Outcome State Fault Refusal :=
  .next (s.act dt (State.onMain (State.command 0x0045 tag.toNat params)))

/-- Command BOOT_REPORT returns the end times of steps 1 to 9 (R154). -/
def execBootReport (dt : Nat) (tag : BitVec 16) (params : List Byte) (s : State) : Host.Outcome State Fault Refusal :=
  .next (s.act dt (State.onMain (State.command 0x0046 tag.toNat params)))

/-- A flash erase or page program that was started (image slot erase or write, boot record, configuration copy,
repair log sector, pre-erase) completes and its reply or the next action follows (R154). -/
def execFlashOperationDone (dt : Nat) (ok : Bool) (s : State) : Host.Outcome State Fault Refusal :=
  .next (s.act dt (State.onMain (fun x => x.flashDone ok)))

end Sys2Proof.Machine
end

