-- ==== Sys2Proof/Machine/StraitRows.lean ====
section
/-! DEFINITION. The meanings of commands. The Strait link (19). -/

namespace Sys2Proof.Machine

/-- A flit is checked against NEXT_RX and accepted or failed, arming a NAK (R616). -/
def execFlitRx (dt : Nat) (link : Nat) (flit : List Byte) (kcode : Bool)
    (s : State) : Host.Outcome State Fault Refusal :=
  .next (s.act dt (State.onBlocks (fun x => if link < 2 then x.flitRx link flit kcode else x)))

/-- A flit slot falls due and the sender chooses a LINK, replay, TIME, CONTROL, METER or BULK flit or IDLE (R619). -/
def execFlitSlot (dt : Nat) (link : Nat) (s : State) : Host.Outcome State Fault Refusal :=
  .next (s.act dt (State.onBlocks (fun x => x.flitSlot link)))

/-- A received STATUS acknowledges flits and returns credits (R627). -/
def execStatus (dt : Nat) (link : Nat) (body : List Byte) (s : State) : Host.Outcome State Fault Refusal :=
  .next (s.act dt (State.onBlocks (fun x => if link < 2 then x.rxStatus link body false else x)))

/-- A received NAK acknowledges flits and starts a replay (R628). -/
def execNak (dt : Nat) (link : Nat) (body : List Byte) (s : State) : Host.Outcome State Fault Refusal :=
  .next (s.act dt (State.onBlocks (fun x => if link < 2 then x.rxStatus link body true else x)))

/-- A received INIT carries session, sequences and credits and may take the link to UP (R622). -/
def execInit (dt : Nat) (link : Nat) (body : List Byte) (s : State) : Host.Outcome State Fault Refusal :=
  .next (s.act dt (State.onBlocks (fun x => if link < 2 then x.rxInit link body else x)))

/-- A received RETRAIN takes the link into TRAINING (R633). -/
def execRetrain (dt : Nat) (link : Nat) (cause : BitVec 8) (s : State) : Host.Outcome State Fault Refusal :=
  .next (s.act dt (State.onBlocks (fun x => if link < 2 then x.rxRetrain link cause.toNat else x)))

/-- A received IDLE_REQ is answered IDLE_ACK or STATUS (R636). -/
def execIdleReq (dt : Nat) (link : Nat) (s : State) : Host.Outcome State Fault Refusal :=
  .next (s.act dt (State.onBlocks (fun x => if link < 2 then x.rxIdleReq link else x)))

/-- A received IDLE_ACK puts the lanes in electrical idle and the link in SLEEP (R636). -/
def execIdleAck (dt : Nat) (link : Nat) (s : State) : Host.Outcome State Fault Refusal :=
  .next (s.act dt (State.onBlocks (fun x => if link < 2 then x.rxIdleAck link else x)))

/-- The 2 µs or 8 µs STATUS timer, or the 4 µs NAK resend, falls due (R626). -/
def execStatusTimer (dt : Nat) (link : Nat) (s : State) : Host.Outcome State Fault Refusal :=
  .next (s.act dt (State.onBlocks (fun x => if link < 2 then x.statusTimer link else x)))

/-- 16 µs without advance of OLDEST starts a replay, retrain or DOWN (R628). -/
def execAckTimeout (dt : Nat) (link : Nat) (s : State) : Host.Outcome State Fault Refusal :=
  .next (s.act dt (State.onBlocks (fun x => if link < 2 then x.ackTimeout link else x)))

/-- A message is offered to a class transmit queue and accepted or refused (R620). -/
def execStMessageOffer (dt : Nat) (link : Nat) (cls : Nat) (dest : BitVec 3) (bytes : List Byte)
    (s : State) : Host.Outcome State Fault Refusal :=
  .next (s.act dt (State.onBlocks (fun x => x.messageOffered link cls dest.toNat bytes)))

/-- Two positions are locked and deskewed and the link enters INIT (R631). -/
def execTrainingDone (dt : Nat) (link : Nat) (s : State) : Host.Outcome State Fault Refusal :=
  .next (s.act dt (State.onBlocks (fun x => if link < 2 then x.trainingDone link else x)))

/-- Training or INIT fails to finish in time and the link goes DOWN with cause 6 (R631). -/
def execTrainingTimeout (dt : Nat) (link : Nat) (s : State) : Host.Outcome State Fault Refusal :=
  .next (s.act dt (State.onBlocks (fun x => if link < 2 then x.trainingTimeout link else x)))

/-- DOWN_RETRY passes, or LOS clears, and a DOWN link trains again (R631). -/
def execDownRetry (dt : Nat) (link : Nat) (s : State) : Host.Outcome State Fault Refusal :=
  .next (s.act dt (State.onBlocks (fun x => if link < 2 then x.downRetry link else x)))

/-- A side leaves electrical idle, the partner wakes and both train (R637). -/
def execSleepWake (dt : Nat) (link : Nat) (partner : Bool) (s : State) : Host.Outcome State Fault Refusal :=
  .next (s.act dt (State.onBlocks (fun x => if link < 2 then x.sleepWake link partner else x)))

/-- Writing a link's EN disables it or trains it again (R638). -/
def execStLinkWrite (dt : Nat) (link : Nat) (value : Word) (s : State) : Host.Outcome State Fault Refusal :=
  .next (s.act dt (State.onBlocks (fun x => if link < 2 then State.regWrite (0x0F0100 + 256 * link) value.toNat x else x)))

/-- Command ST_STATUS returns a link's state, sequences, credits and counters (R641). -/
def execStStatus (dt : Nat) (tag : BitVec 16) (params : List Byte) (s : State) : Host.Outcome State Fault Refusal :=
  .next (s.act dt (State.onMain (State.command 0x0F00 tag.toNat params)))

/-- Command ST_RETRAIN retrains a link and replies when it is UP or DOWN (R641). -/
def execStRetrain (dt : Nat) (tag : BitVec 16) (params : List Byte) (s : State) : Host.Outcome State Fault Refusal :=
  .next (s.act dt (State.onMain (State.command 0x0F01 tag.toNat params)))

end Sys2Proof.Machine
end

