-- ==== Sys2Proof/Machine/TimeRows.lean ====
section
/-! DEFINITION. The meanings of commands. Network time (06). -/

namespace Sys2Proof.Machine

/-- The nanoseconds field passes 1e9, the seconds field increases and PPS_OUT rises unless gated (R219). -/
def execSecondBoundary (dt : Nat) (s : State) : Host.Outcome State Fault Refusal :=
  .next (s.act dt (State.onBlocks State.secondBoundary))

/-- PPS_OUT falls after WIDTH_MS (R219). -/
def execPpsEnd (dt : Nat) (s : State) : Host.Outcome State Fault Refusal :=
  .next (s.act dt (State.onBlocks State.ppsFall))

/-- 1 ms after PPS_OUT rises, the time-of-day line is sent on UART_TXD, or as a notice while the UART is master
(R220). -/
def execTimeOfDay (dt : Nat) (s : State) : Host.Outcome State Fault Refusal :=
  .next (s.act dt (State.onBlocks State.timeOfDay))

/-- The slew's tick count runs out and the increment returns to NT_INCR (R202). -/
def execSlewEnd (dt : Nat) (s : State) : Host.Outcome State Fault Refusal :=
  .next (s.act dt (State.onBlocks State.slewEnd))

/-- A time message is accepted or refused on its checks (R204). -/
def execTimeMessage (dt : Nat) (s : State) : Host.Outcome State Fault Refusal :=
  .next (s.act dt (State.onBlocks (fun x => x.takeMessage 1)))

/-- When the reference frame's latch is known, the error is computed and the clock is slewed or stepped and NT_INCR
updated (R208). -/
def execTimeCorrection (dt : Nat) (s : State) : Host.Outcome State Fault Refusal :=
  .next (s.act dt (State.onBlocks State.timeCorrection))

/-- No accepted message for MISS_S takes LOCKED to HOLDOVER (R209). -/
def execServoMissTimeout (dt : Nat) (s : State) : Host.Outcome State Fault Refusal :=
  .next (s.act dt (State.onBlocks State.servoMiss))

/-- HOLDOVER lasting HOLD_S takes the servo to UNLOCKED (R209). -/
def execHoldoverTimeout (dt : Nat) (s : State) : Host.Outcome State Fault Refusal :=
  .next (s.act dt (State.onBlocks State.holdoverTimeout))

/-- A compare unit reaches its target, takes its action, rearms if periodic and may queue CMP_FIRED (R218). -/
def execCmpFire (dt : Nat) (unit : Nat) (s : State) : Host.Outcome State Fault Refusal :=
  .next (s.act dt (State.onBlocks (fun x => x.cmpFire unit compareAct)))

/-- Command NT_STATUS returns the servo state, flags, time, last error and increment (R229). -/
def execNtStatus (dt : Nat) (tag : BitVec 16) (params : List Byte) (s : State) : Host.Outcome State Fault Refusal :=
  .next (s.act dt (State.onMain (State.command 0x0200 tag.toNat params)))

/-- Command NT_SET steps network time to a given value (R229). -/
def execNtSet (dt : Nat) (tag : BitVec 16) (params : List Byte) (s : State) : Host.Outcome State Fault Refusal :=
  .next (s.act dt (State.onMain (State.command 0x0201 tag.toNat params)))

/-- Command NT_ADJUST slews network time by an offset (R229). -/
def execNtAdjust (dt : Nat) (tag : BitVec 16) (params : List Byte) (s : State) : Host.Outcome State Fault Refusal :=
  .next (s.act dt (State.onMain (State.command 0x0202 tag.toNat params)))

/-- Command CMP_ARM arms a compare unit in ring or epoch mode and tests its target at once (R216). -/
def execCmpArm (dt : Nat) (tag : BitVec 16) (params : List Byte) (s : State) : Host.Outcome State Fault Refusal :=
  .next (s.act dt (State.onMain (State.command 0x0203 tag.toNat params)))

/-- Command CMP_DISARM disarms a compare unit (R229). -/
def execCmpDisarm (dt : Nat) (tag : BitVec 16) (params : List Byte) (s : State) : Host.Outcome State Fault Refusal :=
  .next (s.act dt (State.onMain (State.command 0x0204 tag.toNat params)))

end Sys2Proof.Machine
end

