-- ==== Sys2Proof/Machine/TreeRows.lean ====
section
/-! DEFINITION. The meanings of commands. The tree: downstream frames, membership and upstream bursts (09, 10, 11). -/

namespace Sys2Proof.Machine

/-- A downstream frame arrives; alignment, the identity block, SRQ filters and protection are evaluated and the
frame is delivered if LOCKED (R300). -/
def execFrameReceived (dt : Nat) (lane : Nat) (bytes : List Byte) (s : State) : Host.Outcome State Fault Refusal :=
  .next (s.act dt (State.onBlocks (fun x => x.frameIn lane bytes)))

/-- 30 µs after the timestamp point an incomplete grant map counts GRANT_MISS (R306). -/
def execGrantMapDeadline (dt : Nat) (s : State) : Host.Outcome State Fault Refusal :=
  .next (s.act dt (State.onBlocks State.grantMapDeadline))

/-- A write to a TD_PORTn entry takes effect at the next unit header and discards an SDU in reassembly if it changes
the routing (R324). -/
def execTdPortWrite (dt : Nat) (port : Nat) (value : Word) (s : State) : Host.Outcome State Fault Refusal :=
  .next (s.act dt (State.onBlocks (fun x => if port < 4096 then State.regWrite (tdPortReg port) value.toNat x else x)))

/-- Command TD_REPORT returns the downstream status and counters (R331). -/
def execTdReport (dt : Nat) (tag : BitVec 16) (params : List Byte) (s : State) : Host.Outcome State Fault Refusal :=
  .next (s.act dt (State.onMain (State.command 0x0500 tag.toNat params)))

/-- TREE_PROFILE in LISTEN leads to WARM, RANGING, SERIAL or DISABLED (R346). -/
def execTreeProfile (dt : Nat) (s : State) : Host.Outcome State Fault Refusal :=
  .next (s.act dt (State.onBlocks (fun x => x.takeMessage 2)))

/-- IDENT_ASSIGN with the terminal's serial gives it identity and default allocation and enters RANGING (R343). -/
def execIdentAssign (dt : Nat) (s : State) : Host.Outcome State Fault Refusal :=
  .next (s.act dt (State.onBlocks (fun x => x.takeMessage 3)))

/-- RANGING_RESULT sets EQD for the active lane and enters OPERATION (R344). -/
def execRangingResult (dt : Nat) (s : State) : Host.Outcome State Fault Refusal :=
  .next (s.act dt (State.onBlocks (fun x => x.takeMessage 4)))

/-- WARM_ACK confirms, re-ranges or refuses the stored delay (R347). -/
def execWarmAck (dt : Nat) (s : State) : Host.Outcome State Fault Refusal :=
  .next (s.act dt (State.onBlocks (fun x => x.takeMessage 5)))

/-- ALLOC_ASSIGN sets, replaces or withdraws an allocation slot (R350). -/
def execAllocAssign (dt : Nat) (s : State) : Host.Outcome State Fault Refusal :=
  .next (s.act dt (State.onBlocks (fun x => x.takeMessage 6)))

/-- PORT_ASSIGN writes a TD_PORTn entry (R351). -/
def execPortAssign (dt : Nat) (s : State) : Host.Outcome State Fault Refusal :=
  .next (s.act dt (State.onBlocks (fun x => x.takeMessage 7)))

/-- DEREGISTER with the terminal's serial invalidates the record and returns to LISTEN (R333). -/
def execDeregister (dt : Nat) (s : State) : Host.Outcome State Fault Refusal :=
  .next (s.act dt (State.onBlocks (fun x => x.takeMessage 8)))

/-- DISABLE disables the terminal or lifts the disable (R361). -/
def execDisable (dt : Nat) (s : State) : Host.Outcome State Fault Refusal :=
  .next (s.act dt (State.onBlocks (fun x => x.takeMessage 9)))

/-- DOZE_GRANT sets, replaces or cancels a doze agreement (R353). -/
def execDozeGrant (dt : Nat) (s : State) : Host.Outcome State Fault Refusal :=
  .next (s.act dt (State.onBlocks (fun x => x.takeMessage 10)))

/-- Stoker sends DOZE_REQ when only the missing doze agreement blocks Smoulder (R352). -/
def execDozeReq (dt : Nat) (s : State) : Host.Outcome State Fault Refusal :=
  .next (s.act dt (State.onBlocks State.dozeReq))

/-- TO1 expires in RANGING; the identity is discarded and the terminal enters SERIAL (R343). -/
def execTo1Expiry (dt : Nat) (s : State) : Host.Outcome State Fault Refusal :=
  .next (s.act dt (State.onBlocks State.to1Expiry))

/-- TW expires in WARM; the terminal enters SERIAL and keeps the record (R347). -/
def execTwExpiry (dt : Nat) (s : State) : Host.Outcome State Fault Refusal :=
  .next (s.act dt (State.onBlocks State.twExpiry))

/-- TO2 expires in HOLD and the terminal enters INITIAL (R333). -/
def execTo2Expiry (dt : Nat) (s : State) : Host.Outcome State Fault Refusal :=
  .next (s.act dt (State.onBlocks State.to2Expiry))

/-- At the frame boundary after the decision, the active lane changes, EQD is reloaded and the terminal enters
LISTEN (R357). -/
def execProtectionSwitch (dt : Nat) (s : State) : Host.Outcome State Fault Refusal :=
  .next (s.act dt (State.onBlocks (fun x => x.protectionSwitch.pllFollow)))

/-- Every 64 s in OPERATION the lead writes the tree record and pushes it to the standby leads (R349). -/
def execTreeRecordSave (dt : Nat) (s : State) : Host.Outcome State Fault Refusal :=
  .next (s.act dt (State.onBlocks State.treeRecordSave))

/-- Command TM_STATUS returns membership state, delays, serial, allocations and doze (R363). -/
def execTmStatus (dt : Nat) (tag : BitVec 16) (params : List Byte) (s : State) : Host.Outcome State Fault Refusal :=
  .next (s.act dt (State.onMain (State.command 0x0600 tag.toNat params)))

/-- Command TM_SET_SERIAL sets the terminal serial and invalidates the record (R363). -/
def execTmSetSerial (dt : Nat) (tag : BitVec 16) (params : List Byte)
    (s : State) : Host.Outcome State Fault Refusal :=
  .next (s.act dt (State.onMain (State.command 0x0601 tag.toNat params)))

/-- Command TM_SET_IDENT writes an identity and default allocation with no valid EQD (R363). -/
def execTmSetIdent (dt : Nat) (tag : BitVec 16) (params : List Byte) (s : State) : Host.Outcome State Fault Refusal :=
  .next (s.act dt (State.onMain (State.command 0x0602 tag.toNat params)))

/-- Command TM_FORGET invalidates the tree record (R363). -/
def execTmForget (dt : Nat) (tag : BitVec 16) (params : List Byte) (s : State) : Host.Outcome State Fault Refusal :=
  .next (s.act dt (State.onMain (State.command 0x0603 tag.toNat params)))

/-- Command TM_CLEAR_DISABLE, on the service UART only, clears the disabled flag (R363). -/
def execTmClearDisable (dt : Nat) (tag : BitVec 16) (params : List Byte)
    (s : State) : Host.Outcome State Fault Refusal :=
  .next (s.act dt (State.onMain (State.command 0x0604 tag.toNat params)))

/-- At a grant's fill instant, energy admission, reservations, scheduler and queue report decide the burst (R371). -/
def execFillInstant (dt : Nat) (s : State) : Host.Outcome State Fault Refusal :=
  .next (s.act dt (State.onBlocks State.fillInstant))

/-- The burst's first preamble byte leaves at its START and the burst is sent in full (R369). -/
def execBurstStart (dt : Nat) (s : State) : Host.Outcome State Fault Refusal :=
  .next (s.act dt (State.onBlocks State.burstStart))

/-- At each upstream frame boundary damper credits are refilled and tributary containers are closed (R381). -/
def execUpstreamFrameBoundary (dt : Nat) (rx : List (List Bool)) (s : State) : Host.Outcome State Fault Refusal :=
  .next (s.act dt (State.onBlocks (fun x => x.frameBoundary rx)))

/-- A source offers an SDU to an upstream queue, which accepts or refuses it (R373). -/
def execSduEnqueue (dt : Nat) (queue : Nat) (source : Nat) (bytes : List Byte)
    (s : State) : Host.Outcome State Fault Refusal :=
  .next (s.act dt (State.onBlocks (fun x => x.sourceOffers queue source bytes)))

/-- ACK_FRAMES after a chimney burst, unacknowledged notices raise the back-off or are given up (R389). -/
def execChimneyAckWaitEnd (dt : Nat) (s : State) : Host.Outcome State Fault Refusal :=
  .next (s.act dt (State.onBlocks State.chimneyWaitEnd))

/-- Command UP_STATUS returns upstream status, counters, E and queue fills (R396). -/
def execUpStatus (dt : Nat) (tag : BitVec 16) (params : List Byte) (s : State) : Host.Outcome State Fault Refusal :=
  .next (s.act dt (State.onMain (State.command 0x0700 tag.toNat params)))

/-- Command UP_ADMIT_TEST computes the admission of a hypothetical burst (R396). -/
def execUpAdmitTest (dt : Nat) (tag : BitVec 16) (params : List Byte)
    (s : State) : Host.Outcome State Fault Refusal :=
  .next (s.act dt (State.onMain (State.command 0x0701 tag.toNat params)))

end Sys2Proof.Machine
end

