-- ==== Sys2Proof/Machine/TributaryRows.lean ====
section
/-! DEFINITION. The meanings of commands. Tributaries (13). -/

namespace Sys2Proof.Machine

/-- 20 µs after the next timestamp point a frame's downstream container is judged valid or missing and appended to
the egress store (R440). -/
def execContainerJudge (dt : Nat) (s : State) : Host.Outcome State Fault Refusal :=
  .next (s.act dt (State.onBlocks State.containerJudge))

/-- A 16-frame window of TBt_RXC edges ends and the ingress enters or leaves FAILED (R447). -/
def execRxcWindow (dt : Nat) (trib : Nat) (edges : Nat) (s : State) : Host.Outcome State Fault Refusal :=
  .next (s.act dt (State.onBlocks (fun x => x.rxcWindow trib edges)))

/-- Clearing a tributary's EN sends all-ones at once in both directions (R451). -/
def execTbDisable (dt : Nat) (trib : Nat) (s : State) : Host.Outcome State Fault Refusal :=
  .next (s.act dt (State.onBlocks (fun x => if trib < 4 then State.enClear (tbCfg trib) x else x)))

/-- Command TB_STATUS returns configuration, state and counters of all tributaries (R455). -/
def execTbStatus (dt : Nat) (tag : BitVec 16) (params : List Byte) (s : State) : Host.Outcome State Fault Refusal :=
  .next (s.act dt (State.onMain (State.command 0x0900 tag.toNat params)))

end Sys2Proof.Machine
end

