-- ==== Sys2Proof/Machine/WatchRows.lean ====
section
/-! DEFINITION. The meanings of commands. Watch (17). -/

namespace Sys2Proof.Machine

/-- A CSI-2 frame-start packet stamps the capture, or is unsolicited (R561). -/
def execFrameStart (dt : Nat) (chan : Nat) (vc : Nat) (s : State) : Host.Outcome State Fault Refusal :=
  .next (s.act dt (State.onBlocks (fun x => x.frameStart chan vc)))

/-- A picture line arrives, is converted or repaired and enters the capture ring (R557). -/
def execLineReceived (dt : Nat) (chan : Nat) (vc : Nat) (dtype : Nat) (bad : Bool) (y : List Nat) (cb : List Nat) (cr : List Nat)
    (s : State) : Host.Outcome State Fault Refusal :=
  .next (s.act dt (State.onBlocks (fun x => x.lineReceived chan vc dtype bad y cb cr)))

/-- The frame-end packet ends the capture and darkens the lamp (R564). -/
def execFrameEnd (dt : Nat) (chan : Nat) (vc : Nat) (s : State) : Host.Outcome State Fault Refusal :=
  .next (s.act dt (State.onBlocks (fun x => x.frameEnd chan vc)))

/-- No frame start within FS_TMO_MS ends the capture NO_FRAME (R560). -/
def execFrameTimeout (dt : Nat) (chan : Nat) (s : State) : Host.Outcome State Fault Refusal :=
  .next (s.act dt (State.onBlocks (fun x => x.frameTimeout chan)))

/-- The lamp-on position is reached and the infrared lamp is lit (R563). -/
def execLampOn (dt : Nat) (chan : Nat) (s : State) : Host.Outcome State Fault Refusal :=
  .next (s.act dt (State.onBlocks (fun x => x.lampOn chan)))

/-- LAMP_MAX_MS after lighting, the lamp is darkened and LAMP_CUT counted (R564). -/
def execLampMax (dt : Nat) (chan : Nat) (s : State) : Host.Outcome State Fault Refusal :=
  .next (s.act dt (State.onBlocks (fun x => x.lampMax chan)))

/-- No certain rotation for STOP_S queues WA_DISC stopped (R573). -/
def execDiscStopTimeout (dt : Nat) (disc : Nat) (s : State) : Host.Outcome State Fault Refusal :=
  .next (s.act dt (State.onBlocks (fun x => x.discStop disc)))

/-- Command WA_STATUS returns a channel's camera, lamp, state and counters (R581). -/
def execWaStatus (dt : Nat) (tag : BitVec 16) (params : List Byte) (s : State) : Host.Outcome State Fault Refusal :=
  .next (s.act dt (State.onMain (State.command 0x0D00 tag.toNat params)))

/-- Command WA_CAPTURE triggers a capture and replies at frame start (R581). -/
def execWaCapture (dt : Nat) (tag : BitVec 16) (params : List Byte) (s : State) : Host.Outcome State Fault Refusal :=
  .next (s.act dt (State.onMain (State.command 0x0D01 tag.toNat params)))

/-- Command WA_FIELD returns the last complete motion field (R581). -/
def execWaField (dt : Nat) (tag : BitVec 16) (params : List Byte) (s : State) : Host.Outcome State Fault Refusal :=
  .next (s.act dt (State.onMain (State.command 0x0D02 tag.toNat params)))

/-- Command WA_DISC returns a reader's totals and speed (R581). -/
def execWaDisc (dt : Nat) (tag : BitVec 16) (params : List Byte) (s : State) : Host.Outcome State Fault Refusal :=
  .next (s.act dt (State.onMain (State.command 0x0D03 tag.toNat params)))

/-- Command WA_I2C performs a camera register transfer on a disabled channel (R581). -/
def execWaI2c (dt : Nat) (tag : BitVec 16) (params : List Byte) (s : State) : Host.Outcome State Fault Refusal :=
  .next (s.act dt (State.onMain (State.command 0x0D04 tag.toNat params)))

end Sys2Proof.Machine
end

