-- ==== Sys2Proof/Machine/Dispatch.lean ====
section
/-! DEFINITION. The dispatch of every command of the opcode table to its meaning: one arm per
constructor of Instr, each a single call of the command's own meaning. -/

namespace Sys2Proof.Machine

/-- The effect of a command on everything but the queue. -/
def exec (i : Instr) (s : State) : Host.Outcome State Fault Refusal :=
  match i with
  | .mainResetRelease dt msel member pins ref faults rextOk rails => Sys2Proof.Machine.execMainResetRelease dt msel member pins ref faults rextOk rails s
  | .resetN dt lowUs => Sys2Proof.Machine.execResetN dt lowUs s
  | .railOutOfWindow dt rails => Sys2Proof.Machine.execRailOutOfWindow dt rails s
  | .railRestart dt => Sys2Proof.Machine.execRailRestart dt s
  | .railsNotUp dt rails => Sys2Proof.Machine.execRailsNotUp dt rails s
  | .railRetry dt => Sys2Proof.Machine.execRailRetry dt s
  | .step9Timeout dt => Sys2Proof.Machine.execStep9Timeout dt s
  | .watchdog dt core code => Sys2Proof.Machine.execWatchdog dt core code s
  | .spiWrite dt bytes => Sys2Proof.Machine.execSpiWrite dt bytes s
  | .spiRead dt clocked => Sys2Proof.Machine.execSpiRead dt clocked s
  | .spiStatus dt => Sys2Proof.Machine.execSpiStatus dt s
  | .mgmtSdu dt => Sys2Proof.Machine.execMgmtSdu dt s
  | .uartPacket dt bytes => Sys2Proof.Machine.execUartPacket dt bytes s
  | .uartGapTimeout dt => Sys2Proof.Machine.execUartGapTimeout dt s
  | .commandStart dt tag => Sys2Proof.Machine.execCommandStart dt tag s
  | .opTimeout dt tag => Sys2Proof.Machine.execOpTimeout dt tag s
  | .packetLeft dt => Sys2Proof.Machine.execPacketLeft dt s
  | .alarmRepeat dt num => Sys2Proof.Machine.execAlarmRepeat dt num s
  | .nop dt tag params => Sys2Proof.Machine.execNop dt tag params s
  | .getInfo dt tag params => Sys2Proof.Machine.execGetInfo dt tag params s
  | .regRead dt tag params => Sys2Proof.Machine.execRegRead dt tag params s
  | .regWrite dt tag params => Sys2Proof.Machine.execRegWrite dt tag params s
  | .regModify dt tag params => Sys2Proof.Machine.execRegModify dt tag params s
  | .opQuery dt tag params => Sys2Proof.Machine.execOpQuery dt tag params s
  | .cancel dt tag params => Sys2Proof.Machine.execCancel dt tag params s
  | .noticeAck dt tag params => Sys2Proof.Machine.execNoticeAck dt tag params s
  | .resetMain dt tag params => Sys2Proof.Machine.execResetMain dt tag params s
  | .cmdOpLimitWrite dt value => Sys2Proof.Machine.execCmdOpLimitWrite dt value s
  | .imgStatus dt tag params => Sys2Proof.Machine.execImgStatus dt tag params s
  | .imgErase dt tag params => Sys2Proof.Machine.execImgErase dt tag params s
  | .imgWrite dt tag params => Sys2Proof.Machine.execImgWrite dt tag params s
  | .imgVerify dt tag params => Sys2Proof.Machine.execImgVerify dt tag params s
  | .imgActivate dt tag params => Sys2Proof.Machine.execImgActivate dt tag params s
  | .imgCommit dt tag params => Sys2Proof.Machine.execImgCommit dt tag params s
  | .bootReport dt tag params => Sys2Proof.Machine.execBootReport dt tag params s
  | .hearthStart dt aonMv vbatMv => Sys2Proof.Machine.execHearthStart dt aonMv vbatMv s
  | .hearthReset dt aonMv vbatMv => Sys2Proof.Machine.execHearthReset dt aonMv vbatMv s
  | .supplySwitch dt aonMv vbatMv => Sys2Proof.Machine.execSupplySwitch dt aonMv vbatMv s
  | .hearthAlign dt => Sys2Proof.Machine.execHearthAlign dt s
  | .wakeTimer dt => Sys2Proof.Machine.execWakeTimer dt s
  | .tamperActive dt input code => Sys2Proof.Machine.execTamperActive dt input code s
  | .tamperInactive dt input => Sys2Proof.Machine.execTamperInactive dt input s
  | .meshBreak dt pair samples code => Sys2Proof.Machine.execMeshBreak dt pair samples code s
  | .meshRearm dt pair => Sys2Proof.Machine.execMeshRearm dt pair s
  | .meshReseed dt => Sys2Proof.Machine.execMeshReseed dt s
  | .cellMeasure dt code => Sys2Proof.Machine.execCellMeasure dt code s
  | .reserveSample dt code => Sys2Proof.Machine.execReserveSample dt code s
  | .scheduledReturn dt => Sys2Proof.Machine.execScheduledReturn dt s
  | .psuOkFall dt => Sys2Proof.Machine.execPsuOkFall dt s
  | .psuOkRise dt => Sys2Proof.Machine.execPsuOkRise dt s
  | .emberEntry dt => Sys2Proof.Machine.execEmberEntry dt s
  | .alarmMsExpiry dt => Sys2Proof.Machine.execAlarmMsExpiry dt s
  | .xtalStop dt => Sys2Proof.Machine.execXtalStop dt s
  | .psStatus dt tag params => Sys2Proof.Machine.execPsStatus dt tag params s
  | .heldRead dt tag params => Sys2Proof.Machine.execHeldRead dt tag params s
  | .secondBoundary dt => Sys2Proof.Machine.execSecondBoundary dt s
  | .ppsEnd dt => Sys2Proof.Machine.execPpsEnd dt s
  | .timeOfDay dt => Sys2Proof.Machine.execTimeOfDay dt s
  | .slewEnd dt => Sys2Proof.Machine.execSlewEnd dt s
  | .timeMessage dt => Sys2Proof.Machine.execTimeMessage dt s
  | .timeCorrection dt => Sys2Proof.Machine.execTimeCorrection dt s
  | .servoMissTimeout dt => Sys2Proof.Machine.execServoMissTimeout dt s
  | .holdoverTimeout dt => Sys2Proof.Machine.execHoldoverTimeout dt s
  | .cmpFire dt unit => Sys2Proof.Machine.execCmpFire dt unit s
  | .ntStatus dt tag params => Sys2Proof.Machine.execNtStatus dt tag params s
  | .ntSet dt tag params => Sys2Proof.Machine.execNtSet dt tag params s
  | .ntAdjust dt tag params => Sys2Proof.Machine.execNtAdjust dt tag params s
  | .cmpArm dt tag params => Sys2Proof.Machine.execCmpArm dt tag params s
  | .cmpDisarm dt tag params => Sys2Proof.Machine.execCmpDisarm dt tag params s
  | .zeroCrossing dt phase rising peak samples => Sys2Proof.Machine.execZeroCrossing dt phase rising peak samples s
  | .crossingMissed dt phase => Sys2Proof.Machine.execCrossingMissed dt phase s
  | .phantomTimeout dt => Sys2Proof.Machine.execPhantomTimeout dt s
  | .absentTimeout dt => Sys2Proof.Machine.execAbsentTimeout dt s
  | .entryFire dt entry => Sys2Proof.Machine.execEntryFire dt entry s
  | .relayPulseEnd dt relay => Sys2Proof.Machine.execRelayPulseEnd dt relay s
  | .entryWrite dt entry cfg value => Sys2Proof.Machine.execEntryWrite dt entry cfg value s
  | .maStatus dt tag params => Sys2Proof.Machine.execMaStatus dt tag params s
  | .maArm dt tag params => Sys2Proof.Machine.execMaArm dt tag params s
  | .maPulse dt tag params => Sys2Proof.Machine.execMaPulse dt tag params s
  | .maWave dt tag params => Sys2Proof.Machine.execMaWave dt tag params s
  | .losDeclared dt lane sd => Sys2Proof.Machine.execLosDeclared dt lane sd s
  | .losCleared dt lane => Sys2Proof.Machine.execLosCleared dt lane s
  | .lockWindowEnd dt lane offset atLimit cv => Sys2Proof.Machine.execLockWindowEnd dt lane offset atLimit cv s
  | .rogue dt lane cause => Sys2Proof.Machine.execRogue dt lane cause s
  | .laneMarker dt link lane skew symbols => Sys2Proof.Machine.execLaneMarker dt link lane skew symbols s
  | .laneFail dt lane cv => Sys2Proof.Machine.execLaneFail dt lane cv s
  | .laneRequalify dt lane => Sys2Proof.Machine.execLaneRequalify dt lane s
  | .eyePeriodic dt => Sys2Proof.Machine.execEyePeriodic dt s
  | .pllUnlock dt lanes => Sys2Proof.Machine.execPllUnlock dt lanes s
  | .lnReport dt tag params => Sys2Proof.Machine.execLnReport dt tag params s
  | .lnEye dt tag params => Sys2Proof.Machine.execLnEye dt tag params s
  | .lnTxRelease dt tag params => Sys2Proof.Machine.execLnTxRelease dt tag params s
  | .lnSpareForce dt tag params => Sys2Proof.Machine.execLnSpareForce dt tag params s
  | .frameReceived dt lane bytes => Sys2Proof.Machine.execFrameReceived dt lane bytes s
  | .grantMapDeadline dt => Sys2Proof.Machine.execGrantMapDeadline dt s
  | .tdPortWrite dt port value => Sys2Proof.Machine.execTdPortWrite dt port value s
  | .tdReport dt tag params => Sys2Proof.Machine.execTdReport dt tag params s
  | .treeProfile dt => Sys2Proof.Machine.execTreeProfile dt s
  | .identAssign dt => Sys2Proof.Machine.execIdentAssign dt s
  | .rangingResult dt => Sys2Proof.Machine.execRangingResult dt s
  | .warmAck dt => Sys2Proof.Machine.execWarmAck dt s
  | .allocAssign dt => Sys2Proof.Machine.execAllocAssign dt s
  | .portAssign dt => Sys2Proof.Machine.execPortAssign dt s
  | .deregister dt => Sys2Proof.Machine.execDeregister dt s
  | .disable dt => Sys2Proof.Machine.execDisable dt s
  | .dozeGrant dt => Sys2Proof.Machine.execDozeGrant dt s
  | .dozeReq dt => Sys2Proof.Machine.execDozeReq dt s
  | .to1Expiry dt => Sys2Proof.Machine.execTo1Expiry dt s
  | .twExpiry dt => Sys2Proof.Machine.execTwExpiry dt s
  | .to2Expiry dt => Sys2Proof.Machine.execTo2Expiry dt s
  | .protectionSwitch dt => Sys2Proof.Machine.execProtectionSwitch dt s
  | .treeRecordSave dt => Sys2Proof.Machine.execTreeRecordSave dt s
  | .tmStatus dt tag params => Sys2Proof.Machine.execTmStatus dt tag params s
  | .tmSetSerial dt tag params => Sys2Proof.Machine.execTmSetSerial dt tag params s
  | .tmSetIdent dt tag params => Sys2Proof.Machine.execTmSetIdent dt tag params s
  | .tmForget dt tag params => Sys2Proof.Machine.execTmForget dt tag params s
  | .tmClearDisable dt tag params => Sys2Proof.Machine.execTmClearDisable dt tag params s
  | .fillInstant dt => Sys2Proof.Machine.execFillInstant dt s
  | .burstStart dt => Sys2Proof.Machine.execBurstStart dt s
  | .upstreamFrameBoundary dt rx => Sys2Proof.Machine.execUpstreamFrameBoundary dt rx s
  | .sduEnqueue dt queue source bytes => Sys2Proof.Machine.execSduEnqueue dt queue source bytes s
  | .chimneyAckWaitEnd dt => Sys2Proof.Machine.execChimneyAckWaitEnd dt s
  | .upStatus dt tag params => Sys2Proof.Machine.execUpStatus dt tag params s
  | .upAdmitTest dt tag params => Sys2Proof.Machine.execUpAdmitTest dt tag params s
  | .xactStart dt port => Sys2Proof.Machine.execXactStart dt port s
  | .requestSent dt port => Sys2Proof.Machine.execRequestSent dt port s
  | .charReceived dt port samples second => Sys2Proof.Machine.execCharReceived dt port samples second s
  | .idleGap dt port => Sys2Proof.Machine.execIdleGap dt port s
  | .firstMsExpiry dt port => Sys2Proof.Machine.execFirstMsExpiry dt port s
  | .interTimeout dt port => Sys2Proof.Machine.execInterTimeout dt port s
  | .busHeldLow dt port => Sys2Proof.Machine.execBusHeldLow dt port s
  | .meterSdu dt => Sys2Proof.Machine.execMeterSdu dt s
  | .holdOffer dt => Sys2Proof.Machine.execHoldOffer dt s
  | .mpPortDisable dt port => Sys2Proof.Machine.execMpPortDisable dt port s
  | .mpXact dt tag params => Sys2Proof.Machine.execMpXact dt tag params s
  | .mpStatus dt tag params => Sys2Proof.Machine.execMpStatus dt tag params s
  | .mpProgLoad dt tag params => Sys2Proof.Machine.execMpProgLoad dt tag params s
  | .mpProgStart dt tag params => Sys2Proof.Machine.execMpProgStart dt tag params s
  | .mpProgStop dt tag params => Sys2Proof.Machine.execMpProgStop dt tag params s
  | .mpProgStatus dt tag params => Sys2Proof.Machine.execMpProgStatus dt tag params s
  | .containerJudge dt => Sys2Proof.Machine.execContainerJudge dt s
  | .rxcWindow dt trib edges => Sys2Proof.Machine.execRxcWindow dt trib edges s
  | .tbDisable dt trib => Sys2Proof.Machine.execTbDisable dt trib s
  | .tbStatus dt tag params => Sys2Proof.Machine.execTbStatus dt tag params s
  | .ethFrameRx dt port frame symbol => Sys2Proof.Machine.execEthFrameRx dt port frame symbol s
  | .linkChange dt port up speed half pause => Sys2Proof.Machine.execLinkChange dt port up speed half pause s
  | .ethSend dt port => Sys2Proof.Machine.execEthSend dt port s
  | .ethFrameStart dt port => Sys2Proof.Machine.execEthFrameStart dt port s
  | .pauseExpiry dt port => Sys2Proof.Machine.execPauseExpiry dt port s
  | .emCfgWrite dt port value => Sys2Proof.Machine.execEmCfgWrite dt port value s
  | .emStatus dt tag params => Sys2Proof.Machine.execEmStatus dt tag params s
  | .emStats dt tag params => Sys2Proof.Machine.execEmStats dt tag params s
  | .emMdio dt tag params => Sys2Proof.Machine.execEmMdio dt tag params s
  | .cipherRequestStart dt pipe => Sys2Proof.Machine.execCipherRequestStart dt pipe s
  | .cipherCompletion dt pipe => Sys2Proof.Machine.execCipherCompletion dt pipe s
  | .rngHealthFail dt test => Sys2Proof.Machine.execRngHealthFail dt test s
  | .rngRestart dt => Sys2Proof.Machine.execRngRestart dt s
  | .drbgReseed dt inst => Sys2Proof.Machine.execDrbgReseed dt inst s
  | .cyQueueDisable dt queue => Sys2Proof.Machine.execCyQueueDisable dt queue s
  | .cyStatus dt tag params => Sys2Proof.Machine.execCyStatus dt tag params s
  | .cyKeyInfo dt tag params => Sys2Proof.Machine.execCyKeyInfo dt tag params s
  | .cyKeyLoad dt tag params => Sys2Proof.Machine.execCyKeyLoad dt tag params s
  | .cyKeyErase dt tag params => Sys2Proof.Machine.execCyKeyErase dt tag params s
  | .cyZeroise dt tag params => Sys2Proof.Machine.execCyZeroise dt tag params s
  | .cyRun dt tag params => Sys2Proof.Machine.execCyRun dt tag params s
  | .s2RowDone dt => Sys2Proof.Machine.execS2RowDone dt s
  | .s3RowDone dt bytes preds poison => Sys2Proof.Machine.execS3RowDone dt bytes preds poison s
  | .s5RowDone dt y cb cr => Sys2Proof.Machine.execS5RowDone dt y cb cr s
  | .pcChannelWrite dt chan value => Sys2Proof.Machine.execPcChannelWrite dt chan value s
  | .decodePictureDone dt r => Sys2Proof.Machine.execDecodePictureDone dt r s
  | .pcStatus dt tag params => Sys2Proof.Machine.execPcStatus dt tag params s
  | .pcBudget dt tag params => Sys2Proof.Machine.execPcBudget dt tag params s
  | .pcForceIdr dt tag params => Sys2Proof.Machine.execPcForceIdr dt tag params s
  | .pcClipList dt tag params => Sys2Proof.Machine.execPcClipList dt tag params s
  | .pcClipIndex dt tag params => Sys2Proof.Machine.execPcClipIndex dt tag params s
  | .pcClipSend dt tag params => Sys2Proof.Machine.execPcClipSend dt tag params s
  | .pcClipLock dt tag params => Sys2Proof.Machine.execPcClipLock dt tag params s
  | .pcClipUnlock dt tag params => Sys2Proof.Machine.execPcClipUnlock dt tag params s
  | .pcDecLoad dt tag params => Sys2Proof.Machine.execPcDecLoad dt tag params s
  | .pcDecode dt tag params => Sys2Proof.Machine.execPcDecode dt tag params s
  | .pcDecStop dt tag params => Sys2Proof.Machine.execPcDecStop dt tag params s
  | .frameStart dt chan vc => Sys2Proof.Machine.execFrameStart dt chan vc s
  | .lineReceived dt chan vc dtype bad y cb cr => Sys2Proof.Machine.execLineReceived dt chan vc dtype bad y cb cr s
  | .frameEnd dt chan vc => Sys2Proof.Machine.execFrameEnd dt chan vc s
  | .frameTimeout dt chan => Sys2Proof.Machine.execFrameTimeout dt chan s
  | .lampOn dt chan => Sys2Proof.Machine.execLampOn dt chan s
  | .lampMax dt chan => Sys2Proof.Machine.execLampMax dt chan s
  | .discStopTimeout dt disc => Sys2Proof.Machine.execDiscStopTimeout dt disc s
  | .waStatus dt tag params => Sys2Proof.Machine.execWaStatus dt tag params s
  | .waCapture dt tag params => Sys2Proof.Machine.execWaCapture dt tag params s
  | .waField dt tag params => Sys2Proof.Machine.execWaField dt tag params s
  | .waDisc dt tag params => Sys2Proof.Machine.execWaDisc dt tag params s
  | .waI2c dt tag params => Sys2Proof.Machine.execWaI2c dt tag params s
  | .pwSample dt bus sense out => Sys2Proof.Machine.execPwSample dt bus sense out s
  | .fastTrip dt chan => Sys2Proof.Machine.execFastTrip dt chan s
  | .sagFreeze dt chan low => Sys2Proof.Machine.execSagFreeze dt chan low s
  | .sagTimeout dt chan => Sys2Proof.Machine.execSagTimeout dt chan s
  | .uvOff dt chan => Sys2Proof.Machine.execUvOff dt chan s
  | .seatChange dt chan pins => Sys2Proof.Machine.execSeatChange dt chan pins s
  | .insTimeMet dt chan => Sys2Proof.Machine.execInsTimeMet dt chan s
  | .inrushTimeout dt chan => Sys2Proof.Machine.execInrushTimeout dt chan s
  | .backoffExpiry dt chan => Sys2Proof.Machine.execBackoffExpiry dt chan s
  | .onStable dt chan => Sys2Proof.Machine.execOnStable dt chan s
  | .damagedTimeout dt chan => Sys2Proof.Machine.execDamagedTimeout dt chan s
  | .pwDisable dt chan => Sys2Proof.Machine.execPwDisable dt chan s
  | .pwStatus dt tag params => Sys2Proof.Machine.execPwStatus dt tag params s
  | .pwClear dt tag params => Sys2Proof.Machine.execPwClear dt tag params s
  | .flitRx dt link flit kcode => Sys2Proof.Machine.execFlitRx dt link flit kcode s
  | .flitSlot dt link => Sys2Proof.Machine.execFlitSlot dt link s
  | .status dt link body => Sys2Proof.Machine.execStatus dt link body s
  | .nak dt link body => Sys2Proof.Machine.execNak dt link body s
  | .init dt link body => Sys2Proof.Machine.execInit dt link body s
  | .retrain dt link cause => Sys2Proof.Machine.execRetrain dt link cause s
  | .idleReq dt link => Sys2Proof.Machine.execIdleReq dt link s
  | .idleAck dt link => Sys2Proof.Machine.execIdleAck dt link s
  | .statusTimer dt link => Sys2Proof.Machine.execStatusTimer dt link s
  | .ackTimeout dt link => Sys2Proof.Machine.execAckTimeout dt link s
  | .stMessageOffer dt link cls dest bytes => Sys2Proof.Machine.execStMessageOffer dt link cls dest bytes s
  | .trainingDone dt link => Sys2Proof.Machine.execTrainingDone dt link s
  | .trainingTimeout dt link => Sys2Proof.Machine.execTrainingTimeout dt link s
  | .downRetry dt link => Sys2Proof.Machine.execDownRetry dt link s
  | .sleepWake dt link partner => Sys2Proof.Machine.execSleepWake dt link partner s
  | .stLinkWrite dt link value => Sys2Proof.Machine.execStLinkWrite dt link value s
  | .stStatus dt tag params => Sys2Proof.Machine.execStStatus dt tag params s
  | .stRetrain dt tag params => Sys2Proof.Machine.execStRetrain dt tag params s
  | .announce dt => Sys2Proof.Machine.execAnnounce dt s
  | .stackState dt => Sys2Proof.Machine.execStackState dt s
  | .memberState dt => Sys2Proof.Machine.execMemberState dt s
  | .route dt => Sys2Proof.Machine.execRoute dt s
  | .command dt => Sys2Proof.Machine.execCommand dt s
  | .replyNotice dt => Sys2Proof.Machine.execReplyNotice dt s
  | .meterResult dt => Sys2Proof.Machine.execMeterResult dt s
  | .sduDown dt => Sys2Proof.Machine.execSduDown dt s
  | .sduUp dt => Sys2Proof.Machine.execSduUp dt s
  | .refusal dt => Sys2Proof.Machine.execRefusal dt s
  | .regAccess dt => Sys2Proof.Machine.execRegAccess dt s
  | .termData dt => Sys2Proof.Machine.execTermData dt s
  | .treeRecord dt => Sys2Proof.Machine.execTreeRecord dt s
  | .config dt => Sys2Proof.Machine.execConfig dt s
  | .image dt => Sys2Proof.Machine.execImage dt s
  | .timeExchange dt => Sys2Proof.Machine.execTimeExchange dt s
  | .timeResp dt => Sys2Proof.Machine.execTimeResp dt s
  | .phase dt => Sys2Proof.Machine.execPhase dt s
  | .routeTimer dt => Sys2Proof.Machine.execRouteTimer dt s
  | .announceTimer dt => Sys2Proof.Machine.execAnnounceTimer dt s
  | .stackStateTimer dt => Sys2Proof.Machine.execStackStateTimer dt s
  | .electTimeout dt => Sys2Proof.Machine.execElectTimeout dt s
  | .leadLost dt => Sys2Proof.Machine.execLeadLost dt s
  | .abdicate dt => Sys2Proof.Machine.execAbdicate dt s
  | .takeover dt => Sys2Proof.Machine.execTakeover dt s
  | .skStatus dt tag params => Sys2Proof.Machine.execSkStatus dt tag params s
  | .skCfgWrite dt tag params => Sys2Proof.Machine.execSkCfgWrite dt tag params s
  | .skCfgCommit dt tag params => Sys2Proof.Machine.execSkCfgCommit dt tag params s
  | .skQuarantine dt tag params => Sys2Proof.Machine.execSkQuarantine dt tag params s
  | .suppressWindowEnd dt source => Sys2Proof.Machine.execSuppressWindowEnd dt source s
  | .flushStart dt => Sys2Proof.Machine.execFlushStart dt s
  | .flushStepDone dt ok => Sys2Proof.Machine.execFlushStepDone dt ok s
  | .alStatus dt tag params => Sys2Proof.Machine.execAlStatus dt tag params s
  | .alRead dt tag params => Sys2Proof.Machine.execAlRead dt tag params s
  | .alArchives dt tag params => Sys2Proof.Machine.execAlArchives dt tag params s
  | .alArchRead dt tag params => Sys2Proof.Machine.execAlArchRead dt tag params s
  | .alUpload dt tag params => Sys2Proof.Machine.execAlUpload dt tag params s
  | .alFlush dt tag params => Sys2Proof.Machine.execAlFlush dt tag params s
  | .alWave dt tag params => Sys2Proof.Machine.execAlWave dt tag params s
  | .alMark dt tag params => Sys2Proof.Machine.execAlMark dt tag params s
  | .scrubRead dt r => Sys2Proof.Machine.execScrubRead dt r s
  | .fieldRepair dt => Sys2Proof.Machine.execFieldRepair dt s
  | .repairLogFlash dt => Sys2Proof.Machine.execRepairLogFlash dt s
  | .hearthScrub dt region offset r => Sys2Proof.Machine.execHearthScrub dt region offset r s
  | .mmStatus dt tag params => Sys2Proof.Machine.execMmStatus dt tag params s
  | .mmLog dt tag params => Sys2Proof.Machine.execMmLog dt tag params s
  | .mmWithdraw dt tag params => Sys2Proof.Machine.execMmWithdraw dt tag params s
  | .flashOperationDone dt ok => Sys2Proof.Machine.execFlashOperationDone dt ok s
  | .eyeMeasurementDone dt lane phase volt point => Sys2Proof.Machine.execEyeMeasurementDone dt lane phase volt point s
  | .busReleased dt port => Sys2Proof.Machine.execBusReleased dt port s
  | .startUpTestPassed dt => Sys2Proof.Machine.execStartUpTestPassed dt s
  | .crystalRunningAgain dt => Sys2Proof.Machine.execCrystalRunningAgain dt s
  | .duplicateQuietTimeout dt => Sys2Proof.Machine.execDuplicateQuietTimeout dt s
  | .memberStateTimeout dt => Sys2Proof.Machine.execMemberStateTimeout dt s
  | .phaseClipped dt phase => Sys2Proof.Machine.execPhaseClipped dt phase s
  | .inactiveBankWaitTimeout dt => Sys2Proof.Machine.execInactiveBankWaitTimeout dt s

end Sys2Proof.Machine
end

