-- ==== Sys2Proof/Machine/Parts.lean ====
section
/-! DEFINITION. What the commands have in common: the time that passes before each, and the part of the chip that must run
for its effect. -/

namespace Sys2Proof

/-- The part of the chip that must run for a command's effect: the Hearth alone, the command port's side of the main
domain, or the blocks, which stay in their reset states in rescue (R60, R68, R138). -/
inductive Part where
  | hearth
  | main
  | blocks
  deriving DecidableEq, Repr

/-- The datapath clock ticks that pass before a command takes effect (log entry 1). -/
def Instr.ticks : Instr → Nat
  | .mainResetRelease dt _ _ _ _ _ _ _ => dt
  | .resetN dt _ => dt
  | .railOutOfWindow dt _ => dt
  | .railRestart dt => dt
  | .railsNotUp dt _ => dt
  | .railRetry dt => dt
  | .step9Timeout dt => dt
  | .watchdog dt _ _ => dt
  | .spiWrite dt _ => dt
  | .spiRead dt _ => dt
  | .spiStatus dt => dt
  | .mgmtSdu dt => dt
  | .uartPacket dt _ => dt
  | .uartGapTimeout dt => dt
  | .commandStart dt _ => dt
  | .opTimeout dt _ => dt
  | .packetLeft dt => dt
  | .alarmRepeat dt _ => dt
  | .nop dt _ _ => dt
  | .getInfo dt _ _ => dt
  | .regRead dt _ _ => dt
  | .regWrite dt _ _ => dt
  | .regModify dt _ _ => dt
  | .opQuery dt _ _ => dt
  | .cancel dt _ _ => dt
  | .noticeAck dt _ _ => dt
  | .resetMain dt _ _ => dt
  | .cmdOpLimitWrite dt _ => dt
  | .imgStatus dt _ _ => dt
  | .imgErase dt _ _ => dt
  | .imgWrite dt _ _ => dt
  | .imgVerify dt _ _ => dt
  | .imgActivate dt _ _ => dt
  | .imgCommit dt _ _ => dt
  | .bootReport dt _ _ => dt
  | .hearthStart dt _ _ => dt
  | .hearthReset dt _ _ => dt
  | .supplySwitch dt _ _ => dt
  | .hearthAlign dt => dt
  | .wakeTimer dt => dt
  | .tamperActive dt _ _ => dt
  | .tamperInactive dt _ => dt
  | .meshBreak dt _ _ _ => dt
  | .meshRearm dt _ => dt
  | .meshReseed dt => dt
  | .cellMeasure dt _ => dt
  | .reserveSample dt _ => dt
  | .scheduledReturn dt => dt
  | .psuOkFall dt => dt
  | .psuOkRise dt => dt
  | .emberEntry dt => dt
  | .alarmMsExpiry dt => dt
  | .xtalStop dt => dt
  | .psStatus dt _ _ => dt
  | .heldRead dt _ _ => dt
  | .secondBoundary dt => dt
  | .ppsEnd dt => dt
  | .timeOfDay dt => dt
  | .slewEnd dt => dt
  | .timeMessage dt => dt
  | .timeCorrection dt => dt
  | .servoMissTimeout dt => dt
  | .holdoverTimeout dt => dt
  | .cmpFire dt _ => dt
  | .ntStatus dt _ _ => dt
  | .ntSet dt _ _ => dt
  | .ntAdjust dt _ _ => dt
  | .cmpArm dt _ _ => dt
  | .cmpDisarm dt _ _ => dt
  | .zeroCrossing dt _ _ _ _ => dt
  | .crossingMissed dt _ => dt
  | .phantomTimeout dt => dt
  | .absentTimeout dt => dt
  | .entryFire dt _ => dt
  | .relayPulseEnd dt _ => dt
  | .entryWrite dt _ _ _ => dt
  | .maStatus dt _ _ => dt
  | .maArm dt _ _ => dt
  | .maPulse dt _ _ => dt
  | .maWave dt _ _ => dt
  | .losDeclared dt _ _ => dt
  | .losCleared dt _ => dt
  | .lockWindowEnd dt _ _ _ _ => dt
  | .rogue dt _ _ => dt
  | .laneMarker dt _ _ _ _ => dt
  | .laneFail dt _ _ => dt
  | .laneRequalify dt _ => dt
  | .eyePeriodic dt => dt
  | .pllUnlock dt _ => dt
  | .lnReport dt _ _ => dt
  | .lnEye dt _ _ => dt
  | .lnTxRelease dt _ _ => dt
  | .lnSpareForce dt _ _ => dt
  | .frameReceived dt _ _ => dt
  | .grantMapDeadline dt => dt
  | .tdPortWrite dt _ _ => dt
  | .tdReport dt _ _ => dt
  | .treeProfile dt => dt
  | .identAssign dt => dt
  | .rangingResult dt => dt
  | .warmAck dt => dt
  | .allocAssign dt => dt
  | .portAssign dt => dt
  | .deregister dt => dt
  | .disable dt => dt
  | .dozeGrant dt => dt
  | .dozeReq dt => dt
  | .to1Expiry dt => dt
  | .twExpiry dt => dt
  | .to2Expiry dt => dt
  | .protectionSwitch dt => dt
  | .treeRecordSave dt => dt
  | .tmStatus dt _ _ => dt
  | .tmSetSerial dt _ _ => dt
  | .tmSetIdent dt _ _ => dt
  | .tmForget dt _ _ => dt
  | .tmClearDisable dt _ _ => dt
  | .fillInstant dt => dt
  | .burstStart dt => dt
  | .upstreamFrameBoundary dt _ => dt
  | .sduEnqueue dt _ _ _ => dt
  | .chimneyAckWaitEnd dt => dt
  | .upStatus dt _ _ => dt
  | .upAdmitTest dt _ _ => dt
  | .xactStart dt _ => dt
  | .requestSent dt _ => dt
  | .charReceived dt _ _ _ => dt
  | .idleGap dt _ => dt
  | .firstMsExpiry dt _ => dt
  | .interTimeout dt _ => dt
  | .busHeldLow dt _ => dt
  | .meterSdu dt => dt
  | .holdOffer dt => dt
  | .mpPortDisable dt _ => dt
  | .mpXact dt _ _ => dt
  | .mpStatus dt _ _ => dt
  | .mpProgLoad dt _ _ => dt
  | .mpProgStart dt _ _ => dt
  | .mpProgStop dt _ _ => dt
  | .mpProgStatus dt _ _ => dt
  | .containerJudge dt => dt
  | .rxcWindow dt _ _ => dt
  | .tbDisable dt _ => dt
  | .tbStatus dt _ _ => dt
  | .ethFrameRx dt _ _ _ => dt
  | .linkChange dt _ _ _ _ _ => dt
  | .ethSend dt _ => dt
  | .ethFrameStart dt _ => dt
  | .pauseExpiry dt _ => dt
  | .emCfgWrite dt _ _ => dt
  | .emStatus dt _ _ => dt
  | .emStats dt _ _ => dt
  | .emMdio dt _ _ => dt
  | .cipherRequestStart dt _ => dt
  | .cipherCompletion dt _ => dt
  | .rngHealthFail dt _ => dt
  | .rngRestart dt => dt
  | .drbgReseed dt _ => dt
  | .cyQueueDisable dt _ => dt
  | .cyStatus dt _ _ => dt
  | .cyKeyInfo dt _ _ => dt
  | .cyKeyLoad dt _ _ => dt
  | .cyKeyErase dt _ _ => dt
  | .cyZeroise dt _ _ => dt
  | .cyRun dt _ _ => dt
  | .s2RowDone dt => dt
  | .s3RowDone dt _ _ _ => dt
  | .s5RowDone dt _ _ _ => dt
  | .pcChannelWrite dt _ _ => dt
  | .decodePictureDone dt _ => dt
  | .pcStatus dt _ _ => dt
  | .pcBudget dt _ _ => dt
  | .pcForceIdr dt _ _ => dt
  | .pcClipList dt _ _ => dt
  | .pcClipIndex dt _ _ => dt
  | .pcClipSend dt _ _ => dt
  | .pcClipLock dt _ _ => dt
  | .pcClipUnlock dt _ _ => dt
  | .pcDecLoad dt _ _ => dt
  | .pcDecode dt _ _ => dt
  | .pcDecStop dt _ _ => dt
  | .frameStart dt _ _ => dt
  | .lineReceived dt _ _ _ _ _ _ _ => dt
  | .frameEnd dt _ _ => dt
  | .frameTimeout dt _ => dt
  | .lampOn dt _ => dt
  | .lampMax dt _ => dt
  | .discStopTimeout dt _ => dt
  | .waStatus dt _ _ => dt
  | .waCapture dt _ _ => dt
  | .waField dt _ _ => dt
  | .waDisc dt _ _ => dt
  | .waI2c dt _ _ => dt
  | .pwSample dt _ _ _ => dt
  | .fastTrip dt _ => dt
  | .sagFreeze dt _ _ => dt
  | .sagTimeout dt _ => dt
  | .uvOff dt _ => dt
  | .seatChange dt _ _ => dt
  | .insTimeMet dt _ => dt
  | .inrushTimeout dt _ => dt
  | .backoffExpiry dt _ => dt
  | .onStable dt _ => dt
  | .damagedTimeout dt _ => dt
  | .pwDisable dt _ => dt
  | .pwStatus dt _ _ => dt
  | .pwClear dt _ _ => dt
  | .flitRx dt _ _ _ => dt
  | .flitSlot dt _ => dt
  | .status dt _ _ => dt
  | .nak dt _ _ => dt
  | .init dt _ _ => dt
  | .retrain dt _ _ => dt
  | .idleReq dt _ => dt
  | .idleAck dt _ => dt
  | .statusTimer dt _ => dt
  | .ackTimeout dt _ => dt
  | .stMessageOffer dt _ _ _ _ => dt
  | .trainingDone dt _ => dt
  | .trainingTimeout dt _ => dt
  | .downRetry dt _ => dt
  | .sleepWake dt _ _ => dt
  | .stLinkWrite dt _ _ => dt
  | .stStatus dt _ _ => dt
  | .stRetrain dt _ _ => dt
  | .announce dt => dt
  | .stackState dt => dt
  | .memberState dt => dt
  | .route dt => dt
  | .command dt => dt
  | .replyNotice dt => dt
  | .meterResult dt => dt
  | .sduDown dt => dt
  | .sduUp dt => dt
  | .refusal dt => dt
  | .regAccess dt => dt
  | .termData dt => dt
  | .treeRecord dt => dt
  | .config dt => dt
  | .image dt => dt
  | .timeExchange dt => dt
  | .timeResp dt => dt
  | .phase dt => dt
  | .routeTimer dt => dt
  | .announceTimer dt => dt
  | .stackStateTimer dt => dt
  | .electTimeout dt => dt
  | .leadLost dt => dt
  | .abdicate dt => dt
  | .takeover dt => dt
  | .skStatus dt _ _ => dt
  | .skCfgWrite dt _ _ => dt
  | .skCfgCommit dt _ _ => dt
  | .skQuarantine dt _ _ => dt
  | .suppressWindowEnd dt _ => dt
  | .flushStart dt => dt
  | .flushStepDone dt _ => dt
  | .alStatus dt _ _ => dt
  | .alRead dt _ _ => dt
  | .alArchives dt _ _ => dt
  | .alArchRead dt _ _ => dt
  | .alUpload dt _ _ => dt
  | .alFlush dt _ _ => dt
  | .alWave dt _ _ => dt
  | .alMark dt _ _ => dt
  | .scrubRead dt _ => dt
  | .fieldRepair dt => dt
  | .repairLogFlash dt => dt
  | .hearthScrub dt _ _ _ => dt
  | .mmStatus dt _ _ => dt
  | .mmLog dt _ _ => dt
  | .mmWithdraw dt _ _ => dt
  | .flashOperationDone dt _ => dt
  | .eyeMeasurementDone dt _ _ _ _ => dt
  | .busReleased dt _ => dt
  | .startUpTestPassed dt => dt
  | .crystalRunningAgain dt => dt
  | .duplicateQuietTimeout dt => dt
  | .memberStateTimeout dt => dt
  | .phaseClipped dt _ => dt
  | .inactiveBankWaitTimeout dt => dt

/-- The part of the chip that must run for a command's effect. -/
def Instr.part : Instr → Part
  | .mainResetRelease _ _ _ _ _ _ _ _ => .hearth
  | .resetN _ _ => .hearth
  | .railOutOfWindow _ _ => .hearth
  | .railRestart _ => .hearth
  | .railsNotUp _ _ => .hearth
  | .railRetry _ => .hearth
  | .step9Timeout _ => .blocks
  | .watchdog _ _ _ => .hearth
  | .spiWrite _ _ => .main
  | .spiRead _ _ => .main
  | .spiStatus _ => .main
  | .mgmtSdu _ => .main
  | .uartPacket _ _ => .main
  | .uartGapTimeout _ => .main
  | .commandStart _ _ => .main
  | .opTimeout _ _ => .main
  | .packetLeft _ => .main
  | .alarmRepeat _ _ => .main
  | .nop _ _ _ => .main
  | .getInfo _ _ _ => .main
  | .regRead _ _ _ => .main
  | .regWrite _ _ _ => .main
  | .regModify _ _ _ => .main
  | .opQuery _ _ _ => .main
  | .cancel _ _ _ => .main
  | .noticeAck _ _ _ => .main
  | .resetMain _ _ _ => .main
  | .cmdOpLimitWrite _ _ => .blocks
  | .imgStatus _ _ _ => .main
  | .imgErase _ _ _ => .main
  | .imgWrite _ _ _ => .main
  | .imgVerify _ _ _ => .main
  | .imgActivate _ _ _ => .main
  | .imgCommit _ _ _ => .main
  | .bootReport _ _ _ => .main
  | .hearthStart _ _ _ => .hearth
  | .hearthReset _ _ _ => .hearth
  | .supplySwitch _ _ _ => .hearth
  | .hearthAlign _ => .blocks
  | .wakeTimer _ => .hearth
  | .tamperActive _ _ _ => .hearth
  | .tamperInactive _ _ => .hearth
  | .meshBreak _ _ _ _ => .hearth
  | .meshRearm _ _ => .hearth
  | .meshReseed _ => .blocks
  | .cellMeasure _ _ => .hearth
  | .reserveSample _ _ => .hearth
  | .scheduledReturn _ => .blocks
  | .psuOkFall _ => .hearth
  | .psuOkRise _ => .hearth
  | .emberEntry _ => .hearth
  | .alarmMsExpiry _ => .hearth
  | .xtalStop _ => .hearth
  | .psStatus _ _ _ => .main
  | .heldRead _ _ _ => .main
  | .secondBoundary _ => .blocks
  | .ppsEnd _ => .blocks
  | .timeOfDay _ => .blocks
  | .slewEnd _ => .blocks
  | .timeMessage _ => .blocks
  | .timeCorrection _ => .blocks
  | .servoMissTimeout _ => .blocks
  | .holdoverTimeout _ => .blocks
  | .cmpFire _ _ => .blocks
  | .ntStatus _ _ _ => .main
  | .ntSet _ _ _ => .main
  | .ntAdjust _ _ _ => .main
  | .cmpArm _ _ _ => .main
  | .cmpDisarm _ _ _ => .main
  | .zeroCrossing _ _ _ _ _ => .blocks
  | .crossingMissed _ _ => .blocks
  | .phantomTimeout _ => .blocks
  | .absentTimeout _ => .blocks
  | .entryFire _ _ => .blocks
  | .relayPulseEnd _ _ => .hearth
  | .entryWrite _ _ _ _ => .blocks
  | .maStatus _ _ _ => .main
  | .maArm _ _ _ => .main
  | .maPulse _ _ _ => .main
  | .maWave _ _ _ => .main
  | .losDeclared _ _ _ => .blocks
  | .losCleared _ _ => .blocks
  | .lockWindowEnd _ _ _ _ _ => .blocks
  | .rogue _ _ _ => .blocks
  | .laneMarker _ _ _ _ _ => .blocks
  | .laneFail _ _ _ => .blocks
  | .laneRequalify _ _ => .blocks
  | .eyePeriodic _ => .blocks
  | .pllUnlock _ _ => .blocks
  | .lnReport _ _ _ => .main
  | .lnEye _ _ _ => .main
  | .lnTxRelease _ _ _ => .main
  | .lnSpareForce _ _ _ => .main
  | .frameReceived _ _ _ => .blocks
  | .grantMapDeadline _ => .blocks
  | .tdPortWrite _ _ _ => .blocks
  | .tdReport _ _ _ => .main
  | .treeProfile _ => .blocks
  | .identAssign _ => .blocks
  | .rangingResult _ => .blocks
  | .warmAck _ => .blocks
  | .allocAssign _ => .blocks
  | .portAssign _ => .blocks
  | .deregister _ => .blocks
  | .disable _ => .blocks
  | .dozeGrant _ => .blocks
  | .dozeReq _ => .blocks
  | .to1Expiry _ => .blocks
  | .twExpiry _ => .blocks
  | .to2Expiry _ => .blocks
  | .protectionSwitch _ => .blocks
  | .treeRecordSave _ => .blocks
  | .tmStatus _ _ _ => .main
  | .tmSetSerial _ _ _ => .main
  | .tmSetIdent _ _ _ => .main
  | .tmForget _ _ _ => .main
  | .tmClearDisable _ _ _ => .main
  | .fillInstant _ => .blocks
  | .burstStart _ => .blocks
  | .upstreamFrameBoundary _ _ => .blocks
  | .sduEnqueue _ _ _ _ => .blocks
  | .chimneyAckWaitEnd _ => .blocks
  | .upStatus _ _ _ => .main
  | .upAdmitTest _ _ _ => .main
  | .xactStart _ _ => .blocks
  | .requestSent _ _ => .blocks
  | .charReceived _ _ _ _ => .blocks
  | .idleGap _ _ => .blocks
  | .firstMsExpiry _ _ => .blocks
  | .interTimeout _ _ => .blocks
  | .busHeldLow _ _ => .blocks
  | .meterSdu _ => .blocks
  | .holdOffer _ => .blocks
  | .mpPortDisable _ _ => .blocks
  | .mpXact _ _ _ => .main
  | .mpStatus _ _ _ => .main
  | .mpProgLoad _ _ _ => .main
  | .mpProgStart _ _ _ => .main
  | .mpProgStop _ _ _ => .main
  | .mpProgStatus _ _ _ => .main
  | .containerJudge _ => .blocks
  | .rxcWindow _ _ _ => .blocks
  | .tbDisable _ _ => .blocks
  | .tbStatus _ _ _ => .main
  | .ethFrameRx _ _ _ _ => .blocks
  | .linkChange _ _ _ _ _ _ => .blocks
  | .ethSend _ _ => .blocks
  | .ethFrameStart _ _ => .blocks
  | .pauseExpiry _ _ => .blocks
  | .emCfgWrite _ _ _ => .blocks
  | .emStatus _ _ _ => .main
  | .emStats _ _ _ => .main
  | .emMdio _ _ _ => .main
  | .cipherRequestStart _ _ => .blocks
  | .cipherCompletion _ _ => .blocks
  | .rngHealthFail _ _ => .blocks
  | .rngRestart _ => .blocks
  | .drbgReseed _ _ => .blocks
  | .cyQueueDisable _ _ => .blocks
  | .cyStatus _ _ _ => .main
  | .cyKeyInfo _ _ _ => .main
  | .cyKeyLoad _ _ _ => .main
  | .cyKeyErase _ _ _ => .main
  | .cyZeroise _ _ _ => .main
  | .cyRun _ _ _ => .main
  | .s2RowDone _ => .blocks
  | .s3RowDone _ _ _ _ => .blocks
  | .s5RowDone _ _ _ _ => .blocks
  | .pcChannelWrite _ _ _ => .blocks
  | .decodePictureDone _ _ => .blocks
  | .pcStatus _ _ _ => .main
  | .pcBudget _ _ _ => .main
  | .pcForceIdr _ _ _ => .main
  | .pcClipList _ _ _ => .main
  | .pcClipIndex _ _ _ => .main
  | .pcClipSend _ _ _ => .main
  | .pcClipLock _ _ _ => .main
  | .pcClipUnlock _ _ _ => .main
  | .pcDecLoad _ _ _ => .main
  | .pcDecode _ _ _ => .main
  | .pcDecStop _ _ _ => .main
  | .frameStart _ _ _ => .blocks
  | .lineReceived _ _ _ _ _ _ _ _ => .blocks
  | .frameEnd _ _ _ => .blocks
  | .frameTimeout _ _ => .blocks
  | .lampOn _ _ => .blocks
  | .lampMax _ _ => .blocks
  | .discStopTimeout _ _ => .blocks
  | .waStatus _ _ _ => .main
  | .waCapture _ _ _ => .main
  | .waField _ _ _ => .main
  | .waDisc _ _ _ => .main
  | .waI2c _ _ _ => .main
  | .pwSample _ _ _ _ => .blocks
  | .fastTrip _ _ => .blocks
  | .sagFreeze _ _ _ => .blocks
  | .sagTimeout _ _ => .blocks
  | .uvOff _ _ => .blocks
  | .seatChange _ _ _ => .blocks
  | .insTimeMet _ _ => .blocks
  | .inrushTimeout _ _ => .blocks
  | .backoffExpiry _ _ => .blocks
  | .onStable _ _ => .blocks
  | .damagedTimeout _ _ => .blocks
  | .pwDisable _ _ => .blocks
  | .pwStatus _ _ _ => .main
  | .pwClear _ _ _ => .main
  | .flitRx _ _ _ _ => .blocks
  | .flitSlot _ _ => .blocks
  | .status _ _ _ => .blocks
  | .nak _ _ _ => .blocks
  | .init _ _ _ => .blocks
  | .retrain _ _ _ => .blocks
  | .idleReq _ _ => .blocks
  | .idleAck _ _ => .blocks
  | .statusTimer _ _ => .blocks
  | .ackTimeout _ _ => .blocks
  | .stMessageOffer _ _ _ _ _ => .blocks
  | .trainingDone _ _ => .blocks
  | .trainingTimeout _ _ => .blocks
  | .downRetry _ _ => .blocks
  | .sleepWake _ _ _ => .blocks
  | .stLinkWrite _ _ _ => .blocks
  | .stStatus _ _ _ => .main
  | .stRetrain _ _ _ => .main
  | .announce _ => .blocks
  | .stackState _ => .blocks
  | .memberState _ => .blocks
  | .route _ => .blocks
  | .command _ => .blocks
  | .replyNotice _ => .blocks
  | .meterResult _ => .blocks
  | .sduDown _ => .blocks
  | .sduUp _ => .blocks
  | .refusal _ => .blocks
  | .regAccess _ => .blocks
  | .termData _ => .blocks
  | .treeRecord _ => .blocks
  | .config _ => .blocks
  | .image _ => .blocks
  | .timeExchange _ => .blocks
  | .timeResp _ => .blocks
  | .phase _ => .blocks
  | .routeTimer _ => .blocks
  | .announceTimer _ => .blocks
  | .stackStateTimer _ => .blocks
  | .electTimeout _ => .blocks
  | .leadLost _ => .blocks
  | .abdicate _ => .blocks
  | .takeover _ => .blocks
  | .skStatus _ _ _ => .main
  | .skCfgWrite _ _ _ => .main
  | .skCfgCommit _ _ _ => .main
  | .skQuarantine _ _ _ => .main
  | .suppressWindowEnd _ _ => .blocks
  | .flushStart _ => .blocks
  | .flushStepDone _ _ => .blocks
  | .alStatus _ _ _ => .main
  | .alRead _ _ _ => .main
  | .alArchives _ _ _ => .main
  | .alArchRead _ _ _ => .main
  | .alUpload _ _ _ => .main
  | .alFlush _ _ _ => .main
  | .alWave _ _ _ => .main
  | .alMark _ _ _ => .main
  | .scrubRead _ _ => .blocks
  | .fieldRepair _ => .blocks
  | .repairLogFlash _ => .blocks
  | .hearthScrub _ _ _ _ => .hearth
  | .mmStatus _ _ _ => .main
  | .mmLog _ _ _ => .main
  | .mmWithdraw _ _ _ => .main
  | .flashOperationDone _ _ => .main
  | .eyeMeasurementDone _ _ _ _ _ => .blocks
  | .busReleased _ _ => .blocks
  | .startUpTestPassed _ => .blocks
  | .crystalRunningAgain _ => .hearth
  | .duplicateQuietTimeout _ => .blocks
  | .memberStateTimeout _ => .blocks
  | .phaseClipped _ _ => .blocks
  | .inactiveBankWaitTimeout _ => .blocks

end Sys2Proof
end

