-- ==== Sys2Proof/Machine/Pins.lean ====
section
/-! DEFINITION. The levels at the chip's outputs, read off the state (R38, R40, R70, Table BA-5; log entry 25). No
step reads a pin: a pin shows what the state holds. The bits that a wire carries in time (UART, SPI, I2C, MDIO, RGMII,
QSPI, the lanes) are the bytes and flits that the state holds of them; between two commands those wires rest. -/

namespace Sys2Proof.Machine

/-- A level at an output: `floating` is high impedance, or released; `idle` the electrical idle of a lane; `active` a
wire that carries symbols or a clock; `clamped` a gate held to its FUSEc_OUT, `pumped` one 10 V above it; `mv` a steady
voltage. -/
inductive Level where
  | low | high | floating | idle | active | clamped | pumped
  | mv (n : Nat)
  deriving DecidableEq, Repr

/-- A driven level. -/
def Level.ofBool (b : Bool) : Level := if b then .high else .low

/-- Whether the main rails are in their windows: found so, or at the end of the ramp under way (R43, R70). -/
def State.railsGood (s : State) : Bool :=
  s.hearth.pen && (s.hearth.railsUp || decide (s.hearth.railsFrom + Config.railRise s.hearth.railsFrom ≤ s.now))

/-- An output of the main domain: unpowered while the rails are not in their windows, at its reset state while the main
domain is in reset or stopped in the boot ROM, else driven (R38, R70, Table BA-5). -/
def State.outPin (s : State) (atReset driven : Level) : Level :=
  if !s.railsGood then .floating else if !s.main.out ∨ s.main.boot.stopped then atReset else driven

/-- Whether a tree lane may light its laser: the lead's active transmit lane, or that of the burst under way (R286), and
none of what holds it dark (R40, R271, R280, R287, R361, R659). -/
def State.mayLight (s : State) (n : Nat) : Bool :=
  s.main.sk.isLead && (s.main.td.active == n || s.main.up.current.any (fun b => b.lane == n)) && !s.hardFloor
    && !s.rogueLatched n && !s.main.ln.pllHold && !s.main.tm.disabled && !s.quarantined && s.hearth.ps != .smoulder

/-- TREE_TXDISn. -/
def State.txDis (s : State) (n : Nat) : Level := s.outPin .high (.ofBool (!s.mayLight n))

/-- TREE_BENn: from LEAD byte times before a burst's START to LAG byte times after its end (R267). -/
def State.burstEnable (s : State) (n : Nat) : Level := s.outPin .low (.ofBool (s.inBurst n && s.mayLight n))

/-- Lk_TX: electrical idle, but on a lane that runs; a tree lane sends in its bursts alone, the preamble pattern during
LEAD and LAG (R267). -/
def State.laneTx (s : State) (n : Nat) : Level :=
  let on := if n < 2 then s.inBurst n && s.mayLight n else s.laneOn n
  s.outPin .idle (if on then .active else .idle)

/-- RLYn: low but in a pulse, which goes on through a reset of the main domain (R252). -/
def State.rly (s : State) (n : Nat) : Level := s.outPin (.ofBool (s.relayHigh n)) (.ofBool (s.relayHigh n))

/-- PPS_OUT (R219). -/
def State.ppsOut (s : State) : Level := s.outPin .low (.ofBool s.main.nt.pps)

/-- SPI_IRQ_N, open drain: low while an outbound packet waits on SPI (R79). -/
def State.spiIrqN (s : State) : Level :=
  s.outPin .floating (if s.main.cmd.bound = .spi ∧ s.main.cmd.out ≠ [] then .low else .floating)

/-- MPn_DE: high from a request's start to DE_LAG after its last stop bit (R400). -/
def State.mpDe (s : State) (n : Nat) : Level :=
  let t := s.mport n
  s.outPin .low (.ofBool (t.st == .sending && decide (t.deRise ≤ s.now) && decide (s.now < t.deFall)))

/-- MPn_TXD (R400). -/
def State.mpTxdPin (s : State) (n : Nat) : Level := s.outPin .high (.ofBool (s.mpTxd n))

/-- TBt_TXC: a clock while the tributary runs, else low (R430, Table BA-5). -/
def State.tbTxc (s : State) (t : Nat) : Level := s.outPin .low (if s.tribOn t then .active else .low)

/-- TBt_TXD: the last bit sent (R430). -/
def State.tbTxd (s : State) (t : Nat) : Level :=
  s.outPin .high (.ofBool ((at? s.main.tb.tribs t {}).txd.getLast?.getD true))

/-- E1_TXC, E1_TX_CTL, E1_TXD and E1_MDC: low until port 1 is enabled (Table BA-5). -/
def State.e1Out (s : State) : Level := s.outPin .low (if s.bit 0x0A0200 31 then .active else .low)

/-- UART_TXD between characters. -/
def State.uartTxd (s : State) : Level := s.outPin .high .high

/-- QSPI_CLK between flash operations. -/
def State.qspiClk (s : State) : Level := s.outPin .low .low

/-- QSPI_CS_N between flash operations. -/
def State.qspiCsN (s : State) : Level := s.outPin .high .high

/-- The balls that the chip releases between operations: E1_MDIO, QSPI_IO, SPI_MISO while SPI_CS_N is high, TDO,
CAMc_SCL and CAMc_SDA (Table BA-5). -/
def State.released (_ : State) : Level := .floating

/-- MAINS_REF (Table BA-5). -/
def State.mainsRef (s : State) : Level := s.outPin (.mv 800) (.mv 800)

/-- IR_LAMPc (R563, R564). -/
def State.irLamp (s : State) (c : Nat) : Level := s.outPin .low (.ofBool (at? s.main.wa.chans c {}).lit)

/-- CAMc_RST_N (R580). -/
def State.camRstN (s : State) (c : Nat) : Level := s.outPin .low (.ofBool (at? s.main.wa.chans c {}).rst.isSome)

/-- FUSEc_GATE: 10 V above FUSEc_OUT while the gate is on, clamped to it while it is off (R584, R587). -/
def State.fuseGate (s : State) (c : Nat) : Level :=
  s.outPin .clamped (if (at? s.main.pw.chans c {}).st.gate then .pumped else .clamped)

/-- PEN_MAIN, which the Hearth drives while it has a supply (R49, R66, R177). -/
def State.penMain (s : State) : Level := if s.hearth.running then .ofBool s.hearth.pen else .floating

/-- MESHn_DRV: bit 15 of the pair's LFSR while the pair is enabled, else low (R165, Table BA-5). -/
def State.meshDrv (s : State) (n : Nat) : Level :=
  if s.hearth.running then .ofBool (s.bit (0x010040 + 4 * n) 31 && bitOf (s.lfsrNow n) 15) else .floating

end Sys2Proof.Machine
end

