-- ==== Sys2Proof/Safety.lean ====
section
/-! DEFINITION. What a safe state is, and the terms that claims use: the state in which a command's effect takes place, a
command of the master under way, and its reply. -/

namespace Sys2Proof.Machine

/-- The stores are in their canonical forms (log entries 3 and 13). -/
def State.sound (s : State) : Prop := RegFile.wf s.regs = true ∧ flashWf s.flash = true

/-- The state in which a command `dt` ticks later takes effect: time has passed, and what had ended by then is closed. -/
def State.at (s : State) (dt : Nat) : State := (s.begin dt).wiresDone

/-- The main domain runs: out of reset and not stopped in the boot ROM (R60, R68). -/
def State.runs (x : State) : Prop := x.main.out = true ∧ x.main.boot.stopped = false

/-- The blocks outside the command port run too: no rescue (R138). -/
def State.blocksRun (x : State) : Prop := x.runs ∧ x.main.boot.rescue = false

/-- The outcome of a command begun in `s` whose own effect has left `t`: what follows at once follows. -/
def State.leaves (s t : State) : Host.Outcome State Fault Refusal := .next (t.settle s)

/-- A reset of the main domain from `x` leaves `t` (R46, R63, R119, R148, R252, R489): everything outside the Hearth is at
its reset value, the Hearth keeps what it holds and completes a key update that is committed, a pulse on RLYn runs on, and
the flash keeps what it holds where no operation on it was cut off. -/
def State.mainReset (x t : State) (cause : Nat) : Prop :=
  t.pending = x.pending ∧ t.now = x.now ∧ t.pulses = x.pulses ∧ t.main = .cold ∧ t.regs = RegFile.hearthOnly x.regs
    ∧ t.minSec = x.minSec ∧ (x.main.boot.flashOp = none → t.flash = x.flash)
    ∧ t.hearth = { x.hearth with
        cause := cause, minBlaze := none, minMore := [], ps := .ember, keys := x.completeUpdate.hearth.keys
        cutFlush := (x.main.ash.flush.map (fun f => (f.slot, f.pages, f.aseq))).or x.hearth.cutFlush }

/-- The main rails have left their windows: they no longer supply the main domain, nor a pulse on RLYn (R66, R252). -/
def State.railsGone (x : State) : State :=
  { x with pulses := List.replicate 16 none, hearth := { x.hearth with railsUp := false, railsFrom := x.now } }

/-- The main rails, whose levels and time out of their windows are given, fail (R46, R66): PEN_MAIN is high, the rails were
up, and one lies outside its window for 2 µs or more. -/
def State.railsFail (x : State) (rails : List Nat × Nat) : Prop :=
  x.hearth.pen = true ∧ x.hearth.railsUp = true ∧ railMap rails.1 ≠ 0 ∧ 2000 ≤ rails.2

/-- The state in which a command of the master executes: `dt` ticks later, the chip woken by its packet (R114). -/
def State.heard (s : State) (dt : Nat) : State := (s.at dt).wake 0x06

/-- The header of a command of the master for this member (Table CMD-2). -/
def State.header (x : State) (op tag : Nat) (p : List Byte) : Hdr :=
  { kind := 0, format := 1, res2 := 0, member := x.self, flags := 0, opcode := op, tag := tag,
    length := p.length, status := 0, part := 0 }

/-- A command of the master is executed at once on this member (R73, R85, R86, R89, R91, R755): the member leads, its
checks 1 to 4 and 6 pass, its tag is FREE, its parameter field is no longer than 4,096 bytes, and no command accepted
earlier stands before it. -/
def State.executes (x : State) (op tag : Nat) (p : List Byte) : Prop :=
  x.runs ∧ x.leads = true ∧ p.length ≤ 4096 ∧ x.opOfTag tag = none ∧ x.leadChecks op = 0
    ∧ (x.quarantined = true → quarantineOk op = true)
    ∧ (∀ e ∈ x.main.cmd.ops, e.shadow = true ∨ (e.all = false ∧ onLead e.opcode = false ∧ e.member ≠ x.self)
        ∨ e.st ≠ .queued)

/-- The state with a command of the master in the operation table, RUNNING. -/
def State.issued (x : State) (op tag : Nat) (p : List Byte) : State :=
  (x.accept (x.header op tag p) p ((16 + (if p = [] then 0 else p.length + 4) + 15) / 16)).modOp x.main.cmd.nextOp
    (fun e => { e with st := .running, space := 0, await := [x.self] })

/-- The state in which an opcode's own effect takes place: `dt` ticks later, its command in the operation table. -/
def State.asked (s : State) (dt op tag : Nat) (p : List Byte) : State := (s.heard dt).issued op tag p

/-- The command `op` with these operands is executed at once when it comes `dt` ticks after `s`. -/
def State.willRun (s : State) (dt op tag : Nat) (p : List Byte) : Prop := (s.heard dt).executes op tag p

/-- The handle of the operation issued last. -/
def State.lastOp (x : State) : Nat := x.main.cmd.nextOp - 1

/-- The outcome of a command begun in `s` whose operation ends in `x` with a status and reply parameters. -/
def State.replies (s x : State) (status : Nat) (params : List Byte) : Host.Outcome State Fault Refusal :=
  s.leaves (x.finish x.lastOp status params)

/-- A byte string is a whole command packet that passes every check of R85: the member leads (R73), and the intake has
room (R116). -/
def State.passes (x : State) (b : List Byte) : Prop :=
  16 ≤ b.length ∧ syncOk b = true ∧ hcrcOk b = true ∧ b.length = (hdrOf b).extent ∧ (hdrOf b).kind = 0
    ∧ x.leads = true ∧ x.intake + (b.length + 15) / 16 ≤ intakeLimit ∧ (hdrOf b).formatOk = true
    ∧ (hdrOf b).length ≤ 4096
    ∧ ((hdrOf b).length ≠ 0 → field b (16 + (hdrOf b).length) 4 = crc32 (bytesAt b 16 (hdrOf b).length))

/-- Such a packet's command is accepted: its tag is FREE (R86). -/
def State.takesPacket (x : State) (b : List Byte) : Prop := x.passes b ∧ x.opOfTag (hdrOf b).tag = none

/-- The state with a reply packet formed that stands for no operation: it waits behind the replies formed before it. -/
def State.answered (x : State) (p : List Byte) : State :=
  (x.modCmd (fun c => { c with hold := c.hold ++ [⟨.refusal, p⟩] })).pumpOut

/-- The operation table with the command of a packet accepted (R86, R90). -/
def State.accepted (x : State) (b : List Byte) : State :=
  x.modCmd (fun c => { c with
    nextOp := c.nextOp + 1
    ops := c.ops ++ [{ id := c.nextOp, tag := (hdrOf b).tag, opcode := (hdrOf b).opcode, member := (hdrOf b).member,
                       all := bitOf (hdrOf b).flags 7, ordered := bitOf (hdrOf b).flags 6,
                       params := bytesAt b 16 (hdrOf b).length, accepted := x.now, lastReply := x.now,
                       space := (b.length + 15) / 16 }] })

/-- A register written by itself with a legal value: its fields take it (R15 to R17), and a bit that hardware has set in
the same cycle stays set (R12). -/
def State.withReg (x : State) (a v : Nat) : State :=
  x.setWord a (Nat.lor (regWritten (regFields a) (x.word a) v) (x.cycleOf a).latched)

end Sys2Proof.Machine
end

