-- ==== Sys2Proof/Certificates/Slice0/Obligations.lean ====
section
/-! DEFINITION. The statements for the provers. In each, `x = s.at dt` is the state `s` after the `dt` datapath clock ticks
that the command's row carries (log entry 1), and `s.leaves y` is what is answered when the command leaves `y`: what
follows from `y` at the same instant (a reply that leaves, an order that comes into force) is already in it. The rules
named in a docstring are those the statement was drawn from; what OBLIGATIONS.json cites for it is what it rests on. -/

section Statements

open Sys2Proof Sys2Proof.Machine

/-- RESET_N low for 10 µs, a rail out of its window for 2 µs, and a watchdog reset the main domain and it alone: everything
outside the Hearth returns to its reset value, the Hearth keeps what it holds and notes the cause; a watchdog and a
rail out of its window while PSU_OK is high are recorded first (R46, R66, R119, R152).
Where the spec leaves it open it states the model's choice: log entries 10, 23. -/
def Obligations.MainDomainResets : Prop :=
  (∀ (x : State) (c : Nat), x.mainReset (x.resetMain c) c)
  ∧ (∀ (dt low : Nat) (s x t : State), x = s.at dt → 10 ≤ low → x.hearth.pen = true → x.main.out = true →
    t = x.resetMain 0x04 →
    exec (.resetN dt low) s = .next { t with hearth := { t.hearth with rstHighAt := x.now + (low - 10) * usT } })
  ∧ (∀ (dt low : Nat) (s x : State), x = s.at dt → 10 ≤ low → x.hearth.pen = true → x.main.out = false →
    exec (.resetN dt low) s = .next { x with hearth := { x.hearth with rstHighAt := x.now + (low - 10) * usT } })
  ∧ (∀ (dt low : Nat) (s x : State), x = s.at dt → (low < 10 ∨ x.hearth.pen = false) →
    exec (.resetN dt low) s = s.leaves x)
  ∧ (∀ (dt core : Nat) (code : BitVec 32) (s x y : State), x = s.at dt →
    x.main.out = true → x.main.boot.slot.isSome = true → x.hearth.ps = .blaze → core < 4 →
    2 * secT ≤ x.main.boot.dog → y = x.ashHearth 0x01 0x06 ([byte core] ++ be 4 code.toNat) →
    exec (.watchdog dt core code) s = .next (y.resetMain 0x06))
  ∧ (∀ (dt : Nat) (rails : List Nat × Nat) (s x : State), x = s.at dt → x.railsFail rails → x.hearth.psuOk = false →
    exec (.railOutOfWindow dt rails) s = .next (x.railsGone.resetMain 0x05))
  ∧ (∀ (dt : Nat) (rails : List Nat × Nat) (s x y : State), x = s.at dt → x.railsFail rails → x.hearth.psuOk = true →
    (x.hearth.railResets.filter (fun t => decide (x.now < t + 60 * secT))).length < 2 →
    y = (x.railsGone.ashHearth 0x01 0x03 [byte (railMap rails.1), 0#8]).resetMain 0x05 →
    exec (.railOutOfWindow dt rails) s = .next { y with hearth := { y.hearth with
      railResets := x.now :: x.hearth.railResets.filter (fun t => decide (x.now < t + 60 * secT))
      restartAt := some (x.now + 10 * msT) } })
  ∧ (∀ (dt : Nat) (rails : List Nat × Nat) (s x : State), x = s.at dt →
    (x.hearth.pen = false ∨ x.hearth.railsUp = false ∨ railMap rails.1 = 0 ∨ rails.2 < 2000) →
    exec (.railOutOfWindow dt rails) s = s.leaves x)

/-- The third rail reset in 60 s locks the chip out: PEN_MAIN falls, the record says so, and the held entry of the rails
is made; before that the start is requested again 10 ms later; rails not up 50 ms after PEN_MAIN rose drive it low,
and 1 s later it rises again, but in a lockout (R66, R67, R193).
Where the spec leaves it open it states the model's choice: log entries 23, 129. -/
def Obligations.RailRetries : Prop :=
  (∀ (dt : Nat) (rails : List Nat × Nat) (s x : State), x = s.at dt → x.railsFail rails → x.hearth.psuOk = true →
    2 ≤ (x.hearth.railResets.filter (fun t => decide (x.now < t + 60 * secT))).length →
    ∃ t, exec (.railOutOfWindow dt rails) s = .next t ∧ t.main = .cold ∧ t.hearth.pen = false ∧ t.hearth.lockout = true
      ∧ t.hearth.restartAt = none ∧ t.hearth.retryAt = none ∧ t.hearth.cause = 0x05 ∧ t.minSec = x.minSec
      ∧ t.hearth.seq = (x.hearth.seq + 2) % 2 ^ 32
      ∧ (∀ e, x.hearth.held[12]? = some e → ∃ f, t.hearth.held[12]? = some f ∧ f.count = sat 0xFFFF (e.count + 1)
          ∧ f.reserve = x.hearth.resCode ∧ bitOf f.flags 0 = true)
      ∧ (∀ i, i ≠ 12 → t.hearth.held[i]? = x.hearth.held[i]?))
  ∧ (∀ (dt a : Nat) (s x : State), x = s.at dt → x.hearth.restartAt = some a → a ≤ x.now → x.main.boot.stopped = false →
    exec (.railRestart dt) s = s.leaves { x with hearth := { x.hearth with restartAt := none } })
  ∧ (∀ (dt a : Nat) (s x : State), x = s.at dt → x.hearth.restartAt = some a → a ≤ x.now → x.main.boot.stopped = true →
    exec (.railRestart dt) s = .next { x with
      main := .cold, regs := RegFile.hearthOnly x.regs, hearth := { x.hearth with restartAt := none } })
  ∧ (∀ (dt : Nat) (rails : List Nat) (s x y : State), x = s.at dt → x.hearth.pen = true → x.main.out = false →
    x.hearth.railsUp = false → railMap rails ≠ 0 → x.hearth.penRise + 50 * msT ≤ x.now →
    y = x.ashHearth 0x01 0x03 [byte (railMap rails), 1#8] →
    exec (.railsNotUp dt rails) s = .next { y with
      pulses := List.replicate 16 none
      hearth := { y.hearth with
        pen := false, railsUp := false, minBlaze := none, minMore := [], retryAt := some (x.now + secT) } })
  ∧ (∀ (dt a : Nat) (s x : State), x = s.at dt → x.hearth.retryAt = some a → a ≤ x.now → x.hearth.lockout = false →
    x.hearth.running = true →
    exec (.railRetry dt) s = s.leaves { x with hearth := { x.hearth with
      pen := true, penRise := x.now, railsUp := false, railsFrom := x.now, retryAt := none } })
  ∧ (∀ (dt : Nat) (s x : State), x = s.at dt → x.hearth.lockout = true → exec (.railRetry dt) s = s.leaves x)

/-- The start of the main domain: with every rail in its window, RESET_N high for 1 ms and the reference within 200 ppm,
steps 2 to 5 run in order and step 6 begins; a step 3 or 4 that fails ends in rescue, TEST_N low leaves the ROM stopped;
without the reference the start stops, is recorded and is tried again 1 s later; step 9 begins 5 s after step 5 ended where
START has not been queued by then (R45, R60, R68, R124, R126).
Where the spec leaves it open it states the model's choice: log entries 22, 130. -/
def Obligations.MainDomainStarts : Prop :=
  (∀ (x : State) (rails : List Nat), x.mayRelease rails = true ↔
    x.hearth.running = true ∧ x.hearth.pen = true ∧ x.main.out = false ∧ x.hearth.restartAt = none ∧ railMap rails = 0
      ∧ x.hearth.rstHighAt + msT ≤ x.now ∧ (x.hearth.railsUp = true ∨ x.hearth.railsFrom + msT ≤ x.now))
  ∧ (∀ (dt : Nat) (msel : BitVec 2) (member : BitVec 3) (treeEn rextOk : Bool) (p : Int) (faults : List BankFault)
      (rails : List Nat) (s x y z : State), x = s.at dt → x.mayRelease rails = true → -200 ≤ p → p ≤ 200 →
    y = (x.modHearth (fun h => { h with railsUp := true })).step2 msel.toNat member.toNat treeEn →
    z = ((y.memStart (!(x.hearth.cause == 0x02 || x.hearth.cause == 0x03)) faults).modBoot
          (fun b => { b with fullTest := !(x.hearth.cause == 0x02 || x.hearth.cause == 0x03) })).stepEnd 3 →
    (z.genFits = false →
      exec (.mainResetRelease dt msel member (treeEn, true) (some p) faults rextOk rails) s
        = s.leaves ((z.stepFail 3).enterRescue))
    ∧ (z.genFits = true → z.step4 = none →
      exec (.mainResetRelease dt msel member (treeEn, true) (some p) faults rextOk rails) s
        = s.leaves ((z.stepFail 4).enterRescue))
    ∧ (∀ w, z.genFits = true → z.step4 = some w → (w.step5.fuseStart).hearth.minBlaze = none →
      exec (.mainResetRelease dt msel member (treeEn, true) (some p) faults rextOk rails) s
        = s.leaves ((w.step5.fuseStart).lostClips.step6 rextOk)))
  ∧ (∀ (x : State) (msel member : Nat) (treeEn : Bool), x.hearth.start.msel = none →
    (x.step2 msel member treeEn).main.out = true
      ∧ (x.step2 msel member treeEn).main.boot.member = member
      ∧ (x.step2 msel member treeEn).main.boot.msel = msel
      ∧ (x.step2 msel member treeEn).main.boot.treeEn = treeEn
      ∧ (x.step2 msel member treeEn).main.boot.cause = x.hearth.cause
      ∧ (x.step2 msel member treeEn).main.cmd.bound = (if msel = 0 then .tree else if msel = 1 then .spi else .uart)
      ∧ (x.step2 msel member treeEn).main.cmd.started = false
      ∧ (x.step2 msel member treeEn).main.nt.sec = x.hearthSec
      ∧ (x.step2 msel member treeEn).main.nt.servo = .free
      ∧ (x.step2 msel member treeEn).hearth.ps = .blaze
      ∧ (x.step2 msel member treeEn).regs = x.regs)
  ∧ (∀ (dt : Nat) (msel : BitVec 2) (member : BitVec 3) (treeEn rextOk : Bool) (ref : Option Int)
      (faults : List BankFault) (rails : List Nat) (s x : State), x = s.at dt → x.mayRelease rails = true →
    (∀ p, ref = some p → p < -200 ∨ 200 < p) →
    ∃ t, exec (.mainResetRelease dt msel member (treeEn, true) ref faults rextOk rails) s = s.leaves t
      ∧ t.main.out = true ∧ t.main.boot.stopped = true ∧ t.main.boot.failStep = 2 ∧ t.main.boot.lastStep = 1
      ∧ t.main.boot.cause = x.hearth.cause ∧ t.main.cmd = {} ∧ t.regs = x.regs
      ∧ t.hearth.restartAt = some (x.now + secT) ∧ t.hearth.seq = (x.hearth.seq + 1) % 2 ^ 32)
  ∧ (∀ (dt : Nat) (msel : BitVec 2) (member : BitVec 3) (treeEn rextOk : Bool) (ref : Option Int)
      (faults : List BankFault) (rails : List Nat) (s x : State), x = s.at dt → x.mayRelease rails = true →
    exec (.mainResetRelease dt msel member (treeEn, false) ref faults rextOk rails) s
      = s.leaves ((x.modHearth (fun h => { h with railsUp := true })).romStop {}))
  ∧ (∀ (dt : Nat) (msel : BitVec 2) (member : BitVec 3) (pins : Bool × Bool) (rextOk : Bool) (ref : Option Int)
      (faults : List BankFault) (rails : List Nat) (s x : State), x = s.at dt → x.mayRelease rails = false →
    exec (.mainResetRelease dt msel member pins ref faults rextOk rails) s = s.leaves x)
  ∧ (∀ (dt a : Nat) (s x : State), x = s.at dt → x.blocksRun → x.main.boot.ends[4]? = some (some a) →
    a + 5 * secT ≤ x.now → x.hearth.minBlaze = none → x.main.boot.local9 = false →
    exec (.step9Timeout dt) s
      = s.leaves (((x.modBoot (fun b => { b with local9 := true, localAt := x.now })).camsStart).stepEnd 9))

/-- A command packet that a transport brings whole, over SPI, in an SDU of port 0x001, or over the service UART, and that
passes every check of R85 is accepted where its tag's entry is FREE, and the entry leaves FREE; where it is not, the reply
is TAG_BUSY with the rejected command's opcode and tag, PART 0 and MORE 0, and the rejection touches nothing else (R86). -/
def Obligations.PacketsAccepted : Prop :=
  (∀ (dt : Nat) (b : List Byte) (s x y : State), x = s.at dt → x.runs → x.main.cmd.bound = .spi → y = x.wake 0x06 →
    y.takesPacket b → exec (.spiWrite dt b) s = s.leaves (y.accepted b))
  ∧ (∀ (dt : Nat) (d : DownSdu) (s x y : State), x = s.at dt → x.runs → x.main.cmd.bound = .tree →
    x.takeSdu (fun d => d.port == 1) = some (d, y) → y.main.cmd.bound = .tree → y.main.out = true →
    d.distrust = false → y.takesPacket d.bytes → exec (.mgmtSdu dt) s = s.leaves (y.accepted d.bytes))
  ∧ (∀ (dt : Nat) (b : List Byte) (s x y : State), x = s.at dt → x.runs → x.main.cmd.bound = .uart →
    x.main.cmd.uart = [] → y = x.wake 0x06 → y.takesPacket b →
    exec (.uartPacket dt b) s = s.leaves ((y.modCmd (fun c => { c with uartAt := y.now })).accepted b))
  ∧ (∀ (dt : Nat) (b : List Byte) (s x y : State), x = s.at dt → x.runs → x.main.cmd.bound = .spi → y = x.wake 0x06 →
    y.passes b → (y.opOfTag (hdrOf b).tag).isSome = true → exec (.spiWrite dt b) s
      = s.leaves (y.answered (mkPacket 1 y.self 0 (hdrOf b).opcode (hdrOf b).tag 0x0001 0 [])))
  ∧ (∀ (dt : Nat) (d : DownSdu) (s x y : State), x = s.at dt → x.runs → x.main.cmd.bound = .tree →
    x.takeSdu (fun d => d.port == 1) = some (d, y) → y.main.cmd.bound = .tree → y.main.out = true →
    d.distrust = false → y.passes d.bytes → (y.opOfTag (hdrOf d.bytes).tag).isSome = true → exec (.mgmtSdu dt) s
      = s.leaves (y.answered (mkPacket 1 y.self 0 (hdrOf d.bytes).opcode (hdrOf d.bytes).tag 0x0001 0 [])))
  ∧ (∀ (dt : Nat) (b : List Byte) (s x y : State), x = s.at dt → x.runs → x.main.cmd.bound = .uart →
    x.main.cmd.uart = [] → y = x.wake 0x06 → y.passes b → (y.opOfTag (hdrOf b).tag).isSome = true →
    exec (.uartPacket dt b) s
      = s.leaves ((y.modCmd (fun c => { c with uartAt := y.now })).answered (mkPacket 1 y.self 0 (hdrOf b).opcode (hdrOf b).tag 0x0001 0 [])))
  ∧ (∀ (x : State) (b : List Byte), ((x.accepted b).opOfTag (hdrOf b).tag).isSome = true)

/-- The checks of R85 on a packet over SPI, in their order: the count or the refusal that each failed check makes.
Where the spec leaves it open it states the model's choice: log entry 28. -/
def Obligations.PacketChecks : Prop :=
  ∀ (dt : Nat) (b : List Byte) (s x y : State), x = s.at dt → x.runs → x.main.cmd.bound = .spi → y = x.wake 0x06 →
    16 ≤ b.length → syncOk b = true → b.length = (hdrOf b).extent → y.intake + (b.length + 15) / 16 ≤ intakeLimit →
    (hcrcOk b = false → exec (.spiWrite dt b) s = s.leaves (y.count 0x000010 31 24))
    ∧ (hcrcOk b = true → (hdrOf b).kind ≠ 0 → exec (.spiWrite dt b) s = s.leaves (y.count 0x000010 7 4))
    ∧ (hcrcOk b = true → (hdrOf b).kind = 0 → y.leads = false →
      exec (.spiWrite dt b) s = s.leaves (y.refuse (hdrOf b).opcode (hdrOf b).tag 0x000B .refusal))
    ∧ (hcrcOk b = true → (hdrOf b).kind = 0 → y.leads = true → (hdrOf b).formatOk = false →
      exec (.spiWrite dt b) s = s.leaves (y.refuse (hdrOf b).opcode (hdrOf b).tag 0x0002 .refusal))
    ∧ (hcrcOk b = true → (hdrOf b).kind = 0 → y.leads = true → (hdrOf b).formatOk = true → 4096 < (hdrOf b).length →
      exec (.spiWrite dt b) s = s.leaves (y.refuse (hdrOf b).opcode (hdrOf b).tag 0x0004 .refusal))
    ∧ (hcrcOk b = true → (hdrOf b).kind = 0 → y.leads = true → (hdrOf b).formatOk = true → (hdrOf b).length ≤ 4096 →
      (hdrOf b).length ≠ 0 → field b (16 + (hdrOf b).length) 4 ≠ crc32 (bytesAt b 16 (hdrOf b).length) →
      exec (.spiWrite dt b) s = s.leaves (y.refuse (hdrOf b).opcode (hdrOf b).tag 0x0008 .refusal))
    ∧ (hcrcOk b = true → (hdrOf b).kind = 0 → y.leads = true → (hdrOf b).formatOk = true → (hdrOf b).length ≤ 4096 →
      ((hdrOf b).length ≠ 0 → field b (16 + (hdrOf b).length) 4 = crc32 (bytesAt b 16 (hdrOf b).length)) →
      (y.opOfTag (hdrOf b).tag).isSome = true →
      exec (.spiWrite dt b) s = s.leaves (y.refuse (hdrOf b).opcode (hdrOf b).tag 0x0001 .refusal))

/-- The outbound side: an SPI READ returns the next packet and removes it only when its last byte has been clocked out,
STATUS returns OUT_LEN and IN_FREE, a packet leaves the UART and the tree, a gap on UART_RXD abandons a packet, and an
alarm not acknowledged is repeated 1.024 s after its last copy left and given up after 64 repeats
(R76, R78, R81, R94, R101).
Where the spec leaves it open it states the model's choice: log entry 25. -/
def Obligations.PacketsLeave : Prop :=
  (∀ (dt clocked : Nat) (p : OutPkt) (t : List OutPkt) (s x : State), x = s.at dt → x.runs → x.main.cmd.bound = .spi →
    x.main.cmd.out = p :: t → p.bytes.length ≤ clocked →
    exec (.spiRead dt clocked) s
      = s.leaves ((x.modCmd (fun c => { c with miso := bytesAt p.bytes 0 clocked, out := t })).packetLeft p.kind))
  ∧ (∀ (dt clocked : Nat) (p : OutPkt) (t : List OutPkt) (s x : State), x = s.at dt → x.runs → x.main.cmd.bound = .spi →
    x.main.cmd.out = p :: t → clocked < p.bytes.length →
    exec (.spiRead dt clocked) s = s.leaves (x.modCmd (fun c => { c with miso := bytesAt p.bytes 0 clocked })))
  ∧ (∀ (dt clocked : Nat) (s x : State), x = s.at dt → x.runs → x.main.cmd.bound = .spi → x.main.cmd.out = [] →
    exec (.spiRead dt clocked) s = s.leaves (x.modCmd (fun c => { c with miso := List.replicate clocked 0#8 })))
  ∧ (∀ (dt : Nat) (s x : State), x = s.at dt → x.runs → x.main.cmd.bound = .spi →
    exec (.spiStatus dt) s = s.leaves (x.modCmd (fun c => { c with
      miso := be 2 ((x.main.cmd.out.head?.map (fun p => p.bytes.length)).getD 0) ++ be 2 (16384 - x.intake) })))
  ∧ (∀ (dt : Nat) (p : OutPkt) (t : List OutPkt) (s x : State), x = s.at dt → x.runs → x.main.cmd.bound = .uart →
    x.main.cmd.out = p :: t →
    exec (.packetLeft dt) s = s.leaves ((x.modCmd (fun c => { c with out := t })).packetLeft p.kind))
  ∧ (∀ (dt : Nat) (k : OutKind) (t : List OutKind) (s x : State), x = s.at dt → x.runs → x.main.cmd.bound = .tree →
    x.main.up.leaving = k :: t →
    exec (.packetLeft dt) s = s.leaves ((x.modUp (fun u => { u with leaving := t })).packetLeft k))
  ∧ (∀ (dt : Nat) (s x : State), x = s.at dt → x.runs → x.main.cmd.bound = .uart → 2 ≤ x.main.cmd.uart.length →
    syncOk x.main.cmd.uart = true → x.main.cmd.uartAt + msT < x.now →
    exec (.uartGapTimeout dt) s = s.leaves ((x.modCmd (fun c => { c with uart := [] })).count 0x000010 23 16))
  ∧ (∀ (dt : Nat) (s x : State), x = s.at dt → x.runs → x.now ≤ x.main.cmd.uartAt + msT →
    exec (.uartGapTimeout dt) s = s.leaves x)
  ∧ (∀ (num : Nat) (x : State), x.packetLeft (.notice num) = (x.modCmd (fun c => { c with
      notices := c.notices.map (fun n =>
        if n.num = num then { n with copyOut := false, leftAt := some x.now } else n) })).pumpOut)
  ∧ (∀ x : State, x.packetLeft .pool = (x.modCmd (fun c => { c with pool := c.pool - 1 })).pumpOut)
  ∧ (∀ (dt t : Nat) (num : BitVec 16) (n : Notice) (s x : State), x = s.at dt → x.runs →
    x.main.cmd.notices.find? (fun n => n.num == num.toNat && n.alarm && n.placed && !n.copyOut) = some n →
    n.leftAt = some t → t + 327680000 ≤ x.now → n.repeats < 64 →
    exec (.alarmRepeat dt num) s = s.leaves ((x.modCmd (fun c => { c with
      notices := c.notices.map (fun a => if a.num = num.toNat then
        { a with placed := false, repeats := a.repeats + 1, leftAt := none } else a) })).pumpOut))
  ∧ (∀ (dt t : Nat) (num : BitVec 16) (n : Notice) (s x : State), x = s.at dt → x.runs →
    x.main.cmd.notices.find? (fun n => n.num == num.toNat && n.alarm && n.placed && !n.copyOut) = some n →
    n.leftAt = some t → t + 327680000 ≤ x.now → 64 ≤ n.repeats →
    exec (.alarmRepeat dt num) s = s.leaves ((x.ash 0x00 0x01 (be 2 n.code ++ be 2 n.num)).dropNotice n false))

/-- Operations: an accepted command whose turn has come runs its opcode on its member, one for another member is
forwarded, and an operation without a reply for CMD_OP_LIMIT ends with TIMEOUT (R88, R89, R91, R93, R96).
Where the spec leaves it open it states the model's choice: log entries 54, 55, 56, 134. -/
def Obligations.OperationsRun : Prop :=
  (∀ (dt : Nat) (tag : BitVec 16) (e : OpEntry) (s x y : State), x = s.at dt → x.runs → y = x.wake 0x06 →
    y.opOfTag tag.toNat = some e → e.st = .queued → y.mayStart e = true → y.leadChecks e.opcode = 0 → e.all = false →
    e.opcode ≠ 0x21 → (onLead e.opcode = true ∨ e.member = y.self) → (y.quarantined = true → quarantineOk e.opcode = true) →
    exec (.commandStart dt tag) s = s.leaves ((y.modOp e.id (fun a => { a with
      st := .running, space := 0, await := [y.self] })).runOpcode e.opcode e.id e.params))
  ∧ (∀ (dt : Nat) (tag : BitVec 16) (e : OpEntry) (s x y z : State), x = s.at dt → x.runs → y = x.wake 0x06 →
    y.opOfTag tag.toNat = some e → e.st = .queued → y.mayStart e = true → y.leadChecks e.opcode = 0 → e.all = false →
    onLead e.opcode = false → e.opcode ≠ 0x21 → e.member ≠ y.self → y.named e.member = true →
    (quarantineOk e.opcode = true ∨ (y.peer e.member).quar = 0) →
    (y.modOp e.id (fun a => { a with st := .running, space := 0, await := [e.member] })).forward e e.member = some z →
    exec (.commandStart dt tag) s = s.leaves z)
  ∧ (∀ (dt : Nat) (tag : BitVec 16) (e : OpEntry) (s x y : State), x = s.at dt → x.runs → y = x.wake 0x06 →
    y.opOfTag tag.toNat = some e → e.st = .queued → y.mayStart e = true → y.leadChecks e.opcode = 0 → e.all = false →
    onLead e.opcode = false → e.member ≠ y.self → y.named e.member = false →
    exec (.commandStart dt tag) s = s.leaves ((y.modOp e.id (fun a => { a with
      st := .running, space := 0, await := [] })).memberResult e.id ⟨y.self, 0x000A, []⟩))
  ∧ (∀ (dt : Nat) (tag : BitVec 16) (e : OpEntry) (s x : State), x = s.at dt → x.runs →
    x.opOfTag tag.toNat = some e → e.st ≠ .replying → e.shadow = false → e.opcode ≠ 0x0800 → e.all = false →
    e.lastReply + x.fld 0x00000C 15 0 * secT ≤ x.now →
    exec (.opTimeout dt tag) s
      = s.leaves (((x.unsend e).withdraw e.id).memberResult e.id ⟨e.member, 0x000F, []⟩))
  ∧ (∀ (dt : Nat) (tag : BitVec 16) (e : OpEntry) (s x : State), x = s.at dt → x.runs →
    x.opOfTag tag.toNat = some e → (e.st = .replying ∨ x.now < e.lastReply + x.fld 0x00000C 15 0 * secT) →
    exec (.opTimeout dt tag) s = s.leaves x)
  ∧ (∀ (dt : Nat) (value : Word) (s x : State), x = s.at dt → x.blocksRun → x.writeStatus 0x00000C value.toNat = 0 →
    exec (.cmdOpLimitWrite dt value) s = s.leaves ((x.withReg 0x00000C value.toNat).limitChanged))

/-- The opcodes of block CMD that answer from what the member holds: NOP, GET_INFO, OP_QUERY and BOOT_REPORT
(R25, R110, R111, R154). -/
def Obligations.CmdOpcodesAnswer : Prop :=
  (∀ (dt : Nat) (tag : BitVec 16) (s x : State), s.willRun dt 0x0001 tag.toNat [] → x = s.asked dt 0x0001 tag.toNat [] →
    exec (.nop dt tag []) s = s.replies x 0 [])
  ∧ (∀ (dt : Nat) (tag : BitVec 16) (s x : State), s.willRun dt 0x0002 tag.toNat [] →
    x = s.asked dt 0x0002 tag.toNat [] →
    exec (.getInfo dt tag []) s = s.replies x 0
      (be 4 chipIdWord ++ be 4 x.strapsWord ++ be 4 x.main.boot.fw ++ be 8 x.termSerial ++ be 8 ownSerial))
  ∧ (∀ (dt : Nat) (tag : BitVec 16) (p : List Byte) (e : OpEntry) (s x : State), s.willRun dt 0x0020 tag.toNat p →
    x = s.asked dt 0x0020 tag.toNat p → p.length = 2 → x.entryOfTag (field p 0 2) = some e →
    exec (.opQuery dt tag p) s = s.replies x 0
      ([byte (x.opState e).code, byte e.member] ++ be 2 e.opcode ++ be 4 (sat 0xFFFFFFFF ((x.now - e.accepted) / msT))))
  ∧ (∀ (dt : Nat) (tag : BitVec 16) (p : List Byte) (s x : State), s.willRun dt 0x0020 tag.toNat p →
    x = s.asked dt 0x0020 tag.toNat p → p.length = 2 → x.entryOfTag (field p 0 2) = none →
    exec (.opQuery dt tag p) s = s.replies x 0x0016 [])
  ∧ (∀ (dt : Nat) (tag : BitVec 16) (s x : State), s.willRun dt 0x0046 tag.toNat [] →
    x = s.asked dt 0x0046 tag.toNat [] →
    exec (.bootReport dt tag []) s = s.replies x 0 (x.main.boot.ends.flatMap (fun e =>
      be 4 ((e.map (fun t => sat 0xFFFFFFFF ((t - x.hearth.penRise) / usT))).getD 0xFFFFFFFF))))

/-- Registers read, written and modified by the master: words in ascending order, a write up to the first word that is
refused, whose index the reply gives (R105, R106, R107).
Where the spec leaves it open it states the model's choice: log entry 116. -/
def Obligations.RegisterOpcodes : Prop :=
  (∀ (dt : Nat) (tag : BitVec 16) (p : List Byte) (s x : State), s.willRun dt 0x0010 tag.toNat p →
    x = s.asked dt 0x0010 tag.toNat p → p.length = 6 → field p 0 4 % 4 = 0 → 1 ≤ field p 4 2 → field p 4 2 ≤ 1024 →
    field p 0 4 + 4 * (field p 4 2 - 1) ≤ 0xFFFFFC →
    exec (.regRead dt tag p) s = s.leaves
      ((x.readRegs (field p 0 4) (field p 4 2)).2.finish x.lastOp 0 (x.readRegs (field p 0 4) (field p 4 2)).1))
  ∧ (∀ (dt : Nat) (tag : BitVec 16) (p : List Byte) (i st : Nat) (s x y : State), s.willRun dt 0x0011 tag.toNat p →
    x = s.asked dt 0x0011 tag.toNat p → 1 ≤ field p 4 2 → field p 4 2 ≤ 1022 → p.length = 6 + 4 * field p 4 2 →
    field p 0 4 % 4 = 0 → field p 0 4 + 4 * (field p 4 2 - 1) ≤ 0xFFFFFC →
    (x.quarantined = true → guarded (field p 0 4) (field p 4 2) = false) →
    x.writeRegs (field p 0 4) 0 (wordsOf (field p 4 2) (p.drop 6)) = (y, i, st) →
    exec (.regWrite dt tag p) s = s.leaves (y.finish x.lastOp st (if st = 0 then [] else be 2 i)))
  ∧ (∀ (dt : Nat) (tag : BitVec 16) (p : List Byte) (st prev w1c : Nat) (s x y : State),
    s.willRun dt 0x0012 tag.toNat p → x = s.asked dt 0x0012 tag.toNat p → p.length = 12 → field p 0 4 % 4 = 0 →
    field p 0 4 ≤ 0xFFFFFC → (x.quarantined = true → guarded (field p 0 4) 1 = false) →
    prev = x.regValue (field p 0 4) →
    w1c = ((regFields (field p 0 4)).filter (fun f => f.acc == .w1c)).foldl (fun m f => Nat.lor m f.mask) 0 →
    x.writeReg (field p 0 4) (Nat.lor
      (Nat.land (Nat.land prev (Nat.xor w1c 0xFFFFFFFF)) (Nat.xor (field p 4 4) 0xFFFFFFFF))
      (Nat.land (field p 8 4) (field p 4 4))) = (y, st) →
    exec (.regModify dt tag p) s = s.leaves (y.finish x.lastOp st (be 4 prev)))

/-- CANCEL ends an operation that has not begun with CANCELLED and leaves one that has; NOTICE_ACK takes an alarm from
the notice store and clears its held entry; RESET_MAIN resets the main domain once its reply has left (R101, R110,
R113, R183).
Where the spec leaves it open it states the model's choice: log entry 53. -/
def Obligations.CmdOpcodesAct : Prop :=
  (∀ (dt : Nat) (tag : BitVec 16) (p : List Byte) (e : OpEntry) (s x : State), s.willRun dt 0x0021 tag.toNat p →
    x = s.asked dt 0x0021 tag.toNat p → p.length = 2 → x.opOfTag (field p 0 2) = some e →
    x.opState e = .queued →
    exec (.cancel dt tag p) s = s.leaves (((x.unsend e).memberResult e.id ⟨x.self, 0x0012, []⟩).memberResult x.lastOp
      ⟨x.self, 0, [0#8]⟩))
  ∧ (∀ (dt : Nat) (tag : BitVec 16) (p : List Byte) (e : OpEntry) (s x : State), s.willRun dt 0x0021 tag.toNat p →
    x = s.asked dt 0x0021 tag.toNat p → p.length = 2 → x.opOfTag (field p 0 2) = some e →
    x.opState e ≠ .queued →
    exec (.cancel dt tag p) s = s.leaves (x.memberResult x.lastOp ⟨x.self, 0, [1#8]⟩))
  ∧ (∀ (dt : Nat) (tag : BitVec 16) (p : List Byte) (s x : State), s.willRun dt 0x0021 tag.toNat p →
    x = s.asked dt 0x0021 tag.toNat p → p.length = 2 → x.opOfTag (field p 0 2) = none →
    exec (.cancel dt tag p) s = s.leaves (x.memberResult x.lastOp ⟨x.self, 0x0016, []⟩))
  ∧ (∀ (dt : Nat) (tag : BitVec 16) (p : List Byte) (n : Notice) (s x : State), s.willRun dt 0x0030 tag.toNat p →
    x = s.asked dt 0x0030 tag.toNat p → p.length = 2 →
    x.main.cmd.notices.find? (fun n => n.num == field p 0 2 && n.alarm) = some n → n.member = x.self →
    exec (.noticeAck dt tag p) s = s.leaves ((x.dropNotice n true).chimneyAcked.finish x.lastOp 0 []))
  ∧ (∀ (dt i : Nat) (tag : BitVec 16) (p : List Byte) (n : Notice) (s x : State), s.willRun dt 0x0030 tag.toNat p →
    x = s.asked dt 0x0030 tag.toNat p → p.length = 2 →
    x.main.cmd.notices.find? (fun n => n.num == field p 0 2 && n.alarm) = some n → n.member ≠ x.self →
    noticeSource n = some i → x.main.sk.formed = true →
    exec (.noticeAck dt tag p) s = s.leaves (((x.dropNotice n true).chimneyAcked.sendMsg 0 n.member 0x0B 0
      ([2#8] ++ be 1 i)).finish x.lastOp 0 []))
  ∧ (∀ (dt : Nat) (tag : BitVec 16) (p : List Byte) (s x : State), s.willRun dt 0x0050 tag.toNat p →
    x = s.asked dt 0x0050 tag.toNat p → p.length = 2 → field p 0 2 = 0x5A3C →
    exec (.resetMain dt tag p) s
      = s.leaves ((x.finish x.lastOp 0 []).modBoot (fun b => { b with resetWait := some x.lastOp })))

/-- The image opcodes: an erase or a write of the slot that is not running is handed to the flash, IMG_VERIFY and
IMG_ACTIVATE make the full check, and IMG_COMMIT writes COMMITTED for an image on trial (R135 to R137, R154 to R156).
Where the spec leaves it open it states the model's choice: log entries 11, 131. -/
def Obligations.ImageOpcodes : Prop :=
  (∀ (dt : Nat) (tag : BitVec 16) (b : List Byte) (i : Nat) (s x : State), s.willRun dt 0x0040 tag.toNat [] →
    x = s.asked dt 0x0040 tag.toNat [] → x.bootTaken = some b → x.main.boot.slot = some i →
    field (x.imgHeader 0) 0 4 = 0x43564657 → field (x.imgHeader 1) 0 4 = 0x43564657 →
    exec (.imgStatus dt tag []) s = s.leaves (({ x with freeIdx := x.freeIdx + 17 }).finish x.lastOp 0
      ((bytesAt (x.imgHeader 0) 8 12 ++ bytesAt (x.imgHeader 0) 32 32)
        ++ (bytesAt (x.imgHeader 1) 8 12 ++ bytesAt (x.imgHeader 1) 32 32)
        ++ b ++ [byte x.minSec, byte i, byte x.hearth.start.trialCount])))
  ∧ (∀ (dt : Nat) (tag : BitVec 16) (p : List Byte) (s x : State), s.willRun dt 0x0041 tag.toNat p →
    x = s.asked dt 0x0041 tag.toNat p → p.length = 1 → field p 0 1 ≤ 1 → x.hearth.onReserve = false →
    x.main.boot.slot ≠ some (field p 0 1) →
    exec (.imgErase dt tag p) s = s.leaves (x.flashAsk (.imgErase x.lastOp (field p 0 1))))
  ∧ (∀ (dt : Nat) (tag : BitVec 16) (p : List Byte) (s x : State), s.willRun dt 0x0042 tag.toNat p →
    x = s.asked dt 0x0042 tag.toNat p → 7 ≤ p.length → field p 0 1 ≤ 1 → field p 1 1 = 0 →
    field p 2 4 + (p.length - 6) ≤ 0x100000 → x.hearth.onReserve = false → x.main.boot.slot ≠ some (field p 0 1) →
    exec (.imgWrite dt tag p) s
      = s.leaves (x.flashAsk (.imgWrite x.lastOp (field p 0 1) (field p 2 4) (p.drop 6))))
  ∧ (∀ (dt : Nat) (tag : BitVec 16) (p : List Byte) (s x : State), s.willRun dt 0x0043 tag.toNat p →
    x = s.asked dt 0x0043 tag.toNat p → p.length = 1 → field p 0 1 ≤ 1 →
    exec (.imgVerify dt tag p) s = if x.imgCheck (field p 0 1) = 0 then s.leaves
        ((x.recordDigest (field p 0 1) (bytesAt (x.imgHeader (field p 0 1)) 32 32)).finish x.lastOp 0 [])
      else s.replies x (x.imgCheck (field p 0 1)) [])
  ∧ (∀ (dt : Nat) (tag : BitVec 16) (p : List Byte) (s x y : State), s.willRun dt 0x0044 tag.toNat p →
    x = s.asked dt 0x0044 tag.toNat p → p.length = 3 → field p 0 1 ≤ 1 → field p 1 1 ≤ 1 → field p 2 1 = 1 →
    x.main.boot.slot ≠ some (field p 0 1) →
    y = x.recordDigest (field p 0 1) (bytesAt (x.imgHeader (field p 0 1)) 32 32) →
    exec (.imgActivate dt tag p) s = if x.imgCheck (field p 0 1) = 0 then
        s.leaves ((y.modHearth (fun h => { h with start := { h.start with trialCount := 0 } })).flashAsk
          (.bootRecord (some x.lastOp) (field p 0 1) 1 (if field p 1 1 = 1 then 2 else 0)))
      else s.replies x (x.imgCheck (field p 0 1)) [])
  ∧ (∀ (dt i : Nat) (tag : BitVec 16) (s x : State), s.willRun dt 0x0045 tag.toNat [] →
    x = s.asked dt 0x0045 tag.toNat [] → x.main.boot.trial = true → x.main.boot.committed = false → x.main.boot.slot = some i →
    exec (.imgCommit dt tag []) s
      = s.leaves ((x.modHearth (fun h => { h with start := { h.start with trialCount := 0 } })).flashAsk
          (.bootRecord (some x.lastOp) i 0 1)))
  ∧ (∀ (dt : Nat) (tag : BitVec 16) (s x : State), s.willRun dt 0x0045 tag.toNat [] →
    x = s.asked dt 0x0045 tag.toNat [] → (x.main.boot.trial = false ∨ x.main.boot.committed = true) →
    exec (.imgCommit dt tag []) s = s.replies x 0x000E [])

/-- A flash operation ends: an erased slot reads 0xFF, a write programs bytes, a boot record is written to the copy not
taken, and the replies that waited for it follow (R133, R147, R154, R156).
Where the spec leaves it open it states the model's choice: log entries 8, 10. -/
def Obligations.FlashOperationsEnd : Prop :=
  (∀ (dt id slot : Nat) (s x : State), x = s.at dt → x.runs →
    x.main.boot.flashOp = some (.imgErase id slot) →
    (x.flashEffect (.imgErase id slot) true).main.out = true →
    (x.flashEffect (.imgErase id slot) true).main.ash.trigger = none →
    exec (.flashOperationDone dt true) s
      = s.leaves ((({ x.modBoot (fun b => { b with flashOp := none }) with
          flash := flashErase x.flash (0x10000 + slot * 0x100000) 0x100000 }).finish id 0 []).flashPump))
  ∧ (∀ (dt id slot : Nat) (s x : State), x = s.at dt → x.runs →
    x.main.boot.flashOp = some (.imgErase id slot) →
    (x.flashEffect (.imgErase id slot) false).main.out = true →
    (x.flashEffect (.imgErase id slot) false).main.ash.trigger = none →
    exec (.flashOperationDone dt false) s = s.leaves ((((x.modBoot (fun b => { b with flashOp := none })).flashCut
      (.imgErase id slot)).finish id 0x0105 []).flashPump))
  ∧ (∀ (dt id slot off : Nat) (d : List Byte) (s x : State), x = s.at dt → x.runs →
    x.main.boot.flashOp = some (.imgWrite id slot off d) →
    (x.flashEffect (.imgWrite id slot off d) true).main.out = true →
    (x.flashEffect (.imgWrite id slot off d) true).main.ash.trigger = none →
    nor (x.flashRead (0x10000 + slot * 0x100000 + off) d.length) d = d →
    exec (.flashOperationDone dt true) s
      = s.leaves ((({ x.modBoot (fun b => { b with flashOp := none }) with
          flash := flashWrite x.flash (0x10000 + slot * 0x100000 + off) d }).finish id 0 []).flashPump))
  ∧ (∀ (dt id pref st : Nat) (r : List Byte) (s x : State), x = s.at dt → x.runs →
    x.main.boot.flashOp = some (.bootRecord (some id) pref st 0) →
    r = be 4 0x43564252 ++ be 4 x.bootNextSeq ++ [byte pref, byte st] ++ be 2 0 →
    (x.flashEffect (.bootRecord (some id) pref st 0) true).main.out = true →
    (x.flashEffect (.bootRecord (some id) pref st 0) true).main.ash.trigger = none →
    exec (.flashOperationDone dt true) s
      = s.leaves ((({ x.modBoot (fun b => { b with flashOp := none }) with
          flash := flashWrite (flashErase x.flash (0x1000 * x.bootWriteCopy) 0x1000) (0x1000 * x.bootWriteCopy)
            (r ++ be 4 (crc32 r)) }).finish id 0 []).flashPump))
  ∧ (∀ x : State, x.bootCopy = some 0 → x.bootWriteCopy = 1)
  ∧ (∀ x : State, x.bootCopy = some 1 → x.bootWriteCopy = 0)
  ∧ (∀ (x : State) (b : List Byte), x.bootTaken = some b → x.bootNextSeq = (field b 4 4 + 1) % 2 ^ 32)

/-- The flash: an erased range reads 0xFF and a programmed range reads what was programmed, every other byte reads as
before, and the canonical form is kept (R131, R147).
Where the spec leaves it open it states the model's choice: log entry 13. -/
def Obligations.FlashReads : Prop :=
  (∀ (m : List Host.Cell) (a n b : Nat), flashWf m = true →
    flashGet (flashErase m a n) b = (if a ≤ b ∧ b < a + n then 0xFF#8 else flashGet m b))
  ∧ (∀ (m : List Host.Cell) (a b : Nat) (l : List Byte), flashWf m = true →
    flashGet (flashWrite m a l) b = (if a ≤ b ∧ b < a + l.length then l.getD (b - a) 0 else flashGet m b))
  ∧ (∀ (m : List Host.Cell) (a n : Nat) (l : List Byte), flashWf m = true →
    flashWf (flashErase m a n) = true ∧ flashWf (flashWrite m a l) = true)

/-- The Hearth's supplies: either at 2.5 V or above starts the Hearth, the supply drawn below 2.2 V resets it and
everything it holds, and it draws VBAT whenever VDD_AON is below 2.9 V; where both cross 2.9 V at once the switch is held
up for 1 ms, or until the supply drawn is below 2.5 V (R48, R49, R64, R194).
Where the spec leaves it open it states the model's choice: log entries 14, 15. -/
def Obligations.HearthSupplies : Prop :=
  (∀ (dt aon vbat : Nat) (s x : State), x = s.at dt → x.hearth.running = false → 2500 ≤ aon ∨ 2500 ≤ vbat →
    exec (.hearthStart dt aon vbat) s = .next { x with
      regs := x.regs.filter (fun p => p.1 / 0x10000 != 0x01)
      main := .cold
      hearth := (if x.hearth.psuOk then (freshHearth x.hearth true aon vbat).penRises x.now
        else freshHearth x.hearth true aon vbat) })
  ∧ (∀ (dt aon vbat : Nat) (s x : State), x = s.at dt → x.hearth.running = true ∨ (aon < 2500 ∧ vbat < 2500) →
    exec (.hearthStart dt aon vbat) s = s.leaves x)
  ∧ (∀ (dt aon vbat : Nat) (s x y : State), x = s.at dt → x.hearth.running = true → y = x.supplySwitch aon vbat →
    (if y.drawsVbat then vbat else aon) < 2200 →
    ∃ t, exec (.hearthReset dt aon vbat) s = .next t ∧ t.regs = [] ∧ t.main = .cold
      ∧ t.hearth = freshHearth y.hearth false aon vbat ∧ t.pulses = List.replicate 16 none
      ∧ t.minSec = x.minSec ∧ t.pending = x.pending)
  ∧ (∀ (dt aon vbat : Nat) (s x y : State), x = s.at dt → x.hearth.running = true → y = x.supplySwitch aon vbat →
    2200 ≤ (if y.drawsVbat then vbat else aon) → exec (.hearthReset dt aon vbat) s = s.leaves y)
  ∧ (∀ (h : Hearth) (r : Bool) (aon vbat : Nat), (freshHearth h r aon vbat).time = 0
      ∧ (freshHearth h r aon vbat).ring = [] ∧ (freshHearth h r aon vbat).cause = 0x01
      ∧ (∀ k ∈ (freshHearth h r aon vbat).keys, k.dir = 0) ∧ (freshHearth h r aon vbat).psuOk = h.psuOk)
  ∧ (∀ (dt aon vbat : Nat) (s x : State), x = s.at dt → x.hearth.running = true → x.supplyHeld = false →
    ((x.hearth.aonMv < 2900 ↔ aon < 2900) ∨ (x.hearth.vbatMv < 2900 ↔ vbat < 2900)) →
    exec (.supplySwitch dt aon vbat) s = s.leaves (x.modHearth (fun h => { h with
      aonMv := aon, vbatMv := vbat, onVbat := decide (aon < 2900), supHold := false, otherSince := none })))
  ∧ (∀ (dt aon vbat : Nat) (s x : State), x = s.at dt → x.hearth.running = true → x.supplyHeld = true →
    2500 ≤ (if x.drawsVbat then vbat else aon) → (if x.drawsVbat then aon else vbat) < 2900 →
    exec (.supplySwitch dt aon vbat) s = s.leaves (x.modHearth (fun h => { h with
      aonMv := aon, vbatMv := vbat, onVbat := x.drawsVbat, supHold := true, otherSince := none })))
  ∧ (∀ (dt aon vbat : Nat) (s x : State), x = s.at dt → x.hearth.running = true →
    (if x.drawsVbat then vbat else aon) < 2500 → 2900 ≤ (if x.drawsVbat then aon else vbat) →
    exec (.supplySwitch dt aon vbat) s = s.leaves (x.modHearth (fun h => { h with
      aonMv := aon, vbatMv := vbat, onVbat := decide (aon < 2900), supHold := false, otherSince := none })))

/-- Hearth time is aligned to network time, no more than once every 64 s and in Blaze alone, and TRIM takes the rate
between two alignments (R160).
Where the spec leaves it open it states the model's choice: log entry 4. -/
def Obligations.HearthTime : Prop :=
  (∀ (dt : Nat) (s x : State), x = s.at dt → x.blocksRun → x.blazing = true → x.ntValid = true →
    x.main.sk.timeLoose = false → x.hearth.aligned = none →
    exec (.hearthAlign dt) s = s.leaves (x.modHearth (fun h => { h with
      time := x.main.nt.sec * 2 ^ 41 + x.main.nt.ns * 32768 / 1000000000 * 2 ^ 26
      aligned := some (x.now, x.main.nt.totalNs, h.cycles)
      stepped := (x.now, h.time) })))
  ∧ (∀ (dt t n0 c0 : Nat) (s x : State), x = s.at dt → x.blocksRun → x.blazing = true → x.ntValid = true →
    x.main.sk.timeLoose = false → x.hearth.aligned = some (t, n0, c0) → t + 64 * secT ≤ x.now →
    c0 < x.hearth.cycles → n0 < x.main.nt.totalNs →
    exec (.hearthAlign dt) s = s.leaves ((x.modHearth (fun h => { h with
      time := x.main.nt.sec * 2 ^ 41 + x.main.nt.ns * 32768 / 1000000000 * 2 ^ 26
      aligned := some (x.now, x.main.nt.totalNs, h.cycles)
      stepped := (x.now, h.time) })).setFld 0x010010 15 0
        (ofSigned 16 (trimFor (x.main.nt.totalNs - n0) (x.hearth.cycles - c0)))))
  ∧ (∀ (dt : Nat) (s x : State), x = s.at dt → x.blocksRun →
    (x.blazing = false ∨ x.ntValid = false ∨ ∃ t n0 c0, x.hearth.aligned = some (t, n0, c0) ∧ x.now < t + 64 * secT) →
    exec (.hearthAlign dt) s = s.leaves x)

/-- The wake timer fires exactly when Hearth time is equal to or later than HRT_WAKE_SEC and FRAC while EN is 1, the low 32
bits of the seconds compared under sdiff_32. Firing clears EN; it wakes the chip, and from Ember it starts it (R162). -/
def Obligations.WakeTimerFires : Prop :=
  ∀ (dt : Nat) (d : Int) (s x y : State), x = s.at dt → x.hearth.running = true →
    d = sdiff 32 (x.hearthSec % 2 ^ 32) (x.word 0x010014) → y = x.setFld 0x010018 31 31 0 →
    (x.bit 0x010018 31 = true → (0 < d ∨ d = 0 ∧ x.fld 0x010018 14 0 ≤ x.hearthFrac) → x.hearth.pen = true →
      exec (.wakeTimer dt) s = s.leaves (y.wake 0x02))
    ∧ (x.bit 0x010018 31 = true → (0 < d ∨ d = 0 ∧ x.fld 0x010018 14 0 ≤ x.hearthFrac) → x.hearth.pen = false →
      exec (.wakeTimer dt) s = s.leaves (if x.hearth.lockout then y else y.modHearth (fun h => { h.penRises x.now with
        wakeSrc := 0x02
        onReserve := !h.psuOk
        retryAt := none
        cause := if h.cause = 0x01 then 0x01 else 0x03 })))
    ∧ ((x.bit 0x010018 31 = false ∨ d < 0 ∨ d = 0 ∧ x.hearthFrac < x.fld 0x010018 14 0) →
      exec (.wakeTimer dt) s = s.leaves x)

/-- Tamper inputs and mesh pairs: an event on an enabled source that is not already active sets its latch and takes
the actions of its configuration, in the order of R164; an input that returns, and a pair re-armed, only become
inactive, and the LFSRs are reseeded to numbers other than 0 and run on from there (R163 to R166, R182).
Where the spec leaves it open it states the model's choice: log entries 9, 30, 133. -/
def Obligations.TamperAndMesh : Prop :=
  (∀ (dt i : Nat) (code : BitVec 10) (s x : State), x = s.at dt → i < 8 → x.hearth.running = true →
    bits (x.word (0x010020 + 4 * i)) 9 8 ≠ 0 → x.hearth.tampNow[i]? = some false →
    exec (.tamperActive dt i code) s
      = s.leaves (((x.modHearth (fun h => { h with tampNow := h.tampNow.set i true })).latchFld 0x010048 (16 + i) (16 + i) 1
          ).tamperActs i 0 code.toNat (actionsOf (x.word (0x010020 + 4 * i)))))
  ∧ (∀ (dt n : Nat) (l : List Bool) (code : BitVec 10) (s x : State), x = s.at dt → n < 2 → x.hearth.running = true →
    bitOf (x.word (0x010040 + 4 * n)) 31 = true → x.hearth.meshBroken[n]? = some false →
    exec (.meshBreak dt n l code) s
      = s.leaves (((x.modHearth (fun h => { h with meshBroken := h.meshBroken.set n true })).latchFld 0x010048
          (24 + n) (24 + n) 1).tamperActs (8 + n) (meshKind l) code.toNat (actionsOf (x.word (0x010040 + 4 * n)))))
  ∧ (∀ (x y z w : State) (source kind code : Nat) (a : Actions),
    y = (if a.record then x.ashHearth 0x01 (if source < 8 then 1 else 2) (x.tamperContents source kind a.zeroise) else x) →
    z = (if a.zeroise then y.zeroise (if source < 8 then 0 else 1) (if source < 8 then source else source - 8) else y) →
    z.stoker = true → z.hearth.minBlaze = none → w = (if a.wake then z.wake 0x03 else z) →
    x.tamperActs source kind code a = w.raise {
      code := heldCode source, member := w.self, alarm := a.alarm,
      bytes := w.noticeBytes (heldCode source) (x.tamperContents source kind a.zeroise),
      ev := { time := w.eventTime, zeroised := a.zeroise } })
  ∧ (∀ (x y : State) (source kind code : Nat) (a : Actions), x.stoker = false → a.zeroise = false →
    y = (if a.record then x.ashHearth 0x01 (if source < 8 then 1 else 2) (x.tamperContents source kind false) else x) →
    y.stoker = false → y.hearth.pen = false → a.wake = false →
    x.tamperActs source kind code a = y.hold source 1 kind)
  ∧ (∀ (x y : State) (source kind code : Nat) (a : Actions), a.zeroise = false →
    y = (if a.record then x.ashHearth 0x01 (if source < 8 then 1 else 2) (x.tamperContents source kind false) else x) →
    y.stoker = false → y.hearth.pen = false → a.wake = true →
    x.tamperActs source kind code a = y.backupAlarm source kind 0 code)
  ∧ (∀ (dt i : Nat) (s x : State), x = s.at dt →
    exec (.tamperInactive dt i) s = s.leaves (x.modHearth (fun h => { h with tampNow := h.tampNow.set i false })))
  ∧ (∀ (dt n : Nat) (s x : State), x = s.at dt →
    exec (.meshRearm dt n) s = s.leaves (x.modHearth (fun h => { h with meshBroken := h.meshBroken.set n false })))
  ∧ (∀ (dt : Nat) (s x : State), x = s.at dt → x.blocksRun → x.hearth.ps = .blaze →
    ∃ a b, 1 ≤ a ∧ a ≤ 65535 ∧ 1 ≤ b ∧ b ≤ 65535 ∧ exec (.meshReseed dt) s
      = s.leaves { x with
          freeIdx := x.freeIdx + 2, hearth := { x.hearth with lfsr := [a, b], lfsrAt := x.hearth.cycles } })
  ∧ (∀ v, 1 ≤ v → v ≤ 65535 → 1 ≤ lfsrStep v ∧ lfsrStep v ≤ 65535)

/-- An alarm on the backup cell: the reserve is measured; with too little energy, or on a member that was not lead,
the alarm is held, else PEN_MAIN rises for a minimal Blaze (R179, R182).
Where the spec leaves it open it states the model's choice: log entries 52, 132. -/
def Obligations.AlarmOnBackupCell : Prop :=
  (∀ (x y : State) (source kind flags code : Nat), x.hearth.start.lead = true → x.hearth.lockout = false →
    ¬ (x.hearth.start.msel = some 0 ∧ x.keysEmpty = true) → x.hearth.resFault = false →
    100 * x.fld 0x01005C 7 0 ≤ x.energyOf code → y = x.backupAlarm source kind flags code →
    y.hearth.pen = true ∧ y.hearth.penRise = x.now ∧ y.hearth.minBlaze = some source ∧ y.hearth.cause = 0x03
      ∧ y.hearth.resCode = code ∧ y.hearth.resE = x.energyOf code)
  ∧ (∀ (x y : State) (source kind flags code : Nat),
    (x.hearth.resFault = true ∧ 0 < x.fld 0x01005C 7 0 ∨ x.energyOf code < 100 * x.fld 0x01005C 7 0
      ∨ x.hearth.start.lead = false ∨ x.hearth.start.msel = some 0 ∧ x.keysEmpty = true) →
    y = x.backupAlarm source kind flags code →
    y.hearth.pen = x.hearth.pen ∧ y.hearth.minBlaze = x.hearth.minBlaze ∧ y.hearth.resCode = code)
  ∧ (∀ (x y : State) (source flags kind : Nat) (e : Held), x.hearth.held[source]? = some e →
    y = x.hold source flags kind → ∃ f, y.hearth.held[source]? = some f ∧ f.count = sat 0xFFFF (e.count + 1)
      ∧ f.flags = Nat.lor e.flags flags ∧ f.last = x.eventTime ∧ f.kind = kind ∧ f.reserve = x.hearth.resCode
      ∧ f.first = (if e.count = 0 then x.eventTime else e.first))

/-- The cell, the crystal and the reserve: each measurement is kept, two in a row below LOW report it, a stopped
crystal is recorded and reported, and a reserve sample sets the code and the estimate and empties what was admitted
(R69, R167, R168, R190, R384).
Where the spec leaves it open it states the model's choice: log entries 4, 27. -/
def Obligations.HearthMonitors : Prop :=
  (∀ (dt : Nat) (code : BitVec 8) (s x : State), x = s.at dt → x.hearth.running = true → x.hearth.cellLow = false →
    x.hearth.cellAbsent = false → x.fld 0x01004C 23 16 ≤ code.toNat → 50 ≤ code.toNat →
    exec (.cellMeasure dt code) s
      = s.leaves (x.modHearth (fun h => { h with cellCode := code.toNat, cellRun := 0 })))
  ∧ (∀ (dt : Nat) (code : BitVec 8) (s x : State), x = s.at dt → x.hearth.running = true → x.hearth.cellLow = false →
    x.hearth.cellAbsent = false → code.toNat < x.fld 0x01004C 23 16 → 50 ≤ code.toNat → x.hearth.cellRun = 0 →
    exec (.cellMeasure dt code) s
      = s.leaves (x.modHearth (fun h => { h with cellCode := code.toNat, cellRun := 1 })))
  ∧ (∀ (dt : Nat) (code : BitVec 8) (s x y : State), x = s.at dt → x.hearth.running = true → x.hearth.cellLow = false →
    x.hearth.cellAbsent = false → code.toNat < x.fld 0x01004C 23 16 → 50 ≤ code.toNat → x.hearth.cellRun = 1 → x.stoker = true →
    y = (x.modHearth (fun h => { h with cellCode := code.toNat, cellLow := true, cellRun := 0 })).ashHearth 0x01 0x05
      [0#8, byte code.toNat] →
    exec (.cellMeasure dt code) s = s.leaves ((y.wake 0x0D).notify 0x0103 false [byte code.toNat]))
  ∧ (∀ (dt : Nat) (s x y : State), x = s.at dt → x.hearth.running = true → x.hearth.xtalFault = false →
    x.stoker = true →
    y = (x.modHearth (fun h => { h with xtalFault := true, xtalSec := x.hearthSec })).ashHearth 0x01 0x04
      ([1#8] ++ be 2 0) →
    exec (.xtalStop dt) s = s.leaves (((y.wake 0x0D).notify 0x0105 false (be 6 x.hearthSec)).clampWake))
  ∧ (∀ (dt : Nat) (s x y : State), x = s.at dt → x.hearth.running = true → x.hearth.xtalFault = false →
    x.stoker = false →
    y = (x.modHearth (fun h => { h with xtalFault := true, xtalSec := x.hearthSec })).ashHearth 0x01 0x04
      ([1#8] ++ be 2 0) → exec (.xtalStop dt) s = s.leaves (y.hold 11 1 0))
  ∧ (∀ (dt : Nat) (s x : State), x = s.at dt → x.hearth.running = true → x.hearth.xtalFault = true →
    exec (.crystalRunningAgain dt) s = s.leaves ((x.modHearth (fun h => { h with xtalFault := false })).ashHearth
      0x01 0x04 ([2#8] ++ be 2 0)))
  ∧ (∀ (dt : Nat) (code : BitVec 10) (s x y : State), x = s.at dt → x.hearth.pen = true → x.hearth.psuOk = true →
    code ≠ 0 →
    y = (x.modHearth (fun h => { h with resCode := code.toNat, resFault := false, resE := x.energyOf code.toNat })).modUp
      (fun u => { u with admitted := 0 }) → y.hardFloor = false →
    exec (.reserveSample dt code) s = s.leaves y.flashPump)
  ∧ (∀ (x : State) (code : Nat), code ≤ x.fld 0x010054 9 0 → x.energyOf code = 0)

/-- The loss of the supply and its return: the chip goes on on the reserve, reports POWER_LOST and wakes; when PSU_OK
rises again the ride ends, and from Ember the chip starts (R175, R176, R178).
Where the spec leaves it open it states the model's choice: log entry 50. -/
def Obligations.SupplyLostAndBack : Prop :=
  (∀ (dt : Nat) (s x y : State), x = s.at dt → x.hearth.psuOk = true → x.hearth.running = true → x.stoker = true →
    y = (x.modHearth (fun h => { h with
      psuOk := false, onReserve := true, psuFell := some x.now, lockoutLow := h.lockout })).wake 0x05 →
    exec (.psuOkFall dt) s = s.leaves (((y.modUp (fun u => { u with declineRun := false })).notify 0x0106 false
      (be 2 x.hearth.resCode ++ be 4 x.hearth.resE)).flushOnReserve))
  ∧ (∀ (dt : Nat) (s x : State), x = s.at dt → x.hearth.psuOk = true → x.hearth.running = true → x.stoker = false →
    exec (.psuOkFall dt) s = s.leaves (x.modHearth (fun h => { h with
      psuOk := false, onReserve := true, psuFell := some x.now, lockoutLow := h.lockout })))
  ∧ (∀ (dt : Nat) (s x : State), x = s.at dt → x.hearth.psuOk = false → x.main.out = false → x.hearth.pen = false →
    x.hearth.lockout = false → x.hearth.running = true →
    exec (.psuOkRise dt) s = .next (x.modHearth (fun h => { h.penRises x.now with
      psuOk := true, onReserve := false, psuFell := none, lockoutLow := false, lockout := false
      minBlaze := none, minMore := [], retryAt := none, wakeSrc := 0x04
      cause := if h.cause = 0x01 then 0x01 else 0x02 })))
  ∧ (∀ (dt : Nat) (s x : State), x = s.at dt → x.hearth.psuOk = false → x.hearth.running = true → x.stoker = true →
    x.hearth.minBlaze = none → x.hearth.lockout = false →
    exec (.psuOkRise dt) s = s.leaves (((x.modHearth (fun h => { h with
      psuOk := true, onReserve := false, psuFell := none, lockoutLow := false, lockout := false })).modAsh
        (fun a => { a with flushDue := none, awaitMains := false })).flashPump))
  ∧ (∀ (dt : Nat) (s x : State), x = s.at dt → x.hearth.running = false →
    exec (.psuOkRise dt) s = s.leaves (x.modHearth (fun h => { h with psuOk := true }))
      ∧ exec (.psuOkFall dt) s = s.leaves (x.modHearth (fun h => { h with psuOk := false })))

/-- Ember: the ride over, or a minimal Blaze at its limit, PEN_MAIN falls, everything outside the Hearth is lost, and
the alarms still pending are in the held alarms (R119, R177, R179).
Where the spec leaves it open it states the model's choice: log entry 51. -/
def Obligations.EmberEntered : Prop :=
  (∀ (dt : Nat) (s x y : State), x = s.at dt → x.hearth.pen = true → x.hearth.onReserve = true →
    x.hearth.minBlaze = none → x.rideOver = true → x.main.out = true → y = x.saveStart.holdPending →
    exec (.emberEntry dt) s = .next y.toEmber)
  ∧ (∀ (dt : Nat) (s x : State), x = s.at dt → x.hearth.pen = true → x.hearth.minBlaze.isSome = true →
    x.hearth.penRise + x.fld 0x010060 15 0 * msT ≤ x.now →
    exec (.alarmMsExpiry dt) s = .next x.holdPending.toEmber)
  ∧ (∀ x : State, x.toEmber.main = .cold ∧ x.toEmber.hearth.pen = false ∧ x.toEmber.hearth.ps = .ember
      ∧ x.toEmber.hearth.minBlaze = none ∧ x.toEmber.regs = RegFile.hearthOnly x.regs ∧ (x.main.boot.flashOp = none → x.toEmber.flash = x.flash)
      ∧ x.toEmber.minSec = x.minSec ∧ x.toEmber.hearth.keys = x.completeUpdate.hearth.keys ∧ x.toEmber.hearth.ring = x.hearth.ring
      ∧ x.toEmber.hearth.held = x.hearth.held ∧ x.toEmber.hearth.time = x.hearth.time)

/-- The scheduled return wakes the chip from Bank and Smoulder, and a late one is counted; PS_STATUS and HELD_READ
answer from the power state and the held alarms (R113, R173, R182, R191).
Where the spec leaves it open it states the model's choice: log entries 44, 45, 49. -/
def Obligations.PowerStates : Prop :=
  (∀ (dt t : Nat) (s x : State), x = s.at dt → x.blocksRun → x.hearth.ps = .bank ∨ x.hearth.ps = .smoulder →
    x.main.power.wakeAt = some t → t ≤ x.now → 
    (∀ e, x.main.power.event = some e → x.now + (if x.hearth.ps = .smoulder then 1500 else 15) * usT ≤ e) →
    exec (.scheduledReturn dt) s = s.leaves (x.wake 0x01))
  ∧ (∀ (dt t e : Nat) (s x : State), x = s.at dt → x.blocksRun → x.hearth.ps = .bank ∨ x.hearth.ps = .smoulder →
    x.main.power.wakeAt = some t → t ≤ x.now → x.main.power.event = some e →
    e < x.now + (if x.hearth.ps = .smoulder then 1500 else 15) * usT →
    exec (.scheduledReturn dt) s = s.leaves ((x.count 0x010000 31 16).wake 0x01))
  ∧ (∀ (x : State) (n : Nat), wakes x.hearth.ps n = true →
    (x.wake n).hearth.ps = .blaze ∧ (x.wake n).hearth.wakeSrc = x.firedCode n ∧ (x.wake n).regs = x.regs)
  ∧ (∀ (x : State) (n : Nat), x.main.power.fired = none → x.firedCode n = n)
  ∧ (∀ (x : State) (n k : Nat), x.main.power.fired = some (x.hearth.cycles, k) → x.firedCode n = min k n)
  ∧ (∀ (x : State) (n : Nat), wakes x.hearth.ps n = false → x.hearth.ps ≠ .blaze → x.wake n = x)
  ∧ (∀ (dt : Nat) (tag : BitVec 16) (k : Known) (b : Nat) (s x : State), s.willRun dt 0x0100 tag.toNat [] →
    x = s.asked dt 0x0100 tag.toNat [] → x.nextKnown = some k → k.block = some b →
    exec (.psStatus dt tag []) s = s.leaves (({ x with freeIdx := x.freeIdx + 1 }).finish x.lastOp 0
      ([byte x.hearth.ps.code, byte (x.limit (some x.lastOp) true), byte b, 0#8] ++ be 4 (sat 0xFFFFFFFE k.us)
        ++ be 4 (sat 0xFFFFFFFF (x.main.power.blaze / msT)) ++ be 4 (sat 0xFFFFFFFF (x.main.power.bank / msT))
        ++ be 4 (sat 0xFFFFFFFF (x.main.power.smoulder / msT)))))
  ∧ (∀ (dt : Nat) (tag : BitVec 16) (s x : State), s.willRun dt 0x0101 tag.toNat [] →
    x = s.asked dt 0x0101 tag.toNat [] →
    exec (.heldRead dt tag []) s = s.replies x 0 (heldBytes x.hearth.held))

/-- The events of network time: a second boundary raises PPS_OUT once per second, PPS_END lowers it, the time-of-day
line follows, a slew's end clears its sign, and the servo leaves LOCKED and HOLDOVER on its timers (R202, R209, R219,
R220, R654).
Where the spec leaves it open it states the model's choice: log entry 63. -/
def Obligations.NetworkTimeEvents : Prop :=
  (∀ (dt b : Nat) (s x : State), x = s.at dt → x.blocksRun → x.main.nt.boundary = some b → x.ppsOn = true →
    (x.bit 0x02002C 31 = false ∨ x.ntValid = true) → x.main.nt.marked.any (fun r => decide (r.1 ≤ b ∧ b ≤ r.2)) = false →
    exec (.secondBoundary dt) s = s.leaves ((x.modNt (fun n => { n with
      boundary := none
      pps := true
      ppsEnd := x.now + x.fld 0x02002C 9 0 * msT
      marked := markSecond n.marked b
      tod := some (b, n.mark, x.now + msT, be 6 b ++ be 4 (b2n x.main.sk.timeLoose * 2 ^ 31
        + b2n (x.main.nt.servo == .free) * 2 ^ 30) ++ be 2 x.angle ++ [0#8, byte x.angleFlags] ++ be 2 0) })).phaseLatch b))
  ∧ (∀ (dt b : Nat) (s x : State), x = s.at dt → x.blocksRun → x.main.nt.boundary = some b →
    (x.ppsOn = false ∨ (x.bit 0x02002C 31 = true ∧ x.ntValid = false)
      ∨ x.main.nt.marked.any (fun r => decide (r.1 ≤ b ∧ b ≤ r.2)) = true) →
    exec (.secondBoundary dt) s = s.leaves ((x.modNt (fun n => { n with boundary := none })).phaseLatch b))
  ∧ (∀ (dt : Nat) (s x : State), x = s.at dt → x.blocksRun → x.main.nt.pps = true → x.main.nt.ppsEnd ≤ x.now →
    exec (.ppsEnd dt) s = s.leaves (x.modNt (fun n => { n with pps := false })))
  ∧ (∀ (dt sec due : Nat) (mark : Bool) (pre : List Byte) (s x : State), x = s.at dt → x.blocksRun →
    x.main.nt.tod = some (sec, mark, due, pre) → due ≤ x.now → x.main.cmd.bound ≠ .uart →
    exec (.timeOfDay dt) s = s.leaves ((x.modNt (fun n => { n with tod := none })).modCmd (fun c => { c with
      todLine := x.todText sec mark })))
  ∧ (∀ (dt sec due : Nat) (mark : Bool) (pre : List Byte) (s x : State), x = s.at dt → x.blocksRun →
    x.main.nt.tod = some (sec, mark, due, pre) → due ≤ x.now → x.main.cmd.bound = .uart →
    exec (.timeOfDay dt) s = s.leaves ((x.modNt (fun n => { n with tod := none })).raise {
      code := 0x0003, member := x.self, alarm := false
      bytes := pre ++ be 2 x.main.nt.utc ++ [byte x.main.nt.servo.code, byte (x.todFlags mark)] }))
  ∧ (∀ (dt : Nat) (s x : State), x = s.at dt → x.blocksRun → x.main.nt.slewTicks = 0 →
    exec (.slewEnd dt) s = s.leaves (x.modNt (fun n => { n with slewNeg := false })))
  ∧ (∀ (dt : Nat) (s x : State), x = s.at dt → x.blocksRun → x.main.nt.servo = .locked →
    x.main.nt.lastAccepted + x.fld 0x020020 11 8 * secT ≤ x.now →
    exec (.servoMissTimeout dt) s = s.leaves (x.setServo .holdover))
  ∧ (∀ (dt : Nat) (s x : State), x = s.at dt → x.blocksRun → x.main.nt.servo = .holdover →
    x.main.nt.holdSince + x.fld 0x020020 7 0 * 60 * secT ≤ x.now →
    exec (.holdoverTimeout dt) s = s.leaves (x.setServo .unlocked))

/-- Time messages and their corrections: a message that passes the checks of R204 waits for its reference frame, one
that does not is counted, and the first whose frame has been latched is applied (R203 to R208).
Where the spec leaves it open it states the model's choice: log entry 62. -/
def Obligations.TimeMessages : Prop :=
  (∀ (dt sfc : Nat) (m b : List Byte) (t : List (Nat × List Byte)) (s x y : State), x = s.at dt → x.blocksRun →
    x.main.td.msgs = (sfc, m) :: t → field m 0 1 = 1 → x.leads = true → x.main.td.lost = false → x.smouldering = false →
    y = x.modTd (fun d => { d with msgs := t }) → b = (m.drop 4).take 24 → timeBodyOk b = true →
    0 < sdiff 30 (field b 0 4 % 2 ^ 30) sfc → sdiff 30 (field b 0 4 % 2 ^ 30) sfc ≤ 8191 →
    exec (.timeMessage dt) s = s.leaves ((y.modNt (fun n => { n with
      msgs := n.msgs ++ [⟨field b 0 4 % 2 ^ 30, field b 4 6, field b 10 4, field b 14 4, field b 18 2, field b 20 2,
        field b 22 1⟩]
      utc := field b 20 2
      traceable := bitOf (field b 22 1) 7
      leap61 := bitOf (field b 22 1) 6
      leap59 := bitOf (field b 22 1) 5
      lastAccepted := x.now })).setServo (if x.main.nt.servo = .free then .acquiring else x.main.nt.servo)))
  ∧ (∀ (dt sfc : Nat) (m b : List Byte) (t : List (Nat × List Byte)) (s x y : State), x = s.at dt → x.blocksRun →
    x.main.td.msgs = (sfc, m) :: t → field m 0 1 = 1 → x.leads = true → x.main.td.lost = false → x.smouldering = false →
    y = x.modTd (fun d => { d with msgs := t }) → b = (m.drop 4).take 24 → timeBodyOk b = false →
    exec (.timeMessage dt) s = s.leaves (y.countN 0x020024 15 8 1))
  ∧ (∀ (dt sfc : Nat) (m b : List Byte) (t : List (Nat × List Byte)) (s x y : State), x = s.at dt → x.blocksRun →
    x.main.td.msgs = (sfc, m) :: t → field m 0 1 = 1 → x.leads = true → x.main.td.lost = false → x.smouldering = false →
    y = x.modTd (fun d => { d with msgs := t }) → b = (m.drop 4).take 24 → timeBodyOk b = true →
    sdiff 30 (field b 0 4 % 2 ^ 30) sfc ≤ 0 →
    exec (.timeMessage dt) s = s.leaves (y.countN 0x020024 7 0 1))
  ∧ (∀ (dt : Nat) (m : TimeMsg) (l : Latch) (e : Int) (s x : State), x = s.at dt → x.blocksRun →
    x.main.nt.msgs.find? (fun m => (x.main.nt.latchOf m).isSome) = some m → x.main.nt.latchOf m = some l →
    x.timeError m l = some e →
    exec (.timeCorrection dt) s
      = s.leaves (((x.modNt (fun n => { n with msgs := n.msgs.erase m })).count 0x020024 31 16).ntApply e l.left m.sfc
          (x.main.nt.lastRef.map (fun r => sdiff 30 m.sfc r.toNat * 125000))))
  ∧ (∀ (x : State) (m : TimeMsg) (l : Latch), x.timeError m l
      = (if (m.teqd : Int) - 35000 - ((l.eqd * 15625 / 10000 : Nat) : Int) < 0 then none
         else some ((m.sec * 1000000000 + m.ns : Nat)
           + ((m.teqd : Int) - 35000 - ((l.eqd * 15625 / 10000 : Nat) : Int)) * m.asym / 65536 + x.fld 0x02001C 15 0
           - ((l.sec * 1000000000 + l.ns : Nat) : Int))))

/-- The compare units: CMP_ARM sets a unit as its operands say, a unit whose target is reached fires, takes its action
and notifies, once or every period, and CMP_DISARM ends it (R213, R215 to R218, R229, R756). -/
def Obligations.CompareUnits : Prop :=
  (∀ (dt u : Nat) (c : Cmp) (s x y : State), x = s.at dt → x.blocksRun → c = x.cmpUnit u → c.due x.main.nt = true →
    x.main.sk.suspended = false →
    y = ((x.modCmp u (fun c => if c.period = 0 then { c with armed := false } else c.next x.main.nt)).latchFld
      (0x020100 + 16 * u) 28 26 (b2n c.late * 4 + b2n c.stepped)).count (0x020100 + 16 * u) 11 0 →
    exec (.cmpFire dt u) s = s.leaves (if c.notify || c.late then (compareAct c.action c.param y).notify 0x0203 false
      ([byte u, byte (b2n c.late + b2n c.stepped * 4)] ++ be 4 c.ns) else compareAct c.action c.param y))
  ∧ (∀ (dt u : Nat) (s x : State), x = s.at dt → x.blocksRun → (x.cmpUnit u).due x.main.nt = false →
    exec (.cmpFire dt u) s = s.leaves x)
  ∧ (∀ (dt : Nat) (tag : BitVec 16) (p : List Byte) (c : Cmp) (s x : State), s.willRun dt 0x0203 tag.toNat p →
    x = s.asked dt 0x0203 tag.toNat p → p.length = 20 → field p 0 1 ≤ 15 → field p 1 1 ≤ 1 → field p 2 1 ≤ 4 →
    field p 3 1 ≤ 1 → (field p 1 1 = 0 → field p 6 6 = 0) → (field p 1 1 = 1 → field p 12 4 < 1000000000) →
    (∀ m, cmpParamMax (field p 2 1) = some m → field p 4 2 ≤ m) →
    c = { armed := true, epoch := field p 1 1 == 1, notify := field p 3 1 == 1, action := field p 2 1
          param := field p 4 2 % 1024, sec := field p 6 6, ns := field p 12 4, period := field p 16 4 } →
    exec (.cmpArm dt tag p) s
      = s.leaves ((x.modCmp (field p 0 1) (fun _ => { c with late := c.past x.main.nt })).finish x.lastOp 0 []))
  ∧ (∀ (dt : Nat) (tag : BitVec 16) (p : List Byte) (s x : State), s.willRun dt 0x0204 tag.toNat p →
    x = s.asked dt 0x0204 tag.toNat p → p.length = 1 → field p 0 1 ≤ 15 → (x.cmpUnit (field p 0 1)).armed = true →
    exec (.cmpDisarm dt tag p) s
      = s.leaves ((x.modCmp (field p 0 1) (fun c => { c with armed := false, late := false })).finish x.lastOp 0 []))

/-- Network time set, slewed and reported by the master (R202, R222, R229). -/
def Obligations.NetworkTimeOpcodes : Prop :=
  (∀ (dt : Nat) (tag : BitVec 16) (s x : State), s.willRun dt 0x0200 tag.toNat [] →
    x = s.asked dt 0x0200 tag.toNat [] →
    exec (.ntStatus dt tag []) s = s.replies x 0
      ([byte x.main.nt.servo.code, byte (b2n x.main.nt.range + b2n x.main.nt.traceable * 2)] ++ be 2 x.main.nt.utc
        ++ be 6 x.main.nt.sec ++ be 4 x.main.nt.ns ++ be 4 (ofSigned 32 (sat32 x.main.nt.lastErr))
        ++ be 4 (x.word 0x020014)))
  ∧ (∀ (dt : Nat) (tag : BitVec 16) (p : List Byte) (s x : State), s.willRun dt 0x0201 tag.toNat p →
    x = s.asked dt 0x0201 tag.toNat p → p.length = 13 → field p 6 4 < 1000000000 → field p 12 1 ≤ 1 →
    (field p 12 1 = 1 ∨ (x.leads = true ∧ x.main.nt.servo ≠ .locked)) → x.main.nt.msgs = [] →
    exec (.ntSet dt tag p) s
      = s.leaves (((((x.countN 0x020024 7 0 0).modNt (fun n => { n with msgs := [], utc := field p 10 2 })).ntStep
          (field p 0 6 * 1000000000 + field p 6 4) 0)).finish x.lastOp 0 []))
  ∧ (∀ (dt : Nat) (tag : BitVec 16) (p : List Byte) (s x : State), s.willRun dt 0x0202 tag.toNat p →
    x = s.asked dt 0x0202 tag.toNat p → p.length = 5 → (toSigned 32 (field p 0 4)).natAbs ≤ 1000000000 →
    field p 4 1 ≤ 1 → (field p 4 1 = 1 ∨ (x.leads = true ∧ x.main.nt.servo ≠ .locked)) →
    exec (.ntAdjust dt tag p) s = s.leaves ((x.modNt (fun n => { n with
      slewNeg := decide (toSigned 32 (field p 0 4) < 0)
      slewTicks := (toSigned 32 (field p 0 4)).natAbs * 512 })).finish x.lastOp 0 []))
  ∧ (∀ (dt : Nat) (tag : BitVec 16) (p : List Byte) (s x : State), s.willRun dt 0x0202 tag.toNat p →
    x = s.asked dt 0x0202 tag.toNat p → p.length = 5 → (toSigned 32 (field p 0 4)).natAbs ≤ 1000000000 →
    field p 4 1 = 0 → (x.leads = false ∨ x.main.nt.servo = .locked) →
    exec (.ntAdjust dt tag p) s = s.replies x 0x000E [])
  ∧ (∀ (x : State) (ns frac : Nat) (delta : Int), x.main.nt.servo = .locked →
    delta = sat32 (((ns : Int) * 2 ^ 24 + frac - (x.main.nt.totalNs * 2 ^ 24 + x.main.nt.frac : Nat)).tdiv (2 ^ 24)) →
    ∃ d : NetTime, d.sec = ns / 1000000000 % 2 ^ 48 ∧ d.ns = ns % 1000000000 ∧ d.frac = frac ∧ d.slewTicks = 0
      ∧ x.ntStep ns frac = ((((x.modNt (fun _ => d)).ash 0x02 0x01 (be 4 (ofSigned 32 delta))).notify 0x0202 false
          (be 4 (ofSigned 32 delta)))).setServo .acquiring)

/-- The mains angle: crossings outside their window or too weak are counted, two missed crossings lose a phase, a crossing
of the loop phase corrects the loop, and the timeouts lead to TIMED (R231, R237, R238, R243, R257).
Where the spec leaves it open it states the model's choice: log entries 66, 67. -/
def Obligations.MainsAngle : Prop :=
  (∀ (dt p peak : Nat) (rising : Bool) (sm : List Int) (s x : State), x = s.at dt → x.blocksRun →
    x.main.ma.running = true → x.phaseOn p = true → x.fld 0x030004 15 8 < peak →
    (peak < 64 ∨ ((x.phase p).present = true ∧ x.main.ma.st = .locked ∧ x.inWindow p rising = false)) →
    exec (.zeroCrossing dt p rising peak sm) s = s.leaves (x.count (0x030020 + 4 * p) 15 8))
  ∧ (∀ (dt p peak : Nat) (sm : List Int) (e : Int) (s x y : State), x = s.at dt → x.blocksRun →
    x.main.ma.running = true → x.phaseOn p = true → x.fld 0x030004 15 8 < peak → 64 ≤ peak →
    (x.phase p).present = true → x.main.ma.st = .locked → x.main.ma.loop = none → x.inWindow p false = true →
    p = x.refPhase → p = x.main.ma.loopPhase → e = sdiff 16 0x8000 x.angle →
    y = (x.modPhase p (fun q => { q with
      missed := 0
      lastCross := some x.now
      lastRising := false
      half := x.nearHalf p })) →
    exec (.zeroCrossing dt p false peak sm) s = s.leaves ((y.modMa (fun m => { m.moveBy
        (max (-(x.fld 0x030008 31 24 : Int)) (min (x.fld 0x030008 31 24) (e.tdiv (2 ^ x.fld 0x030008 15 12)))) with
      freq := clampFreq (m.freq + e * x.fld 0x030008 23 16) })).noteFreq x.main.ma.freq))
  ∧ (∀ (dt p : Nat) (s x : State), x = s.at dt → x.blocksRun → x.main.ma.st = .locked → x.phaseOn p = true →
    (x.phase p).present = true → 0 < sdiff 33 (x.closedHalf p) (x.phase p).half → (x.phase p).missed = 0 →
    exec (.crossingMissed dt p) s = s.leaves (x.modPhase p (fun q => { q with
      missed := q.missed + 1
      half := x.closedHalf p })))
  ∧ (∀ (dt p : Nat) (s x y : State), x = s.at dt → x.blocksRun → x.main.ma.st = .locked → x.phaseOn p = true →
    (x.phase p).present = true → 0 < sdiff 33 (x.closedHalf p) (x.phase p).half → 1 ≤ (x.phase p).missed →
    y = (((x.modPhase p (fun q => { q with
      present := false
      missed := 0
      halves := []
      lastCross := none
      lostAt := some x.now })).notify 0x0303 false [byte p, 0#8])).relocate →
    exec (.crossingMissed dt p) s
      = s.leaves (if y.main.ma.phases.any (·.present) = true then y
          else if y.main.ma.st = .locked then y.mainsLost
          else if y.main.ma.st = .acquire then y.acquireLost else y))
  ∧ (∀ (dt p : Nat) (s x : State), x = s.at dt → x.blocksRun → x.main.ma.running = true → x.phaseOn p = true →
    exec (.phaseClipped dt p) s = s.leaves (x.modPhase p (fun q => { q with clip := true })))
  ∧ (∀ (dt : Nat) (s x : State), x = s.at dt → x.blocksRun → x.main.ma.st = .phantom →
    x.main.ma.since + x.fld 0x030004 31 24 * secT ≤ x.now →
    exec (.phantomTimeout dt) s
      = s.leaves ((x.modMa (fun m => { m with freq := if x.bit 0x030004 7 then 65970698 else 54975581 })).setAngle .timed))
  ∧ (∀ (dt : Nat) (s x : State), x = s.at dt → x.blocksRun → x.main.ma.running = true → x.main.ma.st = .absent →
    x.main.ma.since + secT ≤ x.now →
    exec (.absentTimeout dt) s = s.leaves ((x.modMa (fun m => { m with
      freq := if x.bit 0x030004 7 then 65970698 else 54975581
      acc := 0
      lostAt := x.now })).setAngle .timed))
  ∧ (∀ (dt : Nat) (tag : BitVec 16) (s x : State), s.willRun dt 0x0300 tag.toNat [] → x = s.asked dt 0x0300 tag.toNat [] →
    exec (.maStatus dt tag []) s = s.replies x 0 (be 4 x.maStatusWord ++ be 4 x.main.ma.cycle ++ be 2 x.angle
      ++ be 2 (x.offsetOf 0) ++ be 2 (x.offsetOf 1) ++ be 2 (x.offsetOf 2) ++ be 4 x.maFreqWord
      ++ be 4 x.main.ma.frozen))
  ∧ (∀ (dt : Nat) (tag : BitVec 16) (p : List Byte) (s x : State), s.willRun dt 0x0303 tag.toNat p →
    x = s.asked dt 0x0303 tag.toNat p → p.length = 1 → field p 0 1 ≤ 2 →
    exec (.maWave dt tag p) s = s.replies x 0 (be 4 (x.phase (field p 0 1)).sampleCycle
      ++ be 2 (x.phase (field p 0 1)).samples.length
      ++ (x.phase (field p 0 1)).samples.flatMap (fun v => be 2 (ofSigned 16 v))))

/-- The schedule table and the relays: an entry at its issue position acts and takes its next contact, MA_ARM arms an
entry, MA_PULSE pulses a relay now or keeps its contact position, and a pulse ends after WIDTH_MS (R247 to R250, R252,
R255, R256).
Where the spec leaves it open it states the model's choice: log entries 68, 69, 137. -/
def Obligations.Schedule : Prop :=
  (∀ (dt n i c0 c1 : Nat) (r : Nat) (s x : State), x = s.at dt → x.blocksRun → n < 512 → x.entIssue n = some i →
    x.reached i = true → x.main.boot.local9 = true → x.main.ma.st = .locked → x.entCfg n = (c0, c1) →
    bits c0 15 12 = 1 → r = bits c0 3 0 → x.quarantined = false → x.bit (0x030040 + 4 * r) 0 = true →
    x.relayHigh r = false → (∀ q < 16, q ≠ r → (x.partners r q || x.partners q r) = true → x.relayHigh q = false) →
    exec (.entryFire dt n) s = s.leaves (({ x with
      pulses := x.pulses.set r (some (x.now + x.fld (0x030040 + 4 * r) 15 8 * msT)) }).entDone n c1 0 true))
  ∧ (∀ (dt n i : Nat) (s x : State), x = s.at dt → x.blocksRun → n < 512 → x.entIssue n = some i →
    x.reached i = true → x.main.ma.angleValid = false →
    exec (.entryFire dt n) s = s.leaves (x.entDone n (x.entCfg n).2 0 false))
  ∧ (∀ (x : State) (n c c1 : Nat), x.entContact n = some c → (x.ent n).cfg = none → (x.ent n).tag = none →
    (x.ent n).extra = none → 0 < bits c1 31 16 → bitOf c1 11 = false →
    x.entDone n c1 0 true = (x.latchEnt n 0).modEnt n (fun e => { e with
      armed := false
      tag := none
      cfg := none
      extra := none
      contact := some ((c + bits c1 31 16 * 65536) % 2 ^ 48) }))
  ∧ (∀ (dt r t : Nat) (s x : State), x = s.at dt → at? x.pulses r none = some t → t ≤ x.now →
    exec (.relayPulseEnd dt r) s = s.leaves { x with pulses := x.pulses.set r none })
  ∧ (∀ (dt r t : Nat) (s x : State), x = s.at dt → at? x.pulses r none = some t → x.now < t →
    x.relayHigh r = true ∧ exec (.relayPulseEnd dt r) s = s.leaves x)
  ∧ (∀ (dt n cfg : Nat) (v : Word) (s x : State), x = s.at dt → x.blocksRun → n < 512 → cfg < 2 →
    exec (.entryWrite dt n cfg v) s = s.leaves (x.writeReg (0x031000 + 16 * n + 4 * cfg) v.toNat).1)
  ∧ (∀ (dt n : Nat) (tag : BitVec 16) (s x : State), s.willRun dt 0x0301 tag.toNat (be 2 n) →
    x = s.asked dt 0x0301 tag.toNat (be 2 n) → n < 512 → bitOf (x.entCfg n).2 15 = true → (x.ent n).armed = false →
    (x.ent n).contact = none → exec (.maArm dt tag (be 2 n)) s
      = s.leaves ((x.modEnt n (fun e => { e with
          armed := true
          tag := some x.lastOp })).takeContact n))
  ∧ (∀ (dt n : Nat) (tag : BitVec 16) (s x : State), s.willRun dt 0x0301 tag.toNat (be 2 n) →
    x = s.asked dt 0x0301 tag.toNat (be 2 n) → n < 512 → bitOf (x.entCfg n).2 15 = true → (x.ent n).armed = false →
    (x.ent n).contact.isSome = true → x.main.ma.angleValid = true → x.entContact n ≠ some (x.nextContact n) →
    exec (.maArm dt tag (be 2 n)) s
      = s.leaves ((x.modEnt n (fun e => { e with
          armed := true
          tag := some x.lastOp })).modEnt n (fun e => { e with extra := some (x.nextContact n) })))
  ∧ (∀ (dt r ph ang : Nat) (tag : BitVec 16) (p : List Byte) (s x : State), s.willRun dt 0x0302 tag.toNat p →
    x = s.asked dt 0x0302 tag.toNat p → p = [byte r, 1#8, byte ph, 0#8] ++ be 2 ang → r < 16 → ph < 3 → ang < 65536 →
    x.main.ma.angleValid = true → (at? x.main.ma.relays r {}).pulse = none →
    exec (.maPulse dt tag p) s = s.leaves (x.modMa (fun m => { m with
      relays := m.relays.modify r (fun q => { q with
        pulse := some (x.lastOp, firstContact x.position (x.contactAngle ph ang) (x.relayAdvance r)) }) })))
  ∧ (∀ (dt r : Nat) (tag : BitVec 16) (p : List Byte) (s x y : State), s.willRun dt 0x0302 tag.toNat p →
    x = s.asked dt 0x0302 tag.toNat p → p = [byte r, 0#8, 0#8, 0#8, 0#8, 0#8] → r < 16 → x.quarantined = false →
    (at? x.main.ma.relays r {}).pulse = none →
    y = x.modMa (fun m => { m with relays := m.relays.modify r (fun q => { q with pulse := none }) }) →
    exec (.maPulse dt tag p) s = (match y.relayPulse r with
      | some t => s.leaves (t.finish x.lastOp 0 (be 4 t.main.ma.cycle ++ be 2 t.angle))
      | none => s.leaves ((y.count 0x030030 7 0).finish x.lastOp 0x0301 [])))

/-- Signal and lock on a serial lane: LOS declares LOL with it, two windows in a row within 250 ppm are lock, LOS clears,
a PLL that loses its lock takes its lanes with it, a rogue transmitter is latched and recorded, and what holds
TREE_TXDISn high holds it in every state with PEN_MAIN high (R40, R263 to R265, R270, R281, R287).
Where the spec leaves it open it states the model's choice: log entries 39, 43, 121. -/
def Obligations.LaneSignal : Prop :=
  (∀ (dt n : Nat) (s x y : State), x = s.at dt → x.blocksRun → x.laneOn n = true → (x.lane n).det = false →
    (x.lane n).sdLow = false → (x.lane n).lol = false → (x.lane n).lolNew = false →
    y = (((x.modLane n (fun l => { l with det := true })).count (lnErr n) 15 8).latchFld (lnStat n) 5 5 1).lolDeclared n →
    exec (.losDeclared dt n false) s
      = s.leaves (((y.notify 0x0401 false [byte n, byte 3]).laneFailed n true false none).treeFollow))
  ∧ (∀ (dt n : Nat) (s x y : State), x = s.at dt → x.blocksRun → n < 2 → x.laneOn n = true → (x.lane n).det = false →
    (x.lane n).sdLow = false → (x.lane n).lol = true → (x.lane n).lolNew = false →
    y = (((x.modLane n (fun l => { l with sdLow := true })).count (lnErr n) 15 8).latchFld (lnStat n) 5 5 1).lolDeclared n →
    exec (.losDeclared dt n true) s = s.leaves ((y.notify 0x0401 false [byte n, byte 1]).treeFollow))
  ∧ (∀ (n : Nat) (x : State), (x.lane n).lol = false → x.lolDeclared n = ((((x.modLane n (fun l => { l with
      locked := false
      good := 0
      cleanSince := none
      lol := true
      lolNew := l.lolNew || !l.lol })).eyeLost n).latchFld (lnStat n) 4 4 1).count (lnErr n) 7 0))
  ∧ (∀ (dt n : Nat) (s x y : State), x = s.at dt → x.blocksRun → x.laneOn n = true → (x.lane n).det = true →
    (x.lane n).sdLow = false → n < x.main.ln.lanes.length →
    y = (x.modLane n (fun l => { l with det := false })).notify 0x0401 false [byte n, byte 5] →
    exec (.losCleared dt (n, false)) s = s.leaves (match linkOfLane n with
      | some (k, _) => if (y.link k).st = .down then y.train k (y.link k).cause else y
      | none => y))
  ∧ (∀ (dt n : Nat) (s x : State), x = s.at dt → x.blocksRun → (x.lane n).det = true → (x.lane n).sdLow = true →
    n < x.main.ln.lanes.length →
    exec (.losCleared dt (n, true)) s = s.leaves (x.modLane n (fun l => { l with sdLow := false })))
  ∧ (∀ (dt n : Nat) (off : Int) (s x y : State), x = s.at dt → x.blocksRun → x.laneOn n = true →
    (x.lane n).los = false → (x.lane n).lol = true → (x.lane n).locked = false → 1 ≤ (x.lane n).good →
    -2500 ≤ off → off ≤ 2500 → x.fld (lnCfg n) 30 29 = 0 → x.main.ln.pllHold = false →
    y = (x.modLane n (fun l => { l with
      foff := off
      lolNew := false })).countN (lnErr n) 31 16 0 →
    exec (.lockWindowEnd dt n off false 0) s = s.leaves ((((y.modLane n (fun l => { l with
      good := l.good + 1 })).modLane n (fun l => { l with
      lol := false
      locked := true
      cleanSince := some x.now })).notify 0x0401 false [byte n, byte 6]).treeFollow))
  ∧ (∀ (dt n cv : Nat) (off : Int) (s x y : State), x = s.at dt → x.blocksRun → x.laneOn n = true →
    (x.lane n).los = false → 5000 < off → off ≤ 32767 → 0 < cv →
    y = (x.modLane n (fun l => { l with
      foff := off
      lolNew := false
      cleanSince := l.cleanSince.map (fun _ => x.now) })).countN (lnErr n) 31 16 cv → (x.lane n).lol = false →
    exec (.lockWindowEnd dt n off false cv) s
      = s.leaves (((((y.lolDeclared n).notify 0x0401 false [byte n, byte 2]).laneFailed n true false none).modLane n
          (fun l => { l with lolNew := false })).treeFollow))
  ∧ (∀ (dt n cause : Nat) (s x y : State), x = s.at dt → x.blocksRun → n < 2 → x.inBurst n = false →
    x.bit 0x040000 n = false → y = x.modLane n (fun l => { l with rogueAt := some x.now }) →
    exec (.rogue dt n cause) s
      = s.leaves (((((y.setFld 0x040000 n n 1).count 0x040004 15 0)).ash 0x04 0x01 [byte n, byte cause]).notify 0x0402
          true [byte n, byte cause]))
  ∧ (∀ (dt : Nat) (lanes : BitVec 9) (ls : List Nat) (s x y : State), x = s.at dt → x.blocksRun →
    ls = (List.range 9).filter (fun n => bitOf lanes.toNat n && x.laneOn n) → ls ≠ [] →
    y = (ls.foldl (fun z n => (if (z.lane n).lolNew then z.lolDeclared n
        else (z.lolDeclared n).notify 0x0401 false [byte n, byte 2]).laneFailed n true false none) x).ash 0x04
      0x03 (be 2 ((ls.map (fun n => 2 ^ n)).sum)) →
    exec (.pllUnlock dt lanes) s = s.leaves (({ y with main := { y.main with ln := { y.main.ln with
      pllHold := true } } } : State).pllFollow.treeFollow))
  ∧ (∀ x : State, x.main.ln.pllHold = true →
    x.pllFollow.main.ln.pllHold = !x.laneLocked x.main.td.active)
  ∧ (∀ (dt : Nat) (tag : BitVec 16) (p : List Byte) (s x : State), s.willRun dt 0x0402 tag.toNat p →
    x = s.asked dt 0x0402 tag.toNat p → p.length = 1 → field p 0 1 ≤ 1 →
    (∀ t, (x.lane (field p 0 1)).rogueAt = some t → t + msT ≤ x.now) →
    exec (.lnTxRelease dt tag p) s
      = s.leaves ((x.setFld 0x040000 (field p 0 1) (field p 0 1) 0).finish x.lastOp 0 []))
  ∧ (∀ (dt : Nat) (tag : BitVec 16) (p : List Byte) (t : Nat) (s x : State), s.willRun dt 0x0402 tag.toNat p →
    x = s.asked dt 0x0402 tag.toNat p → p.length = 1 → field p 0 1 ≤ 1 → (x.lane (field p 0 1)).rogueAt = some t →
    x.now < t + msT → exec (.lnTxRelease dt tag p) s = s.replies x 0x0401 [])
  ∧ (∀ (n : Nat) (s : State), n < 2 → s.railsGood = true →
    (n ≠ s.main.td.active ∧ (∀ b, s.main.up.current = some b → b.lane ≠ n) ∨ s.main.sk.isLead = false ∨ s.hardFloor = true
      ∨ s.bit 0x040000 n = true ∨ s.main.ln.pllHold = true ∨ s.hearth.ps = .smoulder) →
    s.txDis n = .high)

/-- Sparing and eye margins: an active lane that fails asks for the spare and pauses its link, two markers that carry a
request move a position to the spare, the position's arrival on the spare re-steers it, a clean lane becomes the spare
again, and an eye measurement answers or notifies (R272 to R279).
Where the spec leaves it open it states the model's choice: log entries 40, 41, 42, 138, 139. -/
def Obligations.LaneSparing : Prop :=
  (∀ (dt n cv : Nat) (s x : State), x = s.at dt → x.blocksRun → x.laneOn n = true → x.bit 0x040008 0 = true →
    (∀ k i, linkOfLane n = some (k, i) → (x.link k).st ≠ .training) → x.fld 0x040008 31 24 < cv →
    exec (.laneFail dt n cv) s = s.leaves (x.laneFailed n ((x.lane n).los || (x.lane n).lol) false none))
  ∧ (∀ (dt n cv k i : Nat) (s x : State), x = s.at dt → x.blocksRun → x.laneOn n = true → linkOfLane n = some (k, i) →
    (x.link k).st = .training → 0 < cv →
    exec (.laneFail dt n cv) s = s.leaves (x.laneFailed n ((x.lane n).los || (x.lane n).lol) true none))
  ∧ (∀ (x : State) (n k i : Nat) (hard force : Bool) (op : Option Nat), linkOfLane n = some (k, i) → x.laneRole k i < 2 →
    (x.swap k).rx = none → x.spareValid k = true → (x.bit 0x040008 0 = true ∨ force = true) →
    x.laneFailed n hard force op = ((x.modLane n (fun l => { l with
      cleanSince := if l.locked then some x.now else none })).modSwap k (fun w => { w with
      rx := some (x.laneRole k i, op) })).pauseLink k)
  ∧ (∀ (x : State) (n k i pos : Nat) (hard force : Bool) (op o : Option Nat), linkOfLane n = some (k, i) →
    x.laneRole k i = pos → (x.swap k).rx = some (pos, o) → x.laneFailed n hard force op = x.modLane n (fun l => { l with
      cleanSince := if l.locked then some x.now else none }))
  ∧ (∀ id ctrl : Nat, id < 4 → ctrl < 16 → ctrl % 2 = 0 →
    markerOf [0x1BC, id, ctrl, 0x11C] = some (id, ctrl) ∧ markerOf [0x1BC, id, ctrl] = some (id, ctrl)
      ∧ markerOf [0x1BC, id, ctrl, 0x11C, 0x11C] = some (id, ctrl))
  ∧ (∀ (x : State) (k i pos : Nat) (op : Option Nat), (x.swap k).rx = some (pos, op) →
    x.marker k i = [0x1BC, mapRole (x.txMap k) i, 8 + 2 * pos, 0x11C])
  ∧ (∀ (dt k i skew pos id : Nat) (symbols : List Nat) (s x y : State), x = s.at dt → x.blocksRun → k < 2 → i < 3 →
    skew ≤ 64 → x.laneOn (laneOf k i) = true → markerOf symbols = some (id, 8 + 2 * pos) → pos < 2 → (x.swap k).rx = none →
    1 ≤ (at? (x.swap k).req i (0, 0)).2 → (at? (x.swap k).req i (0, 0)).1 = pos → (x.swap k).accepted = false →
    y = x.modSwap k (fun w => { w with req := w.req.set i (pos, (at? (x.swap k).req i (0, 0)).2 + 1) }) →
    exec (.laneMarker dt k i skew symbols) s = s.leaves (y.acceptSwap k pos))
  ∧ (∀ (dt k i skew pos : Nat) (op : Option Nat) (symbols : List Nat) (s x y : State), x = s.at dt → x.blocksRun → k < 2 →
    i < 3 → skew ≤ 64 → x.laneOn (laneOf k i) = true → markerOf symbols = some (pos, 0) → pos < 2 →
    (x.swap k).rx = some (pos, op) → i = mapLane (x.rxMap k) 2 →
    y = x.modSwap k (fun w => { w with
      req := List.replicate 3 (0, 0)
      accepted := false }) →
    exec (.laneMarker dt k i skew symbols) s = s.leaves (y.resteer k pos op))
  ∧ (∀ (dt n k i t : Nat) (s x : State), x = s.at dt → x.blocksRun → linkOfLane n = some (k, i) →
    (x.lane n).cleanSince = some t → x.laneLocked n = true → x.laneRole k i = 3 → (x.swap k).rx = none →
    t + x.fld 0x040008 23 16 * secT ≤ x.now →
    exec (.laneRequalify dt n) s
      = s.leaves ((x.setMap k (x.rxMap k + 2) (x.txMap k)).spareEvent k 0 2 1 (x.rxMap k + 2)))
  ∧ (∀ (dt : Nat) (s x y : State), x = s.at dt → x.blocksRun → x.fld 0x040008 15 8 ≠ 0 →
    x.main.ln.eyeAt + x.fld 0x040008 15 8 * 60 * secT ≤ x.now →
    y = (List.range 9).foldl (fun z n => if z.laneLocked n ∧ (z.lane n).eye = none
      then z.modLane n (fun l => { l with eye := some { op := none, mode := 0 } }) else z) x →
    exec (.eyePeriodic dt) s = s.leaves { y with main := { y.main with ln := { y.main.ln with eyeAt := x.now } } })
  ∧ (∀ (dt n m op : Nat) (phase volt : List Nat) (e : Eye) (s x : State), x = s.at dt → x.blocksRun →
    (x.lane n).eye = some e → e.op = some op → e.covers phase volt = true → exec (.eyeMeasurementDone dt n phase volt m) s
      = s.leaves ((x.modLane n (fun l => { l with eye := none })).finish op 0
          (if e.mode = 0 then [byte (opening phase 32), byte (opening volt 63)] else be 4 (sat 0xFFFFFFFF m))))
  ∧ (∀ (dt n m h : Nat) (phase volt : List Nat) (e : Eye) (s x : State), x = s.at dt → x.blocksRun →
    (x.lane n).eye = some e → e.op = none → e.covers phase volt = true → h = opening phase 32 → x.bit 0x040008 1 = false →
    exec (.eyeMeasurementDone dt n phase volt m) s
      = s.leaves (if h < x.fld 0x040008 7 2
          then (x.modLane n (fun l => { l with eye := none })).notify 0x0404 false [byte n, byte h]
          else x.modLane n (fun l => { l with eye := none })))
  ∧ (∀ (dt n m h k i : Nat) (phase volt : List Nat) (e : Eye) (s x : State), x = s.at dt → x.blocksRun →
    (x.lane n).eye = some e → e.op = none → e.covers phase volt = true → h = opening phase 32 → h < x.fld 0x040008 7 2 →
    linkOfLane n = some (k, i) → x.laneRole k i < 2 → x.bit 0x040008 1 = true → x.bit 0x040008 0 = true →
    exec (.eyeMeasurementDone dt n phase volt m) s
      = s.leaves (((x.modLane n (fun l => { l with eye := none })).notify 0x0404 false [byte n, byte h]).laneFailed n false
          false none))
  ∧ (∀ (dt : Nat) (tag : BitVec 16) (s x : State), s.willRun dt 0x0400 tag.toNat [] → x = s.asked dt 0x0400 tag.toNat [] →
    exec (.lnReport dt tag []) s = s.replies x 0 ((List.range 9).flatMap (fun n => be 4 (x.lnStatWord n)
      ++ be 4 (x.word (0x04010C + 16 * n))) ++ be 4 (at? x.hearth.maps 0 0) ++ be 4 (at? x.hearth.maps 1 0)
      ++ be 4 (x.word 0x040004)))
  ∧ (∀ (dt : Nat) (tag : BitVec 16) (p : List Byte) (e : Eye) (s x : State), s.willRun dt 0x0401 tag.toNat p →
    x = s.asked dt 0x0401 tag.toNat p → p.length = 5 → field p 0 1 ≤ 8 → field p 1 1 ≤ 1 → 16 ≤ field p 2 1 →
    field p 2 1 ≤ 30 → -32 ≤ toSigned 8 (field p 3 1) → toSigned 8 (field p 3 1) ≤ 32 →
    -63 ≤ toSigned 8 (field p 4 1) → toSigned 8 (field p 4 1) ≤ 63 → x.laneLocked (field p 0 1) = true →
    (x.lane (field p 0 1)).eye = none →
    e = ⟨some x.lastOp, field p 1 1, field p 2 1, toSigned 8 (field p 3 1), toSigned 8 (field p 4 1)⟩ →
    exec (.lnEye dt tag p) s = s.leaves (x.modLane (field p 0 1) (fun l => { l with eye := some e })))
  ∧ (∀ (dt k pos : Nat) (tag : BitVec 16) (p : List Byte) (s x : State), s.willRun dt 0x0403 tag.toNat p →
    x = s.asked dt 0x0403 tag.toNat p → p = [byte k, byte pos] → k < 2 → pos < 2 → x.spareValid k = true →
    (x.swap k).rx = none →
    exec (.lnSpareForce dt tag p) s
      = s.leaves (x.laneFailed (2 + 3 * k + mapLane (x.rxMap k) pos) false true (some x.lastOp)))

/-- Downstream frames: a lane in HUNT that finds a frame confirms it, a frame at a lane's timing is confirmed or errored, a
LOCKED lane follows the frame counter and counts what it loses, a frame that fails to come is errored, the lead's active lane
latches and delivers its frames, and what a grant map loses is counted 30 µs later (R299 to R303, R306, R309).
Where the spec leaves it open it states the model's choice: log entries 29, 72. -/
def Obligations.TreeFrames : Prop :=
  (∀ (dt k : Nat) (bytes : List Byte) (i : FrameId) (s x : State), x = s.at dt → x.blocksRun → k < 2 →
    k ≠ x.main.td.active → x.main.td.miss = none → x.watched k = true → bytes.length = 40000 →
    (x.tdLane k).st = .hunt → syncErrors bytes = 0 → bodyId (scramble (bytes.drop 4)) = some i →
    x.fld 0x050000 18 15 ≠ 1 →
    exec (.frameReceived dt k bytes) s = s.leaves (((x.modTdLane k (fun l => { l with
      at_ := x.now })).setAlign k .confirm).modTdLane k (fun l => { l with
      good := 1
      sfc := i.sfc
      version := i.version })))
  ∧ (∀ (dt k : Nat) (bytes b : List Byte) (s x y : State), x = s.at dt → x.blocksRun → k < 2 → x.main.td.miss = none →
    x.watched k = true → bytes.length = 40000 → (x.tdLane k).st ≠ .hunt → (x.tdLane k).at_ + 40000 = x.now →
    b = scramble (bytes.drop 4) →
    y = (if k = x.main.td.active ∧ x.smouldering = false then x.drainMessages 64 else x).timedFrame k x.now
      (decide (syncErrors bytes ≤ x.fld 0x050000 14 13)) (bodyId b) b →
    (if k = x.main.td.active ∧ x.smouldering = false then x.drainMessages 64 else x).fld 0x050000 14 13
      = x.fld 0x050000 14 13 → (if k = x.main.td.active ∧ x.smouldering = false then x.drainMessages 64 else x).now = x.now →
    exec (.frameReceived dt k bytes) s
      = s.leaves (if k = y.main.td.active ∧ y.tdLocked k = true ∧ (y.tdLane k).at_ = y.now ∧ y.activeSfc % 8192 = 0
          then y.emSuperframe else y))
  ∧ (∀ (dt k : Nat) (bytes : List Byte) (s x : State), x = s.at dt → x.blocksRun → k < 2 → k ≠ x.main.td.active →
    x.main.td.miss = none → (x.tdLane k).st ≠ .hunt → (x.tdLane k).at_ + 40000 ≠ x.now →
    exec (.frameReceived dt k bytes) s = s.leaves x)
  ∧ (∀ (x y : State) (k t : Nat) (i : FrameId) (b : List Byte), (x.tdLane k).st = .confirm →
    i.sfc = ((x.tdLane k).sfc + 1) % 2 ^ 30 → y = x.modTdLane k (fun l => { l with at_ := t }) →
    x.timedFrame k t true (some i) b
      = (if x.fld 0x050000 18 15 ≤ (x.tdLane k).good + 1 then y.lockLane k i b
         else y.modTdLane k (fun l => { l with
           good := (x.tdLane k).good + 1
           sfc := i.sfc
           version := i.version })))
  ∧ (∀ (x : State) (k t : Nat) (near : Bool) (b : List Byte), (x.tdLane k).st = .confirm →
    x.timedFrame k t near none b = (x.modTdLane k (fun l => { l with at_ := t })).toHunt k 2)
  ∧ (∀ (x y : State) (k t e : Nat) (i : FrameId) (b : List Byte), (x.tdLane k).st = .locked →
    e = ((x.tdLane k).sfc + 1) % 2 ^ 30 →
    y = (x.modTdLane k (fun l => { l with at_ := t })).modTdLane k (fun l => { l with errs := 0 }) →
    x.timedFrame k t true (some i) b = (y.jump k e (some i)).lockedFrame k t (some i) b)
  ∧ (∀ (x y : State) (k t : Nat) (near : Bool) (i : Option FrameId) (b : List Byte), (x.tdLane k).st = .locked →
    (near = false ∨ i = none) → k ≠ x.main.td.active → x.fld 0x050000 23 19 ≤ (x.tdLane k).errs + 1 →
    y = x.modTdLane k (fun l => { l with at_ := t }) →
    x.timedFrame k t near i b = (y.count (0x050100 + 32 * k) 31 16).toHunt k 2)
  ∧ (∀ (x y : State) (k t : Nat) (near : Bool) (i : Option FrameId) (b : List Byte), (x.tdLane k).st = .locked →
    (near = false ∨ i = none) → (x.tdLane k).errs + 1 < x.fld 0x050000 23 19 →
    y = x.modTdLane k (fun l => { l with at_ := t }) →
    x.timedFrame k t near i b = (((y.count (0x050100 + 32 * k) 31 16).modTdLane k (fun l => { l with
      errs := (x.tdLane k).errs + 1 })).jump k (((x.tdLane k).sfc + 1) % 2 ^ 30) i).lockedFrame k t i b)
  ∧ (∀ (x : State) (k : Nat), (x.tdLane k).st = .locked → (k ≠ x.main.td.active ∨ x.main.sk.isLead = false) →
    x.toHunt k 2 = (x.setAlign k .hunt).count (0x050100 + 32 * k) 15 8)
  ∧ (∀ (x : State) (k n : Nat), (x.tdLane k).st ≠ .hunt → x.watched k = true → (x.tdLane k).at_ + 40000 < x.now →
    State.framesMissed k (n + 1) x = State.framesMissed k n (x.grantMapDeadline.timedFrame k ((x.tdLane k).at_ + 40000)
      false none []))
  ∧ (∀ (x : State) (k e : Nat) (i : FrameId), i.sfc = e →
    x.jump k e (some i) = x.modTdLane k (fun l => { l with sfc := e }))
  ∧ (∀ (x : State) (k e : Nat) (i : FrameId), i.sfc ≠ e → k ≠ x.main.td.active →
    x.jump k e (some i) = ((x.modTdLane k (fun l => { l with sfc := i.sfc })).count (0x050100 + 32 * k) 7 0).notify 0x0505
      false ([byte k] ++ be 4 e ++ be 4 i.sfc))
  ∧ (∀ (x y z w : State) (k t : Nat) (i : FrameId) (b : List Byte) (d : Body), k = x.main.td.active →
    x.main.sk.isLead = true → (x.tdLane k).version = i.version → d = decodeBody i.fec b →
    y = (x.seeSrq k i).modTdLane k (fun l => { l with version := i.version }) →
    z = ((y.countN (0x050100 + 32 * k + 4) 31 0 d.bytes).countN (0x050100 + 32 * k + 8) 31 16 d.cws).countN (0x050100 + 32 * k + 8)
      15 0 d.bad → w = z.latchFrame (z.tdLane k).sfc (z.now - t) → w.main.td.frameAt < w.now →
    x.lockedFrame k t (some i) b = (w.deliver i d).evalProtect)
  ∧ (∀ (x : State) (i : FrameId) (d : Body) (f : FrameRest), x.main.td.lost = false → x.main.tm.st ≠ .operation →
    x.main.tm.doze = none → x.smouldering = false → f = ⟨i, x.now, x.stampPoint, 16, d.data.drop 16, d.lost, none⟩ →
    f.hit (8 * i.gm) = false → x.deliver i d = (x.modTd (fun t => { t with
      sfc := i.sfc
      fec := i.fec
      tree := i.tree
      frameAt := x.now })).setFrame (some f))
  ∧ (∀ (dt t : Nat) (s x : State), x = s.at dt → x.blocksRun → x.main.td.miss = some t → t ≤ x.now →
    exec (.grantMapDeadline dt) s = s.leaves ((x.modTd (fun d => { d with miss := none })).count 0x050010 31 16))
  ∧ (∀ (dt n : Nat) (v : Word) (s x : State), x = s.at dt → x.blocksRun → n < 4096 →
    exec (.tdPortWrite dt n v) s = s.leaves (x.writeReg (0x054000 + 4 * n) v.toNat).1)
  ∧ (∀ (x : State) (n old : Nat) (r : Reasm), (x.main.td.reasm.find? (fun r => r.port == n)) = some r →
    bits (x.tdPort n) 24 20 ≠ bits old 24 20 →
    x.tdPortWritten n old = (x.dropReasm r true).count 0x050020 23 16)
  ∧ (∀ (dt : Nat) (tag : BitVec 16) (s x : State), s.willRun dt 0x0500 tag.toNat [] → x = s.asked dt 0x0500 tag.toNat [] →
    exec (.tdReport dt tag []) s = s.replies x 0 (be 4 x.tdStatusWord ++ be 4 x.main.td.sfc ++ be 4 x.tdSrqWord
      ++ [0x050010, 0x050014, 0x050018, 0x05001C, 0x050020, 0x050100, 0x050104, 0x050108, 0x050120, 0x050124,
        0x050128].flatMap (fun a => be 4 (x.word a))))

/-- The membership messages: each leaves the queue, and one in form for this terminal is applied: the profile, the
identity, the delay, the answer to WARM, allocations, and the end of membership (R337, R343, R344, R347, R350, R361); one out of form is counted.
Where the spec leaves it open it states the model's choice: log entries 74, 75. -/
def Obligations.MembershipMessages : Prop :=
  (∀ (dt sfc : Nat) (m : List Byte) (t : List (Nat × List Byte)) (s x y : State), x = s.at dt → x.blocksRun →
    x.main.td.msgs = (sfc, m) :: t → x.smouldering = false → field m 0 1 = 2 → tmFormOk m = true → y = x.modTd (fun d => { d with msgs := t }) →
    x.main.tm.st ≠ .listen → x.main.tm.st ≠ .operation →
    exec (.treeProfile dt) s = s.leaves (y.modTm (fun q => { q with
      profile := some { epoch := field m 4 4, preamble := field m 8 1, delimiter := field m 10 4,
                        preEqd := field m 14 3, bexp := field m 17 1, rdelay := field m 18 2,
                        chimneyK := field m 20 2, fec := bitOf (field m 22 1) 7 }
      seen := some { epoch := field m 4 4, preamble := field m 8 1, delimiter := field m 10 4,
                     preEqd := field m 14 3, bexp := field m 17 1, rdelay := field m 18 2,
                     chimneyK := field m 20 2, fec := bitOf (field m 22 1) 7 } })))
  ∧ (∀ (dt sfc : Nat) (m : List Byte) (t : List (Nat × List Byte)) (s x y : State), x = s.at dt → x.blocksRun →
    x.main.td.msgs = (sfc, m) :: t → x.smouldering = false → field m 0 1 = 3 → tmFormOk m = true → y = x.modTd (fun d => { d with msgs := t }) →
    field m 4 8 = x.termSerial → (x.main.tm.st = .serial ∨ x.main.tm.st = .ranging) →
    exec (.identAssign dt) s = s.leaves (((((y.modTm (fun q => { q with
      ident := some (field m 12 2)
      allocs := q.allocs.set 0 (some ⟨false, field m 14 2⟩) })).setTm .ranging).notify 0x0602 false
        (be 2 (field m 12 2) ++ be 2 (field m 14 2))).saveTree).pushTerm))
  ∧ (∀ (dt sfc : Nat) (m : List Byte) (t : List (Nat × List Byte)) (s x y : State), x = s.at dt → x.blocksRun →
    x.main.td.msgs = (sfc, m) :: t → x.smouldering = false → field m 0 1 = 4 → tmFormOk m = true → y = x.modTd (fun d => { d with msgs := t }) →
    field m 4 8 = x.termSerial → x.main.tm.st = .ranging →
    exec (.rangingResult dt) s = s.leaves (((y.modTm (fun q => { q with
      eqd := field m 12 3
      eqds := q.eqds.set x.main.td.active (some (field m 12 3)) })).count 0x060020 31 24).enterOperation.step8End false))
  ∧ (∀ (dt sfc : Nat) (m : List Byte) (t : List (Nat × List Byte)) (s x y : State), x = s.at dt → x.blocksRun →
    x.main.td.msgs = (sfc, m) :: t → x.smouldering = false → field m 0 1 = 5 → tmFormOk m = true → y = x.modTd (fun d => { d with msgs := t }) →
    field m 4 8 = x.termSerial → x.main.tm.st = .warm → field m 12 1 = 0 →
    exec (.warmAck dt) s = s.leaves (((y.modTm (fun q => { q with
      eqd := (max 0 (min 0xFFFFFF ((x.main.tm.eqd : Int) + toSigned 16 (field m 14 2)))).toNat
      eqds := q.eqds.set x.main.td.active
        (some (max 0 (min 0xFFFFFF ((x.main.tm.eqd : Int) + toSigned 16 (field m 14 2)))).toNat) })).count 0x060020 23
          16).enterOperation.step8End true))
  ∧ (∀ (dt sfc : Nat) (m : List Byte) (t : List (Nat × List Byte)) (s x y : State), x = s.at dt → x.blocksRun →
    x.main.td.msgs = (sfc, m) :: t → x.smouldering = false → field m 0 1 = 5 → tmFormOk m = true → y = x.modTd (fun d => { d with msgs := t }) →
    field m 4 8 = x.termSerial → x.main.tm.st = .warm → field m 12 1 = 1 → x.hearth.minBlaze = none →
    exec (.warmAck dt) s = s.leaves ((((y.count 0x060020 15 8).modTm (fun q => { q with
      eqds := q.eqds.set x.main.td.active none })).setTm .ranging).saveTree))
  ∧ (∀ (dt sfc : Nat) (m : List Byte) (t : List (Nat × List Byte)) (s x y : State), x = s.at dt → x.blocksRun →
    x.main.td.msgs = (sfc, m) :: t → x.smouldering = false → field m 0 1 = 5 → tmFormOk m = true → y = x.modTd (fun d => { d with msgs := t }) →
    field m 4 8 = x.termSerial → x.main.tm.st = .warm → field m 12 1 = 2 → x.hearth.minBlaze = none →
    exec (.warmAck dt) s = s.leaves (((y.count 0x060020 15 8).invalidateRecord).setTm .serial))
  ∧ (∀ (dt sfc : Nat) (m : List Byte) (t : List (Nat × List Byte)) (s x y : State), x = s.at dt → x.blocksRun →
    x.main.td.msgs = (sfc, m) :: t → x.smouldering = false → field m 0 1 = 6 → tmFormOk m = true → y = x.modTd (fun d => { d with msgs := t }) →
    exec (.allocAssign dt) s = s.leaves ((y.modTm (fun q => { q with
      allocs := q.allocs.set (field m 4 1)
        (if field m 5 1 = 0 then none else some ⟨field m 5 1 == 2, field m 6 2⟩) })).saveTree.pushTerm))
  ∧ (∀ (dt sfc : Nat) (m : List Byte) (t : List (Nat × List Byte)) (s x y : State), x = s.at dt → x.blocksRun →
    x.main.td.msgs = (sfc, m) :: t → x.smouldering = false → field m 0 1 = 8 → tmFormOk m = true → y = x.modTd (fun d => { d with msgs := t }) →
    field m 4 8 = x.termSerial → x.main.tm.st ≠ .disabled →
    exec (.deregister dt) s = s.leaves (((y.step8Fail.modTm (fun q => { q with doze := none })).invalidateRecord).enterListen))
  ∧ (∀ (dt sfc : Nat) (m : List Byte) (t : List (Nat × List Byte)) (s x y : State), x = s.at dt → x.blocksRun →
    x.main.td.msgs = (sfc, m) :: t → x.smouldering = false → field m 0 1 = 9 → tmFormOk m = true → y = x.modTd (fun d => { d with msgs := t }) →
    field m 4 8 = x.termSerial → field m 12 1 = 0 →
    exec (.disable dt) s = s.leaves (((((y.step8Fail.modTm (fun q => { q with
      disabled := true
      doze := none })).setTm .disabled).saveTree).pushTerm).notify 0x0604 true [0#8]))
  ∧ (∀ (dt sfc : Nat) (m : List Byte) (t : List (Nat × List Byte)) (s x y : State), x = s.at dt → x.blocksRun →
    x.main.td.msgs = (sfc, m) :: t → x.smouldering = false → field m 0 1 = 9 → tmFormOk m = true → y = x.modTd (fun d => { d with msgs := t }) →
    field m 4 8 = x.termSerial → field m 12 1 = 1 → x.main.tm.st = .disabled →
    exec (.disable dt) s = s.leaves ((((y.modTm (fun q => { q with disabled := false })).saveTree.notify 0x0604 true
      [1#8]).enterListen).pushTerm))
  ∧ (∀ (dt sfc : Nat) (m : List Byte) (t : List (Nat × List Byte)) (s x y : State), x = s.at dt → x.blocksRun →
    x.main.td.msgs = (sfc, m) :: t → x.smouldering = false → field m 0 1 = 10 → tmFormOk m = true → y = x.modTd (fun d => { d with msgs := t }) →
    field m 8 3 ≠ 0 → 1 ≤ sdiff 30 (field m 4 4) sfc → sdiff 30 (field m 4 4) sfc ≤ 8191 →
    exec (.dozeGrant dt) s = s.leaves (y.modTm (fun q => { q with
      doze := some ⟨field m 4 4, (field m 4 4 + field m 8 3) % 2 ^ 30, field m 12 2⟩
      dozeReq := none })))
  ∧ (∀ (dt sfc : Nat) (m : List Byte) (t : List (Nat × List Byte)) (s x y : State), x = s.at dt → x.blocksRun →
    x.main.td.msgs = (sfc, m) :: t → x.smouldering = false → field m 0 1 = 10 → tmFormOk m = true → y = x.modTd (fun d => { d with msgs := t }) →
    field m 8 3 = 0 → exec (.dozeGrant dt) s = s.leaves (y.modTm (fun q => { q with
      doze := none
      dozeReq := none })))
  ∧ (∀ (dt sfc : Nat) (m : List Byte) (t : List (Nat × List Byte)) (s x : State), x = s.at dt → x.blocksRun →
    x.main.td.msgs = (sfc, m) :: t → x.smouldering = false → field m 0 1 = 6 → tmFormOk m = false →
    exec (.allocAssign dt) s = s.leaves ((x.modTd (fun d => { d with msgs := t })).count 0x060024 7 4))

/-- PORT_ASSIGN writes TD_PORTn for PORT, unless the word would set a reserved value: then the write is not made and UNKNOWN
is counted (R351). -/
def Obligations.PortAssign : Prop :=
  ∀ (dt sfc n w : Nat) (m : List Byte) (t : List (Nat × List Byte)) (s x y : State), x = s.at dt → x.blocksRun →
    x.main.td.msgs = (sfc, m) :: t → x.smouldering = false → field m 0 1 = 7 → tmFormOk m = true → y = x.modTd (fun d => { d with msgs := t }) →
    n = field m 4 2 → w = field m 6 4 →
    (tdPortLegal n w = true → exec (.portAssign dt) s = s.leaves ((y.setWord (tdPortReg n)
      (regWritten (regFields (tdPortReg n)) (x.word (tdPortReg n)) w)).tdPortWritten n (x.word (tdPortReg n))))
    ∧ (tdPortLegal n w = false → exec (.portAssign dt) s = s.leaves (y.count 0x060024 7 4))

/-- The timers and the opcodes of membership: a request for doze, TO1, TW and TO2, protection, the record every 64 s, and
what the TM opcodes set (R333, R343, R347, R349, R352, R357, R363, R364). -/
def Obligations.Membership : Prop :=
  (∀ (dt ms : Nat) (k : Known) (s x : State), x = s.at dt → x.blocksRun → x.main.sk.isLead = true →
    x.bit 0x060010 16 = true → x.main.tm.st = .operation → x.busy none = false → x.flitsOut = false →
    x.membersHeld 0 = false → x.bankHeld = false → x.membersHeld 1 = false → x.fld 0x01005C 31 30 = 2 →
    x.main.tm.doze = none → x.main.tm.dozeReq = none → x.nextKnown = some k → ms = k.us / 1000 →
    x.fld 0x060010 31 24 ≤ ms →
    exec (.dozeReq dt) s = s.leaves ((x.modTm (fun m => { m with dozeReq := some x.now })).modUp (fun u => { u with
      membership := some (x.upMessage 0x84 (sat 65535 ms)) })))
  ∧ (∀ (dt : Nat) (s x : State), x = s.at dt → x.blocksRun → x.main.tm.st = .ranging →
    x.main.tm.timer + x.fld 0x060014 31 24 * 100 * msT ≤ x.now → x.hearth.minBlaze = none →
    exec (.to1Expiry dt) s = s.leaves (((x.step8Fail.modTm (fun m => { m with
      ident := none
      allocs := m.allocs.set 0 none })).setTm .serial).saveTree.pushTerm))
  ∧ (∀ (dt : Nat) (s x : State), x = s.at dt → x.blocksRun → x.main.tm.st = .warm →
    x.main.tm.timer + x.fld 0x060014 15 8 * 100 * msT ≤ x.now → x.hearth.minBlaze = none →
    exec (.twExpiry dt) s = s.leaves ((x.count 0x060020 15 8).setTm .serial))
  ∧ (∀ (dt : Nat) (s x : State), x = s.at dt → x.blocksRun → x.main.tm.st = .hold →
    x.main.tm.timer + x.fld 0x060014 23 16 * 10 * msT ≤ x.now →
    exec (.to2Expiry dt) s = s.leaves (x.setTm .initial))
  ∧ (∀ (dt a n q : Nat) (s x y z : State), x = s.at dt → x.blocksRun → x.main.sk.isLead = true → a = x.main.td.active →
    x.protect = (n, q) → n ≠ a → x.tdLocked n = true → x.bit 0x060018 31 = true →
    y = (x.modTd (fun t => { t with active := n })).dropAllReasm →
    z = (((y.modTm (fun m => { m with
      req := q
      doze := none
      seen := none
      eqd := match at? m.eqds n none with | some e => e | none => m.preEqd })).count 0x060020 7 0).ash 0x06 0x01
        [byte a, byte n, byte q]).notify 0x0603 true [byte a, byte n, byte q] →
    z.main.tm.st = .operation → exec (.protectionSwitch dt) s = s.leaves (z.setTm .listen).saveTree.pllFollow)
  ∧ (∀ (dt : Nat) (s x : State), x = s.at dt → x.blocksRun → x.main.tm.st = .operation →
    x.main.tm.savedAt + 64 * secT ≤ x.now → exec (.treeRecordSave dt) s = s.leaves x.saveTree)
  ∧ (∀ (dt : Nat) (tag : BitVec 16) (s x : State), s.willRun dt 0x0600 tag.toNat [] → x = s.asked dt 0x0600 tag.toNat [] →
    exec (.tmStatus dt tag []) s = s.replies x 0 (be 4 x.tmStatusWord ++ be 4 x.main.tm.eqd ++ be 4 (x.tmEqdWord 0)
      ++ be 4 (x.tmEqdWord 1) ++ be 8 x.termSerial ++ (List.range 8).flatMap (fun n => be 4 (x.tmAllocWord n))
      ++ be 4 x.tmDozeWord))
  ∧ (∀ (dt : Nat) (tag : BitVec 16) (p : List Byte) (s x y : State), s.willRun dt 0x0601 tag.toNat p →
    x = s.asked dt 0x0601 tag.toNat p → p.length = 8 → x.tmIdle = true →
    y = ((x.modSk (fun k => { k with serial := field p 0 8 })).invalidateRecord).pushTerm →
    (∃ t, exec (.tmSetSerial dt tag p) s = s.leaves (t.finish x.lastOp 0 [])
      ∧ (y.main.sk.push.isSome = true → ∃ image, t = y.modSk (fun k => { k with pushQ := k.pushQ ++ [(none, image)] }))
      ∧ (y.main.sk.push = none → ∃ image, t = y.startPush none image)))
  ∧ (∀ (dt : Nat) (tag : BitVec 16) (p : List Byte) (s x : State), s.willRun dt 0x0602 tag.toNat p →
    x = s.asked dt 0x0602 tag.toNat p → p.length = 4 → field p 2 2 < 4096 → x.tmIdle = true →
    exec (.tmSetIdent dt tag p) s = s.leaves ((((x.modTm (fun m => { m with
      ident := some (field p 0 2)
      allocs := m.allocs.set 0 (some ⟨false, field p 2 2⟩)
      eqds := [none, none]
      trees := [none, none]
      epochs := [0, 0] })).saveTree).pushTerm).finish x.lastOp 0 []))
  ∧ (∀ (dt : Nat) (tag : BitVec 16) (s x : State), s.willRun dt 0x0603 tag.toNat [] → x = s.asked dt 0x0603 tag.toNat [] →
    x.tmIdle = true → exec (.tmForget dt tag []) s = s.leaves (x.invalidateRecord.finish x.lastOp 0 []))
  ∧ (∀ (dt : Nat) (tag : BitVec 16) (s x y : State), s.willRun dt 0x0604 tag.toNat [] →
    x = s.asked dt 0x0604 tag.toNat [] → y = (x.modTm (fun m => { m with disabled := false })).saveTree →
    exec (.tmClearDisable dt tag []) s
      = s.leaves ((if y.main.tm.st = .disabled then y.enterListen.pushTerm else y).finish x.lastOp 0 []))

/-- Grants and bursts: a grant is decided at its fill instant, a ranging grant is answered by RANGE_REPLY, a burst
begins at its START where its lane and the transmitter allow it, and stays away where they do not (R267, R269, R340,
R344, R370, R371); UP_STATUS and UP_ADMIT_TEST answer (R396).
Where the spec leaves it open it states the model's choice: log entries 29, 77. -/
def Obligations.UpstreamBursts : Prop :=
  (∀ (dt : Nat) (g : Grant) (s x : State), x = s.at dt → x.blocksRun → x.hearth.ps ≠ .smoulder →
    x.nextGrant = some g →
    exec (.fillInstant dt) s = s.leaves ((x.modTd (fun t => { t with grants := t.grants.erase g })).fillGrant g))
  ∧ (∀ (x : State) (p : Profile) (g : Grant), x.main.tm.profile = some p → x.main.sk.isLead = true →
    x.quarantined = false → g.alloc ≠ 0xFFF → g.chimney = false → x.slotOf g.alloc = some 0 → g.ranging = true →
    x.main.tm.st = .ranging → x.fillGrant g = (x.rangingBurst p g 0 x.rangeReply x.alarmWaiting).1)
  ∧ (∀ (x y : State) (p : Profile) (g : Grant) (m : List Byte) (late : Nat) (alarm : Bool),
    p.preamble + 20 ≤ g.length → x.windowOk (g.at_ + 4 * late) true = (x, true) →
    x.admitBurst g.alloc (p.preamble + 4 + m.length) alarm = (y, true) →
    x.rangingBurst p g late m alarm = (y.launch { y.mkBurst p g 0 with
      start := g.at_ + 4 * late
      length := p.preamble + 4 + m.length
      fec := false
      ranging := some m }, true))
  ∧ (∀ (x : State) (alloc n : Nat) (alarm : Bool), x.txHeld x.main.td.active = false →
    x.admits (x.burstUj n) (if alarm then 0 else x.flushUj) = true →
    x.admitBurst alloc n alarm = ((x.charge (x.burstUj n)).modUp (fun u => { u with declineRun := false }), true))
  ∧ (∀ (x : State) (alloc n : Nat) (alarm : Bool),
    (x.txHeld x.main.td.active = true ∨ x.admits (x.burstUj n) (if alarm then 0 else x.flushUj) = false) →
    x.admitBurst alloc n alarm = (x.decline alloc (x.burstUj n) (if alarm then 0 else x.flushUj), false))
  ∧ (∀ (dt : Nat) (b : Burst) (t : List Burst) (s x : State), x = s.at dt → x.blocksRun → x.main.up.current = none →
    x.main.up.bursts = b :: t → b.start ≤ x.now → x.laneLocked b.lane = true → x.main.td.lost = false →
    x.quarantined = false → x.main.tm.disabled = false → x.txHeld b.lane = false → b.chimney = false →
    exec (.burstStart dt) s = s.leaves (((x.modUp (fun u => { u with bursts := t })).modUp (fun u => { u with
      current := some b })).count 0x070024 31 0))
  ∧ (∀ (dt : Nat) (b : Burst) (t : List Burst) (s x : State), x = s.at dt → x.blocksRun → x.main.up.current = none →
    x.main.up.bursts = b :: t → b.start ≤ x.now → x.laneLocked b.lane = true → x.main.td.lost = false →
    x.quarantined = false → x.main.tm.disabled = false → x.txHeld b.lane = true → b.chimney = false →
    exec (.burstStart dt) s = s.leaves (((x.modUp (fun u => { u with bursts := t })).burstUnsent b).decline b.alloc
      (x.burstUj b.length) x.flushUj))
  ∧ (∀ (dt : Nat) (b : Burst) (t : List Burst) (s x : State), x = s.at dt → x.blocksRun → x.main.up.current = none →
    x.main.up.bursts = b :: t → b.start ≤ x.now → x.laneLocked b.lane = false →
    exec (.burstStart dt) s
      = s.leaves (((x.modUp (fun u => { u with bursts := t })).count 0x040004 31 16).burstUnsent b))
  ∧ (∀ (dt : Nat) (tag : BitVec 16) (s x : State), s.willRun dt 0x0700 tag.toNat [] → x = s.asked dt 0x0700 tag.toNat [] →
    exec (.upStatus dt tag []) s = s.replies x 0 (be 4 x.upStatusWord ++ be 4 (x.word 0x070018)
      ++ be 4 (x.word 0x07001C) ++ be 4 (x.word 0x070020) ++ be 4 x.hearth.resE
      ++ (List.range 32).flatMap (fun n => be 4 (x.upQueue n).fill)))
  ∧ (∀ (dt eb need : Nat) (tag : BitVec 16) (p : List Byte) (s x : State), s.willRun dt 0x0701 tag.toNat p →
    x = s.asked dt 0x0701 tag.toNat p → p.length = 3 → field p 2 1 = 0 → eb = x.burstUj (field p 0 2) →
    need = eb + 1000 * x.marginMj + x.flushUj → x.hearth.onReserve = true →
    exec (.upAdmitTest dt tag p) s = s.replies x 0 (be 4 eb ++ be 4 need
      ++ be 4 (1000 * x.hearth.resE - x.main.up.admitted)
      ++ [byte (b2n (decide (need ≤ 1000 * x.hearth.resE - x.main.up.admitted)))]))

/-- Queues, dampers and the chimney: a queue takes an SDU that fits and refuses one that does not, the frame boundary
refills the dampers, and the wait after a chimney burst ends with a new back-off or with none (R373, R381, R382, R389,
R436).
Where the spec leaves it open it states the model's choice: log entries 78, 79, 105, 114. -/
def Obligations.UpstreamQueues : Prop :=
  (∀ (dt q src : Nat) (b : List Byte) (s x : State), x = s.at dt → x.blocksRun → q < 32 → src ≤ 4 → b ≠ [] →
    x.leads = true → x.queueKeyless q = false → x.bit (0x070100 + 16 * q) 31 = true →
    (x.upQueue q).fill + (x.mkSdu q (sourceKind src) b).len ≤ 1024 * x.fld (0x070100 + 16 * q) 17 8 →
    (q ≠ 0 → x.poolUsed + (x.mkSdu q (sourceKind src) b).len ≤ 1024 * x.fld 0x07000C 10 0) →
    exec (.sduEnqueue dt q src b) s
      = s.leaves (x.modQueue q (fun u => { u with sdus := u.sdus ++ [x.mkSdu q (sourceKind src) b] })))
  ∧ (∀ (dt q src : Nat) (b : List Byte) (s x : State), x = s.at dt → x.blocksRun → q < 32 → src ≤ 4 → b ≠ [] →
    x.leads = true → x.bit (0x070100 + 16 * q) 31 = false →
    exec (.sduEnqueue dt q src b) s = s.leaves (x.count (0x07010C + 16 * q) 31 16))
  ∧ (∀ (dt sfc : Nat) (rx : List (List Bool)) (s x : State), x = s.at dt → x.blocksRun →
    sfc = (if x.tdLocked x.main.td.active then x.activeSfc else (x.main.up.frameSfc + 1) % 2 ^ 30) →
    exec (.upstreamFrameBoundary dt rx) s
      = s.leaves ((List.range 4).foldl (fun y t => y.closeTrib t (at? rx t []))
          ((((x.modUp (fun u => { u with frameSfc := sfc })).modTb (fun b => { b with
            frameAt := x.noticeBytes 0x0901 [] })).damperBoundary).dropContainers)))
  ∧ (∀ (x : State) (n : Nat), n < 40 → at? x.main.up.damperOld n none = none →
    x.bit (0x070400 + 16 * n) 31 = true → x.bit (0x070400 + 16 * n) 30 = true →
    at? x.damperBoundary.main.up.credits n 0 = min (at? x.main.up.credits n 0 + x.fld (0x070404 + 16 * n) 23 0)
      ((x.fld (0x070400 + 16 * n) 19 0 * 256 : Nat) : Int))
  ∧ (∀ (x : State) (n : Nat), n < 40 → (at? x.main.up.damperOld n none).isSome = true →
    at? x.damperBoundary.main.up.credits n 0 = 0)
  ∧ (∀ (dt t : Nat) (s x : State), x = s.at dt → x.blocksRun → x.main.up.waitUntil = some t → t ≤ x.now →
    (∀ n ∈ x.main.cmd.notices, n.num ∉ x.main.up.carried) →
    exec (.chimneyAckWaitEnd dt) s = s.leaves ((x.modUp (fun u => { u with waitUntil := none })).modUp (fun u => { u with
      attempt := 0
      skip := 0
      carried := [] })))
  ∧ (∀ (dt t : Nat) (un : List Notice) (s x : State), x = s.at dt → x.blocksRun → x.main.up.waitUntil = some t →
    t ≤ x.now → un = x.main.cmd.notices.filter (fun n => x.main.up.carried.contains n.num) → un ≠ [] →
    (∀ n ∈ un, n.chimney < x.fld 0x070014 15 8) →
    ∃ m y, (x.modUp (fun u => { u with waitUntil := none })).drawBelow
        (2 ^ min (x.main.up.attempt + 1) (x.fld 0x070014 27 24)) = (m, y)
      ∧ exec (.chimneyAckWaitEnd dt) s = s.leaves (y.modUp (fun u => { u with
          attempt := x.main.up.attempt + 1
          skip := m })))

/-- A transaction on a meter port: it starts, the request ends and FIRST_MS runs, no reply ends the attempt, which is sent
again while retries are left, an idle gap or a timeout ends the frame, and a bus held low is noted (R400 to R402, R404,
R407, R410, R411).
Where the spec leaves it open it states the model's choice: log entries 80, 140. -/
def Obligations.MeterLine : Prop :=
  (∀ (dt n : Nat) (q : Xact) (t : List Xact) (ws : List Nat) (s x : State), x = s.at dt → x.blocksRun →
    x.mpOn n = true → (x.mport n).xacts = q :: t → (x.mport n).st = .queued → (x.mport n).freeAt ≤ x.now →
    x.hearth.ps = .blaze → x.quarantined = false → ws = (List.range 5).map (fun i => x.word (0x080100 + 32 * n + 4 * i)) →
    exec (.xactStart dt n) s = s.leaves (x.modPort n (fun p => { p.quiet with
      st := .sending
      deRise := x.now
      held := ws
      stamp := (x.mpStamp (bits (at? ws 2 0) 31 24 * bits (at? ws 1 0) 16 0)).1
      stampFlags := (x.mpStamp (bits (at? ws 2 0) 31 24 * bits (at? ws 1 0) 16 0)).2
      xacts := { q with attempts := q.attempts + 1 } :: t })))
  ∧ (∀ (dt n fall : Nat) (q : Xact) (t : List Xact) (s x : State), x = s.at dt → x.blocksRun → (x.mport n).xacts = q :: t →
    (x.mport n).st = .sending → fall = (x.mport n).deRise + x.sendT n q.request.length → fall ≤ x.now → q.noReply = false →
    exec (.requestSent dt n) s = s.leaves (x.modPort n (fun p => { p with
      st := .waiting
      deFall := fall
      deadline := fall + (if q.firstMs = 0 then bits (x.mpWord n 3) 31 16 else q.firstMs) * msT })))
  ∧ (∀ (dt n fall : Nat) (q : Xact) (t : List Xact) (s x : State), x = s.at dt → x.blocksRun → (x.mport n).xacts = q :: t →
    (x.mport n).st = .sending → fall = (x.mport n).deRise + x.sendT n q.request.length → fall ≤ x.now → q.noReply = true →
    exec (.requestSent dt n) s
      = s.leaves ((x.modPort n (fun p => { p with deFall := fall })).endXact n 0 fall false))
  ∧ (∀ (dt n : Nat) (q : Xact) (t : List Xact) (s x : State), x = s.at dt → x.blocksRun → (x.mport n).xacts = q :: t →
    (x.mport n).st = .waiting → (x.mport n).deadline ≤ x.now → q.noReply = false → q.attempts < bits (x.mpWord n 0) 22 21 + 1 →
    exec (.firstMsExpiry dt n) s = s.leaves ((x.count (0x080100 + 32 * n + 24) 7 0).modPort n (fun p => { p.quiet with
      st := .queued
      held := []
      freeAt := max p.freeAt (x.now + 16 * x.sixteenth n * bits (x.mpWord n 3) 7 0) })))
  ∧ (∀ (dt n : Nat) (s x : State), x = s.at dt → x.blocksRun → (x.mport n).begun = true → (x.mport n).overrun = false →
    bits (x.mpWord n 0) 24 23 = 1 → (x.mport n).frame ≠ [] →
    (x.mport n).lastEnd + 16 * x.sixteenth n * bits (x.mpWord n 2) 7 0 ≤ x.now →
    exec (.idleGap dt n) s = s.leaves (x.frameDone n (if (x.mport n).bad = 0 then 0 else 0x0802) x.now))
  ∧ (∀ (dt n : Nat) (s x : State), x = s.at dt → x.blocksRun → (x.mport n).begun = true →
    (x.mport n).lastEnd + 16 * x.sixteenth n * bits (x.mpWord n 3) 15 8 ≤ x.now →
    exec (.interTimeout dt n) s = s.leaves (x.frameDone n (if (x.mport n).overrun then 0x0803 else 0x0801) x.now))
  ∧ (∀ (x : State) (n status at_ : Nat), (x.mport n).st = .queued → bitOf (x.mpWord n 0) 29 = false →
    x.frameDone n status at_ = (x.modPort n (fun p => { p with
      begun := false
      frame := []
      bad := 0
      overrun := false })).count (0x080100 + 32 * n + 28) 15 8)
  ∧ (∀ (dt n : Nat) (sm : List Nat) (second : Bool) (s x y : State), x = s.at dt → x.blocksRun → x.mpOn n = true →
    (x.mport n).st = .queued → (x.mport n).low = false → (x.mport n).armAt ≤ x.now →
    (x.mport n).deFall + bits (x.mpWord n 2) 15 8 * x.sixteenth n ≤ x.now →
    x.hearth.ps = .blaze → (sampled (at? sm 0 7)).1 = true → y = x.wake 0x0A →
    exec (.charReceived dt n sm second) s = s.leaves ((y.modPort n (fun p => { p with
      armAt := y.now + 10 * y.sixteenth n })).count (0x080100 + 32 * n + 24) 15 8))
  ∧ (∀ (dt n : Nat) (sm : List Nat) (second : Bool) (s x : State), x = s.at dt → x.blocksRun → (x.mport n).st ≠ .waiting →
    (x.now < (x.mport n).armAt ∨ (x.mport n).st = .sending ∨ x.mpOn n = false) →
    exec (.charReceived dt n sm second) s = s.leaves x)
  ∧ (∀ (x y : State) (n : Nat) (c : Byte) (bad : Bool) (at_ : Nat), (x.mport n).overrun = false →
    bits (x.mpWord n 0) 24 23 = 1 → (x.mport n).frame.length < bits (x.mpWord n 0) 11 0 →
    y = x.modPort n (fun p => { p with
      frame := (x.mport n).frame ++ [c]
      bad := (x.mport n).bad + b2n bad }) → x.charIn n c bad at_ = y)
  ∧ (∀ (dt n : Nat) (s x : State), x = s.at dt → x.blocksRun → x.mpOn n = true → (x.mport n).st = .queued →
    (x.mport n).low = false → n < x.main.mp.ports.length →
    exec (.busHeldLow dt n) s = s.leaves (((x.modPort n (fun p => { p with low := true })).count
      (0x080100 + 32 * n + 24) 31 24).notify 0x0802 false [byte n, 0#8]))
  ∧ (∀ (dt n : Nat) (s x : State), x = s.at dt → x.blocksRun → (x.mport n).low = true →
    exec (.busReleased dt n) s
      = s.leaves ((x.modPort n (fun p => { p with low := false })).notify 0x0802 false [byte n, 1#8]))

/-- Meter SDUs, the hold, the poll programs and the MP opcodes: an SDU or MP_XACT queues a transaction, held results are
offered again oldest first, a program is loaded, started, stopped and reported (R413, R414, R416 to R420, R424, R428).
Where the spec leaves it open it states the model's choice: log entry 81. -/
def Obligations.MeterCommands : Prop :=
  (∀ (dt n : Nat) (d : DownSdu) (s x y : State), x = s.at dt → x.blocksRun → x.hearth.ps = .blaze →
    x.takeSdu (fun d => d.dest == 1) = some (d, y) → d.distrust = false → n = field d.bytes 0 1 → n < 48 →
    9 ≤ d.bytes.length → d.bytes.length ≤ 2056 → field d.bytes 1 1 ≤ 1 → field d.bytes 6 2 = 0 →
    y.quarantined = false → y.mpOn n = true → (y.mport n).xacts.length < 4 →
    exec (.meterSdu dt) s = s.leaves (y.modPort n (fun p => { p with
      xacts := p.xacts ++ [{ src := .sdu, noReply := bitOf (field d.bytes 1 1) 0, ref := field d.bytes 2 2,
                             firstMs := field d.bytes 4 2, request := d.bytes.drop 8 }] })))
  ∧ (∀ (dt : Nat) (h : Option Nat × Nat × List Byte) (s x y : State), x = s.at dt → x.blocksRun → x.main.mp.hold = [h] →
    x.offerResult h.2.1 h.2.2 = (y, true) →
    exec (.holdOffer dt) s = s.leaves (y.modMp (fun m => { m with hold := m.hold.erase h })))
  ∧ (∀ (dt n : Nat) (s x : State), x = s.at dt → x.blocksRun → n < 48 →
    exec (.mpPortDisable dt n) s
      = s.leaves (x.writeReg (0x080100 + 32 * n) (putBits (x.word (0x080100 + 32 * n)) 31 31 0)).1)
  ∧ (∀ (dt n : Nat) (tag : BitVec 16) (p : List Byte) (s x : State), s.willRun dt 0x0800 tag.toNat p →
    x = s.asked dt 0x0800 tag.toNat p → 7 ≤ p.length → p.length ≤ 2054 → n = field p 0 1 → n < 48 → field p 1 1 ≤ 1 →
    x.main.boot.local9 = true → x.mpOn n = true → (x.mport n).xacts.length < 4 →
    exec (.mpXact dt tag p) s = s.leaves (x.modPort n (fun t => { t with
      xacts := t.xacts ++ [{ src := .op x.lastOp, noReply := bitOf (field p 1 1) 0, ref := field p 2 2,
                             firstMs := field p 4 2, request := p.drop 6 }] })))
  ∧ (∀ (dt n : Nat) (tag : BitVec 16) (p : List Byte) (s x : State), s.willRun dt 0x0801 tag.toNat p →
    x = s.asked dt 0x0801 tag.toNat p → p.length = 1 → n = field p 0 1 → n < 48 →
    exec (.mpStatus dt tag p) s = s.replies x 0 (be 4 (x.word (0x080100 + 32 * n)) ++ be 4 (x.mpStatWord n)
      ++ be 4 (x.word (0x080100 + 32 * n + 24)) ++ be 4 (x.word (0x080100 + 32 * n + 28))))
  ∧ (∀ (dt g count : Nat) (tag : BitVec 16) (p : List Byte) (l : List PStep) (s x y : State),
    s.willRun dt 0x0802 tag.toNat p → x = s.asked dt 0x0802 tag.toNat p → 4 ≤ p.length → g = field p 0 1 →
    count = field p 1 1 → field p 2 1 = 0 → parseSteps 33 (p.drop 3) = some l → g < 64 → count ≠ 0 → count ≤ 32 →
    stepsOk 33 (p.drop 3) = true → l.length ≤ count → (x.prog g).st ≠ 1 →
    y = x.modProg g (fun _ => { steps := l, count := count }) → (y.main.mp.progs.map Prog.size).sum ≤ 65536 →
    exec (.mpProgLoad dt tag p) s = s.leaves (y.finish x.lastOp 0 []))
  ∧ (∀ (dt g : Nat) (tag : BitVec 16) (p : List Byte) (s x : State), s.willRun dt 0x0803 tag.toNat p →
    x = s.asked dt 0x0803 tag.toNat p → p.length = 1 → g = field p 0 1 → g < 64 → x.main.boot.local9 = true →
    (x.prog g).st ≠ 1 → (x.prog g).loaded = true → x.quarantined = false →
    exec (.mpProgStart dt tag p) s = s.leaves ((x.modProg g (fun q => { q with
      st := 1
      op := some x.lastOp
      stop := none
      steps := q.steps.map (fun u => { u with at_ := 0 }) })).progPump))
  ∧ (∀ (dt g : Nat) (tag : BitVec 16) (p : List Byte) (s x : State), s.willRun dt 0x0804 tag.toNat p →
    x = s.asked dt 0x0804 tag.toNat p → p.length = 1 → g = field p 0 1 → g < 64 →
    exec (.mpProgStop dt tag p) s = s.leaves ((x.stopProg g 0x0012).finish x.lastOp 0 []))
  ∧ (∀ (dt g : Nat) (tag : BitVec 16) (p : List Byte) (s x : State), s.willRun dt 0x0805 tag.toNat p →
    x = s.asked dt 0x0805 tag.toNat p → p.length = 1 → g = field p 0 1 → g < 64 →
    exec (.mpProgStatus dt tag p) s = s.replies x 0 (be 4 (x.progStatWord g) ++ [byte (x.prog g).steps.length]
      ++ be 2 (x.prog g).size))

/-- The tributaries: containers are judged at each downstream frame and lost ones replaced by ones, the receive clock is
held to its window, a tributary is disabled, and TB_STATUS reports (R440, R441, R446, R447, R452, R456).
Where the spec leaves it open it states the model's choice: log entry 82. -/
def Obligations.Tributaries : Prop :=
  (∀ (dt : Nat) (s x y : State), x = s.at dt → x.blocksRun →
    (∀ t, x.judgePoint = some t → t + 20 * usT ≤ x.now ∧ x.main.tb.judged ≠ some t) →
    y = x.modTb (fun b => { b with judged := x.judgePoint }) →
    exec (.containerJudge dt) s = s.leaves ((((y.judgeTrib 0).judgeTrib 1).judgeTrib 2).judgeTrib 3))
  ∧ (∀ (dt t : Nat) (s x : State), x = s.at dt → x.blocksRun → x.judgePoint = some t →
    (x.now < t + 20 * usT ∨ x.main.tb.judged = some t) → exec (.containerJudge dt) s = s.leaves x)
  ∧ (∀ (x : State) (t : Nat), (x.trib t).egress = 3 → (x.trib t).missing + 1 < x.fld 0x090000 15 12 →
    x.judgeFrame t none = ((x.appendBits t (List.replicate (8 * x.tribN t) true)).count (0x09010C + 32 * t) 31 16).modTrib
      t (fun q => { q with missing := q.missing + 1 }))
  ∧ (∀ (x : State) (t : Nat), (x.trib t).egress = 3 → x.fld 0x090000 15 12 ≤ (x.trib t).missing + 1 →
    x.judgeFrame t none = (((x.appendBits t (List.replicate (8 * x.tribN t) true)).count (0x09010C + 32 * t) 31
      16).setEgress t 1).modTrib t (fun q => { q with missing := x.fld 0x090000 15 12 }))
  ∧ (∀ (dt t e : Nat) (s x : State), x = s.at dt → x.blocksRun → t < 4 → x.tribOn t = true → (x.trib t).ingress ≠ 0 →
    128 * x.tribN t + 2 * x.tribN t + 2 < e →
    exec (.rxcWindow dt t e) s = s.leaves ((x.modTrib t (fun q => { q with windows := 0 })).setIngress t 1))
  ∧ (∀ (dt t : Nat) (s x : State), x = s.at dt → x.blocksRun → t < 4 → x.tribOn t = true → (x.trib t).ingress = 1 →
    exec (.rxcWindow dt t (128 * x.tribN t)) s
      = s.leaves (if 4 ≤ (x.trib t).windows + 1 then x.setIngress t 2
          else x.modTrib t (fun q => { q with windows := q.windows + 1 })))
  ∧ (∀ (dt t : Nat) (s x : State), x = s.at dt → x.blocksRun → t < 4 →
    exec (.tbDisable dt t) s
      = s.leaves (x.writeReg (0x090100 + 32 * t) (putBits (x.word (0x090100 + 32 * t)) 31 31 0)).1)
  ∧ (∀ (dt : Nat) (tag : BitVec 16) (s x : State), s.willRun dt 0x0900 tag.toNat [] → x = s.asked dt 0x0900 tag.toNat [] →
    exec (.tbStatus dt tag []) s = s.replies x 0 ((List.range 4).flatMap (fun t => be 4 (x.word (0x090100 + 32 * t))
      ++ be 4 (x.tbStatWord t) ++ be 4 (x.word (0x09010C + 32 * t)) ++ be 4 (x.word (0x090110 + 32 * t))
      ++ be 4 (x.word (0x090114 + 32 * t)) ++ be 4 (x.word (0x090118 + 32 * t)))))

/-- The Ethernet ports: a frame with an error is counted and dropped, a PAUSE frame holds the port for its quanta, a link
that comes up or goes down is told, a bridged SDU enters the transmit buffer, and a frame starts on the wire when nothing
holds it (R458, R461, R466, R467, R470 to R473, R478, R482).
Where the spec leaves it open it states the model's choice: log entries 83, 84, 85. -/
def Obligations.Ethernet : Prop :=
  (∀ (dt n : Nat) (f : List Byte) (symbol : Bool) (s x w : State), x = s.at dt → x.blocksRun → n < 2 →
    x.bit (0x0A0100 + 256 * n) 31 = true → (x.eport n).up = true → x.hearth.ps ≠ .smoulder → w = x.wake 0x09 →
    (symbol = true ∨ f.length < 64) →
    exec (.ethFrameRx dt n f symbol) s = s.leaves ((w.emCount n 2).emCount n (if symbol then 18 else 19)))
  ∧ (∀ (dt n : Nat) (f : List Byte) (s x w y : State), x = s.at dt → x.blocksRun → n < 2 →
    x.bit (0x0A0100 + 256 * n) 31 = true → (x.eport n).up = true → x.hearth.ps ≠ .smoulder → w = x.wake 0x09 →
    64 ≤ f.length → f.length ≤ w.fld (0x0A0100 + 256 * n) 13 0 → f.drop (f.length - 4) = fcs (f.take (f.length - 4)) →
    pauseOf f = none →
    y = (((w.emCount n 0).emCountN n 1 f.length).emCount n (8 + sizeBin f.length)).emGroup n 15 f →
    exec (.ethFrameRx dt n f false) s = s.leaves (if y.bridges n then y.rxHold n f else y.emCount n 3))
  ∧ (∀ (dt n q : Nat) (f : List Byte) (s x w y : State), x = s.at dt → x.blocksRun → n < 2 →
    x.bit (0x0A0100 + 256 * n) 31 = true → (x.eport n).up = true → x.hearth.ps ≠ .smoulder → w = x.wake 0x09 →
    64 ≤ f.length →
    f.length ≤ w.fld (0x0A0100 + 256 * n) 13 0 → f.drop (f.length - 4) = fcs (f.take (f.length - 4)) →
    pauseOf f = some q → w.bit (0x0A0100 + 256 * n) 25 = true →
    y = (((w.emCount n 0).emCountN n 1 f.length).emCount n (8 + sizeBin f.length)).emGroup n 15 f →
    exec (.ethFrameRx dt n f false) s = s.leaves ((y.emCount n 21).modEport n (fun p => { p with
      pauseUntil := if q = 0 then none else some (w.now + p.bytesT (64 * q)) })))
  ∧ (∀ (dt n : Nat) (speed : Nat) (s x : State), x = s.at dt → x.blocksRun → n < 2 →
    x.bit (0x0A0100 + 256 * n) 31 = true → (at? x.main.boot.ends 4 none).isSome = true → x.hearth.ps ≠ .smoulder →
    (x.eport n).up = false → x.bit (0x0A0100 + 256 * n) 28 = true → x.bit (0x0A0100 + 256 * n) 29 = true →
    exec (.linkChange dt n true speed false true) s
      = s.leaves (((x.modEport n (fun p => { p with half := false })).modEport n (fun p => { p with
          up := true
          speed := min speed 2
          pause := x.bit (0x0A0100 + 256 * n) 25 })).emLink n))
  ∧ (∀ (dt n : Nat) (speed : Nat) (half pause : Bool) (s x : State), x = s.at dt → x.blocksRun → n < 2 →
    x.bit (0x0A0100 + 256 * n) 31 = true → (at? x.main.boot.ends 4 none).isSome = true → x.hearth.ps ≠ .smoulder →
    (x.eport n).up = true →
    exec (.linkChange dt n false speed half pause) s
      = s.leaves ((x.modEport n (fun p => { p with half := half })).linkDownEm n 23 20 false))
  ∧ (∀ (dt n : Nat) (d : DownSdu) (s x y : State), x = s.at dt → x.blocksRun → n < 2 → x.blazing = true →
    x.main.td.sdus.find? (fun d => d.dest == 3 + n && d.member == x.self) = some d → d.done = true → d.distrust = false →
    y = x.modTd (fun t => { t with sdus := t.sdus.erase d }) →
    exec (.ethSend dt n) s = s.leaves (y.macSend n d.bytes true none).1)
  ∧ (∀ (dt n : Nat) (d : DownSdu) (s x y z : State), x = s.at dt → x.blocksRun → n < 2 → x.blazing = true →
    x.main.td.sdus.find? (fun d => d.dest == 3 + n && d.member == x.self) = some d → d.done = true → d.distrust = true →
    y = x.modTd (fun t => { t with sdus := t.sdus.erase d }) → y.macSend n d.bytes true none = (z, true) →
    exec (.ethSend dt n) s = s.leaves ((z.modEport n (fun q => { q with
      sends := q.sends.take (q.sends.length - 1) })).countN (0x0A0108 + 256 * n) 7 0
        (Send.count ⟨d.bytes, true, none, false, 0, 0⟩)))
  ∧ (∀ (x : State) (n : Nat) (b : List Byte) (z : Send), x.bit (0x0A0100 + 256 * n) 31 = true → x.bridges n = true →
    (x.eport n).up = true → x.txHold n + b.length ≤ 131072 → 5 ≤ b.length →
    field b 2 2 = 0 →
    z = { bytes := b, whole := true, stream := none, fwd := x.bit (0x0A0100 + 256 * n) 24 } →
    z.ok (x.fld (0x0A0100 + 256 * n) 13 0) = true →
    x.macSend n b true none = (x.modEport n (fun q => { q with sends := q.sends ++ [z] }), true))
  ∧ (∀ (dt n : Nat) (z : Send) (t : List Send) (f : Option (List Byte)) (s x : State), x = s.at dt → x.blocksRun →
    (x.eport n).sends = z :: t → (x.eport n).up = true → (x.eport n).wire = none → (x.eport n).freeAt ≤ x.now →
    (x.eport n).pauseUntil = none → x.blazing = true → z.whole = true → z.stream = none → z.next < z.count →
    (z.next = 0 → z.broken (x.fld (0x0A0100 + 256 * n) 13 0) = false) → z.frame = some f →
    exec (.ethFrameStart dt n) s = s.leaves (x.modEport n (fun q => { q with
      wire := some { start := x.now, bytes := f, segment := z.seg, stream := none }
      sends := q.sends.modify 0 (fun w => { w with next := w.next + 1 }) })))
  ∧ (∀ (dt n t : Nat) (s x : State), x = s.at dt → x.blocksRun → (x.eport n).pauseUntil = some t → t ≤ x.now →
    exec (.pauseExpiry dt n) s = s.leaves (x.modEport n (fun p => { p with pauseUntil := none })))
  ∧ (∀ (dt n : Nat) (v : Word) (s x : State), x = s.at dt → x.blocksRun → n < 2 →
    exec (.emCfgWrite dt n v) s = s.leaves (x.writeReg (0x0A0100 + 256 * n) v.toNat).1)
  ∧ (∀ (dt n : Nat) (tag : BitVec 16) (p : List Byte) (s x : State), s.willRun dt 0x0A00 tag.toNat p →
    x = s.asked dt 0x0A00 tag.toNat p → p.length = 1 → n = field p 0 1 → n < 2 →
    exec (.emStatus dt tag p) s = s.replies x 0 (be 4 (x.word (0x0A0100 + 256 * n)) ++ be 4 (x.emLinkWord n)
      ++ be 4 (x.word (0x0A0100 + 256 * n + 8))))
  ∧ (∀ (dt n : Nat) (tag : BitVec 16) (p : List Byte) (s x : State), s.willRun dt 0x0A01 tag.toNat p →
    x = s.asked dt 0x0A01 tag.toNat p → p.length = 1 → n = field p 0 1 → n < 2 →
    x.bit (0x0A0100 + 256 * n) 23 = true →
    exec (.emStats dt tag p) s
      = s.replies x 0 ((List.range 32).flatMap (fun k => be 4 (x.word (0x0A0140 + 256 * n + 4 * k)))))
  ∧ (∀ (dt : Nat) (tag : BitVec 16) (p : List Byte) (s x : State), s.willRun dt 0x0A02 tag.toNat p →
    x = s.asked dt 0x0A02 tag.toNat p → p.length = 6 → (field p 0 1 = 22 ∧ field p 1 1 = 1 ∨ field p 0 1 = 45 ∧ 1 ≤ field p 1 1 ∧ field p 1 1 ≤ 2) →
    field p 2 1 ≤ 31 → field p 3 1 ≤ 31 →
    exec (.emMdio dt tag p) s = s.replies x 0 [])
  ∧ (∀ (dt : Nat) (tag : BitVec 16) (p : List Byte) (s x : State), s.willRun dt 0x0A02 tag.toNat p →
    x = s.asked dt 0x0A02 tag.toNat p → p.length = 6 → (field p 0 1 = 22 ∨ field p 0 1 = 45) → field p 1 1 = 0 → field p 2 1 ≤ 31 →
    field p 3 1 ≤ 31 → ∃ v y, x.drawBelow 65536 = (v, y) ∧
      exec (.emMdio dt tag p) s = s.leaves (y.finish x.lastOp 0 (be 2 v)))

/-- The cipher engine and its entropy source: a pipeline takes the head of the first queue, a finished request is given to
its consumer, a health test that fails is counted and at the third raises RNG_FAIL, the source restarts every 10 s, the
DRBG reseeds, and a start-up test that passes makes the engine ready (R494 to R497, R506 to R508, R513, R515).
Where the spec leaves it open it states the model's choice: log entries 30, 86. -/
def Obligations.CipherEngine : Prop :=
  (∀ (dt pipe q : Nat) (r : CyReq) (t : List CyReq) (op : Nat) (s x : State), x = s.at dt → x.blocksRun → pipe < 2 →
    x.blazing = true → x.main.cy.ready = true → at? x.main.cy.stopped pipe true = false → at? x.main.cy.busy pipe 0 ≤ x.now →
    at? x.main.cy.pipes pipe none = none → x.pickQueue pipe = some q → at? x.main.cy.queues q [] = r :: t →
    r.for_ = .run op →
    exec (.cipherRequestStart dt pipe) s
      = s.leaves ((x.modCy (fun c => { c with queues := c.queues.set q t })).modCy (fun c => { c with
          pipes := c.pipes.set pipe (some { x.startRun r with startAt := x.now }) })))
  ∧ (∀ (dt op : Nat) (r : CyReq) (s x : State), x = s.at dt → x.blocksRun → x.main.cy.pipes = [some r, none] →
    x.hearth.ps = .blaze → 12800 + 1024 * r.data.length ≤ 1000 * (x.now - r.startAt) → r.for_ = .run op →
    x.main.cy.fin = [] →
    exec (.cipherCompletion dt 0) s = s.leaves ((x.modCy (fun c => { c with
      pipes := [none, none]
      fin := [] })).finish op r.runResult.2 r.runResult.1))
  ∧ (∀ (dt : Nat) (s x : State), x = s.at dt → x.blocksRun → x.hearth.ps ≠ .smoulder → x.main.cy.fails = 0 →
    exec (.rngHealthFail dt 0) s = s.leaves ((x.count 0x0B0010 31 16).modCy (fun c => { c with
      testing := true
      fails := 1 })))
  ∧ (∀ (dt : Nat) (s x : State), x = s.at dt → x.blocksRun → x.hearth.ps ≠ .smoulder → x.main.cy.fails = 2 → x.main.cy.rngFail = false →
    exec (.rngHealthFail dt 1) s = s.leaves (((((x.count 0x0B0010 15 0).modCy (fun c => { c with
      testing := true
      fails := 3 })).modCy (fun c => { c with
      rngFail := true
      restartAt := x.now })).ash 0x0B 0x01 [byte 1, byte 3]).notify 0x0B03 true [byte 1, byte 3]))
  ∧ (∀ (dt : Nat) (s x : State), x = s.at dt → x.blocksRun → x.main.cy.rngFail = true →
    x.main.cy.restartAt + 10 * secT ≤ x.now →
    exec (.rngRestart dt) s = s.leaves (x.modCy (fun c => { c with
      testing := true
      restartAt := x.now })))
  ∧ (∀ (dt i : Nat) (s x : State), x = s.at dt → x.blocksRun → i ≤ 2 → x.main.cy.ready = true →
    x.main.cy.rngFail = false →
    exec (.drbgReseed dt i) s = s.leaves ((x.modCy (fun c => { c with
      stopped := c.stopped.set i false
      busy := c.busy.set i (x.now + 2 * usT)
      pipes := c.pipes.modify i (fun p => p.map (fun r => { r with startAt := r.startAt + 2 * usT })) })).count 0x0B000C
        (if i < 2 then 31 else 15) (if i < 2 then 16 else 0)))
  ∧ (∀ (dt i : Nat) (s x : State), x = s.at dt → x.blocksRun → i ≤ 2 → x.main.cy.ready = true →
    x.main.cy.rngFail = true →
    exec (.drbgReseed dt i) s = s.leaves (x.modCy (fun c => { c with stopped := c.stopped.set i true })))
  ∧ (∀ (dt : Nat) (s x : State), x = s.at dt → x.blocksRun → x.hearth.ps ≠ .smoulder → x.main.cy.testing = true →
    x.main.cy.stopped = [false, false, false] →
    exec (.startUpTestPassed dt) s = s.leaves (x.modCy (fun c => { c with
      testing := false
      fails := 0
      rngFail := false
      ready := true })))
  ∧ (∀ (dt : Nat) (u : KeyUpdate) (s x : State), x = s.at dt → x.blocksRun → x.main.cy.update = some u →
    u.since + msT ≤ x.now →
    exec (.inactiveBankWaitTimeout dt) s
      = s.leaves (((x.usingBank u.slot (1 - dirActive (x.keySlot u.slot).dir)).foldl (fun y st =>
          y.modStream st.id (fun z => { z with status := 0x0B00 })) x).proceedUpdate))
  ∧ (∀ (x : State) (u : KeyUpdate), x.main.cy.update = some u →
    x.usingBank u.slot (1 - dirActive (x.keySlot u.slot).dir) = [] →
    x.proceedUpdate = (((x.commitKey u).modCy (fun c => { c with
      update := none
      ctrs := c.ctrs.set u.slot 0 })).notify 0x0B01 false ([byte u.slot] ++ be 4 u.gen ++ [0#8])).finish u.op 0 [])
  ∧ (∀ (dt q : Nat) (s x : State), x = s.at dt → x.blocksRun → q < 4 →
    exec (.cyQueueDisable dt q) s
      = s.leaves (x.writeReg (0x0B0100 + 16 * q) (putBits (x.word (0x0B0100 + 16 * q)) 31 31 0)).1)

/-- The cipher opcodes: status and key information, a key load and an erase take their turn, a zeroisation clears every
slot, and CY_RUN enters its queue (R490, R491, R503, R510, R512, R516).
Where the spec leaves it open it states the model's choice: log entries 86, 87. -/
def Obligations.CipherOpcodes : Prop :=
  (∀ (dt : Nat) (tag : BitVec 16) (s x : State), s.willRun dt 0x0B00 tag.toNat [] → x = s.asked dt 0x0B00 tag.toNat [] →
    exec (.cyStatus dt tag []) s = s.replies x 0 (be 4 x.cyStatusWord ++ be 4 (x.word 0x0B0008) ++ be 4 (x.word 0x0B000C)
      ++ be 4 (x.word 0x0B0010)
      ++ (List.range 4).flatMap (fun q => be 4 (x.cqFill q) ++ be 4 (x.word (0x0B0108 + 16 * q)))))
  ∧ (∀ (dt k : Nat) (tag : BitVec 16) (p : List Byte) (s x : State), s.willRun dt 0x0B01 tag.toNat p →
    x = s.asked dt 0x0B01 tag.toNat p → p.length = 1 → k = field p 0 1 → dirPaired (x.keySlot k).dir = false →
    dirPrev (x.keySlot k).dir = false →
    exec (.cyKeyInfo dt tag p) s = s.replies x 0 (be 8 (x.keySlot k).dir
      ++ checkValue (x.keyOf k (dirActive (x.keySlot k).dir)) ++ [0#8, 0#8, 0#8]))
  ∧ (∀ (dt : Nat) (tag : BitVec 16) (p : List Byte) (s x : State), s.willRun dt 0x0B02 tag.toNat p →
    x = s.asked dt 0x0B02 tag.toNat p → 1 ≤ field p 1 1 → field p 1 1 ≤ 3 → p.length = 38 + keyBytes (field p 1 1) →
    field p 2 1 ≤ 63 → field p 3 1 = 0 → field p 4 2 ≤ 0x100 →
    exec (.cyKeyLoad dt tag p) s
      = s.leaves (x.modCy (fun c => { c with keyOps := c.keyOps ++ [(x.lastOp, 0x0B02, p)] })))
  ∧ (∀ (dt : Nat) (tag : BitVec 16) (p : List Byte) (s x : State), s.willRun dt 0x0B03 tag.toNat p →
    x = s.asked dt 0x0B03 tag.toNat p → p.length = 1 →
    exec (.cyKeyErase dt tag p) s
      = s.leaves (x.modCy (fun c => { c with keyOps := c.keyOps ++ [(x.lastOp, 0x0B03, p)] })))
  ∧ (∀ (dt : Nat) (tag : BitVec 16) (s x : State), s.willRun dt 0x0B04 tag.toNat (be 2 0xA5C3) →
    x = s.asked dt 0x0B04 tag.toNat (be 2 0xA5C3) →
    exec (.cyZeroise dt tag (be 2 0xA5C3)) s = s.leaves ((x.zeroise 2 0).finish x.lastOp 0 []))
  ∧ (∀ (x : State) (c src k : Nat), x.main.out = false → k < 256 →
    (x.zeroise c src).keySlot k = {} ∧ (x.zeroise c src).main = x.main ∧ (x.zeroise c src).regs = x.regs
      ∧ (x.zeroise c src).flash = x.flash)
  ∧ (∀ (dt q : Nat) (tag : BitVec 16) (p : List Byte) (s x y : State), s.willRun dt 0x0B05 tag.toNat p →
    x = s.asked dt 0x0B05 tag.toNat p → field p 0 1 = 1 → 21 ≤ p.length → p.length ≤ 4020 → field p 2 2 = 0 →
    dirPaired (x.keySlot (field p 1 1)).dir = false → q = x.fld 0x0B0000 1 0 → x.cqOn q = true → x.canRun = true →
    x.submit { id := 0, for_ := .run x.lastOp, op := 1, slot := field p 1 1, fixed := bytesAt p 4 16, data := p.drop 20,
               tag := [], queue := q, since := x.now } = (y, 0) →
    exec (.cyRun dt tag p) s = s.leaves y)
  ∧ (∀ (x : State) (r : CyReq), x.cqOn r.queue = true → (at? x.main.cy.queues r.queue []).length < 1024 →
    x.submit r = (x.modCy (fun c => { c with
      queues := c.queues.modify r.queue (fun l => l ++ [{ r with
        id := c.nextId
        since := x.now }])
      nextId := c.nextId + 1 }), 0))

/-- The stages of the picture coder and its decoder: each stage's row leaves it for the next, a picture's rows are stored,
a channel is written, and a decode's pictures go out until its end; a search takes a vector of least cost among those it
tries, and none beyond 138.75 samples across and 74.75 down (R524, R527, R528, R531, R539, R544, R545, R548).
Where the spec leaves it open it states the model's choice: log entries 90, 91, 94, 142. -/
def Obligations.PictureStages : Prop :=
  (∀ (dt c : Nat) (s x : State), x = s.at dt → x.blocksRun → x.main.pc.s2 = some c →
    exec (.s2RowDone dt) s = s.leaves ((x.modPc (fun p => { p with s2 := none })).modPic c (fun p => { p with
      s2At := p.s2At ++ [x.now] })))
  ∧ (∀ (dt c : Nat) (bytes : List Byte) (preds : List (Int × Int)) (es : List (Int × Int × Nat)) (p : Pic)
    (s x x0 y : State), x = s.at dt → x.blocksRun → x.main.pc.s3 = some c → x.pic? c = some p → p.cut = false →
    x.searchRow c p preds = (x0, es) →
    y = (x0.modPc (fun q => { q with s3 := none })).modPic c (fun q => { q with
      field := q.field ++ q.fieldRow es
      s3At := q.s3At ++ [x.now]
      ring := q.ring.drop 32
      ringRow := q.ringRow + 1
      coding := [] }) →
    exec (.s3RowDone dt bytes preds none) s = s.leaves ((y.store c bytes []).1.fieldFollow c))
  ∧ (∀ (x y : State) (c id : Nat) (k : Clip) (b : List Byte), (x.pcChan c).clip = some id → x.clip? id = some k →
    k.locked = false → x.room b.length = some y →
    x.store c b [] = (y.modClip id (fun k => { k with stream := k.stream ++ b }), true))
  ∧ (∀ (dt c : Nat) (ly lcb lcr : List (List Nat)) (p : Pic) (s x : State), x = s.at dt → x.blocksRun →
    x.main.pc.s5 = some c → x.pic? c = some p → p.geom.lean = false → p.geom.main = false → p.s5 + 1 < p.rows →
    exec (.s5RowDone dt ly lcb lcr) s
      = s.leaves ((x.modPc (fun q => { q with s5 := none })).modPic c (fun q => { q with
          s5 := q.s5 + 1
          recY := q.recY ++ ly.flatten
          recCb := q.recCb ++ lcb.flatten
          recCr := q.recCr ++ lcr.flatten
          refRows := q.refRows ++ [(ly.flatten, lcb.flatten, lcr.flatten)]
          half := q.half ++ (halve ly.length ly).map (·.map (· / 4))
          quarter := q.quarter
            ++ (halve (halve ly.length ly).length (halve ly.length ly)).map (·.map (· / 4)) })))
  ∧ (∀ (dt c : Nat) (v : Word) (s x : State), x = s.at dt → x.blocksRun → c < 4 →
    exec (.pcChannelWrite dt c v) s = s.leaves (x.writeReg (0x0C0100 + 64 * c) v.toNat).1)
  ∧ (∀ (dt cls ctb : Nat) (d : Dec) (s x y : State), x = s.at dt → x.blocksRun → x.main.pc.dec = some d →
    y = x.modPc (fun p => { p with dec := some { d.skipTo with scanning := false } }) →
    exec (.decodePictureDone dt (.damaged cls ctb)) s = s.leaves (y.endDecode 0x0C05 cls ctb))
  ∧ (∀ (x : State) (d : Dec) (cls ctb : Nat), x.main.pc.dec = some d →
    x.endDecode 0 cls ctb = ((x.modPc (fun p => { p with
      dec := none
      decStopped := false })).notify 0x0C03 false (be 2 0 ++ [byte cls] ++ be 2 d.out ++ be 2 d.next ++ be 2 ctb)).finish
        d.op 0 [])
  ∧ (∀ (l : List (Int × Int)) (cost : Int × Int → Nat) (free : Nat) (v : Int × Int), v ∈ l →
    (leastOf l cost free).1 ∈ l ∧ (leastOf l cost free).2 = cost (leastOf l cost free).1
      ∧ (leastOf l cost free).2 ≤ cost v)
  ∧ (∀ (q : SearchIn) (i k : Nat) (pred : Int × Int) (free : Nat → Nat) (vx vy : Int) (cost : Nat),
    searchRegion q i k pred free = (vx, vy, cost) → vx.natAbs ≤ 555 ∧ vy.natAbs ≤ 299)

/-- The opcodes of the picture coder: its status and its clips are read, clips are sent, locked and unlocked, the next
picture is made IDR, a stream is loaded and decoded, and a decode is stopped (R536, R540, R542, R543, R549, R550, R553,
R554).
Where the spec leaves it open it states the model's choice: log entries 96, 97, 98. -/
def Obligations.PictureOpcodes : Prop :=
  (∀ (dt : Nat) (tag : BitVec 16) (s x : State), s.willRun dt 0x0C00 tag.toNat [] → x = s.asked dt 0x0C00 tag.toNat [] →
    exec (.pcStatus dt tag []) s = s.replies x 0 (be 4 x.pcStatusWord ++ be 4 x.pcStoreWord
      ++ (List.range 4).flatMap (fun c => be 4 (x.pcStatWord c) ++ be 4 (x.word (0x0C0100 + 64 * c + 16))
        ++ be 4 (x.word (0x0C0100 + 64 * c + 20)) ++ be 4 (x.pcChan c).mem)))
  ∧ (∀ (dt w : Nat) (tag : BitVec 16) (p : List Byte) (s x : State), s.willRun dt 0x0C01 tag.toNat p →
    x = s.asked dt 0x0C01 tag.toNat p → p.length = 4 → w = field p 0 4 → regLegal (regFields (pcReg 0)) w = true →
    bitOf w 30 = false → bits w 25 24 = 0 → bits w 7 4 = 0 →
    exec (.pcBudget dt tag p) s
      = s.replies x 0 (be 4 (geomOf w).chanBytes ++ be 4 (x.storeBytes - (geomOf w).chanBytes)))
  ∧ (∀ (dt c : Nat) (tag : BitVec 16) (p : List Byte) (s x : State), s.willRun dt 0x0C02 tag.toNat p →
    x = s.asked dt 0x0C02 tag.toNat p → p.length = 1 → c = field p 0 1 → c < 4 → (x.pcChan c).on = true →
    exec (.pcForceIdr dt tag p) s = s.leaves ((x.modChan c (fun h => { h with needIdr := true })).finish x.lastOp 0 []))
  ∧ (∀ (dt first n : Nat) (tag : BitVec 16) (p : List Byte) (s x : State), s.willRun dt 0x0C03 tag.toNat p →
    x = s.asked dt 0x0C03 tag.toNat p → p.length = 3 → first = field p 0 2 → n = field p 2 1 → 1 ≤ n → n ≤ 120 →
    exec (.pcClipList dt tag p) s = s.replies x 0 ((((((x.main.pc.clips.map (·.id)).filter (fun i =>
      decide (first ≤ i))).foldr insertNat []).take n).filterMap x.clip?).flatMap (Clip.header x)))
  ∧ (∀ (dt n : Nat) (k : Clip) (tag : BitVec 16) (p : List Byte) (s x : State), s.willRun dt 0x0C04 tag.toNat p →
    x = s.asked dt 0x0C04 tag.toNat p → p.length = 6 → n = field p 4 2 → 1 ≤ n → n ≤ 255 →
    x.clip? (field p 0 2) = some k →
    exec (.pcClipIndex dt tag p) s = s.replies x 0 (((k.records.drop (field p 2 2)).take n).flatMap PicRec.bytes))
  ∧ (∀ (dt : Nat) (k : Clip) (us : List (List Byte)) (tag : BitVec 16) (p : List Byte) (s x : State),
    s.willRun dt 0x0C05 tag.toNat p → x = s.asked dt 0x0C05 tag.toNat p → p.length = 5 → field p 4 1 = 0 →
    x.clip? (field p 0 2) = some k → field p 2 2 = k.records.length → x.readClip k.id = x →
    x.clip? k.id = some k → us = unitsOf 0 k.id 0 (x.unitSize 0) (k.header x) →
    exec (.pcClipSend dt tag p) s = s.leaves (x.modPc (fun q => { q with
      xfers := q.xfers ++ [⟨some x.lastOp, x.fld 0x070010 12 8, 0,
        us ++ unitsOf 1 k.id us.length (x.unitSize 0) [], 0, some k.id, !k.isOpen && field p 2 2 == 0,
        false⟩] })))
  ∧ (∀ (dt st : Nat) (tag : BitVec 16) (p : List Byte) (s x y : State), s.willRun dt 0x0C06 tag.toNat p →
    x = s.asked dt 0x0C06 tag.toNat p → p.length = 3 → field p 2 1 ≤ 1 →
    x.lockClip (field p 0 2) (field p 2 1 == 1) 1 = (y, st) →
    exec (.pcClipLock dt tag p) s = s.leaves (y.finish x.lastOp st []))
  ∧ (∀ (x : State) (id kind : Nat) (k : Clip), x.clip? id = some k → k.locked = false → x.lockFits k.space = true →
    x.lockClip id false kind = ((x.modClip id (fun q => { q with
      locked := true
      evidence := q.evidence || false
      lock := if q.locked then q.lock else kind })).clipNotice id k.chan 0, 0))
  ∧ (∀ (dt : Nat) (k : Clip) (tag : BitVec 16) (p : List Byte) (s x : State), s.willRun dt 0x0C07 tag.toNat p →
    x = s.asked dt 0x0C07 tag.toNat p → p.length = 2 → x.clip? (field p 0 2) = some k →
    exec (.pcClipUnlock dt tag p) s = s.leaves ((x.modClip k.id (fun q => { q with
      locked := false
      lock := 0 })).finish x.lastOp 0 []))
  ∧ (∀ (dt off : Nat) (tag : BitVec 16) (p : List Byte) (s x : State), s.willRun dt 0x0C08 tag.toNat p →
    x = s.asked dt 0x0C08 tag.toNat p → 5 ≤ p.length → p.length ≤ 4094 → off = field p 0 4 →
    off + (p.length - 4) ≤ 262144 → x.main.pc.dec = none →
    exec (.pcDecLoad dt tag p) s = s.leaves ((x.modPc (fun q => { q with
      load := putAt (q.load ++ List.replicate (off - q.load.length) 0#8) off (p.drop 4) })).finish x.lastOp 0 []))
  ∧ (∀ (dt id dest : Nat) (k : Clip) (tag : BitVec 16) (p : List Byte) (s x y z : State), s.willRun dt 0x0C09 tag.toNat p →
    x = s.asked dt 0x0C09 tag.toNat p → p.length = 7 → id = field p 0 2 → id ≠ 0xFFFF → dest = field p 6 1 →
    (dest = 1 ∨ dest = 2) → x.main.pc.dec = none → x.clip? id = some k → x.noExport dest = false →
    y = x.modPc (fun q => { q with
      dec := some { op := x.lastOp, clip := some id, dest := dest, mem := k.geom.decBytes, records := k.records }
      decStopped := false }) → y.main.pc.taken ≤ 1024 * x.poolKib → y.room 0 = some z →
    exec (.pcDecode dt tag p) s = s.leaves z)
  ∧ (∀ (dt : Nat) (tag : BitVec 16) (s x : State), s.willRun dt 0x0C0A tag.toNat [] → x = s.asked dt 0x0C0A tag.toNat [] →
    x.main.pc.dec.isSome = true →
    exec (.pcDecStop dt tag []) s = s.leaves (x.stopDecode.finish x.lastOp 0 []))

/-- Watch: a capture's frame starts, its lines enter the ring or are repaired, its end gives the mean, a capture with no
frame times out, the lamp leads an entry and is limited, and a disc that stands is told (R556 to R558, R560 to R565,
R573).
Where the spec leaves it open it states the model's choice: log entries 99, 100, 101, 102. -/
def Obligations.WatchCaptures : Prop :=
  (∀ (dt c : Nat) (h : WaChan) (st : CapStamp) (s x : State), x = s.at dt → x.blocksRun → c < 4 → h = x.waChan c →
    h.lost = false → h.cap = .awaiting → st = x.capStamp h.entry →
    exec (.frameStart dt c 0) s = s.leaves (((x.modCam c (fun q => { q with
      cap := .receiving
      noFrame := 0
      op := none
      picLit := q.lit
      stamp := st })).pcFrame c st h.lit).finish? h.op 0 (st.time ++ be 2 st.angle ++ [byte st.flags])))
  ∧ (∀ (dt c vc : Nat) (s x : State), x = s.at dt → x.blocksRun → c < 4 → vc ≠ 0 →
    exec (.frameStart dt c vc) s = s.leaves (x.count (0x0D0100 + 64 * c + 24) 15 8))
  ∧ (∀ (dt c dtype : Nat) (bad : Bool) (y cb cr : List Nat) (s x : State), x = s.at dt → x.blocksRun → c < 4 →
    dtype = csiType (x.fld (0x0D0100 + 64 * c) 30 29) → (x.waChan c).cap = .receiving →
    (x.waChan c).line < (x.waChan c).geom.h →
    exec (.lineReceived dt c 0 dtype bad y cb cr) s
      = s.leaves (x.takeLine c (if bad ∨ y.length ≠ (x.waChan c).geom.w then none else some ⟨y, cb, cr, false⟩)))
  ∧ (∀ (x y : State) (c : Nat) (raw : PLine), raw = repairLine (x.waChan c).geom (x.waChan c).above →
    y = x.count (0x0D0100 + 64 * c + 24) 7 0 →
    x.takeLine c none = (y.modCam c (fun q => { q with
      line := q.line + 1
      above := some { raw with repaired := false }
      ysum := q.ysum + (raw.y.map (· / 4)).sum })).ringLine c
        (convertLine (x.fld (0x0D0100 + 64 * c) 30 29) (x.waChan c).geom (x.waChan c).line (x.waChan c).above raw))
  ∧ (∀ (dt c mean : Nat) (h : WaChan) (s x : State), x = s.at dt → x.blocksRun → c < 4 → h = x.waChan c →
    h.cap = .receiving → h.line = h.geom.h → h.picLit = false → h.ambient = false → h.ysum = mean * (h.geom.w * h.geom.h) →
    0 < h.geom.w * h.geom.h →
    exec (.frameEnd dt c 0) s = s.leaves ((((x.modCam c (fun q => { q with
      mean := mean
      inUse2 := if q.ambient then decide (mean < x.fld (0x0D0100 + 64 * c + 16) 31 24) else q.inUse2
      blind := if q.picLit then false else q.blind })).modCam c (fun q => { q with
      cap := .idle
      entry := none
      op := none
      ambient := false })).lampDark c)))
  ∧ (∀ (dt c : Nat) (h : WaChan) (s x y : State), x = s.at dt → x.blocksRun → c < 4 → h = x.waChan c →
    h.cap = .awaiting → h.trigAt + x.fld (0x0D0100 + 64 * c) 15 0 * msT ≤ x.now →
    y = ((((x.count (0x0D0100 + 64 * c + 24) 23 16).skipRecord c (x.capStamp h.entry)).finish? h.op 0x0012 []).modCam c
      (fun q => { q with noFrame := q.noFrame + 1 })).capEnd c → (y.waChan c).noFrame ≠ 3 →
    exec (.frameTimeout dt c) s = s.leaves y)
  ∧ (∀ (dt c i : Nat) (key : Option Nat) (s x : State), x = s.at dt → x.blocksRun →
    key = x.entHeld (x.fld (0x0D0100 + 64 * c + 12) 29 21) → x.lampPos c = some i → x.reached i = true →
    x.lampWill c = true → (x.waChan c).lampDone ≠ key →
    exec (.lampOn dt c) s = s.leaves ((x.modCam c (fun h => { h with
      lit := true
      litAt := if h.lit then h.litAt else x.now })).modCam c (fun h => { h with lampDone := key })))
  ∧ (∀ (dt c : Nat) (s x : State), x = s.at dt → x.blocksRun → (x.waChan c).lit = true →
    (x.waChan c).litAt + x.fld (0x0D0100 + 64 * c + 16) 23 16 * msT ≤ x.now →
    exec (.lampMax dt c) s
      = s.leaves ((x.modCam c (fun h => { h with lit := false })).count (0x0D0100 + 64 * c + 28) 15 8))
  ∧ (∀ (dt d : Nat) (s x : State), x = s.at dt → x.blocksRun → d < 4 → x.bit (0x0D0800 + 32 * d) 31 = true →
    (x.reader d).stopped = false → (x.reader d).rotAt + x.fld (0x0D0800 + 32 * d + 12) 19 12 * secT ≤ x.now →
    exec (.discStopTimeout dt d) s = s.leaves ((x.modReader d (fun r => { r with stopped := true })).discNotice d 2
      (x.capStamp none) 0))
  ∧ (∀ (dt c : Nat) (tag : BitVec 16) (p : List Byte) (s x : State), s.willRun dt 0x0D00 tag.toNat p →
    x = s.asked dt 0x0D00 tag.toNat p → p.length = 1 → c = field p 0 1 → c < 4 →
    exec (.waStatus dt tag p) s = s.replies x 0 (be 4 (x.word (0x0D0100 + 64 * c)) ++ be 4 (x.word (0x0D0100 + 64 * c + 12))
      ++ be 4 (x.waStatWord c) ++ be 4 (x.word (0x0D0100 + 64 * c + 24)) ++ be 4 (x.word (0x0D0100 + 64 * c + 28))))
  ∧ (∀ (dt c : Nat) (tag : BitVec 16) (p : List Byte) (s x : State), s.willRun dt 0x0D01 tag.toNat p →
    x = s.asked dt 0x0D01 tag.toNat p → p.length = 1 → c = field p 0 1 → c < 4 → (x.waChan c).cap = .idle →
    x.trigOk c = true → x.lampInUse c = false → x.bit (0x0D0100 + 64 * c) 28 = true →
    exec (.waCapture dt tag p) s = s.leaves ((x.pcTrigger c).modCam c (fun h => { h with
      cap := .awaiting
      trigAt := x.now
      entry := none
      op := some x.lastOp
      line := 0
      above := none
      ysum := 0
      geom := geomOf (x.word (0x0C0100 + 64 * c))
      accepted := h.accepted + 1
      ambient := x.fld (0x0D0100 + 64 * c + 12) 31 30 == 2 && ((x.waChan c).accepted + 1) % 64 == 0 })))
  ∧ (∀ (dt c poc a dn : Nat) (f : List Nat) (tag : BitVec 16) (p : List Byte) (s x : State), s.willRun dt 0x0D02 tag.toNat p →
    x = s.asked dt 0x0D02 tag.toNat p → p.length = 1 → c = field p 0 1 → c < 4 →
    (x.waChan c).last = some (poc, a, dn, f) →
    exec (.waField dt tag p) s = s.replies x 0 (be 2 poc ++ [byte a, byte dn] ++ f.flatMap (be 4)))
  ∧ (∀ (dt d : Nat) (tag : BitVec 16) (p : List Byte) (s x : State), s.willRun dt 0x0D03 tag.toNat p →
    x = s.asked dt 0x0D03 tag.toNat p → p.length = 1 → d = field p 0 1 → d < 4 →
    exec (.waDisc dt tag p) s = s.replies x 0 (be 4 (x.discTotal d (x.reader d).fwd)
      ++ be 4 (x.discTotal d (x.reader d).rev) ++ be 4 (x.discTotal d (x.reader d).unc) ++ be 4 (x.discSpeedWord d)))
  ∧ (∀ (dt c : Nat) (tag : BitVec 16) (p : List Byte) (s x : State), s.willRun dt 0x0D04 tag.toNat p →
    x = s.asked dt 0x0D04 tag.toNat p → p.length = 4 + field p 2 1 → c = field p 0 1 → c < 4 → field p 1 1 ≤ 127 →
    field p 2 1 ≤ 32 → field p 3 1 ≤ 32 → x.bit (0x0C0100 + 64 * c) 31 = false →
    ∃ y d z, x.draw = (Config.free x.freeIdx, y) ∧ y.drawBytes (field p 3 1) = (d, z) ∧
      exec (.waI2c dt tag p) s = s.leaves (if Config.free x.freeIdx % 2 = 0 then y.finish x.lastOp 0x0D02 []
        else z.finish x.lastOp 0 d))

/-- The fuse channels: a sample trips or ends an inrush, the comparators and timers move a channel between its states, the
seat of a card is told, and PW_CLEAR leaves LATCHED and DAMAGED (R587, R590, R592 to R601, R604, R611).
Where the spec leaves it open it states the model's choice: log entries 103, 104, 144. -/
def Obligations.FuseChannels : Prop :=
  (∀ (dt bus : Nat) (sense out : List Nat) (s x : State), x = s.at dt → x.blocksRun →
    exec (.pwSample dt bus sense out) s = s.leaves ((List.range 12).foldl State.pwSampleChan (x.modPw (fun p => { p with
      bus := min 1023 bus
      chans := p.chans.mapIdx (fun i f => { f with
        sense := min 1023 (at? sense i 0)
        out := min 1023 (at? out i 0)
        sampledAt := some x.now }) }))))
  ∧ (∀ (x y : State) (c lim : Nat) (f : Fuse), f = x.fuse c → f.st = .on → lim = bits (x.pwWord c 2) 23 16 →
    lim * 10 ≤ f.sense * 2 → f.sense * 2 ≤ bits (x.pwWord c 2) 31 24 * 10 → 10 * bits (x.pwWord c 2) 7 0 ≤ f.ocRun + 1 →
    y = x.modFuse c (fun q => { q with
      busOk := if x.busIn c then some (q.busOk.getD x.now) else none
      ocRun := f.ocRun + 1
      dmgSince := if x.outHigh c && !q.st.gate && q.st != .damaged then some (q.dmgSince.getD x.now) else none }) →
    x.pwSampleChan c = y.trip c 1)
  ∧ (∀ (x y : State) (c : Nat) (f : Fuse), f = x.fuse c → f.st.gate = true →
    bits (x.pwWord c 2) 31 24 * 10 < f.sense * 2 → y = x.modFuse c (fun q => { q with
      busOk := if x.busIn c then some (q.busOk.getD x.now) else none
      ocRun := if f.st = .on ∧ bits (x.pwWord c 2) 23 16 * 10 ≤ f.sense * 2 then f.ocRun + 1 else 0
      dmgSince := if x.outHigh c && !q.st.gate && q.st != .damaged then some (q.dmgSince.getD x.now) else none }) →
    x.pwSampleChan c = y.trip c 0)
  ∧ (∀ (dt c : Nat) (s x : State), x = s.at dt → x.blocksRun → (x.fuse c).st.gate = true →
    exec (.fastTrip dt c) s = s.leaves (x.trip c 0))
  ∧ (∀ (x y : State) (c kind : Nat), y = (((x.modFuse c (fun f => { f with trips := f.trips + 1 })).count
      (0x0E0100 + 32 * c + 28) (31 - 8 * kind) (24 - 8 * kind)).pwEvent c kind) →
    bits (x.pwWord c 4) 15 12 < ((x.modFuse c (fun f => { f with trips := f.trips + 1 })).fuse c).trips →
    x.trip c kind = (y.gateOff c .latched).pwEvent c 6)
  ∧ (∀ (dt c : Nat) (s x : State), x = s.at dt → x.blocksRun → (x.fuse c).st = .inrush → (x.fuse c).frozenAt = none →
    exec (.sagFreeze dt c true) s = s.leaves (x.modFuse c (fun f => { f with frozenAt := some x.now })))
  ∧ (∀ (dt c t : Nat) (s x : State), x = s.at dt → x.blocksRun → (x.fuse c).st = .inrush →
    (x.fuse c).frozenAt = some t → t + 5 * msT ≤ x.now → (x.fuse c).sampledAt ≠ some x.now →
    exec (.sagTimeout dt c) s
      = s.leaves (((x.count (0x0E0100 + 32 * c + 28) 7 0).pwEvent c 3).gateOff c .backoff))
  ∧ (∀ (dt c t : Nat) (s x : State), x = s.at dt → x.blocksRun → (x.fuse c).st = .on → (x.fuse c).uvSince = some t →
    t + bits (x.pwWord c 4) 7 0 * msT ≤ x.now →
    exec (.uvOff dt c) s = s.leaves ((x.pwEvent c 5).gateOff c .wait))
  ∧ (∀ (dt c : Nat) (s x : State), x = s.at dt → x.blocksRun → c < 8 → (x.fuse c).seated = false →
    exec (.seatChange dt c (false, false)) s = s.leaves ((x.modFuse c (fun f => { f with
      seated := true
      seatedAt := x.now })).pwEvent c 7))
  ∧ (∀ (dt c : Nat) (a b : Bool) (s x : State), x = s.at dt → x.blocksRun → c < 8 → (x.fuse c).seated = true →
    (a = true ∨ b = true) → (x.fuse c).st ≠ .off → (x.fuse c).st ≠ .damaged →
    exec (.seatChange dt c (a, b)) s = s.leaves (((x.modFuse c (fun f => { f with
      seated := false
      trips := 0 })).gateOff c .wait).pwEvent c 8))
  ∧ (∀ (dt c : Nat) (s x : State), x = s.at dt → x.blocksRun → (x.fuse c).st = .wait → x.startMet c = true →
    x.outHigh c = false → x.hearth.ps ≠ .smoulder →
    exec (.insTimeMet dt c) s = s.leaves (x.modFuse c (fun f => { f with
      st := .inrush
      inrushAt := x.now
      startMv := 32 * f.out
      frozen := 0
      frozenAt := none
      dmgSince := none
      uvSince := none
      held := some ((List.range 5).map (fun i => x.word (0x0E0100 + 32 * c + 4 * i))) })))
  ∧ (∀ (dt c : Nat) (s x : State), x = s.at dt → x.blocksRun → (x.fuse c).st = .inrush → (x.fuse c).frozenAt = none →
    (x.fuse c).inrushAt + (x.fuse c).frozen + bits (x.pwWord c 3) 23 16 * msT ≤ x.now →
    exec (.inrushTimeout dt c) s = s.leaves (x.trip c 2))
  ∧ (∀ (dt c : Nat) (s x : State), x = s.at dt → x.blocksRun → (x.fuse c).st = .backoff →
    (x.fuse c).offAt + bits (x.pwWord c 4) 23 16 * 10 * msT ≤ x.now →
    exec (.backoffExpiry dt c) s = s.leaves (x.gateOff c .wait))
  ∧ (∀ (dt c : Nat) (s x : State), x = s.at dt → x.blocksRun → (x.fuse c).st = .on → (x.fuse c).onAt + secT ≤ x.now →
    exec (.onStable dt c) s = s.leaves (x.modFuse c (fun f => { f with trips := 0 })))
  ∧ (∀ (dt c t : Nat) (s x : State), x = s.at dt → x.blocksRun → (x.fuse c).dmgSince = some t →
    (x.fuse c).st.gate = false → (x.fuse c).st ≠ .damaged → t + bits (x.pwWord c 0) 7 0 * 10 * msT ≤ x.now →
    exec (.damagedTimeout dt c) s = s.leaves (((x.modFuse c (fun f => { f with
      st := .damaged
      dmgSince := none })).setDamaged c true).pwFet c))
  ∧ (∀ (dt c : Nat) (s x : State), x = s.at dt → x.blocksRun → c < 12 →
    exec (.pwDisable dt c) s
      = s.leaves (x.writeReg (0x0E0100 + 32 * c) (putBits (x.word (0x0E0100 + 32 * c)) 31 31 0)).1)
  ∧ (∀ (dt : Nat) (tag : BitVec 16) (s x : State), s.willRun dt 0x0E00 tag.toNat [] → x = s.asked dt 0x0E00 tag.toNat [] →
    exec (.pwStatus dt tag []) s = s.replies x 0 (be 4 x.main.pw.bus ++ be 4 x.pwStatusWord
      ++ (List.range 12).flatMap (fun c => be 4 (x.pwStatWord c) ++ be 4 (x.pwMeasWord c)
        ++ be 4 (x.word (0x0E0100 + 32 * c + 28)))))
  ∧ (∀ (dt c : Nat) (tag : BitVec 16) (p : List Byte) (s x : State), s.willRun dt 0x0E01 tag.toNat p →
    x = s.asked dt 0x0E01 tag.toNat p → p.length = 1 → c = field p 0 1 → c < 12 → (x.fuse c).st = .latched →
    exec (.pwClear dt tag p) s
      = s.leaves ((((x.modFuse c (fun f => { f with trips := 0 })).gateOff c .wait).inrush c).finish x.lastOp 0 []))
  ∧ (∀ (dt c : Nat) (tag : BitVec 16) (p : List Byte) (s x : State), s.willRun dt 0x0E01 tag.toNat p →
    x = s.asked dt 0x0E01 tag.toNat p → p.length = 1 → c = field p 0 1 → c < 12 → (x.fuse c).st = .on →
    exec (.pwClear dt tag p) s = s.replies x 0x0E01 [])

/-- Flits: one that fails is NAKed, a TRAFFIC flit in sequence is accepted whole, a slot carries what R619 and R631 say, and
STATUS, NAK and INIT do their work (R616, R618, R622, R625 to R628, R631, R632).
Where the spec leaves it open it states the model's choice: log entries 36, 37, 138. -/
def Obligations.StraitFlits : Prop :=
  (∀ (dt k : Nat) (flit : List Byte) (s x : State), x = s.at dt → x.blocksRun → k < 2 → (x.link k).st = .up →
    (x.link k).nak = false →
    exec (.flitRx dt k flit true) s
      = s.leaves ((x.modLink k (fun l => { l with
          nak := true
          nakAt := none })).count (0x0F0134 + 256 * k) 31 16))
  ∧ (∀ (dt k h : Nat) (flit body : List Byte) (s x : State), x = s.at dt → x.blocksRun → k < 2 → (x.link k).st = .up →
    h = field flit 0 2 → body = bytesAt flit 2 27 → bits h 15 14 = 2 →
    field flit 29 3 = flitCrc (x.link k).nextRx (bytesAt flit 0 2) body → flit ≠ trainingSlot →
    exec (.flitRx dt k flit false) s = s.leaves (x.rxTraffic k h body))
  ∧ (∀ (dt k : Nat) (s x y : State), x = s.at dt → x.blocksRun → k < 2 → (x.link k).st = .up →
    x.draw = (Config.free x.freeIdx, y) →
    exec (.flitRx dt k trainingSlot false) s = s.leaves (y.retrain k (Config.free x.freeIdx % 8) false))
  ∧ (∀ (x y : State) (k h cls : Nat) (body : List Byte) (c : StClass), cls = bits h 13 12 →
    c = at? (x.link k).classes cls {} → h % 4 = 0 → 1 ≤ bits h 9 5 → bits h 9 5 ≤ 27 → bitOf h 11 = true →
    bitOf h 10 = false → c.rx = none → 1 ≤ sdiff 16 (c.ownD + c.df) c.rd → 1 ≤ sdiff 16 (c.ownH + c.hf) c.rh →
    y = x.modLink k (fun l => { l with
      nextRx := (l.nextRx + 1) % 4096
      nak := false
      nakAt := none
      uncovered := l.uncovered + 1
      uncoveredAt := some (l.uncoveredAt.getD x.now)
      due := if l.uncovered = 31 then l.due ++ [(0x01, [])] else l.due }) →
    x.rxTraffic k h body = y.modLink k (fun l => l.modClass cls (fun c => { c with
      rd := (c.rd + 1) % 65536
      rh := (c.rh + 1) % 65536
      rx := some ⟨bits h 4 2, 1, body.take (bits h 9 5), x.main.nt.sec * 1000000000 + x.main.nt.ns, false⟩ })))
  ∧ (∀ (dt k : Nat) (s x : State), x = s.at dt → x.blocksRun → k < 2 → (x.link k).st = .up → (x.link k).nak = false →
    (x.link k).due = [] → (x.link k).sleepOrder = false → (x.link k).replayAt = none → x.pickClass k = none →
    exec (.flitSlot dt k) s = s.leaves (x.modLink k (fun l => { l with lastFlit := some idleFlit })))
  ∧ (∀ (dt k c : Nat) (s x : State), x = s.at dt → x.blocksRun → k < 2 → (x.link k).st = .up → (x.link k).nak = false →
    (x.link k).due = [] → (x.link k).sleepOrder = false → (x.link k).replayAt = none → x.pickClass k = some c →
    exec (.flitSlot dt k) s = s.leaves (x.sendNew k c))
  ∧ (∀ (dt k nr : Nat) (b : List Byte) (s x : State), x = s.at dt → x.blocksRun → k < 2 → (x.link k).st = .up →
    nr = field b 0 2 → nr < 4096 → (b.drop 18).all (· == 0#8) = true → 0 ≤ sdiff12 nr (x.link k).oldest →
    sdiff12 nr (x.link k).oldest ≤ (x.link k).out →
    (∀ i < 4, creditOk (at? (x.link k).classes i {}).advH (at? (x.link k).classes i {}).phf (field b (2 + 4 * i) 2)
        (at? (x.link k).classes i {}).hc = true
      ∧ creditOk (at? (x.link k).classes i {}).advD (at? (x.link k).classes i {}).pdf (field b (4 + 4 * i) 2)
        (at? (x.link k).classes i {}).dc = true) →
    (∃ y, y = x.modLink k (fun l => { (l.ack (sdiff12 nr (x.link k).oldest).toNat x.now) with
        classes := (l.ack (sdiff12 nr (x.link k).oldest).toNat x.now).classes.zipIdx.map (fun (c, i) =>
          c.credit (at? (creditsOf b) i (0, 0)).1 (at? (creditsOf b) i (0, 0)).2) })
      ∧ exec (.status dt k b) s = s.leaves y ∧ exec (.nak dt k b) s = s.leaves (y.replayTrigger k)))
  ∧ (∀ (x : State) (k : Nat), (x.link k).out ≠ 0 → (x.link k).r < bits (x.linkCfg k) 27 24 →
    x.replayTrigger k = (x.modLink k (fun l => { l with
      r := l.r + 1
      replayAt := some 0
      lastAdvance := x.now })).count (0x0F0138 + 256 * k) 31 16)
  ∧ (∀ (dt k : Nat) (b : List Byte) (s x : State), x = s.at dt → x.blocksRun → k < 2 → (x.link k).st = .init →
    field b 0 1 = 1 → field b 1 1 < 16 → field b 4 2 < 4096 → field b 6 2 < 4096 → field b 8 1 < 4 →
    (b.drop 25).all (· == 0#8) = true → field b 2 2 ≠ x.main.st.session →
    ((x.link k).fresh = true ∨ (x.link k).lastUp ≠ some (x.main.st.session, field b 2 2) ∨ bitOf (field b 8 1) 1 = false
      ∨ (0 ≤ sdiff12 (field b 6 2) (x.link k).nextRx ∧ sdiff12 (field b 6 2) (x.link k).nextRx ≤ 1024)) →
    exec (.init dt k b) s = s.leaves ((x.modLink k (fun l => { l with
      gotInit := true
      partnerSession := field b 2 2
      partnerMember := field b 1 1 % 8
      partnerLink := field b 1 1 / 8 % 2
      partnerRx := field b 4 2
      gotSeen := l.gotSeen || bitOf (field b 8 1) 0
      partnerResume := bitOf (field b 8 1) 1
      partnerAdv := (List.range 4).map (fun c => (field b (9 + 4 * c) 2, field b (11 + 4 * c) 2)) })).tryUp k))

/-- A Strait link's states: a retrain leaves UP for TRAINING, idle links sleep and wake, the timers of R626 and R628 run,
training ends or fails, and a link is read, configured and retrained (R619, R626, R628, R631, R633, R635 to R638, R641).
Where the spec leaves it open it states the model's choice: log entries 38, 138. -/
def Obligations.StraitLinks : Prop :=
  (∀ (dt k : Nat) (cause : BitVec 8) (s x y : State), x = s.at dt → x.blocksRun → k < 2 → (x.link k).st = .up →
    y = (((x.leaveUp k).count (0x0F0138 + 256 * k) 15 8).train k cause.toNat).modLink k (fun l => { l with due := [] }) →
    exec (.retrain dt k cause) s
      = s.leaves (((y.linkAsh k 4 2 cause.toNat).linkNotice k 4 2 cause.toNat).sendRoutes))
  ∧ (∀ (dt k : Nat) (s x : State), x = s.at dt → x.blocksRun → k < 2 → (x.link k).st = .up →
    exec (.idleReq dt k) s = s.leaves (x.modLink k (fun l => { l with
      due := l.due ++ [(if l.quiet then 0x06 else 0x01, [])] })))
  ∧ (∀ (dt k : Nat) (s x : State), x = s.at dt → x.blocksRun → k < 2 → (x.link k).st = .up →
    (x.link k).sleepOrder = true →
    exec (.idleAck dt k) s = s.leaves (((((x.leaveUp k).setLink k .sleep (x.link k).cause).modLink k (fun l => { l with
      due := []
      idleAt := none })).linkLanes k Lane.off).sendRoutes))
  ∧ (∀ (dt k t : Nat) (s x : State), x = s.at dt → x.blocksRun → k < 2 → (x.link k).st = .up → (x.link k).nak = false →
    (x.link k).uncoveredAt = some t → t + 640 ≤ x.now → (x.link k).due = [] →
    exec (.statusTimer dt k) s = s.leaves (x.modLink k (fun l => { l with
      nakAt := l.nakAt
      due := if !l.due.any (fun d => d.1 == 0x01) then l.due ++ [(0x01, [])] else l.due })))
  ∧ (∀ (dt k : Nat) (s x : State), x = s.at dt → x.blocksRun → k < 2 → (x.link k).st = .up → (x.link k).out ≠ 0 →
    (x.link k).lastAdvance + 5120 ≤ x.now →
    exec (.ackTimeout dt k) s = s.leaves (((x.count (0x0F013C + 256 * k) 7 0).modLink k (fun l => { l with
      lastAdvance := x.now })).replayTrigger k))
  ∧ (∀ (dt k cls : Nat) (dest : BitVec 3) (b : List Byte) (s x y : State), x = s.at dt → x.blocksRun →
    x.offerOn k ⟨cls, dest.toNat, b⟩ = some y → exec (.stMessageOffer dt k cls dest b) s = s.leaves y)
  ∧ (∀ (x : State) (k : Nat) (m : StMsg), (x.link k).st = .up → m.bytes ≠ [] → m.bytes.length ≤ 27648 →
    (at? (x.link k).classes m.cls {}).queued + m.bytes.length ≤ x.txqSize k m.cls →
    x.offerOn k m = some (x.modLink k (fun l => l.modClass m.cls (fun c => { c with txq := c.txq ++ [m] }))))
  ∧ (∀ (dt k : Nat) (s x : State), x = s.at dt → x.blocksRun → k < 2 → (x.link k).st = .training →
    x.laneLocked (laneOf k (mapLane (x.rxMap k) 0)) = true → x.laneLocked (laneOf k (mapLane (x.rxMap k) 1)) = true →
    (∀ i < 3, x.fld (lnCfg (laneOf k i)) 30 29 ≠ 1) → (x.swap k).rx = none →
    exec (.trainingDone dt k) s = s.leaves (x.setLink k .init (x.link k).cause))
  ∧ (∀ (dt k : Nat) (s x : State), x = s.at dt → x.blocksRun → k < 2 → (x.link k).st = .init →
    (x.link k).since + msT ≤ x.now → exec (.trainingTimeout dt k) s = s.leaves (x.linkDown k 6))
  ∧ (∀ (dt k : Nat) (s x : State), x = s.at dt → x.blocksRun → k < 2 → (x.link k).st = .down →
    (x.link k).since + bits (x.linkCfg k) 7 0 * 10 * msT ≤ x.now →
    exec (.downRetry dt k) s = s.leaves (x.train k (x.link k).cause))
  ∧ (∀ (dt k : Nat) (s x : State), x = s.at dt → x.blocksRun → k < 2 → (x.link k).st = .sleep →
    x.hearth.ps ≠ .smoulder → exec (.sleepWake dt k false) s = s.leaves (x.train k (x.link k).cause))
  ∧ (∀ (dt k : Nat) (v : Word) (s x : State), x = s.at dt → x.blocksRun → k < 2 →
    exec (.stLinkWrite dt k v) s = s.leaves (x.writeReg (0x0F0100 + 256 * k) v.toNat).1)
  ∧ (∀ (dt k : Nat) (tag : BitVec 16) (p : List Byte) (s x : State), s.willRun dt 0x0F00 tag.toNat p →
    x = s.asked dt 0x0F00 tag.toNat p → p.length = 1 → k = field p 0 1 → k < 2 →
    exec (.stStatus dt tag p) s = s.replies x 0 (be 4 (x.stLkStat k) ++ be 4 (x.stLkSeq k) ++ be 4 (x.stLkOldest k)
      ++ (List.range 4).flatMap (fun c => be 4 (x.stLkAvail k c))
      ++ (List.range 3).flatMap (fun i => be 4 (x.word (0x0F0134 + 256 * k + 4 * i)))))
  ∧ (∀ (dt k : Nat) (tag : BitVec 16) (p : List Byte) (s x : State), s.willRun dt 0x0F01 tag.toNat p →
    x = s.asked dt 0x0F01 tag.toNat p → p.length = 1 → k = field p 0 1 → k < 2 → (x.link k).st = .up →
    exec (.stRetrain dt tag p) s = s.leaves ((x.retrain k 4 true).modLink k (fun l => { l with tag := some x.lastOp })))

/-- Office in a stack: routes, ANNOUNCE, STACK_STATE and MEMBER_STATE on their timers; after ELECT_MS a member joins a lead
that it knows or, as the top candidate, takes office with a TERM one greater than every
one announced, and a lead that its own reset took out of office does so again; a lead whose
STACK_STATE stays away for LOST_MS is lost, a lead without half of its members abdicates, and after TAKEOVER_MS the top
candidate takes over (R644, R647 to R650, R660 to R662).
Where the spec leaves it open it states the model's choice: log entries 108, 110, 111. -/
def Obligations.StackOffice : Prop :=
  (∀ (dt : Nat) (s x : State), x = s.at dt → x.blocksRun → x.main.sk.step7At.isSome = true →
    x.main.sk.routeAt + 16 * msT ≤ x.now →
    exec (.routeTimer dt) s = s.leaves (x.sendRoutes.modSk (fun k => { k with routeAt := x.now })))
  ∧ (∀ (dt : Nat) (s x : State), x = s.at dt → x.blocksRun → x.main.sk.step7At.isSome = true →
    x.main.sk.announceAt + 1024 * msT ≤ x.now → exec (.announceTimer dt) s = s.leaves x.announceAll)
  ∧ (∀ (dt : Nat) (s x : State), x = s.at dt → x.blocksRun → x.main.sk.formed = true → x.main.sk.isLead = true →
    x.main.sk.stateAt + 32 * msT ≤ x.now → exec (.stackStateTimer dt) s = s.leaves x.sendStackState)
  ∧ (∀ (dt : Nat) (s x : State), x = s.at dt → x.blocksRun → x.main.sk.formed = true → x.main.sk.isLead = false →
    x.main.sk.stateAt + 32 * msT ≤ x.now → earliest x.ownEvents = none →
    exec (.stackStateTimer dt) s = s.leaves (x.sendMemberState 0xFFFFFFFF x.blockerBits))
  ∧ (∀ (dt a : Nat) (s x : State), x = s.at dt → x.blocksRun → x.main.sk.formed = false →
    x.main.sk.step7At = some a → a + x.fld 0x100004 23 16 * msT ≤ x.now → x.main.sk.leadValid = true →
    x.hops x.main.sk.lead < 8 → exec (.electTimeout dt) s = s.leaves (x.stepEnd 7).joinStack)
  ∧ (∀ (dt a : Nat) (s x : State), x = s.at dt → x.blocksRun → x.main.sk.formed = false →
    x.main.sk.step7At = some a → a + x.fld 0x100004 23 16 * msT ≤ x.now → x.main.sk.leadValid = false →
    x.topCandidate = some x.self → x.main.boot.cause < 4 →
    exec (.electTimeout dt) s = s.leaves (((x.stepEnd 7).count 0x10000C 7 0).takeOffice
      ((x.maxTerm ((List.range 8).filter (fun m => decide (x.hops m < 8))) + 1) % 65536)))
  ∧ (∀ (dt a : Nat) (s x : State), x = s.at dt → x.blocksRun → x.main.sk.formed = false →
    x.main.sk.step7At = some a → a + x.fld 0x100004 23 16 * msT ≤ x.now → x.main.sk.leadValid = false →
    x.hearth.start.lead = true → x.candidate x.self = true → 4 ≤ x.main.boot.cause →
    exec (.electTimeout dt) s = s.leaves (((x.stepEnd 7).count 0x10000C 7 0).takeOffice
      ((x.maxTerm ((List.range 8).filter (fun m => decide (x.hops m < 8))) + 1) % 65536)).leadBack)
  ∧ (∀ (dt : Nat) (s x : State), x = s.at dt → x.blocksRun → x.main.sk.formed = true → x.main.sk.isLead = false →
    x.main.sk.leadLost = none → x.hearth.ps ≠ .smoulder → x.main.sk.lastState + x.fld 0x100004 15 8 * 10 * msT ≤ x.now →
    exec (.leadLost dt) s = s.leaves (x.modSk (fun k => { k with
      leadLost := some x.now
      lostStamp := x.noticeBytes 0x1004 [] })))
  ∧ (∀ (dt a : Nat) (s x : State), x = s.at dt → x.blocksRun → x.main.sk.formed = true → x.main.sk.isLead = true →
    x.main.sk.lowSince = some a → a + x.fld 0x100004 15 8 * 10 * msT ≤ x.now →
    exec (.abdicate dt) s = s.leaves (x.darken.modSk (fun k => { k with
      leadLost := some x.now
      lostStamp := x.noticeBytes 0x1004 []
      lastState := x.now })))
  ∧ (∀ (dt a : Nat) (s x : State), x = s.at dt → x.blocksRun → x.main.sk.isLead = false →
    x.main.sk.leadLost = some a → a + x.fld 0x100004 7 0 * 10 * msT ≤ x.now → x.topCandidate = some x.self →
    (x.fld 0x100004 31 28 < 2 * x.reachCount
      ∨ 2 * x.reachCount = x.fld 0x100004 31 28 ∧ x.bit 0x100004 27 = true) →
    exec (.takeover dt) s = s.leaves
      (((((x.clearOffice.count 0x10000C 15 8).modSk (fun k => { k with changed := some x.main.sk.lead })).takeOffice
        ((x.maxTerm (List.range 8) + 1) % 65536)).loadTree).treeOffice))
  ∧ (∀ (dt a : Nat) (s x : State), x = s.at dt → x.blocksRun → x.main.sk.leadLost = some a →
    (x.now < a + x.fld 0x100004 7 0 * 10 * msT ∨ 2 * x.reachCount < x.fld 0x100004 31 28
      ∨ 2 * x.reachCount = x.fld 0x100004 31 28 ∧ x.bit 0x100004 27 = false) →
    exec (.takeover dt) s = s.leaves x)
  ∧ (∀ (dt m a : Nat) (s x y : State), x = s.at dt → x.blocksRun → m < 8 → (x.peer m).duplicateAt = some a →
    a + 3 * secT ≤ x.now → (∀ k < 8, k ≠ m → (x.peer k).duplicateAt = none) →
    y = (x.modPeer m (fun p => { p with duplicateAt := none })).judge m →
    (∀ k < 8, (y.peer k).duplicateAt = none) →
    exec (.duplicateQuietTimeout dt) s = s.leaves y)
  ∧ (∀ (dt m a : Nat) (s x y : State), x = s.at dt → x.blocksRun → x.main.sk.formed = true → x.main.sk.isLead = true →
    x.hearth.ps ≠ .smoulder → m < 8 → m ≠ x.self → (x.peer m).present = true → (x.peer m).stateAt = some a →
    a + x.lostT ≤ x.now → x.main.sk.lastState + x.lostT ≤ x.now →
    (∀ k < 8, k ≠ m → (x.peer k).stateAt = none) → y = x.setPresent m false →
    (∀ k < 8, k ≠ m → (y.peer k).stateAt = none) →
    exec (.memberStateTimeout dt) s = s.leaves y)

/-- The messages of a stack's order: ANNOUNCE, STACK_STATE, MEMBER_STATE and ROUTE are taken as R644 and R647 to R650 say,
a COMMAND runs in the order of its number, and a member's reply or notice takes its place on the lead's transport
(R88, R90, R646).
Where the spec leaves it open it states the model's choice: log entries 105, 106, 107. -/
def Obligations.StackOrders : Prop :=
  (∀ (dt m : Nat) (t : Taken) (s x y : State), x = s.at dt → x.blocksRun → x.takeMsg 0x01 = (some t, y) → m = t.src →
    m ≠ y.self → (y.peer m).announced = false → y.main.sk.isLead = false → y.main.sk.leadValid = false →
    exec (.announce dt) s = s.leaves ((y.modPeer m (fun p => { p with
      announced := true
      flags := field t.body 0 1
      fw := field t.body 1 4
      seq := field t.body 5 4
      hash := bytesAt t.body 9 32
      term := field t.body 41 2
      serial := field t.body 43 8
      announcedAt := y.now
      stateFlags := p.stateFlags / 2 * 2 + b2n (bitOf (field t.body 0 1) 1) })).judge m))
  ∧ (∀ (dt : Nat) (t : Taken) (s x y : State), x = s.at dt → x.blocksRun → x.takeMsg 0x01 = (some t, y) →
    t.src = y.self → field t.body 43 8 ≠ ownSerial →
    exec (.announce dt) s
      = s.leaves ((y.modPeer y.self (fun p => { p with duplicateAt := some y.now })).judge y.self))
  ∧ (∀ (dt : Nat) (t : Taken) (s x y : State), x = s.at dt → x.blocksRun → x.takeMsg 0x02 = (some t, y) →
    field t.body 0 1 % 8 ≠ y.self → 0 < sdiff 16 t.term y.main.sk.term →
    exec (.stackState dt) s = s.leaves (y.follow t))
  ∧ (∀ (dt : Nat) (t : Taken) (s x y : State), x = s.at dt → x.blocksRun → x.takeMsg 0x02 = (some t, y) →
    t.term = y.main.sk.term → y.main.sk.isLead = true → y.outranks (field t.body 0 1 % 8) y.self = false →
    exec (.stackState dt) s = s.leaves y)
  ∧ (∀ (type k c : Nat) (w : Waiting) (x : State), x.findMsg type = some (k, c, w) → type ≠ 0x01 →
    type ≠ 0x04 → sdiff 16 (field w.msg.bytes 2 2) x.main.sk.term < 0 →
    x.takeMsg type = (none, x.freeWaiting k c w))
  ∧ (∀ (dt : Nat) (t : Taken) (s x y : State), x = s.at dt → x.blocksRun → x.takeMsg 0x03 = (some t, y) →
    y.main.sk.isLead = true →
    exec (.memberState dt) s = s.leaves ((y.modPeer t.src (fun p => { p with
      stateAt := some y.now
      next := field t.body 0 4
      blockers := field t.body 4 2
      stateFlags := field t.body 7 1 })).setPresent t.src true))
  ∧ (∀ (x : State) (m : Nat), (x.peer m).present = true →
    x.setPresent m false = ((x.modPeer m (fun p => { p with
      present := false
      pushed := []
      imageSent := false })).notify 0x1001 false
        [byte (x.modPeer m (fun p => { p with
          present := false
          pushed := []
          imageSent := false })).presentMap, byte x.presentMap]).memberLeft m)
  ∧ (∀ (dt : Nat) (t : Taken) (s x y z : State), x = s.at dt → x.blocksRun → x.takeMsg 0x04 = (some t, y) →
    z = y.modSk (fun k => { k with peers := (k.peers.zipIdx).map (fun (p, m) =>
      { p with hops := p.hops.set t.link (min 8 (field t.body m 1)) }) }) →
    exec (.route dt) s = s.leaves
      (if (List.range 8).map z.hops = (List.range 8).map y.hops then z.moveMsgs else z.sendRoutes.moveMsgs))
  ∧ (∀ (dt id : Nat) (e : OpEntry) (s x y : State), x = s.at dt → x.blocksRun → x.commandIn = ([id], y) →
    y.op? id = some e → y.quarantined = false →
    exec (.command dt) s = s.leaves (y.runOpcode e.opcode id e.params))
  ∧ (∀ (dt id : Nat) (e : OpEntry) (s x y : State), x = s.at dt → x.blocksRun → x.commandIn = ([id], y) →
    y.op? id = some e → y.quarantined = true → quarantineOk e.opcode = false →
    exec (.command dt) s = s.leaves (y.finish id 0x000C []))
  ∧ (∀ (dt : Nat) (t : Taken) (e : OpEntry) (s x y : State), x = s.at dt → x.blocksRun →
    x.takeMsg 0x06 = (some t, y) → (hdrOf t.body).kind = 1 → y.opOfTag (hdrOf t.body).tag = some e →
    e.await.contains t.src = true → e.opcode = (hdrOf t.body).opcode → e.parts = [] →
    (hdrOf t.body).part = 0 → bitOf (hdrOf t.body).flags 5 = false →
    exec (.replyNotice dt) s = s.leaves ((y.modOp e.id (fun a => { a with
      lastReply := if a.all then a.lastReply else y.now })).memberResult e.id
        ⟨t.src, (hdrOf t.body).status, bytesAt t.body 16 (hdrOf t.body).length⟩))
  ∧ (∀ (dt : Nat) (t : Taken) (s x y : State), x = s.at dt → x.blocksRun → x.takeMsg 0x06 = (some t, y) →
    (hdrOf t.body).kind = 2 → y.main.cmd.started = true →
    exec (.replyNotice dt) s = s.leaves ((y.takePlace ⟨(hdrOf t.body).opcode, t.src, bitOf (hdrOf t.body).flags 4,
      bytesAt t.body 16 (hdrOf t.body).length, none, {}⟩).pumpOut))

/-- The traffic of a stack: results and SDUs reach the lead's queues or are passed back, downstream SDUs reach their member,
a refused item is acted on by its source, and register accesses, identity, the tree record, configuration and firmware
images reach the member (R317, R343, R349, R375, R420, R439, R656 to R658).
Where the spec leaves it open it states the model's choice: log entries 81, 105, 112, 113. -/
def Obligations.StackTraffic : Prop :=
  (∀ (dt : Nat) (t : Taken) (s x y z : State), x = s.at dt → x.blocksRun → x.takeMsg 0x07 = (some t, y) →
    y.enqueue (t.aux % 32) (.member t.src) t.body = (z, 0) → exec (.meterResult dt) s = s.leaves z)
  ∧ (∀ (dt : Nat) (t : Taken) (s x y z : State), x = s.at dt → x.blocksRun → x.takeMsg 0x07 = (some t, y) →
    y.enqueue (t.aux % 32) (.member t.src) t.body = (z, 1) →
    exec (.meterResult dt) s = s.leaves (z.sendMsg 0 t.src 0x0A t.aux ([0x07#8] ++ t.body)))
  ∧ (∀ (dt : Nat) (t : Taken) (s x y z : State), x = s.at dt → x.blocksRun → x.takeMsg 0x09 = (some t, y) →
    field t.body 0 1 = 0 → y.enqueue (field t.body 1 1 % 32) (.member t.src) (t.body.drop 2) = (z, 0) →
    exec (.sduUp dt) s = s.leaves z)
  ∧ (∀ (dt : Nat) (t : Taken) (s x y z : State), x = s.at dt → x.blocksRun → x.takeMsg 0x09 = (some t, y) →
    field t.body 0 1 = 0 → y.enqueue (field t.body 1 1 % 32) (.member t.src) (t.body.drop 2) = (z, 1) →
    exec (.sduUp dt) s = s.leaves (z.sendMsg 0 t.src 0x0A t.aux ([0x09#8] ++ t.body)))
  ∧ (∀ (dt : Nat) (t : Taken) (s x y : State), x = s.at dt → x.blocksRun → x.takeMsg 0x08 = (some t, y) →
    exec (.sduDown dt) s = s.leaves ((y.modTd (fun d => { d with
      sdus := d.sdus ++ [{ port := 0, dest := bits t.aux 28 24, member := y.self, bytes := t.body,
                           distrust := bitOf t.aux 31 }] })).routeSdus (y.main.td.sdus.length + 1)))
  ∧ (∀ (dt : Nat) (t : Taken) (s x y : State), x = s.at dt → x.blocksRun → x.takeMsg 0x0A = (some t, y) →
    field t.body 0 1 = 0x07 →
    y.main.mp.held + (t.body.drop 1).length ≤ y.holdLimit →
    exec (.refusal dt) s = s.leaves (y.modMp (fun m => { m with
      hold := m.hold ++ [(none, t.aux % 32, t.body.drop 1)] })))
  ∧ (∀ (dt : Nat) (t : Taken) (s x y : State), x = s.at dt → x.blocksRun → x.takeMsg 0x0A = (some t, y) →
    field t.body 0 1 = 0x0E → exec (.refusal dt) s = s.leaves (y.pushDone t.src false))
  ∧ (∀ (dt : Nat) (t : Taken) (s x y : State), x = s.at dt → x.blocksRun → x.takeMsg 0x0A = (some t, y) →
    field t.body 0 1 = 0x0F → y.main.sk.isLead = true →
    exec (.refusal dt) s = s.leaves (y.notify 0x1002 true ([byte t.src, 1#8, 1#8] ++ be 2 t.aux)))
  ∧ (∀ (dt : Nat) (t : Taken) (s x y : State), x = s.at dt → x.blocksRun → x.takeMsg 0x0B = (some t, y) →
    field t.body 0 1 = 1 →
    exec (.regAccess dt) s = s.leaves (y.count (field t.body 1 4) (field t.body 5 1) (field t.body 6 1)))
  ∧ (∀ (dt : Nat) (t : Taken) (s x y : State), x = s.at dt → x.blocksRun → x.takeMsg 0x0C = (some t, y) →
    field t.body 0 1 = 3 →
    exec (.termData dt) s = s.leaves ((y.modTm (fun m => { m with
      ident := some (field t.body 1 2)
      allocs := (List.range 8).map (fun i =>
        if bitOf (field t.body (3 + 2 * i) 2) 15 then
          some ⟨bitOf (field t.body (3 + 2 * i) 2) 14, bits (field t.body (3 + 2 * i) 2) 11 0⟩
        else none) })).modTd (fun d => { d with lost := true })))
  ∧ (∀ (dt : Nat) (t : Taken) (s x y : State), x = s.at dt → x.blocksRun → x.takeMsg 0x0D = (some t, y) →
    exec (.treeRecord dt) s = s.leaves { y with hearth := { y.hearth with treeRec := padTo 256 t.body } })
  ∧ (∀ (dt c : Nat) (t : Taken) (s x y : State), x = s.at dt → x.blocksRun → x.takeMsg 0x0E = (some t, y) →
    y.main.sk.rxCfg = [] → t.aux = 0 → t.body.length = 64 + field t.body 8 4 → cfgOk t.body = true →
    y.main.sk.cfgCopy = some c →
    exec (.config dt) s = s.leaves ((y.modSk (fun k => { k with rxCfg := [] })).flashAsk (.config (1 - c) t.body)))
  ∧ (∀ (dt : Nat) (t : Taken) (s x y : State), x = s.at dt → x.blocksRun → x.takeMsg 0x0E = (some t, y) →
    y.main.sk.rxCfg = [] → t.aux = 0 → t.body.length = 64 + field t.body 8 4 → cfgOk t.body = false →
    exec (.config dt) s = s.leaves (((y.modSk (fun k => { k with
      rxCfg := []
      cfgBad := true })).judge y.self).sendMsg 0 y.main.sk.lead 0x0A 1 [0x0E#8]))
  ∧ (∀ (dt i : Nat) (t : Taken) (s x y : State), x = s.at dt → x.blocksRun → x.takeMsg 0x0F = (some t, y) →
    y.main.sk.rxImage = [] → t.aux = 0 → t.body.length = 256 + field t.body 16 4 → y.main.boot.slot = some i →
    exec (.image dt) s = s.leaves ((y.modSk (fun k => { k with rxImage := [] })).flashAsk (.image (1 - i) t.body)))

/-- Time over Strait and the phase check: a parent sends TIME_SYNC when a period is due, a member whose exchange is complete
applies e = -o and takes B = |o| + B_parent, and a skew of more than 364 units in three comparisons running is told
(R652 to R654).
Where the spec leaves it open it states the model's choice: log entries 12, 65, 111. -/
def Obligations.StackTime : Prop :=
  (∀ (dt : Nat) (s x : State), x = s.at dt → x.blocksRun → x.main.sk.formed = true → x.main.sk.isLead = true →
    x.main.sk.exchAt + x.fld 0x100008 31 22 * 8 * msT ≤ x.now → (x.link 0).st = .up → (x.link 1).st ≠ .up →
    exec (.timeExchange dt) s
      = s.leaves (((x.sendNext 0 0 0 0).modSk (fun k => { k with exchAt := x.now })).timeAnswer))
  ∧ (∀ (dt : Nat) (s x : State), x = s.at dt → x.blocksRun → x.main.sk.formed = true → x.main.sk.isLead = false →
    x.now < x.main.sk.exchAt + x.fld 0x100008 31 22 * 8 * msT → x.main.sk.lastExch + 4 * x.periodT ≤ x.now →
    exec (.timeExchange dt) s = s.leaves (x.timeAnswer.setTimeState true x.timeAnswer.main.sk.suspended))
  ∧ (∀ (x y : State) (t : Taken), x.takeTime 0 = some (t, y) → y.stale t = false → t.src = y.timeParent → y.main.sk.isLead = false →
    y.main.sk.leadValid = true → ∀ z, z = (y.modSk (fun k => { k with
      exch := some ⟨timeOf t.body, t.at_, t.at_, field t.body 11 4, y.main.nt.adjLeft⟩ })).sendNext t.link 1 0 0 →
    z.takeTime 1 = none → x.timeAnswer = z)
  ∧ (∀ (x y : State) (t : Taken), x.takeTime 0 = none → x.takeTime 1 = some (t, y) → y.stale t = false →
    x.timeAnswer = y.sendNext t.link 2 t.at_ 0)
  ∧ (∀ (dt b : Nat) (o : Int) (t : Taken) (e : Exch) (s x y z : State), x = s.at dt → x.blocksRun →
    x.takeTime 2 = some (t, y) → y.main.sk.exch = some e → y.stale t = false →
    y.main.nt.totalNs ≤ e.t2 + y.fld 0x100008 31 22 * 8000000 →
    o = Int.tdiv ((e.t2 - e.t1) - ((timeOf t.body : Int) - e.t3)) 2 → b = o.natAbs + e.bParent →
    z = (((y.modSk (fun k => { k with exch := none })).modNt (fun n => { n with lastAccepted := y.now })).ntApply (-o) e.left e.t1
      (y.main.nt.lastRef.map (fun r => e.t1 - r))).modSk (fun k => { k with
        bound := b
        lastExch := y.now }) →
    exec (.timeResp dt) s = s.leaves (z.setTimeState (decide (1000 < b))
      (if 100000 < b then true else if b ≤ 1000 then false else z.main.sk.suspended)))
  ∧ (∀ (x : State) (loose susp : Bool), x.main.sk.timeLoose ≠ loose →
    x.setTimeState loose susp = (x.modSk (fun k => { k with
      timeLoose := loose
      suspended := susp })).notify 0x1005 false
        ([byte x.self, byte (b2n loose + b2n susp * 2)] ++ be 4 (sat 0xFFFFFFFF x.main.sk.bound)))
  ∧ (∀ (dt : Nat) (t : Taken) (s x y : State), x = s.at dt → x.blocksRun → x.takeMsg 0x11 = (some t, y) →
    y.main.sk.isLead = true → field t.body 0 6 = y.main.sk.latch.1 → bits (y.peer t.src).stateFlags 2 1 = 0 →
    (at? y.main.sk.latch.2 0 (0, false)).2 = true → field t.body 8 1 = 1 → field t.body 11 1 = 0 →
    field t.body 14 1 = 0 →
    exec (.phase dt) s
      = s.leaves (y.comparePhase t.src 0 (sdiff 16 (field t.body 6 2) (at? y.main.sk.latch.2 0 (0, false)).1)))
  ∧ (∀ (x : State) (m p : Nat) (d : Int), p < 3 → at? (x.peer m).skewed p false = false →
    at? (x.peer m).skewRun p 0 = 2 → 364 < d.natAbs →
    x.comparePhase m p d = (x.modPeer m (fun q => { q with
      skewRun := q.skewRun.set p 3
      okRun := q.okRun.set p 0
      skewed := q.skewed.set p true })).notify 0x1003 false ([byte m, byte p] ++ be 2 (ofSigned 16 d) ++ [0#8]))
  ∧ (∀ (x : State) (m p : Nat) (d : Int), p < 3 → at? (x.peer m).skewed p false = true →
    at? (x.peer m).okRun p 0 = 2 → d.natAbs ≤ 300 →
    x.comparePhase m p d = (x.modPeer m (fun q => { q with
      skewRun := q.skewRun.set p 0
      okRun := q.okRun.set p 3
      skewed := q.skewed.set p false })).notify 0x1003 false ([byte m, byte p] ++ be 2 (ofSigned 16 d) ++ [1#8]))

/-- The opcodes of a stack: SK_STATUS reads the registers of the block, SK_CFG_WRITE writes the staging area, SK_CFG_COMMIT
pushes a valid image with the terminal's serial, and SK_QUARANTINE quarantines and releases a member (R657, R667).
Where the spec leaves it open it states the model's choice: log entries 13, 107. -/
def Obligations.StackOpcodes : Prop :=
  (∀ (dt : Nat) (tag : BitVec 16) (s x : State), s.willRun dt 0x1000 tag.toNat [] → x = s.asked dt 0x1000 tag.toNat [] →
    exec (.skStatus dt tag []) s = s.replies x 0 (be 4 x.skStatusWord ++ be 4 (x.word 0x100004) ++ be 4 x.skTimeWord
      ++ (List.range 8).flatMap (fun m => be 4 (x.skMemWord m))))
  ∧ (∀ (dt : Nat) (tag : BitVec 16) (p : List Byte) (s x : State), s.willRun dt 0x1001 tag.toNat p →
    x = s.asked dt 0x1001 tag.toNat p → 5 ≤ p.length → p.length ≤ 4094 → field p 0 4 + (p.length - 4) ≤ 0x40000 →
    exec (.skCfgWrite dt tag p) s = s.leaves
      ((x.modSk (fun k => { k with staging := flashWrite k.staging (field p 0 4) (p.drop 4) })).finish x.lastOp 0 []))
  ∧ (∀ (dt : Nat) (tag : BitVec 16) (p b : List Byte) (s x : State), s.willRun dt 0x1002 tag.toNat p →
    x = s.asked dt 0x1002 tag.toNat p → p.length = 4 → 64 ≤ field p 0 4 → field p 0 4 ≤ 0x40000 →
    b = (List.range (field p 0 4)).map (fun i => flashGet x.main.sk.staging i) → cfgOk b = true →
    64 + field b 8 4 ≤ field p 0 4 → field b 12 8 = x.termSerial → x.main.sk.push = none →
    exec (.skCfgCommit dt tag p) s = s.leaves (x.startPush (some x.lastOp) (b.take (64 + field b 8 4))))
  ∧ (∀ (dt : Nat) (tag : BitVec 16) (p b : List Byte) (s x : State), s.willRun dt 0x1002 tag.toNat p →
    x = s.asked dt 0x1002 tag.toNat p → p.length = 4 → 64 ≤ field p 0 4 → field p 0 4 ≤ 0x40000 →
    b = (List.range (field p 0 4)).map (fun i => flashGet x.main.sk.staging i) →
    (cfgOk b = false ∨ field b 12 8 ≠ x.termSerial) →
    exec (.skCfgCommit dt tag p) s = s.replies x 0x1000 [])
  ∧ (∀ (dt m : Nat) (tag : BitVec 16) (p : List Byte) (s x : State), s.willRun dt 0x1003 tag.toNat p →
    x = s.asked dt 0x1003 tag.toNat p → p.length = 2 → m = field p 0 1 → m ≤ 7 → field p 1 1 = 1 →
    exec (.skQuarantine dt tag p) s
      = s.leaves (((x.modPeer m (fun q => { q with command := true })).judge m).finish x.lastOp 0 []))
  ∧ (∀ (dt m : Nat) (tag : BitVec 16) (p : List Byte) (s x : State), s.willRun dt 0x1003 tag.toNat p →
    x = s.asked dt 0x1003 tag.toNat p → p.length = 2 → m = field p 0 1 → m ≤ 7 → field p 1 1 = 0 →
    (x.peer m).quar = 4 →
    exec (.skQuarantine dt tag p) s
      = s.leaves (((x.modPeer m (fun q => { q with command := false })).judge m).finish x.lastOp 0 []))
  ∧ (∀ (dt m : Nat) (tag : BitVec 16) (p : List Byte) (s x : State), s.willRun dt 0x1003 tag.toNat p →
    x = s.asked dt 0x1003 tag.toNat p → p.length = 2 → m = field p 0 1 → m ≤ 7 → field p 1 1 = 0 →
    (x.peer m).quar ≠ 4 → exec (.skQuarantine dt tag p) s = s.replies x 0x1002 [])
  ∧ (∀ (x : State) (m : Nat), x.causeOf m ≠ (x.peer m).quar → x.causeOf m ≠ 0 → m ≠ x.self → x.main.sk.isLead = true →
    x.judge m = (x.modPeer m (fun p => { p with quar := x.causeOf m })).notify 0x1002 true
      ([byte m, byte (x.causeOf m), 1#8] ++ be 2 0))

/-- The ash log: the record port numbers each record and overwrites the record 2,048 before it, a source is limited to
RATE_MAX records in a window, and a flush starts, programs step by step and ends as R679 to R682 say,
its energy set aside from when it is pending (R33, R384, R669, R671, R672, R679 to R682).
Where the spec leaves it open it states the model's choice: log entries 7, 8, 60, 61. -/
def Obligations.AshLog : Prop :=
  (∀ (x : State) (b : List Byte), x.hearth.ring.length ≤ 2048 →
    (x.ringWrite b).hearth.seq = (x.hearth.seq + 1) % 2 ^ 32 ∧ (x.ringWrite b).hearth.ring.length ≤ 2048
      ∧ (x.ringWrite b).hearth.ring.getLast? = some (mkRecord x.hearth.seq b)
      ∧ (x.hearth.ring.length = 2048 → (x.ringWrite b).hearth.ring = x.hearth.ring.tail ++ [mkRecord x.hearth.seq b])
      ∧ (x.ringWrite b).regs = x.regs ∧ (x.ringWrite b).main = x.main ∧ (x.ringWrite b).flash = x.flash)
  ∧ (∀ (seq : Nat) (b : List Byte), (mkRecord seq b).bytes.length = 32
      ∧ field (mkRecord seq b).bytes 0 4 = seq % 2 ^ 32
      ∧ field (mkRecord seq b).bytes 30 2 = crc16 ((mkRecord seq b).bytes.take 30))
  ∧ (∀ (x : State) (source kind : Nat) (d : List Byte) (w : AshWin), source ≠ 0x01 → source ≠ 0x11 →
    x.main.ash.wins.find? (fun w => w.source == source && decide (x.now < w.since + ashWindow)) = some w →
    x.fld 0x110000 23 16 ≤ w.count →
    x.ash source kind d = (x.countN 0x110014 31 16 1).modAsh (fun a => { a with
      wins := { w with suppressed := w.suppressed + 1 } :: x.main.ash.wins.filter (fun v => v.source != source) }))
  ∧ (∀ (dt source : Nat) (w : AshWin) (s x : State), x = s.at dt → x.blocksRun →
    x.main.ash.wins.find? (fun w => w.source == source && decide (w.since + ashWindow ≤ x.now)) = some w →
    w.suppressed ≠ 0 →
    exec (.suppressWindowEnd dt source) s = s.leaves ((x.modAsh (fun a => { a with
      wins := a.wins.filter (fun v => v.source != source) })).ash 0x11 0x01 ([byte source] ++ be 2 (sat 0xFFFF w.suppressed))))
  ∧ (∀ (dt t : Nat) (s x : State), x = s.at dt → x.blocksRun → x.main.ash.flush = none → x.main.ash.trigger = none →
    x.main.ash.flushDue = some t → t ≤ x.now → x.hearth.onReserve = true → x.main.boot.flashOp = none →
    exec (.flushStart dt) s = s.leaves (x.startFlush 0 none))
  ∧ (∀ (dt : Nat) (s x : State), x = s.at dt → x.blocksRun → x.main.ash.flush = none → x.main.ash.trigger = none →
    x.main.ash.flushDue = none → x.main.ash.owedDue = true → x.main.boot.local9 = true → x.main.boot.flashOp = none →
    exec (.flushStart dt) s = s.leaves (x.startFlush 2 none))
  ∧ (∀ (x : State) (cause last : Nat) (tag : Option Nat), last = (x.hearth.seq + 2 ^ 32 - 1) % 2 ^ 32 →
    x.startFlush cause tag = (x.modAsh (fun a => { a with
      flushDue := none
      awaitMains := false
      trigger := none })).admitStep {
        slot := x.main.ash.next, aseq := x.nextAseq, cause := cause, tag := tag
        steps := flushSteps (flashBlank x.flash (archAddr x.main.ash.next) 0x20000)
        firstSeq := (last + 2 ^ 32 - 2047) % 2 ^ 32, lastSeq := last
        header := x.flushHeader x.nextAseq cause ((last + 2 ^ 32 - 2047) % 2 ^ 32) last
        ring := x.hearth.ring, heldCopy := heldBytes x.hearth.held, treeCopy := x.hearth.treeRec })
  ∧ (flushSteps true).length = 261
  ∧ (∀ x : State, x.main.ash.flush = none → x.flushPending = true → x.main.boot.flashOp = none →
    x.flushUj = ((flushSteps (flashBlank x.flash (archAddr x.main.ash.next) 0x20000)).map x.stepUj).sum)
  ∧ (∀ (x : State) (f : Flush) (st : FlushStep) (l : List FlushStep), f.steps = st :: l →
    x.hearth.onReserve = true →
    (x.stepUj st + 1000 * x.marginMj + x.main.up.admitted ≤ 1000 * x.hearth.resE →
      x.admitStep f = (x.modAsh (fun a => { a with flush := some f })).charge (x.stepUj st))
    ∧ (1000 * x.hearth.resE < x.stepUj st + 1000 * x.marginMj + x.main.up.admitted → x.admitStep f = x.endFlush f 1))
  ∧ (∀ (dt : Nat) (f : Flush) (st : FlushStep) (l : List FlushStep) (s x : State), x = s.at dt → x.blocksRun →
    x.main.ash.flush = some f → f.steps = st :: l → (∀ n, st ≠ .erase n) →
    exec (.flushStepDone dt true) s = s.leaves
      ({ x with flash := flashWrite x.flash (f.data st).1 (f.data st).2 }.admitStep
        { f with steps := l, tries := 0, pages := f.pages + 1 }))
  ∧ (∀ (dt : Nat) (f : Flush) (st : FlushStep) (l : List FlushStep) (s x : State), x = s.at dt → x.blocksRun →
    x.main.ash.flush = some f → f.steps = st :: l → f.tries ≠ 0 →
    exec (.flushStepDone dt false) s = s.leaves (x.endFlush f 3))

/-- The opcodes of the ash log and of the memory: what each returns, and what each does (R674, R679, R684, R688, R709).
Where the spec leaves it open it states the model's choice: log entries 31, 59, 60. -/
def Obligations.LogOpcodes : Prop :=
  (∀ (dt : Nat) (tag : BitVec 16) (r : AshRec) (l : List AshRec) (s x : State), s.willRun dt 0x1100 tag.toNat [] →
    x = s.asked dt 0x1100 tag.toNat [] → x.hearth.ring = r :: l →
    exec (.alStatus dt tag []) s = s.leaves (x.draw.2.finish x.lastOp 0 (be 4 x.alStatusWord ++ be 4 x.hearth.seq
      ++ be 4 (x.word 0x110014) ++ be 4 (x.flushUj / 1000) ++ be 4 r.seq)))
  ∧ (∀ (dt : Nat) (tag : BitVec 16) (p : List Byte) (r : AshRec) (l : List AshRec) (s x : State),
    s.willRun dt 0x1101 tag.toNat p → x = s.asked dt 0x1101 tag.toNat p → p.length = 5 → 1 ≤ field p 4 1 →
    field p 4 1 ≤ 127 →
    (x.hearth.ring.filter (fun r => decide (0 ≤ sdiff 32 r.seq (field p 0 4)))).take (field p 4 1) = r :: l →
    exec (.alRead dt tag p) s
      = s.leaves (x.draw.2.finish x.lastOp 0 (be 4 r.seq ++ (r :: l).flatMap (fun r => r.bytes))))
  ∧ (∀ (dt : Nat) (tag : BitVec 16) (s x : State), s.willRun dt 0x1102 tag.toNat [] →
    x = s.asked dt 0x1102 tag.toNat [] →
    exec (.alArchives dt tag []) s = s.replies x 0 ((List.range 16).flatMap (fun i =>
      (x.archHeader i).getD (List.replicate 64 0#8) ++ [byte (x.archState i)])))
  ∧ (∀ (dt : Nat) (tag : BitVec 16) (p : List Byte) (s x : State), s.willRun dt 0x1103 tag.toNat p →
    x = s.asked dt 0x1103 tag.toNat p → p.length = 7 → field p 0 1 ≤ 15 → 1 ≤ field p 5 2 → field p 5 2 ≤ 4096 →
    field p 1 4 + field p 5 2 ≤ 0x20000 →
    exec (.alArchRead dt tag p) s = if (x.archHeader (field p 0 1)).isSome then
        s.replies x 0 (x.flashRead (archAddr (field p 0 1) + field p 1 4) (field p 5 2))
      else s.replies x 0x1101 [])
  ∧ (∀ (dt : Nat) (tag : BitVec 16) (p : List Byte) (s x : State), s.willRun dt 0x1104 tag.toNat p →
    x = s.asked dt 0x1104 tag.toNat p → p.length = 2 → field p 0 1 ≤ 15 → field p 1 1 ≤ 2 →
    (x.archHeader (field p 0 1)).isSome = true → x.noExport (field p 1 1) = false →
    exec (.alUpload dt tag p) s = s.leaves (x.modPc (fun c => { c with
      xfers := c.xfers ++ [⟨some x.lastOp, x.fld 0x070010 4 0, field p 1 1,
        unitsOf 3 (field p 0 1) 0 (x.unitSize (field p 1 1)) (x.flashRead (archAddr (field p 0 1)) 0x11400),
        0, none, false, true⟩] })))
  ∧ (∀ (dt : Nat) (tag : BitVec 16) (p : List Byte) (s x : State), s.willRun dt 0x1104 tag.toNat p →
    x = s.asked dt 0x1104 tag.toNat p → p.length = 2 → 15 < field p 0 1 → field p 0 1 ≠ 0xFF →
    exec (.alUpload dt tag p) s = s.replies x 0x0005 [])
  ∧ (∀ (dt : Nat) (tag : BitVec 16) (s x : State), s.willRun dt 0x1105 tag.toNat [] →
    x = s.asked dt 0x1105 tag.toNat [] → x.main.ash.flush = none → x.main.ash.trigger = none →
    x.main.boot.flashOp = none →
    exec (.alFlush dt tag []) s = s.leaves (x.startFlush 1 (some x.lastOp)))
  ∧ (∀ (dt : Nat) (tag : BitVec 16) (s x : State), s.willRun dt 0x1105 tag.toNat [] →
    x = s.asked dt 0x1105 tag.toNat [] → x.main.ash.flush.isSome = true →
    exec (.alFlush dt tag []) s = s.replies x 0x1100 [])
  ∧ (∀ (dt : Nat) (tag : BitVec 16) (s x : State), s.willRun dt 0x1106 tag.toNat [] →
    x = s.asked dt 0x1106 tag.toNat [] → x.main.ma.st ≠ .locked →
    exec (.alWave dt tag []) s = s.replies x 0x000E [])
  ∧ (∀ (dt : Nat) (tag : BitVec 16) (s x : State), s.willRun dt 0x1106 tag.toNat [] →
    x = s.asked dt 0x1106 tag.toNat [] → x.main.ma.st = .locked → x.bit 0x110000 31 = true →
    (x.drainAsh.wave 2).main.ash.buf ≠ [] →
    exec (.alWave dt tag []) s
      = s.leaves ((x.drainAsh.wave 2).drainAsh.finish x.lastOp 0 (be 4 x.drainAsh.hearth.seq)))
  ∧ (∀ (dt : Nat) (tag : BitVec 16) (p : List Byte) (s x : State), s.willRun dt 0x1107 tag.toNat p →
    x = s.asked dt 0x1107 tag.toNat p → p.length = 11 →
    exec (.alMark dt tag p) s
      = s.leaves ((x.drainAsh.ash 0x11 0x03 p).drainAsh.finish x.lastOp 0 (be 4 x.drainAsh.hearth.seq)))
  ∧ (∀ (dt : Nat) (tag : BitVec 16) (s x : State), s.willRun dt 0x1200 tag.toNat [] →
    x = s.asked dt 0x1200 tag.toNat [] →
    exec (.mmStatus dt tag []) s = s.replies x 0 (be 4 x.mmStatusWord ++ be 4 x.mmMapWord ++ be 4 (x.word 0x12000C)
      ++ be 4 (x.word 0x120010) ++ (List.range 64).flatMap (fun n => be 4 (x.mmBankWord n))))
  ∧ (∀ (dt : Nat) (tag : BitVec 16) (s x : State), s.willRun dt 0x1201 tag.toNat [] →
    x = s.asked dt 0x1201 tag.toNat [] → exec (.mmLog dt tag []) s = s.replies x 0 x.hearth.repairLog)
  ∧ (∀ (dt : Nat) (tag : BitVec 16) (p : List Byte) (gone : Nat → Bool) (s x : State),
    s.willRun dt 0x1202 tag.toNat p → x = s.asked dt 0x1202 tag.toNat p → p.length = 1 → field p 0 1 ≤ 63 →
    (∀ i, gone i = ((at? x.main.mm.banks i {}).withdrawn || x.logWithdrawn i || i == field p 0 1)) →
    exec (.mmWithdraw dt tag p) s = if ((List.range 64).filter (fun i => !gone i)).length < 27 then s.replies x 0x1200 []
      else s.leaves ((x.logAdd [logEntry (field p 0 1) 2 2 0 0 (x.hearthSec % 2 ^ 32)]).finish x.lastOp 0 []))
  ∧ (∀ (dt : Nat) (tag : BitVec 16) (p : List Byte) (s x : State), s.willRun dt 0x1202 tag.toNat p →
    x = s.asked dt 0x1202 tag.toNat p → p.length = 1 → 63 < field p 0 1 →
    exec (.mmWithdraw dt tag p) s = s.replies x 0x0005 [])

/-- Memory and self-repair: the scrubber visits the next word when it is due, corrects a single error and poisons a double one,
which the block that holds the item around it then acts on, a field repair is switched in and logged, the repair log is written to the sector not taken, and an uncorrectable
Hearth word is counted, acted on and recorded (R693, R694, R696, R700, R701, R704, R705).
Where the spec leaves it open it states the model's choice: log entries 31, 33, 34, 35, 143. -/
def Obligations.MemoryRepair : Prop :=
  (∀ (dt : Nat) (s x : State), x = s.at dt → x.blocksRun → (x.hearth.ps = .blaze ∨ x.hearth.ps = .bank) →
    x.fld 0x120008 23 16 ≠ 0 → x.main.mm.words ≠ 0 →
    x.main.mm.scrubAt + x.fld 0x120008 23 16 * secT / x.main.mm.words ≤ x.now →
    exec (.scrubRead dt .ok) s = s.leaves (x.modMem (fun m => { m with
      scrubWord := (m.scrubWord % m.words + 1) % m.words
      scrubAt := x.now
      poison := m.poison.filter (fun w => w != m.scrubWord % m.words) })))
  ∧ (∀ (dt lane w : Nat) (hard : Bool) (s x : State), x = s.at dt → x.blocksRun →
    (x.hearth.ps = .blaze ∨ x.hearth.ps = .bank) → x.fld 0x120008 23 16 ≠ 0 → x.main.mm.words ≠ 0 →
    x.main.mm.scrubAt + x.fld 0x120008 23 16 * secT / x.main.mm.words ≤ x.now → lane < 72 →
    w = x.main.mm.scrubWord % x.main.mm.words →
    exec (.scrubRead dt (.single lane hard)) s = s.leaves ((x.modMem (fun m => { m with
      scrubWord := (w + 1) % m.words
      scrubAt := x.now })).correctedRead (x.main.mm.physical (w / 16384)) (w % 16384 / 32) lane hard))
  ∧ (∀ (dt w : Nat) (s x : State), x = s.at dt → x.blocksRun →
    (x.hearth.ps = .blaze ∨ x.hearth.ps = .bank) → x.fld 0x120008 23 16 ≠ 0 → x.main.mm.words ≠ 0 →
    x.main.mm.scrubAt + x.fld 0x120008 23 16 * secT / x.main.mm.words ≤ x.now → x.bit 0x120008 31 = false →
    w = x.main.mm.scrubWord % x.main.mm.words →
    exec (.scrubRead dt .double) s = s.leaves (((x.modMem (fun m => { m with
      scrubWord := (w + 1) % m.words
      scrubAt := x.now
      poison := w :: m.poison.filter (fun v => v != w) })).poisonedRead (8 * w) (x.main.mm.physical (w / 16384))
        0x12).poisonFound w))
  ∧ (∀ (x : State) (w : Nat), x.poisonFound w = x.draw.2 ∨ ∃ i ∈ x.itemsAt w,
    x.poisonFound w = ((x.draw.2.modMem (fun m => { m with
      poison := m.poison.filter (fun v => v != w) })).poisonedRead (8 * w) (x.main.mm.physical (w / 16384))
        i.block).poisonItem i)
  ∧ (∀ (x y : State) (a phys blk : Nat) (c : List Byte), c = be 4 a ++ [byte phys, byte blk] →
    y = (((x.count 0x12000C 15 0).ash 0x12 0x02 c).wake 0x0E).notify 0x1202 false c →
    x.poisonedRead a phys blk = if x.bit 0x120008 31 then y.repairTrigger phys true (a % 131072 / 8 / 32) else y)
  ∧ (∀ (x : State) (b row lane : Nat), x.bit 0x120008 31 = false →
    x.correctedRead b row lane true = (x.countN 0x12000C 31 16 1).modBank b (fun k => { k with
      corrected := sat 0xFFFF (k.corrected + 1)
      errs := (⟨x.hearthSec, row, lane⟩ :: k.errs).take 64 }))
  ∧ (∀ (x : State) (b row sp : Nat) (l : List Nat), x.main.mm.repaired b true row = false →
    x.main.mm.spares b true = sp :: l →
    x.repairTrigger b true row = x.modMem (fun m => { m with repairs := m.repairs ++ [⟨b, true, row, sp⟩] }))
  ∧ (∀ (dt : Nat) (r : Repair) (l : List Repair) (e : List Byte) (s x : State), x = s.at dt → x.blocksRun →
    x.main.mm.repairs = r :: l → e = r.entry 1 (x.hearthSec % 2 ^ 32) →
    exec (.fieldRepair dt) s = s.leaves ((((((x.modMem (fun m => { m with repairs := l })).modBank r.bank (fun k => { k with
      repairs := k.repairs ++ [r]
      errs := k.errs.filter (fun e => if r.isRow then e.row != r.index else e.lane != r.index) })).logAdd [e]).ash
        0x12 0x01 e).notify 0x1201 false e)))
  ∧ (∀ (dt c : Nat) (s x : State), x = s.at dt → x.blocksRun → x.main.mm.logDue = true → x.flashLog = some c →
    exec (.repairLogFlash dt) s = s.leaves ((x.modMem (fun m => { m with logDue := false })).flashAsk
      (.repairLog (1 - c) (x.hearth.repairLog.take (16 + 8 * field x.hearth.repairLog 8 2)))))
  ∧ (∀ (dt region offset : Nat) (s x y : State), x = s.at dt → x.hearth.running = true → region ≤ 6 →
    x.main.out = false → y = (x.wake 0x0E).hearthUncorr region offset → y.main.boot.local9 = false →
    exec (.hearthScrub dt region offset .double) s = s.leaves (y.ashHearth 0x12 0x04 ([byte region] ++ be 2 offset)))
  ∧ (∀ (dt region offset : Nat) (s x y : State), x = s.at dt → x.hearth.running = true → region ≤ 6 →
    x.main.out = true → y = ((x.wake 0x0E).count 0x120010 15 0).hearthUncorr region offset →
    y.main.boot.local9 = true → exec (.hearthScrub dt region offset .double) s
      = s.leaves ((y.ashHearth 0x12 0x04 ([byte region] ++ be 2 offset)).notify 0x1204 false
        ([byte region] ++ be 2 offset)))
  ∧ (∀ (dt region offset lane : Nat) (hard : Bool) (s x : State), x = s.at dt → x.hearth.running = true → region ≤ 6 →
    x.main.out = true → exec (.hearthScrub dt region offset (.single lane hard)) s
      = s.leaves (x.count 0x120010 31 16))
  ∧ (∀ x : State, (x.hearthUncorr 2 0).hearth.treeRec = List.replicate 256 0#8 ∧ (x.hearthUncorr 5 0).hearth.start = {})

/-- A step runs the command at the front of the queue on the state with the queue's rest; with nothing waiting the block
idles (log entry 6: the idle step is the model's choice). -/
def Obligations.StepRunsFront : Prop :=
  (∀ (c : Instr) (rest : List Instr) (s : State), s.pending = c :: rest →
    Machine.step s = exec c { s with pending := rest })
  ∧ (∀ s : State, s.pending = [] → Machine.step s = .next s)

/-- The state after reset: nothing waits, the stores have their canonical forms, every register reads the Reset column of
its fields, the main domain is off and the flash is erased (R19, R49; the erased flash is log entry 13). -/
def Obligations.ResetState : Prop :=
  State.reset.sound ∧ State.reset.pending = [] ∧ State.reset.main = .cold ∧ State.reset.main.out = false
    ∧ (∀ a, State.reset.word a = regReset a) ∧ (∀ a, flashGet State.reset.flash a = 0xFF#8)
    ∧ State.reset.hearth.seq = 0 ∧ State.reset.hearth.ring = [] ∧ State.reset.minSec = 0

/-- Every step answers a next state, and keeps what no command may break: the register store and the flash keep their
canonical forms, MIN_SEC never falls, time runs on by exactly the command's ticks, and the queue is what waited behind the
command.
Where the spec leaves it open it states the model's choice: log entries 1, 3, 13. -/
def Obligations.EveryStepKeeps : Prop :=
  ∀ s : State, s.sound → ∃ t, Machine.step s = .next t ∧ t.sound ∧ s.minSec ≤ t.minSec
    ∧ t.pending = s.pending.tail ∧ t.now = s.now + (s.pending.head?.map Instr.ticks).getD 0

/-- A part that does not run takes no command: with the main domain in reset every command of the main domain and of the
blocks only lets time pass, stopped in the boot ROM or in rescue the blocks stay in their reset states, and only time
passes and what follows from it (R60, R68, R138).
Where the spec leaves it open it states the model's choice: log entries 20, 21. -/
def Obligations.PartsInReset : Prop :=
  (∀ (i : Instr) (s : State), i.part ≠ .hearth → (s.at i.ticks).main.out = false →
    exec i s = .next (s.at i.ticks))
  ∧ (∀ (i : Instr) (s : State), i.part ≠ .hearth → (s.at i.ticks).main.boot.stopped = true →
    exec i s = s.leaves (s.at i.ticks))
  ∧ (∀ (i : Instr) (s : State), i.part = .blocks → (s.at i.ticks).main.boot.rescue = true →
    exec i s = s.leaves (s.at i.ticks))
  ∧ (∀ (s : State) (dt : Nat), s.main = .cold → (s.at dt).main = .cold ∧ (s.at dt).regs = s.regs
    ∧ (s.at dt).flash = s.flash ∧ (s.at dt).minSec = s.minSec ∧ (s.at dt).pending = s.pending ∧ (s.at dt).now = s.now + dt)

end Statements
end

