-- ==== Sys2Proof/Laws/Bytes.lean ====
section
/-! SUPPORT. Small lemmas of the shared operations: byte strings built and read back, and what some updates of a block
leave alone. -/

namespace Sys2Proof.Machine

@[simp] theorem be_length (n v : Nat) : (be n v).length = n := by
  induction n with
  | zero => rfl
  | succ n ih => simp [be, ih]

/-- A number read from its bytes, after a prefix read already. -/
theorem foldl_be (n v a : Nat) :
    (be n v).foldl (fun a b => a * 256 + b.toNat) a = a * 256 ^ n + v % 256 ^ n := by
  induction n generalizing a with
  | zero => simp [be, Nat.mod_one]
  | succ n ih =>
    have h : v % 256 ^ (n + 1) = v / 256 ^ n % 256 * 256 ^ n + v % 256 ^ n := by
      rw [pow_succ, Nat.mod_mul]
      ring
    simp only [be, List.foldl_cons, ih, byte, BitVec.toNat_ofNat, h]
    ring

/-- The bytes of a number spell it. -/
theorem ofBe_be (n v : Nat) : ofBe (be n v) = v % 256 ^ n := by
  unfold ofBe
  rw [foldl_be]
  simp

/-- A field that lies whole inside a string does not look past its end. -/
theorem field_append (a b : List Byte) (o n : Nat) (h : o + n ≤ a.length) : field (a ++ b) o n = field a o n := by
  unfold field
  have h1 : n - ((a ++ b).drop o).length = 0 := by simp; omega
  have h2 : n - (a.drop o).length = 0 := by simp; omega
  rw [h1, h2, List.drop_append_of_le_length (by omega), List.take_append_of_le_length (by simp; omega)]

/-- A field past a prefix. -/
theorem field_skip (a b : List Byte) (o n : Nat) (h : a.length ≤ o) : field (a ++ b) o n = field b (o - a.length) n := by
  unfold field
  rw [List.drop_append, List.drop_eq_nil_of_le h, List.nil_append]

/-- A field past one byte. -/
@[simp] theorem field_cons (a : Byte) (b : List Byte) (o n : Nat) : field (a :: b) (o + 1) n = field b o n := by
  unfold field
  simp

/-- The bytes of a number read back. -/
theorem field_be (n v : Nat) (l : List Byte) : field (be n v ++ l) 0 n = v % 256 ^ n := by
  rw [field_append _ _ _ _ (by simp)]
  unfold field
  simp only [List.drop_zero, be_length, Nat.sub_self, List.replicate_zero, List.append_nil]
  rw [List.take_of_length_le (by simp), ofBe_be]

/-- The first byte of a string. -/
theorem field_byte (b : Byte) (l : List Byte) : field (b :: l) 0 1 = b.toNat := by
  simp [field, ofBe]

/-- ROTATION follows OFFSET_B, and nothing else changes (R235). -/
theorem State.setRotation_eq (x : State) : ∃ b, x.setRotation = x.modMa (fun m => { m with rotation := b }) := by
  unfold State.setRotation State.modMa
  exact ⟨_, rfl⟩

end Sys2Proof.Machine
end

