-- ==== Sys2Proof/Laws/State.lean ====
section
/-! SUPPORT. What each update of the state changes and what it leaves: one lemma per update and field. -/

namespace Sys2Proof.Machine

/-! ### modAsh -/

@[simp] theorem State.modAsh_pending (s : State) (f : Ash → Ash) : (s.modAsh f).pending = s.pending := rfl
@[simp] theorem State.modAsh_now (s : State) (f : Ash → Ash) : (s.modAsh f).now = s.now := rfl
@[simp] theorem State.modAsh_freeIdx (s : State) (f : Ash → Ash) : (s.modAsh f).freeIdx = s.freeIdx := rfl
@[simp] theorem State.modAsh_cycle (s : State) (f : Ash → Ash) : (s.modAsh f).cycle = s.cycle := rfl
@[simp] theorem State.modAsh_pulses (s : State) (f : Ash → Ash) : (s.modAsh f).pulses = s.pulses := rfl
@[simp] theorem State.modAsh_regs (s : State) (f : Ash → Ash) : (s.modAsh f).regs = s.regs := rfl
@[simp] theorem State.modAsh_minSec (s : State) (f : Ash → Ash) : (s.modAsh f).minSec = s.minSec := rfl
@[simp] theorem State.modAsh_flash (s : State) (f : Ash → Ash) : (s.modAsh f).flash = s.flash := rfl
@[simp] theorem State.modAsh_hearth (s : State) (f : Ash → Ash) : (s.modAsh f).hearth = s.hearth := rfl
@[simp] theorem State.modAsh_out (s : State) (f : Ash → Ash) : (s.modAsh f).main.out = s.main.out := rfl
@[simp] theorem State.modAsh_boot (s : State) (f : Ash → Ash) : (s.modAsh f).main.boot = s.main.boot := rfl
@[simp] theorem State.modAsh_cmd (s : State) (f : Ash → Ash) : (s.modAsh f).main.cmd = s.main.cmd := rfl
@[simp] theorem State.modAsh_ash (s : State) (f : Ash → Ash) : (s.modAsh f).main.ash = f s.main.ash := rfl
@[simp] theorem State.modAsh_power (s : State) (f : Ash → Ash) : (s.modAsh f).main.power = s.main.power := rfl
@[simp] theorem State.modAsh_nt (s : State) (f : Ash → Ash) : (s.modAsh f).main.nt = s.main.nt := rfl
@[simp] theorem State.modAsh_ma (s : State) (f : Ash → Ash) : (s.modAsh f).main.ma = s.main.ma := rfl
@[simp] theorem State.modAsh_up (s : State) (f : Ash → Ash) : (s.modAsh f).main.up = s.main.up := rfl
@[simp] theorem State.modAsh_tb (s : State) (f : Ash → Ash) : (s.modAsh f).main.tb = s.main.tb := rfl
@[simp] theorem State.modAsh_mp (s : State) (f : Ash → Ash) : (s.modAsh f).main.mp = s.main.mp := rfl
@[simp] theorem State.modAsh_em (s : State) (f : Ash → Ash) : (s.modAsh f).main.em = s.main.em := rfl
@[simp] theorem State.modAsh_st (s : State) (f : Ash → Ash) : (s.modAsh f).main.st = s.main.st := rfl
@[simp] theorem State.modAsh_sk (s : State) (f : Ash → Ash) : (s.modAsh f).main.sk = s.main.sk := rfl
@[simp] theorem State.modAsh_mm (s : State) (f : Ash → Ash) : (s.modAsh f).main.mm = s.main.mm := rfl
@[simp] theorem State.modAsh_ln (s : State) (f : Ash → Ash) : (s.modAsh f).main.ln = s.main.ln := rfl
@[simp] theorem State.modAsh_td (s : State) (f : Ash → Ash) : (s.modAsh f).main.td = s.main.td := rfl
@[simp] theorem State.modAsh_tm (s : State) (f : Ash → Ash) : (s.modAsh f).main.tm = s.main.tm := rfl
@[simp] theorem State.modAsh_cy (s : State) (f : Ash → Ash) : (s.modAsh f).main.cy = s.main.cy := rfl
@[simp] theorem State.modAsh_pc (s : State) (f : Ash → Ash) : (s.modAsh f).main.pc = s.main.pc := rfl
@[simp] theorem State.modAsh_wa (s : State) (f : Ash → Ash) : (s.modAsh f).main.wa = s.main.wa := rfl
@[simp] theorem State.modAsh_pw (s : State) (f : Ash → Ash) : (s.modAsh f).main.pw = s.main.pw := rfl

/-! ### modBank -/

@[simp] theorem State.modBank_pending (s : State) (b : Nat) (f : Bank → Bank) : (s.modBank b f).pending = s.pending := rfl
@[simp] theorem State.modBank_now (s : State) (b : Nat) (f : Bank → Bank) : (s.modBank b f).now = s.now := rfl
@[simp] theorem State.modBank_freeIdx (s : State) (b : Nat) (f : Bank → Bank) : (s.modBank b f).freeIdx = s.freeIdx := rfl
@[simp] theorem State.modBank_cycle (s : State) (b : Nat) (f : Bank → Bank) : (s.modBank b f).cycle = s.cycle := rfl
@[simp] theorem State.modBank_pulses (s : State) (b : Nat) (f : Bank → Bank) : (s.modBank b f).pulses = s.pulses := rfl
@[simp] theorem State.modBank_regs (s : State) (b : Nat) (f : Bank → Bank) : (s.modBank b f).regs = s.regs := rfl
@[simp] theorem State.modBank_minSec (s : State) (b : Nat) (f : Bank → Bank) : (s.modBank b f).minSec = s.minSec := rfl
@[simp] theorem State.modBank_flash (s : State) (b : Nat) (f : Bank → Bank) : (s.modBank b f).flash = s.flash := rfl
@[simp] theorem State.modBank_hearth (s : State) (b : Nat) (f : Bank → Bank) : (s.modBank b f).hearth = s.hearth := rfl
@[simp] theorem State.modBank_out (s : State) (b : Nat) (f : Bank → Bank) : (s.modBank b f).main.out = s.main.out := rfl
@[simp] theorem State.modBank_boot (s : State) (b : Nat) (f : Bank → Bank) : (s.modBank b f).main.boot = s.main.boot := rfl
@[simp] theorem State.modBank_cmd (s : State) (b : Nat) (f : Bank → Bank) : (s.modBank b f).main.cmd = s.main.cmd := rfl
@[simp] theorem State.modBank_ash (s : State) (b : Nat) (f : Bank → Bank) : (s.modBank b f).main.ash = s.main.ash := rfl
@[simp] theorem State.modBank_power (s : State) (b : Nat) (f : Bank → Bank) : (s.modBank b f).main.power = s.main.power := rfl
@[simp] theorem State.modBank_nt (s : State) (b : Nat) (f : Bank → Bank) : (s.modBank b f).main.nt = s.main.nt := rfl
@[simp] theorem State.modBank_ma (s : State) (b : Nat) (f : Bank → Bank) : (s.modBank b f).main.ma = s.main.ma := rfl
@[simp] theorem State.modBank_up (s : State) (b : Nat) (f : Bank → Bank) : (s.modBank b f).main.up = s.main.up := rfl
@[simp] theorem State.modBank_tb (s : State) (b : Nat) (f : Bank → Bank) : (s.modBank b f).main.tb = s.main.tb := rfl
@[simp] theorem State.modBank_mp (s : State) (b : Nat) (f : Bank → Bank) : (s.modBank b f).main.mp = s.main.mp := rfl
@[simp] theorem State.modBank_em (s : State) (b : Nat) (f : Bank → Bank) : (s.modBank b f).main.em = s.main.em := rfl
@[simp] theorem State.modBank_st (s : State) (b : Nat) (f : Bank → Bank) : (s.modBank b f).main.st = s.main.st := rfl
@[simp] theorem State.modBank_sk (s : State) (b : Nat) (f : Bank → Bank) : (s.modBank b f).main.sk = s.main.sk := rfl
@[simp] theorem State.modBank_ln (s : State) (b : Nat) (f : Bank → Bank) : (s.modBank b f).main.ln = s.main.ln := rfl
@[simp] theorem State.modBank_td (s : State) (b : Nat) (f : Bank → Bank) : (s.modBank b f).main.td = s.main.td := rfl
@[simp] theorem State.modBank_tm (s : State) (b : Nat) (f : Bank → Bank) : (s.modBank b f).main.tm = s.main.tm := rfl
@[simp] theorem State.modBank_cy (s : State) (b : Nat) (f : Bank → Bank) : (s.modBank b f).main.cy = s.main.cy := rfl
@[simp] theorem State.modBank_pc (s : State) (b : Nat) (f : Bank → Bank) : (s.modBank b f).main.pc = s.main.pc := rfl
@[simp] theorem State.modBank_wa (s : State) (b : Nat) (f : Bank → Bank) : (s.modBank b f).main.wa = s.main.wa := rfl
@[simp] theorem State.modBank_pw (s : State) (b : Nat) (f : Bank → Bank) : (s.modBank b f).main.pw = s.main.pw := rfl

/-! ### modBoot -/

@[simp] theorem State.modBoot_pending (s : State) (f : Boot → Boot) : (s.modBoot f).pending = s.pending := rfl
@[simp] theorem State.modBoot_now (s : State) (f : Boot → Boot) : (s.modBoot f).now = s.now := rfl
@[simp] theorem State.modBoot_freeIdx (s : State) (f : Boot → Boot) : (s.modBoot f).freeIdx = s.freeIdx := rfl
@[simp] theorem State.modBoot_cycle (s : State) (f : Boot → Boot) : (s.modBoot f).cycle = s.cycle := rfl
@[simp] theorem State.modBoot_pulses (s : State) (f : Boot → Boot) : (s.modBoot f).pulses = s.pulses := rfl
@[simp] theorem State.modBoot_regs (s : State) (f : Boot → Boot) : (s.modBoot f).regs = s.regs := rfl
@[simp] theorem State.modBoot_minSec (s : State) (f : Boot → Boot) : (s.modBoot f).minSec = s.minSec := rfl
@[simp] theorem State.modBoot_flash (s : State) (f : Boot → Boot) : (s.modBoot f).flash = s.flash := rfl
@[simp] theorem State.modBoot_hearth (s : State) (f : Boot → Boot) : (s.modBoot f).hearth = s.hearth := rfl
@[simp] theorem State.modBoot_out (s : State) (f : Boot → Boot) : (s.modBoot f).main.out = s.main.out := rfl
@[simp] theorem State.modBoot_boot (s : State) (f : Boot → Boot) : (s.modBoot f).main.boot = f s.main.boot := rfl
@[simp] theorem State.modBoot_cmd (s : State) (f : Boot → Boot) : (s.modBoot f).main.cmd = s.main.cmd := rfl
@[simp] theorem State.modBoot_ash (s : State) (f : Boot → Boot) : (s.modBoot f).main.ash = s.main.ash := rfl
@[simp] theorem State.modBoot_power (s : State) (f : Boot → Boot) : (s.modBoot f).main.power = s.main.power := rfl
@[simp] theorem State.modBoot_nt (s : State) (f : Boot → Boot) : (s.modBoot f).main.nt = s.main.nt := rfl
@[simp] theorem State.modBoot_ma (s : State) (f : Boot → Boot) : (s.modBoot f).main.ma = s.main.ma := rfl
@[simp] theorem State.modBoot_up (s : State) (f : Boot → Boot) : (s.modBoot f).main.up = s.main.up := rfl
@[simp] theorem State.modBoot_tb (s : State) (f : Boot → Boot) : (s.modBoot f).main.tb = s.main.tb := rfl
@[simp] theorem State.modBoot_mp (s : State) (f : Boot → Boot) : (s.modBoot f).main.mp = s.main.mp := rfl
@[simp] theorem State.modBoot_em (s : State) (f : Boot → Boot) : (s.modBoot f).main.em = s.main.em := rfl
@[simp] theorem State.modBoot_st (s : State) (f : Boot → Boot) : (s.modBoot f).main.st = s.main.st := rfl
@[simp] theorem State.modBoot_sk (s : State) (f : Boot → Boot) : (s.modBoot f).main.sk = s.main.sk := rfl
@[simp] theorem State.modBoot_mm (s : State) (f : Boot → Boot) : (s.modBoot f).main.mm = s.main.mm := rfl
@[simp] theorem State.modBoot_ln (s : State) (f : Boot → Boot) : (s.modBoot f).main.ln = s.main.ln := rfl
@[simp] theorem State.modBoot_td (s : State) (f : Boot → Boot) : (s.modBoot f).main.td = s.main.td := rfl
@[simp] theorem State.modBoot_tm (s : State) (f : Boot → Boot) : (s.modBoot f).main.tm = s.main.tm := rfl
@[simp] theorem State.modBoot_cy (s : State) (f : Boot → Boot) : (s.modBoot f).main.cy = s.main.cy := rfl
@[simp] theorem State.modBoot_pc (s : State) (f : Boot → Boot) : (s.modBoot f).main.pc = s.main.pc := rfl
@[simp] theorem State.modBoot_wa (s : State) (f : Boot → Boot) : (s.modBoot f).main.wa = s.main.wa := rfl
@[simp] theorem State.modBoot_pw (s : State) (f : Boot → Boot) : (s.modBoot f).main.pw = s.main.pw := rfl

/-! ### modCam -/

@[simp] theorem State.modCam_pending (s : State) (c : Nat) (f : WaChan → WaChan) : (s.modCam c f).pending = s.pending := rfl
@[simp] theorem State.modCam_now (s : State) (c : Nat) (f : WaChan → WaChan) : (s.modCam c f).now = s.now := rfl
@[simp] theorem State.modCam_freeIdx (s : State) (c : Nat) (f : WaChan → WaChan) : (s.modCam c f).freeIdx = s.freeIdx := rfl
@[simp] theorem State.modCam_cycle (s : State) (c : Nat) (f : WaChan → WaChan) : (s.modCam c f).cycle = s.cycle := rfl
@[simp] theorem State.modCam_pulses (s : State) (c : Nat) (f : WaChan → WaChan) : (s.modCam c f).pulses = s.pulses := rfl
@[simp] theorem State.modCam_regs (s : State) (c : Nat) (f : WaChan → WaChan) : (s.modCam c f).regs = s.regs := rfl
@[simp] theorem State.modCam_minSec (s : State) (c : Nat) (f : WaChan → WaChan) : (s.modCam c f).minSec = s.minSec := rfl
@[simp] theorem State.modCam_flash (s : State) (c : Nat) (f : WaChan → WaChan) : (s.modCam c f).flash = s.flash := rfl
@[simp] theorem State.modCam_hearth (s : State) (c : Nat) (f : WaChan → WaChan) : (s.modCam c f).hearth = s.hearth := rfl
@[simp] theorem State.modCam_out (s : State) (c : Nat) (f : WaChan → WaChan) : (s.modCam c f).main.out = s.main.out := rfl
@[simp] theorem State.modCam_boot (s : State) (c : Nat) (f : WaChan → WaChan) : (s.modCam c f).main.boot = s.main.boot := rfl
@[simp] theorem State.modCam_cmd (s : State) (c : Nat) (f : WaChan → WaChan) : (s.modCam c f).main.cmd = s.main.cmd := rfl
@[simp] theorem State.modCam_ash (s : State) (c : Nat) (f : WaChan → WaChan) : (s.modCam c f).main.ash = s.main.ash := rfl
@[simp] theorem State.modCam_power (s : State) (c : Nat) (f : WaChan → WaChan) : (s.modCam c f).main.power = s.main.power := rfl
@[simp] theorem State.modCam_nt (s : State) (c : Nat) (f : WaChan → WaChan) : (s.modCam c f).main.nt = s.main.nt := rfl
@[simp] theorem State.modCam_ma (s : State) (c : Nat) (f : WaChan → WaChan) : (s.modCam c f).main.ma = s.main.ma := rfl
@[simp] theorem State.modCam_up (s : State) (c : Nat) (f : WaChan → WaChan) : (s.modCam c f).main.up = s.main.up := rfl
@[simp] theorem State.modCam_tb (s : State) (c : Nat) (f : WaChan → WaChan) : (s.modCam c f).main.tb = s.main.tb := rfl
@[simp] theorem State.modCam_mp (s : State) (c : Nat) (f : WaChan → WaChan) : (s.modCam c f).main.mp = s.main.mp := rfl
@[simp] theorem State.modCam_em (s : State) (c : Nat) (f : WaChan → WaChan) : (s.modCam c f).main.em = s.main.em := rfl
@[simp] theorem State.modCam_st (s : State) (c : Nat) (f : WaChan → WaChan) : (s.modCam c f).main.st = s.main.st := rfl
@[simp] theorem State.modCam_sk (s : State) (c : Nat) (f : WaChan → WaChan) : (s.modCam c f).main.sk = s.main.sk := rfl
@[simp] theorem State.modCam_mm (s : State) (c : Nat) (f : WaChan → WaChan) : (s.modCam c f).main.mm = s.main.mm := rfl
@[simp] theorem State.modCam_ln (s : State) (c : Nat) (f : WaChan → WaChan) : (s.modCam c f).main.ln = s.main.ln := rfl
@[simp] theorem State.modCam_td (s : State) (c : Nat) (f : WaChan → WaChan) : (s.modCam c f).main.td = s.main.td := rfl
@[simp] theorem State.modCam_tm (s : State) (c : Nat) (f : WaChan → WaChan) : (s.modCam c f).main.tm = s.main.tm := rfl
@[simp] theorem State.modCam_cy (s : State) (c : Nat) (f : WaChan → WaChan) : (s.modCam c f).main.cy = s.main.cy := rfl
@[simp] theorem State.modCam_pc (s : State) (c : Nat) (f : WaChan → WaChan) : (s.modCam c f).main.pc = s.main.pc := rfl
@[simp] theorem State.modCam_pw (s : State) (c : Nat) (f : WaChan → WaChan) : (s.modCam c f).main.pw = s.main.pw := rfl

/-! ### modChan -/

@[simp] theorem State.modChan_pending (s : State) (c : Nat) (f : PcChan → PcChan) : (s.modChan c f).pending = s.pending := rfl
@[simp] theorem State.modChan_now (s : State) (c : Nat) (f : PcChan → PcChan) : (s.modChan c f).now = s.now := rfl
@[simp] theorem State.modChan_freeIdx (s : State) (c : Nat) (f : PcChan → PcChan) : (s.modChan c f).freeIdx = s.freeIdx := rfl
@[simp] theorem State.modChan_cycle (s : State) (c : Nat) (f : PcChan → PcChan) : (s.modChan c f).cycle = s.cycle := rfl
@[simp] theorem State.modChan_pulses (s : State) (c : Nat) (f : PcChan → PcChan) : (s.modChan c f).pulses = s.pulses := rfl
@[simp] theorem State.modChan_regs (s : State) (c : Nat) (f : PcChan → PcChan) : (s.modChan c f).regs = s.regs := rfl
@[simp] theorem State.modChan_minSec (s : State) (c : Nat) (f : PcChan → PcChan) : (s.modChan c f).minSec = s.minSec := rfl
@[simp] theorem State.modChan_flash (s : State) (c : Nat) (f : PcChan → PcChan) : (s.modChan c f).flash = s.flash := rfl
@[simp] theorem State.modChan_hearth (s : State) (c : Nat) (f : PcChan → PcChan) : (s.modChan c f).hearth = s.hearth := rfl
@[simp] theorem State.modChan_out (s : State) (c : Nat) (f : PcChan → PcChan) : (s.modChan c f).main.out = s.main.out := rfl
@[simp] theorem State.modChan_boot (s : State) (c : Nat) (f : PcChan → PcChan) : (s.modChan c f).main.boot = s.main.boot := rfl
@[simp] theorem State.modChan_cmd (s : State) (c : Nat) (f : PcChan → PcChan) : (s.modChan c f).main.cmd = s.main.cmd := rfl
@[simp] theorem State.modChan_ash (s : State) (c : Nat) (f : PcChan → PcChan) : (s.modChan c f).main.ash = s.main.ash := rfl
@[simp] theorem State.modChan_power (s : State) (c : Nat) (f : PcChan → PcChan) : (s.modChan c f).main.power = s.main.power := rfl
@[simp] theorem State.modChan_nt (s : State) (c : Nat) (f : PcChan → PcChan) : (s.modChan c f).main.nt = s.main.nt := rfl
@[simp] theorem State.modChan_ma (s : State) (c : Nat) (f : PcChan → PcChan) : (s.modChan c f).main.ma = s.main.ma := rfl
@[simp] theorem State.modChan_up (s : State) (c : Nat) (f : PcChan → PcChan) : (s.modChan c f).main.up = s.main.up := rfl
@[simp] theorem State.modChan_tb (s : State) (c : Nat) (f : PcChan → PcChan) : (s.modChan c f).main.tb = s.main.tb := rfl
@[simp] theorem State.modChan_mp (s : State) (c : Nat) (f : PcChan → PcChan) : (s.modChan c f).main.mp = s.main.mp := rfl
@[simp] theorem State.modChan_em (s : State) (c : Nat) (f : PcChan → PcChan) : (s.modChan c f).main.em = s.main.em := rfl
@[simp] theorem State.modChan_st (s : State) (c : Nat) (f : PcChan → PcChan) : (s.modChan c f).main.st = s.main.st := rfl
@[simp] theorem State.modChan_sk (s : State) (c : Nat) (f : PcChan → PcChan) : (s.modChan c f).main.sk = s.main.sk := rfl
@[simp] theorem State.modChan_mm (s : State) (c : Nat) (f : PcChan → PcChan) : (s.modChan c f).main.mm = s.main.mm := rfl
@[simp] theorem State.modChan_ln (s : State) (c : Nat) (f : PcChan → PcChan) : (s.modChan c f).main.ln = s.main.ln := rfl
@[simp] theorem State.modChan_td (s : State) (c : Nat) (f : PcChan → PcChan) : (s.modChan c f).main.td = s.main.td := rfl
@[simp] theorem State.modChan_tm (s : State) (c : Nat) (f : PcChan → PcChan) : (s.modChan c f).main.tm = s.main.tm := rfl
@[simp] theorem State.modChan_cy (s : State) (c : Nat) (f : PcChan → PcChan) : (s.modChan c f).main.cy = s.main.cy := rfl
@[simp] theorem State.modChan_wa (s : State) (c : Nat) (f : PcChan → PcChan) : (s.modChan c f).main.wa = s.main.wa := rfl
@[simp] theorem State.modChan_pw (s : State) (c : Nat) (f : PcChan → PcChan) : (s.modChan c f).main.pw = s.main.pw := rfl

/-! ### modClip -/

@[simp] theorem State.modClip_pending (s : State) (id : Nat) (f : Clip → Clip) : (s.modClip id f).pending = s.pending := rfl
@[simp] theorem State.modClip_now (s : State) (id : Nat) (f : Clip → Clip) : (s.modClip id f).now = s.now := rfl
@[simp] theorem State.modClip_freeIdx (s : State) (id : Nat) (f : Clip → Clip) : (s.modClip id f).freeIdx = s.freeIdx := rfl
@[simp] theorem State.modClip_cycle (s : State) (id : Nat) (f : Clip → Clip) : (s.modClip id f).cycle = s.cycle := rfl
@[simp] theorem State.modClip_pulses (s : State) (id : Nat) (f : Clip → Clip) : (s.modClip id f).pulses = s.pulses := rfl
@[simp] theorem State.modClip_regs (s : State) (id : Nat) (f : Clip → Clip) : (s.modClip id f).regs = s.regs := rfl
@[simp] theorem State.modClip_minSec (s : State) (id : Nat) (f : Clip → Clip) : (s.modClip id f).minSec = s.minSec := rfl
@[simp] theorem State.modClip_flash (s : State) (id : Nat) (f : Clip → Clip) : (s.modClip id f).flash = s.flash := rfl
@[simp] theorem State.modClip_hearth (s : State) (id : Nat) (f : Clip → Clip) : (s.modClip id f).hearth = s.hearth := rfl
@[simp] theorem State.modClip_out (s : State) (id : Nat) (f : Clip → Clip) : (s.modClip id f).main.out = s.main.out := rfl
@[simp] theorem State.modClip_boot (s : State) (id : Nat) (f : Clip → Clip) : (s.modClip id f).main.boot = s.main.boot := rfl
@[simp] theorem State.modClip_cmd (s : State) (id : Nat) (f : Clip → Clip) : (s.modClip id f).main.cmd = s.main.cmd := rfl
@[simp] theorem State.modClip_ash (s : State) (id : Nat) (f : Clip → Clip) : (s.modClip id f).main.ash = s.main.ash := rfl
@[simp] theorem State.modClip_power (s : State) (id : Nat) (f : Clip → Clip) : (s.modClip id f).main.power = s.main.power := rfl
@[simp] theorem State.modClip_nt (s : State) (id : Nat) (f : Clip → Clip) : (s.modClip id f).main.nt = s.main.nt := rfl
@[simp] theorem State.modClip_ma (s : State) (id : Nat) (f : Clip → Clip) : (s.modClip id f).main.ma = s.main.ma := rfl
@[simp] theorem State.modClip_up (s : State) (id : Nat) (f : Clip → Clip) : (s.modClip id f).main.up = s.main.up := rfl
@[simp] theorem State.modClip_tb (s : State) (id : Nat) (f : Clip → Clip) : (s.modClip id f).main.tb = s.main.tb := rfl
@[simp] theorem State.modClip_mp (s : State) (id : Nat) (f : Clip → Clip) : (s.modClip id f).main.mp = s.main.mp := rfl
@[simp] theorem State.modClip_em (s : State) (id : Nat) (f : Clip → Clip) : (s.modClip id f).main.em = s.main.em := rfl
@[simp] theorem State.modClip_st (s : State) (id : Nat) (f : Clip → Clip) : (s.modClip id f).main.st = s.main.st := rfl
@[simp] theorem State.modClip_sk (s : State) (id : Nat) (f : Clip → Clip) : (s.modClip id f).main.sk = s.main.sk := rfl
@[simp] theorem State.modClip_mm (s : State) (id : Nat) (f : Clip → Clip) : (s.modClip id f).main.mm = s.main.mm := rfl
@[simp] theorem State.modClip_ln (s : State) (id : Nat) (f : Clip → Clip) : (s.modClip id f).main.ln = s.main.ln := rfl
@[simp] theorem State.modClip_td (s : State) (id : Nat) (f : Clip → Clip) : (s.modClip id f).main.td = s.main.td := rfl
@[simp] theorem State.modClip_tm (s : State) (id : Nat) (f : Clip → Clip) : (s.modClip id f).main.tm = s.main.tm := rfl
@[simp] theorem State.modClip_cy (s : State) (id : Nat) (f : Clip → Clip) : (s.modClip id f).main.cy = s.main.cy := rfl
@[simp] theorem State.modClip_wa (s : State) (id : Nat) (f : Clip → Clip) : (s.modClip id f).main.wa = s.main.wa := rfl
@[simp] theorem State.modClip_pw (s : State) (id : Nat) (f : Clip → Clip) : (s.modClip id f).main.pw = s.main.pw := rfl

/-! ### modCmd -/

@[simp] theorem State.modCmd_pending (s : State) (f : Cmd → Cmd) : (s.modCmd f).pending = s.pending := rfl
@[simp] theorem State.modCmd_now (s : State) (f : Cmd → Cmd) : (s.modCmd f).now = s.now := rfl
@[simp] theorem State.modCmd_freeIdx (s : State) (f : Cmd → Cmd) : (s.modCmd f).freeIdx = s.freeIdx := rfl
@[simp] theorem State.modCmd_cycle (s : State) (f : Cmd → Cmd) : (s.modCmd f).cycle = s.cycle := rfl
@[simp] theorem State.modCmd_pulses (s : State) (f : Cmd → Cmd) : (s.modCmd f).pulses = s.pulses := rfl
@[simp] theorem State.modCmd_regs (s : State) (f : Cmd → Cmd) : (s.modCmd f).regs = s.regs := rfl
@[simp] theorem State.modCmd_minSec (s : State) (f : Cmd → Cmd) : (s.modCmd f).minSec = s.minSec := rfl
@[simp] theorem State.modCmd_flash (s : State) (f : Cmd → Cmd) : (s.modCmd f).flash = s.flash := rfl
@[simp] theorem State.modCmd_hearth (s : State) (f : Cmd → Cmd) : (s.modCmd f).hearth = s.hearth := rfl
@[simp] theorem State.modCmd_out (s : State) (f : Cmd → Cmd) : (s.modCmd f).main.out = s.main.out := rfl
@[simp] theorem State.modCmd_boot (s : State) (f : Cmd → Cmd) : (s.modCmd f).main.boot = s.main.boot := rfl
@[simp] theorem State.modCmd_cmd (s : State) (f : Cmd → Cmd) : (s.modCmd f).main.cmd = f s.main.cmd := rfl
@[simp] theorem State.modCmd_ash (s : State) (f : Cmd → Cmd) : (s.modCmd f).main.ash = s.main.ash := rfl
@[simp] theorem State.modCmd_power (s : State) (f : Cmd → Cmd) : (s.modCmd f).main.power = s.main.power := rfl
@[simp] theorem State.modCmd_nt (s : State) (f : Cmd → Cmd) : (s.modCmd f).main.nt = s.main.nt := rfl
@[simp] theorem State.modCmd_ma (s : State) (f : Cmd → Cmd) : (s.modCmd f).main.ma = s.main.ma := rfl
@[simp] theorem State.modCmd_up (s : State) (f : Cmd → Cmd) : (s.modCmd f).main.up = s.main.up := rfl
@[simp] theorem State.modCmd_tb (s : State) (f : Cmd → Cmd) : (s.modCmd f).main.tb = s.main.tb := rfl
@[simp] theorem State.modCmd_mp (s : State) (f : Cmd → Cmd) : (s.modCmd f).main.mp = s.main.mp := rfl
@[simp] theorem State.modCmd_em (s : State) (f : Cmd → Cmd) : (s.modCmd f).main.em = s.main.em := rfl
@[simp] theorem State.modCmd_st (s : State) (f : Cmd → Cmd) : (s.modCmd f).main.st = s.main.st := rfl
@[simp] theorem State.modCmd_sk (s : State) (f : Cmd → Cmd) : (s.modCmd f).main.sk = s.main.sk := rfl
@[simp] theorem State.modCmd_mm (s : State) (f : Cmd → Cmd) : (s.modCmd f).main.mm = s.main.mm := rfl
@[simp] theorem State.modCmd_ln (s : State) (f : Cmd → Cmd) : (s.modCmd f).main.ln = s.main.ln := rfl
@[simp] theorem State.modCmd_td (s : State) (f : Cmd → Cmd) : (s.modCmd f).main.td = s.main.td := rfl
@[simp] theorem State.modCmd_tm (s : State) (f : Cmd → Cmd) : (s.modCmd f).main.tm = s.main.tm := rfl
@[simp] theorem State.modCmd_cy (s : State) (f : Cmd → Cmd) : (s.modCmd f).main.cy = s.main.cy := rfl
@[simp] theorem State.modCmd_pc (s : State) (f : Cmd → Cmd) : (s.modCmd f).main.pc = s.main.pc := rfl
@[simp] theorem State.modCmd_wa (s : State) (f : Cmd → Cmd) : (s.modCmd f).main.wa = s.main.wa := rfl
@[simp] theorem State.modCmd_pw (s : State) (f : Cmd → Cmd) : (s.modCmd f).main.pw = s.main.pw := rfl

/-! ### modCmp -/

@[simp] theorem State.modCmp_pending (s : State) (u : Nat) (f : Cmp → Cmp) : (s.modCmp u f).pending = s.pending := rfl
@[simp] theorem State.modCmp_now (s : State) (u : Nat) (f : Cmp → Cmp) : (s.modCmp u f).now = s.now := rfl
@[simp] theorem State.modCmp_freeIdx (s : State) (u : Nat) (f : Cmp → Cmp) : (s.modCmp u f).freeIdx = s.freeIdx := rfl
@[simp] theorem State.modCmp_cycle (s : State) (u : Nat) (f : Cmp → Cmp) : (s.modCmp u f).cycle = s.cycle := rfl
@[simp] theorem State.modCmp_pulses (s : State) (u : Nat) (f : Cmp → Cmp) : (s.modCmp u f).pulses = s.pulses := rfl
@[simp] theorem State.modCmp_regs (s : State) (u : Nat) (f : Cmp → Cmp) : (s.modCmp u f).regs = s.regs := rfl
@[simp] theorem State.modCmp_minSec (s : State) (u : Nat) (f : Cmp → Cmp) : (s.modCmp u f).minSec = s.minSec := rfl
@[simp] theorem State.modCmp_flash (s : State) (u : Nat) (f : Cmp → Cmp) : (s.modCmp u f).flash = s.flash := rfl
@[simp] theorem State.modCmp_hearth (s : State) (u : Nat) (f : Cmp → Cmp) : (s.modCmp u f).hearth = s.hearth := rfl
@[simp] theorem State.modCmp_out (s : State) (u : Nat) (f : Cmp → Cmp) : (s.modCmp u f).main.out = s.main.out := rfl
@[simp] theorem State.modCmp_boot (s : State) (u : Nat) (f : Cmp → Cmp) : (s.modCmp u f).main.boot = s.main.boot := rfl
@[simp] theorem State.modCmp_cmd (s : State) (u : Nat) (f : Cmp → Cmp) : (s.modCmp u f).main.cmd = s.main.cmd := rfl
@[simp] theorem State.modCmp_ash (s : State) (u : Nat) (f : Cmp → Cmp) : (s.modCmp u f).main.ash = s.main.ash := rfl
@[simp] theorem State.modCmp_power (s : State) (u : Nat) (f : Cmp → Cmp) : (s.modCmp u f).main.power = s.main.power := rfl
@[simp] theorem State.modCmp_ma (s : State) (u : Nat) (f : Cmp → Cmp) : (s.modCmp u f).main.ma = s.main.ma := rfl
@[simp] theorem State.modCmp_up (s : State) (u : Nat) (f : Cmp → Cmp) : (s.modCmp u f).main.up = s.main.up := rfl
@[simp] theorem State.modCmp_tb (s : State) (u : Nat) (f : Cmp → Cmp) : (s.modCmp u f).main.tb = s.main.tb := rfl
@[simp] theorem State.modCmp_mp (s : State) (u : Nat) (f : Cmp → Cmp) : (s.modCmp u f).main.mp = s.main.mp := rfl
@[simp] theorem State.modCmp_em (s : State) (u : Nat) (f : Cmp → Cmp) : (s.modCmp u f).main.em = s.main.em := rfl
@[simp] theorem State.modCmp_st (s : State) (u : Nat) (f : Cmp → Cmp) : (s.modCmp u f).main.st = s.main.st := rfl
@[simp] theorem State.modCmp_sk (s : State) (u : Nat) (f : Cmp → Cmp) : (s.modCmp u f).main.sk = s.main.sk := rfl
@[simp] theorem State.modCmp_mm (s : State) (u : Nat) (f : Cmp → Cmp) : (s.modCmp u f).main.mm = s.main.mm := rfl
@[simp] theorem State.modCmp_ln (s : State) (u : Nat) (f : Cmp → Cmp) : (s.modCmp u f).main.ln = s.main.ln := rfl
@[simp] theorem State.modCmp_td (s : State) (u : Nat) (f : Cmp → Cmp) : (s.modCmp u f).main.td = s.main.td := rfl
@[simp] theorem State.modCmp_tm (s : State) (u : Nat) (f : Cmp → Cmp) : (s.modCmp u f).main.tm = s.main.tm := rfl
@[simp] theorem State.modCmp_cy (s : State) (u : Nat) (f : Cmp → Cmp) : (s.modCmp u f).main.cy = s.main.cy := rfl
@[simp] theorem State.modCmp_pc (s : State) (u : Nat) (f : Cmp → Cmp) : (s.modCmp u f).main.pc = s.main.pc := rfl
@[simp] theorem State.modCmp_wa (s : State) (u : Nat) (f : Cmp → Cmp) : (s.modCmp u f).main.wa = s.main.wa := rfl
@[simp] theorem State.modCmp_pw (s : State) (u : Nat) (f : Cmp → Cmp) : (s.modCmp u f).main.pw = s.main.pw := rfl

/-! ### modCy -/

@[simp] theorem State.modCy_pending (s : State) (f : Cipher → Cipher) : (s.modCy f).pending = s.pending := rfl
@[simp] theorem State.modCy_now (s : State) (f : Cipher → Cipher) : (s.modCy f).now = s.now := rfl
@[simp] theorem State.modCy_freeIdx (s : State) (f : Cipher → Cipher) : (s.modCy f).freeIdx = s.freeIdx := rfl
@[simp] theorem State.modCy_cycle (s : State) (f : Cipher → Cipher) : (s.modCy f).cycle = s.cycle := rfl
@[simp] theorem State.modCy_pulses (s : State) (f : Cipher → Cipher) : (s.modCy f).pulses = s.pulses := rfl
@[simp] theorem State.modCy_regs (s : State) (f : Cipher → Cipher) : (s.modCy f).regs = s.regs := rfl
@[simp] theorem State.modCy_minSec (s : State) (f : Cipher → Cipher) : (s.modCy f).minSec = s.minSec := rfl
@[simp] theorem State.modCy_flash (s : State) (f : Cipher → Cipher) : (s.modCy f).flash = s.flash := rfl
@[simp] theorem State.modCy_hearth (s : State) (f : Cipher → Cipher) : (s.modCy f).hearth = s.hearth := rfl
@[simp] theorem State.modCy_out (s : State) (f : Cipher → Cipher) : (s.modCy f).main.out = s.main.out := rfl
@[simp] theorem State.modCy_boot (s : State) (f : Cipher → Cipher) : (s.modCy f).main.boot = s.main.boot := rfl
@[simp] theorem State.modCy_cmd (s : State) (f : Cipher → Cipher) : (s.modCy f).main.cmd = s.main.cmd := rfl
@[simp] theorem State.modCy_ash (s : State) (f : Cipher → Cipher) : (s.modCy f).main.ash = s.main.ash := rfl
@[simp] theorem State.modCy_power (s : State) (f : Cipher → Cipher) : (s.modCy f).main.power = s.main.power := rfl
@[simp] theorem State.modCy_nt (s : State) (f : Cipher → Cipher) : (s.modCy f).main.nt = s.main.nt := rfl
@[simp] theorem State.modCy_ma (s : State) (f : Cipher → Cipher) : (s.modCy f).main.ma = s.main.ma := rfl
@[simp] theorem State.modCy_up (s : State) (f : Cipher → Cipher) : (s.modCy f).main.up = s.main.up := rfl
@[simp] theorem State.modCy_tb (s : State) (f : Cipher → Cipher) : (s.modCy f).main.tb = s.main.tb := rfl
@[simp] theorem State.modCy_mp (s : State) (f : Cipher → Cipher) : (s.modCy f).main.mp = s.main.mp := rfl
@[simp] theorem State.modCy_em (s : State) (f : Cipher → Cipher) : (s.modCy f).main.em = s.main.em := rfl
@[simp] theorem State.modCy_st (s : State) (f : Cipher → Cipher) : (s.modCy f).main.st = s.main.st := rfl
@[simp] theorem State.modCy_sk (s : State) (f : Cipher → Cipher) : (s.modCy f).main.sk = s.main.sk := rfl
@[simp] theorem State.modCy_mm (s : State) (f : Cipher → Cipher) : (s.modCy f).main.mm = s.main.mm := rfl
@[simp] theorem State.modCy_ln (s : State) (f : Cipher → Cipher) : (s.modCy f).main.ln = s.main.ln := rfl
@[simp] theorem State.modCy_td (s : State) (f : Cipher → Cipher) : (s.modCy f).main.td = s.main.td := rfl
@[simp] theorem State.modCy_tm (s : State) (f : Cipher → Cipher) : (s.modCy f).main.tm = s.main.tm := rfl
@[simp] theorem State.modCy_cy (s : State) (f : Cipher → Cipher) : (s.modCy f).main.cy = f s.main.cy := rfl
@[simp] theorem State.modCy_pc (s : State) (f : Cipher → Cipher) : (s.modCy f).main.pc = s.main.pc := rfl
@[simp] theorem State.modCy_wa (s : State) (f : Cipher → Cipher) : (s.modCy f).main.wa = s.main.wa := rfl
@[simp] theorem State.modCy_pw (s : State) (f : Cipher → Cipher) : (s.modCy f).main.pw = s.main.pw := rfl

/-! ### modEm -/

@[simp] theorem State.modEm_pending (s : State) (f : Ether → Ether) : (s.modEm f).pending = s.pending := rfl
@[simp] theorem State.modEm_now (s : State) (f : Ether → Ether) : (s.modEm f).now = s.now := rfl
@[simp] theorem State.modEm_freeIdx (s : State) (f : Ether → Ether) : (s.modEm f).freeIdx = s.freeIdx := rfl
@[simp] theorem State.modEm_cycle (s : State) (f : Ether → Ether) : (s.modEm f).cycle = s.cycle := rfl
@[simp] theorem State.modEm_pulses (s : State) (f : Ether → Ether) : (s.modEm f).pulses = s.pulses := rfl
@[simp] theorem State.modEm_regs (s : State) (f : Ether → Ether) : (s.modEm f).regs = s.regs := rfl
@[simp] theorem State.modEm_minSec (s : State) (f : Ether → Ether) : (s.modEm f).minSec = s.minSec := rfl
@[simp] theorem State.modEm_flash (s : State) (f : Ether → Ether) : (s.modEm f).flash = s.flash := rfl
@[simp] theorem State.modEm_hearth (s : State) (f : Ether → Ether) : (s.modEm f).hearth = s.hearth := rfl
@[simp] theorem State.modEm_out (s : State) (f : Ether → Ether) : (s.modEm f).main.out = s.main.out := rfl
@[simp] theorem State.modEm_boot (s : State) (f : Ether → Ether) : (s.modEm f).main.boot = s.main.boot := rfl
@[simp] theorem State.modEm_cmd (s : State) (f : Ether → Ether) : (s.modEm f).main.cmd = s.main.cmd := rfl
@[simp] theorem State.modEm_ash (s : State) (f : Ether → Ether) : (s.modEm f).main.ash = s.main.ash := rfl
@[simp] theorem State.modEm_power (s : State) (f : Ether → Ether) : (s.modEm f).main.power = s.main.power := rfl
@[simp] theorem State.modEm_nt (s : State) (f : Ether → Ether) : (s.modEm f).main.nt = s.main.nt := rfl
@[simp] theorem State.modEm_ma (s : State) (f : Ether → Ether) : (s.modEm f).main.ma = s.main.ma := rfl
@[simp] theorem State.modEm_up (s : State) (f : Ether → Ether) : (s.modEm f).main.up = s.main.up := rfl
@[simp] theorem State.modEm_tb (s : State) (f : Ether → Ether) : (s.modEm f).main.tb = s.main.tb := rfl
@[simp] theorem State.modEm_mp (s : State) (f : Ether → Ether) : (s.modEm f).main.mp = s.main.mp := rfl
@[simp] theorem State.modEm_em (s : State) (f : Ether → Ether) : (s.modEm f).main.em = f s.main.em := rfl
@[simp] theorem State.modEm_st (s : State) (f : Ether → Ether) : (s.modEm f).main.st = s.main.st := rfl
@[simp] theorem State.modEm_sk (s : State) (f : Ether → Ether) : (s.modEm f).main.sk = s.main.sk := rfl
@[simp] theorem State.modEm_mm (s : State) (f : Ether → Ether) : (s.modEm f).main.mm = s.main.mm := rfl
@[simp] theorem State.modEm_ln (s : State) (f : Ether → Ether) : (s.modEm f).main.ln = s.main.ln := rfl
@[simp] theorem State.modEm_td (s : State) (f : Ether → Ether) : (s.modEm f).main.td = s.main.td := rfl
@[simp] theorem State.modEm_tm (s : State) (f : Ether → Ether) : (s.modEm f).main.tm = s.main.tm := rfl
@[simp] theorem State.modEm_cy (s : State) (f : Ether → Ether) : (s.modEm f).main.cy = s.main.cy := rfl
@[simp] theorem State.modEm_pc (s : State) (f : Ether → Ether) : (s.modEm f).main.pc = s.main.pc := rfl
@[simp] theorem State.modEm_wa (s : State) (f : Ether → Ether) : (s.modEm f).main.wa = s.main.wa := rfl
@[simp] theorem State.modEm_pw (s : State) (f : Ether → Ether) : (s.modEm f).main.pw = s.main.pw := rfl

/-! ### modEnt -/

@[simp] theorem State.modEnt_pending (s : State) (n : Nat) (f : Entry → Entry) : (s.modEnt n f).pending = s.pending := rfl
@[simp] theorem State.modEnt_now (s : State) (n : Nat) (f : Entry → Entry) : (s.modEnt n f).now = s.now := rfl
@[simp] theorem State.modEnt_freeIdx (s : State) (n : Nat) (f : Entry → Entry) : (s.modEnt n f).freeIdx = s.freeIdx := rfl
@[simp] theorem State.modEnt_cycle (s : State) (n : Nat) (f : Entry → Entry) : (s.modEnt n f).cycle = s.cycle := rfl
@[simp] theorem State.modEnt_pulses (s : State) (n : Nat) (f : Entry → Entry) : (s.modEnt n f).pulses = s.pulses := rfl
@[simp] theorem State.modEnt_regs (s : State) (n : Nat) (f : Entry → Entry) : (s.modEnt n f).regs = s.regs := rfl
@[simp] theorem State.modEnt_minSec (s : State) (n : Nat) (f : Entry → Entry) : (s.modEnt n f).minSec = s.minSec := rfl
@[simp] theorem State.modEnt_flash (s : State) (n : Nat) (f : Entry → Entry) : (s.modEnt n f).flash = s.flash := rfl
@[simp] theorem State.modEnt_hearth (s : State) (n : Nat) (f : Entry → Entry) : (s.modEnt n f).hearth = s.hearth := rfl
@[simp] theorem State.modEnt_out (s : State) (n : Nat) (f : Entry → Entry) : (s.modEnt n f).main.out = s.main.out := rfl
@[simp] theorem State.modEnt_boot (s : State) (n : Nat) (f : Entry → Entry) : (s.modEnt n f).main.boot = s.main.boot := rfl
@[simp] theorem State.modEnt_cmd (s : State) (n : Nat) (f : Entry → Entry) : (s.modEnt n f).main.cmd = s.main.cmd := rfl
@[simp] theorem State.modEnt_ash (s : State) (n : Nat) (f : Entry → Entry) : (s.modEnt n f).main.ash = s.main.ash := rfl
@[simp] theorem State.modEnt_power (s : State) (n : Nat) (f : Entry → Entry) : (s.modEnt n f).main.power = s.main.power := rfl
@[simp] theorem State.modEnt_nt (s : State) (n : Nat) (f : Entry → Entry) : (s.modEnt n f).main.nt = s.main.nt := rfl
@[simp] theorem State.modEnt_up (s : State) (n : Nat) (f : Entry → Entry) : (s.modEnt n f).main.up = s.main.up := rfl
@[simp] theorem State.modEnt_tb (s : State) (n : Nat) (f : Entry → Entry) : (s.modEnt n f).main.tb = s.main.tb := rfl
@[simp] theorem State.modEnt_mp (s : State) (n : Nat) (f : Entry → Entry) : (s.modEnt n f).main.mp = s.main.mp := rfl
@[simp] theorem State.modEnt_em (s : State) (n : Nat) (f : Entry → Entry) : (s.modEnt n f).main.em = s.main.em := rfl
@[simp] theorem State.modEnt_st (s : State) (n : Nat) (f : Entry → Entry) : (s.modEnt n f).main.st = s.main.st := rfl
@[simp] theorem State.modEnt_sk (s : State) (n : Nat) (f : Entry → Entry) : (s.modEnt n f).main.sk = s.main.sk := rfl
@[simp] theorem State.modEnt_mm (s : State) (n : Nat) (f : Entry → Entry) : (s.modEnt n f).main.mm = s.main.mm := rfl
@[simp] theorem State.modEnt_ln (s : State) (n : Nat) (f : Entry → Entry) : (s.modEnt n f).main.ln = s.main.ln := rfl
@[simp] theorem State.modEnt_td (s : State) (n : Nat) (f : Entry → Entry) : (s.modEnt n f).main.td = s.main.td := rfl
@[simp] theorem State.modEnt_tm (s : State) (n : Nat) (f : Entry → Entry) : (s.modEnt n f).main.tm = s.main.tm := rfl
@[simp] theorem State.modEnt_cy (s : State) (n : Nat) (f : Entry → Entry) : (s.modEnt n f).main.cy = s.main.cy := rfl
@[simp] theorem State.modEnt_pc (s : State) (n : Nat) (f : Entry → Entry) : (s.modEnt n f).main.pc = s.main.pc := rfl
@[simp] theorem State.modEnt_wa (s : State) (n : Nat) (f : Entry → Entry) : (s.modEnt n f).main.wa = s.main.wa := rfl
@[simp] theorem State.modEnt_pw (s : State) (n : Nat) (f : Entry → Entry) : (s.modEnt n f).main.pw = s.main.pw := rfl

/-! ### modEport -/

@[simp] theorem State.modEport_pending (s : State) (n : Nat) (f : EPort → EPort) : (s.modEport n f).pending = s.pending := rfl
@[simp] theorem State.modEport_now (s : State) (n : Nat) (f : EPort → EPort) : (s.modEport n f).now = s.now := rfl
@[simp] theorem State.modEport_freeIdx (s : State) (n : Nat) (f : EPort → EPort) : (s.modEport n f).freeIdx = s.freeIdx := rfl
@[simp] theorem State.modEport_cycle (s : State) (n : Nat) (f : EPort → EPort) : (s.modEport n f).cycle = s.cycle := rfl
@[simp] theorem State.modEport_pulses (s : State) (n : Nat) (f : EPort → EPort) : (s.modEport n f).pulses = s.pulses := rfl
@[simp] theorem State.modEport_regs (s : State) (n : Nat) (f : EPort → EPort) : (s.modEport n f).regs = s.regs := rfl
@[simp] theorem State.modEport_minSec (s : State) (n : Nat) (f : EPort → EPort) : (s.modEport n f).minSec = s.minSec := rfl
@[simp] theorem State.modEport_flash (s : State) (n : Nat) (f : EPort → EPort) : (s.modEport n f).flash = s.flash := rfl
@[simp] theorem State.modEport_hearth (s : State) (n : Nat) (f : EPort → EPort) : (s.modEport n f).hearth = s.hearth := rfl
@[simp] theorem State.modEport_out (s : State) (n : Nat) (f : EPort → EPort) : (s.modEport n f).main.out = s.main.out := rfl
@[simp] theorem State.modEport_boot (s : State) (n : Nat) (f : EPort → EPort) : (s.modEport n f).main.boot = s.main.boot := rfl
@[simp] theorem State.modEport_cmd (s : State) (n : Nat) (f : EPort → EPort) : (s.modEport n f).main.cmd = s.main.cmd := rfl
@[simp] theorem State.modEport_ash (s : State) (n : Nat) (f : EPort → EPort) : (s.modEport n f).main.ash = s.main.ash := rfl
@[simp] theorem State.modEport_power (s : State) (n : Nat) (f : EPort → EPort) : (s.modEport n f).main.power = s.main.power := rfl
@[simp] theorem State.modEport_nt (s : State) (n : Nat) (f : EPort → EPort) : (s.modEport n f).main.nt = s.main.nt := rfl
@[simp] theorem State.modEport_ma (s : State) (n : Nat) (f : EPort → EPort) : (s.modEport n f).main.ma = s.main.ma := rfl
@[simp] theorem State.modEport_up (s : State) (n : Nat) (f : EPort → EPort) : (s.modEport n f).main.up = s.main.up := rfl
@[simp] theorem State.modEport_tb (s : State) (n : Nat) (f : EPort → EPort) : (s.modEport n f).main.tb = s.main.tb := rfl
@[simp] theorem State.modEport_mp (s : State) (n : Nat) (f : EPort → EPort) : (s.modEport n f).main.mp = s.main.mp := rfl
@[simp] theorem State.modEport_st (s : State) (n : Nat) (f : EPort → EPort) : (s.modEport n f).main.st = s.main.st := rfl
@[simp] theorem State.modEport_sk (s : State) (n : Nat) (f : EPort → EPort) : (s.modEport n f).main.sk = s.main.sk := rfl
@[simp] theorem State.modEport_mm (s : State) (n : Nat) (f : EPort → EPort) : (s.modEport n f).main.mm = s.main.mm := rfl
@[simp] theorem State.modEport_ln (s : State) (n : Nat) (f : EPort → EPort) : (s.modEport n f).main.ln = s.main.ln := rfl
@[simp] theorem State.modEport_td (s : State) (n : Nat) (f : EPort → EPort) : (s.modEport n f).main.td = s.main.td := rfl
@[simp] theorem State.modEport_tm (s : State) (n : Nat) (f : EPort → EPort) : (s.modEport n f).main.tm = s.main.tm := rfl
@[simp] theorem State.modEport_cy (s : State) (n : Nat) (f : EPort → EPort) : (s.modEport n f).main.cy = s.main.cy := rfl
@[simp] theorem State.modEport_pc (s : State) (n : Nat) (f : EPort → EPort) : (s.modEport n f).main.pc = s.main.pc := rfl
@[simp] theorem State.modEport_wa (s : State) (n : Nat) (f : EPort → EPort) : (s.modEport n f).main.wa = s.main.wa := rfl
@[simp] theorem State.modEport_pw (s : State) (n : Nat) (f : EPort → EPort) : (s.modEport n f).main.pw = s.main.pw := rfl

/-! ### modFuse -/

@[simp] theorem State.modFuse_pending (s : State) (c : Nat) (f : Fuse → Fuse) : (s.modFuse c f).pending = s.pending := rfl
@[simp] theorem State.modFuse_now (s : State) (c : Nat) (f : Fuse → Fuse) : (s.modFuse c f).now = s.now := rfl
@[simp] theorem State.modFuse_freeIdx (s : State) (c : Nat) (f : Fuse → Fuse) : (s.modFuse c f).freeIdx = s.freeIdx := rfl
@[simp] theorem State.modFuse_cycle (s : State) (c : Nat) (f : Fuse → Fuse) : (s.modFuse c f).cycle = s.cycle := rfl
@[simp] theorem State.modFuse_pulses (s : State) (c : Nat) (f : Fuse → Fuse) : (s.modFuse c f).pulses = s.pulses := rfl
@[simp] theorem State.modFuse_regs (s : State) (c : Nat) (f : Fuse → Fuse) : (s.modFuse c f).regs = s.regs := rfl
@[simp] theorem State.modFuse_minSec (s : State) (c : Nat) (f : Fuse → Fuse) : (s.modFuse c f).minSec = s.minSec := rfl
@[simp] theorem State.modFuse_flash (s : State) (c : Nat) (f : Fuse → Fuse) : (s.modFuse c f).flash = s.flash := rfl
@[simp] theorem State.modFuse_hearth (s : State) (c : Nat) (f : Fuse → Fuse) : (s.modFuse c f).hearth = s.hearth := rfl
@[simp] theorem State.modFuse_out (s : State) (c : Nat) (f : Fuse → Fuse) : (s.modFuse c f).main.out = s.main.out := rfl
@[simp] theorem State.modFuse_boot (s : State) (c : Nat) (f : Fuse → Fuse) : (s.modFuse c f).main.boot = s.main.boot := rfl
@[simp] theorem State.modFuse_cmd (s : State) (c : Nat) (f : Fuse → Fuse) : (s.modFuse c f).main.cmd = s.main.cmd := rfl
@[simp] theorem State.modFuse_ash (s : State) (c : Nat) (f : Fuse → Fuse) : (s.modFuse c f).main.ash = s.main.ash := rfl
@[simp] theorem State.modFuse_power (s : State) (c : Nat) (f : Fuse → Fuse) : (s.modFuse c f).main.power = s.main.power := rfl
@[simp] theorem State.modFuse_nt (s : State) (c : Nat) (f : Fuse → Fuse) : (s.modFuse c f).main.nt = s.main.nt := rfl
@[simp] theorem State.modFuse_ma (s : State) (c : Nat) (f : Fuse → Fuse) : (s.modFuse c f).main.ma = s.main.ma := rfl
@[simp] theorem State.modFuse_up (s : State) (c : Nat) (f : Fuse → Fuse) : (s.modFuse c f).main.up = s.main.up := rfl
@[simp] theorem State.modFuse_tb (s : State) (c : Nat) (f : Fuse → Fuse) : (s.modFuse c f).main.tb = s.main.tb := rfl
@[simp] theorem State.modFuse_mp (s : State) (c : Nat) (f : Fuse → Fuse) : (s.modFuse c f).main.mp = s.main.mp := rfl
@[simp] theorem State.modFuse_em (s : State) (c : Nat) (f : Fuse → Fuse) : (s.modFuse c f).main.em = s.main.em := rfl
@[simp] theorem State.modFuse_st (s : State) (c : Nat) (f : Fuse → Fuse) : (s.modFuse c f).main.st = s.main.st := rfl
@[simp] theorem State.modFuse_sk (s : State) (c : Nat) (f : Fuse → Fuse) : (s.modFuse c f).main.sk = s.main.sk := rfl
@[simp] theorem State.modFuse_mm (s : State) (c : Nat) (f : Fuse → Fuse) : (s.modFuse c f).main.mm = s.main.mm := rfl
@[simp] theorem State.modFuse_ln (s : State) (c : Nat) (f : Fuse → Fuse) : (s.modFuse c f).main.ln = s.main.ln := rfl
@[simp] theorem State.modFuse_td (s : State) (c : Nat) (f : Fuse → Fuse) : (s.modFuse c f).main.td = s.main.td := rfl
@[simp] theorem State.modFuse_tm (s : State) (c : Nat) (f : Fuse → Fuse) : (s.modFuse c f).main.tm = s.main.tm := rfl
@[simp] theorem State.modFuse_cy (s : State) (c : Nat) (f : Fuse → Fuse) : (s.modFuse c f).main.cy = s.main.cy := rfl
@[simp] theorem State.modFuse_pc (s : State) (c : Nat) (f : Fuse → Fuse) : (s.modFuse c f).main.pc = s.main.pc := rfl
@[simp] theorem State.modFuse_wa (s : State) (c : Nat) (f : Fuse → Fuse) : (s.modFuse c f).main.wa = s.main.wa := rfl

/-! ### modHearth -/

@[simp] theorem State.modHearth_pending (s : State) (f : Hearth → Hearth) : (s.modHearth f).pending = s.pending := rfl
@[simp] theorem State.modHearth_now (s : State) (f : Hearth → Hearth) : (s.modHearth f).now = s.now := rfl
@[simp] theorem State.modHearth_freeIdx (s : State) (f : Hearth → Hearth) : (s.modHearth f).freeIdx = s.freeIdx := rfl
@[simp] theorem State.modHearth_cycle (s : State) (f : Hearth → Hearth) : (s.modHearth f).cycle = s.cycle := rfl
@[simp] theorem State.modHearth_pulses (s : State) (f : Hearth → Hearth) : (s.modHearth f).pulses = s.pulses := rfl
@[simp] theorem State.modHearth_regs (s : State) (f : Hearth → Hearth) : (s.modHearth f).regs = s.regs := rfl
@[simp] theorem State.modHearth_minSec (s : State) (f : Hearth → Hearth) : (s.modHearth f).minSec = s.minSec := rfl
@[simp] theorem State.modHearth_flash (s : State) (f : Hearth → Hearth) : (s.modHearth f).flash = s.flash := rfl
@[simp] theorem State.modHearth_hearth (s : State) (f : Hearth → Hearth) : (s.modHearth f).hearth = f s.hearth := rfl
@[simp] theorem State.modHearth_out (s : State) (f : Hearth → Hearth) : (s.modHearth f).main.out = s.main.out := rfl
@[simp] theorem State.modHearth_boot (s : State) (f : Hearth → Hearth) : (s.modHearth f).main.boot = s.main.boot := rfl
@[simp] theorem State.modHearth_cmd (s : State) (f : Hearth → Hearth) : (s.modHearth f).main.cmd = s.main.cmd := rfl
@[simp] theorem State.modHearth_ash (s : State) (f : Hearth → Hearth) : (s.modHearth f).main.ash = s.main.ash := rfl
@[simp] theorem State.modHearth_power (s : State) (f : Hearth → Hearth) : (s.modHearth f).main.power = s.main.power := rfl
@[simp] theorem State.modHearth_nt (s : State) (f : Hearth → Hearth) : (s.modHearth f).main.nt = s.main.nt := rfl
@[simp] theorem State.modHearth_ma (s : State) (f : Hearth → Hearth) : (s.modHearth f).main.ma = s.main.ma := rfl
@[simp] theorem State.modHearth_up (s : State) (f : Hearth → Hearth) : (s.modHearth f).main.up = s.main.up := rfl
@[simp] theorem State.modHearth_tb (s : State) (f : Hearth → Hearth) : (s.modHearth f).main.tb = s.main.tb := rfl
@[simp] theorem State.modHearth_mp (s : State) (f : Hearth → Hearth) : (s.modHearth f).main.mp = s.main.mp := rfl
@[simp] theorem State.modHearth_em (s : State) (f : Hearth → Hearth) : (s.modHearth f).main.em = s.main.em := rfl
@[simp] theorem State.modHearth_st (s : State) (f : Hearth → Hearth) : (s.modHearth f).main.st = s.main.st := rfl
@[simp] theorem State.modHearth_sk (s : State) (f : Hearth → Hearth) : (s.modHearth f).main.sk = s.main.sk := rfl
@[simp] theorem State.modHearth_mm (s : State) (f : Hearth → Hearth) : (s.modHearth f).main.mm = s.main.mm := rfl
@[simp] theorem State.modHearth_ln (s : State) (f : Hearth → Hearth) : (s.modHearth f).main.ln = s.main.ln := rfl
@[simp] theorem State.modHearth_td (s : State) (f : Hearth → Hearth) : (s.modHearth f).main.td = s.main.td := rfl
@[simp] theorem State.modHearth_tm (s : State) (f : Hearth → Hearth) : (s.modHearth f).main.tm = s.main.tm := rfl
@[simp] theorem State.modHearth_cy (s : State) (f : Hearth → Hearth) : (s.modHearth f).main.cy = s.main.cy := rfl
@[simp] theorem State.modHearth_pc (s : State) (f : Hearth → Hearth) : (s.modHearth f).main.pc = s.main.pc := rfl
@[simp] theorem State.modHearth_wa (s : State) (f : Hearth → Hearth) : (s.modHearth f).main.wa = s.main.wa := rfl
@[simp] theorem State.modHearth_pw (s : State) (f : Hearth → Hearth) : (s.modHearth f).main.pw = s.main.pw := rfl

/-! ### modKey -/

@[simp] theorem State.modKey_pending (s : State) (k : Nat) (f : KeySlot → KeySlot) : (s.modKey k f).pending = s.pending := rfl
@[simp] theorem State.modKey_now (s : State) (k : Nat) (f : KeySlot → KeySlot) : (s.modKey k f).now = s.now := rfl
@[simp] theorem State.modKey_freeIdx (s : State) (k : Nat) (f : KeySlot → KeySlot) : (s.modKey k f).freeIdx = s.freeIdx := rfl
@[simp] theorem State.modKey_cycle (s : State) (k : Nat) (f : KeySlot → KeySlot) : (s.modKey k f).cycle = s.cycle := rfl
@[simp] theorem State.modKey_pulses (s : State) (k : Nat) (f : KeySlot → KeySlot) : (s.modKey k f).pulses = s.pulses := rfl
@[simp] theorem State.modKey_regs (s : State) (k : Nat) (f : KeySlot → KeySlot) : (s.modKey k f).regs = s.regs := rfl
@[simp] theorem State.modKey_minSec (s : State) (k : Nat) (f : KeySlot → KeySlot) : (s.modKey k f).minSec = s.minSec := rfl
@[simp] theorem State.modKey_flash (s : State) (k : Nat) (f : KeySlot → KeySlot) : (s.modKey k f).flash = s.flash := rfl
@[simp] theorem State.modKey_out (s : State) (k : Nat) (f : KeySlot → KeySlot) : (s.modKey k f).main.out = s.main.out := rfl
@[simp] theorem State.modKey_boot (s : State) (k : Nat) (f : KeySlot → KeySlot) : (s.modKey k f).main.boot = s.main.boot := rfl
@[simp] theorem State.modKey_cmd (s : State) (k : Nat) (f : KeySlot → KeySlot) : (s.modKey k f).main.cmd = s.main.cmd := rfl
@[simp] theorem State.modKey_ash (s : State) (k : Nat) (f : KeySlot → KeySlot) : (s.modKey k f).main.ash = s.main.ash := rfl
@[simp] theorem State.modKey_power (s : State) (k : Nat) (f : KeySlot → KeySlot) : (s.modKey k f).main.power = s.main.power := rfl
@[simp] theorem State.modKey_nt (s : State) (k : Nat) (f : KeySlot → KeySlot) : (s.modKey k f).main.nt = s.main.nt := rfl
@[simp] theorem State.modKey_ma (s : State) (k : Nat) (f : KeySlot → KeySlot) : (s.modKey k f).main.ma = s.main.ma := rfl
@[simp] theorem State.modKey_up (s : State) (k : Nat) (f : KeySlot → KeySlot) : (s.modKey k f).main.up = s.main.up := rfl
@[simp] theorem State.modKey_tb (s : State) (k : Nat) (f : KeySlot → KeySlot) : (s.modKey k f).main.tb = s.main.tb := rfl
@[simp] theorem State.modKey_mp (s : State) (k : Nat) (f : KeySlot → KeySlot) : (s.modKey k f).main.mp = s.main.mp := rfl
@[simp] theorem State.modKey_em (s : State) (k : Nat) (f : KeySlot → KeySlot) : (s.modKey k f).main.em = s.main.em := rfl
@[simp] theorem State.modKey_st (s : State) (k : Nat) (f : KeySlot → KeySlot) : (s.modKey k f).main.st = s.main.st := rfl
@[simp] theorem State.modKey_sk (s : State) (k : Nat) (f : KeySlot → KeySlot) : (s.modKey k f).main.sk = s.main.sk := rfl
@[simp] theorem State.modKey_mm (s : State) (k : Nat) (f : KeySlot → KeySlot) : (s.modKey k f).main.mm = s.main.mm := rfl
@[simp] theorem State.modKey_ln (s : State) (k : Nat) (f : KeySlot → KeySlot) : (s.modKey k f).main.ln = s.main.ln := rfl
@[simp] theorem State.modKey_td (s : State) (k : Nat) (f : KeySlot → KeySlot) : (s.modKey k f).main.td = s.main.td := rfl
@[simp] theorem State.modKey_tm (s : State) (k : Nat) (f : KeySlot → KeySlot) : (s.modKey k f).main.tm = s.main.tm := rfl
@[simp] theorem State.modKey_cy (s : State) (k : Nat) (f : KeySlot → KeySlot) : (s.modKey k f).main.cy = s.main.cy := rfl
@[simp] theorem State.modKey_pc (s : State) (k : Nat) (f : KeySlot → KeySlot) : (s.modKey k f).main.pc = s.main.pc := rfl
@[simp] theorem State.modKey_wa (s : State) (k : Nat) (f : KeySlot → KeySlot) : (s.modKey k f).main.wa = s.main.wa := rfl
@[simp] theorem State.modKey_pw (s : State) (k : Nat) (f : KeySlot → KeySlot) : (s.modKey k f).main.pw = s.main.pw := rfl

/-! ### modLane -/

@[simp] theorem State.modLane_pending (s : State) (n : Nat) (f : Lane → Lane) : (s.modLane n f).pending = s.pending := rfl
@[simp] theorem State.modLane_now (s : State) (n : Nat) (f : Lane → Lane) : (s.modLane n f).now = s.now := rfl
@[simp] theorem State.modLane_freeIdx (s : State) (n : Nat) (f : Lane → Lane) : (s.modLane n f).freeIdx = s.freeIdx := rfl
@[simp] theorem State.modLane_cycle (s : State) (n : Nat) (f : Lane → Lane) : (s.modLane n f).cycle = s.cycle := rfl
@[simp] theorem State.modLane_pulses (s : State) (n : Nat) (f : Lane → Lane) : (s.modLane n f).pulses = s.pulses := rfl
@[simp] theorem State.modLane_regs (s : State) (n : Nat) (f : Lane → Lane) : (s.modLane n f).regs = s.regs := rfl
@[simp] theorem State.modLane_minSec (s : State) (n : Nat) (f : Lane → Lane) : (s.modLane n f).minSec = s.minSec := rfl
@[simp] theorem State.modLane_flash (s : State) (n : Nat) (f : Lane → Lane) : (s.modLane n f).flash = s.flash := rfl
@[simp] theorem State.modLane_hearth (s : State) (n : Nat) (f : Lane → Lane) : (s.modLane n f).hearth = s.hearth := rfl
@[simp] theorem State.modLane_out (s : State) (n : Nat) (f : Lane → Lane) : (s.modLane n f).main.out = s.main.out := rfl
@[simp] theorem State.modLane_boot (s : State) (n : Nat) (f : Lane → Lane) : (s.modLane n f).main.boot = s.main.boot := rfl
@[simp] theorem State.modLane_cmd (s : State) (n : Nat) (f : Lane → Lane) : (s.modLane n f).main.cmd = s.main.cmd := rfl
@[simp] theorem State.modLane_ash (s : State) (n : Nat) (f : Lane → Lane) : (s.modLane n f).main.ash = s.main.ash := rfl
@[simp] theorem State.modLane_power (s : State) (n : Nat) (f : Lane → Lane) : (s.modLane n f).main.power = s.main.power := rfl
@[simp] theorem State.modLane_nt (s : State) (n : Nat) (f : Lane → Lane) : (s.modLane n f).main.nt = s.main.nt := rfl
@[simp] theorem State.modLane_ma (s : State) (n : Nat) (f : Lane → Lane) : (s.modLane n f).main.ma = s.main.ma := rfl
@[simp] theorem State.modLane_up (s : State) (n : Nat) (f : Lane → Lane) : (s.modLane n f).main.up = s.main.up := rfl
@[simp] theorem State.modLane_tb (s : State) (n : Nat) (f : Lane → Lane) : (s.modLane n f).main.tb = s.main.tb := rfl
@[simp] theorem State.modLane_mp (s : State) (n : Nat) (f : Lane → Lane) : (s.modLane n f).main.mp = s.main.mp := rfl
@[simp] theorem State.modLane_em (s : State) (n : Nat) (f : Lane → Lane) : (s.modLane n f).main.em = s.main.em := rfl
@[simp] theorem State.modLane_st (s : State) (n : Nat) (f : Lane → Lane) : (s.modLane n f).main.st = s.main.st := rfl
@[simp] theorem State.modLane_sk (s : State) (n : Nat) (f : Lane → Lane) : (s.modLane n f).main.sk = s.main.sk := rfl
@[simp] theorem State.modLane_mm (s : State) (n : Nat) (f : Lane → Lane) : (s.modLane n f).main.mm = s.main.mm := rfl
@[simp] theorem State.modLane_td (s : State) (n : Nat) (f : Lane → Lane) : (s.modLane n f).main.td = s.main.td := rfl
@[simp] theorem State.modLane_tm (s : State) (n : Nat) (f : Lane → Lane) : (s.modLane n f).main.tm = s.main.tm := rfl
@[simp] theorem State.modLane_cy (s : State) (n : Nat) (f : Lane → Lane) : (s.modLane n f).main.cy = s.main.cy := rfl
@[simp] theorem State.modLane_pc (s : State) (n : Nat) (f : Lane → Lane) : (s.modLane n f).main.pc = s.main.pc := rfl
@[simp] theorem State.modLane_wa (s : State) (n : Nat) (f : Lane → Lane) : (s.modLane n f).main.wa = s.main.wa := rfl
@[simp] theorem State.modLane_pw (s : State) (n : Nat) (f : Lane → Lane) : (s.modLane n f).main.pw = s.main.pw := rfl

/-! ### modLast -/

@[simp] theorem State.modLast_pending (s : State) (c : Nat) (f : Pic → Pic) : (s.modLast c f).pending = s.pending := rfl
@[simp] theorem State.modLast_now (s : State) (c : Nat) (f : Pic → Pic) : (s.modLast c f).now = s.now := rfl
@[simp] theorem State.modLast_freeIdx (s : State) (c : Nat) (f : Pic → Pic) : (s.modLast c f).freeIdx = s.freeIdx := rfl
@[simp] theorem State.modLast_cycle (s : State) (c : Nat) (f : Pic → Pic) : (s.modLast c f).cycle = s.cycle := rfl
@[simp] theorem State.modLast_pulses (s : State) (c : Nat) (f : Pic → Pic) : (s.modLast c f).pulses = s.pulses := rfl
@[simp] theorem State.modLast_regs (s : State) (c : Nat) (f : Pic → Pic) : (s.modLast c f).regs = s.regs := rfl
@[simp] theorem State.modLast_minSec (s : State) (c : Nat) (f : Pic → Pic) : (s.modLast c f).minSec = s.minSec := rfl
@[simp] theorem State.modLast_flash (s : State) (c : Nat) (f : Pic → Pic) : (s.modLast c f).flash = s.flash := rfl
@[simp] theorem State.modLast_hearth (s : State) (c : Nat) (f : Pic → Pic) : (s.modLast c f).hearth = s.hearth := rfl
@[simp] theorem State.modLast_out (s : State) (c : Nat) (f : Pic → Pic) : (s.modLast c f).main.out = s.main.out := rfl
@[simp] theorem State.modLast_boot (s : State) (c : Nat) (f : Pic → Pic) : (s.modLast c f).main.boot = s.main.boot := rfl
@[simp] theorem State.modLast_cmd (s : State) (c : Nat) (f : Pic → Pic) : (s.modLast c f).main.cmd = s.main.cmd := rfl
@[simp] theorem State.modLast_ash (s : State) (c : Nat) (f : Pic → Pic) : (s.modLast c f).main.ash = s.main.ash := rfl
@[simp] theorem State.modLast_power (s : State) (c : Nat) (f : Pic → Pic) : (s.modLast c f).main.power = s.main.power := rfl
@[simp] theorem State.modLast_nt (s : State) (c : Nat) (f : Pic → Pic) : (s.modLast c f).main.nt = s.main.nt := rfl
@[simp] theorem State.modLast_ma (s : State) (c : Nat) (f : Pic → Pic) : (s.modLast c f).main.ma = s.main.ma := rfl
@[simp] theorem State.modLast_up (s : State) (c : Nat) (f : Pic → Pic) : (s.modLast c f).main.up = s.main.up := rfl
@[simp] theorem State.modLast_tb (s : State) (c : Nat) (f : Pic → Pic) : (s.modLast c f).main.tb = s.main.tb := rfl
@[simp] theorem State.modLast_mp (s : State) (c : Nat) (f : Pic → Pic) : (s.modLast c f).main.mp = s.main.mp := rfl
@[simp] theorem State.modLast_em (s : State) (c : Nat) (f : Pic → Pic) : (s.modLast c f).main.em = s.main.em := rfl
@[simp] theorem State.modLast_st (s : State) (c : Nat) (f : Pic → Pic) : (s.modLast c f).main.st = s.main.st := rfl
@[simp] theorem State.modLast_sk (s : State) (c : Nat) (f : Pic → Pic) : (s.modLast c f).main.sk = s.main.sk := rfl
@[simp] theorem State.modLast_mm (s : State) (c : Nat) (f : Pic → Pic) : (s.modLast c f).main.mm = s.main.mm := rfl
@[simp] theorem State.modLast_ln (s : State) (c : Nat) (f : Pic → Pic) : (s.modLast c f).main.ln = s.main.ln := rfl
@[simp] theorem State.modLast_td (s : State) (c : Nat) (f : Pic → Pic) : (s.modLast c f).main.td = s.main.td := rfl
@[simp] theorem State.modLast_tm (s : State) (c : Nat) (f : Pic → Pic) : (s.modLast c f).main.tm = s.main.tm := rfl
@[simp] theorem State.modLast_cy (s : State) (c : Nat) (f : Pic → Pic) : (s.modLast c f).main.cy = s.main.cy := rfl
@[simp] theorem State.modLast_wa (s : State) (c : Nat) (f : Pic → Pic) : (s.modLast c f).main.wa = s.main.wa := rfl
@[simp] theorem State.modLast_pw (s : State) (c : Nat) (f : Pic → Pic) : (s.modLast c f).main.pw = s.main.pw := rfl

/-! ### modLink -/

@[simp] theorem State.modLink_pending (s : State) (k : Nat) (f : Link → Link) : (s.modLink k f).pending = s.pending := rfl
@[simp] theorem State.modLink_now (s : State) (k : Nat) (f : Link → Link) : (s.modLink k f).now = s.now := rfl
@[simp] theorem State.modLink_freeIdx (s : State) (k : Nat) (f : Link → Link) : (s.modLink k f).freeIdx = s.freeIdx := rfl
@[simp] theorem State.modLink_cycle (s : State) (k : Nat) (f : Link → Link) : (s.modLink k f).cycle = s.cycle := rfl
@[simp] theorem State.modLink_pulses (s : State) (k : Nat) (f : Link → Link) : (s.modLink k f).pulses = s.pulses := rfl
@[simp] theorem State.modLink_regs (s : State) (k : Nat) (f : Link → Link) : (s.modLink k f).regs = s.regs := rfl
@[simp] theorem State.modLink_minSec (s : State) (k : Nat) (f : Link → Link) : (s.modLink k f).minSec = s.minSec := rfl
@[simp] theorem State.modLink_flash (s : State) (k : Nat) (f : Link → Link) : (s.modLink k f).flash = s.flash := rfl
@[simp] theorem State.modLink_hearth (s : State) (k : Nat) (f : Link → Link) : (s.modLink k f).hearth = s.hearth := rfl
@[simp] theorem State.modLink_out (s : State) (k : Nat) (f : Link → Link) : (s.modLink k f).main.out = s.main.out := rfl
@[simp] theorem State.modLink_boot (s : State) (k : Nat) (f : Link → Link) : (s.modLink k f).main.boot = s.main.boot := rfl
@[simp] theorem State.modLink_cmd (s : State) (k : Nat) (f : Link → Link) : (s.modLink k f).main.cmd = s.main.cmd := rfl
@[simp] theorem State.modLink_ash (s : State) (k : Nat) (f : Link → Link) : (s.modLink k f).main.ash = s.main.ash := rfl
@[simp] theorem State.modLink_power (s : State) (k : Nat) (f : Link → Link) : (s.modLink k f).main.power = s.main.power := rfl
@[simp] theorem State.modLink_nt (s : State) (k : Nat) (f : Link → Link) : (s.modLink k f).main.nt = s.main.nt := rfl
@[simp] theorem State.modLink_ma (s : State) (k : Nat) (f : Link → Link) : (s.modLink k f).main.ma = s.main.ma := rfl
@[simp] theorem State.modLink_up (s : State) (k : Nat) (f : Link → Link) : (s.modLink k f).main.up = s.main.up := rfl
@[simp] theorem State.modLink_tb (s : State) (k : Nat) (f : Link → Link) : (s.modLink k f).main.tb = s.main.tb := rfl
@[simp] theorem State.modLink_mp (s : State) (k : Nat) (f : Link → Link) : (s.modLink k f).main.mp = s.main.mp := rfl
@[simp] theorem State.modLink_em (s : State) (k : Nat) (f : Link → Link) : (s.modLink k f).main.em = s.main.em := rfl
@[simp] theorem State.modLink_sk (s : State) (k : Nat) (f : Link → Link) : (s.modLink k f).main.sk = s.main.sk := rfl
@[simp] theorem State.modLink_mm (s : State) (k : Nat) (f : Link → Link) : (s.modLink k f).main.mm = s.main.mm := rfl
@[simp] theorem State.modLink_ln (s : State) (k : Nat) (f : Link → Link) : (s.modLink k f).main.ln = s.main.ln := rfl
@[simp] theorem State.modLink_td (s : State) (k : Nat) (f : Link → Link) : (s.modLink k f).main.td = s.main.td := rfl
@[simp] theorem State.modLink_tm (s : State) (k : Nat) (f : Link → Link) : (s.modLink k f).main.tm = s.main.tm := rfl
@[simp] theorem State.modLink_cy (s : State) (k : Nat) (f : Link → Link) : (s.modLink k f).main.cy = s.main.cy := rfl
@[simp] theorem State.modLink_pc (s : State) (k : Nat) (f : Link → Link) : (s.modLink k f).main.pc = s.main.pc := rfl
@[simp] theorem State.modLink_wa (s : State) (k : Nat) (f : Link → Link) : (s.modLink k f).main.wa = s.main.wa := rfl
@[simp] theorem State.modLink_pw (s : State) (k : Nat) (f : Link → Link) : (s.modLink k f).main.pw = s.main.pw := rfl

/-! ### modMa -/

@[simp] theorem State.modMa_pending (s : State) (f : Mains → Mains) : (s.modMa f).pending = s.pending := rfl
@[simp] theorem State.modMa_now (s : State) (f : Mains → Mains) : (s.modMa f).now = s.now := rfl
@[simp] theorem State.modMa_freeIdx (s : State) (f : Mains → Mains) : (s.modMa f).freeIdx = s.freeIdx := rfl
@[simp] theorem State.modMa_cycle (s : State) (f : Mains → Mains) : (s.modMa f).cycle = s.cycle := rfl
@[simp] theorem State.modMa_pulses (s : State) (f : Mains → Mains) : (s.modMa f).pulses = s.pulses := rfl
@[simp] theorem State.modMa_regs (s : State) (f : Mains → Mains) : (s.modMa f).regs = s.regs := rfl
@[simp] theorem State.modMa_minSec (s : State) (f : Mains → Mains) : (s.modMa f).minSec = s.minSec := rfl
@[simp] theorem State.modMa_flash (s : State) (f : Mains → Mains) : (s.modMa f).flash = s.flash := rfl
@[simp] theorem State.modMa_hearth (s : State) (f : Mains → Mains) : (s.modMa f).hearth = s.hearth := rfl
@[simp] theorem State.modMa_out (s : State) (f : Mains → Mains) : (s.modMa f).main.out = s.main.out := rfl
@[simp] theorem State.modMa_boot (s : State) (f : Mains → Mains) : (s.modMa f).main.boot = s.main.boot := rfl
@[simp] theorem State.modMa_cmd (s : State) (f : Mains → Mains) : (s.modMa f).main.cmd = s.main.cmd := rfl
@[simp] theorem State.modMa_ash (s : State) (f : Mains → Mains) : (s.modMa f).main.ash = s.main.ash := rfl
@[simp] theorem State.modMa_power (s : State) (f : Mains → Mains) : (s.modMa f).main.power = s.main.power := rfl
@[simp] theorem State.modMa_nt (s : State) (f : Mains → Mains) : (s.modMa f).main.nt = s.main.nt := rfl
@[simp] theorem State.modMa_ma (s : State) (f : Mains → Mains) : (s.modMa f).main.ma = f s.main.ma := rfl
@[simp] theorem State.modMa_up (s : State) (f : Mains → Mains) : (s.modMa f).main.up = s.main.up := rfl
@[simp] theorem State.modMa_tb (s : State) (f : Mains → Mains) : (s.modMa f).main.tb = s.main.tb := rfl
@[simp] theorem State.modMa_mp (s : State) (f : Mains → Mains) : (s.modMa f).main.mp = s.main.mp := rfl
@[simp] theorem State.modMa_em (s : State) (f : Mains → Mains) : (s.modMa f).main.em = s.main.em := rfl
@[simp] theorem State.modMa_st (s : State) (f : Mains → Mains) : (s.modMa f).main.st = s.main.st := rfl
@[simp] theorem State.modMa_sk (s : State) (f : Mains → Mains) : (s.modMa f).main.sk = s.main.sk := rfl
@[simp] theorem State.modMa_mm (s : State) (f : Mains → Mains) : (s.modMa f).main.mm = s.main.mm := rfl
@[simp] theorem State.modMa_ln (s : State) (f : Mains → Mains) : (s.modMa f).main.ln = s.main.ln := rfl
@[simp] theorem State.modMa_td (s : State) (f : Mains → Mains) : (s.modMa f).main.td = s.main.td := rfl
@[simp] theorem State.modMa_tm (s : State) (f : Mains → Mains) : (s.modMa f).main.tm = s.main.tm := rfl
@[simp] theorem State.modMa_cy (s : State) (f : Mains → Mains) : (s.modMa f).main.cy = s.main.cy := rfl
@[simp] theorem State.modMa_pc (s : State) (f : Mains → Mains) : (s.modMa f).main.pc = s.main.pc := rfl
@[simp] theorem State.modMa_wa (s : State) (f : Mains → Mains) : (s.modMa f).main.wa = s.main.wa := rfl
@[simp] theorem State.modMa_pw (s : State) (f : Mains → Mains) : (s.modMa f).main.pw = s.main.pw := rfl

/-! ### modMem -/

@[simp] theorem State.modMem_pending (s : State) (f : Memory → Memory) : (s.modMem f).pending = s.pending := rfl
@[simp] theorem State.modMem_now (s : State) (f : Memory → Memory) : (s.modMem f).now = s.now := rfl
@[simp] theorem State.modMem_freeIdx (s : State) (f : Memory → Memory) : (s.modMem f).freeIdx = s.freeIdx := rfl
@[simp] theorem State.modMem_cycle (s : State) (f : Memory → Memory) : (s.modMem f).cycle = s.cycle := rfl
@[simp] theorem State.modMem_pulses (s : State) (f : Memory → Memory) : (s.modMem f).pulses = s.pulses := rfl
@[simp] theorem State.modMem_regs (s : State) (f : Memory → Memory) : (s.modMem f).regs = s.regs := rfl
@[simp] theorem State.modMem_minSec (s : State) (f : Memory → Memory) : (s.modMem f).minSec = s.minSec := rfl
@[simp] theorem State.modMem_flash (s : State) (f : Memory → Memory) : (s.modMem f).flash = s.flash := rfl
@[simp] theorem State.modMem_hearth (s : State) (f : Memory → Memory) : (s.modMem f).hearth = s.hearth := rfl
@[simp] theorem State.modMem_out (s : State) (f : Memory → Memory) : (s.modMem f).main.out = s.main.out := rfl
@[simp] theorem State.modMem_boot (s : State) (f : Memory → Memory) : (s.modMem f).main.boot = s.main.boot := rfl
@[simp] theorem State.modMem_cmd (s : State) (f : Memory → Memory) : (s.modMem f).main.cmd = s.main.cmd := rfl
@[simp] theorem State.modMem_ash (s : State) (f : Memory → Memory) : (s.modMem f).main.ash = s.main.ash := rfl
@[simp] theorem State.modMem_power (s : State) (f : Memory → Memory) : (s.modMem f).main.power = s.main.power := rfl
@[simp] theorem State.modMem_nt (s : State) (f : Memory → Memory) : (s.modMem f).main.nt = s.main.nt := rfl
@[simp] theorem State.modMem_ma (s : State) (f : Memory → Memory) : (s.modMem f).main.ma = s.main.ma := rfl
@[simp] theorem State.modMem_up (s : State) (f : Memory → Memory) : (s.modMem f).main.up = s.main.up := rfl
@[simp] theorem State.modMem_tb (s : State) (f : Memory → Memory) : (s.modMem f).main.tb = s.main.tb := rfl
@[simp] theorem State.modMem_mp (s : State) (f : Memory → Memory) : (s.modMem f).main.mp = s.main.mp := rfl
@[simp] theorem State.modMem_em (s : State) (f : Memory → Memory) : (s.modMem f).main.em = s.main.em := rfl
@[simp] theorem State.modMem_st (s : State) (f : Memory → Memory) : (s.modMem f).main.st = s.main.st := rfl
@[simp] theorem State.modMem_sk (s : State) (f : Memory → Memory) : (s.modMem f).main.sk = s.main.sk := rfl
@[simp] theorem State.modMem_mm (s : State) (f : Memory → Memory) : (s.modMem f).main.mm = f s.main.mm := rfl
@[simp] theorem State.modMem_ln (s : State) (f : Memory → Memory) : (s.modMem f).main.ln = s.main.ln := rfl
@[simp] theorem State.modMem_td (s : State) (f : Memory → Memory) : (s.modMem f).main.td = s.main.td := rfl
@[simp] theorem State.modMem_tm (s : State) (f : Memory → Memory) : (s.modMem f).main.tm = s.main.tm := rfl
@[simp] theorem State.modMem_cy (s : State) (f : Memory → Memory) : (s.modMem f).main.cy = s.main.cy := rfl
@[simp] theorem State.modMem_pc (s : State) (f : Memory → Memory) : (s.modMem f).main.pc = s.main.pc := rfl
@[simp] theorem State.modMem_wa (s : State) (f : Memory → Memory) : (s.modMem f).main.wa = s.main.wa := rfl
@[simp] theorem State.modMem_pw (s : State) (f : Memory → Memory) : (s.modMem f).main.pw = s.main.pw := rfl

/-! ### modMp -/

@[simp] theorem State.modMp_pending (s : State) (f : Meter → Meter) : (s.modMp f).pending = s.pending := rfl
@[simp] theorem State.modMp_now (s : State) (f : Meter → Meter) : (s.modMp f).now = s.now := rfl
@[simp] theorem State.modMp_freeIdx (s : State) (f : Meter → Meter) : (s.modMp f).freeIdx = s.freeIdx := rfl
@[simp] theorem State.modMp_cycle (s : State) (f : Meter → Meter) : (s.modMp f).cycle = s.cycle := rfl
@[simp] theorem State.modMp_pulses (s : State) (f : Meter → Meter) : (s.modMp f).pulses = s.pulses := rfl
@[simp] theorem State.modMp_regs (s : State) (f : Meter → Meter) : (s.modMp f).regs = s.regs := rfl
@[simp] theorem State.modMp_minSec (s : State) (f : Meter → Meter) : (s.modMp f).minSec = s.minSec := rfl
@[simp] theorem State.modMp_flash (s : State) (f : Meter → Meter) : (s.modMp f).flash = s.flash := rfl
@[simp] theorem State.modMp_hearth (s : State) (f : Meter → Meter) : (s.modMp f).hearth = s.hearth := rfl
@[simp] theorem State.modMp_out (s : State) (f : Meter → Meter) : (s.modMp f).main.out = s.main.out := rfl
@[simp] theorem State.modMp_boot (s : State) (f : Meter → Meter) : (s.modMp f).main.boot = s.main.boot := rfl
@[simp] theorem State.modMp_cmd (s : State) (f : Meter → Meter) : (s.modMp f).main.cmd = s.main.cmd := rfl
@[simp] theorem State.modMp_ash (s : State) (f : Meter → Meter) : (s.modMp f).main.ash = s.main.ash := rfl
@[simp] theorem State.modMp_power (s : State) (f : Meter → Meter) : (s.modMp f).main.power = s.main.power := rfl
@[simp] theorem State.modMp_nt (s : State) (f : Meter → Meter) : (s.modMp f).main.nt = s.main.nt := rfl
@[simp] theorem State.modMp_ma (s : State) (f : Meter → Meter) : (s.modMp f).main.ma = s.main.ma := rfl
@[simp] theorem State.modMp_up (s : State) (f : Meter → Meter) : (s.modMp f).main.up = s.main.up := rfl
@[simp] theorem State.modMp_tb (s : State) (f : Meter → Meter) : (s.modMp f).main.tb = s.main.tb := rfl
@[simp] theorem State.modMp_mp (s : State) (f : Meter → Meter) : (s.modMp f).main.mp = f s.main.mp := rfl
@[simp] theorem State.modMp_em (s : State) (f : Meter → Meter) : (s.modMp f).main.em = s.main.em := rfl
@[simp] theorem State.modMp_st (s : State) (f : Meter → Meter) : (s.modMp f).main.st = s.main.st := rfl
@[simp] theorem State.modMp_sk (s : State) (f : Meter → Meter) : (s.modMp f).main.sk = s.main.sk := rfl
@[simp] theorem State.modMp_mm (s : State) (f : Meter → Meter) : (s.modMp f).main.mm = s.main.mm := rfl
@[simp] theorem State.modMp_ln (s : State) (f : Meter → Meter) : (s.modMp f).main.ln = s.main.ln := rfl
@[simp] theorem State.modMp_td (s : State) (f : Meter → Meter) : (s.modMp f).main.td = s.main.td := rfl
@[simp] theorem State.modMp_tm (s : State) (f : Meter → Meter) : (s.modMp f).main.tm = s.main.tm := rfl
@[simp] theorem State.modMp_cy (s : State) (f : Meter → Meter) : (s.modMp f).main.cy = s.main.cy := rfl
@[simp] theorem State.modMp_pc (s : State) (f : Meter → Meter) : (s.modMp f).main.pc = s.main.pc := rfl
@[simp] theorem State.modMp_wa (s : State) (f : Meter → Meter) : (s.modMp f).main.wa = s.main.wa := rfl
@[simp] theorem State.modMp_pw (s : State) (f : Meter → Meter) : (s.modMp f).main.pw = s.main.pw := rfl

/-! ### modNt -/

@[simp] theorem State.modNt_pending (s : State) (f : NetTime → NetTime) : (s.modNt f).pending = s.pending := rfl
@[simp] theorem State.modNt_now (s : State) (f : NetTime → NetTime) : (s.modNt f).now = s.now := rfl
@[simp] theorem State.modNt_freeIdx (s : State) (f : NetTime → NetTime) : (s.modNt f).freeIdx = s.freeIdx := rfl
@[simp] theorem State.modNt_cycle (s : State) (f : NetTime → NetTime) : (s.modNt f).cycle = s.cycle := rfl
@[simp] theorem State.modNt_pulses (s : State) (f : NetTime → NetTime) : (s.modNt f).pulses = s.pulses := rfl
@[simp] theorem State.modNt_regs (s : State) (f : NetTime → NetTime) : (s.modNt f).regs = s.regs := rfl
@[simp] theorem State.modNt_minSec (s : State) (f : NetTime → NetTime) : (s.modNt f).minSec = s.minSec := rfl
@[simp] theorem State.modNt_flash (s : State) (f : NetTime → NetTime) : (s.modNt f).flash = s.flash := rfl
@[simp] theorem State.modNt_hearth (s : State) (f : NetTime → NetTime) : (s.modNt f).hearth = s.hearth := rfl
@[simp] theorem State.modNt_out (s : State) (f : NetTime → NetTime) : (s.modNt f).main.out = s.main.out := rfl
@[simp] theorem State.modNt_boot (s : State) (f : NetTime → NetTime) : (s.modNt f).main.boot = s.main.boot := rfl
@[simp] theorem State.modNt_cmd (s : State) (f : NetTime → NetTime) : (s.modNt f).main.cmd = s.main.cmd := rfl
@[simp] theorem State.modNt_ash (s : State) (f : NetTime → NetTime) : (s.modNt f).main.ash = s.main.ash := rfl
@[simp] theorem State.modNt_power (s : State) (f : NetTime → NetTime) : (s.modNt f).main.power = s.main.power := rfl
@[simp] theorem State.modNt_nt (s : State) (f : NetTime → NetTime) : (s.modNt f).main.nt = f s.main.nt := rfl
@[simp] theorem State.modNt_ma (s : State) (f : NetTime → NetTime) : (s.modNt f).main.ma = s.main.ma := rfl
@[simp] theorem State.modNt_up (s : State) (f : NetTime → NetTime) : (s.modNt f).main.up = s.main.up := rfl
@[simp] theorem State.modNt_tb (s : State) (f : NetTime → NetTime) : (s.modNt f).main.tb = s.main.tb := rfl
@[simp] theorem State.modNt_mp (s : State) (f : NetTime → NetTime) : (s.modNt f).main.mp = s.main.mp := rfl
@[simp] theorem State.modNt_em (s : State) (f : NetTime → NetTime) : (s.modNt f).main.em = s.main.em := rfl
@[simp] theorem State.modNt_st (s : State) (f : NetTime → NetTime) : (s.modNt f).main.st = s.main.st := rfl
@[simp] theorem State.modNt_sk (s : State) (f : NetTime → NetTime) : (s.modNt f).main.sk = s.main.sk := rfl
@[simp] theorem State.modNt_mm (s : State) (f : NetTime → NetTime) : (s.modNt f).main.mm = s.main.mm := rfl
@[simp] theorem State.modNt_ln (s : State) (f : NetTime → NetTime) : (s.modNt f).main.ln = s.main.ln := rfl
@[simp] theorem State.modNt_td (s : State) (f : NetTime → NetTime) : (s.modNt f).main.td = s.main.td := rfl
@[simp] theorem State.modNt_tm (s : State) (f : NetTime → NetTime) : (s.modNt f).main.tm = s.main.tm := rfl
@[simp] theorem State.modNt_cy (s : State) (f : NetTime → NetTime) : (s.modNt f).main.cy = s.main.cy := rfl
@[simp] theorem State.modNt_pc (s : State) (f : NetTime → NetTime) : (s.modNt f).main.pc = s.main.pc := rfl
@[simp] theorem State.modNt_wa (s : State) (f : NetTime → NetTime) : (s.modNt f).main.wa = s.main.wa := rfl
@[simp] theorem State.modNt_pw (s : State) (f : NetTime → NetTime) : (s.modNt f).main.pw = s.main.pw := rfl

/-! ### modOp -/

@[simp] theorem State.modOp_pending (s : State) (id : Nat) (f : OpEntry → OpEntry) : (s.modOp id f).pending = s.pending := rfl
@[simp] theorem State.modOp_now (s : State) (id : Nat) (f : OpEntry → OpEntry) : (s.modOp id f).now = s.now := rfl
@[simp] theorem State.modOp_freeIdx (s : State) (id : Nat) (f : OpEntry → OpEntry) : (s.modOp id f).freeIdx = s.freeIdx := rfl
@[simp] theorem State.modOp_cycle (s : State) (id : Nat) (f : OpEntry → OpEntry) : (s.modOp id f).cycle = s.cycle := rfl
@[simp] theorem State.modOp_pulses (s : State) (id : Nat) (f : OpEntry → OpEntry) : (s.modOp id f).pulses = s.pulses := rfl
@[simp] theorem State.modOp_regs (s : State) (id : Nat) (f : OpEntry → OpEntry) : (s.modOp id f).regs = s.regs := rfl
@[simp] theorem State.modOp_minSec (s : State) (id : Nat) (f : OpEntry → OpEntry) : (s.modOp id f).minSec = s.minSec := rfl
@[simp] theorem State.modOp_flash (s : State) (id : Nat) (f : OpEntry → OpEntry) : (s.modOp id f).flash = s.flash := rfl
@[simp] theorem State.modOp_hearth (s : State) (id : Nat) (f : OpEntry → OpEntry) : (s.modOp id f).hearth = s.hearth := rfl
@[simp] theorem State.modOp_out (s : State) (id : Nat) (f : OpEntry → OpEntry) : (s.modOp id f).main.out = s.main.out := rfl
@[simp] theorem State.modOp_boot (s : State) (id : Nat) (f : OpEntry → OpEntry) : (s.modOp id f).main.boot = s.main.boot := rfl
@[simp] theorem State.modOp_ash (s : State) (id : Nat) (f : OpEntry → OpEntry) : (s.modOp id f).main.ash = s.main.ash := rfl
@[simp] theorem State.modOp_power (s : State) (id : Nat) (f : OpEntry → OpEntry) : (s.modOp id f).main.power = s.main.power := rfl
@[simp] theorem State.modOp_nt (s : State) (id : Nat) (f : OpEntry → OpEntry) : (s.modOp id f).main.nt = s.main.nt := rfl
@[simp] theorem State.modOp_ma (s : State) (id : Nat) (f : OpEntry → OpEntry) : (s.modOp id f).main.ma = s.main.ma := rfl
@[simp] theorem State.modOp_up (s : State) (id : Nat) (f : OpEntry → OpEntry) : (s.modOp id f).main.up = s.main.up := rfl
@[simp] theorem State.modOp_tb (s : State) (id : Nat) (f : OpEntry → OpEntry) : (s.modOp id f).main.tb = s.main.tb := rfl
@[simp] theorem State.modOp_mp (s : State) (id : Nat) (f : OpEntry → OpEntry) : (s.modOp id f).main.mp = s.main.mp := rfl
@[simp] theorem State.modOp_em (s : State) (id : Nat) (f : OpEntry → OpEntry) : (s.modOp id f).main.em = s.main.em := rfl
@[simp] theorem State.modOp_st (s : State) (id : Nat) (f : OpEntry → OpEntry) : (s.modOp id f).main.st = s.main.st := rfl
@[simp] theorem State.modOp_sk (s : State) (id : Nat) (f : OpEntry → OpEntry) : (s.modOp id f).main.sk = s.main.sk := rfl
@[simp] theorem State.modOp_mm (s : State) (id : Nat) (f : OpEntry → OpEntry) : (s.modOp id f).main.mm = s.main.mm := rfl
@[simp] theorem State.modOp_ln (s : State) (id : Nat) (f : OpEntry → OpEntry) : (s.modOp id f).main.ln = s.main.ln := rfl
@[simp] theorem State.modOp_td (s : State) (id : Nat) (f : OpEntry → OpEntry) : (s.modOp id f).main.td = s.main.td := rfl
@[simp] theorem State.modOp_tm (s : State) (id : Nat) (f : OpEntry → OpEntry) : (s.modOp id f).main.tm = s.main.tm := rfl
@[simp] theorem State.modOp_cy (s : State) (id : Nat) (f : OpEntry → OpEntry) : (s.modOp id f).main.cy = s.main.cy := rfl
@[simp] theorem State.modOp_pc (s : State) (id : Nat) (f : OpEntry → OpEntry) : (s.modOp id f).main.pc = s.main.pc := rfl
@[simp] theorem State.modOp_wa (s : State) (id : Nat) (f : OpEntry → OpEntry) : (s.modOp id f).main.wa = s.main.wa := rfl
@[simp] theorem State.modOp_pw (s : State) (id : Nat) (f : OpEntry → OpEntry) : (s.modOp id f).main.pw = s.main.pw := rfl

/-! ### modPc -/

@[simp] theorem State.modPc_pending (s : State) (f : Picture → Picture) : (s.modPc f).pending = s.pending := rfl
@[simp] theorem State.modPc_now (s : State) (f : Picture → Picture) : (s.modPc f).now = s.now := rfl
@[simp] theorem State.modPc_freeIdx (s : State) (f : Picture → Picture) : (s.modPc f).freeIdx = s.freeIdx := rfl
@[simp] theorem State.modPc_cycle (s : State) (f : Picture → Picture) : (s.modPc f).cycle = s.cycle := rfl
@[simp] theorem State.modPc_pulses (s : State) (f : Picture → Picture) : (s.modPc f).pulses = s.pulses := rfl
@[simp] theorem State.modPc_regs (s : State) (f : Picture → Picture) : (s.modPc f).regs = s.regs := rfl
@[simp] theorem State.modPc_minSec (s : State) (f : Picture → Picture) : (s.modPc f).minSec = s.minSec := rfl
@[simp] theorem State.modPc_flash (s : State) (f : Picture → Picture) : (s.modPc f).flash = s.flash := rfl
@[simp] theorem State.modPc_hearth (s : State) (f : Picture → Picture) : (s.modPc f).hearth = s.hearth := rfl
@[simp] theorem State.modPc_out (s : State) (f : Picture → Picture) : (s.modPc f).main.out = s.main.out := rfl
@[simp] theorem State.modPc_boot (s : State) (f : Picture → Picture) : (s.modPc f).main.boot = s.main.boot := rfl
@[simp] theorem State.modPc_cmd (s : State) (f : Picture → Picture) : (s.modPc f).main.cmd = s.main.cmd := rfl
@[simp] theorem State.modPc_ash (s : State) (f : Picture → Picture) : (s.modPc f).main.ash = s.main.ash := rfl
@[simp] theorem State.modPc_power (s : State) (f : Picture → Picture) : (s.modPc f).main.power = s.main.power := rfl
@[simp] theorem State.modPc_nt (s : State) (f : Picture → Picture) : (s.modPc f).main.nt = s.main.nt := rfl
@[simp] theorem State.modPc_ma (s : State) (f : Picture → Picture) : (s.modPc f).main.ma = s.main.ma := rfl
@[simp] theorem State.modPc_up (s : State) (f : Picture → Picture) : (s.modPc f).main.up = s.main.up := rfl
@[simp] theorem State.modPc_tb (s : State) (f : Picture → Picture) : (s.modPc f).main.tb = s.main.tb := rfl
@[simp] theorem State.modPc_mp (s : State) (f : Picture → Picture) : (s.modPc f).main.mp = s.main.mp := rfl
@[simp] theorem State.modPc_em (s : State) (f : Picture → Picture) : (s.modPc f).main.em = s.main.em := rfl
@[simp] theorem State.modPc_st (s : State) (f : Picture → Picture) : (s.modPc f).main.st = s.main.st := rfl
@[simp] theorem State.modPc_sk (s : State) (f : Picture → Picture) : (s.modPc f).main.sk = s.main.sk := rfl
@[simp] theorem State.modPc_mm (s : State) (f : Picture → Picture) : (s.modPc f).main.mm = s.main.mm := rfl
@[simp] theorem State.modPc_ln (s : State) (f : Picture → Picture) : (s.modPc f).main.ln = s.main.ln := rfl
@[simp] theorem State.modPc_td (s : State) (f : Picture → Picture) : (s.modPc f).main.td = s.main.td := rfl
@[simp] theorem State.modPc_tm (s : State) (f : Picture → Picture) : (s.modPc f).main.tm = s.main.tm := rfl
@[simp] theorem State.modPc_cy (s : State) (f : Picture → Picture) : (s.modPc f).main.cy = s.main.cy := rfl
@[simp] theorem State.modPc_pc (s : State) (f : Picture → Picture) : (s.modPc f).main.pc = f s.main.pc := rfl
@[simp] theorem State.modPc_wa (s : State) (f : Picture → Picture) : (s.modPc f).main.wa = s.main.wa := rfl
@[simp] theorem State.modPc_pw (s : State) (f : Picture → Picture) : (s.modPc f).main.pw = s.main.pw := rfl

/-! ### modPeer -/

@[simp] theorem State.modPeer_pending (s : State) (m : Nat) (f : Peer → Peer) : (s.modPeer m f).pending = s.pending := rfl
@[simp] theorem State.modPeer_now (s : State) (m : Nat) (f : Peer → Peer) : (s.modPeer m f).now = s.now := rfl
@[simp] theorem State.modPeer_freeIdx (s : State) (m : Nat) (f : Peer → Peer) : (s.modPeer m f).freeIdx = s.freeIdx := rfl
@[simp] theorem State.modPeer_cycle (s : State) (m : Nat) (f : Peer → Peer) : (s.modPeer m f).cycle = s.cycle := rfl
@[simp] theorem State.modPeer_pulses (s : State) (m : Nat) (f : Peer → Peer) : (s.modPeer m f).pulses = s.pulses := rfl
@[simp] theorem State.modPeer_regs (s : State) (m : Nat) (f : Peer → Peer) : (s.modPeer m f).regs = s.regs := rfl
@[simp] theorem State.modPeer_minSec (s : State) (m : Nat) (f : Peer → Peer) : (s.modPeer m f).minSec = s.minSec := rfl
@[simp] theorem State.modPeer_flash (s : State) (m : Nat) (f : Peer → Peer) : (s.modPeer m f).flash = s.flash := rfl
@[simp] theorem State.modPeer_hearth (s : State) (m : Nat) (f : Peer → Peer) : (s.modPeer m f).hearth = s.hearth := rfl
@[simp] theorem State.modPeer_out (s : State) (m : Nat) (f : Peer → Peer) : (s.modPeer m f).main.out = s.main.out := rfl
@[simp] theorem State.modPeer_boot (s : State) (m : Nat) (f : Peer → Peer) : (s.modPeer m f).main.boot = s.main.boot := rfl
@[simp] theorem State.modPeer_cmd (s : State) (m : Nat) (f : Peer → Peer) : (s.modPeer m f).main.cmd = s.main.cmd := rfl
@[simp] theorem State.modPeer_ash (s : State) (m : Nat) (f : Peer → Peer) : (s.modPeer m f).main.ash = s.main.ash := rfl
@[simp] theorem State.modPeer_power (s : State) (m : Nat) (f : Peer → Peer) : (s.modPeer m f).main.power = s.main.power := rfl
@[simp] theorem State.modPeer_nt (s : State) (m : Nat) (f : Peer → Peer) : (s.modPeer m f).main.nt = s.main.nt := rfl
@[simp] theorem State.modPeer_ma (s : State) (m : Nat) (f : Peer → Peer) : (s.modPeer m f).main.ma = s.main.ma := rfl
@[simp] theorem State.modPeer_up (s : State) (m : Nat) (f : Peer → Peer) : (s.modPeer m f).main.up = s.main.up := rfl
@[simp] theorem State.modPeer_tb (s : State) (m : Nat) (f : Peer → Peer) : (s.modPeer m f).main.tb = s.main.tb := rfl
@[simp] theorem State.modPeer_mp (s : State) (m : Nat) (f : Peer → Peer) : (s.modPeer m f).main.mp = s.main.mp := rfl
@[simp] theorem State.modPeer_em (s : State) (m : Nat) (f : Peer → Peer) : (s.modPeer m f).main.em = s.main.em := rfl
@[simp] theorem State.modPeer_st (s : State) (m : Nat) (f : Peer → Peer) : (s.modPeer m f).main.st = s.main.st := rfl
@[simp] theorem State.modPeer_mm (s : State) (m : Nat) (f : Peer → Peer) : (s.modPeer m f).main.mm = s.main.mm := rfl
@[simp] theorem State.modPeer_ln (s : State) (m : Nat) (f : Peer → Peer) : (s.modPeer m f).main.ln = s.main.ln := rfl
@[simp] theorem State.modPeer_td (s : State) (m : Nat) (f : Peer → Peer) : (s.modPeer m f).main.td = s.main.td := rfl
@[simp] theorem State.modPeer_tm (s : State) (m : Nat) (f : Peer → Peer) : (s.modPeer m f).main.tm = s.main.tm := rfl
@[simp] theorem State.modPeer_cy (s : State) (m : Nat) (f : Peer → Peer) : (s.modPeer m f).main.cy = s.main.cy := rfl
@[simp] theorem State.modPeer_pc (s : State) (m : Nat) (f : Peer → Peer) : (s.modPeer m f).main.pc = s.main.pc := rfl
@[simp] theorem State.modPeer_wa (s : State) (m : Nat) (f : Peer → Peer) : (s.modPeer m f).main.wa = s.main.wa := rfl
@[simp] theorem State.modPeer_pw (s : State) (m : Nat) (f : Peer → Peer) : (s.modPeer m f).main.pw = s.main.pw := rfl

/-! ### modPhase -/

@[simp] theorem State.modPhase_pending (s : State) (p : Nat) (f : Phase → Phase) : (s.modPhase p f).pending = s.pending := rfl
@[simp] theorem State.modPhase_now (s : State) (p : Nat) (f : Phase → Phase) : (s.modPhase p f).now = s.now := rfl
@[simp] theorem State.modPhase_freeIdx (s : State) (p : Nat) (f : Phase → Phase) : (s.modPhase p f).freeIdx = s.freeIdx := rfl
@[simp] theorem State.modPhase_cycle (s : State) (p : Nat) (f : Phase → Phase) : (s.modPhase p f).cycle = s.cycle := rfl
@[simp] theorem State.modPhase_pulses (s : State) (p : Nat) (f : Phase → Phase) : (s.modPhase p f).pulses = s.pulses := rfl
@[simp] theorem State.modPhase_regs (s : State) (p : Nat) (f : Phase → Phase) : (s.modPhase p f).regs = s.regs := rfl
@[simp] theorem State.modPhase_minSec (s : State) (p : Nat) (f : Phase → Phase) : (s.modPhase p f).minSec = s.minSec := rfl
@[simp] theorem State.modPhase_flash (s : State) (p : Nat) (f : Phase → Phase) : (s.modPhase p f).flash = s.flash := rfl
@[simp] theorem State.modPhase_hearth (s : State) (p : Nat) (f : Phase → Phase) : (s.modPhase p f).hearth = s.hearth := rfl
@[simp] theorem State.modPhase_out (s : State) (p : Nat) (f : Phase → Phase) : (s.modPhase p f).main.out = s.main.out := rfl
@[simp] theorem State.modPhase_boot (s : State) (p : Nat) (f : Phase → Phase) : (s.modPhase p f).main.boot = s.main.boot := rfl
@[simp] theorem State.modPhase_cmd (s : State) (p : Nat) (f : Phase → Phase) : (s.modPhase p f).main.cmd = s.main.cmd := rfl
@[simp] theorem State.modPhase_ash (s : State) (p : Nat) (f : Phase → Phase) : (s.modPhase p f).main.ash = s.main.ash := rfl
@[simp] theorem State.modPhase_power (s : State) (p : Nat) (f : Phase → Phase) : (s.modPhase p f).main.power = s.main.power := rfl
@[simp] theorem State.modPhase_nt (s : State) (p : Nat) (f : Phase → Phase) : (s.modPhase p f).main.nt = s.main.nt := rfl
@[simp] theorem State.modPhase_up (s : State) (p : Nat) (f : Phase → Phase) : (s.modPhase p f).main.up = s.main.up := rfl
@[simp] theorem State.modPhase_tb (s : State) (p : Nat) (f : Phase → Phase) : (s.modPhase p f).main.tb = s.main.tb := rfl
@[simp] theorem State.modPhase_mp (s : State) (p : Nat) (f : Phase → Phase) : (s.modPhase p f).main.mp = s.main.mp := rfl
@[simp] theorem State.modPhase_em (s : State) (p : Nat) (f : Phase → Phase) : (s.modPhase p f).main.em = s.main.em := rfl
@[simp] theorem State.modPhase_st (s : State) (p : Nat) (f : Phase → Phase) : (s.modPhase p f).main.st = s.main.st := rfl
@[simp] theorem State.modPhase_sk (s : State) (p : Nat) (f : Phase → Phase) : (s.modPhase p f).main.sk = s.main.sk := rfl
@[simp] theorem State.modPhase_mm (s : State) (p : Nat) (f : Phase → Phase) : (s.modPhase p f).main.mm = s.main.mm := rfl
@[simp] theorem State.modPhase_ln (s : State) (p : Nat) (f : Phase → Phase) : (s.modPhase p f).main.ln = s.main.ln := rfl
@[simp] theorem State.modPhase_td (s : State) (p : Nat) (f : Phase → Phase) : (s.modPhase p f).main.td = s.main.td := rfl
@[simp] theorem State.modPhase_tm (s : State) (p : Nat) (f : Phase → Phase) : (s.modPhase p f).main.tm = s.main.tm := rfl
@[simp] theorem State.modPhase_cy (s : State) (p : Nat) (f : Phase → Phase) : (s.modPhase p f).main.cy = s.main.cy := rfl
@[simp] theorem State.modPhase_pc (s : State) (p : Nat) (f : Phase → Phase) : (s.modPhase p f).main.pc = s.main.pc := rfl
@[simp] theorem State.modPhase_wa (s : State) (p : Nat) (f : Phase → Phase) : (s.modPhase p f).main.wa = s.main.wa := rfl
@[simp] theorem State.modPhase_pw (s : State) (p : Nat) (f : Phase → Phase) : (s.modPhase p f).main.pw = s.main.pw := rfl

/-! ### modPic -/

@[simp] theorem State.modPic_pending (s : State) (c : Nat) (f : Pic → Pic) : (s.modPic c f).pending = s.pending := rfl
@[simp] theorem State.modPic_now (s : State) (c : Nat) (f : Pic → Pic) : (s.modPic c f).now = s.now := rfl
@[simp] theorem State.modPic_freeIdx (s : State) (c : Nat) (f : Pic → Pic) : (s.modPic c f).freeIdx = s.freeIdx := rfl
@[simp] theorem State.modPic_cycle (s : State) (c : Nat) (f : Pic → Pic) : (s.modPic c f).cycle = s.cycle := rfl
@[simp] theorem State.modPic_pulses (s : State) (c : Nat) (f : Pic → Pic) : (s.modPic c f).pulses = s.pulses := rfl
@[simp] theorem State.modPic_regs (s : State) (c : Nat) (f : Pic → Pic) : (s.modPic c f).regs = s.regs := rfl
@[simp] theorem State.modPic_minSec (s : State) (c : Nat) (f : Pic → Pic) : (s.modPic c f).minSec = s.minSec := rfl
@[simp] theorem State.modPic_flash (s : State) (c : Nat) (f : Pic → Pic) : (s.modPic c f).flash = s.flash := rfl
@[simp] theorem State.modPic_hearth (s : State) (c : Nat) (f : Pic → Pic) : (s.modPic c f).hearth = s.hearth := rfl
@[simp] theorem State.modPic_out (s : State) (c : Nat) (f : Pic → Pic) : (s.modPic c f).main.out = s.main.out := rfl
@[simp] theorem State.modPic_boot (s : State) (c : Nat) (f : Pic → Pic) : (s.modPic c f).main.boot = s.main.boot := rfl
@[simp] theorem State.modPic_cmd (s : State) (c : Nat) (f : Pic → Pic) : (s.modPic c f).main.cmd = s.main.cmd := rfl
@[simp] theorem State.modPic_ash (s : State) (c : Nat) (f : Pic → Pic) : (s.modPic c f).main.ash = s.main.ash := rfl
@[simp] theorem State.modPic_power (s : State) (c : Nat) (f : Pic → Pic) : (s.modPic c f).main.power = s.main.power := rfl
@[simp] theorem State.modPic_nt (s : State) (c : Nat) (f : Pic → Pic) : (s.modPic c f).main.nt = s.main.nt := rfl
@[simp] theorem State.modPic_ma (s : State) (c : Nat) (f : Pic → Pic) : (s.modPic c f).main.ma = s.main.ma := rfl
@[simp] theorem State.modPic_up (s : State) (c : Nat) (f : Pic → Pic) : (s.modPic c f).main.up = s.main.up := rfl
@[simp] theorem State.modPic_tb (s : State) (c : Nat) (f : Pic → Pic) : (s.modPic c f).main.tb = s.main.tb := rfl
@[simp] theorem State.modPic_mp (s : State) (c : Nat) (f : Pic → Pic) : (s.modPic c f).main.mp = s.main.mp := rfl
@[simp] theorem State.modPic_em (s : State) (c : Nat) (f : Pic → Pic) : (s.modPic c f).main.em = s.main.em := rfl
@[simp] theorem State.modPic_st (s : State) (c : Nat) (f : Pic → Pic) : (s.modPic c f).main.st = s.main.st := rfl
@[simp] theorem State.modPic_sk (s : State) (c : Nat) (f : Pic → Pic) : (s.modPic c f).main.sk = s.main.sk := rfl
@[simp] theorem State.modPic_mm (s : State) (c : Nat) (f : Pic → Pic) : (s.modPic c f).main.mm = s.main.mm := rfl
@[simp] theorem State.modPic_ln (s : State) (c : Nat) (f : Pic → Pic) : (s.modPic c f).main.ln = s.main.ln := rfl
@[simp] theorem State.modPic_td (s : State) (c : Nat) (f : Pic → Pic) : (s.modPic c f).main.td = s.main.td := rfl
@[simp] theorem State.modPic_tm (s : State) (c : Nat) (f : Pic → Pic) : (s.modPic c f).main.tm = s.main.tm := rfl
@[simp] theorem State.modPic_cy (s : State) (c : Nat) (f : Pic → Pic) : (s.modPic c f).main.cy = s.main.cy := rfl
@[simp] theorem State.modPic_wa (s : State) (c : Nat) (f : Pic → Pic) : (s.modPic c f).main.wa = s.main.wa := rfl
@[simp] theorem State.modPic_pw (s : State) (c : Nat) (f : Pic → Pic) : (s.modPic c f).main.pw = s.main.pw := rfl

/-! ### modPort -/

@[simp] theorem State.modPort_pending (s : State) (n : Nat) (f : MPort → MPort) : (s.modPort n f).pending = s.pending := rfl
@[simp] theorem State.modPort_now (s : State) (n : Nat) (f : MPort → MPort) : (s.modPort n f).now = s.now := rfl
@[simp] theorem State.modPort_freeIdx (s : State) (n : Nat) (f : MPort → MPort) : (s.modPort n f).freeIdx = s.freeIdx := rfl
@[simp] theorem State.modPort_cycle (s : State) (n : Nat) (f : MPort → MPort) : (s.modPort n f).cycle = s.cycle := rfl
@[simp] theorem State.modPort_pulses (s : State) (n : Nat) (f : MPort → MPort) : (s.modPort n f).pulses = s.pulses := rfl
@[simp] theorem State.modPort_regs (s : State) (n : Nat) (f : MPort → MPort) : (s.modPort n f).regs = s.regs := rfl
@[simp] theorem State.modPort_minSec (s : State) (n : Nat) (f : MPort → MPort) : (s.modPort n f).minSec = s.minSec := rfl
@[simp] theorem State.modPort_flash (s : State) (n : Nat) (f : MPort → MPort) : (s.modPort n f).flash = s.flash := rfl
@[simp] theorem State.modPort_hearth (s : State) (n : Nat) (f : MPort → MPort) : (s.modPort n f).hearth = s.hearth := rfl
@[simp] theorem State.modPort_out (s : State) (n : Nat) (f : MPort → MPort) : (s.modPort n f).main.out = s.main.out := rfl
@[simp] theorem State.modPort_boot (s : State) (n : Nat) (f : MPort → MPort) : (s.modPort n f).main.boot = s.main.boot := rfl
@[simp] theorem State.modPort_cmd (s : State) (n : Nat) (f : MPort → MPort) : (s.modPort n f).main.cmd = s.main.cmd := rfl
@[simp] theorem State.modPort_ash (s : State) (n : Nat) (f : MPort → MPort) : (s.modPort n f).main.ash = s.main.ash := rfl
@[simp] theorem State.modPort_power (s : State) (n : Nat) (f : MPort → MPort) : (s.modPort n f).main.power = s.main.power := rfl
@[simp] theorem State.modPort_nt (s : State) (n : Nat) (f : MPort → MPort) : (s.modPort n f).main.nt = s.main.nt := rfl
@[simp] theorem State.modPort_ma (s : State) (n : Nat) (f : MPort → MPort) : (s.modPort n f).main.ma = s.main.ma := rfl
@[simp] theorem State.modPort_up (s : State) (n : Nat) (f : MPort → MPort) : (s.modPort n f).main.up = s.main.up := rfl
@[simp] theorem State.modPort_tb (s : State) (n : Nat) (f : MPort → MPort) : (s.modPort n f).main.tb = s.main.tb := rfl
@[simp] theorem State.modPort_em (s : State) (n : Nat) (f : MPort → MPort) : (s.modPort n f).main.em = s.main.em := rfl
@[simp] theorem State.modPort_st (s : State) (n : Nat) (f : MPort → MPort) : (s.modPort n f).main.st = s.main.st := rfl
@[simp] theorem State.modPort_sk (s : State) (n : Nat) (f : MPort → MPort) : (s.modPort n f).main.sk = s.main.sk := rfl
@[simp] theorem State.modPort_mm (s : State) (n : Nat) (f : MPort → MPort) : (s.modPort n f).main.mm = s.main.mm := rfl
@[simp] theorem State.modPort_ln (s : State) (n : Nat) (f : MPort → MPort) : (s.modPort n f).main.ln = s.main.ln := rfl
@[simp] theorem State.modPort_td (s : State) (n : Nat) (f : MPort → MPort) : (s.modPort n f).main.td = s.main.td := rfl
@[simp] theorem State.modPort_tm (s : State) (n : Nat) (f : MPort → MPort) : (s.modPort n f).main.tm = s.main.tm := rfl
@[simp] theorem State.modPort_cy (s : State) (n : Nat) (f : MPort → MPort) : (s.modPort n f).main.cy = s.main.cy := rfl
@[simp] theorem State.modPort_pc (s : State) (n : Nat) (f : MPort → MPort) : (s.modPort n f).main.pc = s.main.pc := rfl
@[simp] theorem State.modPort_wa (s : State) (n : Nat) (f : MPort → MPort) : (s.modPort n f).main.wa = s.main.wa := rfl
@[simp] theorem State.modPort_pw (s : State) (n : Nat) (f : MPort → MPort) : (s.modPort n f).main.pw = s.main.pw := rfl

/-! ### modProg -/

@[simp] theorem State.modProg_pending (s : State) (p : Nat) (f : Prog → Prog) : (s.modProg p f).pending = s.pending := rfl
@[simp] theorem State.modProg_now (s : State) (p : Nat) (f : Prog → Prog) : (s.modProg p f).now = s.now := rfl
@[simp] theorem State.modProg_freeIdx (s : State) (p : Nat) (f : Prog → Prog) : (s.modProg p f).freeIdx = s.freeIdx := rfl
@[simp] theorem State.modProg_cycle (s : State) (p : Nat) (f : Prog → Prog) : (s.modProg p f).cycle = s.cycle := rfl
@[simp] theorem State.modProg_pulses (s : State) (p : Nat) (f : Prog → Prog) : (s.modProg p f).pulses = s.pulses := rfl
@[simp] theorem State.modProg_regs (s : State) (p : Nat) (f : Prog → Prog) : (s.modProg p f).regs = s.regs := rfl
@[simp] theorem State.modProg_minSec (s : State) (p : Nat) (f : Prog → Prog) : (s.modProg p f).minSec = s.minSec := rfl
@[simp] theorem State.modProg_flash (s : State) (p : Nat) (f : Prog → Prog) : (s.modProg p f).flash = s.flash := rfl
@[simp] theorem State.modProg_hearth (s : State) (p : Nat) (f : Prog → Prog) : (s.modProg p f).hearth = s.hearth := rfl
@[simp] theorem State.modProg_out (s : State) (p : Nat) (f : Prog → Prog) : (s.modProg p f).main.out = s.main.out := rfl
@[simp] theorem State.modProg_boot (s : State) (p : Nat) (f : Prog → Prog) : (s.modProg p f).main.boot = s.main.boot := rfl
@[simp] theorem State.modProg_cmd (s : State) (p : Nat) (f : Prog → Prog) : (s.modProg p f).main.cmd = s.main.cmd := rfl
@[simp] theorem State.modProg_ash (s : State) (p : Nat) (f : Prog → Prog) : (s.modProg p f).main.ash = s.main.ash := rfl
@[simp] theorem State.modProg_power (s : State) (p : Nat) (f : Prog → Prog) : (s.modProg p f).main.power = s.main.power := rfl
@[simp] theorem State.modProg_nt (s : State) (p : Nat) (f : Prog → Prog) : (s.modProg p f).main.nt = s.main.nt := rfl
@[simp] theorem State.modProg_ma (s : State) (p : Nat) (f : Prog → Prog) : (s.modProg p f).main.ma = s.main.ma := rfl
@[simp] theorem State.modProg_up (s : State) (p : Nat) (f : Prog → Prog) : (s.modProg p f).main.up = s.main.up := rfl
@[simp] theorem State.modProg_tb (s : State) (p : Nat) (f : Prog → Prog) : (s.modProg p f).main.tb = s.main.tb := rfl
@[simp] theorem State.modProg_em (s : State) (p : Nat) (f : Prog → Prog) : (s.modProg p f).main.em = s.main.em := rfl
@[simp] theorem State.modProg_st (s : State) (p : Nat) (f : Prog → Prog) : (s.modProg p f).main.st = s.main.st := rfl
@[simp] theorem State.modProg_sk (s : State) (p : Nat) (f : Prog → Prog) : (s.modProg p f).main.sk = s.main.sk := rfl
@[simp] theorem State.modProg_mm (s : State) (p : Nat) (f : Prog → Prog) : (s.modProg p f).main.mm = s.main.mm := rfl
@[simp] theorem State.modProg_ln (s : State) (p : Nat) (f : Prog → Prog) : (s.modProg p f).main.ln = s.main.ln := rfl
@[simp] theorem State.modProg_td (s : State) (p : Nat) (f : Prog → Prog) : (s.modProg p f).main.td = s.main.td := rfl
@[simp] theorem State.modProg_tm (s : State) (p : Nat) (f : Prog → Prog) : (s.modProg p f).main.tm = s.main.tm := rfl
@[simp] theorem State.modProg_cy (s : State) (p : Nat) (f : Prog → Prog) : (s.modProg p f).main.cy = s.main.cy := rfl
@[simp] theorem State.modProg_pc (s : State) (p : Nat) (f : Prog → Prog) : (s.modProg p f).main.pc = s.main.pc := rfl
@[simp] theorem State.modProg_wa (s : State) (p : Nat) (f : Prog → Prog) : (s.modProg p f).main.wa = s.main.wa := rfl
@[simp] theorem State.modProg_pw (s : State) (p : Nat) (f : Prog → Prog) : (s.modProg p f).main.pw = s.main.pw := rfl

/-! ### modPw -/

@[simp] theorem State.modPw_pending (s : State) (f : Fuses → Fuses) : (s.modPw f).pending = s.pending := rfl
@[simp] theorem State.modPw_now (s : State) (f : Fuses → Fuses) : (s.modPw f).now = s.now := rfl
@[simp] theorem State.modPw_freeIdx (s : State) (f : Fuses → Fuses) : (s.modPw f).freeIdx = s.freeIdx := rfl
@[simp] theorem State.modPw_cycle (s : State) (f : Fuses → Fuses) : (s.modPw f).cycle = s.cycle := rfl
@[simp] theorem State.modPw_pulses (s : State) (f : Fuses → Fuses) : (s.modPw f).pulses = s.pulses := rfl
@[simp] theorem State.modPw_regs (s : State) (f : Fuses → Fuses) : (s.modPw f).regs = s.regs := rfl
@[simp] theorem State.modPw_minSec (s : State) (f : Fuses → Fuses) : (s.modPw f).minSec = s.minSec := rfl
@[simp] theorem State.modPw_flash (s : State) (f : Fuses → Fuses) : (s.modPw f).flash = s.flash := rfl
@[simp] theorem State.modPw_hearth (s : State) (f : Fuses → Fuses) : (s.modPw f).hearth = s.hearth := rfl
@[simp] theorem State.modPw_out (s : State) (f : Fuses → Fuses) : (s.modPw f).main.out = s.main.out := rfl
@[simp] theorem State.modPw_boot (s : State) (f : Fuses → Fuses) : (s.modPw f).main.boot = s.main.boot := rfl
@[simp] theorem State.modPw_cmd (s : State) (f : Fuses → Fuses) : (s.modPw f).main.cmd = s.main.cmd := rfl
@[simp] theorem State.modPw_ash (s : State) (f : Fuses → Fuses) : (s.modPw f).main.ash = s.main.ash := rfl
@[simp] theorem State.modPw_power (s : State) (f : Fuses → Fuses) : (s.modPw f).main.power = s.main.power := rfl
@[simp] theorem State.modPw_nt (s : State) (f : Fuses → Fuses) : (s.modPw f).main.nt = s.main.nt := rfl
@[simp] theorem State.modPw_ma (s : State) (f : Fuses → Fuses) : (s.modPw f).main.ma = s.main.ma := rfl
@[simp] theorem State.modPw_up (s : State) (f : Fuses → Fuses) : (s.modPw f).main.up = s.main.up := rfl
@[simp] theorem State.modPw_tb (s : State) (f : Fuses → Fuses) : (s.modPw f).main.tb = s.main.tb := rfl
@[simp] theorem State.modPw_mp (s : State) (f : Fuses → Fuses) : (s.modPw f).main.mp = s.main.mp := rfl
@[simp] theorem State.modPw_em (s : State) (f : Fuses → Fuses) : (s.modPw f).main.em = s.main.em := rfl
@[simp] theorem State.modPw_st (s : State) (f : Fuses → Fuses) : (s.modPw f).main.st = s.main.st := rfl
@[simp] theorem State.modPw_sk (s : State) (f : Fuses → Fuses) : (s.modPw f).main.sk = s.main.sk := rfl
@[simp] theorem State.modPw_mm (s : State) (f : Fuses → Fuses) : (s.modPw f).main.mm = s.main.mm := rfl
@[simp] theorem State.modPw_ln (s : State) (f : Fuses → Fuses) : (s.modPw f).main.ln = s.main.ln := rfl
@[simp] theorem State.modPw_td (s : State) (f : Fuses → Fuses) : (s.modPw f).main.td = s.main.td := rfl
@[simp] theorem State.modPw_tm (s : State) (f : Fuses → Fuses) : (s.modPw f).main.tm = s.main.tm := rfl
@[simp] theorem State.modPw_cy (s : State) (f : Fuses → Fuses) : (s.modPw f).main.cy = s.main.cy := rfl
@[simp] theorem State.modPw_pc (s : State) (f : Fuses → Fuses) : (s.modPw f).main.pc = s.main.pc := rfl
@[simp] theorem State.modPw_wa (s : State) (f : Fuses → Fuses) : (s.modPw f).main.wa = s.main.wa := rfl
@[simp] theorem State.modPw_pw (s : State) (f : Fuses → Fuses) : (s.modPw f).main.pw = f s.main.pw := rfl

/-! ### modQueue -/

@[simp] theorem State.modQueue_pending (s : State) (n : Nat) (f : UpQueue → UpQueue) : (s.modQueue n f).pending = s.pending := rfl
@[simp] theorem State.modQueue_now (s : State) (n : Nat) (f : UpQueue → UpQueue) : (s.modQueue n f).now = s.now := rfl
@[simp] theorem State.modQueue_freeIdx (s : State) (n : Nat) (f : UpQueue → UpQueue) : (s.modQueue n f).freeIdx = s.freeIdx := rfl
@[simp] theorem State.modQueue_cycle (s : State) (n : Nat) (f : UpQueue → UpQueue) : (s.modQueue n f).cycle = s.cycle := rfl
@[simp] theorem State.modQueue_pulses (s : State) (n : Nat) (f : UpQueue → UpQueue) : (s.modQueue n f).pulses = s.pulses := rfl
@[simp] theorem State.modQueue_regs (s : State) (n : Nat) (f : UpQueue → UpQueue) : (s.modQueue n f).regs = s.regs := rfl
@[simp] theorem State.modQueue_minSec (s : State) (n : Nat) (f : UpQueue → UpQueue) : (s.modQueue n f).minSec = s.minSec := rfl
@[simp] theorem State.modQueue_flash (s : State) (n : Nat) (f : UpQueue → UpQueue) : (s.modQueue n f).flash = s.flash := rfl
@[simp] theorem State.modQueue_hearth (s : State) (n : Nat) (f : UpQueue → UpQueue) : (s.modQueue n f).hearth = s.hearth := rfl
@[simp] theorem State.modQueue_out (s : State) (n : Nat) (f : UpQueue → UpQueue) : (s.modQueue n f).main.out = s.main.out := rfl
@[simp] theorem State.modQueue_boot (s : State) (n : Nat) (f : UpQueue → UpQueue) : (s.modQueue n f).main.boot = s.main.boot := rfl
@[simp] theorem State.modQueue_cmd (s : State) (n : Nat) (f : UpQueue → UpQueue) : (s.modQueue n f).main.cmd = s.main.cmd := rfl
@[simp] theorem State.modQueue_ash (s : State) (n : Nat) (f : UpQueue → UpQueue) : (s.modQueue n f).main.ash = s.main.ash := rfl
@[simp] theorem State.modQueue_power (s : State) (n : Nat) (f : UpQueue → UpQueue) : (s.modQueue n f).main.power = s.main.power := rfl
@[simp] theorem State.modQueue_nt (s : State) (n : Nat) (f : UpQueue → UpQueue) : (s.modQueue n f).main.nt = s.main.nt := rfl
@[simp] theorem State.modQueue_ma (s : State) (n : Nat) (f : UpQueue → UpQueue) : (s.modQueue n f).main.ma = s.main.ma := rfl
@[simp] theorem State.modQueue_tb (s : State) (n : Nat) (f : UpQueue → UpQueue) : (s.modQueue n f).main.tb = s.main.tb := rfl
@[simp] theorem State.modQueue_mp (s : State) (n : Nat) (f : UpQueue → UpQueue) : (s.modQueue n f).main.mp = s.main.mp := rfl
@[simp] theorem State.modQueue_em (s : State) (n : Nat) (f : UpQueue → UpQueue) : (s.modQueue n f).main.em = s.main.em := rfl
@[simp] theorem State.modQueue_st (s : State) (n : Nat) (f : UpQueue → UpQueue) : (s.modQueue n f).main.st = s.main.st := rfl
@[simp] theorem State.modQueue_sk (s : State) (n : Nat) (f : UpQueue → UpQueue) : (s.modQueue n f).main.sk = s.main.sk := rfl
@[simp] theorem State.modQueue_mm (s : State) (n : Nat) (f : UpQueue → UpQueue) : (s.modQueue n f).main.mm = s.main.mm := rfl
@[simp] theorem State.modQueue_ln (s : State) (n : Nat) (f : UpQueue → UpQueue) : (s.modQueue n f).main.ln = s.main.ln := rfl
@[simp] theorem State.modQueue_td (s : State) (n : Nat) (f : UpQueue → UpQueue) : (s.modQueue n f).main.td = s.main.td := rfl
@[simp] theorem State.modQueue_tm (s : State) (n : Nat) (f : UpQueue → UpQueue) : (s.modQueue n f).main.tm = s.main.tm := rfl
@[simp] theorem State.modQueue_cy (s : State) (n : Nat) (f : UpQueue → UpQueue) : (s.modQueue n f).main.cy = s.main.cy := rfl
@[simp] theorem State.modQueue_pc (s : State) (n : Nat) (f : UpQueue → UpQueue) : (s.modQueue n f).main.pc = s.main.pc := rfl
@[simp] theorem State.modQueue_wa (s : State) (n : Nat) (f : UpQueue → UpQueue) : (s.modQueue n f).main.wa = s.main.wa := rfl
@[simp] theorem State.modQueue_pw (s : State) (n : Nat) (f : UpQueue → UpQueue) : (s.modQueue n f).main.pw = s.main.pw := rfl

/-! ### modReader -/

@[simp] theorem State.modReader_pending (s : State) (d : Nat) (f : Reader → Reader) : (s.modReader d f).pending = s.pending := rfl
@[simp] theorem State.modReader_now (s : State) (d : Nat) (f : Reader → Reader) : (s.modReader d f).now = s.now := rfl
@[simp] theorem State.modReader_freeIdx (s : State) (d : Nat) (f : Reader → Reader) : (s.modReader d f).freeIdx = s.freeIdx := rfl
@[simp] theorem State.modReader_cycle (s : State) (d : Nat) (f : Reader → Reader) : (s.modReader d f).cycle = s.cycle := rfl
@[simp] theorem State.modReader_pulses (s : State) (d : Nat) (f : Reader → Reader) : (s.modReader d f).pulses = s.pulses := rfl
@[simp] theorem State.modReader_regs (s : State) (d : Nat) (f : Reader → Reader) : (s.modReader d f).regs = s.regs := rfl
@[simp] theorem State.modReader_minSec (s : State) (d : Nat) (f : Reader → Reader) : (s.modReader d f).minSec = s.minSec := rfl
@[simp] theorem State.modReader_flash (s : State) (d : Nat) (f : Reader → Reader) : (s.modReader d f).flash = s.flash := rfl
@[simp] theorem State.modReader_hearth (s : State) (d : Nat) (f : Reader → Reader) : (s.modReader d f).hearth = s.hearth := rfl
@[simp] theorem State.modReader_out (s : State) (d : Nat) (f : Reader → Reader) : (s.modReader d f).main.out = s.main.out := rfl
@[simp] theorem State.modReader_boot (s : State) (d : Nat) (f : Reader → Reader) : (s.modReader d f).main.boot = s.main.boot := rfl
@[simp] theorem State.modReader_cmd (s : State) (d : Nat) (f : Reader → Reader) : (s.modReader d f).main.cmd = s.main.cmd := rfl
@[simp] theorem State.modReader_ash (s : State) (d : Nat) (f : Reader → Reader) : (s.modReader d f).main.ash = s.main.ash := rfl
@[simp] theorem State.modReader_power (s : State) (d : Nat) (f : Reader → Reader) : (s.modReader d f).main.power = s.main.power := rfl
@[simp] theorem State.modReader_nt (s : State) (d : Nat) (f : Reader → Reader) : (s.modReader d f).main.nt = s.main.nt := rfl
@[simp] theorem State.modReader_ma (s : State) (d : Nat) (f : Reader → Reader) : (s.modReader d f).main.ma = s.main.ma := rfl
@[simp] theorem State.modReader_up (s : State) (d : Nat) (f : Reader → Reader) : (s.modReader d f).main.up = s.main.up := rfl
@[simp] theorem State.modReader_tb (s : State) (d : Nat) (f : Reader → Reader) : (s.modReader d f).main.tb = s.main.tb := rfl
@[simp] theorem State.modReader_mp (s : State) (d : Nat) (f : Reader → Reader) : (s.modReader d f).main.mp = s.main.mp := rfl
@[simp] theorem State.modReader_em (s : State) (d : Nat) (f : Reader → Reader) : (s.modReader d f).main.em = s.main.em := rfl
@[simp] theorem State.modReader_st (s : State) (d : Nat) (f : Reader → Reader) : (s.modReader d f).main.st = s.main.st := rfl
@[simp] theorem State.modReader_sk (s : State) (d : Nat) (f : Reader → Reader) : (s.modReader d f).main.sk = s.main.sk := rfl
@[simp] theorem State.modReader_mm (s : State) (d : Nat) (f : Reader → Reader) : (s.modReader d f).main.mm = s.main.mm := rfl
@[simp] theorem State.modReader_ln (s : State) (d : Nat) (f : Reader → Reader) : (s.modReader d f).main.ln = s.main.ln := rfl
@[simp] theorem State.modReader_td (s : State) (d : Nat) (f : Reader → Reader) : (s.modReader d f).main.td = s.main.td := rfl
@[simp] theorem State.modReader_tm (s : State) (d : Nat) (f : Reader → Reader) : (s.modReader d f).main.tm = s.main.tm := rfl
@[simp] theorem State.modReader_cy (s : State) (d : Nat) (f : Reader → Reader) : (s.modReader d f).main.cy = s.main.cy := rfl
@[simp] theorem State.modReader_pc (s : State) (d : Nat) (f : Reader → Reader) : (s.modReader d f).main.pc = s.main.pc := rfl
@[simp] theorem State.modReader_pw (s : State) (d : Nat) (f : Reader → Reader) : (s.modReader d f).main.pw = s.main.pw := rfl

/-! ### modSk -/

@[simp] theorem State.modSk_pending (s : State) (f : Stack → Stack) : (s.modSk f).pending = s.pending := rfl
@[simp] theorem State.modSk_now (s : State) (f : Stack → Stack) : (s.modSk f).now = s.now := rfl
@[simp] theorem State.modSk_freeIdx (s : State) (f : Stack → Stack) : (s.modSk f).freeIdx = s.freeIdx := rfl
@[simp] theorem State.modSk_cycle (s : State) (f : Stack → Stack) : (s.modSk f).cycle = s.cycle := rfl
@[simp] theorem State.modSk_pulses (s : State) (f : Stack → Stack) : (s.modSk f).pulses = s.pulses := rfl
@[simp] theorem State.modSk_regs (s : State) (f : Stack → Stack) : (s.modSk f).regs = s.regs := rfl
@[simp] theorem State.modSk_minSec (s : State) (f : Stack → Stack) : (s.modSk f).minSec = s.minSec := rfl
@[simp] theorem State.modSk_flash (s : State) (f : Stack → Stack) : (s.modSk f).flash = s.flash := rfl
@[simp] theorem State.modSk_hearth (s : State) (f : Stack → Stack) : (s.modSk f).hearth = s.hearth := rfl
@[simp] theorem State.modSk_out (s : State) (f : Stack → Stack) : (s.modSk f).main.out = s.main.out := rfl
@[simp] theorem State.modSk_boot (s : State) (f : Stack → Stack) : (s.modSk f).main.boot = s.main.boot := rfl
@[simp] theorem State.modSk_cmd (s : State) (f : Stack → Stack) : (s.modSk f).main.cmd = s.main.cmd := rfl
@[simp] theorem State.modSk_ash (s : State) (f : Stack → Stack) : (s.modSk f).main.ash = s.main.ash := rfl
@[simp] theorem State.modSk_power (s : State) (f : Stack → Stack) : (s.modSk f).main.power = s.main.power := rfl
@[simp] theorem State.modSk_nt (s : State) (f : Stack → Stack) : (s.modSk f).main.nt = s.main.nt := rfl
@[simp] theorem State.modSk_ma (s : State) (f : Stack → Stack) : (s.modSk f).main.ma = s.main.ma := rfl
@[simp] theorem State.modSk_up (s : State) (f : Stack → Stack) : (s.modSk f).main.up = s.main.up := rfl
@[simp] theorem State.modSk_tb (s : State) (f : Stack → Stack) : (s.modSk f).main.tb = s.main.tb := rfl
@[simp] theorem State.modSk_mp (s : State) (f : Stack → Stack) : (s.modSk f).main.mp = s.main.mp := rfl
@[simp] theorem State.modSk_em (s : State) (f : Stack → Stack) : (s.modSk f).main.em = s.main.em := rfl
@[simp] theorem State.modSk_st (s : State) (f : Stack → Stack) : (s.modSk f).main.st = s.main.st := rfl
@[simp] theorem State.modSk_sk (s : State) (f : Stack → Stack) : (s.modSk f).main.sk = f s.main.sk := rfl
@[simp] theorem State.modSk_mm (s : State) (f : Stack → Stack) : (s.modSk f).main.mm = s.main.mm := rfl
@[simp] theorem State.modSk_ln (s : State) (f : Stack → Stack) : (s.modSk f).main.ln = s.main.ln := rfl
@[simp] theorem State.modSk_td (s : State) (f : Stack → Stack) : (s.modSk f).main.td = s.main.td := rfl
@[simp] theorem State.modSk_tm (s : State) (f : Stack → Stack) : (s.modSk f).main.tm = s.main.tm := rfl
@[simp] theorem State.modSk_cy (s : State) (f : Stack → Stack) : (s.modSk f).main.cy = s.main.cy := rfl
@[simp] theorem State.modSk_pc (s : State) (f : Stack → Stack) : (s.modSk f).main.pc = s.main.pc := rfl
@[simp] theorem State.modSk_wa (s : State) (f : Stack → Stack) : (s.modSk f).main.wa = s.main.wa := rfl
@[simp] theorem State.modSk_pw (s : State) (f : Stack → Stack) : (s.modSk f).main.pw = s.main.pw := rfl

/-! ### modStream -/

@[simp] theorem State.modStream_pending (s : State) (id : Nat) (f : CyStream → CyStream) : (s.modStream id f).pending = s.pending := rfl
@[simp] theorem State.modStream_now (s : State) (id : Nat) (f : CyStream → CyStream) : (s.modStream id f).now = s.now := rfl
@[simp] theorem State.modStream_freeIdx (s : State) (id : Nat) (f : CyStream → CyStream) : (s.modStream id f).freeIdx = s.freeIdx := rfl
@[simp] theorem State.modStream_cycle (s : State) (id : Nat) (f : CyStream → CyStream) : (s.modStream id f).cycle = s.cycle := rfl
@[simp] theorem State.modStream_pulses (s : State) (id : Nat) (f : CyStream → CyStream) : (s.modStream id f).pulses = s.pulses := rfl
@[simp] theorem State.modStream_regs (s : State) (id : Nat) (f : CyStream → CyStream) : (s.modStream id f).regs = s.regs := rfl
@[simp] theorem State.modStream_minSec (s : State) (id : Nat) (f : CyStream → CyStream) : (s.modStream id f).minSec = s.minSec := rfl
@[simp] theorem State.modStream_flash (s : State) (id : Nat) (f : CyStream → CyStream) : (s.modStream id f).flash = s.flash := rfl
@[simp] theorem State.modStream_hearth (s : State) (id : Nat) (f : CyStream → CyStream) : (s.modStream id f).hearth = s.hearth := rfl
@[simp] theorem State.modStream_out (s : State) (id : Nat) (f : CyStream → CyStream) : (s.modStream id f).main.out = s.main.out := rfl
@[simp] theorem State.modStream_boot (s : State) (id : Nat) (f : CyStream → CyStream) : (s.modStream id f).main.boot = s.main.boot := rfl
@[simp] theorem State.modStream_cmd (s : State) (id : Nat) (f : CyStream → CyStream) : (s.modStream id f).main.cmd = s.main.cmd := rfl
@[simp] theorem State.modStream_ash (s : State) (id : Nat) (f : CyStream → CyStream) : (s.modStream id f).main.ash = s.main.ash := rfl
@[simp] theorem State.modStream_power (s : State) (id : Nat) (f : CyStream → CyStream) : (s.modStream id f).main.power = s.main.power := rfl
@[simp] theorem State.modStream_nt (s : State) (id : Nat) (f : CyStream → CyStream) : (s.modStream id f).main.nt = s.main.nt := rfl
@[simp] theorem State.modStream_ma (s : State) (id : Nat) (f : CyStream → CyStream) : (s.modStream id f).main.ma = s.main.ma := rfl
@[simp] theorem State.modStream_up (s : State) (id : Nat) (f : CyStream → CyStream) : (s.modStream id f).main.up = s.main.up := rfl
@[simp] theorem State.modStream_tb (s : State) (id : Nat) (f : CyStream → CyStream) : (s.modStream id f).main.tb = s.main.tb := rfl
@[simp] theorem State.modStream_mp (s : State) (id : Nat) (f : CyStream → CyStream) : (s.modStream id f).main.mp = s.main.mp := rfl
@[simp] theorem State.modStream_em (s : State) (id : Nat) (f : CyStream → CyStream) : (s.modStream id f).main.em = s.main.em := rfl
@[simp] theorem State.modStream_st (s : State) (id : Nat) (f : CyStream → CyStream) : (s.modStream id f).main.st = s.main.st := rfl
@[simp] theorem State.modStream_sk (s : State) (id : Nat) (f : CyStream → CyStream) : (s.modStream id f).main.sk = s.main.sk := rfl
@[simp] theorem State.modStream_mm (s : State) (id : Nat) (f : CyStream → CyStream) : (s.modStream id f).main.mm = s.main.mm := rfl
@[simp] theorem State.modStream_ln (s : State) (id : Nat) (f : CyStream → CyStream) : (s.modStream id f).main.ln = s.main.ln := rfl
@[simp] theorem State.modStream_td (s : State) (id : Nat) (f : CyStream → CyStream) : (s.modStream id f).main.td = s.main.td := rfl
@[simp] theorem State.modStream_tm (s : State) (id : Nat) (f : CyStream → CyStream) : (s.modStream id f).main.tm = s.main.tm := rfl
@[simp] theorem State.modStream_pc (s : State) (id : Nat) (f : CyStream → CyStream) : (s.modStream id f).main.pc = s.main.pc := rfl
@[simp] theorem State.modStream_wa (s : State) (id : Nat) (f : CyStream → CyStream) : (s.modStream id f).main.wa = s.main.wa := rfl
@[simp] theorem State.modStream_pw (s : State) (id : Nat) (f : CyStream → CyStream) : (s.modStream id f).main.pw = s.main.pw := rfl

/-! ### modSwap -/

@[simp] theorem State.modSwap_pending (s : State) (k : Nat) (f : Swap → Swap) : (s.modSwap k f).pending = s.pending := rfl
@[simp] theorem State.modSwap_now (s : State) (k : Nat) (f : Swap → Swap) : (s.modSwap k f).now = s.now := rfl
@[simp] theorem State.modSwap_freeIdx (s : State) (k : Nat) (f : Swap → Swap) : (s.modSwap k f).freeIdx = s.freeIdx := rfl
@[simp] theorem State.modSwap_cycle (s : State) (k : Nat) (f : Swap → Swap) : (s.modSwap k f).cycle = s.cycle := rfl
@[simp] theorem State.modSwap_pulses (s : State) (k : Nat) (f : Swap → Swap) : (s.modSwap k f).pulses = s.pulses := rfl
@[simp] theorem State.modSwap_regs (s : State) (k : Nat) (f : Swap → Swap) : (s.modSwap k f).regs = s.regs := rfl
@[simp] theorem State.modSwap_minSec (s : State) (k : Nat) (f : Swap → Swap) : (s.modSwap k f).minSec = s.minSec := rfl
@[simp] theorem State.modSwap_flash (s : State) (k : Nat) (f : Swap → Swap) : (s.modSwap k f).flash = s.flash := rfl
@[simp] theorem State.modSwap_hearth (s : State) (k : Nat) (f : Swap → Swap) : (s.modSwap k f).hearth = s.hearth := rfl
@[simp] theorem State.modSwap_out (s : State) (k : Nat) (f : Swap → Swap) : (s.modSwap k f).main.out = s.main.out := rfl
@[simp] theorem State.modSwap_boot (s : State) (k : Nat) (f : Swap → Swap) : (s.modSwap k f).main.boot = s.main.boot := rfl
@[simp] theorem State.modSwap_cmd (s : State) (k : Nat) (f : Swap → Swap) : (s.modSwap k f).main.cmd = s.main.cmd := rfl
@[simp] theorem State.modSwap_ash (s : State) (k : Nat) (f : Swap → Swap) : (s.modSwap k f).main.ash = s.main.ash := rfl
@[simp] theorem State.modSwap_power (s : State) (k : Nat) (f : Swap → Swap) : (s.modSwap k f).main.power = s.main.power := rfl
@[simp] theorem State.modSwap_nt (s : State) (k : Nat) (f : Swap → Swap) : (s.modSwap k f).main.nt = s.main.nt := rfl
@[simp] theorem State.modSwap_ma (s : State) (k : Nat) (f : Swap → Swap) : (s.modSwap k f).main.ma = s.main.ma := rfl
@[simp] theorem State.modSwap_up (s : State) (k : Nat) (f : Swap → Swap) : (s.modSwap k f).main.up = s.main.up := rfl
@[simp] theorem State.modSwap_tb (s : State) (k : Nat) (f : Swap → Swap) : (s.modSwap k f).main.tb = s.main.tb := rfl
@[simp] theorem State.modSwap_mp (s : State) (k : Nat) (f : Swap → Swap) : (s.modSwap k f).main.mp = s.main.mp := rfl
@[simp] theorem State.modSwap_em (s : State) (k : Nat) (f : Swap → Swap) : (s.modSwap k f).main.em = s.main.em := rfl
@[simp] theorem State.modSwap_st (s : State) (k : Nat) (f : Swap → Swap) : (s.modSwap k f).main.st = s.main.st := rfl
@[simp] theorem State.modSwap_sk (s : State) (k : Nat) (f : Swap → Swap) : (s.modSwap k f).main.sk = s.main.sk := rfl
@[simp] theorem State.modSwap_mm (s : State) (k : Nat) (f : Swap → Swap) : (s.modSwap k f).main.mm = s.main.mm := rfl
@[simp] theorem State.modSwap_td (s : State) (k : Nat) (f : Swap → Swap) : (s.modSwap k f).main.td = s.main.td := rfl
@[simp] theorem State.modSwap_tm (s : State) (k : Nat) (f : Swap → Swap) : (s.modSwap k f).main.tm = s.main.tm := rfl
@[simp] theorem State.modSwap_cy (s : State) (k : Nat) (f : Swap → Swap) : (s.modSwap k f).main.cy = s.main.cy := rfl
@[simp] theorem State.modSwap_pc (s : State) (k : Nat) (f : Swap → Swap) : (s.modSwap k f).main.pc = s.main.pc := rfl
@[simp] theorem State.modSwap_wa (s : State) (k : Nat) (f : Swap → Swap) : (s.modSwap k f).main.wa = s.main.wa := rfl
@[simp] theorem State.modSwap_pw (s : State) (k : Nat) (f : Swap → Swap) : (s.modSwap k f).main.pw = s.main.pw := rfl

/-! ### modTb -/

@[simp] theorem State.modTb_pending (s : State) (f : Tribs → Tribs) : (s.modTb f).pending = s.pending := rfl
@[simp] theorem State.modTb_now (s : State) (f : Tribs → Tribs) : (s.modTb f).now = s.now := rfl
@[simp] theorem State.modTb_freeIdx (s : State) (f : Tribs → Tribs) : (s.modTb f).freeIdx = s.freeIdx := rfl
@[simp] theorem State.modTb_cycle (s : State) (f : Tribs → Tribs) : (s.modTb f).cycle = s.cycle := rfl
@[simp] theorem State.modTb_pulses (s : State) (f : Tribs → Tribs) : (s.modTb f).pulses = s.pulses := rfl
@[simp] theorem State.modTb_regs (s : State) (f : Tribs → Tribs) : (s.modTb f).regs = s.regs := rfl
@[simp] theorem State.modTb_minSec (s : State) (f : Tribs → Tribs) : (s.modTb f).minSec = s.minSec := rfl
@[simp] theorem State.modTb_flash (s : State) (f : Tribs → Tribs) : (s.modTb f).flash = s.flash := rfl
@[simp] theorem State.modTb_hearth (s : State) (f : Tribs → Tribs) : (s.modTb f).hearth = s.hearth := rfl
@[simp] theorem State.modTb_out (s : State) (f : Tribs → Tribs) : (s.modTb f).main.out = s.main.out := rfl
@[simp] theorem State.modTb_boot (s : State) (f : Tribs → Tribs) : (s.modTb f).main.boot = s.main.boot := rfl
@[simp] theorem State.modTb_cmd (s : State) (f : Tribs → Tribs) : (s.modTb f).main.cmd = s.main.cmd := rfl
@[simp] theorem State.modTb_ash (s : State) (f : Tribs → Tribs) : (s.modTb f).main.ash = s.main.ash := rfl
@[simp] theorem State.modTb_power (s : State) (f : Tribs → Tribs) : (s.modTb f).main.power = s.main.power := rfl
@[simp] theorem State.modTb_nt (s : State) (f : Tribs → Tribs) : (s.modTb f).main.nt = s.main.nt := rfl
@[simp] theorem State.modTb_ma (s : State) (f : Tribs → Tribs) : (s.modTb f).main.ma = s.main.ma := rfl
@[simp] theorem State.modTb_up (s : State) (f : Tribs → Tribs) : (s.modTb f).main.up = s.main.up := rfl
@[simp] theorem State.modTb_tb (s : State) (f : Tribs → Tribs) : (s.modTb f).main.tb = f s.main.tb := rfl
@[simp] theorem State.modTb_mp (s : State) (f : Tribs → Tribs) : (s.modTb f).main.mp = s.main.mp := rfl
@[simp] theorem State.modTb_em (s : State) (f : Tribs → Tribs) : (s.modTb f).main.em = s.main.em := rfl
@[simp] theorem State.modTb_st (s : State) (f : Tribs → Tribs) : (s.modTb f).main.st = s.main.st := rfl
@[simp] theorem State.modTb_sk (s : State) (f : Tribs → Tribs) : (s.modTb f).main.sk = s.main.sk := rfl
@[simp] theorem State.modTb_mm (s : State) (f : Tribs → Tribs) : (s.modTb f).main.mm = s.main.mm := rfl
@[simp] theorem State.modTb_ln (s : State) (f : Tribs → Tribs) : (s.modTb f).main.ln = s.main.ln := rfl
@[simp] theorem State.modTb_td (s : State) (f : Tribs → Tribs) : (s.modTb f).main.td = s.main.td := rfl
@[simp] theorem State.modTb_tm (s : State) (f : Tribs → Tribs) : (s.modTb f).main.tm = s.main.tm := rfl
@[simp] theorem State.modTb_cy (s : State) (f : Tribs → Tribs) : (s.modTb f).main.cy = s.main.cy := rfl
@[simp] theorem State.modTb_pc (s : State) (f : Tribs → Tribs) : (s.modTb f).main.pc = s.main.pc := rfl
@[simp] theorem State.modTb_wa (s : State) (f : Tribs → Tribs) : (s.modTb f).main.wa = s.main.wa := rfl
@[simp] theorem State.modTb_pw (s : State) (f : Tribs → Tribs) : (s.modTb f).main.pw = s.main.pw := rfl

/-! ### modTd -/

@[simp] theorem State.modTd_pending (s : State) (f : TreeDown → TreeDown) : (s.modTd f).pending = s.pending := rfl
@[simp] theorem State.modTd_now (s : State) (f : TreeDown → TreeDown) : (s.modTd f).now = s.now := rfl
@[simp] theorem State.modTd_freeIdx (s : State) (f : TreeDown → TreeDown) : (s.modTd f).freeIdx = s.freeIdx := rfl
@[simp] theorem State.modTd_cycle (s : State) (f : TreeDown → TreeDown) : (s.modTd f).cycle = s.cycle := rfl
@[simp] theorem State.modTd_pulses (s : State) (f : TreeDown → TreeDown) : (s.modTd f).pulses = s.pulses := rfl
@[simp] theorem State.modTd_regs (s : State) (f : TreeDown → TreeDown) : (s.modTd f).regs = s.regs := rfl
@[simp] theorem State.modTd_minSec (s : State) (f : TreeDown → TreeDown) : (s.modTd f).minSec = s.minSec := rfl
@[simp] theorem State.modTd_flash (s : State) (f : TreeDown → TreeDown) : (s.modTd f).flash = s.flash := rfl
@[simp] theorem State.modTd_hearth (s : State) (f : TreeDown → TreeDown) : (s.modTd f).hearth = s.hearth := rfl
@[simp] theorem State.modTd_out (s : State) (f : TreeDown → TreeDown) : (s.modTd f).main.out = s.main.out := rfl
@[simp] theorem State.modTd_boot (s : State) (f : TreeDown → TreeDown) : (s.modTd f).main.boot = s.main.boot := rfl
@[simp] theorem State.modTd_cmd (s : State) (f : TreeDown → TreeDown) : (s.modTd f).main.cmd = s.main.cmd := rfl
@[simp] theorem State.modTd_ash (s : State) (f : TreeDown → TreeDown) : (s.modTd f).main.ash = s.main.ash := rfl
@[simp] theorem State.modTd_power (s : State) (f : TreeDown → TreeDown) : (s.modTd f).main.power = s.main.power := rfl
@[simp] theorem State.modTd_nt (s : State) (f : TreeDown → TreeDown) : (s.modTd f).main.nt = s.main.nt := rfl
@[simp] theorem State.modTd_ma (s : State) (f : TreeDown → TreeDown) : (s.modTd f).main.ma = s.main.ma := rfl
@[simp] theorem State.modTd_up (s : State) (f : TreeDown → TreeDown) : (s.modTd f).main.up = s.main.up := rfl
@[simp] theorem State.modTd_tb (s : State) (f : TreeDown → TreeDown) : (s.modTd f).main.tb = s.main.tb := rfl
@[simp] theorem State.modTd_mp (s : State) (f : TreeDown → TreeDown) : (s.modTd f).main.mp = s.main.mp := rfl
@[simp] theorem State.modTd_em (s : State) (f : TreeDown → TreeDown) : (s.modTd f).main.em = s.main.em := rfl
@[simp] theorem State.modTd_st (s : State) (f : TreeDown → TreeDown) : (s.modTd f).main.st = s.main.st := rfl
@[simp] theorem State.modTd_sk (s : State) (f : TreeDown → TreeDown) : (s.modTd f).main.sk = s.main.sk := rfl
@[simp] theorem State.modTd_mm (s : State) (f : TreeDown → TreeDown) : (s.modTd f).main.mm = s.main.mm := rfl
@[simp] theorem State.modTd_ln (s : State) (f : TreeDown → TreeDown) : (s.modTd f).main.ln = s.main.ln := rfl
@[simp] theorem State.modTd_td (s : State) (f : TreeDown → TreeDown) : (s.modTd f).main.td = f s.main.td := rfl
@[simp] theorem State.modTd_tm (s : State) (f : TreeDown → TreeDown) : (s.modTd f).main.tm = s.main.tm := rfl
@[simp] theorem State.modTd_cy (s : State) (f : TreeDown → TreeDown) : (s.modTd f).main.cy = s.main.cy := rfl
@[simp] theorem State.modTd_pc (s : State) (f : TreeDown → TreeDown) : (s.modTd f).main.pc = s.main.pc := rfl
@[simp] theorem State.modTd_wa (s : State) (f : TreeDown → TreeDown) : (s.modTd f).main.wa = s.main.wa := rfl
@[simp] theorem State.modTd_pw (s : State) (f : TreeDown → TreeDown) : (s.modTd f).main.pw = s.main.pw := rfl

/-! ### modTdLane -/

@[simp] theorem State.modTdLane_pending (s : State) (k : Nat) (f : TdLane → TdLane) : (s.modTdLane k f).pending = s.pending := rfl
@[simp] theorem State.modTdLane_now (s : State) (k : Nat) (f : TdLane → TdLane) : (s.modTdLane k f).now = s.now := rfl
@[simp] theorem State.modTdLane_freeIdx (s : State) (k : Nat) (f : TdLane → TdLane) : (s.modTdLane k f).freeIdx = s.freeIdx := rfl
@[simp] theorem State.modTdLane_cycle (s : State) (k : Nat) (f : TdLane → TdLane) : (s.modTdLane k f).cycle = s.cycle := rfl
@[simp] theorem State.modTdLane_pulses (s : State) (k : Nat) (f : TdLane → TdLane) : (s.modTdLane k f).pulses = s.pulses := rfl
@[simp] theorem State.modTdLane_regs (s : State) (k : Nat) (f : TdLane → TdLane) : (s.modTdLane k f).regs = s.regs := rfl
@[simp] theorem State.modTdLane_minSec (s : State) (k : Nat) (f : TdLane → TdLane) : (s.modTdLane k f).minSec = s.minSec := rfl
@[simp] theorem State.modTdLane_flash (s : State) (k : Nat) (f : TdLane → TdLane) : (s.modTdLane k f).flash = s.flash := rfl
@[simp] theorem State.modTdLane_hearth (s : State) (k : Nat) (f : TdLane → TdLane) : (s.modTdLane k f).hearth = s.hearth := rfl
@[simp] theorem State.modTdLane_out (s : State) (k : Nat) (f : TdLane → TdLane) : (s.modTdLane k f).main.out = s.main.out := rfl
@[simp] theorem State.modTdLane_boot (s : State) (k : Nat) (f : TdLane → TdLane) : (s.modTdLane k f).main.boot = s.main.boot := rfl
@[simp] theorem State.modTdLane_cmd (s : State) (k : Nat) (f : TdLane → TdLane) : (s.modTdLane k f).main.cmd = s.main.cmd := rfl
@[simp] theorem State.modTdLane_ash (s : State) (k : Nat) (f : TdLane → TdLane) : (s.modTdLane k f).main.ash = s.main.ash := rfl
@[simp] theorem State.modTdLane_power (s : State) (k : Nat) (f : TdLane → TdLane) : (s.modTdLane k f).main.power = s.main.power := rfl
@[simp] theorem State.modTdLane_nt (s : State) (k : Nat) (f : TdLane → TdLane) : (s.modTdLane k f).main.nt = s.main.nt := rfl
@[simp] theorem State.modTdLane_ma (s : State) (k : Nat) (f : TdLane → TdLane) : (s.modTdLane k f).main.ma = s.main.ma := rfl
@[simp] theorem State.modTdLane_up (s : State) (k : Nat) (f : TdLane → TdLane) : (s.modTdLane k f).main.up = s.main.up := rfl
@[simp] theorem State.modTdLane_tb (s : State) (k : Nat) (f : TdLane → TdLane) : (s.modTdLane k f).main.tb = s.main.tb := rfl
@[simp] theorem State.modTdLane_mp (s : State) (k : Nat) (f : TdLane → TdLane) : (s.modTdLane k f).main.mp = s.main.mp := rfl
@[simp] theorem State.modTdLane_em (s : State) (k : Nat) (f : TdLane → TdLane) : (s.modTdLane k f).main.em = s.main.em := rfl
@[simp] theorem State.modTdLane_st (s : State) (k : Nat) (f : TdLane → TdLane) : (s.modTdLane k f).main.st = s.main.st := rfl
@[simp] theorem State.modTdLane_sk (s : State) (k : Nat) (f : TdLane → TdLane) : (s.modTdLane k f).main.sk = s.main.sk := rfl
@[simp] theorem State.modTdLane_mm (s : State) (k : Nat) (f : TdLane → TdLane) : (s.modTdLane k f).main.mm = s.main.mm := rfl
@[simp] theorem State.modTdLane_ln (s : State) (k : Nat) (f : TdLane → TdLane) : (s.modTdLane k f).main.ln = s.main.ln := rfl
@[simp] theorem State.modTdLane_tm (s : State) (k : Nat) (f : TdLane → TdLane) : (s.modTdLane k f).main.tm = s.main.tm := rfl
@[simp] theorem State.modTdLane_cy (s : State) (k : Nat) (f : TdLane → TdLane) : (s.modTdLane k f).main.cy = s.main.cy := rfl
@[simp] theorem State.modTdLane_pc (s : State) (k : Nat) (f : TdLane → TdLane) : (s.modTdLane k f).main.pc = s.main.pc := rfl
@[simp] theorem State.modTdLane_wa (s : State) (k : Nat) (f : TdLane → TdLane) : (s.modTdLane k f).main.wa = s.main.wa := rfl
@[simp] theorem State.modTdLane_pw (s : State) (k : Nat) (f : TdLane → TdLane) : (s.modTdLane k f).main.pw = s.main.pw := rfl

/-! ### modTm -/

@[simp] theorem State.modTm_pending (s : State) (f : Membership → Membership) : (s.modTm f).pending = s.pending := rfl
@[simp] theorem State.modTm_now (s : State) (f : Membership → Membership) : (s.modTm f).now = s.now := rfl
@[simp] theorem State.modTm_freeIdx (s : State) (f : Membership → Membership) : (s.modTm f).freeIdx = s.freeIdx := rfl
@[simp] theorem State.modTm_cycle (s : State) (f : Membership → Membership) : (s.modTm f).cycle = s.cycle := rfl
@[simp] theorem State.modTm_pulses (s : State) (f : Membership → Membership) : (s.modTm f).pulses = s.pulses := rfl
@[simp] theorem State.modTm_regs (s : State) (f : Membership → Membership) : (s.modTm f).regs = s.regs := rfl
@[simp] theorem State.modTm_minSec (s : State) (f : Membership → Membership) : (s.modTm f).minSec = s.minSec := rfl
@[simp] theorem State.modTm_flash (s : State) (f : Membership → Membership) : (s.modTm f).flash = s.flash := rfl
@[simp] theorem State.modTm_hearth (s : State) (f : Membership → Membership) : (s.modTm f).hearth = s.hearth := rfl
@[simp] theorem State.modTm_out (s : State) (f : Membership → Membership) : (s.modTm f).main.out = s.main.out := rfl
@[simp] theorem State.modTm_boot (s : State) (f : Membership → Membership) : (s.modTm f).main.boot = s.main.boot := rfl
@[simp] theorem State.modTm_cmd (s : State) (f : Membership → Membership) : (s.modTm f).main.cmd = s.main.cmd := rfl
@[simp] theorem State.modTm_ash (s : State) (f : Membership → Membership) : (s.modTm f).main.ash = s.main.ash := rfl
@[simp] theorem State.modTm_power (s : State) (f : Membership → Membership) : (s.modTm f).main.power = s.main.power := rfl
@[simp] theorem State.modTm_nt (s : State) (f : Membership → Membership) : (s.modTm f).main.nt = s.main.nt := rfl
@[simp] theorem State.modTm_ma (s : State) (f : Membership → Membership) : (s.modTm f).main.ma = s.main.ma := rfl
@[simp] theorem State.modTm_up (s : State) (f : Membership → Membership) : (s.modTm f).main.up = s.main.up := rfl
@[simp] theorem State.modTm_tb (s : State) (f : Membership → Membership) : (s.modTm f).main.tb = s.main.tb := rfl
@[simp] theorem State.modTm_mp (s : State) (f : Membership → Membership) : (s.modTm f).main.mp = s.main.mp := rfl
@[simp] theorem State.modTm_em (s : State) (f : Membership → Membership) : (s.modTm f).main.em = s.main.em := rfl
@[simp] theorem State.modTm_st (s : State) (f : Membership → Membership) : (s.modTm f).main.st = s.main.st := rfl
@[simp] theorem State.modTm_sk (s : State) (f : Membership → Membership) : (s.modTm f).main.sk = s.main.sk := rfl
@[simp] theorem State.modTm_mm (s : State) (f : Membership → Membership) : (s.modTm f).main.mm = s.main.mm := rfl
@[simp] theorem State.modTm_ln (s : State) (f : Membership → Membership) : (s.modTm f).main.ln = s.main.ln := rfl
@[simp] theorem State.modTm_td (s : State) (f : Membership → Membership) : (s.modTm f).main.td = s.main.td := rfl
@[simp] theorem State.modTm_tm (s : State) (f : Membership → Membership) : (s.modTm f).main.tm = f s.main.tm := rfl
@[simp] theorem State.modTm_cy (s : State) (f : Membership → Membership) : (s.modTm f).main.cy = s.main.cy := rfl
@[simp] theorem State.modTm_pc (s : State) (f : Membership → Membership) : (s.modTm f).main.pc = s.main.pc := rfl
@[simp] theorem State.modTm_wa (s : State) (f : Membership → Membership) : (s.modTm f).main.wa = s.main.wa := rfl
@[simp] theorem State.modTm_pw (s : State) (f : Membership → Membership) : (s.modTm f).main.pw = s.main.pw := rfl

/-! ### modTrib -/

@[simp] theorem State.modTrib_pending (s : State) (t : Nat) (f : Trib → Trib) : (s.modTrib t f).pending = s.pending := rfl
@[simp] theorem State.modTrib_now (s : State) (t : Nat) (f : Trib → Trib) : (s.modTrib t f).now = s.now := rfl
@[simp] theorem State.modTrib_freeIdx (s : State) (t : Nat) (f : Trib → Trib) : (s.modTrib t f).freeIdx = s.freeIdx := rfl
@[simp] theorem State.modTrib_cycle (s : State) (t : Nat) (f : Trib → Trib) : (s.modTrib t f).cycle = s.cycle := rfl
@[simp] theorem State.modTrib_pulses (s : State) (t : Nat) (f : Trib → Trib) : (s.modTrib t f).pulses = s.pulses := rfl
@[simp] theorem State.modTrib_regs (s : State) (t : Nat) (f : Trib → Trib) : (s.modTrib t f).regs = s.regs := rfl
@[simp] theorem State.modTrib_minSec (s : State) (t : Nat) (f : Trib → Trib) : (s.modTrib t f).minSec = s.minSec := rfl
@[simp] theorem State.modTrib_flash (s : State) (t : Nat) (f : Trib → Trib) : (s.modTrib t f).flash = s.flash := rfl
@[simp] theorem State.modTrib_hearth (s : State) (t : Nat) (f : Trib → Trib) : (s.modTrib t f).hearth = s.hearth := rfl
@[simp] theorem State.modTrib_out (s : State) (t : Nat) (f : Trib → Trib) : (s.modTrib t f).main.out = s.main.out := rfl
@[simp] theorem State.modTrib_boot (s : State) (t : Nat) (f : Trib → Trib) : (s.modTrib t f).main.boot = s.main.boot := rfl
@[simp] theorem State.modTrib_cmd (s : State) (t : Nat) (f : Trib → Trib) : (s.modTrib t f).main.cmd = s.main.cmd := rfl
@[simp] theorem State.modTrib_ash (s : State) (t : Nat) (f : Trib → Trib) : (s.modTrib t f).main.ash = s.main.ash := rfl
@[simp] theorem State.modTrib_power (s : State) (t : Nat) (f : Trib → Trib) : (s.modTrib t f).main.power = s.main.power := rfl
@[simp] theorem State.modTrib_nt (s : State) (t : Nat) (f : Trib → Trib) : (s.modTrib t f).main.nt = s.main.nt := rfl
@[simp] theorem State.modTrib_ma (s : State) (t : Nat) (f : Trib → Trib) : (s.modTrib t f).main.ma = s.main.ma := rfl
@[simp] theorem State.modTrib_up (s : State) (t : Nat) (f : Trib → Trib) : (s.modTrib t f).main.up = s.main.up := rfl
@[simp] theorem State.modTrib_mp (s : State) (t : Nat) (f : Trib → Trib) : (s.modTrib t f).main.mp = s.main.mp := rfl
@[simp] theorem State.modTrib_em (s : State) (t : Nat) (f : Trib → Trib) : (s.modTrib t f).main.em = s.main.em := rfl
@[simp] theorem State.modTrib_st (s : State) (t : Nat) (f : Trib → Trib) : (s.modTrib t f).main.st = s.main.st := rfl
@[simp] theorem State.modTrib_sk (s : State) (t : Nat) (f : Trib → Trib) : (s.modTrib t f).main.sk = s.main.sk := rfl
@[simp] theorem State.modTrib_mm (s : State) (t : Nat) (f : Trib → Trib) : (s.modTrib t f).main.mm = s.main.mm := rfl
@[simp] theorem State.modTrib_ln (s : State) (t : Nat) (f : Trib → Trib) : (s.modTrib t f).main.ln = s.main.ln := rfl
@[simp] theorem State.modTrib_td (s : State) (t : Nat) (f : Trib → Trib) : (s.modTrib t f).main.td = s.main.td := rfl
@[simp] theorem State.modTrib_tm (s : State) (t : Nat) (f : Trib → Trib) : (s.modTrib t f).main.tm = s.main.tm := rfl
@[simp] theorem State.modTrib_cy (s : State) (t : Nat) (f : Trib → Trib) : (s.modTrib t f).main.cy = s.main.cy := rfl
@[simp] theorem State.modTrib_pc (s : State) (t : Nat) (f : Trib → Trib) : (s.modTrib t f).main.pc = s.main.pc := rfl
@[simp] theorem State.modTrib_wa (s : State) (t : Nat) (f : Trib → Trib) : (s.modTrib t f).main.wa = s.main.wa := rfl
@[simp] theorem State.modTrib_pw (s : State) (t : Nat) (f : Trib → Trib) : (s.modTrib t f).main.pw = s.main.pw := rfl

/-! ### modUp -/

@[simp] theorem State.modUp_pending (s : State) (f : Upstream → Upstream) : (s.modUp f).pending = s.pending := rfl
@[simp] theorem State.modUp_now (s : State) (f : Upstream → Upstream) : (s.modUp f).now = s.now := rfl
@[simp] theorem State.modUp_freeIdx (s : State) (f : Upstream → Upstream) : (s.modUp f).freeIdx = s.freeIdx := rfl
@[simp] theorem State.modUp_cycle (s : State) (f : Upstream → Upstream) : (s.modUp f).cycle = s.cycle := rfl
@[simp] theorem State.modUp_pulses (s : State) (f : Upstream → Upstream) : (s.modUp f).pulses = s.pulses := rfl
@[simp] theorem State.modUp_regs (s : State) (f : Upstream → Upstream) : (s.modUp f).regs = s.regs := rfl
@[simp] theorem State.modUp_minSec (s : State) (f : Upstream → Upstream) : (s.modUp f).minSec = s.minSec := rfl
@[simp] theorem State.modUp_flash (s : State) (f : Upstream → Upstream) : (s.modUp f).flash = s.flash := rfl
@[simp] theorem State.modUp_hearth (s : State) (f : Upstream → Upstream) : (s.modUp f).hearth = s.hearth := rfl
@[simp] theorem State.modUp_out (s : State) (f : Upstream → Upstream) : (s.modUp f).main.out = s.main.out := rfl
@[simp] theorem State.modUp_boot (s : State) (f : Upstream → Upstream) : (s.modUp f).main.boot = s.main.boot := rfl
@[simp] theorem State.modUp_cmd (s : State) (f : Upstream → Upstream) : (s.modUp f).main.cmd = s.main.cmd := rfl
@[simp] theorem State.modUp_ash (s : State) (f : Upstream → Upstream) : (s.modUp f).main.ash = s.main.ash := rfl
@[simp] theorem State.modUp_power (s : State) (f : Upstream → Upstream) : (s.modUp f).main.power = s.main.power := rfl
@[simp] theorem State.modUp_nt (s : State) (f : Upstream → Upstream) : (s.modUp f).main.nt = s.main.nt := rfl
@[simp] theorem State.modUp_ma (s : State) (f : Upstream → Upstream) : (s.modUp f).main.ma = s.main.ma := rfl
@[simp] theorem State.modUp_up (s : State) (f : Upstream → Upstream) : (s.modUp f).main.up = f s.main.up := rfl
@[simp] theorem State.modUp_tb (s : State) (f : Upstream → Upstream) : (s.modUp f).main.tb = s.main.tb := rfl
@[simp] theorem State.modUp_mp (s : State) (f : Upstream → Upstream) : (s.modUp f).main.mp = s.main.mp := rfl
@[simp] theorem State.modUp_em (s : State) (f : Upstream → Upstream) : (s.modUp f).main.em = s.main.em := rfl
@[simp] theorem State.modUp_st (s : State) (f : Upstream → Upstream) : (s.modUp f).main.st = s.main.st := rfl
@[simp] theorem State.modUp_sk (s : State) (f : Upstream → Upstream) : (s.modUp f).main.sk = s.main.sk := rfl
@[simp] theorem State.modUp_mm (s : State) (f : Upstream → Upstream) : (s.modUp f).main.mm = s.main.mm := rfl
@[simp] theorem State.modUp_ln (s : State) (f : Upstream → Upstream) : (s.modUp f).main.ln = s.main.ln := rfl
@[simp] theorem State.modUp_td (s : State) (f : Upstream → Upstream) : (s.modUp f).main.td = s.main.td := rfl
@[simp] theorem State.modUp_tm (s : State) (f : Upstream → Upstream) : (s.modUp f).main.tm = s.main.tm := rfl
@[simp] theorem State.modUp_cy (s : State) (f : Upstream → Upstream) : (s.modUp f).main.cy = s.main.cy := rfl
@[simp] theorem State.modUp_pc (s : State) (f : Upstream → Upstream) : (s.modUp f).main.pc = s.main.pc := rfl
@[simp] theorem State.modUp_wa (s : State) (f : Upstream → Upstream) : (s.modUp f).main.wa = s.main.wa := rfl
@[simp] theorem State.modUp_pw (s : State) (f : Upstream → Upstream) : (s.modUp f).main.pw = s.main.pw := rfl

/-! ### modWa -/

@[simp] theorem State.modWa_pending (s : State) (f : Watch → Watch) : (s.modWa f).pending = s.pending := rfl
@[simp] theorem State.modWa_now (s : State) (f : Watch → Watch) : (s.modWa f).now = s.now := rfl
@[simp] theorem State.modWa_freeIdx (s : State) (f : Watch → Watch) : (s.modWa f).freeIdx = s.freeIdx := rfl
@[simp] theorem State.modWa_cycle (s : State) (f : Watch → Watch) : (s.modWa f).cycle = s.cycle := rfl
@[simp] theorem State.modWa_pulses (s : State) (f : Watch → Watch) : (s.modWa f).pulses = s.pulses := rfl
@[simp] theorem State.modWa_regs (s : State) (f : Watch → Watch) : (s.modWa f).regs = s.regs := rfl
@[simp] theorem State.modWa_minSec (s : State) (f : Watch → Watch) : (s.modWa f).minSec = s.minSec := rfl
@[simp] theorem State.modWa_flash (s : State) (f : Watch → Watch) : (s.modWa f).flash = s.flash := rfl
@[simp] theorem State.modWa_hearth (s : State) (f : Watch → Watch) : (s.modWa f).hearth = s.hearth := rfl
@[simp] theorem State.modWa_out (s : State) (f : Watch → Watch) : (s.modWa f).main.out = s.main.out := rfl
@[simp] theorem State.modWa_boot (s : State) (f : Watch → Watch) : (s.modWa f).main.boot = s.main.boot := rfl
@[simp] theorem State.modWa_cmd (s : State) (f : Watch → Watch) : (s.modWa f).main.cmd = s.main.cmd := rfl
@[simp] theorem State.modWa_ash (s : State) (f : Watch → Watch) : (s.modWa f).main.ash = s.main.ash := rfl
@[simp] theorem State.modWa_power (s : State) (f : Watch → Watch) : (s.modWa f).main.power = s.main.power := rfl
@[simp] theorem State.modWa_nt (s : State) (f : Watch → Watch) : (s.modWa f).main.nt = s.main.nt := rfl
@[simp] theorem State.modWa_ma (s : State) (f : Watch → Watch) : (s.modWa f).main.ma = s.main.ma := rfl
@[simp] theorem State.modWa_up (s : State) (f : Watch → Watch) : (s.modWa f).main.up = s.main.up := rfl
@[simp] theorem State.modWa_tb (s : State) (f : Watch → Watch) : (s.modWa f).main.tb = s.main.tb := rfl
@[simp] theorem State.modWa_mp (s : State) (f : Watch → Watch) : (s.modWa f).main.mp = s.main.mp := rfl
@[simp] theorem State.modWa_em (s : State) (f : Watch → Watch) : (s.modWa f).main.em = s.main.em := rfl
@[simp] theorem State.modWa_st (s : State) (f : Watch → Watch) : (s.modWa f).main.st = s.main.st := rfl
@[simp] theorem State.modWa_sk (s : State) (f : Watch → Watch) : (s.modWa f).main.sk = s.main.sk := rfl
@[simp] theorem State.modWa_mm (s : State) (f : Watch → Watch) : (s.modWa f).main.mm = s.main.mm := rfl
@[simp] theorem State.modWa_ln (s : State) (f : Watch → Watch) : (s.modWa f).main.ln = s.main.ln := rfl
@[simp] theorem State.modWa_td (s : State) (f : Watch → Watch) : (s.modWa f).main.td = s.main.td := rfl
@[simp] theorem State.modWa_tm (s : State) (f : Watch → Watch) : (s.modWa f).main.tm = s.main.tm := rfl
@[simp] theorem State.modWa_cy (s : State) (f : Watch → Watch) : (s.modWa f).main.cy = s.main.cy := rfl
@[simp] theorem State.modWa_pc (s : State) (f : Watch → Watch) : (s.modWa f).main.pc = s.main.pc := rfl
@[simp] theorem State.modWa_wa (s : State) (f : Watch → Watch) : (s.modWa f).main.wa = f s.main.wa := rfl
@[simp] theorem State.modWa_pw (s : State) (f : Watch → Watch) : (s.modWa f).main.pw = s.main.pw := rfl

/-! ### setWord -/

@[simp] theorem State.setWord_pending (s : State) (a v : Nat) : (s.setWord a v).pending = s.pending := rfl
@[simp] theorem State.setWord_now (s : State) (a v : Nat) : (s.setWord a v).now = s.now := rfl
@[simp] theorem State.setWord_freeIdx (s : State) (a v : Nat) : (s.setWord a v).freeIdx = s.freeIdx := rfl
@[simp] theorem State.setWord_cycle (s : State) (a v : Nat) : (s.setWord a v).cycle = s.cycle := rfl
@[simp] theorem State.setWord_pulses (s : State) (a v : Nat) : (s.setWord a v).pulses = s.pulses := rfl
@[simp] theorem State.setWord_minSec (s : State) (a v : Nat) : (s.setWord a v).minSec = s.minSec := rfl
@[simp] theorem State.setWord_flash (s : State) (a v : Nat) : (s.setWord a v).flash = s.flash := rfl
@[simp] theorem State.setWord_hearth (s : State) (a v : Nat) : (s.setWord a v).hearth = s.hearth := rfl
@[simp] theorem State.setWord_main (s : State) (a v : Nat) : (s.setWord a v).main = s.main := rfl

/-! ### setFld -/

@[simp] theorem State.setFld_pending (s : State) (a hi lo v : Nat) : (s.setFld a hi lo v).pending = s.pending := rfl
@[simp] theorem State.setFld_now (s : State) (a hi lo v : Nat) : (s.setFld a hi lo v).now = s.now := rfl
@[simp] theorem State.setFld_freeIdx (s : State) (a hi lo v : Nat) : (s.setFld a hi lo v).freeIdx = s.freeIdx := rfl
@[simp] theorem State.setFld_cycle (s : State) (a hi lo v : Nat) : (s.setFld a hi lo v).cycle = s.cycle := rfl
@[simp] theorem State.setFld_pulses (s : State) (a hi lo v : Nat) : (s.setFld a hi lo v).pulses = s.pulses := rfl
@[simp] theorem State.setFld_minSec (s : State) (a hi lo v : Nat) : (s.setFld a hi lo v).minSec = s.minSec := rfl
@[simp] theorem State.setFld_flash (s : State) (a hi lo v : Nat) : (s.setFld a hi lo v).flash = s.flash := rfl
@[simp] theorem State.setFld_hearth (s : State) (a hi lo v : Nat) : (s.setFld a hi lo v).hearth = s.hearth := rfl
@[simp] theorem State.setFld_main (s : State) (a hi lo v : Nat) : (s.setFld a hi lo v).main = s.main := rfl

/-! ### countN -/

@[simp] theorem State.countN_pending (s : State) (a hi lo n : Nat) : (s.countN a hi lo n).pending = s.pending := rfl
@[simp] theorem State.countN_now (s : State) (a hi lo n : Nat) : (s.countN a hi lo n).now = s.now := rfl
@[simp] theorem State.countN_freeIdx (s : State) (a hi lo n : Nat) : (s.countN a hi lo n).freeIdx = s.freeIdx := rfl
@[simp] theorem State.countN_pulses (s : State) (a hi lo n : Nat) : (s.countN a hi lo n).pulses = s.pulses := rfl
@[simp] theorem State.countN_minSec (s : State) (a hi lo n : Nat) : (s.countN a hi lo n).minSec = s.minSec := rfl
@[simp] theorem State.countN_flash (s : State) (a hi lo n : Nat) : (s.countN a hi lo n).flash = s.flash := rfl
@[simp] theorem State.countN_hearth (s : State) (a hi lo n : Nat) : (s.countN a hi lo n).hearth = s.hearth := rfl
@[simp] theorem State.countN_main (s : State) (a hi lo n : Nat) : (s.countN a hi lo n).main = s.main := rfl

/-! ### count -/

@[simp] theorem State.count_pending (s : State) (a hi lo : Nat) : (s.count a hi lo).pending = s.pending := rfl
@[simp] theorem State.count_now (s : State) (a hi lo : Nat) : (s.count a hi lo).now = s.now := rfl
@[simp] theorem State.count_freeIdx (s : State) (a hi lo : Nat) : (s.count a hi lo).freeIdx = s.freeIdx := rfl
@[simp] theorem State.count_pulses (s : State) (a hi lo : Nat) : (s.count a hi lo).pulses = s.pulses := rfl
@[simp] theorem State.count_minSec (s : State) (a hi lo : Nat) : (s.count a hi lo).minSec = s.minSec := rfl
@[simp] theorem State.count_flash (s : State) (a hi lo : Nat) : (s.count a hi lo).flash = s.flash := rfl
@[simp] theorem State.count_hearth (s : State) (a hi lo : Nat) : (s.count a hi lo).hearth = s.hearth := rfl
@[simp] theorem State.count_main (s : State) (a hi lo : Nat) : (s.count a hi lo).main = s.main := rfl

/-! ### countWrap -/

@[simp] theorem State.countWrap_pending (s : State) (a hi lo n : Nat) : (s.countWrap a hi lo n).pending = s.pending := rfl
@[simp] theorem State.countWrap_now (s : State) (a hi lo n : Nat) : (s.countWrap a hi lo n).now = s.now := rfl
@[simp] theorem State.countWrap_freeIdx (s : State) (a hi lo n : Nat) : (s.countWrap a hi lo n).freeIdx = s.freeIdx := rfl
@[simp] theorem State.countWrap_pulses (s : State) (a hi lo n : Nat) : (s.countWrap a hi lo n).pulses = s.pulses := rfl
@[simp] theorem State.countWrap_minSec (s : State) (a hi lo n : Nat) : (s.countWrap a hi lo n).minSec = s.minSec := rfl
@[simp] theorem State.countWrap_flash (s : State) (a hi lo n : Nat) : (s.countWrap a hi lo n).flash = s.flash := rfl
@[simp] theorem State.countWrap_hearth (s : State) (a hi lo n : Nat) : (s.countWrap a hi lo n).hearth = s.hearth := rfl
@[simp] theorem State.countWrap_main (s : State) (a hi lo n : Nat) : (s.countWrap a hi lo n).main = s.main := rfl

/-! ### latchFld -/

@[simp] theorem State.latchFld_pending (s : State) (a hi lo v : Nat) : (s.latchFld a hi lo v).pending = s.pending := rfl
@[simp] theorem State.latchFld_now (s : State) (a hi lo v : Nat) : (s.latchFld a hi lo v).now = s.now := rfl
@[simp] theorem State.latchFld_freeIdx (s : State) (a hi lo v : Nat) : (s.latchFld a hi lo v).freeIdx = s.freeIdx := rfl
@[simp] theorem State.latchFld_pulses (s : State) (a hi lo v : Nat) : (s.latchFld a hi lo v).pulses = s.pulses := rfl
@[simp] theorem State.latchFld_minSec (s : State) (a hi lo v : Nat) : (s.latchFld a hi lo v).minSec = s.minSec := rfl
@[simp] theorem State.latchFld_flash (s : State) (a hi lo v : Nat) : (s.latchFld a hi lo v).flash = s.flash := rfl
@[simp] theorem State.latchFld_hearth (s : State) (a hi lo v : Nat) : (s.latchFld a hi lo v).hearth = s.hearth := rfl
@[simp] theorem State.latchFld_main (s : State) (a hi lo v : Nat) : (s.latchFld a hi lo v).main = s.main := rfl

/-! ### ringWrite -/

@[simp] theorem State.ringWrite_pending (s : State) (b : List Byte) : (s.ringWrite b).pending = s.pending := by
  simp only [State.ringWrite]
@[simp] theorem State.ringWrite_now (s : State) (b : List Byte) : (s.ringWrite b).now = s.now := by
  simp only [State.ringWrite]
@[simp] theorem State.ringWrite_freeIdx (s : State) (b : List Byte) : (s.ringWrite b).freeIdx = s.freeIdx := by
  simp only [State.ringWrite]
@[simp] theorem State.ringWrite_cycle (s : State) (b : List Byte) : (s.ringWrite b).cycle = s.cycle := by
  simp only [State.ringWrite]
@[simp] theorem State.ringWrite_pulses (s : State) (b : List Byte) : (s.ringWrite b).pulses = s.pulses := by
  simp only [State.ringWrite]
@[simp] theorem State.ringWrite_regs (s : State) (b : List Byte) : (s.ringWrite b).regs = s.regs := by
  simp only [State.ringWrite]
@[simp] theorem State.ringWrite_minSec (s : State) (b : List Byte) : (s.ringWrite b).minSec = s.minSec := by
  simp only [State.ringWrite]
@[simp] theorem State.ringWrite_flash (s : State) (b : List Byte) : (s.ringWrite b).flash = s.flash := by
  simp only [State.ringWrite]
@[simp] theorem State.ringWrite_main (s : State) (b : List Byte) : (s.ringWrite b).main = s.main := by
  simp only [State.ringWrite]
@[simp] theorem State.ringWrite_hearth_running (s : State) (b : List Byte) : (s.ringWrite b).hearth.running = s.hearth.running := by
  simp only [State.ringWrite]
@[simp] theorem State.ringWrite_hearth_aonMv (s : State) (b : List Byte) : (s.ringWrite b).hearth.aonMv = s.hearth.aonMv := by
  simp only [State.ringWrite]
@[simp] theorem State.ringWrite_hearth_vbatMv (s : State) (b : List Byte) : (s.ringWrite b).hearth.vbatMv = s.hearth.vbatMv := by
  simp only [State.ringWrite]
@[simp] theorem State.ringWrite_hearth_onVbat (s : State) (b : List Byte) : (s.ringWrite b).hearth.onVbat = s.hearth.onVbat := by
  simp only [State.ringWrite]
@[simp] theorem State.ringWrite_hearth_time (s : State) (b : List Byte) : (s.ringWrite b).hearth.time = s.hearth.time := by
  simp only [State.ringWrite]
@[simp] theorem State.ringWrite_hearth_phase (s : State) (b : List Byte) : (s.ringWrite b).hearth.phase = s.hearth.phase := by
  simp only [State.ringWrite]
@[simp] theorem State.ringWrite_hearth_cycles (s : State) (b : List Byte) : (s.ringWrite b).hearth.cycles = s.hearth.cycles := by
  simp only [State.ringWrite]
@[simp] theorem State.ringWrite_hearth_xtalFault (s : State) (b : List Byte) : (s.ringWrite b).hearth.xtalFault = s.hearth.xtalFault := by
  simp only [State.ringWrite]
@[simp] theorem State.ringWrite_hearth_aligned (s : State) (b : List Byte) : (s.ringWrite b).hearth.aligned = s.hearth.aligned := by
  simp only [State.ringWrite]
@[simp] theorem State.ringWrite_hearth_held (s : State) (b : List Byte) : (s.ringWrite b).hearth.held = s.hearth.held := by
  simp only [State.ringWrite]
@[simp] theorem State.ringWrite_hearth_keys (s : State) (b : List Byte) : (s.ringWrite b).hearth.keys = s.hearth.keys := by
  simp only [State.ringWrite]
@[simp] theorem State.ringWrite_hearth_resCode (s : State) (b : List Byte) : (s.ringWrite b).hearth.resCode = s.hearth.resCode := by
  simp only [State.ringWrite]
@[simp] theorem State.ringWrite_hearth_resE (s : State) (b : List Byte) : (s.ringWrite b).hearth.resE = s.hearth.resE := by
  simp only [State.ringWrite]
@[simp] theorem State.ringWrite_hearth_resFault (s : State) (b : List Byte) : (s.ringWrite b).hearth.resFault = s.hearth.resFault := by
  simp only [State.ringWrite]
@[simp] theorem State.ringWrite_hearth_psuOk (s : State) (b : List Byte) : (s.ringWrite b).hearth.psuOk = s.hearth.psuOk := by
  simp only [State.ringWrite]
@[simp] theorem State.ringWrite_hearth_onReserve (s : State) (b : List Byte) : (s.ringWrite b).hearth.onReserve = s.hearth.onReserve := by
  simp only [State.ringWrite]
@[simp] theorem State.ringWrite_hearth_psuFell (s : State) (b : List Byte) : (s.ringWrite b).hearth.psuFell = s.hearth.psuFell := by
  simp only [State.ringWrite]
@[simp] theorem State.ringWrite_hearth_ps (s : State) (b : List Byte) : (s.ringWrite b).hearth.ps = s.hearth.ps := by
  simp only [State.ringWrite]
@[simp] theorem State.ringWrite_hearth_pen (s : State) (b : List Byte) : (s.ringWrite b).hearth.pen = s.hearth.pen := by
  simp only [State.ringWrite]
@[simp] theorem State.ringWrite_hearth_penRise (s : State) (b : List Byte) : (s.ringWrite b).hearth.penRise = s.hearth.penRise := by
  simp only [State.ringWrite]
@[simp] theorem State.ringWrite_hearth_wakeSrc (s : State) (b : List Byte) : (s.ringWrite b).hearth.wakeSrc = s.hearth.wakeSrc := by
  simp only [State.ringWrite]
@[simp] theorem State.ringWrite_hearth_cause (s : State) (b : List Byte) : (s.ringWrite b).hearth.cause = s.hearth.cause := by
  simp only [State.ringWrite]
@[simp] theorem State.ringWrite_hearth_railResets (s : State) (b : List Byte) : (s.ringWrite b).hearth.railResets = s.hearth.railResets := by
  simp only [State.ringWrite]
@[simp] theorem State.ringWrite_hearth_lockout (s : State) (b : List Byte) : (s.ringWrite b).hearth.lockout = s.hearth.lockout := by
  simp only [State.ringWrite]
@[simp] theorem State.ringWrite_hearth_lockoutLow (s : State) (b : List Byte) : (s.ringWrite b).hearth.lockoutLow = s.hearth.lockoutLow := by
  simp only [State.ringWrite]
@[simp] theorem State.ringWrite_hearth_retryAt (s : State) (b : List Byte) : (s.ringWrite b).hearth.retryAt = s.hearth.retryAt := by
  simp only [State.ringWrite]
@[simp] theorem State.ringWrite_hearth_restartAt (s : State) (b : List Byte) : (s.ringWrite b).hearth.restartAt = s.hearth.restartAt := by
  simp only [State.ringWrite]
@[simp] theorem State.ringWrite_hearth_minBlaze (s : State) (b : List Byte) : (s.ringWrite b).hearth.minBlaze = s.hearth.minBlaze := by
  simp only [State.ringWrite]
@[simp] theorem State.ringWrite_hearth_cutFlush (s : State) (b : List Byte) : (s.ringWrite b).hearth.cutFlush = s.hearth.cutFlush := by
  simp only [State.ringWrite]
@[simp] theorem State.ringWrite_hearth_treeRec (s : State) (b : List Byte) : (s.ringWrite b).hearth.treeRec = s.hearth.treeRec := by
  simp only [State.ringWrite]
@[simp] theorem State.ringWrite_hearth_start (s : State) (b : List Byte) : (s.ringWrite b).hearth.start = s.hearth.start := by
  simp only [State.ringWrite]
@[simp] theorem State.ringWrite_hearth_damaged (s : State) (b : List Byte) : (s.ringWrite b).hearth.damaged = s.hearth.damaged := by
  simp only [State.ringWrite]
@[simp] theorem State.ringWrite_hearth_clipsLost (s : State) (b : List Byte) : (s.ringWrite b).hearth.clipsLost = s.hearth.clipsLost := by
  simp only [State.ringWrite]
@[simp] theorem State.ringWrite_hearth_supHold (s : State) (b : List Byte) : (s.ringWrite b).hearth.supHold = s.hearth.supHold := by
  simp only [State.ringWrite]
@[simp] theorem State.ringWrite_hearth_otherSince (s : State) (b : List Byte) : (s.ringWrite b).hearth.otherSince = s.hearth.otherSince := by
  simp only [State.ringWrite]
@[simp] theorem State.ringWrite_hearth_xtalSec (s : State) (b : List Byte) : (s.ringWrite b).hearth.xtalSec = s.hearth.xtalSec := by
  simp only [State.ringWrite]
@[simp] theorem State.ringWrite_hearth_stepped (s : State) (b : List Byte) : (s.ringWrite b).hearth.stepped = s.hearth.stepped := by
  simp only [State.ringWrite]
@[simp] theorem State.ringWrite_hearth_tampNow (s : State) (b : List Byte) : (s.ringWrite b).hearth.tampNow = s.hearth.tampNow := by
  simp only [State.ringWrite]
@[simp] theorem State.ringWrite_hearth_lfsr (s : State) (b : List Byte) : (s.ringWrite b).hearth.lfsr = s.hearth.lfsr := by
  simp only [State.ringWrite]
@[simp] theorem State.ringWrite_hearth_lfsrAt (s : State) (b : List Byte) : (s.ringWrite b).hearth.lfsrAt = s.hearth.lfsrAt := by
  simp only [State.ringWrite]
@[simp] theorem State.ringWrite_hearth_meshBroken (s : State) (b : List Byte) : (s.ringWrite b).hearth.meshBroken = s.hearth.meshBroken := by
  simp only [State.ringWrite]
@[simp] theorem State.ringWrite_hearth_cellCode (s : State) (b : List Byte) : (s.ringWrite b).hearth.cellCode = s.hearth.cellCode := by
  simp only [State.ringWrite]
@[simp] theorem State.ringWrite_hearth_cellLow (s : State) (b : List Byte) : (s.ringWrite b).hearth.cellLow = s.hearth.cellLow := by
  simp only [State.ringWrite]
@[simp] theorem State.ringWrite_hearth_cellAbsent (s : State) (b : List Byte) : (s.ringWrite b).hearth.cellAbsent = s.hearth.cellAbsent := by
  simp only [State.ringWrite]
@[simp] theorem State.ringWrite_hearth_cellRun (s : State) (b : List Byte) : (s.ringWrite b).hearth.cellRun = s.hearth.cellRun := by
  simp only [State.ringWrite]
@[simp] theorem State.ringWrite_hearth_minMore (s : State) (b : List Byte) : (s.ringWrite b).hearth.minMore = s.hearth.minMore := by
  simp only [State.ringWrite]
@[simp] theorem State.ringWrite_hearth_railsUp (s : State) (b : List Byte) : (s.ringWrite b).hearth.railsUp = s.hearth.railsUp := by
  simp only [State.ringWrite]
@[simp] theorem State.ringWrite_hearth_railsFrom (s : State) (b : List Byte) : (s.ringWrite b).hearth.railsFrom = s.hearth.railsFrom := by
  simp only [State.ringWrite]
@[simp] theorem State.ringWrite_hearth_rstHighAt (s : State) (b : List Byte) : (s.ringWrite b).hearth.rstHighAt = s.hearth.rstHighAt := by
  simp only [State.ringWrite]
@[simp] theorem State.ringWrite_hearth_flushOwed (s : State) (b : List Byte) : (s.ringWrite b).hearth.flushOwed = s.hearth.flushOwed := by
  simp only [State.ringWrite]
@[simp] theorem State.ringWrite_hearth_maps (s : State) (b : List Byte) : (s.ringWrite b).hearth.maps = s.hearth.maps := by
  simp only [State.ringWrite]
@[simp] theorem State.ringWrite_hearth_repairLog (s : State) (b : List Byte) : (s.ringWrite b).hearth.repairLog = s.hearth.repairLog := by
  simp only [State.ringWrite]

/-! ### ashHearth -/

@[simp] theorem State.ashHearth_pending (s : State) (source kind : Nat) (d : List Byte) : (s.ashHearth source kind d).pending = s.pending := State.ringWrite_pending _ _
@[simp] theorem State.ashHearth_now (s : State) (source kind : Nat) (d : List Byte) : (s.ashHearth source kind d).now = s.now := State.ringWrite_now _ _
@[simp] theorem State.ashHearth_freeIdx (s : State) (source kind : Nat) (d : List Byte) : (s.ashHearth source kind d).freeIdx = s.freeIdx := State.ringWrite_freeIdx _ _
@[simp] theorem State.ashHearth_cycle (s : State) (source kind : Nat) (d : List Byte) : (s.ashHearth source kind d).cycle = s.cycle := State.ringWrite_cycle _ _
@[simp] theorem State.ashHearth_pulses (s : State) (source kind : Nat) (d : List Byte) : (s.ashHearth source kind d).pulses = s.pulses := State.ringWrite_pulses _ _
@[simp] theorem State.ashHearth_regs (s : State) (source kind : Nat) (d : List Byte) : (s.ashHearth source kind d).regs = s.regs := State.ringWrite_regs _ _
@[simp] theorem State.ashHearth_minSec (s : State) (source kind : Nat) (d : List Byte) : (s.ashHearth source kind d).minSec = s.minSec := State.ringWrite_minSec _ _
@[simp] theorem State.ashHearth_flash (s : State) (source kind : Nat) (d : List Byte) : (s.ashHearth source kind d).flash = s.flash := State.ringWrite_flash _ _
@[simp] theorem State.ashHearth_main (s : State) (source kind : Nat) (d : List Byte) : (s.ashHearth source kind d).main = s.main := State.ringWrite_main _ _
@[simp] theorem State.ashHearth_hearth_running (s : State) (source kind : Nat) (d : List Byte) : (s.ashHearth source kind d).hearth.running = s.hearth.running := State.ringWrite_hearth_running _ _
@[simp] theorem State.ashHearth_hearth_aonMv (s : State) (source kind : Nat) (d : List Byte) : (s.ashHearth source kind d).hearth.aonMv = s.hearth.aonMv := State.ringWrite_hearth_aonMv _ _
@[simp] theorem State.ashHearth_hearth_vbatMv (s : State) (source kind : Nat) (d : List Byte) : (s.ashHearth source kind d).hearth.vbatMv = s.hearth.vbatMv := State.ringWrite_hearth_vbatMv _ _
@[simp] theorem State.ashHearth_hearth_onVbat (s : State) (source kind : Nat) (d : List Byte) : (s.ashHearth source kind d).hearth.onVbat = s.hearth.onVbat := State.ringWrite_hearth_onVbat _ _
@[simp] theorem State.ashHearth_hearth_time (s : State) (source kind : Nat) (d : List Byte) : (s.ashHearth source kind d).hearth.time = s.hearth.time := State.ringWrite_hearth_time _ _
@[simp] theorem State.ashHearth_hearth_phase (s : State) (source kind : Nat) (d : List Byte) : (s.ashHearth source kind d).hearth.phase = s.hearth.phase := State.ringWrite_hearth_phase _ _
@[simp] theorem State.ashHearth_hearth_cycles (s : State) (source kind : Nat) (d : List Byte) : (s.ashHearth source kind d).hearth.cycles = s.hearth.cycles := State.ringWrite_hearth_cycles _ _
@[simp] theorem State.ashHearth_hearth_xtalFault (s : State) (source kind : Nat) (d : List Byte) : (s.ashHearth source kind d).hearth.xtalFault = s.hearth.xtalFault := State.ringWrite_hearth_xtalFault _ _
@[simp] theorem State.ashHearth_hearth_aligned (s : State) (source kind : Nat) (d : List Byte) : (s.ashHearth source kind d).hearth.aligned = s.hearth.aligned := State.ringWrite_hearth_aligned _ _
@[simp] theorem State.ashHearth_hearth_held (s : State) (source kind : Nat) (d : List Byte) : (s.ashHearth source kind d).hearth.held = s.hearth.held := State.ringWrite_hearth_held _ _
@[simp] theorem State.ashHearth_hearth_keys (s : State) (source kind : Nat) (d : List Byte) : (s.ashHearth source kind d).hearth.keys = s.hearth.keys := State.ringWrite_hearth_keys _ _
@[simp] theorem State.ashHearth_hearth_resCode (s : State) (source kind : Nat) (d : List Byte) : (s.ashHearth source kind d).hearth.resCode = s.hearth.resCode := State.ringWrite_hearth_resCode _ _
@[simp] theorem State.ashHearth_hearth_resE (s : State) (source kind : Nat) (d : List Byte) : (s.ashHearth source kind d).hearth.resE = s.hearth.resE := State.ringWrite_hearth_resE _ _
@[simp] theorem State.ashHearth_hearth_resFault (s : State) (source kind : Nat) (d : List Byte) : (s.ashHearth source kind d).hearth.resFault = s.hearth.resFault := State.ringWrite_hearth_resFault _ _
@[simp] theorem State.ashHearth_hearth_psuOk (s : State) (source kind : Nat) (d : List Byte) : (s.ashHearth source kind d).hearth.psuOk = s.hearth.psuOk := State.ringWrite_hearth_psuOk _ _
@[simp] theorem State.ashHearth_hearth_onReserve (s : State) (source kind : Nat) (d : List Byte) : (s.ashHearth source kind d).hearth.onReserve = s.hearth.onReserve := State.ringWrite_hearth_onReserve _ _
@[simp] theorem State.ashHearth_hearth_psuFell (s : State) (source kind : Nat) (d : List Byte) : (s.ashHearth source kind d).hearth.psuFell = s.hearth.psuFell := State.ringWrite_hearth_psuFell _ _
@[simp] theorem State.ashHearth_hearth_ps (s : State) (source kind : Nat) (d : List Byte) : (s.ashHearth source kind d).hearth.ps = s.hearth.ps := State.ringWrite_hearth_ps _ _
@[simp] theorem State.ashHearth_hearth_pen (s : State) (source kind : Nat) (d : List Byte) : (s.ashHearth source kind d).hearth.pen = s.hearth.pen := State.ringWrite_hearth_pen _ _
@[simp] theorem State.ashHearth_hearth_penRise (s : State) (source kind : Nat) (d : List Byte) : (s.ashHearth source kind d).hearth.penRise = s.hearth.penRise := State.ringWrite_hearth_penRise _ _
@[simp] theorem State.ashHearth_hearth_wakeSrc (s : State) (source kind : Nat) (d : List Byte) : (s.ashHearth source kind d).hearth.wakeSrc = s.hearth.wakeSrc := State.ringWrite_hearth_wakeSrc _ _
@[simp] theorem State.ashHearth_hearth_cause (s : State) (source kind : Nat) (d : List Byte) : (s.ashHearth source kind d).hearth.cause = s.hearth.cause := State.ringWrite_hearth_cause _ _
@[simp] theorem State.ashHearth_hearth_railResets (s : State) (source kind : Nat) (d : List Byte) : (s.ashHearth source kind d).hearth.railResets = s.hearth.railResets := State.ringWrite_hearth_railResets _ _
@[simp] theorem State.ashHearth_hearth_lockout (s : State) (source kind : Nat) (d : List Byte) : (s.ashHearth source kind d).hearth.lockout = s.hearth.lockout := State.ringWrite_hearth_lockout _ _
@[simp] theorem State.ashHearth_hearth_lockoutLow (s : State) (source kind : Nat) (d : List Byte) : (s.ashHearth source kind d).hearth.lockoutLow = s.hearth.lockoutLow := State.ringWrite_hearth_lockoutLow _ _
@[simp] theorem State.ashHearth_hearth_retryAt (s : State) (source kind : Nat) (d : List Byte) : (s.ashHearth source kind d).hearth.retryAt = s.hearth.retryAt := State.ringWrite_hearth_retryAt _ _
@[simp] theorem State.ashHearth_hearth_restartAt (s : State) (source kind : Nat) (d : List Byte) : (s.ashHearth source kind d).hearth.restartAt = s.hearth.restartAt := State.ringWrite_hearth_restartAt _ _
@[simp] theorem State.ashHearth_hearth_minBlaze (s : State) (source kind : Nat) (d : List Byte) : (s.ashHearth source kind d).hearth.minBlaze = s.hearth.minBlaze := State.ringWrite_hearth_minBlaze _ _
@[simp] theorem State.ashHearth_hearth_cutFlush (s : State) (source kind : Nat) (d : List Byte) : (s.ashHearth source kind d).hearth.cutFlush = s.hearth.cutFlush := State.ringWrite_hearth_cutFlush _ _
@[simp] theorem State.ashHearth_hearth_treeRec (s : State) (source kind : Nat) (d : List Byte) : (s.ashHearth source kind d).hearth.treeRec = s.hearth.treeRec := State.ringWrite_hearth_treeRec _ _
@[simp] theorem State.ashHearth_hearth_start (s : State) (source kind : Nat) (d : List Byte) : (s.ashHearth source kind d).hearth.start = s.hearth.start := State.ringWrite_hearth_start _ _
@[simp] theorem State.ashHearth_hearth_damaged (s : State) (source kind : Nat) (d : List Byte) : (s.ashHearth source kind d).hearth.damaged = s.hearth.damaged := State.ringWrite_hearth_damaged _ _
@[simp] theorem State.ashHearth_hearth_clipsLost (s : State) (source kind : Nat) (d : List Byte) : (s.ashHearth source kind d).hearth.clipsLost = s.hearth.clipsLost := State.ringWrite_hearth_clipsLost _ _
@[simp] theorem State.ashHearth_hearth_supHold (s : State) (source kind : Nat) (d : List Byte) : (s.ashHearth source kind d).hearth.supHold = s.hearth.supHold := State.ringWrite_hearth_supHold _ _
@[simp] theorem State.ashHearth_hearth_otherSince (s : State) (source kind : Nat) (d : List Byte) : (s.ashHearth source kind d).hearth.otherSince = s.hearth.otherSince := State.ringWrite_hearth_otherSince _ _
@[simp] theorem State.ashHearth_hearth_xtalSec (s : State) (source kind : Nat) (d : List Byte) : (s.ashHearth source kind d).hearth.xtalSec = s.hearth.xtalSec := State.ringWrite_hearth_xtalSec _ _
@[simp] theorem State.ashHearth_hearth_stepped (s : State) (source kind : Nat) (d : List Byte) : (s.ashHearth source kind d).hearth.stepped = s.hearth.stepped := State.ringWrite_hearth_stepped _ _
@[simp] theorem State.ashHearth_hearth_tampNow (s : State) (source kind : Nat) (d : List Byte) : (s.ashHearth source kind d).hearth.tampNow = s.hearth.tampNow := State.ringWrite_hearth_tampNow _ _
@[simp] theorem State.ashHearth_hearth_lfsr (s : State) (source kind : Nat) (d : List Byte) : (s.ashHearth source kind d).hearth.lfsr = s.hearth.lfsr := State.ringWrite_hearth_lfsr _ _
@[simp] theorem State.ashHearth_hearth_lfsrAt (s : State) (source kind : Nat) (d : List Byte) : (s.ashHearth source kind d).hearth.lfsrAt = s.hearth.lfsrAt := State.ringWrite_hearth_lfsrAt _ _
@[simp] theorem State.ashHearth_hearth_meshBroken (s : State) (source kind : Nat) (d : List Byte) : (s.ashHearth source kind d).hearth.meshBroken = s.hearth.meshBroken := State.ringWrite_hearth_meshBroken _ _
@[simp] theorem State.ashHearth_hearth_cellCode (s : State) (source kind : Nat) (d : List Byte) : (s.ashHearth source kind d).hearth.cellCode = s.hearth.cellCode := State.ringWrite_hearth_cellCode _ _
@[simp] theorem State.ashHearth_hearth_cellLow (s : State) (source kind : Nat) (d : List Byte) : (s.ashHearth source kind d).hearth.cellLow = s.hearth.cellLow := State.ringWrite_hearth_cellLow _ _
@[simp] theorem State.ashHearth_hearth_cellAbsent (s : State) (source kind : Nat) (d : List Byte) : (s.ashHearth source kind d).hearth.cellAbsent = s.hearth.cellAbsent := State.ringWrite_hearth_cellAbsent _ _
@[simp] theorem State.ashHearth_hearth_cellRun (s : State) (source kind : Nat) (d : List Byte) : (s.ashHearth source kind d).hearth.cellRun = s.hearth.cellRun := State.ringWrite_hearth_cellRun _ _
@[simp] theorem State.ashHearth_hearth_minMore (s : State) (source kind : Nat) (d : List Byte) : (s.ashHearth source kind d).hearth.minMore = s.hearth.minMore := State.ringWrite_hearth_minMore _ _
@[simp] theorem State.ashHearth_hearth_railsUp (s : State) (source kind : Nat) (d : List Byte) : (s.ashHearth source kind d).hearth.railsUp = s.hearth.railsUp := State.ringWrite_hearth_railsUp _ _
@[simp] theorem State.ashHearth_hearth_railsFrom (s : State) (source kind : Nat) (d : List Byte) : (s.ashHearth source kind d).hearth.railsFrom = s.hearth.railsFrom := State.ringWrite_hearth_railsFrom _ _
@[simp] theorem State.ashHearth_hearth_rstHighAt (s : State) (source kind : Nat) (d : List Byte) : (s.ashHearth source kind d).hearth.rstHighAt = s.hearth.rstHighAt := State.ringWrite_hearth_rstHighAt _ _
@[simp] theorem State.ashHearth_hearth_flushOwed (s : State) (source kind : Nat) (d : List Byte) : (s.ashHearth source kind d).hearth.flushOwed = s.hearth.flushOwed := State.ringWrite_hearth_flushOwed _ _
@[simp] theorem State.ashHearth_hearth_maps (s : State) (source kind : Nat) (d : List Byte) : (s.ashHearth source kind d).hearth.maps = s.hearth.maps := State.ringWrite_hearth_maps _ _
@[simp] theorem State.ashHearth_hearth_repairLog (s : State) (source kind : Nat) (d : List Byte) : (s.ashHearth source kind d).hearth.repairLog = s.hearth.repairLog := State.ringWrite_hearth_repairLog _ _

end Sys2Proof.Machine
end

