-- ==== Sys2Proof/Laws/Command.lean ====
section
/-! SUPPORT. What a command of the master does: the opcode's own function runs on the state with the command in the
operation table. -/

namespace Sys2Proof.Machine

@[simp] theorem State.wake_out (s : State) (n : Nat) : (s.wake n).main.out = s.main.out := by
  unfold State.wake
  dsimp only
  split
  · rfl
  · split
    · split <;> rfl
    · rfl
@[simp] theorem State.wake_boot (s : State) (n : Nat) : (s.wake n).main.boot = s.main.boot := by
  unfold State.wake
  dsimp only
  split
  · rfl
  · split
    · split <;> rfl
    · rfl
@[simp] theorem State.wake_cmd (s : State) (n : Nat) : (s.wake n).main.cmd = s.main.cmd := by
  unfold State.wake
  dsimp only
  split
  · rfl
  · split
    · split <;> rfl
    · rfl

/-- A wake looks at nothing of the command port, and touches nothing of it. -/
theorem State.wake_modCmd (s : State) (n : Nat) (f : Cmd → Cmd) : (s.modCmd f).wake n = (s.wake n).modCmd f := by
  have e : (s.modCmd f).firedCode n = s.firedCode n := rfl
  unfold State.wake
  rw [e]
  simp only [State.modCmd_hearth, State.modCmd_out, State.modCmd_power, State.modPower]
  by_cases h : wakes s.hearth.ps n = true
  · simp only [h, if_true]
    rfl
  · by_cases k : (s.main.out && s.hearth.ps == .blaze && wakes .bank n) = true
    · by_cases j : s.main.power.wokeAt = some s.hearth.cycles
      · simp only [h, k, j, if_true]
        rfl
      · simp only [h, k, j, if_true]
        rfl
    · simp only [h, k]
      rfl

/-- The lead's checks look at the bound transport and at START, and at nothing else of the command port. -/
theorem State.leadChecks_modCmd (x : State) (f : Cmd → Cmd) (op : Nat)
    (hb : (f x.main.cmd).bound = x.main.cmd.bound) (hs : (f x.main.cmd).started = x.main.cmd.started) :
    (x.modCmd f).leadChecks op = x.leadChecks op := by
  have e1 : (x.modCmd f).terminalOk op = x.terminalOk op := by
    simp only [State.terminalOk, State.modCmd, hs]
  have e2 : (x.modCmd f).clearPort = x.clearPort := by
    simp only [State.clearPort, State.modCmd, hb]; rfl
  simp only [State.leadChecks, e1, e2]
  simp only [State.modCmd, hb]

/-- A second wake by the same source in the same cycle of the Hearth clock changes nothing. -/
theorem State.wake_wake (x : State) (h : x.main.out = true) : (x.wake 0x06).wake 0x06 = x.wake 0x06 := by
  have b : wakes .bank 0x06 = true := rfl
  have z : wakes .blaze 0x06 = false := rfl
  have m : x.firedCode 0x06 ≤ 0x06 := by
    unfold State.firedCode
    split
    · split <;> omega
    · omega
  unfold State.firedCode at m
  by_cases w : wakes x.hearth.ps 0x06 = true
  · simp [State.wake, State.modPower, State.firedCode, w, b, z, h]
    exact m
  · by_cases k : x.hearth.ps = .blaze
    · by_cases j : x.main.power.wokeAt = some x.hearth.cycles
      · simp [State.wake, State.modPower, State.firedCode, k, b, z, h, j]
        exact m
      · simp [State.wake, State.modPower, State.firedCode, k, b, z, h, j]
        exact m
    · simp [State.wake, w, k]

/-- A command on the tag of no operation is accepted (R86). -/
theorem State.accept_free {y : State} {h : Hdr} {p : List Byte} {u : Nat} (hf : y.opOfTag h.tag = none) :
    y.accept h p u = y.modCmd (fun c => { c with
      nextOp := c.nextOp + 1
      ops := c.ops ++ [{ id := c.nextOp, tag := h.tag, opcode := h.opcode, member := h.member, all := bitOf h.flags 7,
                         ordered := bitOf h.flags 6, params := p, accepted := y.now, lastReply := y.now,
                         space := u }] }) := by
  unfold State.accept
  rw [hf]
  rfl

/-- A command for this member names it alone. -/
theorem State.targets_own {z : State} {e : OpEntry} (hm : e.member = z.self) (ha : e.all = false) :
    z.targets e = [z.self] := by
  simp [State.targets, ha, hm, State.named]

/-- A command for this member, started, runs here (R89). -/
theorem State.startOp_own {z : State} {e : OpEntry} (hc : z.leadChecks e.opcode = 0) (hm : e.member = z.self)
    (ha : e.all = false) (hn : e.opcode ≠ 0x21) :
    z.startOp e = (z.modOp e.id (fun a => { a with st := .running, space := 0, await := [z.self] })).runHere e := by
  have f : ∀ (s : State), s.forwardAllTo e [] = some s := fun _ => rfl
  unfold State.startOp
  rw [State.targets_own hm ha]
  simp [hc, hn, f]

/-- CANCEL for this member, started (R110). -/
theorem State.startOp_cancel {z : State} {e : OpEntry} (hc : z.leadChecks e.opcode = 0) (hm : e.member = z.self)
    (ha : e.all = false) (hn : e.opcode = 0x21) :
    z.startOp e = (z.modOp e.id (fun a => { a with st := .running, space := 0, await := [z.self] })).startCancel e := by
  unfold State.startOp
  rw [State.targets_own hm ha]
  have l : onLead 0x21 = false := rfl
  simp [hn, l] at *
  simp [hc]

/-- The entry of a command of the master for this member, as it is accepted. -/
def State.newEntry (y : State) (op tag : Nat) (p : List Byte) (u : Nat) : OpEntry :=
  { id := y.main.cmd.nextOp, tag := tag, opcode := op, member := y.self, params := p, accepted := y.now,
    lastReply := y.now, space := u }

@[simp] theorem State.newEntry_id (y : State) (op tag : Nat) (p : List Byte) (u : Nat) :
    (y.newEntry op tag p u).id = y.main.cmd.nextOp := rfl
@[simp] theorem State.newEntry_params (y : State) (op tag : Nat) (p : List Byte) (u : Nat) :
    (y.newEntry op tag p u).params = p := rfl

/-- A command accepted whose turn has come is started, and passes the lead's checks. -/
theorem State.commandStart_starts {y : State} {op tag : Nat} {p : List Byte} {u : Nat}
    (h : y.executes op tag p) (hw : y.wake 0x06 = y) :
    (y.accept (y.header op tag p) p u).commandStart tag
        = (y.accept (y.header op tag p) p u).startOp (y.newEntry op tag p u)
      ∧ (y.accept (y.header op tag p) p u).leadChecks op = 0 := by
  obtain ⟨hr, _, _, hf, hc, hq, ho⟩ := h
  have hf' : y.opOfTag (y.header op tag p).tag = none := hf
  rw [State.accept_free hf']
  set e : OpEntry := y.newEntry op tag p u with he
  set z := y.modCmd (fun c => { c with nextOp := c.nextOp + 1, ops := c.ops ++ [e] }) with hz
  have hz' : y.modCmd (fun c => { c with
      nextOp := c.nextOp + 1
      ops := c.ops ++ [{ id := c.nextOp, tag := (y.header op tag p).tag, opcode := (y.header op tag p).opcode,
                         member := (y.header op tag p).member, all := bitOf (y.header op tag p).flags 7,
                         ordered := bitOf (y.header op tag p).flags 6, params := p, accepted := y.now,
                         lastReply := y.now, space := u }] }) = z := by
    rw [hz, he]
    simp [State.header, State.newEntry, bitOf, State.modCmd]
  rw [hz']
  have hout : z.main.out = true := hr.1
  have hzw : z.wake 0x06 = z := by rw [hz, State.wake_modCmd, hw]
  have htag : z.opOfTag tag = some e := by
    have : y.main.cmd.ops.find? (fun e => !e.shadow && e.tag == tag) = none := hf
    simp [State.opOfTag, hz, State.modCmd, List.find?_append, this, he, State.newEntry]
  have hmay : z.mayStart e = true := by
    unfold State.mayStart
    rw [List.all_eq_true]
    intro a ha
    have hmem : a ∈ y.main.cmd.ops := by
      have h2 : (y.main.cmd.ops ++ [e]).takeWhile (fun x => x.id != e.id) <+: y.main.cmd.ops := by
        have h3 : (y.main.cmd.ops ++ [e]).takeWhile (fun x => x.id != e.id)
            = y.main.cmd.ops.takeWhile (fun x => x.id != e.id) := by
          rw [List.takeWhile_append]
          split
          · rename_i hl
            simp
            have h5 := List.takeWhile_prefix (fun x : OpEntry => x.id != e.id) (l := y.main.cmd.ops)
            exact (h5.eq_of_length hl).symm
          · rfl
        rw [h3]
        exact List.takeWhile_prefix _
      exact h2.subset ha
    have hself : z.self = y.self := rfl
    rcases ho a hmem with q | ⟨q1, q2, q3⟩ | q1
    · simp [q]
    · simp [OpEntry.meets, q1, q2, hself, he, State.newEntry, q3]
    · simp [q1, he, State.newEntry]
  have hlc : z.leadChecks op = 0 := by
    rw [hz, State.leadChecks_modCmd y _ op rfl rfl]
    exact hc
  unfold State.commandStart
  rw [hout, hzw]
  simp only [Bool.not_true, Bool.false_eq_true, if_false, htag]
  rw [if_pos ⟨rfl, hmay⟩]
  exact ⟨rfl, hlc⟩

/-- A command accepted and started at once runs its opcode's function. -/
theorem State.commandStart_accepted {y : State} {op tag : Nat} {p : List Byte} {u : Nat}
    (h : y.executes op tag p) (hw : y.wake 0x06 = y) (hn : op ≠ 0x21) :
    (y.accept (y.header op tag p) p u).commandStart tag
      = ((y.accept (y.header op tag p) p u).modOp y.main.cmd.nextOp
          (fun e => { e with st := .running, space := 0, await := [y.self] })).runOpcode op y.main.cmd.nextOp p := by
  obtain ⟨hs, hc⟩ := State.commandStart_starts (u := u) h hw
  have hf : y.opOfTag (y.header op tag p).tag = none := h.2.2.2.1
  have hq := h.2.2.2.2.2.1
  rw [hs, State.startOp_own hc (by rw [State.accept_free hf]; rfl) rfl hn, State.accept_free hf]
  unfold State.runHere
  rw [if_neg]
  · rfl
  · rintro ⟨a, b⟩
    simp [State.newEntry, hq a] at b

/-- CANCEL accepted and started at once acts on the operation table, and answers its outcome (R110). -/
theorem State.commandStart_cancel {y : State} {tag : Nat} {p : List Byte} {u : Nat}
    (h : y.executes 0x21 tag p) (hw : y.wake 0x06 = y) :
    (y.accept (y.header 0x21 tag p) p u).commandStart tag
      = ((y.accept (y.header 0x21 tag p) p u).modOp y.main.cmd.nextOp
          (fun e => { e with st := .running, space := 0, await := [y.self] })).startCancel (y.newEntry 0x21 tag p u) := by
  obtain ⟨hs, hc⟩ := State.commandStart_starts (u := u) h hw
  have hf : y.opOfTag (y.header 0x21 tag p).tag = none := h.2.2.2.1
  rw [hs, State.startOp_cancel hc (by rw [State.accept_free hf]; rfl) rfl rfl, State.accept_free hf]
  rfl

/-- The intake that a command with these parameters holds (R116). -/
def intakeOf (p : List Byte) : Nat := (16 + (if p = [] then 0 else p.length + 4) + 15) / 16

/-- A command of the master that is executed at once is accepted, and its turn has come. -/
theorem State.command_starts {x : State} {op tag : Nat} {p : List Byte} (h : (x.wake 0x06).executes op tag p) :
    State.onMain (State.command op tag p) x
      = ((x.wake 0x06).accept ((x.wake 0x06).header op tag p) p (intakeOf p)).commandStart tag := by
  have hr := h.1
  have ho : x.main.out = true := by simpa using hr.1
  have hs : x.main.boot.stopped = false := by simpa using hr.2
  have hl : (x.wake 0x06).leads = true := h.2.1
  have hp : ¬ 4096 < p.length := by have := h.2.2.1; omega
  have hf : ((x.wake 0x06).opOfTag tag).isSome = false := by rw [h.2.2.2.1]; rfl
  unfold State.onMain
  rw [ho, hs]
  simp only [Bool.not_false, Bool.and_self, if_true]
  unfold State.command
  rw [ho]
  simp only [Bool.not_true, Bool.false_eq_true, if_false, hl, hp, hf]
  have hse : x.self = (x.wake 0x06).self := by simp [State.self]
  rw [hse]
  rfl

/-- A command of the master that is executed at once: its opcode's function runs on the state with the command in the
operation table. -/
theorem State.command_executes {x : State} {op tag : Nat} {p : List Byte} (h : (x.wake 0x06).executes op tag p)
    (hn : op ≠ 0x21) :
    State.onMain (State.command op tag p) x = ((x.wake 0x06).issued op tag p).runOpcode op x.main.cmd.nextOp p := by
  have ho : x.main.out = true := by simpa using h.1.1
  rw [State.command_starts h, State.commandStart_accepted h (State.wake_wake x ho) hn, State.wake_cmd]
  unfold State.issued
  rw [State.wake_cmd]
  rfl

/-- The handle of a command just issued is the last one. -/
theorem State.issued_lastOp {y : State} {op tag : Nat} {p : List Byte} (hf : y.opOfTag tag = none) :
    (y.issued op tag p).lastOp = y.main.cmd.nextOp := by
  have hf' : y.opOfTag (y.header op tag p).tag = none := hf
  unfold State.issued
  rw [State.accept_free hf']
  simp [State.lastOp, State.modOp, State.modCmd]

/-- A command of the master that is executed at once, as each of the opcodes' rows brings it. -/
theorem State.command_asked {s : State} {dt op tag : Nat} {p : List Byte} (h : s.willRun dt op tag p) (hn : op ≠ 0x21) :
    State.onMain (State.command op tag p) (s.at dt)
      = (s.asked dt op tag p).runOpcode op (s.asked dt op tag p).lastOp p := by
  have hf : (s.heard dt).opOfTag tag = none := h.2.2.2.1
  have e := State.command_executes (x := s.at dt) h hn
  unfold State.asked
  rw [State.issued_lastOp hf]
  unfold State.heard
  rw [State.wake_cmd]
  exact e

/-- CANCEL that is executed at once: the operation that it names ends where it is QUEUED, and the outcome is the reply
(R110). -/
theorem State.cancel_asked {s : State} {dt tag : Nat} {p : List Byte} (h : s.willRun dt 0x21 tag p) :
    State.onMain (State.command 0x21 tag p) (s.at dt)
      = ((s.asked dt 0x21 tag p).cancel p).1.memberResult (s.asked dt 0x21 tag p).lastOp
          ⟨(s.asked dt 0x21 tag p).self, ((s.asked dt 0x21 tag p).cancel p).2.1, ((s.asked dt 0x21 tag p).cancel p).2.2⟩ := by
  have hf : (s.heard dt).opOfTag tag = none := h.2.2.2.1
  have ho : (s.at dt).main.out = true := by simpa [State.heard] using h.1.1
  rw [State.command_starts (x := s.at dt) h,
    State.commandStart_cancel (y := (s.at dt).wake 0x06) h (State.wake_wake _ ho)]
  unfold State.asked
  rw [State.issued_lastOp hf]
  have q : ((s.heard dt).accept ((s.heard dt).header 0x21 tag p) p (intakeOf p)).modOp (s.heard dt).main.cmd.nextOp
      (fun e => { e with st := .running, space := 0, await := [(s.heard dt).self] }) = (s.heard dt).issued 0x21 tag p := rfl
  have w : s.heard dt = (s.at dt).wake 0x06 := rfl
  rw [← w, q]
  unfold State.startCancel
  have t : ((s.heard dt).issued 0x21 tag p).targets ((s.heard dt).newEntry 0x21 tag p (intakeOf p))
      = [((s.heard dt).issued 0x21 tag p).self] := by
    refine State.targets_own ?_ rfl
    unfold State.issued
    have hf' : (s.heard dt).opOfTag ((s.heard dt).header 0x21 tag p).tag = none := hf
    rw [State.accept_free hf']
    rfl
  rw [t]
  rw [State.newEntry_id, State.newEntry_params]
  generalize ((s.heard dt).issued 0x21 tag p).cancel p = c
  obtain ⟨a, b, d⟩ := c
  rfl

/-- An effect on the main domain while it runs. -/
theorem State.onMain_of {x : State} {f : State → State} (h : x.runs) : State.onMain f x = f x := by
  unfold State.onMain
  rw [h.1, h.2]
  rfl

/-- An effect on a block while the blocks run. -/
theorem State.onBlocks_of {x : State} {f : State → State} (h : x.blocksRun) : State.onBlocks f x = f x := by
  unfold State.onBlocks
  rw [h.1.1, h.1.2, h.2]
  rfl

@[simp] theorem Main.cold_out : Main.cold.out = false := rfl

/-- Nothing follows while the main domain is off. -/
theorem State.leaves_off {s t : State} (h : t.main.out = false) : s.leaves t = .next t := by
  unfold State.leaves State.settle
  rw [h]
  rfl

end Sys2Proof.Machine
end

