-- ==== Sys2Proof/Laws/Exec.lean ====
section
/-! SUPPORT. What each command's outcome is: its effect in the state `dt` ticks later, and what follows at once. -/

namespace Sys2Proof.Machine

theorem exec_mainResetRelease (dt : Nat) (msel : BitVec 2) (member : BitVec 3) (pins : Bool × Bool) (ref : Option Int) (faults : List BankFault) (rextOk : Bool) (rails : List Nat) (s : State) :
    exec (.mainResetRelease dt msel member pins ref faults rextOk rails) s = s.leaves ((fun x => x.release msel.toNat member.toNat pins.1 pins.2 ref faults rextOk rails) (s.at dt)) := rfl
theorem exec_resetN (dt : Nat) (lowUs : Nat) (s : State) :
    exec (.resetN dt lowUs) s = s.leaves ((fun x => x.resetN lowUs) (s.at dt)) := rfl
theorem exec_railOutOfWindow (dt : Nat) (rails : List Nat × Nat) (s : State) :
    exec (.railOutOfWindow dt rails) s = s.leaves ((fun x => x.railOut rails.1 rails.2) (s.at dt)) := rfl
theorem exec_railRestart (dt : Nat) (s : State) :
    exec (.railRestart dt) s = s.leaves (State.railRestart (s.at dt)) := rfl
theorem exec_railsNotUp (dt : Nat) (rails : List Nat) (s : State) :
    exec (.railsNotUp dt rails) s = s.leaves ((fun x => x.railsNotUp rails) (s.at dt)) := rfl
theorem exec_railRetry (dt : Nat) (s : State) :
    exec (.railRetry dt) s = s.leaves (State.railRetry (s.at dt)) := rfl
theorem exec_step9Timeout (dt : Nat) (s : State) :
    exec (.step9Timeout dt) s = s.leaves ((State.onBlocks State.step9Timeout) (s.at dt)) := rfl
theorem exec_watchdog (dt : Nat) (core : Nat) (code : BitVec 32) (s : State) :
    exec (.watchdog dt core code) s = s.leaves ((fun x => x.watchdog core code.toNat) (s.at dt)) := rfl
theorem exec_spiWrite (dt : Nat) (bytes : List Byte) (s : State) :
    exec (.spiWrite dt bytes) s = s.leaves ((State.onMain (fun x => x.spiWrite bytes)) (s.at dt)) := rfl
theorem exec_spiRead (dt : Nat) (clocked : Nat) (s : State) :
    exec (.spiRead dt clocked) s = s.leaves ((State.onMain (fun x => x.spiRead clocked)) (s.at dt)) := rfl
theorem exec_spiStatus (dt : Nat) (s : State) :
    exec (.spiStatus dt) s = s.leaves ((State.onMain State.spiStatus) (s.at dt)) := rfl
theorem exec_mgmtSdu (dt : Nat) (s : State) :
    exec (.mgmtSdu dt) s = s.leaves ((State.onMain State.mgmtSduIn) (s.at dt)) := rfl
theorem exec_uartPacket (dt : Nat) (bytes : List Byte) (s : State) :
    exec (.uartPacket dt bytes) s = s.leaves ((State.onMain (fun x => x.uartBytes bytes)) (s.at dt)) := rfl
theorem exec_uartGapTimeout (dt : Nat) (s : State) :
    exec (.uartGapTimeout dt) s = s.leaves ((State.onMain State.uartGap) (s.at dt)) := rfl
theorem exec_commandStart (dt : Nat) (tag : BitVec 16) (s : State) :
    exec (.commandStart dt tag) s = s.leaves ((State.onMain (fun x => x.commandStart tag.toNat)) (s.at dt)) := rfl
theorem exec_opTimeout (dt : Nat) (tag : BitVec 16) (s : State) :
    exec (.opTimeout dt tag) s = s.leaves ((State.onMain (fun x => x.opTimeout tag.toNat)) (s.at dt)) := rfl
theorem exec_packetLeft (dt : Nat) (s : State) :
    exec (.packetLeft dt) s = s.leaves ((State.onMain State.leave) (s.at dt)) := rfl
theorem exec_alarmRepeat (dt : Nat) (num : BitVec 16) (s : State) :
    exec (.alarmRepeat dt num) s = s.leaves ((State.onMain (fun x => x.alarmRepeat num.toNat)) (s.at dt)) := rfl
theorem exec_nop (dt : Nat) (tag : BitVec 16) (params : List Byte) (s : State) :
    exec (.nop dt tag params) s = s.leaves ((State.onMain (State.command 0x0001 tag.toNat params)) (s.at dt)) := rfl
theorem exec_getInfo (dt : Nat) (tag : BitVec 16) (params : List Byte) (s : State) :
    exec (.getInfo dt tag params) s = s.leaves ((State.onMain (State.command 0x0002 tag.toNat params)) (s.at dt)) := rfl
theorem exec_regRead (dt : Nat) (tag : BitVec 16) (params : List Byte) (s : State) :
    exec (.regRead dt tag params) s = s.leaves ((State.onMain (State.command 0x0010 tag.toNat params)) (s.at dt)) := rfl
theorem exec_regWrite (dt : Nat) (tag : BitVec 16) (params : List Byte) (s : State) :
    exec (.regWrite dt tag params) s = s.leaves ((State.onMain (State.command 0x0011 tag.toNat params)) (s.at dt)) := rfl
theorem exec_regModify (dt : Nat) (tag : BitVec 16) (params : List Byte) (s : State) :
    exec (.regModify dt tag params) s = s.leaves ((State.onMain (State.command 0x0012 tag.toNat params)) (s.at dt)) := rfl
theorem exec_opQuery (dt : Nat) (tag : BitVec 16) (params : List Byte) (s : State) :
    exec (.opQuery dt tag params) s = s.leaves ((State.onMain (State.command 0x0020 tag.toNat params)) (s.at dt)) := rfl
theorem exec_cancel (dt : Nat) (tag : BitVec 16) (params : List Byte) (s : State) :
    exec (.cancel dt tag params) s = s.leaves ((State.onMain (State.command 0x0021 tag.toNat params)) (s.at dt)) := rfl
theorem exec_noticeAck (dt : Nat) (tag : BitVec 16) (params : List Byte) (s : State) :
    exec (.noticeAck dt tag params) s = s.leaves ((State.onMain (State.command 0x0030 tag.toNat params)) (s.at dt)) := rfl
theorem exec_resetMain (dt : Nat) (tag : BitVec 16) (params : List Byte) (s : State) :
    exec (.resetMain dt tag params) s = s.leaves ((State.onMain (State.command 0x0050 tag.toNat params)) (s.at dt)) := rfl
theorem exec_cmdOpLimitWrite (dt : Nat) (value : Word) (s : State) :
    exec (.cmdOpLimitWrite dt value) s = s.leaves ((State.onBlocks (State.regWrite 0x00000C value.toNat)) (s.at dt)) := rfl
theorem exec_imgStatus (dt : Nat) (tag : BitVec 16) (params : List Byte) (s : State) :
    exec (.imgStatus dt tag params) s = s.leaves ((State.onMain (State.command 0x0040 tag.toNat params)) (s.at dt)) := rfl
theorem exec_imgErase (dt : Nat) (tag : BitVec 16) (params : List Byte) (s : State) :
    exec (.imgErase dt tag params) s = s.leaves ((State.onMain (State.command 0x0041 tag.toNat params)) (s.at dt)) := rfl
theorem exec_imgWrite (dt : Nat) (tag : BitVec 16) (params : List Byte) (s : State) :
    exec (.imgWrite dt tag params) s = s.leaves ((State.onMain (State.command 0x0042 tag.toNat params)) (s.at dt)) := rfl
theorem exec_imgVerify (dt : Nat) (tag : BitVec 16) (params : List Byte) (s : State) :
    exec (.imgVerify dt tag params) s = s.leaves ((State.onMain (State.command 0x0043 tag.toNat params)) (s.at dt)) := rfl
theorem exec_imgActivate (dt : Nat) (tag : BitVec 16) (params : List Byte) (s : State) :
    exec (.imgActivate dt tag params) s = s.leaves ((State.onMain (State.command 0x0044 tag.toNat params)) (s.at dt)) := rfl
theorem exec_imgCommit (dt : Nat) (tag : BitVec 16) (params : List Byte) (s : State) :
    exec (.imgCommit dt tag params) s = s.leaves ((State.onMain (State.command 0x0045 tag.toNat params)) (s.at dt)) := rfl
theorem exec_bootReport (dt : Nat) (tag : BitVec 16) (params : List Byte) (s : State) :
    exec (.bootReport dt tag params) s = s.leaves ((State.onMain (State.command 0x0046 tag.toNat params)) (s.at dt)) := rfl
theorem exec_hearthStart (dt : Nat) (aonMv : Nat) (vbatMv : Nat) (s : State) :
    exec (.hearthStart dt aonMv vbatMv) s = s.leaves ((fun x => x.hearthStart aonMv vbatMv) (s.at dt)) := rfl
theorem exec_hearthReset (dt : Nat) (aonMv : Nat) (vbatMv : Nat) (s : State) :
    exec (.hearthReset dt aonMv vbatMv) s = s.leaves ((fun x => x.hearthReset aonMv vbatMv) (s.at dt)) := rfl
theorem exec_supplySwitch (dt : Nat) (aonMv : Nat) (vbatMv : Nat) (s : State) :
    exec (.supplySwitch dt aonMv vbatMv) s = s.leaves ((fun x => x.supplySwitch aonMv vbatMv) (s.at dt)) := rfl
theorem exec_hearthAlign (dt : Nat) (s : State) :
    exec (.hearthAlign dt) s = s.leaves ((State.onBlocks State.hearthAlign) (s.at dt)) := rfl
theorem exec_wakeTimer (dt : Nat) (s : State) :
    exec (.wakeTimer dt) s = s.leaves (State.wakeTimer (s.at dt)) := rfl
theorem exec_tamperActive (dt : Nat) (input : Nat) (code : BitVec 10) (s : State) :
    exec (.tamperActive dt input code) s = s.leaves ((fun x => x.tamperActive input code.toNat) (s.at dt)) := rfl
theorem exec_tamperInactive (dt : Nat) (input : Nat) (s : State) :
    exec (.tamperInactive dt input) s = s.leaves ((fun x => x.tamperInactive input) (s.at dt)) := rfl
theorem exec_meshBreak (dt : Nat) (pair : Nat) (samples : List Bool) (code : BitVec 10) (s : State) :
    exec (.meshBreak dt pair samples code) s = s.leaves ((fun x => x.meshBreak pair samples code.toNat) (s.at dt)) := rfl
theorem exec_meshRearm (dt : Nat) (pair : Nat) (s : State) :
    exec (.meshRearm dt pair) s = s.leaves ((fun x => x.meshRearm pair) (s.at dt)) := rfl
theorem exec_meshReseed (dt : Nat) (s : State) :
    exec (.meshReseed dt) s = s.leaves ((State.onBlocks State.meshReseed) (s.at dt)) := rfl
theorem exec_cellMeasure (dt : Nat) (code : BitVec 8) (s : State) :
    exec (.cellMeasure dt code) s = s.leaves ((fun x => x.cellMeasure code.toNat) (s.at dt)) := rfl
theorem exec_reserveSample (dt : Nat) (code : BitVec 10) (s : State) :
    exec (.reserveSample dt code) s = s.leaves ((fun x => x.reserveSample code.toNat) (s.at dt)) := rfl
theorem exec_scheduledReturn (dt : Nat) (s : State) :
    exec (.scheduledReturn dt) s = s.leaves ((State.onBlocks State.scheduledReturn) (s.at dt)) := rfl
theorem exec_psuOkFall (dt : Nat) (s : State) :
    exec (.psuOkFall dt) s = s.leaves (State.psuFall (s.at dt)) := rfl
theorem exec_psuOkRise (dt : Nat) (s : State) :
    exec (.psuOkRise dt) s = s.leaves (State.psuRise (s.at dt)) := rfl
theorem exec_emberEntry (dt : Nat) (s : State) :
    exec (.emberEntry dt) s = s.leaves (State.emberEntry (s.at dt)) := rfl
theorem exec_alarmMsExpiry (dt : Nat) (s : State) :
    exec (.alarmMsExpiry dt) s = s.leaves (State.alarmMsExpiry (s.at dt)) := rfl
theorem exec_xtalStop (dt : Nat) (s : State) :
    exec (.xtalStop dt) s = s.leaves (State.xtalStop (s.at dt)) := rfl
theorem exec_psStatus (dt : Nat) (tag : BitVec 16) (params : List Byte) (s : State) :
    exec (.psStatus dt tag params) s = s.leaves ((State.onMain (State.command 0x0100 tag.toNat params)) (s.at dt)) := rfl
theorem exec_heldRead (dt : Nat) (tag : BitVec 16) (params : List Byte) (s : State) :
    exec (.heldRead dt tag params) s = s.leaves ((State.onMain (State.command 0x0101 tag.toNat params)) (s.at dt)) := rfl
theorem exec_secondBoundary (dt : Nat) (s : State) :
    exec (.secondBoundary dt) s = s.leaves ((State.onBlocks State.secondBoundary) (s.at dt)) := rfl
theorem exec_ppsEnd (dt : Nat) (s : State) :
    exec (.ppsEnd dt) s = s.leaves ((State.onBlocks State.ppsFall) (s.at dt)) := rfl
theorem exec_timeOfDay (dt : Nat) (s : State) :
    exec (.timeOfDay dt) s = s.leaves ((State.onBlocks State.timeOfDay) (s.at dt)) := rfl
theorem exec_slewEnd (dt : Nat) (s : State) :
    exec (.slewEnd dt) s = s.leaves ((State.onBlocks State.slewEnd) (s.at dt)) := rfl
theorem exec_timeMessage (dt : Nat) (s : State) :
    exec (.timeMessage dt) s = s.leaves ((State.onBlocks (fun x => x.takeMessage 1)) (s.at dt)) := rfl
theorem exec_timeCorrection (dt : Nat) (s : State) :
    exec (.timeCorrection dt) s = s.leaves ((State.onBlocks State.timeCorrection) (s.at dt)) := rfl
theorem exec_servoMissTimeout (dt : Nat) (s : State) :
    exec (.servoMissTimeout dt) s = s.leaves ((State.onBlocks State.servoMiss) (s.at dt)) := rfl
theorem exec_holdoverTimeout (dt : Nat) (s : State) :
    exec (.holdoverTimeout dt) s = s.leaves ((State.onBlocks State.holdoverTimeout) (s.at dt)) := rfl
theorem exec_cmpFire (dt : Nat) (unit : Nat) (s : State) :
    exec (.cmpFire dt unit) s = s.leaves ((State.onBlocks (fun x => x.cmpFire unit compareAct)) (s.at dt)) := rfl
theorem exec_ntStatus (dt : Nat) (tag : BitVec 16) (params : List Byte) (s : State) :
    exec (.ntStatus dt tag params) s = s.leaves ((State.onMain (State.command 0x0200 tag.toNat params)) (s.at dt)) := rfl
theorem exec_ntSet (dt : Nat) (tag : BitVec 16) (params : List Byte) (s : State) :
    exec (.ntSet dt tag params) s = s.leaves ((State.onMain (State.command 0x0201 tag.toNat params)) (s.at dt)) := rfl
theorem exec_ntAdjust (dt : Nat) (tag : BitVec 16) (params : List Byte) (s : State) :
    exec (.ntAdjust dt tag params) s = s.leaves ((State.onMain (State.command 0x0202 tag.toNat params)) (s.at dt)) := rfl
theorem exec_cmpArm (dt : Nat) (tag : BitVec 16) (params : List Byte) (s : State) :
    exec (.cmpArm dt tag params) s = s.leaves ((State.onMain (State.command 0x0203 tag.toNat params)) (s.at dt)) := rfl
theorem exec_cmpDisarm (dt : Nat) (tag : BitVec 16) (params : List Byte) (s : State) :
    exec (.cmpDisarm dt tag params) s = s.leaves ((State.onMain (State.command 0x0204 tag.toNat params)) (s.at dt)) := rfl
theorem exec_zeroCrossing (dt : Nat) (phase : Nat) (rising : Bool) (peak : Nat) (samples : List Int) (s : State) :
    exec (.zeroCrossing dt phase rising peak samples) s = s.leaves ((State.onBlocks (fun x => x.zeroCrossing entryActs phase rising peak samples)) (s.at dt)) := rfl
theorem exec_crossingMissed (dt : Nat) (phase : Nat) (s : State) :
    exec (.crossingMissed dt phase) s = s.leaves ((State.onBlocks (fun x => x.crossingMissed phase)) (s.at dt)) := rfl
theorem exec_phantomTimeout (dt : Nat) (s : State) :
    exec (.phantomTimeout dt) s = s.leaves ((State.onBlocks State.phantomTimeout) (s.at dt)) := rfl
theorem exec_absentTimeout (dt : Nat) (s : State) :
    exec (.absentTimeout dt) s = s.leaves ((State.onBlocks State.absentTimeout) (s.at dt)) := rfl
theorem exec_entryFire (dt : Nat) (entry : Nat) (s : State) :
    exec (.entryFire dt entry) s = s.leaves ((State.onBlocks (fun x => x.entryFire entryActs entry)) (s.at dt)) := rfl
theorem exec_relayPulseEnd (dt : Nat) (relay : Nat) (s : State) :
    exec (.relayPulseEnd dt relay) s = s.leaves ((fun x => x.relayEnd relay) (s.at dt)) := rfl
theorem exec_entryWrite (dt : Nat) (entry : Nat) (cfg : Nat) (value : Word) (s : State) :
    exec (.entryWrite dt entry cfg value) s = s.leaves ((State.onBlocks (fun x => if entry < 512 ∧ cfg < 2 then State.regWrite (entReg entry + 4 * cfg) value.toNat x else x)) (s.at dt)) := rfl
theorem exec_maStatus (dt : Nat) (tag : BitVec 16) (params : List Byte) (s : State) :
    exec (.maStatus dt tag params) s = s.leaves ((State.onMain (State.command 0x0300 tag.toNat params)) (s.at dt)) := rfl
theorem exec_maArm (dt : Nat) (tag : BitVec 16) (params : List Byte) (s : State) :
    exec (.maArm dt tag params) s = s.leaves ((State.onMain (State.command 0x0301 tag.toNat params)) (s.at dt)) := rfl
theorem exec_maPulse (dt : Nat) (tag : BitVec 16) (params : List Byte) (s : State) :
    exec (.maPulse dt tag params) s = s.leaves ((State.onMain (State.command 0x0302 tag.toNat params)) (s.at dt)) := rfl
theorem exec_maWave (dt : Nat) (tag : BitVec 16) (params : List Byte) (s : State) :
    exec (.maWave dt tag params) s = s.leaves ((State.onMain (State.command 0x0303 tag.toNat params)) (s.at dt)) := rfl
theorem exec_losDeclared (dt : Nat) (lane : Nat) (sd : Bool) (s : State) :
    exec (.losDeclared dt lane sd) s = s.leaves ((State.onBlocks (fun x => (x.losDeclared lane sd).treeFollow)) (s.at dt)) := rfl
theorem exec_losCleared (dt : Nat) (lane : Nat × Bool) (s : State) :
    exec (.losCleared dt lane) s = s.leaves ((State.onBlocks (fun x => x.losCleared lane.1 lane.2)) (s.at dt)) := rfl
theorem exec_lockWindowEnd (dt : Nat) (lane : Nat) (offset : Int) (atLimit : Bool) (cv : Nat) (s : State) :
    exec (.lockWindowEnd dt lane offset atLimit cv) s = s.leaves ((State.onBlocks (fun x => (x.lockWindow lane offset atLimit cv).treeFollow)) (s.at dt)) := rfl
theorem exec_rogue (dt : Nat) (lane : Nat) (cause : Nat) (s : State) :
    exec (.rogue dt lane cause) s = s.leaves ((State.onBlocks (fun x => x.rogue lane cause)) (s.at dt)) := rfl
theorem exec_laneMarker (dt : Nat) (link : Nat) (lane : Nat) (skew : Nat) (symbols : List Nat) (s : State) :
    exec (.laneMarker dt link lane skew symbols) s = s.leaves ((State.onBlocks (fun x => x.laneMarker link lane skew symbols)) (s.at dt)) := rfl
theorem exec_laneFail (dt : Nat) (lane : Nat) (cv : Nat) (s : State) :
    exec (.laneFail dt lane cv) s = s.leaves ((State.onBlocks (fun x => x.laneFail lane cv)) (s.at dt)) := rfl
theorem exec_laneRequalify (dt : Nat) (lane : Nat) (s : State) :
    exec (.laneRequalify dt lane) s = s.leaves ((State.onBlocks (fun x => x.laneRequalify lane)) (s.at dt)) := rfl
theorem exec_eyePeriodic (dt : Nat) (s : State) :
    exec (.eyePeriodic dt) s = s.leaves ((State.onBlocks State.eyePeriodic) (s.at dt)) := rfl
theorem exec_pllUnlock (dt : Nat) (lanes : BitVec 9) (s : State) :
    exec (.pllUnlock dt lanes) s = s.leaves ((State.onBlocks (fun x => (x.pllUnlock lanes.toNat).treeFollow)) (s.at dt)) := rfl
theorem exec_lnReport (dt : Nat) (tag : BitVec 16) (params : List Byte) (s : State) :
    exec (.lnReport dt tag params) s = s.leaves ((State.onMain (State.command 0x0400 tag.toNat params)) (s.at dt)) := rfl
theorem exec_lnEye (dt : Nat) (tag : BitVec 16) (params : List Byte) (s : State) :
    exec (.lnEye dt tag params) s = s.leaves ((State.onMain (State.command 0x0401 tag.toNat params)) (s.at dt)) := rfl
theorem exec_lnTxRelease (dt : Nat) (tag : BitVec 16) (params : List Byte) (s : State) :
    exec (.lnTxRelease dt tag params) s = s.leaves ((State.onMain (State.command 0x0402 tag.toNat params)) (s.at dt)) := rfl
theorem exec_lnSpareForce (dt : Nat) (tag : BitVec 16) (params : List Byte) (s : State) :
    exec (.lnSpareForce dt tag params) s = s.leaves ((State.onMain (State.command 0x0403 tag.toNat params)) (s.at dt)) := rfl
theorem exec_frameReceived (dt : Nat) (lane : Nat) (bytes : List Byte) (s : State) :
    exec (.frameReceived dt lane bytes) s = s.leaves ((State.onBlocks (fun x => x.frameIn lane bytes)) (s.at dt)) := rfl
theorem exec_grantMapDeadline (dt : Nat) (s : State) :
    exec (.grantMapDeadline dt) s = s.leaves ((State.onBlocks State.grantMapDeadline) (s.at dt)) := rfl
theorem exec_tdPortWrite (dt : Nat) (port : Nat) (value : Word) (s : State) :
    exec (.tdPortWrite dt port value) s = s.leaves ((State.onBlocks (fun x => if port < 4096 then State.regWrite (tdPortReg port) value.toNat x else x)) (s.at dt)) := rfl
theorem exec_tdReport (dt : Nat) (tag : BitVec 16) (params : List Byte) (s : State) :
    exec (.tdReport dt tag params) s = s.leaves ((State.onMain (State.command 0x0500 tag.toNat params)) (s.at dt)) := rfl
theorem exec_treeProfile (dt : Nat) (s : State) :
    exec (.treeProfile dt) s = s.leaves ((State.onBlocks (fun x => x.takeMessage 2)) (s.at dt)) := rfl
theorem exec_identAssign (dt : Nat) (s : State) :
    exec (.identAssign dt) s = s.leaves ((State.onBlocks (fun x => x.takeMessage 3)) (s.at dt)) := rfl
theorem exec_rangingResult (dt : Nat) (s : State) :
    exec (.rangingResult dt) s = s.leaves ((State.onBlocks (fun x => x.takeMessage 4)) (s.at dt)) := rfl
theorem exec_warmAck (dt : Nat) (s : State) :
    exec (.warmAck dt) s = s.leaves ((State.onBlocks (fun x => x.takeMessage 5)) (s.at dt)) := rfl
theorem exec_allocAssign (dt : Nat) (s : State) :
    exec (.allocAssign dt) s = s.leaves ((State.onBlocks (fun x => x.takeMessage 6)) (s.at dt)) := rfl
theorem exec_portAssign (dt : Nat) (s : State) :
    exec (.portAssign dt) s = s.leaves ((State.onBlocks (fun x => x.takeMessage 7)) (s.at dt)) := rfl
theorem exec_deregister (dt : Nat) (s : State) :
    exec (.deregister dt) s = s.leaves ((State.onBlocks (fun x => x.takeMessage 8)) (s.at dt)) := rfl
theorem exec_disable (dt : Nat) (s : State) :
    exec (.disable dt) s = s.leaves ((State.onBlocks (fun x => x.takeMessage 9)) (s.at dt)) := rfl
theorem exec_dozeGrant (dt : Nat) (s : State) :
    exec (.dozeGrant dt) s = s.leaves ((State.onBlocks (fun x => x.takeMessage 10)) (s.at dt)) := rfl
theorem exec_dozeReq (dt : Nat) (s : State) :
    exec (.dozeReq dt) s = s.leaves ((State.onBlocks State.dozeReq) (s.at dt)) := rfl
theorem exec_to1Expiry (dt : Nat) (s : State) :
    exec (.to1Expiry dt) s = s.leaves ((State.onBlocks State.to1Expiry) (s.at dt)) := rfl
theorem exec_twExpiry (dt : Nat) (s : State) :
    exec (.twExpiry dt) s = s.leaves ((State.onBlocks State.twExpiry) (s.at dt)) := rfl
theorem exec_to2Expiry (dt : Nat) (s : State) :
    exec (.to2Expiry dt) s = s.leaves ((State.onBlocks State.to2Expiry) (s.at dt)) := rfl
theorem exec_protectionSwitch (dt : Nat) (s : State) :
    exec (.protectionSwitch dt) s = s.leaves ((State.onBlocks (fun x => x.protectionSwitch.pllFollow)) (s.at dt)) := rfl
theorem exec_treeRecordSave (dt : Nat) (s : State) :
    exec (.treeRecordSave dt) s = s.leaves ((State.onBlocks State.treeRecordSave) (s.at dt)) := rfl
theorem exec_tmStatus (dt : Nat) (tag : BitVec 16) (params : List Byte) (s : State) :
    exec (.tmStatus dt tag params) s = s.leaves ((State.onMain (State.command 0x0600 tag.toNat params)) (s.at dt)) := rfl
theorem exec_tmSetSerial (dt : Nat) (tag : BitVec 16) (params : List Byte) (s : State) :
    exec (.tmSetSerial dt tag params) s = s.leaves ((State.onMain (State.command 0x0601 tag.toNat params)) (s.at dt)) := rfl
theorem exec_tmSetIdent (dt : Nat) (tag : BitVec 16) (params : List Byte) (s : State) :
    exec (.tmSetIdent dt tag params) s = s.leaves ((State.onMain (State.command 0x0602 tag.toNat params)) (s.at dt)) := rfl
theorem exec_tmForget (dt : Nat) (tag : BitVec 16) (params : List Byte) (s : State) :
    exec (.tmForget dt tag params) s = s.leaves ((State.onMain (State.command 0x0603 tag.toNat params)) (s.at dt)) := rfl
theorem exec_tmClearDisable (dt : Nat) (tag : BitVec 16) (params : List Byte) (s : State) :
    exec (.tmClearDisable dt tag params) s = s.leaves ((State.onMain (State.command 0x0604 tag.toNat params)) (s.at dt)) := rfl
theorem exec_fillInstant (dt : Nat) (s : State) :
    exec (.fillInstant dt) s = s.leaves ((State.onBlocks State.fillInstant) (s.at dt)) := rfl
theorem exec_burstStart (dt : Nat) (s : State) :
    exec (.burstStart dt) s = s.leaves ((State.onBlocks State.burstStart) (s.at dt)) := rfl
theorem exec_upstreamFrameBoundary (dt : Nat) (rx : List (List Bool)) (s : State) :
    exec (.upstreamFrameBoundary dt rx) s = s.leaves ((State.onBlocks (fun x => x.frameBoundary rx)) (s.at dt)) := rfl
theorem exec_sduEnqueue (dt : Nat) (queue : Nat) (source : Nat) (bytes : List Byte) (s : State) :
    exec (.sduEnqueue dt queue source bytes) s = s.leaves ((State.onBlocks (fun x => x.sourceOffers queue source bytes)) (s.at dt)) := rfl
theorem exec_chimneyAckWaitEnd (dt : Nat) (s : State) :
    exec (.chimneyAckWaitEnd dt) s = s.leaves ((State.onBlocks State.chimneyWaitEnd) (s.at dt)) := rfl
theorem exec_upStatus (dt : Nat) (tag : BitVec 16) (params : List Byte) (s : State) :
    exec (.upStatus dt tag params) s = s.leaves ((State.onMain (State.command 0x0700 tag.toNat params)) (s.at dt)) := rfl
theorem exec_upAdmitTest (dt : Nat) (tag : BitVec 16) (params : List Byte) (s : State) :
    exec (.upAdmitTest dt tag params) s = s.leaves ((State.onMain (State.command 0x0701 tag.toNat params)) (s.at dt)) := rfl
theorem exec_xactStart (dt : Nat) (port : Nat) (s : State) :
    exec (.xactStart dt port) s = s.leaves ((State.onBlocks (fun x => x.xactStart port)) (s.at dt)) := rfl
theorem exec_requestSent (dt : Nat) (port : Nat) (s : State) :
    exec (.requestSent dt port) s = s.leaves ((State.onBlocks (fun x => x.requestSent port)) (s.at dt)) := rfl
theorem exec_charReceived (dt : Nat) (port : Nat) (samples : List Nat) (second : Bool) (s : State) :
    exec (.charReceived dt port samples second) s = s.leaves ((State.onBlocks (fun x => x.charReceived port samples second)) (s.at dt)) := rfl
theorem exec_idleGap (dt : Nat) (port : Nat) (s : State) :
    exec (.idleGap dt port) s = s.leaves ((State.onBlocks (fun x => x.idleGap port)) (s.at dt)) := rfl
theorem exec_firstMsExpiry (dt : Nat) (port : Nat) (s : State) :
    exec (.firstMsExpiry dt port) s = s.leaves ((State.onBlocks (fun x => x.noReply port)) (s.at dt)) := rfl
theorem exec_interTimeout (dt : Nat) (port : Nat) (s : State) :
    exec (.interTimeout dt port) s = s.leaves ((State.onBlocks (fun x => x.interTimeout port)) (s.at dt)) := rfl
theorem exec_busHeldLow (dt : Nat) (port : Nat) (s : State) :
    exec (.busHeldLow dt port) s = s.leaves ((State.onBlocks (fun x => x.busLow port)) (s.at dt)) := rfl
theorem exec_meterSdu (dt : Nat) (s : State) :
    exec (.meterSdu dt) s = s.leaves ((State.onBlocks State.meterSduIn) (s.at dt)) := rfl
theorem exec_holdOffer (dt : Nat) (s : State) :
    exec (.holdOffer dt) s = s.leaves ((State.onBlocks State.holdOffer) (s.at dt)) := rfl
theorem exec_mpPortDisable (dt : Nat) (port : Nat) (s : State) :
    exec (.mpPortDisable dt port) s = s.leaves ((State.onBlocks (fun x => if port < 48 then State.enClear (mpReg port) x else x)) (s.at dt)) := rfl
theorem exec_mpXact (dt : Nat) (tag : BitVec 16) (params : List Byte) (s : State) :
    exec (.mpXact dt tag params) s = s.leaves ((State.onMain (State.command 0x0800 tag.toNat params)) (s.at dt)) := rfl
theorem exec_mpStatus (dt : Nat) (tag : BitVec 16) (params : List Byte) (s : State) :
    exec (.mpStatus dt tag params) s = s.leaves ((State.onMain (State.command 0x0801 tag.toNat params)) (s.at dt)) := rfl
theorem exec_mpProgLoad (dt : Nat) (tag : BitVec 16) (params : List Byte) (s : State) :
    exec (.mpProgLoad dt tag params) s = s.leaves ((State.onMain (State.command 0x0802 tag.toNat params)) (s.at dt)) := rfl
theorem exec_mpProgStart (dt : Nat) (tag : BitVec 16) (params : List Byte) (s : State) :
    exec (.mpProgStart dt tag params) s = s.leaves ((State.onMain (State.command 0x0803 tag.toNat params)) (s.at dt)) := rfl
theorem exec_mpProgStop (dt : Nat) (tag : BitVec 16) (params : List Byte) (s : State) :
    exec (.mpProgStop dt tag params) s = s.leaves ((State.onMain (State.command 0x0804 tag.toNat params)) (s.at dt)) := rfl
theorem exec_mpProgStatus (dt : Nat) (tag : BitVec 16) (params : List Byte) (s : State) :
    exec (.mpProgStatus dt tag params) s = s.leaves ((State.onMain (State.command 0x0805 tag.toNat params)) (s.at dt)) := rfl
theorem exec_containerJudge (dt : Nat) (s : State) :
    exec (.containerJudge dt) s = s.leaves ((State.onBlocks State.containerJudge) (s.at dt)) := rfl
theorem exec_rxcWindow (dt : Nat) (trib : Nat) (edges : Nat) (s : State) :
    exec (.rxcWindow dt trib edges) s = s.leaves ((State.onBlocks (fun x => x.rxcWindow trib edges)) (s.at dt)) := rfl
theorem exec_tbDisable (dt : Nat) (trib : Nat) (s : State) :
    exec (.tbDisable dt trib) s = s.leaves ((State.onBlocks (fun x => if trib < 4 then State.enClear (tbCfg trib) x else x)) (s.at dt)) := rfl
theorem exec_tbStatus (dt : Nat) (tag : BitVec 16) (params : List Byte) (s : State) :
    exec (.tbStatus dt tag params) s = s.leaves ((State.onMain (State.command 0x0900 tag.toNat params)) (s.at dt)) := rfl
theorem exec_ethFrameRx (dt : Nat) (port : Nat) (frame : List Byte) (symbol : Bool) (s : State) :
    exec (.ethFrameRx dt port frame symbol) s = s.leaves ((State.onBlocks (fun x => x.ethFrameRx port frame symbol)) (s.at dt)) := rfl
theorem exec_linkChange (dt : Nat) (port : Nat) (up : Bool) (speed : Nat) (half : Bool) (pause : Bool) (s : State) :
    exec (.linkChange dt port up speed half pause) s = s.leaves ((State.onBlocks (fun x => x.linkChange port up speed half pause)) (s.at dt)) := rfl
theorem exec_ethSend (dt : Nat) (port : Nat) (s : State) :
    exec (.ethSend dt port) s = s.leaves ((State.onBlocks (fun x => x.ethSend port)) (s.at dt)) := rfl
theorem exec_ethFrameStart (dt : Nat) (port : Nat) (s : State) :
    exec (.ethFrameStart dt port) s = s.leaves ((State.onBlocks (fun x => x.ethFrameStart port)) (s.at dt)) := rfl
theorem exec_pauseExpiry (dt : Nat) (port : Nat) (s : State) :
    exec (.pauseExpiry dt port) s = s.leaves ((State.onBlocks (fun x => x.pauseExpiry port)) (s.at dt)) := rfl
theorem exec_emCfgWrite (dt : Nat) (port : Nat) (value : Word) (s : State) :
    exec (.emCfgWrite dt port value) s = s.leaves ((State.onBlocks (fun x => if port < 2 then State.regWrite (emReg port) value.toNat x else x)) (s.at dt)) := rfl
theorem exec_emStatus (dt : Nat) (tag : BitVec 16) (params : List Byte) (s : State) :
    exec (.emStatus dt tag params) s = s.leaves ((State.onMain (State.command 0x0A00 tag.toNat params)) (s.at dt)) := rfl
theorem exec_emStats (dt : Nat) (tag : BitVec 16) (params : List Byte) (s : State) :
    exec (.emStats dt tag params) s = s.leaves ((State.onMain (State.command 0x0A01 tag.toNat params)) (s.at dt)) := rfl
theorem exec_emMdio (dt : Nat) (tag : BitVec 16) (params : List Byte) (s : State) :
    exec (.emMdio dt tag params) s = s.leaves ((State.onMain (State.command 0x0A02 tag.toNat params)) (s.at dt)) := rfl
theorem exec_cipherRequestStart (dt : Nat) (pipe : Nat) (s : State) :
    exec (.cipherRequestStart dt pipe) s = s.leaves ((State.onBlocks (fun x => x.cipherStart pipe)) (s.at dt)) := rfl
theorem exec_cipherCompletion (dt : Nat) (pipe : Nat) (s : State) :
    exec (.cipherCompletion dt pipe) s = s.leaves ((State.onBlocks (fun x => x.cipherCompletion pipe)) (s.at dt)) := rfl
theorem exec_rngHealthFail (dt : Nat) (test : Nat) (s : State) :
    exec (.rngHealthFail dt test) s = s.leaves ((State.onBlocks (fun x => x.rngHealthFail test)) (s.at dt)) := rfl
theorem exec_rngRestart (dt : Nat) (s : State) :
    exec (.rngRestart dt) s = s.leaves ((State.onBlocks State.rngRestart) (s.at dt)) := rfl
theorem exec_drbgReseed (dt : Nat) (inst : Nat) (s : State) :
    exec (.drbgReseed dt inst) s = s.leaves ((State.onBlocks (fun x => x.drbgReseed inst)) (s.at dt)) := rfl
theorem exec_cyQueueDisable (dt : Nat) (queue : Nat) (s : State) :
    exec (.cyQueueDisable dt queue) s = s.leaves ((State.onBlocks (fun x => if queue < 4 then State.enClear (0x0B0100 + 16 * queue) x else x)) (s.at dt)) := rfl
theorem exec_cyStatus (dt : Nat) (tag : BitVec 16) (params : List Byte) (s : State) :
    exec (.cyStatus dt tag params) s = s.leaves ((State.onMain (State.command 0x0B00 tag.toNat params)) (s.at dt)) := rfl
theorem exec_cyKeyInfo (dt : Nat) (tag : BitVec 16) (params : List Byte) (s : State) :
    exec (.cyKeyInfo dt tag params) s = s.leaves ((State.onMain (State.command 0x0B01 tag.toNat params)) (s.at dt)) := rfl
theorem exec_cyKeyLoad (dt : Nat) (tag : BitVec 16) (params : List Byte) (s : State) :
    exec (.cyKeyLoad dt tag params) s = s.leaves ((State.onMain (State.command 0x0B02 tag.toNat params)) (s.at dt)) := rfl
theorem exec_cyKeyErase (dt : Nat) (tag : BitVec 16) (params : List Byte) (s : State) :
    exec (.cyKeyErase dt tag params) s = s.leaves ((State.onMain (State.command 0x0B03 tag.toNat params)) (s.at dt)) := rfl
theorem exec_cyZeroise (dt : Nat) (tag : BitVec 16) (params : List Byte) (s : State) :
    exec (.cyZeroise dt tag params) s = s.leaves ((State.onMain (State.command 0x0B04 tag.toNat params)) (s.at dt)) := rfl
theorem exec_cyRun (dt : Nat) (tag : BitVec 16) (params : List Byte) (s : State) :
    exec (.cyRun dt tag params) s = s.leaves ((State.onMain (State.command 0x0B05 tag.toNat params)) (s.at dt)) := rfl
theorem exec_s2RowDone (dt : Nat) (s : State) :
    exec (.s2RowDone dt) s = s.leaves ((State.onBlocks State.s2RowDone) (s.at dt)) := rfl
theorem exec_s3RowDone (dt : Nat) (bytes : List Byte) (preds : List (Int × Int)) (poison : Option Nat) (s : State) :
    exec (.s3RowDone dt bytes preds poison) s = s.leaves ((State.onBlocks (fun x => x.s3RowDone bytes preds poison)) (s.at dt)) := rfl
theorem exec_s5RowDone (dt : Nat) (y : List (List Nat)) (cb : List (List Nat)) (cr : List (List Nat)) (s : State) :
    exec (.s5RowDone dt y cb cr) s = s.leaves ((State.onBlocks (fun x => x.s5RowDone y cb cr)) (s.at dt)) := rfl
theorem exec_pcChannelWrite (dt : Nat) (chan : Nat) (value : Word) (s : State) :
    exec (.pcChannelWrite dt chan value) s = s.leaves ((State.onBlocks (fun x => if chan < 4 then State.regWrite (pcReg chan) value.toNat x else x)) (s.at dt)) := rfl
theorem exec_decodePictureDone (dt : Nat) (r : DecResult) (s : State) :
    exec (.decodePictureDone dt r) s = s.leaves ((State.onBlocks (fun x => x.decodePictureDone r)) (s.at dt)) := rfl
theorem exec_pcStatus (dt : Nat) (tag : BitVec 16) (params : List Byte) (s : State) :
    exec (.pcStatus dt tag params) s = s.leaves ((State.onMain (State.command 0x0C00 tag.toNat params)) (s.at dt)) := rfl
theorem exec_pcBudget (dt : Nat) (tag : BitVec 16) (params : List Byte) (s : State) :
    exec (.pcBudget dt tag params) s = s.leaves ((State.onMain (State.command 0x0C01 tag.toNat params)) (s.at dt)) := rfl
theorem exec_pcForceIdr (dt : Nat) (tag : BitVec 16) (params : List Byte) (s : State) :
    exec (.pcForceIdr dt tag params) s = s.leaves ((State.onMain (State.command 0x0C02 tag.toNat params)) (s.at dt)) := rfl
theorem exec_pcClipList (dt : Nat) (tag : BitVec 16) (params : List Byte) (s : State) :
    exec (.pcClipList dt tag params) s = s.leaves ((State.onMain (State.command 0x0C03 tag.toNat params)) (s.at dt)) := rfl
theorem exec_pcClipIndex (dt : Nat) (tag : BitVec 16) (params : List Byte) (s : State) :
    exec (.pcClipIndex dt tag params) s = s.leaves ((State.onMain (State.command 0x0C04 tag.toNat params)) (s.at dt)) := rfl
theorem exec_pcClipSend (dt : Nat) (tag : BitVec 16) (params : List Byte) (s : State) :
    exec (.pcClipSend dt tag params) s = s.leaves ((State.onMain (State.command 0x0C05 tag.toNat params)) (s.at dt)) := rfl
theorem exec_pcClipLock (dt : Nat) (tag : BitVec 16) (params : List Byte) (s : State) :
    exec (.pcClipLock dt tag params) s = s.leaves ((State.onMain (State.command 0x0C06 tag.toNat params)) (s.at dt)) := rfl
theorem exec_pcClipUnlock (dt : Nat) (tag : BitVec 16) (params : List Byte) (s : State) :
    exec (.pcClipUnlock dt tag params) s = s.leaves ((State.onMain (State.command 0x0C07 tag.toNat params)) (s.at dt)) := rfl
theorem exec_pcDecLoad (dt : Nat) (tag : BitVec 16) (params : List Byte) (s : State) :
    exec (.pcDecLoad dt tag params) s = s.leaves ((State.onMain (State.command 0x0C08 tag.toNat params)) (s.at dt)) := rfl
theorem exec_pcDecode (dt : Nat) (tag : BitVec 16) (params : List Byte) (s : State) :
    exec (.pcDecode dt tag params) s = s.leaves ((State.onMain (State.command 0x0C09 tag.toNat params)) (s.at dt)) := rfl
theorem exec_pcDecStop (dt : Nat) (tag : BitVec 16) (params : List Byte) (s : State) :
    exec (.pcDecStop dt tag params) s = s.leaves ((State.onMain (State.command 0x0C0A tag.toNat params)) (s.at dt)) := rfl
theorem exec_frameStart (dt : Nat) (chan : Nat) (vc : Nat) (s : State) :
    exec (.frameStart dt chan vc) s = s.leaves ((State.onBlocks (fun x => x.frameStart chan vc)) (s.at dt)) := rfl
theorem exec_lineReceived (dt : Nat) (chan : Nat) (vc : Nat) (dtype : Nat) (bad : Bool) (y : List Nat) (cb : List Nat) (cr : List Nat) (s : State) :
    exec (.lineReceived dt chan vc dtype bad y cb cr) s = s.leaves ((State.onBlocks (fun x => x.lineReceived chan vc dtype bad y cb cr)) (s.at dt)) := rfl
theorem exec_frameEnd (dt : Nat) (chan : Nat) (vc : Nat) (s : State) :
    exec (.frameEnd dt chan vc) s = s.leaves ((State.onBlocks (fun x => x.frameEnd chan vc)) (s.at dt)) := rfl
theorem exec_frameTimeout (dt : Nat) (chan : Nat) (s : State) :
    exec (.frameTimeout dt chan) s = s.leaves ((State.onBlocks (fun x => x.frameTimeout chan)) (s.at dt)) := rfl
theorem exec_lampOn (dt : Nat) (chan : Nat) (s : State) :
    exec (.lampOn dt chan) s = s.leaves ((State.onBlocks (fun x => x.lampOn chan)) (s.at dt)) := rfl
theorem exec_lampMax (dt : Nat) (chan : Nat) (s : State) :
    exec (.lampMax dt chan) s = s.leaves ((State.onBlocks (fun x => x.lampMax chan)) (s.at dt)) := rfl
theorem exec_discStopTimeout (dt : Nat) (disc : Nat) (s : State) :
    exec (.discStopTimeout dt disc) s = s.leaves ((State.onBlocks (fun x => x.discStop disc)) (s.at dt)) := rfl
theorem exec_waStatus (dt : Nat) (tag : BitVec 16) (params : List Byte) (s : State) :
    exec (.waStatus dt tag params) s = s.leaves ((State.onMain (State.command 0x0D00 tag.toNat params)) (s.at dt)) := rfl
theorem exec_waCapture (dt : Nat) (tag : BitVec 16) (params : List Byte) (s : State) :
    exec (.waCapture dt tag params) s = s.leaves ((State.onMain (State.command 0x0D01 tag.toNat params)) (s.at dt)) := rfl
theorem exec_waField (dt : Nat) (tag : BitVec 16) (params : List Byte) (s : State) :
    exec (.waField dt tag params) s = s.leaves ((State.onMain (State.command 0x0D02 tag.toNat params)) (s.at dt)) := rfl
theorem exec_waDisc (dt : Nat) (tag : BitVec 16) (params : List Byte) (s : State) :
    exec (.waDisc dt tag params) s = s.leaves ((State.onMain (State.command 0x0D03 tag.toNat params)) (s.at dt)) := rfl
theorem exec_waI2c (dt : Nat) (tag : BitVec 16) (params : List Byte) (s : State) :
    exec (.waI2c dt tag params) s = s.leaves ((State.onMain (State.command 0x0D04 tag.toNat params)) (s.at dt)) := rfl
theorem exec_pwSample (dt : Nat) (bus : Nat) (sense : List Nat) (out : List Nat) (s : State) :
    exec (.pwSample dt bus sense out) s = s.leaves ((State.onBlocks (fun x => x.pwSample bus sense out)) (s.at dt)) := rfl
theorem exec_fastTrip (dt : Nat) (chan : Nat) (s : State) :
    exec (.fastTrip dt chan) s = s.leaves ((State.onBlocks (fun x => x.fastTrip chan)) (s.at dt)) := rfl
theorem exec_sagFreeze (dt : Nat) (chan : Nat) (low : Bool) (s : State) :
    exec (.sagFreeze dt chan low) s = s.leaves ((State.onBlocks (fun x => x.sagFreeze chan low)) (s.at dt)) := rfl
theorem exec_sagTimeout (dt : Nat) (chan : Nat) (s : State) :
    exec (.sagTimeout dt chan) s = s.leaves ((State.onBlocks (fun x => x.sagTimeout chan)) (s.at dt)) := rfl
theorem exec_uvOff (dt : Nat) (chan : Nat) (s : State) :
    exec (.uvOff dt chan) s = s.leaves ((State.onBlocks (fun x => x.uvOff chan)) (s.at dt)) := rfl
theorem exec_seatChange (dt : Nat) (chan : Nat) (pins : Bool × Bool) (s : State) :
    exec (.seatChange dt chan pins) s = s.leaves ((State.onBlocks (fun x => x.seatChange chan pins.1 pins.2)) (s.at dt)) := rfl
theorem exec_insTimeMet (dt : Nat) (chan : Nat) (s : State) :
    exec (.insTimeMet dt chan) s = s.leaves ((State.onBlocks (fun x => x.inrush chan)) (s.at dt)) := rfl
theorem exec_inrushTimeout (dt : Nat) (chan : Nat) (s : State) :
    exec (.inrushTimeout dt chan) s = s.leaves ((State.onBlocks (fun x => x.inrushTimeout chan)) (s.at dt)) := rfl
theorem exec_backoffExpiry (dt : Nat) (chan : Nat) (s : State) :
    exec (.backoffExpiry dt chan) s = s.leaves ((State.onBlocks (fun x => x.backoffExpiry chan)) (s.at dt)) := rfl
theorem exec_onStable (dt : Nat) (chan : Nat) (s : State) :
    exec (.onStable dt chan) s = s.leaves ((State.onBlocks (fun x => x.onStable chan)) (s.at dt)) := rfl
theorem exec_damagedTimeout (dt : Nat) (chan : Nat) (s : State) :
    exec (.damagedTimeout dt chan) s = s.leaves ((State.onBlocks (fun x => x.damagedTimeout chan)) (s.at dt)) := rfl
theorem exec_pwDisable (dt : Nat) (chan : Nat) (s : State) :
    exec (.pwDisable dt chan) s = s.leaves ((State.onBlocks (fun x => if chan < 12 then State.enClear (pwReg chan) x else x)) (s.at dt)) := rfl
theorem exec_pwStatus (dt : Nat) (tag : BitVec 16) (params : List Byte) (s : State) :
    exec (.pwStatus dt tag params) s = s.leaves ((State.onMain (State.command 0x0E00 tag.toNat params)) (s.at dt)) := rfl
theorem exec_pwClear (dt : Nat) (tag : BitVec 16) (params : List Byte) (s : State) :
    exec (.pwClear dt tag params) s = s.leaves ((State.onMain (State.command 0x0E01 tag.toNat params)) (s.at dt)) := rfl
theorem exec_flitRx (dt : Nat) (link : Nat) (flit : List Byte) (kcode : Bool) (s : State) :
    exec (.flitRx dt link flit kcode) s = s.leaves ((State.onBlocks (fun x => if link < 2 then x.flitRx link flit kcode else x)) (s.at dt)) := rfl
theorem exec_flitSlot (dt : Nat) (link : Nat) (s : State) :
    exec (.flitSlot dt link) s = s.leaves ((State.onBlocks (fun x => x.flitSlot link)) (s.at dt)) := rfl
theorem exec_status (dt : Nat) (link : Nat) (body : List Byte) (s : State) :
    exec (.status dt link body) s = s.leaves ((State.onBlocks (fun x => if link < 2 then x.rxStatus link body false else x)) (s.at dt)) := rfl
theorem exec_nak (dt : Nat) (link : Nat) (body : List Byte) (s : State) :
    exec (.nak dt link body) s = s.leaves ((State.onBlocks (fun x => if link < 2 then x.rxStatus link body true else x)) (s.at dt)) := rfl
theorem exec_init (dt : Nat) (link : Nat) (body : List Byte) (s : State) :
    exec (.init dt link body) s = s.leaves ((State.onBlocks (fun x => if link < 2 then x.rxInit link body else x)) (s.at dt)) := rfl
theorem exec_retrain (dt : Nat) (link : Nat) (cause : BitVec 8) (s : State) :
    exec (.retrain dt link cause) s = s.leaves ((State.onBlocks (fun x => if link < 2 then x.rxRetrain link cause.toNat else x)) (s.at dt)) := rfl
theorem exec_idleReq (dt : Nat) (link : Nat) (s : State) :
    exec (.idleReq dt link) s = s.leaves ((State.onBlocks (fun x => if link < 2 then x.rxIdleReq link else x)) (s.at dt)) := rfl
theorem exec_idleAck (dt : Nat) (link : Nat) (s : State) :
    exec (.idleAck dt link) s = s.leaves ((State.onBlocks (fun x => if link < 2 then x.rxIdleAck link else x)) (s.at dt)) := rfl
theorem exec_statusTimer (dt : Nat) (link : Nat) (s : State) :
    exec (.statusTimer dt link) s = s.leaves ((State.onBlocks (fun x => if link < 2 then x.statusTimer link else x)) (s.at dt)) := rfl
theorem exec_ackTimeout (dt : Nat) (link : Nat) (s : State) :
    exec (.ackTimeout dt link) s = s.leaves ((State.onBlocks (fun x => if link < 2 then x.ackTimeout link else x)) (s.at dt)) := rfl
theorem exec_stMessageOffer (dt : Nat) (link : Nat) (cls : Nat) (dest : BitVec 3) (bytes : List Byte) (s : State) :
    exec (.stMessageOffer dt link cls dest bytes) s = s.leaves ((State.onBlocks (fun x => x.messageOffered link cls dest.toNat bytes)) (s.at dt)) := rfl
theorem exec_trainingDone (dt : Nat) (link : Nat) (s : State) :
    exec (.trainingDone dt link) s = s.leaves ((State.onBlocks (fun x => if link < 2 then x.trainingDone link else x)) (s.at dt)) := rfl
theorem exec_trainingTimeout (dt : Nat) (link : Nat) (s : State) :
    exec (.trainingTimeout dt link) s = s.leaves ((State.onBlocks (fun x => if link < 2 then x.trainingTimeout link else x)) (s.at dt)) := rfl
theorem exec_downRetry (dt : Nat) (link : Nat) (s : State) :
    exec (.downRetry dt link) s = s.leaves ((State.onBlocks (fun x => if link < 2 then x.downRetry link else x)) (s.at dt)) := rfl
theorem exec_sleepWake (dt : Nat) (link : Nat) (partner : Bool) (s : State) :
    exec (.sleepWake dt link partner) s = s.leaves ((State.onBlocks (fun x => if link < 2 then x.sleepWake link partner else x)) (s.at dt)) := rfl
theorem exec_stLinkWrite (dt : Nat) (link : Nat) (value : Word) (s : State) :
    exec (.stLinkWrite dt link value) s = s.leaves ((State.onBlocks (fun x => if link < 2 then State.regWrite (0x0F0100 + 256 * link) value.toNat x else x)) (s.at dt)) := rfl
theorem exec_stStatus (dt : Nat) (tag : BitVec 16) (params : List Byte) (s : State) :
    exec (.stStatus dt tag params) s = s.leaves ((State.onMain (State.command 0x0F00 tag.toNat params)) (s.at dt)) := rfl
theorem exec_stRetrain (dt : Nat) (tag : BitVec 16) (params : List Byte) (s : State) :
    exec (.stRetrain dt tag params) s = s.leaves ((State.onMain (State.command 0x0F01 tag.toNat params)) (s.at dt)) := rfl
theorem exec_announce (dt : Nat) (s : State) :
    exec (.announce dt) s = s.leaves ((State.onBlocks State.announceIn) (s.at dt)) := rfl
theorem exec_stackState (dt : Nat) (s : State) :
    exec (.stackState dt) s = s.leaves ((State.onBlocks State.stackState) (s.at dt)) := rfl
theorem exec_memberState (dt : Nat) (s : State) :
    exec (.memberState dt) s = s.leaves ((State.onBlocks State.memberState) (s.at dt)) := rfl
theorem exec_route (dt : Nat) (s : State) :
    exec (.route dt) s = s.leaves ((State.onBlocks State.routeIn) (s.at dt)) := rfl
theorem exec_command (dt : Nat) (s : State) :
    exec (.command dt) s = s.leaves ((State.onBlocks State.commandMsg) (s.at dt)) := rfl
theorem exec_replyNotice (dt : Nat) (s : State) :
    exec (.replyNotice dt) s = s.leaves ((State.onBlocks State.replyNotice) (s.at dt)) := rfl
theorem exec_meterResult (dt : Nat) (s : State) :
    exec (.meterResult dt) s = s.leaves ((State.onBlocks State.meterResult) (s.at dt)) := rfl
theorem exec_sduDown (dt : Nat) (s : State) :
    exec (.sduDown dt) s = s.leaves ((State.onBlocks State.sduDown) (s.at dt)) := rfl
theorem exec_sduUp (dt : Nat) (s : State) :
    exec (.sduUp dt) s = s.leaves ((State.onBlocks State.sduUp) (s.at dt)) := rfl
theorem exec_refusal (dt : Nat) (s : State) :
    exec (.refusal dt) s = s.leaves ((State.onBlocks State.refusalIn) (s.at dt)) := rfl
theorem exec_regAccess (dt : Nat) (s : State) :
    exec (.regAccess dt) s = s.leaves ((State.onBlocks State.regAccess) (s.at dt)) := rfl
theorem exec_termData (dt : Nat) (s : State) :
    exec (.termData dt) s = s.leaves ((State.onBlocks State.termData) (s.at dt)) := rfl
theorem exec_treeRecord (dt : Nat) (s : State) :
    exec (.treeRecord dt) s = s.leaves ((State.onBlocks State.treeRecordIn) (s.at dt)) := rfl
theorem exec_config (dt : Nat) (s : State) :
    exec (.config dt) s = s.leaves ((State.onBlocks State.configIn) (s.at dt)) := rfl
theorem exec_image (dt : Nat) (s : State) :
    exec (.image dt) s = s.leaves ((State.onBlocks State.imageIn) (s.at dt)) := rfl
theorem exec_timeExchange (dt : Nat) (s : State) :
    exec (.timeExchange dt) s = s.leaves ((State.onBlocks State.timeExchange) (s.at dt)) := rfl
theorem exec_timeResp (dt : Nat) (s : State) :
    exec (.timeResp dt) s = s.leaves ((State.onBlocks State.timeResp) (s.at dt)) := rfl
theorem exec_phase (dt : Nat) (s : State) :
    exec (.phase dt) s = s.leaves ((State.onBlocks State.phaseIn) (s.at dt)) := rfl
theorem exec_routeTimer (dt : Nat) (s : State) :
    exec (.routeTimer dt) s = s.leaves ((State.onBlocks State.routeTimer) (s.at dt)) := rfl
theorem exec_announceTimer (dt : Nat) (s : State) :
    exec (.announceTimer dt) s = s.leaves ((State.onBlocks State.announceTimer) (s.at dt)) := rfl
theorem exec_stackStateTimer (dt : Nat) (s : State) :
    exec (.stackStateTimer dt) s = s.leaves ((State.onBlocks State.periodicState) (s.at dt)) := rfl
theorem exec_electTimeout (dt : Nat) (s : State) :
    exec (.electTimeout dt) s = s.leaves ((State.onBlocks State.electTimeout) (s.at dt)) := rfl
theorem exec_leadLost (dt : Nat) (s : State) :
    exec (.leadLost dt) s = s.leaves ((State.onBlocks State.leadLost) (s.at dt)) := rfl
theorem exec_abdicate (dt : Nat) (s : State) :
    exec (.abdicate dt) s = s.leaves ((State.onBlocks State.abdicate) (s.at dt)) := rfl
theorem exec_takeover (dt : Nat) (s : State) :
    exec (.takeover dt) s = s.leaves ((State.onBlocks State.takeover) (s.at dt)) := rfl
theorem exec_skStatus (dt : Nat) (tag : BitVec 16) (params : List Byte) (s : State) :
    exec (.skStatus dt tag params) s = s.leaves ((State.onMain (State.command 0x1000 tag.toNat params)) (s.at dt)) := rfl
theorem exec_skCfgWrite (dt : Nat) (tag : BitVec 16) (params : List Byte) (s : State) :
    exec (.skCfgWrite dt tag params) s = s.leaves ((State.onMain (State.command 0x1001 tag.toNat params)) (s.at dt)) := rfl
theorem exec_skCfgCommit (dt : Nat) (tag : BitVec 16) (params : List Byte) (s : State) :
    exec (.skCfgCommit dt tag params) s = s.leaves ((State.onMain (State.command 0x1002 tag.toNat params)) (s.at dt)) := rfl
theorem exec_skQuarantine (dt : Nat) (tag : BitVec 16) (params : List Byte) (s : State) :
    exec (.skQuarantine dt tag params) s = s.leaves ((State.onMain (State.command 0x1003 tag.toNat params)) (s.at dt)) := rfl
theorem exec_suppressWindowEnd (dt : Nat) (source : Nat) (s : State) :
    exec (.suppressWindowEnd dt source) s = s.leaves ((State.onBlocks (fun x => x.suppressEnd source)) (s.at dt)) := rfl
theorem exec_flushStart (dt : Nat) (s : State) :
    exec (.flushStart dt) s = s.leaves ((State.onBlocks State.flushStart) (s.at dt)) := rfl
theorem exec_flushStepDone (dt : Nat) (ok : Bool) (s : State) :
    exec (.flushStepDone dt ok) s = s.leaves ((State.onBlocks (fun x => x.flushStepDone ok)) (s.at dt)) := rfl
theorem exec_alStatus (dt : Nat) (tag : BitVec 16) (params : List Byte) (s : State) :
    exec (.alStatus dt tag params) s = s.leaves ((State.onMain (State.command 0x1100 tag.toNat params)) (s.at dt)) := rfl
theorem exec_alRead (dt : Nat) (tag : BitVec 16) (params : List Byte) (s : State) :
    exec (.alRead dt tag params) s = s.leaves ((State.onMain (State.command 0x1101 tag.toNat params)) (s.at dt)) := rfl
theorem exec_alArchives (dt : Nat) (tag : BitVec 16) (params : List Byte) (s : State) :
    exec (.alArchives dt tag params) s = s.leaves ((State.onMain (State.command 0x1102 tag.toNat params)) (s.at dt)) := rfl
theorem exec_alArchRead (dt : Nat) (tag : BitVec 16) (params : List Byte) (s : State) :
    exec (.alArchRead dt tag params) s = s.leaves ((State.onMain (State.command 0x1103 tag.toNat params)) (s.at dt)) := rfl
theorem exec_alUpload (dt : Nat) (tag : BitVec 16) (params : List Byte) (s : State) :
    exec (.alUpload dt tag params) s = s.leaves ((State.onMain (State.command 0x1104 tag.toNat params)) (s.at dt)) := rfl
theorem exec_alFlush (dt : Nat) (tag : BitVec 16) (params : List Byte) (s : State) :
    exec (.alFlush dt tag params) s = s.leaves ((State.onMain (State.command 0x1105 tag.toNat params)) (s.at dt)) := rfl
theorem exec_alWave (dt : Nat) (tag : BitVec 16) (params : List Byte) (s : State) :
    exec (.alWave dt tag params) s = s.leaves ((State.onMain (State.command 0x1106 tag.toNat params)) (s.at dt)) := rfl
theorem exec_alMark (dt : Nat) (tag : BitVec 16) (params : List Byte) (s : State) :
    exec (.alMark dt tag params) s = s.leaves ((State.onMain (State.command 0x1107 tag.toNat params)) (s.at dt)) := rfl
theorem exec_scrubRead (dt : Nat) (r : WordRead) (s : State) :
    exec (.scrubRead dt r) s = s.leaves ((State.onBlocks (fun x => x.scrub r)) (s.at dt)) := rfl
theorem exec_fieldRepair (dt : Nat) (s : State) :
    exec (.fieldRepair dt) s = s.leaves ((State.onBlocks State.fieldRepair) (s.at dt)) := rfl
theorem exec_repairLogFlash (dt : Nat) (s : State) :
    exec (.repairLogFlash dt) s = s.leaves ((State.onBlocks State.repairLogFlash) (s.at dt)) := rfl
theorem exec_hearthScrub (dt : Nat) (region : Nat) (offset : Nat) (r : WordRead) (s : State) :
    exec (.hearthScrub dt region offset r) s = s.leaves ((fun x => x.hearthScrub region offset r) (s.at dt)) := rfl
theorem exec_mmStatus (dt : Nat) (tag : BitVec 16) (params : List Byte) (s : State) :
    exec (.mmStatus dt tag params) s = s.leaves ((State.onMain (State.command 0x1200 tag.toNat params)) (s.at dt)) := rfl
theorem exec_mmLog (dt : Nat) (tag : BitVec 16) (params : List Byte) (s : State) :
    exec (.mmLog dt tag params) s = s.leaves ((State.onMain (State.command 0x1201 tag.toNat params)) (s.at dt)) := rfl
theorem exec_mmWithdraw (dt : Nat) (tag : BitVec 16) (params : List Byte) (s : State) :
    exec (.mmWithdraw dt tag params) s = s.leaves ((State.onMain (State.command 0x1202 tag.toNat params)) (s.at dt)) := rfl
theorem exec_flashOperationDone (dt : Nat) (ok : Bool) (s : State) :
    exec (.flashOperationDone dt ok) s = s.leaves ((State.onMain (fun x => x.flashDone ok)) (s.at dt)) := rfl
theorem exec_eyeMeasurementDone (dt : Nat) (lane : Nat) (phase : List Nat) (volt : List Nat) (point : Nat) (s : State) :
    exec (.eyeMeasurementDone dt lane phase volt point) s = s.leaves ((State.onBlocks (fun x => x.eyeDone lane phase volt point)) (s.at dt)) := rfl
theorem exec_busReleased (dt : Nat) (port : Nat) (s : State) :
    exec (.busReleased dt port) s = s.leaves ((State.onBlocks (fun x => x.busReleased port)) (s.at dt)) := rfl
theorem exec_startUpTestPassed (dt : Nat) (s : State) :
    exec (.startUpTestPassed dt) s = s.leaves ((State.onBlocks State.rngPassed) (s.at dt)) := rfl
theorem exec_crystalRunningAgain (dt : Nat) (s : State) :
    exec (.crystalRunningAgain dt) s = s.leaves (State.xtalAgain (s.at dt)) := rfl
theorem exec_duplicateQuietTimeout (dt : Nat) (s : State) :
    exec (.duplicateQuietTimeout dt) s = s.leaves ((State.onBlocks State.duplicateQuiet) (s.at dt)) := rfl
theorem exec_memberStateTimeout (dt : Nat) (s : State) :
    exec (.memberStateTimeout dt) s = s.leaves ((State.onBlocks State.memberStateTimeout) (s.at dt)) := rfl
theorem exec_phaseClipped (dt : Nat) (phase : Nat) (s : State) :
    exec (.phaseClipped dt phase) s = s.leaves ((State.onBlocks (fun x => x.phaseClipped phase)) (s.at dt)) := rfl
theorem exec_inactiveBankWaitTimeout (dt : Nat) (s : State) :
    exec (.inactiveBankWaitTimeout dt) s = s.leaves ((State.onBlocks State.bankWaitOver) (s.at dt)) := rfl

end Sys2Proof.Machine
end

