-- ==== Sys2Proof/Laws/Store.lean ====
section
/-! SUPPORT. The register store and the flash: what a read gives after a write, and that every operation keeps the
canonical form. -/

namespace Sys2Proof.Machine

/-! ### The register store -/

/-- The canonical form, said of a head: its word differs from the reset value, and the rest lies above it. -/
theorem RegFile.wf_cons (a v : Nat) (t : RegFile) :
    RegFile.wf ((a, v) :: t) = true ↔ v ≠ regReset a ∧ (∀ p ∈ t, a < p.1) ∧ RegFile.wf t = true := by
  induction t generalizing a v with
  | nil => simp [RegFile.wf]
  | cons q t ih =>
    obtain ⟨b, w⟩ := q
    have e : RegFile.wf ((a, v) :: (b, w) :: t) = true ↔ v ≠ regReset a ∧ a < b ∧ RegFile.wf ((b, w) :: t) = true := by
      simp [RegFile.wf, and_assoc]
    rw [e]
    constructor
    · rintro ⟨h1, h2, h3⟩
      refine ⟨h1, ?_, h3⟩
      intro p hp
      rcases List.mem_cons.mp hp with rfl | hp
      · exact h2
      · exact Nat.lt_trans h2 (((ih b w).mp h3).2.1 p hp)
    · rintro ⟨h1, h2, h3⟩
      exact ⟨h1, h2 (b, w) (by simp), h3⟩

/-- A word below every entry of the store reads as its reset value. -/
theorem RegFile.get_below (t : RegFile) (a : Nat) (h : ∀ p ∈ t, a < p.1) : RegFile.get t a = regReset a := by
  cases t with
  | nil => rfl
  | cons q t =>
    obtain ⟨b, w⟩ := q
    have : a < b := h (b, w) (by simp)
    simp [RegFile.get, Nat.ne_of_gt this, Nat.not_lt_of_gt this]

/-- What the store may hold after a write: an entry of the store, or the one written. -/
theorem RegFile.mem_set (r : RegFile) (a v : Nat) (p : Nat × Nat) (h : p ∈ RegFile.set r a v) : p ∈ r ∨ p = (a, v) := by
  induction r with
  | nil =>
    simp only [RegFile.set] at h
    split at h <;> simp_all
  | cons q t ih =>
    obtain ⟨b, w⟩ := q
    simp only [RegFile.set] at h
    repeat' split at h
    all_goals grind

/-- A write keeps the canonical form of the register store. -/
theorem RegFile.wf_set (r : RegFile) (a v : Nat) (h : RegFile.wf r = true) : RegFile.wf (RegFile.set r a v) = true := by
  induction r with
  | nil =>
    simp only [RegFile.set]
    split
    · rfl
    · simpa [RegFile.wf]
  | cons q t ih =>
    obtain ⟨b, w⟩ := q
    have hc := (RegFile.wf_cons b w t).mp h
    simp only [RegFile.set]
    split
    · rename_i hb
      refine (RegFile.wf_cons b w _).mpr ⟨hc.1, ?_, ih hc.2.2⟩
      intro p hp
      rcases RegFile.mem_set t a v p hp with hp | rfl
      · exact hc.2.1 p hp
      · exact hb
    · split
      · rename_i hb
        subst hb
        split
        · exact hc.2.2
        · exact (RegFile.wf_cons _ _ _).mpr ⟨by assumption, hc.2.1, hc.2.2⟩
      · split
        · exact h
        · refine (RegFile.wf_cons _ _ _).mpr ⟨by assumption, ?_, h⟩
          intro p hp
          rcases List.mem_cons.mp hp with rfl | hp
          · show a < b
            omega
          · have := hc.2.1 p hp
            omega

/-- A register read after a write: the word written. -/
theorem RegFile.get_set_same (r : RegFile) (a v : Nat) (h : RegFile.wf r = true) :
    RegFile.get (RegFile.set r a v) a = v := by
  induction r with
  | nil =>
    simp only [RegFile.set]
    split <;> simp_all [RegFile.get]
  | cons q t ih =>
    obtain ⟨b, w⟩ := q
    have hc := (RegFile.wf_cons b w t).mp h
    simp only [RegFile.set]
    split
    · rename_i hb
      simp [RegFile.get, Nat.ne_of_lt hb, hb, ih hc.2.2]
    · split
      · rename_i hb
        subst hb
        split
        · rename_i hv
          rw [hv]
          exact RegFile.get_below t b hc.2.1
        · simp [RegFile.get]
      · split
        · rename_i h1 h2 hv
          rw [hv]
          refine RegFile.get_below _ a ?_
          intro p hp
          rcases List.mem_cons.mp hp with rfl | hp
          · show a < b
            omega
          · have := hc.2.1 p hp
            omega
        · simp [RegFile.get]

/-- A write leaves every other register alone. -/
theorem RegFile.get_set_other (r : RegFile) (a b v : Nat) (h : RegFile.wf r = true) (hab : b ≠ a) :
    RegFile.get (RegFile.set r a v) b = RegFile.get r b := by
  induction r with
  | nil =>
    simp only [RegFile.set]
    split
    · rfl
    · simp [RegFile.get, Ne.symm hab]
  | cons q t ih =>
    obtain ⟨c, w⟩ := q
    have hc := (RegFile.wf_cons c w t).mp h
    simp only [RegFile.set]
    split
    · simp only [RegFile.get, ih hc.2.2]
    · split
      · rename_i h1 h2
        subst h2
        have hcb : c ≠ b := fun e => hab e.symm
        split
        · simp only [RegFile.get, hcb, if_false]
          split
          · rfl
          · refine RegFile.get_below t b ?_
            intro p hp
            have := hc.2.1 p hp
            omega
        · simp [RegFile.get, hcb]
      · split
        · rfl
        · rename_i h1 h2 h3
          by_cases hlt : a < b
          · simp [RegFile.get, Ne.symm hab, hlt]
          · have hcb : ¬ c = b := by omega
            have hlt2 : ¬ c < b := by omega
            simp [RegFile.get, Ne.symm hab, hlt, hcb, hlt2]

/-- A register store of the entries that a condition keeps is canonical. -/
theorem RegFile.wf_filter (r : RegFile) (f : Nat × Nat → Bool) (h : RegFile.wf r = true) :
    RegFile.wf (r.filter f) = true := by
  induction r with
  | nil => rfl
  | cons q t ih =>
    obtain ⟨b, w⟩ := q
    have hc := (RegFile.wf_cons b w t).mp h
    rw [List.filter_cons]
    split
    · exact (RegFile.wf_cons _ _ _).mpr ⟨hc.1, fun p hp => hc.2.1 p (List.mem_filter.mp hp).1, ih hc.2.2⟩
    · exact ih hc.2.2

/-- The store after a reset of the main domain is canonical. -/
theorem RegFile.wf_hearthOnly (r : RegFile) (h : RegFile.wf r = true) : RegFile.wf (RegFile.hearthOnly r) = true :=
  RegFile.wf_filter r _ h

/-! ### The flash -/

/-- The canonical form of the flash, said of a head. -/
theorem flashWf_cons (a : Nat) (v : Byte) (t : List Host.Cell) :
    flashWf ((a, v) :: t) = true ↔ v ≠ 0xFF#8 ∧ (∀ p ∈ t, a < p.1) ∧ flashWf t = true := by
  induction t generalizing a v with
  | nil => simp [flashWf]
  | cons q t ih =>
    obtain ⟨b, w⟩ := q
    have e : flashWf ((a, v) :: (b, w) :: t) = true ↔ v ≠ 0xFF#8 ∧ a < b ∧ flashWf ((b, w) :: t) = true := by
      simp [flashWf, and_assoc]
    rw [e]
    constructor
    · rintro ⟨h1, h2, h3⟩
      refine ⟨h1, ?_, h3⟩
      intro p hp
      rcases List.mem_cons.mp hp with rfl | hp
      · exact h2
      · exact Nat.lt_trans h2 (((ih b w).mp h3).2.1 p hp)
    · rintro ⟨h1, h2, h3⟩
      exact ⟨h1, h2 (b, w) (by simp), h3⟩

/-- A byte below every listed one reads as erased. -/
theorem flashGet_below (t : List Host.Cell) (a : Nat) (h : ∀ p ∈ t, a < p.1) : flashGet t a = 0xFF#8 := by
  cases t with
  | nil => rfl
  | cons q t =>
    obtain ⟨b, w⟩ := q
    have : a < b := h (b, w) (by simp)
    simp [flashGet, Nat.ne_of_gt this, Nat.not_lt_of_gt this]

/-- What the flash may list after a byte is written. -/
theorem mem_flashSet (m : List Host.Cell) (a : Nat) (v : Byte) (p : Host.Cell) (h : p ∈ flashSet m a v) :
    p ∈ m ∨ p = (a, v) := by
  induction m with
  | nil =>
    simp only [flashSet] at h
    split at h <;> simp_all
  | cons q t ih =>
    obtain ⟨b, w⟩ := q
    simp only [flashSet] at h
    repeat' split at h
    all_goals grind

/-- A byte written keeps the canonical form of the flash. -/
theorem flashWf_set (m : List Host.Cell) (a : Nat) (v : Byte) (h : flashWf m = true) :
    flashWf (flashSet m a v) = true := by
  induction m with
  | nil =>
    simp only [flashSet]
    split
    · rfl
    · simpa [flashWf]
  | cons q t ih =>
    obtain ⟨b, w⟩ := q
    have hc := (flashWf_cons b w t).mp h
    simp only [flashSet]
    split
    · rename_i hb
      refine (flashWf_cons b w _).mpr ⟨hc.1, ?_, ih hc.2.2⟩
      intro p hp
      rcases mem_flashSet t a v p hp with hp | rfl
      · exact hc.2.1 p hp
      · exact hb
    · split
      · rename_i hb
        subst hb
        split
        · exact hc.2.2
        · exact (flashWf_cons _ _ _).mpr ⟨by assumption, hc.2.1, hc.2.2⟩
      · split
        · exact h
        · refine (flashWf_cons _ _ _).mpr ⟨by assumption, ?_, h⟩
          intro p hp
          rcases List.mem_cons.mp hp with rfl | hp
          · show a < b
            omega
          · have := hc.2.1 p hp
            omega

/-- A byte of the flash read after it is written. -/
theorem flashGet_set_same (m : List Host.Cell) (a : Nat) (v : Byte) (h : flashWf m = true) :
    flashGet (flashSet m a v) a = v := by
  induction m with
  | nil =>
    simp only [flashSet]
    split <;> simp_all [flashGet]
  | cons q t ih =>
    obtain ⟨b, w⟩ := q
    have hc := (flashWf_cons b w t).mp h
    simp only [flashSet]
    split
    · rename_i hb
      simp [flashGet, Nat.ne_of_lt hb, hb, ih hc.2.2]
    · split
      · rename_i hb
        subst hb
        split
        · rename_i hv
          rw [hv]
          exact flashGet_below t b hc.2.1
        · simp [flashGet]
      · split
        · rename_i h1 h2 hv
          rw [hv]
          refine flashGet_below _ a ?_
          intro p hp
          rcases List.mem_cons.mp hp with rfl | hp
          · show a < b
            omega
          · have := hc.2.1 p hp
            omega
        · simp [flashGet]

/-- A byte written leaves every other byte of the flash alone. -/
theorem flashGet_set_other (m : List Host.Cell) (a b : Nat) (v : Byte) (h : flashWf m = true) (hab : b ≠ a) :
    flashGet (flashSet m a v) b = flashGet m b := by
  induction m with
  | nil =>
    simp only [flashSet]
    split
    · rfl
    · simp [flashGet, Ne.symm hab]
  | cons q t ih =>
    obtain ⟨c, w⟩ := q
    have hc := (flashWf_cons c w t).mp h
    simp only [flashSet]
    split
    · simp only [flashGet, ih hc.2.2]
    · split
      · rename_i h1 h2
        subst h2
        have hcb : c ≠ b := fun e => hab e.symm
        split
        · simp only [flashGet, hcb, if_false]
          split
          · rfl
          · refine flashGet_below t b ?_
            intro p hp
            have := hc.2.1 p hp
            omega
        · simp [flashGet, hcb]
      · split
        · rfl
        · rename_i h1 h2 h3
          by_cases hlt : a < b
          · simp [flashGet, Ne.symm hab, hlt]
          · have hcb : ¬ c = b := by omega
            have hlt2 : ¬ c < b := by omega
            simp [flashGet, Ne.symm hab, hlt, hcb, hlt2]

/-- Programming keeps the canonical form of the flash. -/
theorem flashWf_write (l : List Byte) (m : List Host.Cell) (a : Nat) (h : flashWf m = true) :
    flashWf (flashWrite m a l) = true := by
  induction l generalizing m a with
  | nil => exact h
  | cons b t ih => exact ih _ _ (flashWf_set m a b h)

/-- Erasing keeps the canonical form of the flash. -/
theorem flashWf_erase (m : List Host.Cell) (a n : Nat) (h : flashWf m = true) : flashWf (flashErase m a n) = true := by
  unfold flashErase
  induction m with
  | nil => rfl
  | cons q t ih =>
    obtain ⟨b, w⟩ := q
    have hc := (flashWf_cons b w t).mp h
    rw [List.filter_cons]
    split
    · exact (flashWf_cons _ _ _).mpr ⟨hc.1, fun p hp => hc.2.1 p (List.mem_filter.mp hp).1, ih hc.2.2⟩
    · exact ih hc.2.2

end Sys2Proof.Machine
end

