-- ==== Sys2Proof/Laws/Keeps.lean ====
section
/-! SUPPORT. What every operation inside a command keeps: the queue of commands, the tick counter, the canonical forms of
the register store and the flash; and MIN_SEC, whose fuse bits are never cleared. -/

namespace Sys2Proof.Machine

/-- What an operation inside a command keeps, from a state `s` to a state `t`. -/
structure Keeps (s t : State) : Prop where
  pending : t.pending = s.pending
  now : t.now = s.now
  minSec : s.minSec ≤ t.minSec
  regs : RegFile.wf s.regs = true → RegFile.wf t.regs = true
  flash : flashWf s.flash = true → flashWf t.flash = true

/-- Nothing done keeps everything. -/
theorem Keeps.refl (s : State) : Keeps s s := ⟨rfl, rfl, Nat.le_refl _, id, id⟩

/-- One operation after another. -/
theorem Keeps.trans {s t u : State} (h : Keeps s t) (k : Keeps t u) : Keeps s u :=
  ⟨k.pending.trans h.pending, k.now.trans h.now, Nat.le_trans h.minSec k.minSec, fun x => k.regs (h.regs x),
   fun x => k.flash (h.flash x)⟩

/-- An update of the blocks, of the Hearth or of the free-value counter. -/
theorem Keeps.upd {r x : State} {i : Nat} {y : List (Option Nat)} {c : List Cycle} {hh : Hearth} {m : Main} (h : Keeps r x) :
    Keeps r ⟨x.pending, x.now, i, c, y, x.regs, x.minSec, x.flash, hh, m⟩ :=
  ⟨h.pending, h.now, h.minSec, h.regs, h.flash⟩

/-- An update of the register store that keeps its form. -/
theorem Keeps.updRegs {r x : State} {i : Nat} {y : List (Option Nat)} {c : List Cycle} {g : RegFile} {hh : Hearth} {m : Main} (h : Keeps r x)
    (k : RegFile.wf x.regs = true → RegFile.wf g = true) :
    Keeps r ⟨x.pending, x.now, i, c, y, g, x.minSec, x.flash, hh, m⟩ :=
  ⟨h.pending, h.now, h.minSec, fun w => k (h.regs w), h.flash⟩

/-- An update of the flash that keeps its form. -/
theorem Keeps.updFlash {r x : State} {i : Nat} {y : List (Option Nat)} {c : List Cycle} {g : List Host.Cell} {hh : Hearth} {m : Main} (h : Keeps r x)
    (k : flashWf x.flash = true → flashWf g = true) :
    Keeps r ⟨x.pending, x.now, i, c, y, x.regs, x.minSec, g, hh, m⟩ :=
  ⟨h.pending, h.now, h.minSec, h.regs, fun w => k (h.flash w)⟩

/-- The register store `g` keeps its form if that of `r` has it. -/
structure RegsKept (r : State) (g : RegFile) : Prop where
  wf : RegFile.wf r.regs = true → RegFile.wf g = true

/-- The flash `g` keeps its form if that of `r` has it. -/
structure FlashKept (r : State) (g : List Host.Cell) : Prop where
  wf : flashWf r.flash = true → flashWf g = true

theorem RegsKept.of {r s : State} (h : Keeps r s) : RegsKept r s.regs := ⟨h.regs⟩
theorem RegsKept.nil (r : State) : RegsKept r [] := ⟨fun _ => rfl⟩
theorem RegsKept.set {r : State} {g : RegFile} {a v : Nat} (h : RegsKept r g) : RegsKept r (RegFile.set g a v) :=
  ⟨fun w => RegFile.wf_set _ _ _ (h.wf w)⟩
theorem RegsKept.filter {r : State} {g : RegFile} {f : Nat × Nat → Bool} (h : RegsKept r g) : RegsKept r (g.filter f) :=
  ⟨fun w => RegFile.wf_filter _ _ (h.wf w)⟩
theorem RegsKept.hearthOnly {r : State} {g : RegFile} (h : RegsKept r g) : RegsKept r (RegFile.hearthOnly g) :=
  ⟨fun w => RegFile.wf_hearthOnly _ (h.wf w)⟩
theorem FlashKept.of {r s : State} (h : Keeps r s) : FlashKept r s.flash := ⟨h.flash⟩
theorem FlashKept.write {r : State} {g : List Host.Cell} {a : Nat} {l : List Byte} (h : FlashKept r g) :
    FlashKept r (flashWrite g a l) := ⟨fun w => flashWf_write _ _ _ (h.wf w)⟩
theorem FlashKept.erase {r : State} {g : List Host.Cell} {a n : Nat} (h : FlashKept r g) :
    FlashKept r (flashErase g a n) := ⟨fun w => flashWf_erase _ _ _ (h.wf w)⟩

/-- An update of the register store, of MIN_SEC and of the flash that keeps their forms and clears no fuse bit. -/
theorem Keeps.setBoth {r x : State} {i n : Nat} {y : List (Option Nat)} {c : List Cycle} {g : RegFile} {f : List Host.Cell} {hh : Hearth} {m : Main}
    (h : Keeps r x) (kn : x.minSec ≤ n) (kg : RegsKept r g) (kf : FlashKept r f) :
    Keeps r ⟨x.pending, x.now, i, c, y, g, n, f, hh, m⟩ :=
  ⟨h.pending, h.now, Nat.le_trans h.minSec kn, kg.wf, kf.wf⟩

/-- An update of MIN_SEC that clears no fuse bit. -/
theorem Keeps.setMinSec {r x : State} {i n : Nat} {y : List (Option Nat)} {c : List Cycle} {hh : Hearth} {m : Main} (h : Keeps r x) (k : x.minSec ≤ n) :
    Keeps r ⟨x.pending, x.now, i, c, y, x.regs, n, x.flash, hh, m⟩ :=
  ⟨h.pending, h.now, Nat.le_trans h.minSec k, h.regs, h.flash⟩

/-- One of two operations. -/
theorem Keeps.ite {r x y : State} {c : Prop} [Decidable c] (hx : Keeps r x) (hy : Keeps r y) :
    Keeps r (if c then x else y) := by
  split
  · exact hx
  · exact hy

/-- An operation that may not apply. -/
theorem Keeps.getD {r d : State} {o : Option State} (ho : ∀ t, o = some t → Keeps r t) (hd : Keeps r d) :
    Keeps r (o.getD d) := by
  cases o with
  | none => exact hd
  | some t => exact ho t rfl

/-- An operation that answers a state and a result, as a pair. -/
theorem Keeps.ofFst {β : Type} {r t : State} {p : State × β} {x : β} (e : p = (t, x)) (h : Keeps r p.1) : Keeps r t := by
  rw [e] at h
  exact h

/-- A fold of operations. -/
theorem Keeps.foldl {α : Type} {r s : State} {f : State → α → State} {l : List α}
    (hf : ∀ y a, Keeps r y → Keeps r (f y a)) (h : Keeps r s) : Keeps r (l.foldl f s) := by
  induction l generalizing s with
  | nil => exact h
  | cons a t ih => exact ih (hf s a h)

/-- A fold that carries a state and a result. -/
theorem Keeps.foldl_fst {α β : Type} {r : State} {p : State × β} {f : State × β → α → State × β} {l : List α}
    (hf : ∀ y a, Keeps r y.1 → Keeps r (f y a).1) (h : Keeps r p.1) : Keeps r (l.foldl f p).1 := by
  induction l generalizing p with
  | nil => exact h
  | cons a t ih => exact ih (hf p a h)

/-- A fold that carries a result and a state. -/
theorem Keeps.foldl_snd {α β : Type} {r : State} {p : β × State} {f : β × State → α → β × State} {l : List α}
    (hf : ∀ y a, Keeps r y.2 → Keeps r (f y a).2) (h : Keeps r p.2) : Keeps r (l.foldl f p).2 := by
  induction l generalizing p with
  | nil => exact h
  | cons a t ih => exact ih (hf p a h)

end Sys2Proof.Machine
end

