-- ==== Sys2Proof/Laws/KeepsOps.lean ====
section
/-! SUPPORT. The operations of Machine/Ops.lean keep what every operation inside a command keeps (`Keeps`). -/

namespace Sys2Proof.Machine

set_option linter.unusedTactic false
set_option linter.unreachableTactic false
set_option linter.unusedVariables false
set_option linter.unnecessarySeqFocus false

theorem State.setWord_keeps {r : State} (s : State) (a : Nat) (v : Nat) (h0 : Keeps r s) : Keeps r (State.setWord s a v) := by
  exact Keeps.updRegs h0 (fun w => RegFile.wf_set _ _ _ w)

theorem State.setFld_keeps {r : State} (s : State) (a : Nat) (hi : Nat) (lo : Nat) (v : Nat) (h0 : Keeps r s) : Keeps r (State.setFld s a hi lo v) := by
  unfold State.setFld
  conv => zeta
  repeat' (first | with_reducible assumption | (intro _) | with_reducible apply State.setWord_keeps | fail_if_no_progress with_reducible apply Keeps.upd | dsimp only | split)

theorem State.inCycle_keeps {r : State} (s : State) (c : Cycle) (h0 : Keeps r s) : Keeps r (State.inCycle s c) := by
  unfold State.inCycle
  conv => zeta
  repeat' (first | with_reducible assumption | (intro _) | fail_if_no_progress with_reducible apply Keeps.upd | dsimp only | split)

theorem State.countN_keeps {r : State} (s : State) (a : Nat) (hi : Nat) (lo : Nat) (n : Nat) (h0 : Keeps r s) : Keeps r (State.countN s a hi lo n) := by
  unfold State.countN
  conv => zeta
  repeat' (first | with_reducible assumption | (intro _) | with_reducible apply State.setFld_keeps | with_reducible apply State.inCycle_keeps | fail_if_no_progress with_reducible apply Keeps.upd | dsimp only | split)

theorem State.countWrap_keeps {r : State} (s : State) (a : Nat) (hi : Nat) (lo : Nat) (n : Nat) (h0 : Keeps r s) : Keeps r (State.countWrap s a hi lo n) := by
  unfold State.countWrap
  conv => zeta
  repeat' (first | with_reducible assumption | (intro _) | with_reducible apply State.setFld_keeps | with_reducible apply State.inCycle_keeps | fail_if_no_progress with_reducible apply Keeps.upd | dsimp only | split)

theorem State.latchFld_keeps {r : State} (s : State) (a : Nat) (hi : Nat) (lo : Nat) (v : Nat) (h0 : Keeps r s) : Keeps r (State.latchFld s a hi lo v) := by
  unfold State.latchFld
  conv => zeta
  repeat' (first | with_reducible assumption | (intro _) | with_reducible apply State.setFld_keeps | with_reducible apply State.inCycle_keeps | fail_if_no_progress with_reducible apply Keeps.upd | dsimp only | split)

theorem State.count_keeps {r : State} (s : State) (a : Nat) (hi : Nat) (lo : Nat) (h0 : Keeps r s) : Keeps r (State.count s a hi lo) := by
  unfold State.count
  conv => zeta
  repeat' (first | with_reducible assumption | (intro _) | with_reducible apply State.countN_keeps | fail_if_no_progress with_reducible apply Keeps.upd | dsimp only | split)

theorem State.draw_keeps {r : State} (s : State) (h0 : Keeps r s) : Keeps r (State.draw s).2 := by
  unfold State.draw
  conv => zeta
  repeat' (first | with_reducible assumption | (intro _) | fail_if_no_progress with_reducible apply Keeps.upd | dsimp only | split)

theorem State.draw_keeps_eq {r : State} (s : State) {xx tt} (e : State.draw s = (xx, tt)) (h0 : Keeps r s) : Keeps r tt := by
  have q := State.draw_keeps (r := r) s h0
  rw [e] at q
  exact q

theorem State.drawBytes_keeps {r : State} (s : State) (n : Nat) (h0 : Keeps r s) : Keeps r (State.drawBytes s n).2 := by
  unfold State.drawBytes
  conv => zeta
  repeat' (first | with_reducible assumption | (intro _) | fail_if_no_progress with_reducible apply Keeps.upd | dsimp only | split)

theorem State.drawBytes_keeps_eq {r : State} (s : State) (n : Nat) {xx tt} (e : State.drawBytes s n = (xx, tt)) (h0 : Keeps r s) : Keeps r tt := by
  have q := State.drawBytes_keeps (r := r) s n h0
  rw [e] at q
  exact q

theorem State.passHearth_keeps {r : State} (s : State) (dt : Nat) (h0 : Keeps r s) : Keeps r (State.passHearth s dt) := by
  unfold State.passHearth
  conv => zeta
  repeat' (first | with_reducible assumption | (intro _) | fail_if_no_progress with_reducible apply Keeps.upd | dsimp only | split)

theorem State.passMain_keeps {r : State} (s : State) (dt : Nat) (h0 : Keeps r s) : Keeps r (State.passMain s dt) := by
  unfold State.passMain
  conv => zeta
  repeat' (first | with_reducible assumption | (intro _) | fail_if_no_progress with_reducible apply Keeps.upd | dsimp only | split)

theorem State.ringWrite_keeps {r : State} (s : State) (body : List Byte) (h0 : Keeps r s) : Keeps r (State.ringWrite s body) := by
  unfold State.ringWrite
  conv => zeta
  repeat' (first | with_reducible assumption | (intro _) | fail_if_no_progress with_reducible apply Keeps.upd | dsimp only | split)

theorem State.drainAsh_keeps {r : State} (s : State) (h0 : Keeps r s) : Keeps r (State.drainAsh s) := by
  unfold State.drainAsh
  conv => zeta
  repeat' (first | with_reducible assumption | (intro _) | with_reducible apply State.ringWrite_keeps | fail_if_no_progress with_reducible apply Keeps.upd | with_reducible apply Keeps.foldl | with_reducible apply Keeps.foldl_fst | with_reducible apply Keeps.foldl_snd | dsimp only | split)

theorem State.ashHearth_keeps {r : State} (s : State) (source : Nat) (kind : Nat) (detail : List Byte) (h0 : Keeps r s) : Keeps r (State.ashHearth s source kind detail) := by
  unfold State.ashHearth
  conv => zeta
  repeat' (first | with_reducible assumption | (intro _) | with_reducible apply State.ringWrite_keeps | fail_if_no_progress with_reducible apply Keeps.upd | dsimp only | split)

theorem State.ashGroup_keeps {r : State} (s : State) (source : Nat) (bodies : List (List Byte)) (h0 : Keeps r s) : Keeps r (State.ashGroup s source bodies) := by
  unfold State.ashGroup
  conv => zeta
  repeat' (first | with_reducible assumption | (intro _) | with_reducible apply State.countN_keeps | fail_if_no_progress with_reducible apply Keeps.upd | with_reducible apply Keeps.getD | dsimp only | split)

theorem State.ash_keeps {r : State} (s : State) (source : Nat) (kind : Nat) (detail : List Byte) (h0 : Keeps r s) : Keeps r (State.ash s source kind detail) := by
  unfold State.ash
  conv => zeta
  repeat' (first | with_reducible assumption | (intro _) | with_reducible apply State.ashGroup_keeps | fail_if_no_progress with_reducible apply Keeps.upd | dsimp only | split)

theorem State.modLink_keeps {r : State} (s : State) (a1 : Nat) (f : Link → Link) (h0 : Keeps r s) : Keeps r (State.modLink s a1 f) := by
  unfold State.modLink
  conv => zeta
  repeat' (first | with_reducible assumption | (intro _) | fail_if_no_progress with_reducible apply Keeps.upd | dsimp only | split)

theorem State.offerOn_keeps {r : State} (s : State) (a1 : Nat) (m : StMsg) {t : State} (h0 : Keeps r s) (e : State.offerOn s a1 m = some t) : Keeps r t := by
  unfold State.offerOn at e
  conv at e => zeta
  (repeat' split at e) <;> (try cases e) <;> (try simp only [Option.some.injEq, Prod.mk.injEq] at e) <;> (try obtain ⟨_, e⟩ := e) <;> (try subst e)
  all_goals (repeat' (first | with_reducible assumption | (intro _) | with_reducible apply State.modLink_keeps | fail_if_no_progress with_reducible apply Keeps.upd | dsimp only | split))

theorem State.offer_keeps {r : State} (s : State) (m : StMsg) {t : State} (h0 : Keeps r s) (e : State.offer s m = some t) : Keeps r t := by
  unfold State.offer at e
  conv at e => zeta
  (repeat' split at e) <;> (try cases e) <;> (try simp only [Option.some.injEq, Prod.mk.injEq] at e) <;> (try obtain ⟨_, e⟩ := e) <;> (try subst e)
  all_goals (repeat' (first | with_reducible assumption | (intro _) | (with_reducible apply State.offerOn_keeps (e := by with_reducible assumption)) | fail_if_no_progress with_reducible apply Keeps.upd | dsimp only | split))

theorem State.sendMsg_keeps {r : State} (s : State) (cls : Nat) (dest : Nat) (type : Nat) (aux : Nat) (body : List Byte) (h0 : Keeps r s) : Keeps r (State.sendMsg s cls dest type aux body) := by
  unfold State.sendMsg
  conv => zeta
  repeat' (first | with_reducible assumption | (intro _) | (with_reducible apply State.offer_keeps (e := by with_reducible assumption)) | fail_if_no_progress with_reducible apply Keeps.upd | dsimp only | split)

theorem State.modCmd_keeps {r : State} (s : State) (f : Cmd → Cmd) (h0 : Keeps r s) : Keeps r (State.modCmd s f) := by
  unfold State.modCmd
  conv => zeta
  repeat' (first | with_reducible assumption | (intro _) | fail_if_no_progress with_reducible apply Keeps.upd | dsimp only | split)

theorem State.unsend_keeps {r : State} (s : State) (v_e : OpEntry) (h0 : Keeps r s) : Keeps r (State.unsend s v_e) := by
  unfold State.unsend
  conv => zeta
  repeat' (first | with_reducible assumption | (intro _) | fail_if_no_progress with_reducible apply Keeps.upd | dsimp only | split)

theorem State.modOp_keeps {r : State} (s : State) (id : Nat) (f : OpEntry → OpEntry) (h0 : Keeps r s) : Keeps r (State.modOp s id f) := by
  unfold State.modOp
  conv => zeta
  repeat' (first | with_reducible assumption | (intro _) | with_reducible apply State.modCmd_keeps | fail_if_no_progress with_reducible apply Keeps.upd | dsimp only | split)

theorem State.freeOp_keeps {r : State} (s : State) (id : Nat) (h0 : Keeps r s) : Keeps r (State.freeOp s id) := by
  unfold State.freeOp
  conv => zeta
  repeat' (first | with_reducible assumption | (intro _) | with_reducible apply State.modCmd_keeps | fail_if_no_progress with_reducible apply Keeps.upd | dsimp only | split)

theorem State.pushOut_keeps {r : State} (s : State) (p : OutPkt) (h0 : Keeps r s) : Keeps r (State.pushOut s p) := by
  unfold State.pushOut
  conv => zeta
  repeat' (first | with_reducible assumption | (intro _) | with_reducible apply State.modCmd_keeps | fail_if_no_progress with_reducible apply Keeps.upd | dsimp only | split)

theorem State.placeReply_keeps {r : State} (s : State) (p : OutPkt) (h0 : Keeps r s) : Keeps r (State.placeReply s p) := by
  unfold State.placeReply
  conv => zeta
  repeat' (first | with_reducible assumption | (intro _) | with_reducible apply State.pushOut_keeps | with_reducible apply State.freeOp_keeps | fail_if_no_progress with_reducible apply Keeps.upd | dsimp only | split)

theorem State.noticeLost_keeps {r : State} (s : State) (source : Nat) (h0 : Keeps r s) : Keeps r (State.noticeLost s source) := by
  unfold State.noticeLost
  conv => zeta
  repeat' (first | with_reducible assumption | (intro _) | with_reducible apply State.count_keeps | with_reducible apply State.modCmd_keeps | fail_if_no_progress with_reducible apply Keeps.upd | dsimp only | split)

theorem State.storeNotice_keeps {r : State} (s : State) (v_r : Raised) (lost : Option Nat) (h0 : Keeps r s) : Keeps r (State.storeNotice s v_r lost) := by
  unfold State.storeNotice
  conv => zeta
  repeat' (first | with_reducible assumption | (intro _) | with_reducible apply State.modCmd_keeps | fail_if_no_progress with_reducible apply Keeps.upd | with_reducible apply Keeps.getD | dsimp only | split)

theorem State.defer_keeps {r : State} (s : State) (v_r : Raised) (h0 : Keeps r s) : Keeps r (State.defer s v_r) := by
  unfold State.defer
  conv => zeta
  repeat' (first | with_reducible assumption | (intro _) | with_reducible apply State.modCmd_keeps | with_reducible apply State.ash_keeps | fail_if_no_progress with_reducible apply Keeps.upd | dsimp only | split)

theorem State.takePlace_keeps {r : State} (s : State) (v_r : Raised) (h0 : Keeps r s) : Keeps r (State.takePlace s v_r) := by
  unfold State.takePlace
  conv => zeta
  repeat' (first | with_reducible assumption | (intro _) | with_reducible apply State.storeNotice_keeps | with_reducible apply State.noticeLost_keeps | with_reducible apply State.modCmd_keeps | with_reducible apply State.defer_keeps | fail_if_no_progress with_reducible apply Keeps.upd | dsimp only | split)

theorem State.promote_keeps {r : State} (s : State) {t : State} (h0 : Keeps r s) (e : State.promote s = some t) : Keeps r t := by
  unfold State.promote at e
  conv at e => zeta
  (repeat' split at e) <;> (try cases e) <;> (try simp only [Option.some.injEq, Prod.mk.injEq] at e) <;> (try obtain ⟨_, e⟩ := e) <;> (try subst e)
  all_goals (repeat' (first | with_reducible assumption | (intro _) | with_reducible apply State.storeNotice_keeps | with_reducible apply State.modCmd_keeps | fail_if_no_progress with_reducible apply Keeps.upd | dsimp only | split))

theorem State.pumpOnce_keeps {r : State} (s : State) {t : State} (h0 : Keeps r s) (e : State.pumpOnce s = some t) : Keeps r t := by
  unfold State.pumpOnce at e
  conv at e => zeta
  (repeat' split at e) <;> (try cases e) <;> (try simp only [Option.some.injEq, Prod.mk.injEq] at e) <;> (try obtain ⟨_, e⟩ := e) <;> (try subst e)
  all_goals (repeat' (first | with_reducible assumption | (intro _) | (with_reducible apply State.promote_keeps (e := by with_reducible assumption)) | with_reducible apply State.placeReply_keeps | with_reducible apply State.modCmd_keeps | with_reducible apply State.pushOut_keeps | fail_if_no_progress with_reducible apply Keeps.upd | dsimp only | split))

theorem State.pump_keeps {r : State} (a0 : Nat) (a1 : State) (h0 : Keeps r a1) : Keeps r (State.pump a0 a1) := by
  induction a0 generalizing a1 with
  | zero => exact h0
  | succ k ih =>
    unfold State.pump
    conv => zeta
    repeat' (first | with_reducible assumption | (intro _) | with_reducible apply ih | (with_reducible apply State.pumpOnce_keeps (e := by with_reducible assumption)) | fail_if_no_progress with_reducible apply Keeps.upd | dsimp only | split)

theorem State.pumpOut_keeps {r : State} (s : State) (h0 : Keeps r s) : Keeps r (State.pumpOut s) := by
  unfold State.pumpOut
  conv => zeta
  repeat' (first | with_reducible assumption | (intro _) | with_reducible apply State.pump_keeps | fail_if_no_progress with_reducible apply Keeps.upd | dsimp only | split)

theorem State.raise_keeps {r : State} (s : State) (v_r : Raised) (h0 : Keeps r s) : Keeps r (State.raise s v_r) := by
  unfold State.raise
  conv => zeta
  repeat' (first | with_reducible assumption | (intro _) | with_reducible apply State.sendMsg_keeps | with_reducible apply State.modCmd_keeps | with_reducible apply State.pumpOut_keeps | with_reducible apply State.takePlace_keeps | fail_if_no_progress with_reducible apply Keeps.upd | dsimp only | split)

theorem State.notify_keeps {r : State} (s : State) (code : Nat) (alarm : Bool) (contents : List Byte) (h0 : Keeps r s) : Keeps r (State.notify s code alarm contents) := by
  unfold State.notify
  conv => zeta
  repeat' (first | with_reducible assumption | (intro _) | with_reducible apply State.raise_keeps | fail_if_no_progress with_reducible apply Keeps.upd | dsimp only | split)

theorem State.emit_keeps {r : State} (s : State) (ps : List OutPkt) (h0 : Keeps r s) : Keeps r (State.emit s ps) := by
  unfold State.emit
  conv => zeta
  repeat' (first | with_reducible assumption | (intro _) | with_reducible apply State.pumpOut_keeps | with_reducible apply State.modCmd_keeps | fail_if_no_progress with_reducible apply Keeps.upd | dsimp only | split)

theorem State.placeFormed_keeps {r : State} (a0 : Nat) (a1 : State) (h0 : Keeps r a1) : Keeps r (State.placeFormed a0 a1) := by
  induction a0 generalizing a1 with
  | zero => exact h0
  | succ k ih =>
    unfold State.placeFormed
    conv => zeta
    repeat' (first | with_reducible assumption | (intro _) | with_reducible apply ih | with_reducible apply State.emit_keeps | with_reducible apply State.modOp_keeps | fail_if_no_progress with_reducible apply Keeps.upd | dsimp only | split)

theorem State.reply_keeps {r : State} (s : State) (id : Nat) (ps : List OutPkt) (h0 : Keeps r s) : Keeps r (State.reply s id ps) := by
  unfold State.reply
  conv => zeta
  repeat' (first | with_reducible assumption | (intro _) | with_reducible apply State.modOp_keeps | with_reducible apply State.placeFormed_keeps | fail_if_no_progress with_reducible apply Keeps.upd | dsimp only | split)

theorem State.memberResult_keeps {r : State} (s : State) (id : Nat) (v_r : Result) (h0 : Keeps r s) : Keeps r (State.memberResult s id v_r) := by
  unfold State.memberResult
  conv => zeta
  repeat' (first | with_reducible assumption | (intro _) | with_reducible apply State.reply_keeps | with_reducible apply State.modOp_keeps | fail_if_no_progress with_reducible apply Keeps.upd | dsimp only | split)

theorem State.finish_keeps {r : State} (s : State) (id : Nat) (status : Nat) (params : List Byte) (h0 : Keeps r s) : Keeps r (State.finish s id status params) := by
  unfold State.finish
  conv => zeta
  repeat' (first | with_reducible assumption | (intro _) | with_reducible apply State.freeOp_keeps | with_reducible apply State.sendMsg_keeps | with_reducible apply State.memberResult_keeps | fail_if_no_progress with_reducible apply Keeps.upd | with_reducible apply Keeps.foldl | with_reducible apply Keeps.foldl_fst | with_reducible apply Keeps.foldl_snd | dsimp only | split)

theorem State.finish?_keeps {r : State} (s : State) (op : Option Nat) (status : Nat) (params : List Byte) (h0 : Keeps r s) : Keeps r (State.finish? s op status params) := by
  unfold State.finish?
  conv => zeta
  repeat' (first | with_reducible assumption | (intro _) | with_reducible apply State.finish_keeps | fail_if_no_progress with_reducible apply Keeps.upd | dsimp only | split)

theorem State.refuse_keeps {r : State} (s : State) (opcode : Nat) (tag : Nat) (status : Nat) (kind : OutKind) (h0 : Keeps r s) : Keeps r (State.refuse s opcode tag status kind) := by
  unfold State.refuse
  conv => zeta
  repeat' (first | with_reducible assumption | (intro _) | with_reducible apply State.emit_keeps | fail_if_no_progress with_reducible apply Keeps.upd | dsimp only | split)

theorem State.charge_keeps {r : State} (s : State) (uj : Nat) (h0 : Keeps r s) : Keeps r (State.charge s uj) := by
  unfold State.charge
  conv => zeta
  repeat' (first | with_reducible assumption | (intro _) | fail_if_no_progress with_reducible apply Keeps.upd | dsimp only | split)

theorem State.modPower_keeps {r : State} (s : State) (f : Power → Power) (h0 : Keeps r s) : Keeps r (State.modPower s f) := by
  unfold State.modPower
  conv => zeta
  repeat' (first | with_reducible assumption | (intro _) | fail_if_no_progress with_reducible apply Keeps.upd | dsimp only | split)

theorem State.wake_keeps {r : State} (s : State) (src : Nat) (h0 : Keeps r s) : Keeps r (State.wake s src) := by
  unfold State.wake
  conv => zeta
  repeat' (first | with_reducible assumption | (intro _) | with_reducible apply State.modPower_keeps | fail_if_no_progress with_reducible apply Keeps.upd | dsimp only | split)

end Sys2Proof.Machine
end

