-- ==== Sys2Proof/Laws/KeepsAsh.lean ====
section
/-! SUPPORT. The operations of Machine/Ash.lean keep what every operation inside a command keeps (`Keeps`). -/

namespace Sys2Proof.Machine

set_option linter.unusedTactic false
set_option linter.unreachableTactic false
set_option linter.unusedVariables false
set_option linter.unnecessarySeqFocus false

theorem State.wave_keeps {r : State} (s : State) (cause : Nat) (h0 : Keeps r s) : Keeps r (State.wave s cause) := by
  unfold State.wave
  conv => zeta
  repeat' (first | with_reducible assumption | (intro _) | with_reducible apply State.ashGroup_keeps | fail_if_no_progress with_reducible apply Keeps.upd | dsimp only | split)

theorem State.modBoot_keeps {r : State} (s : State) (f : Boot → Boot) (h0 : Keeps r s) : Keeps r (State.modBoot s f) := by
  unfold State.modBoot
  conv => zeta
  repeat' (first | with_reducible assumption | (intro _) | fail_if_no_progress with_reducible apply Keeps.upd | dsimp only | split)

theorem State.stepEnd_keeps {r : State} (s : State) (n : Nat) (h0 : Keeps r s) : Keeps r (State.stepEnd s n) := by
  unfold State.stepEnd
  conv => zeta
  repeat' (first | with_reducible assumption | (intro _) | with_reducible apply State.modBoot_keeps | fail_if_no_progress with_reducible apply Keeps.upd | dsimp only | split)

theorem State.stepFail_keeps {r : State} (s : State) (n : Nat) (h0 : Keeps r s) : Keeps r (State.stepFail s n) := by
  unfold State.stepFail
  conv => zeta
  repeat' (first | with_reducible assumption | (intro _) | with_reducible apply State.modBoot_keeps | fail_if_no_progress with_reducible apply Keeps.upd | dsimp only | split)

theorem State.modAsh_keeps {r : State} (s : State) (f : Ash → Ash) (h0 : Keeps r s) : Keeps r (State.modAsh s f) := by
  unfold State.modAsh
  conv => zeta
  repeat' (first | with_reducible assumption | (intro _) | fail_if_no_progress with_reducible apply Keeps.upd | dsimp only | split)

theorem State.flashPump_keeps {r : State} (s : State) (h0 : Keeps r s) : Keeps r (State.flashPump s) := by
  unfold State.flashPump
  conv => zeta
  repeat' (first | with_reducible assumption | (intro _) | with_reducible apply State.modBoot_keeps | with_reducible apply State.charge_keeps | fail_if_no_progress with_reducible apply Keeps.upd | dsimp only | split)

theorem State.flashAsk_keeps {r : State} (s : State) (op : FlashOp) (h0 : Keeps r s) : Keeps r (State.flashAsk s op) := by
  unfold State.flashAsk
  conv => zeta
  repeat' (first | with_reducible assumption | (intro _) | with_reducible apply State.flashPump_keeps | with_reducible apply State.modBoot_keeps | fail_if_no_progress with_reducible apply Keeps.upd | dsimp only | split)

theorem State.preErase_keeps {r : State} (s : State) (h0 : Keeps r s) : Keeps r (State.preErase s) := by
  unfold State.preErase
  conv => zeta
  repeat' (first | with_reducible assumption | (intro _) | with_reducible apply State.flashAsk_keeps | fail_if_no_progress with_reducible apply Keeps.upd | dsimp only | split)

theorem State.setOwed_keeps {r : State} (s : State) (v : Bool) (h0 : Keeps r s) : Keeps r (State.setOwed s v) := by
  unfold State.setOwed
  conv => zeta
  repeat' (first | with_reducible assumption | (intro _) | with_reducible apply State.modAsh_keeps | fail_if_no_progress with_reducible apply Keeps.upd | dsimp only | split)

theorem State.endFlush_keeps {r : State} (s : State) (f : Flush) (result : Nat) (h0 : Keeps r s) : Keeps r (State.endFlush s f result) := by
  unfold State.endFlush
  conv => zeta
  repeat' (first | with_reducible assumption | (intro _) | with_reducible apply State.setOwed_keeps | with_reducible apply State.modAsh_keeps | with_reducible apply State.count_keeps | with_reducible apply State.finish?_keeps | with_reducible apply State.notify_keeps | with_reducible apply State.ash_keeps | with_reducible apply State.preErase_keeps | with_reducible apply State.flashPump_keeps | fail_if_no_progress with_reducible apply Keeps.upd | dsimp only | split)

theorem State.admitStep_keeps {r : State} (s : State) (f : Flush) (h0 : Keeps r s) : Keeps r (State.admitStep s f) := by
  unfold State.admitStep
  conv => zeta
  repeat' (first | with_reducible assumption | (intro _) | with_reducible apply State.endFlush_keeps | with_reducible apply State.charge_keeps | with_reducible apply State.modAsh_keeps | fail_if_no_progress with_reducible apply Keeps.upd | dsimp only | split)

theorem State.startFlush_keeps {r : State} (s : State) (cause : Nat) (tag : Option Nat) (h0 : Keeps r s) : Keeps r (State.startFlush s cause tag) := by
  unfold State.startFlush
  conv => zeta
  repeat' (first | with_reducible assumption | (intro _) | with_reducible apply State.admitStep_keeps | with_reducible apply State.modAsh_keeps | fail_if_no_progress with_reducible apply Keeps.upd | dsimp only | split)

theorem State.triggerFlush_keeps {r : State} (s : State) (cause : Nat) (tag : Option Nat) (h0 : Keeps r s) : Keeps r (State.triggerFlush s cause tag) := by
  unfold State.triggerFlush
  conv => zeta
  repeat' (first | with_reducible assumption | (intro _) | with_reducible apply State.modAsh_keeps | with_reducible apply State.startFlush_keeps | fail_if_no_progress with_reducible apply Keeps.upd | dsimp only | split)

theorem State.flushOnReserve_keeps {r : State} (s : State) (h0 : Keeps r s) : Keeps r (State.flushOnReserve s) := by
  unfold State.flushOnReserve
  conv => zeta
  repeat' (first | with_reducible assumption | (intro _) | with_reducible apply State.modAsh_keeps | fail_if_no_progress with_reducible apply Keeps.upd | dsimp only | split)

theorem State.flushMainsLost_keeps {r : State} (s : State) (h0 : Keeps r s) : Keeps r (State.flushMainsLost s) := by
  unfold State.flushMainsLost
  conv => zeta
  repeat' (first | with_reducible assumption | (intro _) | with_reducible apply State.modAsh_keeps | fail_if_no_progress with_reducible apply Keeps.upd | dsimp only | split)

theorem State.flushStart_keeps {r : State} (s : State) (h0 : Keeps r s) : Keeps r (State.flushStart s) := by
  unfold State.flushStart
  conv => zeta
  repeat' (first | with_reducible assumption | (intro _) | with_reducible apply State.triggerFlush_keeps | fail_if_no_progress with_reducible apply Keeps.upd | dsimp only | split)

theorem State.flushStepDone_keeps {r : State} (s : State) (ok : Bool) (h0 : Keeps r s) : Keeps r (State.flushStepDone s ok) := by
  unfold State.flushStepDone
  conv => zeta
  repeat' (first | with_reducible assumption | (intro _) | with_reducible apply State.modAsh_keeps | with_reducible apply State.endFlush_keeps | with_reducible apply State.admitStep_keeps | fail_if_no_progress with_reducible apply Keeps.upd | with_reducible apply RegsKept.set | with_reducible apply RegsKept.nil | with_reducible apply RegsKept.hearthOnly | with_reducible apply RegsKept.filter | with_reducible apply FlashKept.write | with_reducible apply FlashKept.erase | with_reducible apply RegsKept.of | with_reducible apply FlashKept.of | exact Nat.le_refl _ | exact Nat.le_max_left _ _ | exact Nat.left_le_or | dsimp only | split | with_reducible apply Keeps.setBoth)

theorem State.suppressEnd_keeps {r : State} (s : State) (source : Nat) (h0 : Keeps r s) : Keeps r (State.suppressEnd s source) := by
  unfold State.suppressEnd
  conv => zeta
  repeat' (first | with_reducible assumption | (intro _) | with_reducible apply State.modAsh_keeps | with_reducible apply State.ash_keeps | fail_if_no_progress with_reducible apply Keeps.upd | dsimp only | split)

theorem opAlStatus_keeps {r : State} (tag : Nat) (p : List Byte) (s : State) (h0 : Keeps r s) : Keeps r (opAlStatus tag p s) := by
  unfold opAlStatus
  conv => zeta
  repeat' (first | with_reducible assumption | (intro _) | with_reducible apply State.finish_keeps | with_reducible apply State.draw_keeps | with_reducible apply State.draw_keeps_eq (e := by with_reducible assumption) | fail_if_no_progress with_reducible apply Keeps.upd | dsimp only | split)

theorem opAlRead_keeps {r : State} (tag : Nat) (p : List Byte) (s : State) (h0 : Keeps r s) : Keeps r (opAlRead tag p s) := by
  unfold opAlRead
  conv => zeta
  repeat' (first | with_reducible assumption | (intro _) | with_reducible apply State.finish_keeps | with_reducible apply State.draw_keeps | with_reducible apply State.draw_keeps_eq (e := by with_reducible assumption) | fail_if_no_progress with_reducible apply Keeps.upd | dsimp only | split)

theorem opAlArchives_keeps {r : State} (tag : Nat) (p : List Byte) (s : State) (h0 : Keeps r s) : Keeps r (opAlArchives tag p s) := by
  unfold opAlArchives
  conv => zeta
  repeat' (first | with_reducible assumption | (intro _) | with_reducible apply State.finish_keeps | fail_if_no_progress with_reducible apply Keeps.upd | with_reducible apply Keeps.getD | dsimp only | split)

theorem opAlArchRead_keeps {r : State} (tag : Nat) (p : List Byte) (s : State) (h0 : Keeps r s) : Keeps r (opAlArchRead tag p s) := by
  unfold opAlArchRead
  conv => zeta
  repeat' (first | with_reducible assumption | (intro _) | with_reducible apply State.finish_keeps | fail_if_no_progress with_reducible apply Keeps.upd | dsimp only | split)

theorem opAlFlush_keeps {r : State} (tag : Nat) (p : List Byte) (s : State) (h0 : Keeps r s) : Keeps r (opAlFlush tag p s) := by
  unfold opAlFlush
  conv => zeta
  repeat' (first | with_reducible assumption | (intro _) | with_reducible apply State.finish_keeps | with_reducible apply State.triggerFlush_keeps | fail_if_no_progress with_reducible apply Keeps.upd | dsimp only | split)

theorem opAlWave_keeps {r : State} (tag : Nat) (p : List Byte) (s : State) (h0 : Keeps r s) : Keeps r (opAlWave tag p s) := by
  unfold opAlWave
  conv => zeta
  repeat' (first | with_reducible assumption | (intro _) | with_reducible apply State.finish_keeps | with_reducible apply State.drainAsh_keeps | with_reducible apply State.wave_keeps | with_reducible apply State.draw_keeps | with_reducible apply State.draw_keeps_eq (e := by with_reducible assumption) | fail_if_no_progress with_reducible apply Keeps.upd | dsimp only | split)

theorem opAlMark_keeps {r : State} (tag : Nat) (p : List Byte) (s : State) (h0 : Keeps r s) : Keeps r (opAlMark tag p s) := by
  unfold opAlMark
  conv => zeta
  repeat' (first | with_reducible assumption | (intro _) | with_reducible apply State.finish_keeps | with_reducible apply State.drainAsh_keeps | with_reducible apply State.ash_keeps | fail_if_no_progress with_reducible apply Keeps.upd | dsimp only | split)

end Sys2Proof.Machine
end

