-- ==== Sys2Proof/Laws/KeepsNetTime.lean ====
section
/-! SUPPORT. The operations of Machine/NetTime.lean keep what every operation inside a command keeps (`Keeps`). -/

namespace Sys2Proof.Machine

set_option linter.unusedTactic false
set_option linter.unreachableTactic false
set_option linter.unusedVariables false
set_option linter.unnecessarySeqFocus false

theorem State.modNt_keeps {r : State} (s : State) (f : NetTime → NetTime) (h0 : Keeps r s) : Keeps r (State.modNt s f) := by
  unfold State.modNt
  conv => zeta
  repeat' (first | with_reducible assumption | (intro _) | fail_if_no_progress with_reducible apply Keeps.upd | dsimp only | split)

theorem State.ntStateNotice_keeps {r : State} (s : State) (old : Servo) (new : Servo) (h0 : Keeps r s) : Keeps r (State.ntStateNotice s old new) := by
  unfold State.ntStateNotice
  conv => zeta
  repeat' (first | with_reducible assumption | (intro _) | with_reducible apply State.notify_keeps | fail_if_no_progress with_reducible apply Keeps.upd | dsimp only | split)

theorem State.setServo_keeps {r : State} (s : State) (new : Servo) (h0 : Keeps r s) : Keeps r (State.setServo s new) := by
  unfold State.setServo
  conv => zeta
  repeat' (first | with_reducible assumption | (intro _) | with_reducible apply State.modNt_keeps | with_reducible apply State.setFld_keeps | with_reducible apply State.ntStateNotice_keeps | fail_if_no_progress with_reducible apply Keeps.upd | dsimp only | split)

theorem State.slew_keeps {r : State} (s : State) (v_e : Int) (h0 : Keeps r s) : Keeps r (State.slew s v_e) := by
  unfold State.slew
  conv => zeta
  repeat' (first | with_reducible assumption | (intro _) | with_reducible apply State.modNt_keeps | fail_if_no_progress with_reducible apply Keeps.upd | dsimp only | split)

theorem State.ntStep_keeps {r : State} (s : State) (ns : Nat) (frac : Nat) (h0 : Keeps r s) : Keeps r (State.ntStep s ns frac) := by
  unfold State.ntStep
  conv => zeta
  repeat' (first | with_reducible assumption | (intro _) | with_reducible apply State.notify_keeps | with_reducible apply State.ash_keeps | with_reducible apply State.ntStateNotice_keeps | with_reducible apply State.setServo_keeps | fail_if_no_progress with_reducible apply Keeps.upd | dsimp only | split)

theorem State.writeIncr_keeps {r : State} (s : State) (v : Int) (h0 : Keeps r s) : Keeps r (State.writeIncr s v) := by
  unfold State.writeIncr
  conv => zeta
  repeat' (first | with_reducible assumption | (intro _) | with_reducible apply State.modNt_keeps | with_reducible apply State.setFld_keeps | with_reducible apply State.ntStateNotice_keeps | fail_if_no_progress with_reducible apply Keeps.upd | dsimp only | split)

theorem State.rateUpdate_keeps {r : State} (s : State) (change : Int) (interval : Int) (h0 : Keeps r s) : Keeps r (State.rateUpdate s change interval) := by
  unfold State.rateUpdate
  conv => zeta
  repeat' (first | with_reducible assumption | (intro _) | with_reducible apply State.writeIncr_keeps | fail_if_no_progress with_reducible apply Keeps.upd | dsimp only | split)

theorem State.ntApply_keeps {r : State} (s : State) (v_e : Int) (left : Int) (ref : Int) (interval : Option Int) (h0 : Keeps r s) : Keeps r (State.ntApply s v_e left ref interval) := by
  unfold State.ntApply
  extract_lets lock a small s1 s2 thr step s3 s4 s5
  have ks1 : Keeps r s1 := by
    unfold s1
    conv => zeta
    repeat' (first | with_reducible assumption | (intro _) | with_reducible apply State.ntStep_keeps | with_reducible apply State.slew_keeps | with_reducible apply State.rateUpdate_keeps | with_reducible apply State.setServo_keeps | with_reducible apply State.modNt_keeps | fail_if_no_progress with_reducible apply Keeps.upd | dsimp only | split)
  try clear_value s1
  have ks2 : Keeps r s2 := by
    unfold s2
    conv => zeta
    repeat' (first | with_reducible assumption | (intro _) | with_reducible apply State.ntStep_keeps | with_reducible apply State.slew_keeps | with_reducible apply State.rateUpdate_keeps | with_reducible apply State.setServo_keeps | with_reducible apply State.modNt_keeps | fail_if_no_progress with_reducible apply Keeps.upd | dsimp only | split)
  try clear_value s2
  have ks3 : Keeps r s3 := by
    unfold s3
    conv => zeta
    repeat' (first | with_reducible assumption | (intro _) | with_reducible apply State.ntStep_keeps | with_reducible apply State.slew_keeps | with_reducible apply State.rateUpdate_keeps | with_reducible apply State.setServo_keeps | with_reducible apply State.modNt_keeps | fail_if_no_progress with_reducible apply Keeps.upd | dsimp only | split)
  try clear_value s3
  have ks4 : Keeps r s4 := by
    unfold s4
    conv => zeta
    repeat' (first | with_reducible assumption | (intro _) | with_reducible apply State.ntStep_keeps | with_reducible apply State.slew_keeps | with_reducible apply State.rateUpdate_keeps | with_reducible apply State.setServo_keeps | with_reducible apply State.modNt_keeps | fail_if_no_progress with_reducible apply Keeps.upd | dsimp only | split)
  try clear_value s4
  have ks5 : Keeps r s5 := by
    unfold s5
    conv => zeta
    repeat' (first | with_reducible assumption | (intro _) | with_reducible apply State.ntStep_keeps | with_reducible apply State.slew_keeps | with_reducible apply State.rateUpdate_keeps | with_reducible apply State.setServo_keeps | with_reducible apply State.modNt_keeps | fail_if_no_progress with_reducible apply Keeps.upd | dsimp only | split)
  try clear_value s5
  repeat' (first | with_reducible assumption | (intro _) | with_reducible apply State.ntStep_keeps | with_reducible apply State.slew_keeps | with_reducible apply State.rateUpdate_keeps | with_reducible apply State.setServo_keeps | with_reducible apply State.modNt_keeps | fail_if_no_progress with_reducible apply Keeps.upd | dsimp only | split)

theorem State.ntBad_keeps {r : State} (s : State) (n : Nat) (h0 : Keeps r s) : Keeps r (State.ntBad s n) := by
  unfold State.ntBad
  conv => zeta
  repeat' (first | with_reducible assumption | (intro _) | with_reducible apply State.countN_keeps | fail_if_no_progress with_reducible apply Keeps.upd | dsimp only | split)

theorem State.ntLate_keeps {r : State} (s : State) (n : Nat) (h0 : Keeps r s) : Keeps r (State.ntLate s n) := by
  unfold State.ntLate
  conv => zeta
  repeat' (first | with_reducible assumption | (intro _) | with_reducible apply State.countN_keeps | fail_if_no_progress with_reducible apply Keeps.upd | dsimp only | split)

theorem State.timeMessage_keeps {r : State} (s : State) (carry : Nat) (b : List Byte) (h0 : Keeps r s) : Keeps r (State.timeMessage s carry b) := by
  unfold State.timeMessage
  conv => zeta
  repeat' (first | with_reducible assumption | (intro _) | with_reducible apply State.ntBad_keeps | with_reducible apply State.ntLate_keeps | with_reducible apply State.setServo_keeps | with_reducible apply State.modNt_keeps | fail_if_no_progress with_reducible apply Keeps.upd | dsimp only | split)

theorem State.latchFrame_keeps {r : State} (s : State) (sfc : Nat) (late : Nat) (h0 : Keeps r s) : Keeps r (State.latchFrame s sfc late) := by
  unfold State.latchFrame
  conv => zeta
  repeat' (first | with_reducible assumption | (intro _) | with_reducible apply State.modNt_keeps | fail_if_no_progress with_reducible apply Keeps.upd | dsimp only | split)

theorem State.ntJump_keeps {r : State} (s : State) (h0 : Keeps r s) : Keeps r (State.ntJump s) := by
  unfold State.ntJump
  conv => zeta
  repeat' (first | with_reducible assumption | (intro _) | with_reducible apply State.modNt_keeps | with_reducible apply State.ntBad_keeps | fail_if_no_progress with_reducible apply Keeps.upd | dsimp only | split)

theorem State.timeCorrection_keeps {r : State} (s : State) (h0 : Keeps r s) : Keeps r (State.timeCorrection s) := by
  unfold State.timeCorrection
  conv => zeta
  repeat' (first | with_reducible assumption | (intro _) | with_reducible apply State.modNt_keeps | with_reducible apply State.ntBad_keeps | with_reducible apply State.ntApply_keeps | with_reducible apply State.count_keeps | fail_if_no_progress with_reducible apply Keeps.upd | dsimp only | split)

theorem State.servoMiss_keeps {r : State} (s : State) (h0 : Keeps r s) : Keeps r (State.servoMiss s) := by
  unfold State.servoMiss
  conv => zeta
  repeat' (first | with_reducible assumption | (intro _) | with_reducible apply State.setServo_keeps | fail_if_no_progress with_reducible apply Keeps.upd | dsimp only | split)

theorem State.holdoverTimeout_keeps {r : State} (s : State) (h0 : Keeps r s) : Keeps r (State.holdoverTimeout s) := by
  unfold State.holdoverTimeout
  conv => zeta
  repeat' (first | with_reducible assumption | (intro _) | with_reducible apply State.setServo_keeps | fail_if_no_progress with_reducible apply Keeps.upd | dsimp only | split)

theorem State.ntAlignLost_keeps {r : State} (s : State) (h0 : Keeps r s) : Keeps r (State.ntAlignLost s) := by
  unfold State.ntAlignLost
  conv => zeta
  repeat' (first | with_reducible assumption | (intro _) | with_reducible apply State.setServo_keeps | fail_if_no_progress with_reducible apply Keeps.upd | dsimp only | split)

theorem State.slewEnd_keeps {r : State} (s : State) (h0 : Keeps r s) : Keeps r (State.slewEnd s) := by
  unfold State.slewEnd
  conv => zeta
  repeat' (first | with_reducible assumption | (intro _) | with_reducible apply State.modNt_keeps | fail_if_no_progress with_reducible apply Keeps.upd | dsimp only | split)

theorem State.modCmp_keeps {r : State} (s : State) (u : Nat) (f : Cmp → Cmp) (h0 : Keeps r s) : Keeps r (State.modCmp s u f) := by
  unfold State.modCmp
  conv => zeta
  repeat' (first | with_reducible assumption | (intro _) | with_reducible apply State.modNt_keeps | fail_if_no_progress with_reducible apply Keeps.upd | dsimp only | split)

theorem State.cmpFire_keeps {r : State} (s : State) (u : Nat) (act : Nat → Nat → State → State) (h0 : Keeps r s) (h1 : ∀ y0 y1 y2, Keeps r y2 → Keeps r (act y0 y1 y2)) : Keeps r (State.cmpFire s u act) := by
  unfold State.cmpFire
  conv => zeta
  repeat' (first | with_reducible assumption | (intro _) | with_reducible apply h1 | with_reducible apply State.count_keeps | with_reducible apply State.latchFld_keeps | with_reducible apply State.modCmp_keeps | with_reducible apply State.notify_keeps | fail_if_no_progress with_reducible apply Keeps.upd | dsimp only | split)

theorem State.ppsRise_keeps {r : State} (s : State) (h0 : Keeps r s) : Keeps r (State.ppsRise s) := by
  unfold State.ppsRise
  conv => zeta
  repeat' (first | with_reducible assumption | (intro _) | with_reducible apply State.modNt_keeps | fail_if_no_progress with_reducible apply Keeps.upd | dsimp only | split)

theorem State.ppsFall_keeps {r : State} (s : State) (h0 : Keeps r s) : Keeps r (State.ppsFall s) := by
  unfold State.ppsFall
  conv => zeta
  repeat' (first | with_reducible assumption | (intro _) | with_reducible apply State.modNt_keeps | fail_if_no_progress with_reducible apply Keeps.upd | dsimp only | split)

theorem State.timeOfDay_keeps {r : State} (s : State) (h0 : Keeps r s) : Keeps r (State.timeOfDay s) := by
  unfold State.timeOfDay
  conv => zeta
  repeat' (first | with_reducible assumption | (intro _) | with_reducible apply State.modNt_keeps | with_reducible apply State.raise_keeps | with_reducible apply State.modCmd_keeps | fail_if_no_progress with_reducible apply Keeps.upd | dsimp only | split)

theorem opNtStatus_keeps {r : State} (op : Nat) (p : List Byte) (s : State) (h0 : Keeps r s) : Keeps r (opNtStatus op p s) := by
  unfold opNtStatus
  conv => zeta
  repeat' (first | with_reducible assumption | (intro _) | with_reducible apply State.finish_keeps | fail_if_no_progress with_reducible apply Keeps.upd | dsimp only | split)

theorem opNtSet_keeps {r : State} (op : Nat) (p : List Byte) (s : State) (h0 : Keeps r s) : Keeps r (opNtSet op p s) := by
  unfold opNtSet
  conv => zeta
  repeat' (first | with_reducible assumption | (intro _) | with_reducible apply State.finish_keeps | with_reducible apply State.modNt_keeps | with_reducible apply State.ntLate_keeps | with_reducible apply State.ntStep_keeps | fail_if_no_progress with_reducible apply Keeps.upd | dsimp only | split)

theorem opNtAdjust_keeps {r : State} (op : Nat) (p : List Byte) (s : State) (h0 : Keeps r s) : Keeps r (opNtAdjust op p s) := by
  unfold opNtAdjust
  conv => zeta
  repeat' (first | with_reducible assumption | (intro _) | with_reducible apply State.finish_keeps | with_reducible apply State.slew_keeps | fail_if_no_progress with_reducible apply Keeps.upd | dsimp only | split)

theorem opCmpArm_keeps {r : State} (op : Nat) (p : List Byte) (s : State) (h0 : Keeps r s) : Keeps r (opCmpArm op p s) := by
  unfold opCmpArm
  conv => zeta
  repeat' (first | with_reducible assumption | (intro _) | with_reducible apply State.finish_keeps | with_reducible apply State.modCmp_keeps | fail_if_no_progress with_reducible apply Keeps.upd | dsimp only | split)

theorem opCmpDisarm_keeps {r : State} (op : Nat) (p : List Byte) (s : State) (h0 : Keeps r s) : Keeps r (opCmpDisarm op p s) := by
  unfold opCmpDisarm
  conv => zeta
  repeat' (first | with_reducible assumption | (intro _) | with_reducible apply State.finish_keeps | with_reducible apply State.modCmp_keeps | fail_if_no_progress with_reducible apply Keeps.upd | dsimp only | split)

end Sys2Proof.Machine
end

