-- ==== Sys2Proof/Laws/KeepsMains.lean ====
section
/-! SUPPORT. The operations of Machine/Mains.lean keep what every operation inside a command keeps (`Keeps`). -/

namespace Sys2Proof.Machine

set_option linter.unusedTactic false
set_option linter.unreachableTactic false
set_option linter.unusedVariables false
set_option linter.unnecessarySeqFocus false

theorem State.modMa_keeps {r : State} (s : State) (f : Mains → Mains) (h0 : Keeps r s) : Keeps r (State.modMa s f) := by
  unfold State.modMa
  conv => zeta
  repeat' (first | with_reducible assumption | (intro _) | fail_if_no_progress with_reducible apply Keeps.upd | dsimp only | split)

theorem State.modPhase_keeps {r : State} (s : State) (p : Nat) (f : Phase → Phase) (h0 : Keeps r s) : Keeps r (State.modPhase s p f) := by
  unfold State.modPhase
  conv => zeta
  repeat' (first | with_reducible assumption | (intro _) | with_reducible apply State.modMa_keeps | fail_if_no_progress with_reducible apply Keeps.upd | dsimp only | split)

theorem State.modEnt_keeps {r : State} (s : State) (n : Nat) (f : Entry → Entry) (h0 : Keeps r s) : Keeps r (State.modEnt s n f) := by
  unfold State.modEnt
  conv => zeta
  repeat' (first | with_reducible assumption | (intro _) | with_reducible apply State.modMa_keeps | fail_if_no_progress with_reducible apply Keeps.upd | dsimp only | split)

theorem State.takeContact_keeps {r : State} (s : State) (n : Nat) (h0 : Keeps r s) : Keeps r (State.takeContact s n) := by
  unfold State.takeContact
  conv => zeta
  repeat' (first | with_reducible assumption | (intro _) | with_reducible apply State.modEnt_keeps | fail_if_no_progress with_reducible apply Keeps.upd | dsimp only | split)

theorem State.takeContacts_keeps {r : State} (s : State) (h0 : Keeps r s) : Keeps r (State.takeContacts s) := by
  unfold State.takeContacts
  conv => zeta
  repeat' (first | with_reducible assumption | (intro _) | with_reducible apply State.takeContact_keeps | fail_if_no_progress with_reducible apply Keeps.upd | with_reducible apply Keeps.foldl | with_reducible apply Keeps.foldl_fst | with_reducible apply Keeps.foldl_snd | dsimp only | split)

theorem State.watchWindows_keeps {r : State} (s : State) (h0 : Keeps r s) : Keeps r (State.watchWindows s) := by
  unfold State.watchWindows
  conv => zeta
  repeat' (first | with_reducible assumption | (intro _) | with_reducible apply State.modMa_keeps | fail_if_no_progress with_reducible apply Keeps.upd | dsimp only | split)

theorem State.setAngle_keeps {r : State} (s : State) (st : AngleSt) (h0 : Keeps r s) : Keeps r (State.setAngle s st) := by
  unfold State.setAngle
  conv => zeta
  repeat' (first | with_reducible assumption | (intro _) | with_reducible apply State.modMa_keeps | with_reducible apply State.notify_keeps | with_reducible apply State.watchWindows_keeps | with_reducible apply State.takeContacts_keeps | fail_if_no_progress with_reducible apply Keeps.upd | dsimp only | split)

theorem State.mainsStart_keeps {r : State} (s : State) (h0 : Keeps r s) : Keeps r (State.mainsStart s) := by
  unfold State.mainsStart
  conv => zeta
  repeat' (first | with_reducible assumption | (intro _) | with_reducible apply State.modMa_keeps | fail_if_no_progress with_reducible apply Keeps.upd | dsimp only | split)

theorem State.relocate_keeps {r : State} (s : State) (h0 : Keeps r s) : Keeps r (State.relocate s) := by
  unfold State.relocate
  conv => zeta
  repeat' (first | with_reducible assumption | (intro _) | with_reducible apply State.modMa_keeps | fail_if_no_progress with_reducible apply Keeps.upd | with_reducible apply Keeps.getD | dsimp only | split)

theorem State.mainsLost_keeps {r : State} (s : State) (h0 : Keeps r s) : Keeps r (State.mainsLost s) := by
  unfold State.mainsLost
  conv => zeta
  repeat' (first | with_reducible assumption | (intro _) | with_reducible apply State.modMa_keeps | with_reducible apply State.setAngle_keeps | with_reducible apply State.wave_keeps | with_reducible apply State.ash_keeps | with_reducible apply State.count_keeps | with_reducible apply State.flushMainsLost_keeps | with_reducible apply State.notify_keeps | with_reducible apply State.wake_keeps | fail_if_no_progress with_reducible apply Keeps.upd | dsimp only | split)

theorem State.acquireLost_keeps {r : State} (s : State) (h0 : Keeps r s) : Keeps r (State.acquireLost s) := by
  unfold State.acquireLost
  conv => zeta
  repeat' (first | with_reducible assumption | (intro _) | with_reducible apply State.modMa_keeps | with_reducible apply State.setAngle_keeps | fail_if_no_progress with_reducible apply Keeps.upd | dsimp only | split)

theorem State.phaseLost_keeps {r : State} (s : State) (p : Nat) (h0 : Keeps r s) : Keeps r (State.phaseLost s p) := by
  unfold State.phaseLost
  conv => zeta
  repeat' (first | with_reducible assumption | (intro _) | with_reducible apply State.notify_keeps | with_reducible apply State.modPhase_keeps | with_reducible apply State.relocate_keeps | with_reducible apply State.mainsLost_keeps | with_reducible apply State.acquireLost_keeps | fail_if_no_progress with_reducible apply Keeps.upd | dsimp only | split)

theorem State.crossingMissed_keeps {r : State} (s : State) (p : Nat) (h0 : Keeps r s) : Keeps r (State.crossingMissed s p) := by
  unfold State.crossingMissed
  conv => zeta
  repeat' (first | with_reducible assumption | (intro _) | with_reducible apply State.phaseLost_keeps | with_reducible apply State.modPhase_keeps | fail_if_no_progress with_reducible apply Keeps.upd | dsimp only | split)

theorem State.phantomTimeout_keeps {r : State} (s : State) (h0 : Keeps r s) : Keeps r (State.phantomTimeout s) := by
  unfold State.phantomTimeout
  conv => zeta
  repeat' (first | with_reducible assumption | (intro _) | with_reducible apply State.setAngle_keeps | with_reducible apply State.modMa_keeps | fail_if_no_progress with_reducible apply Keeps.upd | dsimp only | split)

theorem State.absentTimeout_keeps {r : State} (s : State) (h0 : Keeps r s) : Keeps r (State.absentTimeout s) := by
  unfold State.absentTimeout
  conv => zeta
  repeat' (first | with_reducible assumption | (intro _) | with_reducible apply State.setAngle_keeps | with_reducible apply State.modMa_keeps | fail_if_no_progress with_reducible apply Keeps.upd | dsimp only | split)

theorem State.setRotation_keeps {r : State} (s : State) (h0 : Keeps r s) : Keeps r (State.setRotation s) := by
  unfold State.setRotation
  conv => zeta
  repeat' (first | with_reducible assumption | (intro _) | with_reducible apply State.modMa_keeps | fail_if_no_progress with_reducible apply Keeps.upd | dsimp only | split)

theorem State.measureOffset_keeps {r : State} (s : State) (p : Nat) (a : Nat) (h0 : Keeps r s) : Keeps r (State.measureOffset s p a) := by
  unfold State.measureOffset
  conv => zeta
  repeat' (first | with_reducible assumption | (intro _) | with_reducible apply State.setRotation_keeps | with_reducible apply State.modPhase_keeps | fail_if_no_progress with_reducible apply Keeps.upd | dsimp only | split)

theorem State.acquire_keeps {r : State} (s : State) (p : Nat) (rising : Bool) (h0 : Keeps r s) : Keeps r (State.acquire s p rising) := by
  unfold State.acquire
  conv => zeta
  repeat' (first | with_reducible assumption | (intro _) | with_reducible apply State.setAngle_keeps | with_reducible apply State.modMa_keeps | fail_if_no_progress with_reducible apply Keeps.upd | dsimp only | split)

theorem State.phasePresent_keeps {r : State} (s : State) (p : Nat) (angle : Nat) (rising : Bool) (h0 : Keeps r s) : Keeps r (State.phasePresent s p angle rising) := by
  unfold State.phasePresent
  conv => zeta
  repeat' (first | with_reducible assumption | (intro _) | with_reducible apply State.notify_keeps | with_reducible apply State.modPhase_keeps | with_reducible apply State.acquire_keeps | with_reducible apply State.measureOffset_keeps | with_reducible apply State.relocate_keeps | fail_if_no_progress with_reducible apply Keeps.upd | dsimp only | split)

theorem State.returning_keeps {r : State} (s : State) (p : Nat) (angle : Nat) (rising : Bool) (h0 : Keeps r s) : Keeps r (State.returning s p angle rising) := by
  unfold State.returning
  conv => zeta
  repeat' (first | with_reducible assumption | (intro _) | with_reducible apply State.modPhase_keeps | with_reducible apply State.phasePresent_keeps | fail_if_no_progress with_reducible apply Keeps.upd | dsimp only | split)

theorem State.relayPulse_keeps {r : State} (s : State) (v_r : Nat) {t : State} (h0 : Keeps r s) (e : State.relayPulse s v_r = some t) : Keeps r t := by
  unfold State.relayPulse at e
  conv at e => zeta
  (repeat' split at e) <;> (try cases e) <;> (try simp only [Option.some.injEq, Prod.mk.injEq] at e) <;> (try obtain ⟨_, e⟩ := e) <;> (try subst e)
  all_goals (repeat' (first | with_reducible assumption | (intro _) | fail_if_no_progress with_reducible apply Keeps.upd | dsimp only | split))

theorem State.relayEnd_keeps {r : State} (s : State) (v_r : Nat) (h0 : Keeps r s) : Keeps r (State.relayEnd s v_r) := by
  unfold State.relayEnd
  conv => zeta
  repeat' (first | with_reducible assumption | (intro _) | fail_if_no_progress with_reducible apply Keeps.upd | dsimp only | split)

theorem Acts.capture_keeps {r : State} (self : Acts) (a1 : Nat) (a2 : Option Nat) (a3 : State) (h0 : ∀ c e y, Keeps r y → Keeps r (self.capture c e y)) (h1 : ∀ p y, Keeps r y → Keeps r (self.prog p y)) (h2 : Keeps r a3) : Keeps r (Acts.capture self a1 a2 a3) := by
  unfold Acts.capture
  conv => zeta
  repeat' (first | with_reducible assumption | (intro _) | with_reducible apply h0 | with_reducible apply h1 | fail_if_no_progress with_reducible apply Keeps.upd | dsimp only | split)

theorem Acts.prog_keeps {r : State} (self : Acts) (a1 : Nat) (a2 : State) (h0 : ∀ c e y, Keeps r y → Keeps r (self.capture c e y)) (h1 : ∀ p y, Keeps r y → Keeps r (self.prog p y)) (h2 : Keeps r a2) : Keeps r (Acts.prog self a1 a2) := by
  unfold Acts.prog
  conv => zeta
  repeat' (first | with_reducible assumption | (intro _) | with_reducible apply h0 | with_reducible apply h1 | fail_if_no_progress with_reducible apply Keeps.upd | dsimp only | split)

theorem State.latchEnt_keeps {r : State} (s : State) (n : Nat) (flags : Nat) (h0 : Keeps r s) : Keeps r (State.latchEnt s n flags) := by
  unfold State.latchEnt
  conv => zeta
  repeat' (first | with_reducible assumption | (intro _) | with_reducible apply State.latchFld_keeps | fail_if_no_progress with_reducible apply Keeps.upd | dsimp only | split)

theorem State.armEntry_keeps {r : State} (s : State) (n : Nat) (op : Option Nat) (h0 : Keeps r s) : Keeps r (State.armEntry s n op) := by
  unfold State.armEntry
  conv => zeta
  repeat' (first | with_reducible assumption | (intro _) | with_reducible apply State.finish?_keeps | with_reducible apply State.latchEnt_keeps | with_reducible apply State.modEnt_keeps | with_reducible apply State.takeContact_keeps | fail_if_no_progress with_reducible apply Keeps.upd | dsimp only | split)

theorem State.entAct_keeps {r : State} (s : State) (acts : Acts) (n : Nat) (c0 : Nat) (h0 : Keeps r s) (h1 : ∀ c e y, Keeps r y → Keeps r (acts.capture c e y)) (h2 : ∀ p y, Keeps r y → Keeps r (acts.prog p y)) : Keeps r (State.entAct s acts n c0).1 := by
  unfold State.entAct
  conv => zeta
  repeat' (first | with_reducible assumption | (intro _) | with_reducible apply h1 | with_reducible apply h2 | (with_reducible apply State.relayPulse_keeps (e := by with_reducible assumption)) | with_reducible apply Acts.capture_keeps | with_reducible apply Acts.prog_keeps | with_reducible apply State.armEntry_keeps | fail_if_no_progress with_reducible apply Keeps.upd | dsimp only | split)

theorem State.entAct_keeps_eq {r : State} (s : State) (acts : Acts) (n : Nat) (c0 : Nat) {xx tt} (e : State.entAct s acts n c0 = (tt, xx)) (h0 : Keeps r s) (h1 : ∀ c e y, Keeps r y → Keeps r (acts.capture c e y)) (h2 : ∀ p y, Keeps r y → Keeps r (acts.prog p y)) : Keeps r tt := by
  have q := State.entAct_keeps (r := r) s acts n c0 h0 h1 h2
  rw [e] at q
  exact q

theorem State.entNotice_keeps {r : State} (s : State) (n : Nat) (flags : Nat) (h0 : Keeps r s) : Keeps r (State.entNotice s n flags) := by
  unfold State.entNotice
  conv => zeta
  repeat' (first | with_reducible assumption | (intro _) | with_reducible apply State.raise_keeps | fail_if_no_progress with_reducible apply Keeps.upd | dsimp only | split)

theorem State.entDone_keeps {r : State} (s : State) (n : Nat) (c1 : Nat) (flags : Nat) (fired : Bool) (h0 : Keeps r s) : Keeps r (State.entDone s n c1 flags fired) := by
  unfold State.entDone
  conv => zeta
  repeat' (first | with_reducible assumption | (intro _) | with_reducible apply State.count_keeps | with_reducible apply State.latchEnt_keeps | with_reducible apply State.entNotice_keeps | with_reducible apply State.finish?_keeps | with_reducible apply State.modEnt_keeps | with_reducible apply State.takeContact_keeps | fail_if_no_progress with_reducible apply Keeps.upd | dsimp only | split)

theorem State.entFire_keeps {r : State} (s : State) (acts : Acts) (n : Nat) (late : Nat) (h0 : Keeps r s) (h1 : ∀ c e y, Keeps r y → Keeps r (acts.capture c e y)) (h2 : ∀ p y, Keeps r y → Keeps r (acts.prog p y)) : Keeps r (State.entFire s acts n late) := by
  unfold State.entFire
  conv => zeta
  repeat' (first | with_reducible assumption | (intro _) | with_reducible apply h1 | with_reducible apply h2 | with_reducible apply State.entAct_keeps | with_reducible apply State.entAct_keeps_eq (e := by with_reducible assumption) | with_reducible apply State.entDone_keeps | fail_if_no_progress with_reducible apply Keeps.upd | dsimp only | split)

theorem State.pulseIssue_keeps {r : State} (s : State) (v_r : Nat) (op : Nat) (h0 : Keeps r s) : Keeps r (State.pulseIssue s v_r op) := by
  unfold State.pulseIssue
  conv => zeta
  repeat' (first | with_reducible assumption | (intro _) | with_reducible apply State.modMa_keeps | with_reducible apply State.finish_keeps | with_reducible apply State.count_keeps | (with_reducible apply State.relayPulse_keeps (e := by with_reducible assumption)) | fail_if_no_progress with_reducible apply Keeps.upd | dsimp only | split)

theorem State.entryFire_keeps {r : State} (s : State) (acts : Acts) (n : Nat) (h0 : Keeps r s) (h1 : ∀ c e y, Keeps r y → Keeps r (acts.capture c e y)) (h2 : ∀ p y, Keeps r y → Keeps r (acts.prog p y)) : Keeps r (State.entryFire s acts n) := by
  unfold State.entryFire
  conv => zeta
  repeat' (first | with_reducible assumption | (intro _) | with_reducible apply h1 | with_reducible apply h2 | with_reducible apply State.pulseIssue_keeps | with_reducible apply State.entFire_keeps | with_reducible apply State.entDone_keeps | fail_if_no_progress with_reducible apply Keeps.upd | dsimp only | split)

theorem State.stepPast_keeps {r : State} (acts : Acts) (s : State) (n : Nat) (h0 : ∀ c e y, Keeps r y → Keeps r (acts.capture c e y)) (h1 : ∀ p y, Keeps r y → Keeps r (acts.prog p y)) (h2 : Keeps r s) : Keeps r (State.stepPast acts s n) := by
  unfold State.stepPast
  conv => zeta
  repeat' (first | with_reducible assumption | (intro _) | with_reducible apply h0 | with_reducible apply h1 | with_reducible apply State.entDone_keeps | with_reducible apply State.entFire_keeps | fail_if_no_progress with_reducible apply Keeps.upd | dsimp only | split)

theorem State.pulsePast_keeps {r : State} (s : State) (v_r : Nat) (h0 : Keeps r s) : Keeps r (State.pulsePast s v_r) := by
  unfold State.pulsePast
  conv => zeta
  repeat' (first | with_reducible assumption | (intro _) | with_reducible apply State.finish_keeps | with_reducible apply State.modMa_keeps | fail_if_no_progress with_reducible apply Keeps.upd | dsimp only | split)

theorem State.loopCorrect_keeps {r : State} (s : State) (v_e : Int) (h0 : Keeps r s) : Keeps r (State.loopCorrect s v_e) := by
  unfold State.loopCorrect
  conv => zeta
  repeat' (first | with_reducible assumption | (intro _) | with_reducible apply State.modMa_keeps | fail_if_no_progress with_reducible apply Keeps.upd | dsimp only | split)

theorem State.lockOn_keeps {r : State} (s : State) (h0 : Keeps r s) : Keeps r (State.lockOn s) := by
  unfold State.lockOn
  conv => zeta
  repeat' (first | with_reducible assumption | (intro _) | with_reducible apply State.wave_keeps | with_reducible apply State.setAngle_keeps | fail_if_no_progress with_reducible apply Keeps.upd | dsimp only | split)

theorem State.pullStep_keeps {r : State} (s : State) (h0 : Keeps r s) : Keeps r (State.pullStep s) := by
  unfold State.pullStep
  conv => zeta
  repeat' (first | with_reducible assumption | (intro _) | with_reducible apply State.lockOn_keeps | with_reducible apply State.modMa_keeps | fail_if_no_progress with_reducible apply Keeps.upd | dsimp only | split)

theorem State.acquireEnd_keeps {r : State} (s : State) (acts : Acts) (h0 : Keeps r s) (h1 : ∀ c e y, Keeps r y → Keeps r (acts.capture c e y)) (h2 : ∀ p y, Keeps r y → Keeps r (acts.prog p y)) : Keeps r (State.acquireEnd s acts) := by
  unfold State.acquireEnd
  conv => zeta
  repeat' (first | with_reducible assumption | (intro _) | with_reducible apply h1 | with_reducible apply h2 | with_reducible apply State.setAngle_keeps | with_reducible apply State.notify_keeps | with_reducible apply State.wake_keeps | with_reducible apply State.ash_keeps | with_reducible apply State.lockOn_keeps | with_reducible apply State.modMa_keeps | with_reducible apply State.count_keeps | with_reducible apply State.pulsePast_keeps | with_reducible apply State.stepPast_keeps | fail_if_no_progress with_reducible apply Keeps.upd | with_reducible apply Keeps.foldl | with_reducible apply Keeps.foldl_fst | with_reducible apply Keeps.foldl_snd | dsimp only | split)

theorem State.noteFreq_keeps {r : State} (s : State) (f0 : Nat) (h0 : Keeps r s) : Keeps r (State.noteFreq s f0) := by
  unfold State.noteFreq
  conv => zeta
  repeat' (first | with_reducible assumption | (intro _) | with_reducible apply State.modMa_keeps | fail_if_no_progress with_reducible apply Keeps.upd | dsimp only | split)

theorem State.loopCrossing_keeps {r : State} (s : State) (acts : Acts) (p : Nat) (rising : Bool) (h0 : Keeps r s) (h1 : ∀ c e y, Keeps r y → Keeps r (acts.capture c e y)) (h2 : ∀ p y, Keeps r y → Keeps r (acts.prog p y)) : Keeps r (State.loopCrossing s acts p rising) := by
  unfold State.loopCrossing
  conv => zeta
  repeat' (first | with_reducible assumption | (intro _) | with_reducible apply h1 | with_reducible apply h2 | with_reducible apply State.loopCorrect_keeps | with_reducible apply State.noteFreq_keeps | with_reducible apply State.pullStep_keeps | with_reducible apply State.modMa_keeps | with_reducible apply State.acquireEnd_keeps | fail_if_no_progress with_reducible apply Keeps.upd | dsimp only | split)

theorem State.trackedCrossing_keeps {r : State} (s : State) (acts : Acts) (p : Nat) (rising : Bool) (h0 : Keeps r s) (h1 : ∀ c e y, Keeps r y → Keeps r (acts.capture c e y)) (h2 : ∀ p y, Keeps r y → Keeps r (acts.prog p y)) : Keeps r (State.trackedCrossing s acts p rising) := by
  unfold State.trackedCrossing
  conv => zeta
  repeat' (first | with_reducible assumption | (intro _) | with_reducible apply h1 | with_reducible apply h2 | with_reducible apply State.modPhase_keeps | with_reducible apply State.measureOffset_keeps | with_reducible apply State.loopCrossing_keeps | fail_if_no_progress with_reducible apply Keeps.upd | dsimp only | split)

theorem State.zeroCrossing_keeps {r : State} (s : State) (acts : Acts) (p : Nat) (rising : Bool) (peak : Nat) (samples : List Int) (h0 : Keeps r s) (h1 : ∀ c e y, Keeps r y → Keeps r (acts.capture c e y)) (h2 : ∀ p y, Keeps r y → Keeps r (acts.prog p y)) : Keeps r (State.zeroCrossing s acts p rising peak samples) := by
  unfold State.zeroCrossing
  conv => zeta
  repeat' (first | with_reducible assumption | (intro _) | with_reducible apply h1 | with_reducible apply h2 | with_reducible apply State.count_keeps | with_reducible apply State.modPhase_keeps | with_reducible apply State.trackedCrossing_keeps | with_reducible apply State.returning_keeps | fail_if_no_progress with_reducible apply Keeps.upd | dsimp only | split)

theorem State.phaseClipped_keeps {r : State} (s : State) (p : Nat) (h0 : Keeps r s) : Keeps r (State.phaseClipped s p) := by
  unfold State.phaseClipped
  conv => zeta
  repeat' (first | with_reducible assumption | (intro _) | with_reducible apply State.modPhase_keeps | fail_if_no_progress with_reducible apply Keeps.upd | dsimp only | split)

theorem State.newReference_keeps {r : State} (s : State) (old : Nat) (h0 : Keeps r s) : Keeps r (State.newReference s old) := by
  unfold State.newReference
  conv => zeta
  repeat' (first | with_reducible assumption | (intro _) | with_reducible apply State.modMa_keeps | with_reducible apply State.watchWindows_keeps | with_reducible apply State.setRotation_keeps | fail_if_no_progress with_reducible apply Keeps.upd | dsimp only | split)

theorem State.maCfgWritten_keeps {r : State} (s : State) (old : Nat) (h0 : Keeps r s) : Keeps r (State.maCfgWritten s old) := by
  unfold State.maCfgWritten
  conv => zeta
  repeat' (first | with_reducible assumption | (intro _) | with_reducible apply State.newReference_keeps | with_reducible apply State.phaseLost_keeps | with_reducible apply State.relocate_keeps | fail_if_no_progress with_reducible apply Keeps.upd | with_reducible apply Keeps.foldl | with_reducible apply Keeps.foldl_fst | with_reducible apply Keeps.foldl_snd | dsimp only | split)

theorem State.entryWritten_keeps {r : State} (s : State) (n : Nat) (old : Nat × Nat) (h0 : Keeps r s) : Keeps r (State.entryWritten s n old) := by
  unfold State.entryWritten
  conv => zeta
  repeat' (first | with_reducible assumption | (intro _) | with_reducible apply State.modEnt_keeps | with_reducible apply State.finish?_keeps | with_reducible apply State.entNotice_keeps | with_reducible apply State.latchEnt_keeps | with_reducible apply State.takeContact_keeps | fail_if_no_progress with_reducible apply Keeps.upd | with_reducible apply Keeps.getD | with_reducible apply RegsKept.set | with_reducible apply RegsKept.nil | with_reducible apply RegsKept.hearthOnly | with_reducible apply RegsKept.filter | with_reducible apply FlashKept.write | with_reducible apply FlashKept.erase | with_reducible apply RegsKept.of | with_reducible apply FlashKept.of | exact Nat.le_refl _ | exact Nat.le_max_left _ _ | exact Nat.left_le_or | dsimp only | split | with_reducible apply Keeps.setBoth)

theorem opMaStatus_keeps {r : State} (op : Nat) (p : List Byte) (s : State) (h0 : Keeps r s) : Keeps r (opMaStatus op p s) := by
  unfold opMaStatus
  conv => zeta
  repeat' (first | with_reducible assumption | (intro _) | with_reducible apply State.finish_keeps | fail_if_no_progress with_reducible apply Keeps.upd | dsimp only | split)

theorem opMaArm_keeps {r : State} (op : Nat) (p : List Byte) (s : State) (h0 : Keeps r s) : Keeps r (opMaArm op p s) := by
  unfold opMaArm
  conv => zeta
  repeat' (first | with_reducible assumption | (intro _) | with_reducible apply State.finish_keeps | with_reducible apply State.armEntry_keeps | fail_if_no_progress with_reducible apply Keeps.upd | dsimp only | split)

theorem opMaPulse_keeps {r : State} (op : Nat) (p : List Byte) (s : State) (h0 : Keeps r s) : Keeps r (opMaPulse op p s) := by
  unfold opMaPulse
  conv => zeta
  repeat' (first | with_reducible assumption | (intro _) | with_reducible apply State.finish_keeps | with_reducible apply State.pulseIssue_keeps | with_reducible apply State.modMa_keeps | fail_if_no_progress with_reducible apply Keeps.upd | dsimp only | split)

theorem opMaWave_keeps {r : State} (op : Nat) (p : List Byte) (s : State) (h0 : Keeps r s) : Keeps r (opMaWave op p s) := by
  unfold opMaWave
  conv => zeta
  repeat' (first | with_reducible assumption | (intro _) | with_reducible apply State.finish_keeps | fail_if_no_progress with_reducible apply Keeps.upd | dsimp only | split)

end Sys2Proof.Machine
end

