-- ==== Sys2Proof/Laws/KeepsMemory.lean ====
section
/-! SUPPORT. The operations of Machine/Memory.lean keep what every operation inside a command keeps (`Keeps`). -/

namespace Sys2Proof.Machine

set_option linter.unusedTactic false
set_option linter.unreachableTactic false
set_option linter.unusedVariables false
set_option linter.unnecessarySeqFocus false

theorem State.modMem_keeps {r : State} (s : State) (f : Memory → Memory) (h0 : Keeps r s) : Keeps r (State.modMem s f) := by
  unfold State.modMem
  conv => zeta
  repeat' (first | with_reducible assumption | (intro _) | fail_if_no_progress with_reducible apply Keeps.upd | dsimp only | split)

theorem State.modBank_keeps {r : State} (s : State) (b : Nat) (f : Bank → Bank) (h0 : Keeps r s) : Keeps r (State.modBank s b f) := by
  unfold State.modBank
  conv => zeta
  repeat' (first | with_reducible assumption | (intro _) | with_reducible apply State.modMem_keeps | fail_if_no_progress with_reducible apply Keeps.upd | dsimp only | split)

theorem State.logAdd_keeps {r : State} (s : State) (es : List (List Byte)) (h0 : Keeps r s) : Keeps r (State.logAdd s es) := by
  unfold State.logAdd
  conv => zeta
  repeat' (first | with_reducible assumption | (intro _) | with_reducible apply State.draw_keeps | with_reducible apply State.draw_keeps_eq (e := by with_reducible assumption) | fail_if_no_progress with_reducible apply Keeps.upd | dsimp only | split)

theorem State.testBank_keeps {r : State} (faults : List BankFault) (acc : State × List (List Byte)) (b : Nat) (h0 : Keeps r acc.1) : Keeps r (State.testBank faults acc b).1 := by
  unfold State.testBank
  conv => zeta
  repeat' (first | with_reducible assumption | (intro _) | with_reducible apply State.modBank_keeps | with_reducible apply State.ashHearth_keeps | fail_if_no_progress with_reducible apply Keeps.upd | with_reducible apply Keeps.foldl | with_reducible apply Keeps.foldl_fst | with_reducible apply Keeps.foldl_snd | dsimp only | split)

theorem State.testBank_keeps_eq {r : State} (faults : List BankFault) (acc : State × List (List Byte)) (b : Nat) {xx tt} (e : State.testBank faults acc b = (tt, xx)) (h0 : Keeps r acc.1) : Keeps r tt := by
  have q := State.testBank_keeps (r := r) faults acc b h0
  rw [e] at q
  exact q

theorem State.memStart_keeps {r : State} (s : State) (_full : Bool) (faults : List BankFault) (h0 : Keeps r s) : Keeps r (State.memStart s _full faults) := by
  unfold State.memStart
  conv => zeta
  repeat' (first | with_reducible assumption | (intro _) | with_reducible apply State.modMem_keeps | with_reducible apply State.testBank_keeps | with_reducible apply State.testBank_keeps_eq (e := by with_reducible assumption) | with_reducible apply State.logAdd_keeps | with_reducible apply State.notify_keeps | fail_if_no_progress with_reducible apply Keeps.upd | with_reducible apply Keeps.foldl | with_reducible apply Keeps.foldl_fst | with_reducible apply Keeps.foldl_snd | dsimp only | split)

theorem State.repairTrigger_keeps {r : State} (s : State) (b : Nat) (isRow : Bool) (i : Nat) (h0 : Keeps r s) : Keeps r (State.repairTrigger s b isRow i) := by
  unfold State.repairTrigger
  conv => zeta
  repeat' (first | with_reducible assumption | (intro _) | with_reducible apply State.modMem_keeps | with_reducible apply State.notify_keeps | with_reducible apply State.ash_keeps | with_reducible apply State.modBank_keeps | fail_if_no_progress with_reducible apply Keeps.upd | dsimp only | split)

theorem State.poisonedRead_keeps {r : State} (s : State) (addr : Nat) (phys : Nat) (blk : Nat) (h0 : Keeps r s) : Keeps r (State.poisonedRead s addr phys blk) := by
  unfold State.poisonedRead
  conv => zeta
  repeat' (first | with_reducible assumption | (intro _) | with_reducible apply State.notify_keeps | with_reducible apply State.wake_keeps | with_reducible apply State.ash_keeps | with_reducible apply State.count_keeps | with_reducible apply State.repairTrigger_keeps | fail_if_no_progress with_reducible apply Keeps.upd | dsimp only | split)

theorem State.correctedRead_keeps {r : State} (s : State) (b : Nat) (row : Nat) (lane : Nat) (hard : Bool) (h0 : Keeps r s) : Keeps r (State.correctedRead s b row lane hard) := by
  unfold State.correctedRead
  conv => zeta
  repeat' (first | with_reducible assumption | (intro _) | with_reducible apply State.modBank_keeps | with_reducible apply State.countN_keeps | with_reducible apply State.repairTrigger_keeps | fail_if_no_progress with_reducible apply Keeps.upd | dsimp only | split)

theorem State.scrubRead_keeps {r : State} (s : State) (v_r : WordRead) (h0 : Keeps r s) : Keeps r (State.scrubRead s v_r) := by
  unfold State.scrubRead
  conv => zeta
  repeat' (first | with_reducible assumption | (intro _) | with_reducible apply State.modMem_keeps | with_reducible apply State.correctedRead_keeps | with_reducible apply State.poisonedRead_keeps | fail_if_no_progress with_reducible apply Keeps.upd | dsimp only | split)

theorem State.fieldRepair_keeps {r : State} (s : State) (h0 : Keeps r s) : Keeps r (State.fieldRepair s) := by
  unfold State.fieldRepair
  conv => zeta
  repeat' (first | with_reducible assumption | (intro _) | with_reducible apply State.modBank_keeps | with_reducible apply State.modMem_keeps | with_reducible apply State.notify_keeps | with_reducible apply State.ash_keeps | with_reducible apply State.logAdd_keeps | fail_if_no_progress with_reducible apply Keeps.upd | dsimp only | split)

theorem State.repairLogFlash_keeps {r : State} (s : State) (h0 : Keeps r s) : Keeps r (State.repairLogFlash s) := by
  unfold State.repairLogFlash
  conv => zeta
  repeat' (first | with_reducible assumption | (intro _) | with_reducible apply State.flashAsk_keeps | with_reducible apply State.modMem_keeps | fail_if_no_progress with_reducible apply Keeps.upd | dsimp only | split)

theorem State.repairLogWritten_keeps {r : State} (s : State) (n : Nat) (bytes : List Byte) (ok : Bool) (h0 : Keeps r s) : Keeps r (State.repairLogWritten s n bytes ok) := by
  unfold State.repairLogWritten
  conv => zeta
  repeat' (first | with_reducible assumption | (intro _) | with_reducible apply State.modMem_keeps | fail_if_no_progress with_reducible apply Keeps.upd | with_reducible apply RegsKept.set | with_reducible apply RegsKept.nil | with_reducible apply RegsKept.hearthOnly | with_reducible apply RegsKept.filter | with_reducible apply FlashKept.write | with_reducible apply FlashKept.erase | with_reducible apply RegsKept.of | with_reducible apply FlashKept.of | exact Nat.le_refl _ | exact Nat.le_max_left _ _ | exact Nat.left_le_or | dsimp only | split | with_reducible apply Keeps.setBoth)

theorem opMmStatus_keeps {r : State} (op : Nat) (p : List Byte) (s : State) (h0 : Keeps r s) : Keeps r (opMmStatus op p s) := by
  unfold opMmStatus
  conv => zeta
  repeat' (first | with_reducible assumption | (intro _) | with_reducible apply State.finish_keeps | fail_if_no_progress with_reducible apply Keeps.upd | dsimp only | split)

theorem opMmLog_keeps {r : State} (op : Nat) (p : List Byte) (s : State) (h0 : Keeps r s) : Keeps r (opMmLog op p s) := by
  unfold opMmLog
  conv => zeta
  repeat' (first | with_reducible assumption | (intro _) | with_reducible apply State.finish_keeps | fail_if_no_progress with_reducible apply Keeps.upd | dsimp only | split)

theorem opMmWithdraw_keeps {r : State} (op : Nat) (p : List Byte) (s : State) (h0 : Keeps r s) : Keeps r (opMmWithdraw op p s) := by
  unfold opMmWithdraw
  conv => zeta
  repeat' (first | with_reducible assumption | (intro _) | with_reducible apply State.finish_keeps | with_reducible apply State.logAdd_keeps | fail_if_no_progress with_reducible apply Keeps.upd | dsimp only | split)

end Sys2Proof.Machine
end

