-- ==== Sys2Proof/Laws/KeepsStrait.lean ====
section
/-! SUPPORT. The operations of Machine/Strait.lean keep what every operation inside a command keeps (`Keeps`). -/

namespace Sys2Proof.Machine

set_option linter.unusedTactic false
set_option linter.unreachableTactic false
set_option linter.unusedVariables false
set_option linter.unnecessarySeqFocus false

theorem State.modLane_keeps {r : State} (s : State) (n : Nat) (f : Lane → Lane) (h0 : Keeps r s) : Keeps r (State.modLane s n f) := by
  unfold State.modLane
  conv => zeta
  repeat' (first | with_reducible assumption | (intro _) | fail_if_no_progress with_reducible apply Keeps.upd | dsimp only | split)

theorem State.modSwap_keeps {r : State} (s : State) (a1 : Nat) (f : Swap → Swap) (h0 : Keeps r s) : Keeps r (State.modSwap s a1 f) := by
  unfold State.modSwap
  conv => zeta
  repeat' (first | with_reducible assumption | (intro _) | fail_if_no_progress with_reducible apply Keeps.upd | dsimp only | split)

theorem State.eyeLost_keeps {r : State} (s : State) (n : Nat) (h0 : Keeps r s) : Keeps r (State.eyeLost s n) := by
  unfold State.eyeLost
  conv => zeta
  repeat' (first | with_reducible assumption | (intro _) | with_reducible apply State.finish?_keeps | with_reducible apply State.modLane_keeps | fail_if_no_progress with_reducible apply Keeps.upd | dsimp only | split)

theorem State.laneOut_keeps {r : State} (s : State) (n : Nat) (f : Lane → Lane) (h0 : Keeps r s) : Keeps r (State.laneOut s n f) := by
  unfold State.laneOut
  conv => zeta
  repeat' (first | with_reducible assumption | (intro _) | with_reducible apply State.eyeLost_keeps | with_reducible apply State.modLane_keeps | fail_if_no_progress with_reducible apply Keeps.upd | dsimp only | split)

theorem State.linkLanes_keeps {r : State} (s : State) (a1 : Nat) (f : Lane → Lane) (h0 : Keeps r s) : Keeps r (State.linkLanes s a1 f) := by
  unfold State.linkLanes
  conv => zeta
  repeat' (first | with_reducible assumption | (intro _) | with_reducible apply State.laneOut_keeps | fail_if_no_progress with_reducible apply Keeps.upd | with_reducible apply Keeps.foldl | with_reducible apply Keeps.foldl_fst | with_reducible apply Keeps.foldl_snd | dsimp only | split)

theorem State.endSwap_keeps {r : State} (s : State) (a1 : Nat) (status : Nat) (h0 : Keeps r s) : Keeps r (State.endSwap s a1 status) := by
  unfold State.endSwap
  conv => zeta
  repeat' (first | with_reducible assumption | (intro _) | with_reducible apply State.finish?_keeps | with_reducible apply State.modSwap_keeps | fail_if_no_progress with_reducible apply Keeps.upd | dsimp only | split)

theorem State.linkNotice_keeps {r : State} (s : State) (a1 : Nat) (old : Nat) (new : Nat) (cause : Nat) (h0 : Keeps r s) : Keeps r (State.linkNotice s a1 old new cause) := by
  unfold State.linkNotice
  conv => zeta
  repeat' (first | with_reducible assumption | (intro _) | with_reducible apply State.notify_keeps | fail_if_no_progress with_reducible apply Keeps.upd | dsimp only | split)

theorem State.linkAsh_keeps {r : State} (s : State) (a1 : Nat) (old : Nat) (new : Nat) (cause : Nat) (h0 : Keeps r s) : Keeps r (State.linkAsh s a1 old new cause) := by
  unfold State.linkAsh
  conv => zeta
  repeat' (first | with_reducible assumption | (intro _) | with_reducible apply State.ash_keeps | fail_if_no_progress with_reducible apply Keeps.upd | dsimp only | split)

theorem State.sendRoutes_keeps {r : State} (s : State) (h0 : Keeps r s) : Keeps r (State.sendRoutes s) := by
  unfold State.sendRoutes
  conv => zeta
  repeat' (first | with_reducible assumption | (intro _) | (with_reducible apply State.offerOn_keeps (e := by with_reducible assumption)) | fail_if_no_progress with_reducible apply Keeps.upd | with_reducible apply Keeps.getD | with_reducible apply Keeps.foldl | with_reducible apply Keeps.foldl_fst | with_reducible apply Keeps.foldl_snd | dsimp only | split)

theorem State.offerHeld_keeps {r : State} (s : State) (h0 : Keeps r s) : Keeps r (State.offerHeld s) := by
  unfold State.offerHeld
  conv => zeta
  repeat' (first | with_reducible assumption | (intro _) | (with_reducible apply State.offer_keeps (e := by with_reducible assumption)) | fail_if_no_progress with_reducible apply Keeps.upd | with_reducible apply Keeps.foldl | with_reducible apply Keeps.foldl_fst | with_reducible apply Keeps.foldl_snd | dsimp only | split)

theorem State.freeWaiting_keeps {r : State} (s : State) (a1 : Nat) (cls : Nat) (w : Waiting) (h0 : Keeps r s) : Keeps r (State.freeWaiting s a1 cls w) := by
  unfold State.freeWaiting
  conv => zeta
  repeat' (first | with_reducible assumption | (intro _) | with_reducible apply State.modLink_keeps | fail_if_no_progress with_reducible apply Keeps.upd | dsimp only | split)

theorem State.forwardOne_keeps {r : State} (a0 : State) (a1 : Nat) (cls : Nat) (w : Waiting) (stuck : List Nat) (h0 : Keeps r a0) : Keeps r (State.forwardOne a0 a1 cls w stuck).1 := by
  unfold State.forwardOne
  conv => zeta
  repeat' (first | with_reducible assumption | (intro _) | (with_reducible apply State.offer_keeps (e := by with_reducible assumption)) | with_reducible apply State.freeWaiting_keeps | fail_if_no_progress with_reducible apply Keeps.upd | dsimp only | split)

theorem State.forwardOne_keeps_eq {r : State} (a0 : State) (a1 : Nat) (cls : Nat) (w : Waiting) (stuck : List Nat) {xx tt} (e : State.forwardOne a0 a1 cls w stuck = (tt, xx)) (h0 : Keeps r a0) : Keeps r tt := by
  have q := State.forwardOne_keeps (r := r) a0 a1 cls w stuck h0
  rw [e] at q
  exact q

theorem State.forwardAll_keeps {r : State} (s : State) (h0 : Keeps r s) : Keeps r (State.forwardAll s) := by
  unfold State.forwardAll
  conv => zeta
  repeat' (first | with_reducible assumption | (intro _) | with_reducible apply State.forwardOne_keeps | with_reducible apply State.forwardOne_keeps_eq (e := by with_reducible assumption) | fail_if_no_progress with_reducible apply Keeps.upd | with_reducible apply Keeps.foldl | with_reducible apply Keeps.foldl_fst | with_reducible apply Keeps.foldl_snd | dsimp only | split)

theorem State.moveMsgs_keeps {r : State} (s : State) (h0 : Keeps r s) : Keeps r (State.moveMsgs s) := by
  unfold State.moveMsgs
  conv => zeta
  repeat' (first | with_reducible assumption | (intro _) | with_reducible apply State.forwardAll_keeps | with_reducible apply State.offerHeld_keeps | fail_if_no_progress with_reducible apply Keeps.upd | dsimp only | split)

theorem State.setLink_keeps {r : State} (s : State) (a1 : Nat) (st : LinkSt) (cause : Nat) (h0 : Keeps r s) : Keeps r (State.setLink s a1 st cause) := by
  unfold State.setLink
  conv => zeta
  repeat' (first | with_reducible assumption | (intro _) | with_reducible apply State.modLink_keeps | fail_if_no_progress with_reducible apply Keeps.upd | dsimp only | split)

theorem State.leaveUp_keeps {r : State} (s : State) (a1 : Nat) (h0 : Keeps r s) : Keeps r (State.leaveUp s a1) := by
  unfold State.leaveUp
  conv => zeta
  repeat' (first | with_reducible assumption | (intro _) | with_reducible apply State.countN_keeps | with_reducible apply State.modLink_keeps | fail_if_no_progress with_reducible apply Keeps.upd | dsimp only | split)

theorem State.endRetrain_keeps {r : State} (s : State) (a1 : Nat) (status : Nat) (h0 : Keeps r s) : Keeps r (State.endRetrain s a1 status) := by
  unfold State.endRetrain
  conv => zeta
  repeat' (first | with_reducible assumption | (intro _) | with_reducible apply State.finish_keeps | with_reducible apply State.modLink_keeps | fail_if_no_progress with_reducible apply Keeps.upd | dsimp only | split)

theorem State.train_keeps {r : State} (s : State) (a1 : Nat) (cause : Nat) (h0 : Keeps r s) : Keeps r (State.train s a1 cause) := by
  unfold State.train
  conv => zeta
  repeat' (first | with_reducible assumption | (intro _) | with_reducible apply State.linkLanes_keeps | with_reducible apply State.modLink_keeps | with_reducible apply State.setLink_keeps | fail_if_no_progress with_reducible apply Keeps.upd | dsimp only | split)

theorem State.retrain_keeps {r : State} (s : State) (a1 : Nat) (cause : Nat) (own : Bool) (h0 : Keeps r s) : Keeps r (State.retrain s a1 cause own) := by
  unfold State.retrain
  conv => zeta
  repeat' (first | with_reducible assumption | (intro _) | with_reducible apply State.train_keeps | with_reducible apply State.count_keeps | with_reducible apply State.leaveUp_keeps | with_reducible apply State.modLink_keeps | with_reducible apply State.sendRoutes_keeps | with_reducible apply State.linkNotice_keeps | with_reducible apply State.linkAsh_keeps | fail_if_no_progress with_reducible apply Keeps.upd | dsimp only | split)

theorem State.linkDown_keeps {r : State} (s0 : State) (a1 : Nat) (cause : Nat) (h0 : Keeps r s0) : Keeps r (State.linkDown s0 a1 cause) := by
  unfold State.linkDown
  conv => zeta
  repeat' (first | with_reducible assumption | (intro _) | with_reducible apply State.endSwap_keeps | with_reducible apply State.leaveUp_keeps | with_reducible apply State.count_keeps | with_reducible apply State.modLink_keeps | with_reducible apply State.setLink_keeps | with_reducible apply State.endRetrain_keeps | with_reducible apply State.linkNotice_keeps | with_reducible apply State.linkAsh_keeps | with_reducible apply State.sendRoutes_keeps | fail_if_no_progress with_reducible apply Keeps.upd | dsimp only | split)

theorem State.protoError_keeps {r : State} (s : State) (a1 : Nat) (h0 : Keeps r s) : Keeps r (State.protoError s a1) := by
  unfold State.protoError
  conv => zeta
  repeat' (first | with_reducible assumption | (intro _) | with_reducible apply State.retrain_keeps | with_reducible apply State.count_keeps | fail_if_no_progress with_reducible apply Keeps.upd | dsimp only | split)

theorem State.pauseLink_keeps {r : State} (s : State) (a1 : Nat) (h0 : Keeps r s) : Keeps r (State.pauseLink s a1) := by
  unfold State.pauseLink
  conv => zeta
  repeat' (first | with_reducible assumption | (intro _) | with_reducible apply State.sendRoutes_keeps | with_reducible apply State.modLink_keeps | with_reducible apply State.setLink_keeps | with_reducible apply State.leaveUp_keeps | fail_if_no_progress with_reducible apply Keeps.upd | dsimp only | split)

theorem State.replayTrigger_keeps {r : State} (s : State) (a1 : Nat) (h0 : Keeps r s) : Keeps r (State.replayTrigger s a1) := by
  unfold State.replayTrigger
  conv => zeta
  repeat' (first | with_reducible assumption | (intro _) | with_reducible apply State.count_keeps | with_reducible apply State.modLink_keeps | with_reducible apply State.retrain_keeps | with_reducible apply State.linkDown_keeps | fail_if_no_progress with_reducible apply Keeps.upd | dsimp only | split)

theorem State.resumeLink_keeps {r : State} (s : State) (a1 : Nat) (h0 : Keeps r s) : Keeps r (State.resumeLink s a1) := by
  unfold State.resumeLink
  conv => zeta
  repeat' (first | with_reducible assumption | (intro _) | with_reducible apply State.replayTrigger_keeps | with_reducible apply State.moveMsgs_keeps | with_reducible apply State.sendRoutes_keeps | with_reducible apply State.modLink_keeps | with_reducible apply State.setLink_keeps | fail_if_no_progress with_reducible apply Keeps.upd | dsimp only | split)

theorem State.abandonSwap_keeps {r : State} (s : State) (a1 : Nat) (h0 : Keeps r s) : Keeps r (State.abandonSwap s a1) := by
  unfold State.abandonSwap
  conv => zeta
  repeat' (first | with_reducible assumption | (intro _) | with_reducible apply State.train_keeps | with_reducible apply State.linkDown_keeps | fail_if_no_progress with_reducible apply Keeps.upd | dsimp only | split)

theorem State.straitStart_keeps {r : State} (s : State) (h0 : Keeps r s) : Keeps r (State.straitStart s) := by
  unfold State.straitStart
  conv => zeta
  repeat' (first | with_reducible assumption | (intro _) | with_reducible apply State.draw_keeps | with_reducible apply State.draw_keeps_eq (e := by with_reducible assumption) | with_reducible apply State.train_keeps | fail_if_no_progress with_reducible apply Keeps.upd | with_reducible apply Keeps.foldl | with_reducible apply Keeps.foldl_fst | with_reducible apply Keeps.foldl_snd | dsimp only | split)

theorem State.stLinkWritten_keeps {r : State} (s : State) (a1 : Nat) (h0 : Keeps r s) : Keeps r (State.stLinkWritten s a1) := by
  unfold State.stLinkWritten
  conv => zeta
  repeat' (first | with_reducible assumption | (intro _) | with_reducible apply State.linkLanes_keeps | with_reducible apply State.endSwap_keeps | with_reducible apply State.leaveUp_keeps | with_reducible apply State.linkNotice_keeps | with_reducible apply State.modLink_keeps | with_reducible apply State.setLink_keeps | with_reducible apply State.sendRoutes_keeps | with_reducible apply State.endRetrain_keeps | with_reducible apply State.train_keeps | fail_if_no_progress with_reducible apply Keeps.upd | dsimp only | split)

theorem State.freshUp_keeps {r : State} (s : State) (a1 : Nat) (h0 : Keeps r s) : Keeps r (State.freshUp s a1) := by
  unfold State.freshUp
  conv => zeta
  repeat' (first | with_reducible assumption | (intro _) | with_reducible apply State.countN_keeps | with_reducible apply State.modLink_keeps | fail_if_no_progress with_reducible apply Keeps.upd | dsimp only | split)

theorem State.tryUp_keeps {r : State} (s : State) (a1 : Nat) (h0 : Keeps r s) : Keeps r (State.tryUp s a1) := by
  unfold State.tryUp
  conv => zeta
  repeat' (first | with_reducible assumption | (intro _) | with_reducible apply State.count_keeps | with_reducible apply State.modLink_keeps | with_reducible apply State.freshUp_keeps | with_reducible apply State.setLink_keeps | with_reducible apply State.moveMsgs_keeps | with_reducible apply State.sendRoutes_keeps | with_reducible apply State.endRetrain_keeps | with_reducible apply State.linkNotice_keeps | fail_if_no_progress with_reducible apply Keeps.upd | dsimp only | split)

theorem State.rxInit_keeps {r : State} (s : State) (a1 : Nat) (b : List Byte) (h0 : Keeps r s) : Keeps r (State.rxInit s a1 b) := by
  unfold State.rxInit
  conv => zeta
  repeat' (first | with_reducible assumption | (intro _) | with_reducible apply State.count_keeps | with_reducible apply State.tryUp_keeps | with_reducible apply State.modLink_keeps | fail_if_no_progress with_reducible apply Keeps.upd | dsimp only | split)

theorem State.rxStatus_keeps {r : State} (s : State) (a1 : Nat) (b : List Byte) (nak : Bool) (h0 : Keeps r s) : Keeps r (State.rxStatus s a1 b nak) := by
  unfold State.rxStatus
  conv => zeta
  repeat' (first | with_reducible assumption | (intro _) | with_reducible apply State.protoError_keeps | with_reducible apply State.modLink_keeps | with_reducible apply State.replayTrigger_keeps | fail_if_no_progress with_reducible apply Keeps.upd | dsimp only | split)

theorem State.rxIdleReq_keeps {r : State} (s : State) (a1 : Nat) (h0 : Keeps r s) : Keeps r (State.rxIdleReq s a1) := by
  unfold State.rxIdleReq
  conv => zeta
  repeat' (first | with_reducible assumption | (intro _) | with_reducible apply State.modLink_keeps | fail_if_no_progress with_reducible apply Keeps.upd | dsimp only | split)

theorem State.rxIdleAck_keeps {r : State} (s : State) (a1 : Nat) (h0 : Keeps r s) : Keeps r (State.rxIdleAck s a1) := by
  unfold State.rxIdleAck
  conv => zeta
  repeat' (first | with_reducible assumption | (intro _) | with_reducible apply State.sendRoutes_keeps | with_reducible apply State.linkLanes_keeps | with_reducible apply State.modLink_keeps | with_reducible apply State.setLink_keeps | with_reducible apply State.leaveUp_keeps | fail_if_no_progress with_reducible apply Keeps.upd | dsimp only | split)

theorem State.rxRetrain_keeps {r : State} (s : State) (a1 : Nat) (cause : Nat) (h0 : Keeps r s) : Keeps r (State.rxRetrain s a1 cause) := by
  unfold State.rxRetrain
  conv => zeta
  repeat' (first | with_reducible assumption | (intro _) | with_reducible apply State.retrain_keeps | fail_if_no_progress with_reducible apply Keeps.upd | dsimp only | split)

theorem State.failFlit_keeps {r : State} (s : State) (a1 : Nat) (h0 : Keeps r s) : Keeps r (State.failFlit s a1) := by
  unfold State.failFlit
  conv => zeta
  repeat' (first | with_reducible assumption | (intro _) | with_reducible apply State.count_keeps | with_reducible apply State.modLink_keeps | fail_if_no_progress with_reducible apply Keeps.upd | dsimp only | split)

theorem State.messageIn_keeps {r : State} (s : State) (a1 : Nat) (cls : Nat) (w : Waiting) (h0 : Keeps r s) : Keeps r (State.messageIn s a1 cls w) := by
  unfold State.messageIn
  conv => zeta
  repeat' (first | with_reducible assumption | (intro _) | with_reducible apply State.modLink_keeps | with_reducible apply State.count_keeps | with_reducible apply State.freeWaiting_keeps | with_reducible apply State.forwardAll_keeps | fail_if_no_progress with_reducible apply Keeps.upd | dsimp only | split)

theorem State.dropFlit_keeps {r : State} (s : State) (a1 : Nat) (cls : Nat) (h0 : Keeps r s) : Keeps r (State.dropFlit s a1 cls) := by
  unfold State.dropFlit
  conv => zeta
  repeat' (first | with_reducible assumption | (intro _) | with_reducible apply State.protoError_keeps | with_reducible apply State.modLink_keeps | fail_if_no_progress with_reducible apply Keeps.upd | dsimp only | split)

theorem State.rxTraffic_keeps {r : State} (s : State) (a1 : Nat) (h : Nat) (body : List Byte) (h0 : Keeps r s) : Keeps r (State.rxTraffic s a1 h body) := by
  unfold State.rxTraffic
  conv => zeta
  repeat' (first | with_reducible assumption | (intro _) | with_reducible apply State.modLink_keeps | with_reducible apply State.dropFlit_keeps | with_reducible apply State.freeWaiting_keeps | with_reducible apply State.messageIn_keeps | fail_if_no_progress with_reducible apply Keeps.upd | with_reducible apply Keeps.getD | dsimp only | split)

theorem State.rxLink_keeps {r : State} (s : State) (a1 : Nat) (body : List Byte) (h0 : Keeps r s) : Keeps r (State.rxLink s a1 body) := by
  unfold State.rxLink
  conv => zeta
  repeat' (first | with_reducible assumption | (intro _) | with_reducible apply State.rxStatus_keeps | with_reducible apply State.rxInit_keeps | with_reducible apply State.rxRetrain_keeps | with_reducible apply State.protoError_keeps | with_reducible apply State.rxIdleReq_keeps | with_reducible apply State.rxIdleAck_keeps | fail_if_no_progress with_reducible apply Keeps.upd | dsimp only | split)

theorem State.partnerTrains_keeps {r : State} (s : State) (a1 : Nat) (h0 : Keeps r s) : Keeps r (State.partnerTrains s a1) := by
  unfold State.partnerTrains
  conv => zeta
  repeat' (first | with_reducible assumption | (intro _) | with_reducible apply State.draw_keeps | with_reducible apply State.draw_keeps_eq (e := by with_reducible assumption) | with_reducible apply State.retrain_keeps | fail_if_no_progress with_reducible apply Keeps.upd | dsimp only | split)

theorem State.flitRx_keeps {r : State} (s : State) (a1 : Nat) (flit : List Byte) (kcode : Bool) (h0 : Keeps r s) : Keeps r (State.flitRx s a1 flit kcode) := by
  unfold State.flitRx
  conv => zeta
  repeat' (first | with_reducible assumption | (intro _) | with_reducible apply State.partnerTrains_keeps | with_reducible apply State.failFlit_keeps | with_reducible apply State.protoError_keeps | with_reducible apply State.rxLink_keeps | with_reducible apply State.rxTraffic_keeps | with_reducible apply State.rxInit_keeps | fail_if_no_progress with_reducible apply Keeps.upd | dsimp only | split)

theorem State.sent_keeps {r : State} (s : State) (a1 : Nat) (f : Option (List Byte)) (h0 : Keeps r s) : Keeps r (State.sent s a1 f) := by
  unfold State.sent
  conv => zeta
  repeat' (first | with_reducible assumption | (intro _) | with_reducible apply State.modLink_keeps | fail_if_no_progress with_reducible apply Keeps.upd | dsimp only | split)

theorem State.sentStatus_keeps {r : State} (s : State) (a1 : Nat) (sub : Nat) (h0 : Keeps r s) : Keeps r (State.sentStatus s a1 sub) := by
  unfold State.sentStatus
  conv => zeta
  repeat' (first | with_reducible assumption | (intro _) | with_reducible apply State.sent_keeps | with_reducible apply State.modLink_keeps | fail_if_no_progress with_reducible apply Keeps.upd | dsimp only | split)

theorem State.noteReq_keeps {r : State} (s : State) (m : StMsg) (h0 : Keeps r s) : Keeps r (State.noteReq s m) := by
  unfold State.noteReq
  conv => zeta
  repeat' (first | with_reducible assumption | (intro _) | fail_if_no_progress with_reducible apply Keeps.upd | dsimp only | split)

theorem State.sendNew_keeps {r : State} (s : State) (a1 : Nat) (cls : Nat) (h0 : Keeps r s) : Keeps r (State.sendNew s a1 cls) := by
  unfold State.sendNew
  conv => zeta
  repeat' (first | with_reducible assumption | (intro _) | with_reducible apply State.sent_keeps | with_reducible apply State.modLink_keeps | with_reducible apply State.modMem_keeps | with_reducible apply State.moveMsgs_keeps | with_reducible apply State.noteReq_keeps | fail_if_no_progress with_reducible apply Keeps.upd | dsimp only | split)

theorem State.replayPoisoned_keeps {r : State} (s : State) (a1 : Nat) (i : Nat) (f : RFlit) (h0 : Keeps r s) : Keeps r (State.replayPoisoned s a1 i f) := by
  unfold State.replayPoisoned
  conv => zeta
  repeat' (first | with_reducible assumption | (intro _) | with_reducible apply State.draw_keeps | with_reducible apply State.draw_keeps_eq (e := by with_reducible assumption) | with_reducible apply State.poisonedRead_keeps | with_reducible apply State.count_keeps | with_reducible apply State.modLink_keeps | with_reducible apply State.retrain_keeps | fail_if_no_progress with_reducible apply Keeps.upd | dsimp only | split)

theorem State.sendReplay_keeps {r : State} (s : State) (a1 : Nat) (i : Nat) (h0 : Keeps r s) : Keeps r (State.sendReplay s a1 i) := by
  unfold State.sendReplay
  conv => zeta
  repeat' (first | with_reducible assumption | (intro _) | with_reducible apply State.sent_keeps | with_reducible apply State.modLink_keeps | with_reducible apply State.replayPoisoned_keeps | fail_if_no_progress with_reducible apply Keeps.upd | dsimp only | split)

theorem State.slotUp_keeps {r : State} (s : State) (a1 : Nat) (h0 : Keeps r s) : Keeps r (State.slotUp s a1) := by
  unfold State.slotUp
  conv => zeta
  repeat' (first | with_reducible assumption | (intro _) | with_reducible apply State.count_keeps | with_reducible apply State.sentStatus_keeps | with_reducible apply State.modLink_keeps | with_reducible apply State.sent_keeps | with_reducible apply State.sendRoutes_keeps | with_reducible apply State.linkLanes_keeps | with_reducible apply State.setLink_keeps | with_reducible apply State.leaveUp_keeps | with_reducible apply State.sendReplay_keeps | with_reducible apply State.sendNew_keeps | fail_if_no_progress with_reducible apply Keeps.upd | dsimp only | split)

theorem State.flitSlot_keeps {r : State} (s : State) (a1 : Nat) (h0 : Keeps r s) : Keeps r (State.flitSlot s a1) := by
  unfold State.flitSlot
  conv => zeta
  repeat' (first | with_reducible assumption | (intro _) | with_reducible apply State.sent_keeps | with_reducible apply State.modLink_keeps | with_reducible apply State.tryUp_keeps | with_reducible apply State.slotUp_keeps | fail_if_no_progress with_reducible apply Keeps.upd | dsimp only | split)

theorem State.statusTimer_keeps {r : State} (s : State) (a1 : Nat) (h0 : Keeps r s) : Keeps r (State.statusTimer s a1) := by
  unfold State.statusTimer
  conv => zeta
  repeat' (first | with_reducible assumption | (intro _) | with_reducible apply State.modLink_keeps | fail_if_no_progress with_reducible apply Keeps.upd | dsimp only | split)

theorem State.ackTimeout_keeps {r : State} (s : State) (a1 : Nat) (h0 : Keeps r s) : Keeps r (State.ackTimeout s a1) := by
  unfold State.ackTimeout
  conv => zeta
  repeat' (first | with_reducible assumption | (intro _) | with_reducible apply State.replayTrigger_keeps | with_reducible apply State.modLink_keeps | with_reducible apply State.count_keeps | fail_if_no_progress with_reducible apply Keeps.upd | dsimp only | split)

end Sys2Proof.Machine
end

