-- ==== Sys2Proof/Laws/KeepsLanes.lean ====
section
/-! SUPPORT. The operations of Machine/Lanes.lean keep what every operation inside a command keeps (`Keeps`). -/

namespace Sys2Proof.Machine

set_option linter.unusedTactic false
set_option linter.unreachableTactic false
set_option linter.unusedVariables false
set_option linter.unnecessarySeqFocus false

theorem State.setMap_keeps {r : State} (s : State) (a1 : Nat) (rx : Nat) (tx : Nat) (h0 : Keeps r s) : Keeps r (State.setMap s a1 rx tx) := by
  unfold State.setMap
  conv => zeta
  repeat' (first | with_reducible assumption | (intro _) | fail_if_no_progress with_reducible apply Keeps.upd | dsimp only | split)

theorem State.dropSwap_keeps {r : State} (s : State) (a1 : Nat) (h0 : Keeps r s) : Keeps r (State.dropSwap s a1) := by
  unfold State.dropSwap
  conv => zeta
  repeat' (first | with_reducible assumption | (intro _) | with_reducible apply State.abandonSwap_keeps | with_reducible apply State.endSwap_keeps | fail_if_no_progress with_reducible apply Keeps.upd | dsimp only | split)

theorem State.laneFailed_keeps {r : State} (s : State) (n : Nat) (hard : Bool) (force : Bool) (op : Option Nat) (h0 : Keeps r s) : Keeps r (State.laneFailed s n hard force op) := by
  unfold State.laneFailed
  conv => zeta
  repeat' (first | with_reducible assumption | (intro _) | with_reducible apply State.modLane_keeps | with_reducible apply State.dropSwap_keeps | with_reducible apply State.setMap_keeps | with_reducible apply State.pauseLink_keeps | with_reducible apply State.modSwap_keeps | with_reducible apply State.retrain_keeps | fail_if_no_progress with_reducible apply Keeps.upd | dsimp only | split)

theorem State.spareEvent_keeps {r : State} (s : State) (a1 : Nat) (dir : Nat) (pos : Nat) (kind : Nat) (map : Nat) (h0 : Keeps r s) : Keeps r (State.spareEvent s a1 dir pos kind map) := by
  unfold State.spareEvent
  conv => zeta
  repeat' (first | with_reducible assumption | (intro _) | with_reducible apply State.notify_keeps | with_reducible apply State.ash_keeps | fail_if_no_progress with_reducible apply Keeps.upd | dsimp only | split)

theorem State.resteer_keeps {r : State} (s : State) (a1 : Nat) (pos : Nat) (op : Option Nat) (h0 : Keeps r s) : Keeps r (State.resteer s a1 pos op) := by
  unfold State.resteer
  conv => zeta
  repeat' (first | with_reducible assumption | (intro _) | with_reducible apply State.eyeLost_keeps | with_reducible apply State.modSwap_keeps | with_reducible apply State.setMap_keeps | with_reducible apply State.resumeLink_keeps | with_reducible apply State.finish?_keeps | with_reducible apply State.spareEvent_keeps | fail_if_no_progress with_reducible apply Keeps.upd | dsimp only | split)

theorem State.acceptSwap_keeps {r : State} (s : State) (a1 : Nat) (pos : Nat) (h0 : Keeps r s) : Keeps r (State.acceptSwap s a1 pos) := by
  unfold State.acceptSwap
  conv => zeta
  repeat' (first | with_reducible assumption | (intro _) | with_reducible apply State.spareEvent_keeps | with_reducible apply State.modSwap_keeps | with_reducible apply State.setMap_keeps | fail_if_no_progress with_reducible apply Keeps.upd | dsimp only | split)

theorem State.sawRequest_keeps {r : State} (s : State) (a1 : Nat) (i : Nat) (ctrl : Nat) (h0 : Keeps r s) : Keeps r (State.sawRequest s a1 i ctrl) := by
  unfold State.sawRequest
  conv => zeta
  repeat' (first | with_reducible assumption | (intro _) | with_reducible apply State.modSwap_keeps | with_reducible apply State.acceptSwap_keeps | fail_if_no_progress with_reducible apply Keeps.upd | dsimp only | split)

theorem State.laneMarker_keeps {r : State} (s : State) (a1 : Nat) (i : Nat) (skew : Nat) (symbols : List Nat) (h0 : Keeps r s) : Keeps r (State.laneMarker s a1 i skew symbols) := by
  unfold State.laneMarker
  conv => zeta
  repeat' (first | with_reducible assumption | (intro _) | with_reducible apply State.modSwap_keeps | with_reducible apply State.sawRequest_keeps | with_reducible apply State.resteer_keeps | fail_if_no_progress with_reducible apply Keeps.upd | dsimp only | split)

theorem State.laneFail_keeps {r : State} (s : State) (n : Nat) (cv : Nat) (h0 : Keeps r s) : Keeps r (State.laneFail s n cv) := by
  unfold State.laneFail
  conv => zeta
  repeat' (first | with_reducible assumption | (intro _) | with_reducible apply State.laneFailed_keeps | fail_if_no_progress with_reducible apply Keeps.upd | dsimp only | split)

theorem State.laneRequalify_keeps {r : State} (s : State) (n : Nat) (h0 : Keeps r s) : Keeps r (State.laneRequalify s n) := by
  unfold State.laneRequalify
  conv => zeta
  repeat' (first | with_reducible assumption | (intro _) | with_reducible apply State.spareEvent_keeps | with_reducible apply State.setMap_keeps | fail_if_no_progress with_reducible apply Keeps.upd | dsimp only | split)

theorem State.losNotice_keeps {r : State} (s : State) (n : Nat) (flags : Nat) (h0 : Keeps r s) : Keeps r (State.losNotice s n flags) := by
  unfold State.losNotice
  conv => zeta
  repeat' (first | with_reducible assumption | (intro _) | with_reducible apply State.notify_keeps | fail_if_no_progress with_reducible apply Keeps.upd | dsimp only | split)

theorem State.losBoth_keeps {r : State} (s : State) (n : Nat) (h0 : Keeps r s) : Keeps r (State.losBoth s n) := by
  unfold State.losBoth
  conv => zeta
  repeat' (first | with_reducible assumption | (intro _) | with_reducible apply State.modCmd_keeps | with_reducible apply State.losNotice_keeps | fail_if_no_progress with_reducible apply Keeps.upd | dsimp only | split)

theorem State.lolDeclared_keeps {r : State} (s : State) (n : Nat) (h0 : Keeps r s) : Keeps r (State.lolDeclared s n) := by
  unfold State.lolDeclared
  conv => zeta
  repeat' (first | with_reducible assumption | (intro _) | with_reducible apply State.laneOut_keeps | with_reducible apply State.count_keeps | with_reducible apply State.latchFld_keeps | fail_if_no_progress with_reducible apply Keeps.upd | dsimp only | split)

theorem State.losNow_keeps {r : State} (s : State) (n : Nat) (h0 : Keeps r s) : Keeps r (State.losNow s n) := by
  unfold State.losNow
  conv => zeta
  repeat' (first | with_reducible assumption | (intro _) | with_reducible apply State.lolDeclared_keeps | with_reducible apply State.latchFld_keeps | with_reducible apply State.count_keeps | with_reducible apply State.laneFailed_keeps | with_reducible apply State.losBoth_keeps | with_reducible apply State.losNotice_keeps | fail_if_no_progress with_reducible apply Keeps.upd | dsimp only | split)

theorem State.losDeclared_keeps {r : State} (s : State) (n : Nat) (sd : Bool) (h0 : Keeps r s) : Keeps r (State.losDeclared s n sd) := by
  unfold State.losDeclared
  conv => zeta
  repeat' (first | with_reducible assumption | (intro _) | with_reducible apply State.modLane_keeps | with_reducible apply State.losNow_keeps | fail_if_no_progress with_reducible apply Keeps.upd | dsimp only | split)

theorem State.losCleared_keeps {r : State} (s : State) (n : Nat) (sd : Bool) (h0 : Keeps r s) : Keeps r (State.losCleared s n sd) := by
  unfold State.losCleared
  conv => zeta
  repeat' (first | with_reducible assumption | (intro _) | with_reducible apply State.modLane_keeps | with_reducible apply State.losNotice_keeps | with_reducible apply State.train_keeps | fail_if_no_progress with_reducible apply Keeps.upd | dsimp only | split)

theorem State.pllFollow_keeps {r : State} (s : State) (h0 : Keeps r s) : Keeps r (State.pllFollow s) := by
  unfold State.pllFollow
  conv => zeta
  repeat' (first | with_reducible assumption | (intro _) | fail_if_no_progress with_reducible apply Keeps.upd | dsimp only | split)

theorem State.lockNow_keeps {r : State} (s : State) (n : Nat) (h0 : Keeps r s) : Keeps r (State.lockNow s n) := by
  unfold State.lockNow
  conv => zeta
  repeat' (first | with_reducible assumption | (intro _) | with_reducible apply State.modLane_keeps | with_reducible apply State.draw_keeps | with_reducible apply State.draw_keeps_eq (e := by with_reducible assumption) | with_reducible apply State.pllFollow_keeps | with_reducible apply State.losNotice_keeps | fail_if_no_progress with_reducible apply Keeps.upd | dsimp only | split)

theorem State.adapt_keeps {r : State} (s : State) (n : Nat) (h0 : Keeps r s) : Keeps r (State.adapt s n) := by
  unfold State.adapt
  conv => zeta
  repeat' (first | with_reducible assumption | (intro _) | with_reducible apply State.draw_keeps | with_reducible apply State.draw_keeps_eq (e := by with_reducible assumption) | with_reducible apply State.modLane_keeps | fail_if_no_progress with_reducible apply Keeps.upd | dsimp only | split)

theorem State.lockWindow_keeps {r : State} (s : State) (n : Nat) (off : Int) (atLimit : Bool) (cv : Nat) (h0 : Keeps r s) : Keeps r (State.lockWindow s n off atLimit cv) := by
  unfold State.lockWindow
  conv => zeta
  repeat' (first | with_reducible assumption | (intro _) | with_reducible apply State.countN_keeps | with_reducible apply State.modLane_keeps | with_reducible apply State.laneFailed_keeps | with_reducible apply State.losNotice_keeps | with_reducible apply State.lolDeclared_keeps | with_reducible apply State.adapt_keeps | with_reducible apply State.lockNow_keeps | fail_if_no_progress with_reducible apply Keeps.upd | dsimp only | split)

theorem State.pllUnlock_keeps {r : State} (s : State) (map : Nat) (h0 : Keeps r s) : Keeps r (State.pllUnlock s map) := by
  unfold State.pllUnlock
  conv => zeta
  repeat' (first | with_reducible assumption | (intro _) | with_reducible apply State.lolDeclared_keeps | with_reducible apply State.laneFailed_keeps | with_reducible apply State.losNotice_keeps | with_reducible apply State.ash_keeps | with_reducible apply State.pllFollow_keeps | fail_if_no_progress with_reducible apply Keeps.upd | with_reducible apply Keeps.foldl | with_reducible apply Keeps.foldl_fst | with_reducible apply Keeps.foldl_snd | dsimp only | split)

theorem State.rogue_keeps {r : State} (s : State) (n : Nat) (cause : Nat) (h0 : Keeps r s) : Keeps r (State.rogue s n cause) := by
  unfold State.rogue
  conv => zeta
  repeat' (first | with_reducible assumption | (intro _) | with_reducible apply State.modLane_keeps | with_reducible apply State.notify_keeps | with_reducible apply State.ash_keeps | with_reducible apply State.count_keeps | with_reducible apply State.setFld_keeps | fail_if_no_progress with_reducible apply Keeps.upd | dsimp only | split)

theorem State.eyePeriodic_keeps {r : State} (s : State) (h0 : Keeps r s) : Keeps r (State.eyePeriodic s) := by
  unfold State.eyePeriodic
  conv => zeta
  repeat' (first | with_reducible assumption | (intro _) | with_reducible apply State.modLane_keeps | fail_if_no_progress with_reducible apply Keeps.upd | with_reducible apply Keeps.foldl | with_reducible apply Keeps.foldl_fst | with_reducible apply Keeps.foldl_snd | dsimp only | split)

theorem State.eyeDone_keeps {r : State} (s : State) (n : Nat) (phase volt : List Nat) (point : Nat) (h0 : Keeps r s) : Keeps r (State.eyeDone s n phase volt point) := by
  unfold State.eyeDone
  conv => zeta
  repeat' (first | with_reducible assumption | (intro _) | with_reducible apply State.modLane_keeps | with_reducible apply State.finish_keeps | with_reducible apply State.notify_keeps | with_reducible apply State.laneFailed_keeps | fail_if_no_progress with_reducible apply Keeps.upd | dsimp only | split)

theorem State.wakeLane_keeps {r : State} (s : State) (n : Nat) (h0 : Keeps r s) : Keeps r (State.wakeLane s n) := by
  unfold State.wakeLane
  conv => zeta
  repeat' (first | with_reducible assumption | (intro _) | with_reducible apply State.modLane_keeps | with_reducible apply State.losNow_keeps | fail_if_no_progress with_reducible apply Keeps.upd | dsimp only | split)

theorem State.startLane_keeps {r : State} (s : State) (n : Nat) (h0 : Keeps r s) : Keeps r (State.startLane s n) := by
  unfold State.startLane
  conv => zeta
  repeat' (first | with_reducible assumption | (intro _) | with_reducible apply State.wakeLane_keeps | with_reducible apply State.setFld_keeps | fail_if_no_progress with_reducible apply Keeps.upd | dsimp only | split)

theorem State.lanesStart_keeps {r : State} (s : State) (h0 : Keeps r s) : Keeps r (State.lanesStart s) := by
  unfold State.lanesStart
  conv => zeta
  repeat' (first | with_reducible assumption | (intro _) | with_reducible apply State.startLane_keeps | with_reducible apply State.straitStart_keeps | fail_if_no_progress with_reducible apply Keeps.upd | with_reducible apply Keeps.foldl | with_reducible apply Keeps.foldl_fst | with_reducible apply Keeps.foldl_snd | dsimp only | split)

theorem State.lanesSleep_keeps {r : State} (s : State) (h0 : Keeps r s) : Keeps r (State.lanesSleep s) := by
  unfold State.lanesSleep
  conv => zeta
  repeat' (first | with_reducible assumption | (intro _) | with_reducible apply State.laneOut_keeps | fail_if_no_progress with_reducible apply Keeps.upd | with_reducible apply Keeps.foldl | with_reducible apply Keeps.foldl_fst | with_reducible apply Keeps.foldl_snd | dsimp only | split)

theorem State.lanesReturn_keeps {r : State} (s : State) (h0 : Keeps r s) : Keeps r (State.lanesReturn s) := by
  unfold State.lanesReturn
  conv => zeta
  repeat' (first | with_reducible assumption | (intro _) | with_reducible apply State.wakeLane_keeps | fail_if_no_progress with_reducible apply Keeps.upd | with_reducible apply Keeps.foldl | with_reducible apply Keeps.foldl_fst | with_reducible apply Keeps.foldl_snd | dsimp only | split)

theorem State.trainingDone_keeps {r : State} (s : State) (a1 : Nat) (h0 : Keeps r s) : Keeps r (State.trainingDone s a1) := by
  unfold State.trainingDone
  conv => zeta
  repeat' (first | with_reducible assumption | (intro _) | with_reducible apply State.draw_keeps | with_reducible apply State.draw_keeps_eq (e := by with_reducible assumption) | with_reducible apply State.modLane_keeps | with_reducible apply State.setLink_keeps | fail_if_no_progress with_reducible apply Keeps.upd | with_reducible apply Keeps.foldl | with_reducible apply Keeps.foldl_fst | with_reducible apply Keeps.foldl_snd | dsimp only | split)

theorem State.trainingTimeout_keeps {r : State} (s : State) (a1 : Nat) (h0 : Keeps r s) : Keeps r (State.trainingTimeout s a1) := by
  unfold State.trainingTimeout
  conv => zeta
  repeat' (first | with_reducible assumption | (intro _) | with_reducible apply State.linkDown_keeps | fail_if_no_progress with_reducible apply Keeps.upd | dsimp only | split)

theorem State.downRetry_keeps {r : State} (s : State) (a1 : Nat) (h0 : Keeps r s) : Keeps r (State.downRetry s a1) := by
  unfold State.downRetry
  conv => zeta
  repeat' (first | with_reducible assumption | (intro _) | with_reducible apply State.train_keeps | fail_if_no_progress with_reducible apply Keeps.upd | dsimp only | split)

theorem State.sleepWake_keeps {r : State} (s : State) (a1 : Nat) (partner : Bool) (h0 : Keeps r s) : Keeps r (State.sleepWake s a1 partner) := by
  unfold State.sleepWake
  conv => zeta
  repeat' (first | with_reducible assumption | (intro _) | with_reducible apply State.wake_keeps | with_reducible apply State.train_keeps | fail_if_no_progress with_reducible apply Keeps.upd | dsimp only | split)

theorem opLnReport_keeps {r : State} (op : Nat) (p : List Byte) (s : State) (h0 : Keeps r s) : Keeps r (opLnReport op p s) := by
  unfold opLnReport
  conv => zeta
  repeat' (first | with_reducible assumption | (intro _) | with_reducible apply State.finish_keeps | fail_if_no_progress with_reducible apply Keeps.upd | dsimp only | split)

theorem opLnEye_keeps {r : State} (op : Nat) (p : List Byte) (s : State) (h0 : Keeps r s) : Keeps r (opLnEye op p s) := by
  unfold opLnEye
  conv => zeta
  repeat' (first | with_reducible assumption | (intro _) | with_reducible apply State.finish_keeps | with_reducible apply State.modLane_keeps | fail_if_no_progress with_reducible apply Keeps.upd | dsimp only | split)

theorem opLnTxRelease_keeps {r : State} (op : Nat) (p : List Byte) (s : State) (h0 : Keeps r s) : Keeps r (opLnTxRelease op p s) := by
  unfold opLnTxRelease
  conv => zeta
  repeat' (first | with_reducible assumption | (intro _) | with_reducible apply State.finish_keeps | with_reducible apply State.setFld_keeps | fail_if_no_progress with_reducible apply Keeps.upd | dsimp only | split)

theorem opLnSpareForce_keeps {r : State} (op : Nat) (p : List Byte) (s : State) (h0 : Keeps r s) : Keeps r (opLnSpareForce op p s) := by
  unfold opLnSpareForce
  conv => zeta
  repeat' (first | with_reducible assumption | (intro _) | with_reducible apply State.finish_keeps | with_reducible apply State.laneFailed_keeps | fail_if_no_progress with_reducible apply Keeps.upd | dsimp only | split)

theorem opStStatus_keeps {r : State} (op : Nat) (p : List Byte) (s : State) (h0 : Keeps r s) : Keeps r (opStStatus op p s) := by
  unfold opStStatus
  conv => zeta
  repeat' (first | with_reducible assumption | (intro _) | with_reducible apply State.finish_keeps | fail_if_no_progress with_reducible apply Keeps.upd | dsimp only | split)

theorem opStRetrain_keeps {r : State} (op : Nat) (p : List Byte) (s : State) (h0 : Keeps r s) : Keeps r (opStRetrain op p s) := by
  unfold opStRetrain
  conv => zeta
  repeat' (first | with_reducible assumption | (intro _) | with_reducible apply State.finish_keeps | with_reducible apply State.modLink_keeps | with_reducible apply State.retrain_keeps | fail_if_no_progress with_reducible apply Keeps.upd | dsimp only | split)

end Sys2Proof.Machine
end

