-- ==== Sys2Proof/Laws/KeepsCipher.lean ====
section
/-! SUPPORT. The operations of Machine/Cipher.lean keep what every operation inside a command keeps (`Keeps`). -/

namespace Sys2Proof.Machine

set_option linter.unusedTactic false
set_option linter.unreachableTactic false
set_option linter.unusedVariables false
set_option linter.unnecessarySeqFocus false

theorem State.modCy_keeps {r : State} (s : State) (f : Cipher → Cipher) (h0 : Keeps r s) : Keeps r (State.modCy s f) := by
  unfold State.modCy
  conv => zeta
  repeat' (first | with_reducible assumption | (intro _) | fail_if_no_progress with_reducible apply Keeps.upd | dsimp only | split)

theorem State.modKey_keeps {r : State} (s : State) (a1 : Nat) (f : KeySlot → KeySlot) (h0 : Keeps r s) : Keeps r (State.modKey s a1 f) := by
  unfold State.modKey
  conv => zeta
  repeat' (first | with_reducible assumption | (intro _) | fail_if_no_progress with_reducible apply Keeps.upd | dsimp only | split)

theorem State.commitKey_keeps {r : State} (s : State) (u : KeyUpdate) (h0 : Keeps r s) : Keeps r (State.commitKey s u) := by
  unfold State.commitKey
  conv => zeta
  repeat' (first | with_reducible assumption | (intro _) | with_reducible apply State.modKey_keeps | fail_if_no_progress with_reducible apply Keeps.upd | dsimp only | split)

theorem State.completeUpdate_keeps {r : State} (s : State) (h0 : Keeps r s) : Keeps r (State.completeUpdate s) := by
  unfold State.completeUpdate
  conv => zeta
  repeat' (first | with_reducible assumption | (intro _) | with_reducible apply State.commitKey_keeps | fail_if_no_progress with_reducible apply Keeps.upd | dsimp only | split)

theorem State.cyStart_keeps {r : State} (s : State) (h0 : Keeps r s) : Keeps r (State.cyStart s) := by
  unfold State.cyStart
  conv => zeta
  repeat' (first | with_reducible assumption | (intro _) | with_reducible apply State.modCy_keeps | fail_if_no_progress with_reducible apply Keeps.upd | dsimp only | split)

theorem State.submit_keeps {r : State} (s : State) (v_r : CyReq) (h0 : Keeps r s) : Keeps r (State.submit s v_r).1 := by
  unfold State.submit
  conv => zeta
  repeat' (first | with_reducible assumption | (intro _) | with_reducible apply State.count_keeps | with_reducible apply State.modCy_keeps | fail_if_no_progress with_reducible apply Keeps.upd | dsimp only | split)

theorem State.submit_keeps_eq {r : State} (s : State) (v_r : CyReq) {xx tt} (e : State.submit s v_r = (tt, xx)) (h0 : Keeps r s) : Keeps r tt := by
  have q := State.submit_keeps (r := r) s v_r h0
  rw [e] at q
  exact q

theorem State.takeCounter_keeps {r : State} (s : State) (a1 : Nat) (h0 : Keeps r s) : Keeps r (State.takeCounter s a1).1 := by
  unfold State.takeCounter
  conv => zeta
  repeat' (first | with_reducible assumption | (intro _) | with_reducible apply State.modCy_keeps | with_reducible apply State.notify_keeps | with_reducible apply State.modKey_keeps | fail_if_no_progress with_reducible apply Keeps.upd | dsimp only | split)

theorem State.takeCounter_keeps_eq {r : State} (s : State) (a1 : Nat) {xx tt} (e : State.takeCounter s a1 = (tt, xx)) (h0 : Keeps r s) : Keeps r tt := by
  have q := State.takeCounter_keeps (r := r) s a1 h0
  rw [e] at q
  exact q

theorem State.startEncrypt_keeps {r : State} (s : State) (v_r : CyReq) (h0 : Keeps r s) : Keeps r (State.startEncrypt s v_r).1 := by
  unfold State.startEncrypt
  conv => zeta
  repeat' (first | with_reducible assumption | (intro _) | with_reducible apply State.takeCounter_keeps | with_reducible apply State.takeCounter_keeps_eq (e := by with_reducible assumption) | fail_if_no_progress with_reducible apply Keeps.upd | dsimp only | split)

theorem State.startEncrypt_keeps_eq {r : State} (s : State) (v_r : CyReq) {xx tt} (e : State.startEncrypt s v_r = (tt, xx)) (h0 : Keeps r s) : Keeps r tt := by
  have q := State.startEncrypt_keeps (r := r) s v_r h0
  rw [e] at q
  exact q

theorem State.modStream_keeps {r : State} (s : State) (id : Nat) (f : CyStream → CyStream) (h0 : Keeps r s) : Keeps r (State.modStream s id f) := by
  unfold State.modStream
  conv => zeta
  repeat' (first | with_reducible assumption | (intro _) | with_reducible apply State.modCy_keeps | fail_if_no_progress with_reducible apply Keeps.upd | dsimp only | split)

theorem State.chooseKey_keeps {r : State} (s : State) (st : CyStream) (raw : List Byte) (h0 : Keeps r s) : Keeps r (State.chooseKey s st raw) := by
  unfold State.chooseKey
  conv => zeta
  repeat' (first | with_reducible assumption | (intro _) | with_reducible apply State.count_keeps | with_reducible apply State.modStream_keeps | fail_if_no_progress with_reducible apply Keeps.upd | dsimp only | split)

theorem State.startDown_keeps {r : State} (s : State) (v_r : CyReq) (id : Nat) (h0 : Keeps r s) : Keeps r (State.startDown s v_r id) := by
  unfold State.startDown
  conv => zeta
  repeat' (first | with_reducible assumption | (intro _) | with_reducible apply State.chooseKey_keeps | fail_if_no_progress with_reducible apply Keeps.upd | dsimp only | split)

theorem State.cipherStart_keeps {r : State} (s : State) (pipe : Nat) (h0 : Keeps r s) : Keeps r (State.cipherStart s pipe) := by
  unfold State.cipherStart
  conv => zeta
  repeat' (first | with_reducible assumption | (intro _) | with_reducible apply State.modCy_keeps | with_reducible apply State.startEncrypt_keeps | with_reducible apply State.startEncrypt_keeps_eq (e := by with_reducible assumption) | with_reducible apply State.startDown_keeps | fail_if_no_progress with_reducible apply Keeps.upd | dsimp only | split)

theorem State.endDown_keeps {r : State} (s : State) (v_r : CyReq) (id : Nat) (h0 : Keeps r s) : Keeps r (State.endDown s v_r id).1 := by
  unfold State.endDown
  conv => zeta
  repeat' (first | with_reducible assumption | (intro _) | with_reducible apply State.modStream_keeps | with_reducible apply State.count_keeps | with_reducible apply State.modCy_keeps | fail_if_no_progress with_reducible apply Keeps.upd | dsimp only | split)

theorem State.endDown_keeps_eq {r : State} (s : State) (v_r : CyReq) (id : Nat) {xx tt} (e : State.endDown s v_r id = (tt, xx)) (h0 : Keeps r s) : Keeps r tt := by
  have q := State.endDown_keeps (r := r) s v_r id h0
  rw [e] at q
  exact q

theorem State.endRequest_keeps {r : State} (s : State) (v_r : CyReq) (h0 : Keeps r s) : Keeps r (State.endRequest s v_r).1 := by
  unfold State.endRequest
  conv => zeta
  repeat' (first | with_reducible assumption | (intro _) | with_reducible apply State.endDown_keeps | with_reducible apply State.endDown_keeps_eq (e := by with_reducible assumption) | fail_if_no_progress with_reducible apply Keeps.upd | dsimp only | split)

theorem State.endRequest_keeps_eq {r : State} (s : State) (v_r : CyReq) {xx tt} (e : State.endRequest s v_r = (tt, xx)) (h0 : Keeps r s) : Keeps r tt := by
  have q := State.endRequest_keeps (r := r) s v_r h0
  rw [e] at q
  exact q

theorem State.cipherEnd_keeps {r : State} (s : State) (pipe : Nat) (h0 : Keeps r s) : Keeps r (State.cipherEnd s pipe).1 := by
  unfold State.cipherEnd
  conv => zeta
  repeat' (first | with_reducible assumption | (intro _) | with_reducible apply State.endRequest_keeps | with_reducible apply State.endRequest_keeps_eq (e := by with_reducible assumption) | with_reducible apply State.modCy_keeps | fail_if_no_progress with_reducible apply Keeps.upd | dsimp only | split)

theorem State.cipherEnd_keeps_eq {r : State} (s : State) (pipe : Nat) {xx tt} (e : State.cipherEnd s pipe = (tt, xx)) (h0 : Keeps r s) : Keeps r tt := by
  have q := State.cipherEnd_keeps (r := r) s pipe h0
  rw [e] at q
  exact q

theorem State.failRequests_keeps {r : State} (s : State) (l : List CyReq) (status : Nat) (h0 : Keeps r s) : Keeps r (State.failRequests s l status).1 := by
  unfold State.failRequests
  conv => zeta
  repeat' (first | with_reducible assumption | (intro _) | with_reducible apply State.modStream_keeps | with_reducible apply State.modCy_keeps | fail_if_no_progress with_reducible apply Keeps.upd | with_reducible apply Keeps.foldl | with_reducible apply Keeps.foldl_fst | with_reducible apply Keeps.foldl_snd | dsimp only | split)

theorem State.failRequests_keeps_eq {r : State} (s : State) (l : List CyReq) (status : Nat) {xx tt} (e : State.failRequests s l status = (tt, xx)) (h0 : Keeps r s) : Keeps r tt := by
  have q := State.failRequests_keeps (r := r) s l status h0
  rw [e] at q
  exact q

theorem State.cqDisabled_keeps {r : State} (s : State) (q : Nat) (h0 : Keeps r s) : Keeps r (State.cqDisabled s q).1 := by
  unfold State.cqDisabled
  conv => zeta
  repeat' (first | with_reducible assumption | (intro _) | with_reducible apply State.failRequests_keeps | with_reducible apply State.failRequests_keeps_eq (e := by with_reducible assumption) | with_reducible apply State.countN_keeps | with_reducible apply State.modCy_keeps | fail_if_no_progress with_reducible apply Keeps.upd | dsimp only | split)

theorem State.cqDisabled_keeps_eq {r : State} (s : State) (q : Nat) {xx tt} (e : State.cqDisabled s q = (tt, xx)) (h0 : Keeps r s) : Keeps r tt := by
  have q := State.cqDisabled_keeps (r := r) s q h0
  rw [e] at q
  exact q

theorem State.abandonStream_keeps {r : State} (s : State) (id : Nat) (h0 : Keeps r s) : Keeps r (State.abandonStream s id) := by
  unfold State.abandonStream
  conv => zeta
  repeat' (first | with_reducible assumption | (intro _) | with_reducible apply State.modStream_keeps | with_reducible apply State.modCy_keeps | fail_if_no_progress with_reducible apply Keeps.upd | dsimp only | split)

theorem State.proceedUpdate_keeps {r : State} (s : State) (h0 : Keeps r s) : Keeps r (State.proceedUpdate s) := by
  unfold State.proceedUpdate
  conv => zeta
  repeat' (first | with_reducible assumption | (intro _) | with_reducible apply State.modCy_keeps | with_reducible apply State.commitKey_keeps | with_reducible apply State.finish_keeps | with_reducible apply State.notify_keeps | fail_if_no_progress with_reducible apply Keeps.upd | dsimp only | split)

theorem State.beginUpdate_keeps {r : State} (s : State) (u : KeyUpdate) (h0 : Keeps r s) : Keeps r (State.beginUpdate s u) := by
  unfold State.beginUpdate
  conv => zeta
  repeat' (first | with_reducible assumption | (intro _) | with_reducible apply State.proceedUpdate_keeps | with_reducible apply State.modCy_keeps | with_reducible apply State.modKey_keeps | fail_if_no_progress with_reducible apply Keeps.upd | dsimp only | split)

theorem State.bankWaitOver_keeps {r : State} (s : State) (h0 : Keeps r s) : Keeps r (State.bankWaitOver s) := by
  unfold State.bankWaitOver
  conv => zeta
  repeat' (first | with_reducible assumption | (intro _) | with_reducible apply State.proceedUpdate_keeps | with_reducible apply State.modStream_keeps | fail_if_no_progress with_reducible apply Keeps.upd | with_reducible apply Keeps.foldl | with_reducible apply Keeps.foldl_fst | with_reducible apply Keeps.foldl_snd | dsimp only | split)

theorem State.eraseKey_keeps {r : State} (s : State) (a1 : Nat) (h0 : Keeps r s) : Keeps r (State.eraseKey s a1) := by
  unfold State.eraseKey
  conv => zeta
  repeat' (first | with_reducible assumption | (intro _) | with_reducible apply State.modKey_keeps | fail_if_no_progress with_reducible apply Keeps.upd | dsimp only | split)

theorem State.reseed_keeps {r : State} (s : State) (i : Nat) (h0 : Keeps r s) : Keeps r (State.reseed s i) := by
  unfold State.reseed
  conv => zeta
  repeat' (first | with_reducible assumption | (intro _) | with_reducible apply State.count_keeps | with_reducible apply State.modCy_keeps | fail_if_no_progress with_reducible apply Keeps.upd | dsimp only | split)

theorem State.drbgReseed_keeps {r : State} (s : State) (i : Nat) (h0 : Keeps r s) : Keeps r (State.drbgReseed s i) := by
  unfold State.drbgReseed
  conv => zeta
  repeat' (first | with_reducible assumption | (intro _) | with_reducible apply State.modCy_keeps | with_reducible apply State.reseed_keeps | fail_if_no_progress with_reducible apply Keeps.upd | dsimp only | split)

theorem State.rngHealthFail_keeps {r : State} (s : State) (test : Nat) (h0 : Keeps r s) : Keeps r (State.rngHealthFail s test) := by
  unfold State.rngHealthFail
  conv => zeta
  repeat' (first | with_reducible assumption | (intro _) | with_reducible apply State.count_keeps | with_reducible apply State.modCy_keeps | with_reducible apply State.notify_keeps | with_reducible apply State.ash_keeps | fail_if_no_progress with_reducible apply Keeps.upd | dsimp only | split)

theorem State.rngRestart_keeps {r : State} (s : State) (h0 : Keeps r s) : Keeps r (State.rngRestart s) := by
  unfold State.rngRestart
  conv => zeta
  repeat' (first | with_reducible assumption | (intro _) | with_reducible apply State.modCy_keeps | fail_if_no_progress with_reducible apply Keeps.upd | dsimp only | split)

theorem State.rngPassed_keeps {r : State} (s : State) (h0 : Keeps r s) : Keeps r (State.rngPassed s) := by
  unfold State.rngPassed
  conv => zeta
  repeat' (first | with_reducible assumption | (intro _) | with_reducible apply State.modCy_keeps | with_reducible apply State.reseed_keeps | fail_if_no_progress with_reducible apply Keeps.upd | with_reducible apply Keeps.foldl | with_reducible apply Keeps.foldl_fst | with_reducible apply Keeps.foldl_snd | dsimp only | split)

theorem State.cyReturn_keeps {r : State} (s : State) (h0 : Keeps r s) : Keeps r (State.cyReturn s) := by
  unfold State.cyReturn
  conv => zeta
  repeat' (first | with_reducible assumption | (intro _) | with_reducible apply State.modCy_keeps | fail_if_no_progress with_reducible apply Keeps.upd | dsimp only | split)

end Sys2Proof.Machine
end

