-- ==== Sys2Proof/Laws/KeepsMembership.lean ====
section
/-! SUPPORT. The operations of Machine/Membership.lean keep what every operation inside a command keeps (`Keeps`). -/

namespace Sys2Proof.Machine

set_option linter.unusedTactic false
set_option linter.unreachableTactic false
set_option linter.unusedVariables false
set_option linter.unnecessarySeqFocus false

theorem State.modTm_keeps {r : State} (s : State) (f : Membership → Membership) (h0 : Keeps r s) : Keeps r (State.modTm s f) := by
  unfold State.modTm
  conv => zeta
  repeat' (first | with_reducible assumption | (intro _) | fail_if_no_progress with_reducible apply Keeps.upd | dsimp only | split)

theorem State.modTd_keeps {r : State} (s : State) (f : TreeDown → TreeDown) (h0 : Keeps r s) : Keeps r (State.modTd s f) := by
  unfold State.modTd
  conv => zeta
  repeat' (first | with_reducible assumption | (intro _) | fail_if_no_progress with_reducible apply Keeps.upd | dsimp only | split)

theorem State.dropReasm_keeps {r : State} (s : State) (v_r : Reasm) (skip : Bool) (h0 : Keeps r s) : Keeps r (State.dropReasm s v_r skip) := by
  unfold State.dropReasm
  conv => zeta
  repeat' (first | with_reducible assumption | (intro _) | with_reducible apply State.abandonStream_keeps | with_reducible apply State.modTd_keeps | fail_if_no_progress with_reducible apply Keeps.upd | dsimp only | split)

theorem State.tdPortWritten_keeps {r : State} (s : State) (n : Nat) (old : Nat) (h0 : Keeps r s) : Keeps r (State.tdPortWritten s n old) := by
  unfold State.tdPortWritten
  conv => zeta
  repeat' (first | with_reducible assumption | (intro _) | with_reducible apply State.count_keeps | with_reducible apply State.dropReasm_keeps | fail_if_no_progress with_reducible apply Keeps.upd | dsimp only | split)

theorem State.saveTree_keeps {r : State} (s : State) (h0 : Keeps r s) : Keeps r (State.saveTree s) := by
  unfold State.saveTree
  conv => zeta
  repeat' (first | with_reducible assumption | (intro _) | with_reducible apply State.modTm_keeps | with_reducible apply State.sendMsg_keeps | fail_if_no_progress with_reducible apply Keeps.upd | with_reducible apply Keeps.foldl | with_reducible apply Keeps.foldl_fst | with_reducible apply Keeps.foldl_snd | dsimp only | split)

theorem State.loadTree_keeps {r : State} (s : State) (h0 : Keeps r s) : Keeps r (State.loadTree s) := by
  unfold State.loadTree
  conv => zeta
  repeat' (first | with_reducible assumption | (intro _) | with_reducible apply State.modTm_keeps | fail_if_no_progress with_reducible apply Keeps.upd | dsimp only | split)

theorem State.pushTerm_keeps {r : State} (s : State) (h0 : Keeps r s) : Keeps r (State.pushTerm s) := by
  unfold State.pushTerm
  conv => zeta
  repeat' (first | with_reducible assumption | (intro _) | with_reducible apply State.sendMsg_keeps | fail_if_no_progress with_reducible apply Keeps.upd | with_reducible apply Keeps.foldl | with_reducible apply Keeps.foldl_fst | with_reducible apply Keeps.foldl_snd | dsimp only | split)

theorem State.invalidateRecord_keeps {r : State} (s : State) (h0 : Keeps r s) : Keeps r (State.invalidateRecord s) := by
  unfold State.invalidateRecord
  conv => zeta
  repeat' (first | with_reducible assumption | (intro _) | with_reducible apply State.pushTerm_keeps | with_reducible apply State.saveTree_keeps | with_reducible apply State.modTm_keeps | fail_if_no_progress with_reducible apply Keeps.upd | dsimp only | split)

theorem State.drawBelow_keeps {r : State} (s : State) (n : Nat) (h0 : Keeps r s) : Keeps r (State.drawBelow s n).2 := by
  unfold State.drawBelow
  conv => zeta
  repeat' (first | with_reducible assumption | (intro _) | with_reducible apply State.draw_keeps | with_reducible apply State.draw_keeps_eq (e := by with_reducible assumption) | fail_if_no_progress with_reducible apply Keeps.upd | dsimp only | split)

theorem State.drawBelow_keeps_eq {r : State} (s : State) (n : Nat) {xx tt} (e : State.drawBelow s n = (xx, tt)) (h0 : Keeps r s) : Keeps r tt := by
  have q := State.drawBelow_keeps (r := r) s n h0
  rw [e] at q
  exact q

theorem State.setTm_keeps {r : State} (s : State) (st : TmState) (h0 : Keeps r s) : Keeps r (State.setTm s st) := by
  unfold State.setTm
  conv => zeta
  repeat' (first | with_reducible assumption | (intro _) | with_reducible apply State.modTm_keeps | with_reducible apply State.drawBelow_keeps | with_reducible apply State.drawBelow_keeps_eq (e := by with_reducible assumption) | with_reducible apply State.notify_keeps | fail_if_no_progress with_reducible apply Keeps.upd | dsimp only | split)

theorem State.evalProfile_keeps {r : State} (s : State) (p : Profile) (h0 : Keeps r s) : Keeps r (State.evalProfile s p) := by
  unfold State.evalProfile
  conv => zeta
  repeat' (first | with_reducible assumption | (intro _) | with_reducible apply State.count_keeps | with_reducible apply State.setTm_keeps | with_reducible apply State.modTm_keeps | fail_if_no_progress with_reducible apply Keeps.upd | with_reducible apply Keeps.getD | dsimp only | split)

theorem State.enterListen_keeps {r : State} (s : State) (h0 : Keeps r s) : Keeps r (State.enterListen s) := by
  unfold State.enterListen
  conv => zeta
  repeat' (first | with_reducible assumption | (intro _) | with_reducible apply State.setTm_keeps | with_reducible apply State.evalProfile_keeps | fail_if_no_progress with_reducible apply Keeps.upd | dsimp only | split)

theorem State.warmOut_keeps {r : State} (s : State) (next : State) (h0 : Keeps r s) (h1 : Keeps r next) : Keeps r (State.warmOut s next) := by
  unfold State.warmOut
  conv => zeta
  repeat' (first | with_reducible assumption | (intro _) | with_reducible apply State.modTm_keeps | fail_if_no_progress with_reducible apply Keeps.upd | dsimp only | split)

theorem State.step8Fail_keeps {r : State} (s : State) (h0 : Keeps r s) : Keeps r (State.step8Fail s) := by
  unfold State.step8Fail
  conv => zeta
  repeat' (first | with_reducible assumption | (intro _) | with_reducible apply State.stepFail_keeps | fail_if_no_progress with_reducible apply Keeps.upd | dsimp only | split)

theorem State.step8End_keeps {r : State} (s : State) (warm : Bool) (h0 : Keeps r s) : Keeps r (State.step8End s warm) := by
  unfold State.step8End
  conv => zeta
  repeat' (first | with_reducible assumption | (intro _) | with_reducible apply State.stepEnd_keeps | with_reducible apply State.modBoot_keeps | fail_if_no_progress with_reducible apply Keeps.upd | dsimp only | split)

theorem State.enterOperation_keeps {r : State} (s : State) (h0 : Keeps r s) : Keeps r (State.enterOperation s) := by
  unfold State.enterOperation
  conv => zeta
  repeat' (first | with_reducible assumption | (intro _) | with_reducible apply State.modTm_keeps | with_reducible apply State.saveTree_keeps | with_reducible apply State.setTm_keeps | fail_if_no_progress with_reducible apply Keeps.upd | dsimp only | split)

theorem State.tmLost_keeps {r : State} (s : State) (h0 : Keeps r s) : Keeps r (State.tmLost s) := by
  unfold State.tmLost
  conv => zeta
  repeat' (first | with_reducible assumption | (intro _) | with_reducible apply State.modTm_keeps | with_reducible apply State.setTm_keeps | fail_if_no_progress with_reducible apply Keeps.upd | dsimp only | split)

theorem State.tmRestored_keeps {r : State} (s : State) (h0 : Keeps r s) : Keeps r (State.tmRestored s) := by
  unfold State.tmRestored
  conv => zeta
  repeat' (first | with_reducible assumption | (intro _) | with_reducible apply State.enterListen_keeps | with_reducible apply State.setTm_keeps | fail_if_no_progress with_reducible apply Keeps.upd | dsimp only | split)

theorem State.tmVersion_keeps {r : State} (s : State) (old : Nat) (new : Nat) (h0 : Keeps r s) : Keeps r (State.tmVersion s old new) := by
  unfold State.tmVersion
  conv => zeta
  repeat' (first | with_reducible assumption | (intro _) | with_reducible apply State.notify_keeps | with_reducible apply State.saveTree_keeps | with_reducible apply State.modTm_keeps | with_reducible apply State.enterListen_keeps | fail_if_no_progress with_reducible apply Keeps.upd | dsimp only | split)

theorem State.tmUnknown_keeps {r : State} (s : State) (h0 : Keeps r s) : Keeps r (State.tmUnknown s) := by
  unfold State.tmUnknown
  conv => zeta
  repeat' (first | with_reducible assumption | (intro _) | with_reducible apply State.count_keeps | fail_if_no_progress with_reducible apply Keeps.upd | dsimp only | split)

theorem State.treeProfile_keeps {r : State} (s : State) (m : List Byte) (h0 : Keeps r s) : Keeps r (State.treeProfile s m) := by
  unfold State.treeProfile
  conv => zeta
  repeat' (first | with_reducible assumption | (intro _) | with_reducible apply State.modTm_keeps | with_reducible apply State.evalProfile_keeps | with_reducible apply State.saveTree_keeps | fail_if_no_progress with_reducible apply Keeps.upd | dsimp only | split)

theorem State.identAssign_keeps {r : State} (s : State) (m : List Byte) (h0 : Keeps r s) : Keeps r (State.identAssign s m) := by
  unfold State.identAssign
  conv => zeta
  repeat' (first | with_reducible assumption | (intro _) | with_reducible apply State.modTm_keeps | with_reducible apply State.pushTerm_keeps | with_reducible apply State.saveTree_keeps | with_reducible apply State.notify_keeps | with_reducible apply State.setTm_keeps | fail_if_no_progress with_reducible apply Keeps.upd | dsimp only | split)

theorem State.rangingResult_keeps {r : State} (s : State) (m : List Byte) (h0 : Keeps r s) : Keeps r (State.rangingResult s m) := by
  unfold State.rangingResult
  conv => zeta
  repeat' (first | with_reducible assumption | (intro _) | with_reducible apply State.step8End_keeps | with_reducible apply State.enterOperation_keeps | with_reducible apply State.count_keeps | with_reducible apply State.modTm_keeps | fail_if_no_progress with_reducible apply Keeps.upd | dsimp only | split)

theorem State.warmAck_keeps {r : State} (s : State) (m : List Byte) (h0 : Keeps r s) : Keeps r (State.warmAck s m) := by
  unfold State.warmAck
  conv => zeta
  repeat' (first | with_reducible assumption | (intro _) | with_reducible apply State.step8End_keeps | with_reducible apply State.enterOperation_keeps | with_reducible apply State.count_keeps | with_reducible apply State.modTm_keeps | with_reducible apply State.warmOut_keeps | with_reducible apply State.saveTree_keeps | with_reducible apply State.setTm_keeps | with_reducible apply State.invalidateRecord_keeps | fail_if_no_progress with_reducible apply Keeps.upd | dsimp only | split)

theorem State.allocAssign_keeps {r : State} (s : State) (m : List Byte) (h0 : Keeps r s) : Keeps r (State.allocAssign s m) := by
  unfold State.allocAssign
  conv => zeta
  repeat' (first | with_reducible assumption | (intro _) | with_reducible apply State.pushTerm_keeps | with_reducible apply State.saveTree_keeps | with_reducible apply State.modTm_keeps | fail_if_no_progress with_reducible apply Keeps.upd | dsimp only | split)

theorem State.portAssign_keeps {r : State} (s : State) (m : List Byte) (h0 : Keeps r s) : Keeps r (State.portAssign s m) := by
  unfold State.portAssign
  conv => zeta
  repeat' (first | with_reducible assumption | (intro _) | with_reducible apply State.tdPortWritten_keeps | with_reducible apply State.setWord_keeps | with_reducible apply State.tmUnknown_keeps | fail_if_no_progress with_reducible apply Keeps.upd | dsimp only | split)

theorem State.deregister_keeps {r : State} (s : State) (h0 : Keeps r s) : Keeps r (State.deregister s) := by
  unfold State.deregister
  conv => zeta
  repeat' (first | with_reducible assumption | (intro _) | with_reducible apply State.enterListen_keeps | with_reducible apply State.invalidateRecord_keeps | with_reducible apply State.modTm_keeps | with_reducible apply State.step8Fail_keeps | fail_if_no_progress with_reducible apply Keeps.upd | dsimp only | split)

theorem State.disableTerm_keeps {r : State} (s : State) (action : Nat) (h0 : Keeps r s) : Keeps r (State.disableTerm s action) := by
  unfold State.disableTerm
  conv => zeta
  repeat' (first | with_reducible assumption | (intro _) | with_reducible apply State.notify_keeps | with_reducible apply State.pushTerm_keeps | with_reducible apply State.saveTree_keeps | with_reducible apply State.setTm_keeps | with_reducible apply State.modTm_keeps | with_reducible apply State.step8Fail_keeps | with_reducible apply State.enterListen_keeps | fail_if_no_progress with_reducible apply Keeps.upd | dsimp only | split)

theorem State.dozeGrant_keeps {r : State} (s : State) (carry : Nat) (m : List Byte) (h0 : Keeps r s) : Keeps r (State.dozeGrant s carry m) := by
  unfold State.dozeGrant
  conv => zeta
  repeat' (first | with_reducible assumption | (intro _) | with_reducible apply State.modTm_keeps | fail_if_no_progress with_reducible apply Keeps.upd | dsimp only | split)

theorem State.tmMessage_keeps {r : State} (s : State) (carry : Nat) (m : List Byte) (h0 : Keeps r s) : Keeps r (State.tmMessage s carry m) := by
  unfold State.tmMessage
  conv => zeta
  repeat' (first | with_reducible assumption | (intro _) | with_reducible apply State.tmUnknown_keeps | with_reducible apply State.count_keeps | with_reducible apply State.treeProfile_keeps | with_reducible apply State.identAssign_keeps | with_reducible apply State.rangingResult_keeps | with_reducible apply State.warmAck_keeps | with_reducible apply State.allocAssign_keeps | with_reducible apply State.portAssign_keeps | with_reducible apply State.deregister_keeps | with_reducible apply State.disableTerm_keeps | with_reducible apply State.dozeGrant_keeps | fail_if_no_progress with_reducible apply Keeps.upd | dsimp only | split)

theorem State.takeMessage_keeps {r : State} (s : State) (type : Nat) (h0 : Keeps r s) : Keeps r (State.takeMessage s type) := by
  unfold State.takeMessage
  conv => zeta
  repeat' (first | with_reducible assumption | (intro _) | with_reducible apply State.modTd_keeps | with_reducible apply State.timeMessage_keeps | with_reducible apply State.tmMessage_keeps | fail_if_no_progress with_reducible apply Keeps.upd | dsimp only | split)

theorem State.drainMessages_keeps {r : State} (a0 : Nat) (a1 : State) (h0 : Keeps r a1) : Keeps r (State.drainMessages a0 a1) := by
  induction a0 generalizing a1 with
  | zero => exact h0
  | succ k ih =>
    unfold State.drainMessages
    conv => zeta
    repeat' (first | with_reducible assumption | (intro _) | with_reducible apply ih | with_reducible apply State.takeMessage_keeps | fail_if_no_progress with_reducible apply Keeps.upd | dsimp only | split)

theorem State.takeUnknown_keeps {r : State} (s : State) (h0 : Keeps r s) : Keeps r (State.takeUnknown s) := by
  unfold State.takeUnknown
  conv => zeta
  repeat' (first | with_reducible assumption | (intro _) | with_reducible apply State.takeMessage_keeps | fail_if_no_progress with_reducible apply Keeps.upd | dsimp only | split)

theorem State.to1Expiry_keeps {r : State} (s : State) (h0 : Keeps r s) : Keeps r (State.to1Expiry s) := by
  unfold State.to1Expiry
  conv => zeta
  repeat' (first | with_reducible assumption | (intro _) | with_reducible apply State.warmOut_keeps | with_reducible apply State.pushTerm_keeps | with_reducible apply State.saveTree_keeps | with_reducible apply State.setTm_keeps | with_reducible apply State.modTm_keeps | with_reducible apply State.step8Fail_keeps | fail_if_no_progress with_reducible apply Keeps.upd | dsimp only | split)

theorem State.twExpiry_keeps {r : State} (s : State) (h0 : Keeps r s) : Keeps r (State.twExpiry s) := by
  unfold State.twExpiry
  conv => zeta
  repeat' (first | with_reducible assumption | (intro _) | with_reducible apply State.count_keeps | with_reducible apply State.warmOut_keeps | with_reducible apply State.setTm_keeps | fail_if_no_progress with_reducible apply Keeps.upd | dsimp only | split)

theorem State.to2Expiry_keeps {r : State} (s : State) (h0 : Keeps r s) : Keeps r (State.to2Expiry s) := by
  unfold State.to2Expiry
  conv => zeta
  repeat' (first | with_reducible assumption | (intro _) | with_reducible apply State.setTm_keeps | fail_if_no_progress with_reducible apply Keeps.upd | dsimp only | split)

theorem State.treeRecordSave_keeps {r : State} (s : State) (h0 : Keeps r s) : Keeps r (State.treeRecordSave s) := by
  unfold State.treeRecordSave
  conv => zeta
  repeat' (first | with_reducible assumption | (intro _) | with_reducible apply State.saveTree_keeps | fail_if_no_progress with_reducible apply Keeps.upd | dsimp only | split)

theorem State.evalProtect_keeps {r : State} (s : State) (h0 : Keeps r s) : Keeps r (State.evalProtect s) := by
  unfold State.evalProtect
  conv => zeta
  repeat' (first | with_reducible assumption | (intro _) | with_reducible apply State.modTm_keeps | fail_if_no_progress with_reducible apply Keeps.upd | dsimp only | split)

theorem State.dropAllReasm_keeps {r : State} (s : State) (h0 : Keeps r s) : Keeps r (State.dropAllReasm s) := by
  unfold State.dropAllReasm
  conv => zeta
  repeat' (first | with_reducible assumption | (intro _) | with_reducible apply State.dropReasm_keeps | with_reducible apply State.modTd_keeps | with_reducible apply State.countN_keeps | fail_if_no_progress with_reducible apply Keeps.upd | with_reducible apply Keeps.foldl | with_reducible apply Keeps.foldl_fst | with_reducible apply Keeps.foldl_snd | dsimp only | split)

theorem State.protectionSwitch_keeps {r : State} (s : State) (h0 : Keeps r s) : Keeps r (State.protectionSwitch s) := by
  unfold State.protectionSwitch
  conv => zeta
  repeat' (first | with_reducible assumption | (intro _) | with_reducible apply State.evalProtect_keeps | with_reducible apply State.dropAllReasm_keeps | with_reducible apply State.modTd_keeps | with_reducible apply State.modTm_keeps | with_reducible apply State.notify_keeps | with_reducible apply State.ash_keeps | with_reducible apply State.count_keeps | with_reducible apply State.setTm_keeps | with_reducible apply State.saveTree_keeps | fail_if_no_progress with_reducible apply Keeps.upd | dsimp only | split)

theorem State.dozeRequest_keeps {r : State} (s : State) (ms : Nat) (h0 : Keeps r s) : Keeps r (State.dozeRequest s ms) := by
  unfold State.dozeRequest
  conv => zeta
  repeat' (first | with_reducible assumption | (intro _) | with_reducible apply State.modTm_keeps | fail_if_no_progress with_reducible apply Keeps.upd | dsimp only | split)

theorem opTmStatus_keeps {r : State} (op : Nat) (p : List Byte) (s : State) (h0 : Keeps r s) : Keeps r (opTmStatus op p s) := by
  unfold opTmStatus
  conv => zeta
  repeat' (first | with_reducible assumption | (intro _) | with_reducible apply State.finish_keeps | fail_if_no_progress with_reducible apply Keeps.upd | dsimp only | split)

theorem opTmSetIdent_keeps {r : State} (op : Nat) (p : List Byte) (s : State) (h0 : Keeps r s) : Keeps r (opTmSetIdent op p s) := by
  unfold opTmSetIdent
  conv => zeta
  repeat' (first | with_reducible assumption | (intro _) | with_reducible apply State.finish_keeps | with_reducible apply State.modTm_keeps | with_reducible apply State.pushTerm_keeps | with_reducible apply State.saveTree_keeps | fail_if_no_progress with_reducible apply Keeps.upd | dsimp only | split)

theorem opTmForget_keeps {r : State} (op : Nat) (p : List Byte) (s : State) (h0 : Keeps r s) : Keeps r (opTmForget op p s) := by
  unfold opTmForget
  conv => zeta
  repeat' (first | with_reducible assumption | (intro _) | with_reducible apply State.finish_keeps | with_reducible apply State.invalidateRecord_keeps | fail_if_no_progress with_reducible apply Keeps.upd | dsimp only | split)

theorem opTmClearDisable_keeps {r : State} (op : Nat) (p : List Byte) (s : State) (h0 : Keeps r s) : Keeps r (opTmClearDisable op p s) := by
  unfold opTmClearDisable
  conv => zeta
  repeat' (first | with_reducible assumption | (intro _) | with_reducible apply State.finish_keeps | with_reducible apply State.saveTree_keeps | with_reducible apply State.modTm_keeps | with_reducible apply State.pushTerm_keeps | with_reducible apply State.enterListen_keeps | fail_if_no_progress with_reducible apply Keeps.upd | dsimp only | split)

end Sys2Proof.Machine
end

