-- ==== Sys2Proof/Laws/KeepsTreeDown.lean ====
section
/-! SUPPORT. The operations of Machine/TreeDown.lean keep what every operation inside a command keeps (`Keeps`). -/

namespace Sys2Proof.Machine

set_option linter.unusedTactic false
set_option linter.unreachableTactic false
set_option linter.unusedVariables false
set_option linter.unnecessarySeqFocus false

theorem State.modTdLane_keeps {r : State} (s : State) (a1 : Nat) (f : TdLane → TdLane) (h0 : Keeps r s) : Keeps r (State.modTdLane s a1 f) := by
  unfold State.modTdLane
  conv => zeta
  repeat' (first | with_reducible assumption | (intro _) | with_reducible apply State.modTd_keeps | fail_if_no_progress with_reducible apply Keeps.upd | dsimp only | split)

theorem State.setAlign_keeps {r : State} (s : State) (a1 : Nat) (st : Align) (h0 : Keeps r s) : Keeps r (State.setAlign s a1 st) := by
  unfold State.setAlign
  conv => zeta
  repeat' (first | with_reducible assumption | (intro _) | with_reducible apply State.modTdLane_keeps | with_reducible apply State.notify_keeps | fail_if_no_progress with_reducible apply Keeps.upd | dsimp only | split)

theorem State.cutFrame_keeps {r : State} (s : State) (h0 : Keeps r s) : Keeps r (State.cutFrame s) := by
  unfold State.cutFrame
  conv => zeta
  repeat' (first | with_reducible assumption | (intro _) | with_reducible apply State.modTd_keeps | fail_if_no_progress with_reducible apply Keeps.upd | dsimp only | split)

theorem State.tdLost_keeps {r : State} (s0 : State) (a1 : Nat) (cause : Nat) (h0 : Keeps r s0) : Keeps r (State.tdLost s0 a1 cause) := by
  unfold State.tdLost
  conv => zeta
  repeat' (first | with_reducible assumption | (intro _) | with_reducible apply State.cutFrame_keeps | with_reducible apply State.modTd_keeps | with_reducible apply State.notify_keeps | with_reducible apply State.wake_keeps | with_reducible apply State.pushTerm_keeps | with_reducible apply State.dropAllReasm_keeps | with_reducible apply State.tmLost_keeps | with_reducible apply State.ntAlignLost_keeps | fail_if_no_progress with_reducible apply Keeps.upd | dsimp only | split)

theorem State.toHunt_keeps {r : State} (s : State) (a1 : Nat) (cause : Nat) (h0 : Keeps r s) : Keeps r (State.toHunt s a1 cause) := by
  unfold State.toHunt
  conv => zeta
  repeat' (first | with_reducible assumption | (intro _) | with_reducible apply State.setAlign_keeps | with_reducible apply State.count_keeps | with_reducible apply State.tdLost_keeps | fail_if_no_progress with_reducible apply Keeps.upd | dsimp only | split)

theorem State.laneGone_keeps {r : State} (s : State) (n : Nat) (cause : Nat) (h0 : Keeps r s) : Keeps r (State.laneGone s n cause) := by
  unfold State.laneGone
  conv => zeta
  repeat' (first | with_reducible assumption | (intro _) | with_reducible apply State.toHunt_keeps | fail_if_no_progress with_reducible apply Keeps.upd | dsimp only | split)

theorem State.treeFollow_keeps {r : State} (s : State) (h0 : Keeps r s) : Keeps r (State.treeFollow s) := by
  unfold State.treeFollow
  conv => zeta
  repeat' (first | with_reducible assumption | (intro _) | with_reducible apply State.laneGone_keeps | fail_if_no_progress with_reducible apply Keeps.upd | with_reducible apply Keeps.foldl | with_reducible apply Keeps.foldl_fst | with_reducible apply Keeps.foldl_snd | dsimp only | split)

theorem State.treeReturn_keeps {r : State} (s : State) (h0 : Keeps r s) : Keeps r (State.treeReturn s) := by
  unfold State.treeReturn
  conv => zeta
  repeat' (first | with_reducible assumption | (intro _) | with_reducible apply State.lanesReturn_keeps | with_reducible apply State.setAlign_keeps | fail_if_no_progress with_reducible apply Keeps.upd | dsimp only | split)

theorem State.seeSrq_keeps {r : State} (s : State) (a1 : Nat) (i : FrameId) (h0 : Keeps r s) : Keeps r (State.seeSrq s a1 i) := by
  unfold State.seeSrq
  conv => zeta
  repeat' (first | with_reducible assumption | (intro _) | with_reducible apply State.modTdLane_keeps | with_reducible apply State.notify_keeps | fail_if_no_progress with_reducible apply Keeps.upd | with_reducible apply Keeps.getD | dsimp only | split)

theorem State.grantEntry_keeps {r : State} (s : State) (ts : Nat) (ready : Nat) (i : FrameId) (v_e : List Byte) (h0 : Keeps r s) : Keeps r (State.grantEntry s ts ready i v_e) := by
  unfold State.grantEntry
  conv => zeta
  repeat' (first | with_reducible assumption | (intro _) | with_reducible apply State.count_keeps | with_reducible apply State.modTd_keeps | fail_if_no_progress with_reducible apply Keeps.upd | dsimp only | split)

theorem State.mapDone_keeps {r : State} (s : State) (sfc : Nat) (h0 : Keeps r s) : Keeps r (State.mapDone s sfc) := by
  unfold State.mapDone
  conv => zeta
  repeat' (first | with_reducible assumption | (intro _) | with_reducible apply State.wake_keeps | fail_if_no_progress with_reducible apply Keeps.upd | dsimp only | split)

theorem State.grantMapDeadline_keeps {r : State} (s : State) (h0 : Keeps r s) : Keeps r (State.grantMapDeadline s) := by
  unfold State.grantMapDeadline
  conv => zeta
  repeat' (first | with_reducible assumption | (intro _) | with_reducible apply State.count_keeps | with_reducible apply State.modTd_keeps | fail_if_no_progress with_reducible apply Keeps.upd | dsimp only | split)

theorem State.overhead_keeps {r : State} (s : State) (sfc : Nat) (m : List Byte) (lost : Bool) (h0 : Keeps r s) : Keeps r (State.overhead s sfc m lost) := by
  unfold State.overhead
  conv => zeta
  repeat' (first | with_reducible assumption | (intro _) | with_reducible apply State.count_keeps | with_reducible apply State.modTd_keeps | with_reducible apply State.wake_keeps | fail_if_no_progress with_reducible apply Keeps.upd | dsimp only | split)

theorem State.sduIn_keeps {r : State} (s : State) (v_r : Reasm) (h0 : Keeps r s) : Keeps r (State.sduIn s v_r) := by
  unfold State.sduIn
  conv => zeta
  repeat' (first | with_reducible assumption | (intro _) | with_reducible apply State.modTd_keeps | fail_if_no_progress with_reducible apply Keeps.upd | dsimp only | split)

theorem State.fragment_keeps {r : State} (s : State) (v_r : Reasm) (first : Bool) (ident : Nat) (data : List Byte) (last : Bool) (lost : Bool) (h0 : Keeps r s) : Keeps r (State.fragment s v_r first ident data last lost) := by
  unfold State.fragment
  conv => zeta
  repeat' (first | with_reducible assumption | (intro _) | with_reducible apply State.modTd_keeps | with_reducible apply State.count_keeps | with_reducible apply State.dropReasm_keeps | with_reducible apply State.sduIn_keeps | with_reducible apply State.submit_keeps | with_reducible apply State.submit_keeps_eq (e := by with_reducible assumption) | fail_if_no_progress with_reducible apply Keeps.upd | dsimp only | split)

theorem State.unitLost_keeps {r : State} (s : State) (port : Nat) (last : Bool) (h0 : Keeps r s) : Keeps r (State.unitLost s port last) := by
  unfold State.unitLost
  conv => zeta
  repeat' (first | with_reducible assumption | (intro _) | with_reducible apply State.count_keeps | with_reducible apply State.dropReasm_keeps | with_reducible apply State.modTd_keeps | fail_if_no_progress with_reducible apply Keeps.upd | dsimp only | split)

theorem State.unitIn_keeps {r : State} (s : State) (port : Nat) (ident : Nat) (data : List Byte) (last : Bool) (lost : Bool) (h0 : Keeps r s) : Keeps r (State.unitIn s port ident data last lost) := by
  unfold State.unitIn
  conv => zeta
  repeat' (first | with_reducible assumption | (intro _) | with_reducible apply State.count_keeps | with_reducible apply State.fragment_keeps | with_reducible apply State.modTd_keeps | with_reducible apply State.modCy_keeps | fail_if_no_progress with_reducible apply Keeps.upd | dsimp only | split)

theorem State.unitSeen_keeps {r : State} (s : State) (port : Nat) (ident : Nat) (last : Bool) (h0 : Keeps r s) : Keeps r (State.unitSeen s port ident last).1 := by
  unfold State.unitSeen
  conv => zeta
  repeat' (first | with_reducible assumption | (intro _) | with_reducible apply State.wake_keeps | with_reducible apply State.unitLost_keeps | with_reducible apply State.modTd_keeps | with_reducible apply State.count_keeps | fail_if_no_progress with_reducible apply Keeps.upd | dsimp only | split)

theorem State.unitSeen_keeps_eq {r : State} (s : State) (port : Nat) (ident : Nat) (last : Bool) {xx tt} (e : State.unitSeen s port ident last = (tt, xx)) (h0 : Keeps r s) : Keeps r tt := by
  have q := State.unitSeen_keeps (r := r) s port ident last h0
  rw [e] at q
  exact q

theorem State.delinLost_keeps {r : State} (s : State) (h0 : Keeps r s) : Keeps r (State.delinLost s) := by
  unfold State.delinLost
  conv => zeta
  repeat' (first | with_reducible assumption | (intro _) | with_reducible apply State.dropAllReasm_keeps | fail_if_no_progress with_reducible apply Keeps.upd | dsimp only | split)

theorem State.routeSdus_keeps {r : State} (a0 : Nat) (a1 : State) (h0 : Keeps r a1) : Keeps r (State.routeSdus a0 a1) := by
  induction a0 generalizing a1 with
  | zero => exact h0
  | succ k ih =>
    unfold State.routeSdus
    conv => zeta
    repeat' (first | with_reducible assumption | (intro _) | with_reducible apply ih | with_reducible apply State.modTd_keeps | with_reducible apply State.sendMsg_keeps | with_reducible apply State.count_keeps | fail_if_no_progress with_reducible apply Keeps.upd | dsimp only | split)

theorem State.takeSdu_keeps {r : State} (s : State) (p : DownSdu → Bool) {x t} (h0 : Keeps r s) (e : State.takeSdu s p = some (x, t)) : Keeps r t := by
  unfold State.takeSdu at e
  conv at e => zeta
  (repeat' split at e) <;> (try cases e) <;> (try simp only [Option.some.injEq, Prod.mk.injEq] at e) <;> (try obtain ⟨_, e⟩ := e) <;> (try subst e)
  all_goals (repeat' (first | with_reducible assumption | (intro _) | with_reducible apply State.modTd_keeps | fail_if_no_progress with_reducible apply Keeps.upd | dsimp only | split))

theorem State.tdRestored_keeps {r : State} (s : State) (h0 : Keeps r s) : Keeps r (State.tdRestored s) := by
  unfold State.tdRestored
  conv => zeta
  repeat' (first | with_reducible assumption | (intro _) | with_reducible apply State.notify_keeps | with_reducible apply State.modTd_keeps | with_reducible apply State.pushTerm_keeps | with_reducible apply State.tmRestored_keeps | fail_if_no_progress with_reducible apply Keeps.upd | dsimp only | split)

theorem State.dozeEnd_keeps {r : State} (s : State) (h0 : Keeps r s) : Keeps r (State.dozeEnd s) := by
  unfold State.dozeEnd
  conv => zeta
  repeat' (first | with_reducible assumption | (intro _) | with_reducible apply State.modTm_keeps | fail_if_no_progress with_reducible apply Keeps.upd | dsimp only | split)

theorem State.setFrame_keeps {r : State} (s : State) (f : Option FrameRest) (h0 : Keeps r s) : Keeps r (State.setFrame s f) := by
  unfold State.setFrame
  conv => zeta
  repeat' (first | with_reducible assumption | (intro _) | with_reducible apply State.modTd_keeps | fail_if_no_progress with_reducible apply Keeps.upd | dsimp only | split)

theorem State.unitHeader_keeps {r : State} (s : State) (f : FrameRest) (h0 : Keeps r s) : Keeps r (State.unitHeader s f) := by
  unfold State.unitHeader
  conv => zeta
  repeat' (first | with_reducible assumption | (intro _) | with_reducible apply State.setFrame_keeps | with_reducible apply State.delinLost_keeps | with_reducible apply State.count_keeps | with_reducible apply State.unitSeen_keeps | with_reducible apply State.unitSeen_keeps_eq (e := by with_reducible assumption) | fail_if_no_progress with_reducible apply Keeps.upd | dsimp only | split)

theorem State.unitEnd_keeps {r : State} (s : State) (f : FrameRest) (mine : Bool) (h0 : Keeps r s) : Keeps r (State.unitEnd s f mine) := by
  unfold State.unitEnd
  conv => zeta
  repeat' (first | with_reducible assumption | (intro _) | with_reducible apply State.routeSdus_keeps | with_reducible apply State.unitIn_keeps | with_reducible apply State.setFrame_keeps | fail_if_no_progress with_reducible apply Keeps.upd | dsimp only | split)

theorem State.frameStep_keeps {r : State} (s : State) {t : State} (h0 : Keeps r s) (e : State.frameStep s = some t) : Keeps r t := by
  unfold State.frameStep at e
  conv at e => zeta
  (repeat' split at e) <;> (try cases e) <;> (try simp only [Option.some.injEq, Prod.mk.injEq] at e) <;> (try obtain ⟨_, e⟩ := e) <;> (try subst e)
  all_goals (repeat' (first | with_reducible assumption | (intro _) | with_reducible apply State.setFrame_keeps | with_reducible apply State.grantEntry_keeps | with_reducible apply State.mapDone_keeps | with_reducible apply State.overhead_keeps | with_reducible apply State.unitHeader_keeps | with_reducible apply State.unitEnd_keeps | fail_if_no_progress with_reducible apply Keeps.upd | dsimp only | split))

theorem State.frameGo_keeps {r : State} (a0 : Nat) (a1 : State) (h0 : Keeps r a1) : Keeps r (State.frameGo a0 a1) := by
  induction a0 generalizing a1 with
  | zero => exact h0
  | succ k ih =>
    unfold State.frameGo
    conv => zeta
    repeat' (first | with_reducible assumption | (intro _) | with_reducible apply ih | (with_reducible apply State.frameStep_keeps (e := by with_reducible assumption)) | fail_if_no_progress with_reducible apply Keeps.upd | dsimp only | split)

theorem State.startFrame_keeps {r : State} (s : State) (i : FrameId) (body : Body) (h0 : Keeps r s) : Keeps r (State.startFrame s i body) := by
  unfold State.startFrame
  conv => zeta
  repeat' (first | with_reducible assumption | (intro _) | with_reducible apply State.setFrame_keeps | with_reducible apply State.modTd_keeps | fail_if_no_progress with_reducible apply Keeps.upd | dsimp only | split)

theorem State.deliver_keeps {r : State} (s : State) (i : FrameId) (body : Body) (h0 : Keeps r s) : Keeps r (State.deliver s i body) := by
  unfold State.deliver
  conv => zeta
  repeat' (first | with_reducible assumption | (intro _) | with_reducible apply State.tdRestored_keeps | with_reducible apply State.modTd_keeps | with_reducible apply State.modTm_keeps | with_reducible apply State.startFrame_keeps | with_reducible apply State.dozeEnd_keeps | fail_if_no_progress with_reducible apply Keeps.upd | dsimp only | split)

theorem State.mapMissed_keeps {r : State} (s : State) (a1 : Nat) (h0 : Keeps r s) : Keeps r (State.mapMissed s a1) := by
  unfold State.mapMissed
  conv => zeta
  repeat' (first | with_reducible assumption | (intro _) | with_reducible apply State.modTd_keeps | fail_if_no_progress with_reducible apply Keeps.upd | dsimp only | split)

theorem State.lockedFrame_keeps {r : State} (s : State) (a1 : Nat) (a2 : Nat) (i : Option FrameId) (b : List Byte) (h0 : Keeps r s) : Keeps r (State.lockedFrame s a1 a2 i b) := by
  unfold State.lockedFrame
  conv => zeta
  repeat' (first | with_reducible assumption | (intro _) | with_reducible apply State.modTdLane_keeps | with_reducible apply State.seeSrq_keeps | with_reducible apply State.tmVersion_keeps | with_reducible apply State.countN_keeps | with_reducible apply State.latchFrame_keeps | with_reducible apply State.deliver_keeps | with_reducible apply State.dropAllReasm_keeps | with_reducible apply State.mapMissed_keeps | with_reducible apply State.evalProtect_keeps | fail_if_no_progress with_reducible apply Keeps.upd | dsimp only | split)

theorem State.jump_keeps {r : State} (s : State) (a1 : Nat) (expected : Nat) (i : Option FrameId) (h0 : Keeps r s) : Keeps r (State.jump s a1 expected i) := by
  unfold State.jump
  conv => zeta
  repeat' (first | with_reducible assumption | (intro _) | with_reducible apply State.modTdLane_keeps | with_reducible apply State.notify_keeps | with_reducible apply State.count_keeps | with_reducible apply State.ntJump_keeps | fail_if_no_progress with_reducible apply Keeps.upd | dsimp only | split)

theorem State.lockLane_keeps {r : State} (s : State) (a1 : Nat) (i : FrameId) (b : List Byte) (h0 : Keeps r s) : Keeps r (State.lockLane s a1 i b) := by
  unfold State.lockLane
  conv => zeta
  repeat' (first | with_reducible assumption | (intro _) | with_reducible apply State.lockedFrame_keeps | with_reducible apply State.modTdLane_keeps | with_reducible apply State.setAlign_keeps | fail_if_no_progress with_reducible apply Keeps.upd | dsimp only | split)

theorem State.timedFrame_keeps {r : State} (s0 : State) (a1 : Nat) (a2 : Nat) (near : Bool) (i : Option FrameId) (b : List Byte) (h0 : Keeps r s0) : Keeps r (State.timedFrame s0 a1 a2 near i b) := by
  unfold State.timedFrame
  conv => zeta
  repeat' (first | with_reducible assumption | (intro _) | with_reducible apply State.modTdLane_keeps | with_reducible apply State.lockLane_keeps | with_reducible apply State.toHunt_keeps | with_reducible apply State.lockedFrame_keeps | with_reducible apply State.jump_keeps | with_reducible apply State.count_keeps | with_reducible apply State.mapMissed_keeps | fail_if_no_progress with_reducible apply Keeps.upd | dsimp only | split)

theorem State.framesMissed_keeps {r : State} (a0 : Nat) (a1 : Nat) (a2 : State) (h0 : Keeps r a2) : Keeps r (State.framesMissed a0 a1 a2) := by
  induction a1 generalizing a0 a2 with
  | zero => exact h0
  | succ k ih =>
    unfold State.framesMissed
    conv => zeta
    repeat' (first | with_reducible assumption | (intro _) | with_reducible apply ih | with_reducible apply State.timedFrame_keeps | with_reducible apply State.grantMapDeadline_keeps | fail_if_no_progress with_reducible apply Keeps.upd | dsimp only | split)

theorem State.treeGo_keeps {r : State} (s : State) (h0 : Keeps r s) : Keeps r (State.treeGo s) := by
  unfold State.treeGo
  conv => zeta
  repeat' (first | with_reducible assumption | (intro _) | with_reducible apply State.framesMissed_keeps | with_reducible apply State.frameGo_keeps | fail_if_no_progress with_reducible apply Keeps.upd | dsimp only | split)

theorem State.frameReceived_keeps {r : State} (s0 : State) (a1 : Nat) (bytes : List Byte) (h0 : Keeps r s0) : Keeps r (State.frameReceived s0 a1 bytes) := by
  unfold State.frameReceived
  conv => zeta
  repeat' (first | with_reducible assumption | (intro _) | with_reducible apply State.grantMapDeadline_keeps | with_reducible apply State.modTdLane_keeps | with_reducible apply State.lockLane_keeps | with_reducible apply State.setAlign_keeps | with_reducible apply State.drainMessages_keeps | with_reducible apply State.timedFrame_keeps | fail_if_no_progress with_reducible apply Keeps.upd | dsimp only | split)

theorem opTdReport_keeps {r : State} (op : Nat) (p : List Byte) (s : State) (h0 : Keeps r s) : Keeps r (opTdReport op p s) := by
  unfold opTdReport
  conv => zeta
  repeat' (first | with_reducible assumption | (intro _) | with_reducible apply State.finish_keeps | fail_if_no_progress with_reducible apply Keeps.upd | dsimp only | split)

end Sys2Proof.Machine
end

