-- ==== Sys2Proof/Laws/KeepsUpstream.lean ====
section
/-! SUPPORT. The operations of Machine/Upstream.lean keep what every operation inside a command keeps (`Keeps`). -/

namespace Sys2Proof.Machine

set_option linter.unusedTactic false
set_option linter.unreachableTactic false
set_option linter.unusedVariables false
set_option linter.unnecessarySeqFocus false

theorem State.modUp_keeps {r : State} (s : State) (f : Upstream → Upstream) (h0 : Keeps r s) : Keeps r (State.modUp s f) := by
  unfold State.modUp
  conv => zeta
  repeat' (first | with_reducible assumption | (intro _) | fail_if_no_progress with_reducible apply Keeps.upd | dsimp only | split)

theorem State.modTb_keeps {r : State} (s : State) (f : Tribs → Tribs) (h0 : Keeps r s) : Keeps r (State.modTb s f) := by
  unfold State.modTb
  conv => zeta
  repeat' (first | with_reducible assumption | (intro _) | fail_if_no_progress with_reducible apply Keeps.upd | dsimp only | split)

theorem State.modQueue_keeps {r : State} (s : State) (n : Nat) (f : UpQueue → UpQueue) (h0 : Keeps r s) : Keeps r (State.modQueue s n f) := by
  unfold State.modQueue
  conv => zeta
  repeat' (first | with_reducible assumption | (intro _) | with_reducible apply State.modUp_keeps | fail_if_no_progress with_reducible apply Keeps.upd | dsimp only | split)

theorem State.enqueue_keeps {r : State} (s : State) (n : Nat) (a2 : SduKind) (b : List Byte) (h0 : Keeps r s) : Keeps r (State.enqueue s n a2 b).1 := by
  unfold State.enqueue
  conv => zeta
  repeat' (first | with_reducible assumption | (intro _) | with_reducible apply State.count_keeps | with_reducible apply State.modQueue_keeps | fail_if_no_progress with_reducible apply Keeps.upd | dsimp only | split)

theorem State.enqueue_keeps_eq {r : State} (s : State) (n : Nat) (a2 : SduKind) (b : List Byte) {xx tt} (e : State.enqueue s n a2 b = (tt, xx)) (h0 : Keeps r s) : Keeps r tt := by
  have q := State.enqueue_keeps (r := r) s n a2 b h0
  rw [e] at q
  exact q

theorem State.submitSdu_keeps {r : State} (s : State) (n : Nat) {t : State} (h0 : Keeps r s) (e : State.submitSdu s n = some t) : Keeps r t := by
  unfold State.submitSdu at e
  conv at e => zeta
  (repeat' split at e) <;> (try cases e) <;> (try simp only [Option.some.injEq, Prod.mk.injEq] at e) <;> (try obtain ⟨_, e⟩ := e) <;> (try subst e)
  all_goals (repeat' (first | with_reducible assumption | (intro _) | with_reducible apply State.modQueue_keeps | with_reducible apply State.submit_keeps | with_reducible apply State.submit_keeps_eq (e := by with_reducible assumption) | fail_if_no_progress with_reducible apply Keeps.upd | dsimp only | split))

theorem State.submitQueue_keeps {r : State} (n : Nat) (a1 : Nat) (a2 : State) (h0 : Keeps r a2) : Keeps r (State.submitQueue n a1 a2) := by
  induction a1 generalizing n a2 with
  | zero => exact h0
  | succ k ih =>
    unfold State.submitQueue
    conv => zeta
    repeat' (first | with_reducible assumption | (intro _) | with_reducible apply ih | (with_reducible apply State.submitSdu_keeps (e := by with_reducible assumption)) | fail_if_no_progress with_reducible apply Keeps.upd | dsimp only | split)

theorem State.submitAll_keeps {r : State} (s : State) (h0 : Keeps r s) : Keeps r (State.submitAll s) := by
  unfold State.submitAll
  conv => zeta
  repeat' (first | with_reducible assumption | (intro _) | with_reducible apply State.submitQueue_keeps | fail_if_no_progress with_reducible apply Keeps.upd | with_reducible apply Keeps.foldl | with_reducible apply Keeps.foldl_fst | with_reducible apply Keeps.foldl_snd | dsimp only | split)

theorem State.damperCharge_keeps {r : State} (s : State) (n : Nat) (take : Nat) (sign : Int) (h0 : Keeps r s) : Keeps r (State.damperCharge s n take sign) := by
  unfold State.damperCharge
  conv => zeta
  repeat' (first | with_reducible assumption | (intro _) | with_reducible apply State.modUp_keeps | fail_if_no_progress with_reducible apply Keeps.upd | dsimp only | split)

theorem State.damperBoundary_keeps {r : State} (s : State) (h0 : Keeps r s) : Keeps r (State.damperBoundary s) := by
  unfold State.damperBoundary
  conv => zeta
  repeat' (first | with_reducible assumption | (intro _) | with_reducible apply State.modUp_keeps | fail_if_no_progress with_reducible apply Keeps.upd | dsimp only | split)

theorem State.damperWritten_keeps {r : State} (s : State) (n : Nat) (old : Nat) (oldRate : Nat) (h0 : Keeps r s) : Keeps r (State.damperWritten s n old oldRate) := by
  unfold State.damperWritten
  conv => zeta
  repeat' (first | with_reducible assumption | (intro _) | with_reducible apply State.modUp_keeps | fail_if_no_progress with_reducible apply Keeps.upd | with_reducible apply Keeps.getD | dsimp only | split)

theorem State.police_keeps {r : State} (s : State) (p : Nat) (len : Nat) (dei : Bool) (h0 : Keeps r s) : Keeps r (State.police s p len dei).1 := by
  unfold State.police
  conv => zeta
  repeat' (first | with_reducible assumption | (intro _) | with_reducible apply State.modUp_keeps | fail_if_no_progress with_reducible apply Keeps.upd | dsimp only | split)

theorem State.police_keeps_eq {r : State} (s : State) (p : Nat) (len : Nat) (dei : Bool) {xx tt} (e : State.police s p len dei = (tt, xx)) (h0 : Keeps r s) : Keeps r tt := by
  have q := State.police_keeps (r := r) s p len dei h0
  rw [e] at q
  exact q

theorem State.decline_keeps {r : State} (s : State) (alloc : Nat) (eb : Nat) (f : Nat) (h0 : Keeps r s) : Keeps r (State.decline s alloc eb f) := by
  unfold State.decline
  conv => zeta
  repeat' (first | with_reducible assumption | (intro _) | with_reducible apply State.count_keeps | with_reducible apply State.notify_keeps | with_reducible apply State.ash_keeps | with_reducible apply State.modUp_keeps | fail_if_no_progress with_reducible apply Keeps.upd | dsimp only | split)

theorem State.admitBurst_keeps {r : State} (s : State) (alloc : Nat) (n : Nat) (alarm : Bool) (h0 : Keeps r s) : Keeps r (State.admitBurst s alloc n alarm).1 := by
  unfold State.admitBurst
  conv => zeta
  repeat' (first | with_reducible assumption | (intro _) | with_reducible apply State.modUp_keeps | with_reducible apply State.charge_keeps | with_reducible apply State.decline_keeps | fail_if_no_progress with_reducible apply Keeps.upd | dsimp only | split)

theorem State.admitBurst_keeps_eq {r : State} (s : State) (alloc : Nat) (n : Nat) (alarm : Bool) {xx tt} (e : State.admitBurst s alloc n alarm = (tt, xx)) (h0 : Keeps r s) : Keeps r tt := by
  have q := State.admitBurst_keeps (r := r) s alloc n alarm h0
  rw [e] at q
  exact q

theorem State.refundUnit_keeps {r : State} (s : State) (u : UpUnit) (h0 : Keeps r s) : Keeps r (State.refundUnit s u) := by
  unfold State.refundUnit
  conv => zeta
  repeat' (first | with_reducible assumption | (intro _) | with_reducible apply State.modQueue_keeps | with_reducible apply State.damperCharge_keeps | fail_if_no_progress with_reducible apply Keeps.upd | dsimp only | split)

theorem State.refund_keeps {r : State} (s : State) (units : List UpUnit) (h0 : Keeps r s) : Keeps r (State.refund s units) := by
  unfold State.refund
  conv => zeta
  repeat' (first | with_reducible assumption | (intro _) | with_reducible apply State.refundUnit_keeps | with_reducible apply State.modUp_keeps | fail_if_no_progress with_reducible apply Keeps.upd | with_reducible apply Keeps.foldl | with_reducible apply Keeps.foldl_fst | with_reducible apply Keeps.foldl_snd | dsimp only | split)

theorem State.burstEnd_keeps {r : State} (s : State) (h0 : Keeps r s) : Keeps r (State.burstEnd s) := by
  unfold State.burstEnd
  conv => zeta
  repeat' (first | with_reducible assumption | (intro _) | with_reducible apply State.modUp_keeps | with_reducible apply State.refund_keeps | with_reducible apply State.count_keeps | fail_if_no_progress with_reducible apply Keeps.upd | dsimp only | split)

theorem State.dropBurst_keeps {r : State} (s : State) (h0 : Keeps r s) : Keeps r (State.dropBurst s) := by
  unfold State.dropBurst
  conv => zeta
  repeat' (first | with_reducible assumption | (intro _) | with_reducible apply State.refund_keeps | with_reducible apply State.modUp_keeps | fail_if_no_progress with_reducible apply Keeps.upd | dsimp only | split)

theorem State.cutBurst_keeps {r : State} (s : State) (h0 : Keeps r s) : Keeps r (State.cutBurst s) := by
  unfold State.cutBurst
  conv => zeta
  repeat' (first | with_reducible assumption | (intro _) | with_reducible apply State.notify_keeps | with_reducible apply State.ash_keeps | with_reducible apply State.count_keeps | with_reducible apply State.dropBurst_keeps | fail_if_no_progress with_reducible apply Keeps.upd | dsimp only | split)

theorem State.pickLevel_keeps {r : State} (s : State) (slot : Nat) (prio : Nat) {x t} (h0 : Keeps r s) (e : State.pickLevel s slot prio = some (x, t)) : Keeps r t := by
  unfold State.pickLevel at e
  conv at e => zeta
  (repeat' split at e) <;> (try cases e) <;> (try simp only [Option.some.injEq, Prod.mk.injEq] at e) <;> (try obtain ⟨_, e⟩ := e) <;> (try subst e)
  all_goals (repeat' (first | with_reducible assumption | (intro _) | with_reducible apply State.modUp_keeps | with_reducible apply State.modQueue_keeps | fail_if_no_progress with_reducible apply Keeps.upd | dsimp only | split))

theorem State.pickQueueUp_keeps {r : State} (s : State) (slot : Nat) {x t} (h0 : Keeps r s) (e : State.pickQueueUp s slot = some (x, t)) : Keeps r t := by
  unfold State.pickQueueUp at e
  obtain ⟨p, _, q⟩ := List.exists_of_findSome?_eq_some e
  exact State.pickLevel_keeps s slot p h0 q

theorem State.placeUnit_keeps {r : State} (s : State) (slot : Nat) (n : Nat) (d : Sdu) (take : Nat) (last : Bool) (h0 : Keeps r s) : Keeps r (State.placeUnit s slot n d take last).1 := by
  unfold State.placeUnit
  conv => zeta
  repeat' (first | with_reducible assumption | (intro _) | with_reducible apply State.modQueue_keeps | with_reducible apply State.damperCharge_keeps | with_reducible apply State.modUp_keeps | fail_if_no_progress with_reducible apply Keeps.upd | dsimp only | split)

theorem State.placeUnit_keeps_eq {r : State} (s : State) (slot : Nat) (n : Nat) (d : Sdu) (take : Nat) (last : Bool) {xx tt} (e : State.placeUnit s slot n d take last = (tt, xx)) (h0 : Keeps r s) : Keeps r tt := by
  have q := State.placeUnit_keeps (r := r) s slot n d take last h0
  rw [e] at q
  exact q

theorem State.fillLoop_keeps {r : State} (slot : Nat) (a1 : Nat) (a2 : Nat) (a3 : State) (h0 : Keeps r a3) : Keeps r (State.fillLoop slot a1 a2 a3).1 := by
  induction a1 generalizing slot a2 a3 with
  | zero => exact h0
  | succ k ih =>
    unfold State.fillLoop
    conv => zeta
    repeat' (first | with_reducible assumption | (intro _) | with_reducible apply ih | (with_reducible apply State.pickQueueUp_keeps (e := by with_reducible assumption)) | with_reducible apply State.placeUnit_keeps | with_reducible apply State.placeUnit_keeps_eq (e := by with_reducible assumption) | fail_if_no_progress with_reducible apply Keeps.upd | dsimp only | split)

theorem State.fillLoop_keeps_eq {r : State} (slot : Nat) (a1 : Nat) (a2 : Nat) (a3 : State) {xx tt} (e : State.fillLoop slot a1 a2 a3 = (tt, xx)) (h0 : Keeps r a3) : Keeps r tt := by
  have q := State.fillLoop_keeps (r := r) slot a1 a2 a3 h0
  rw [e] at q
  exact q

theorem State.countLate_keeps {r : State} (s : State) (l : List Remote) (h0 : Keeps r s) : Keeps r (State.countLate s l) := by
  unfold State.countLate
  conv => zeta
  repeat' (first | with_reducible assumption | (intro _) | with_reducible apply State.sendMsg_keeps | fail_if_no_progress with_reducible apply Keeps.upd | with_reducible apply Keeps.foldl | with_reducible apply Keeps.foldl_fst | with_reducible apply Keeps.foldl_snd | dsimp only | split)

theorem State.reserve_keeps {r : State} (s : State) (slot : Nat) (sfc : Nat) (room : Nat) (h0 : Keeps r s) : Keeps r (State.reserve s slot sfc room).1 := by
  unfold State.reserve
  conv => zeta
  repeat' (first | with_reducible assumption | (intro _) | with_reducible apply State.modTb_keeps | with_reducible apply State.countN_keeps | with_reducible apply State.countLate_keeps | fail_if_no_progress with_reducible apply Keeps.upd | with_reducible apply Keeps.foldl | with_reducible apply Keeps.foldl_fst | with_reducible apply Keeps.foldl_snd | dsimp only | split)

theorem State.reserve_keeps_eq {r : State} (s : State) (slot : Nat) (sfc : Nat) (room : Nat) {xx tt} (e : State.reserve s slot sfc room = (tt, xx)) (h0 : Keeps r s) : Keeps r tt := by
  have q := State.reserve_keeps (r := r) s slot sfc room h0
  rw [e] at q
  exact q

theorem State.windowOk_keeps {r : State} (s : State) (start : Nat) (room : Bool) (h0 : Keeps r s) : Keeps r (State.windowOk s start room).1 := by
  unfold State.windowOk
  conv => zeta
  repeat' (first | with_reducible assumption | (intro _) | with_reducible apply State.count_keeps | fail_if_no_progress with_reducible apply Keeps.upd | dsimp only | split)

theorem State.windowOk_keeps_eq {r : State} (s : State) (start : Nat) (room : Bool) {xx tt} (e : State.windowOk s start room = (tt, xx)) (h0 : Keeps r s) : Keeps r tt := by
  have q := State.windowOk_keeps (r := r) s start room h0
  rw [e] at q
  exact q

theorem State.launch_keeps {r : State} (s : State) (b : Burst) (h0 : Keeps r s) : Keeps r (State.launch s b) := by
  unfold State.launch
  conv => zeta
  repeat' (first | with_reducible assumption | (intro _) | with_reducible apply State.modUp_keeps | fail_if_no_progress with_reducible apply Keeps.upd | dsimp only | split)

theorem State.rangingBurst_keeps {r : State} (s : State) (p : Profile) (g : Grant) (late : Nat) (m : List Byte) (alarm : Bool) (h0 : Keeps r s) : Keeps r (State.rangingBurst s p g late m alarm).1 := by
  unfold State.rangingBurst
  conv => zeta
  repeat' (first | with_reducible assumption | (intro _) | with_reducible apply State.windowOk_keeps | with_reducible apply State.windowOk_keeps_eq (e := by with_reducible assumption) | with_reducible apply State.admitBurst_keeps | with_reducible apply State.admitBurst_keeps_eq (e := by with_reducible assumption) | with_reducible apply State.launch_keeps | fail_if_no_progress with_reducible apply Keeps.upd | dsimp only | split)

theorem State.rangingBurst_keeps_eq {r : State} (s : State) (p : Profile) (g : Grant) (late : Nat) (m : List Byte) (alarm : Bool) {xx tt} (e : State.rangingBurst s p g late m alarm = (tt, xx)) (h0 : Keeps r s) : Keeps r tt := by
  have q := State.rangingBurst_keeps (r := r) s p g late m alarm h0
  rw [e] at q
  exact q

theorem State.discovery_keeps {r : State} (s : State) (p : Profile) (g : Grant) (h0 : Keeps r s) : Keeps r (State.discovery s p g) := by
  unfold State.discovery
  conv => zeta
  repeat' (first | with_reducible assumption | (intro _) | with_reducible apply State.modTm_keeps | with_reducible apply State.drawBelow_keeps | with_reducible apply State.drawBelow_keeps_eq (e := by with_reducible assumption) | with_reducible apply State.rangingBurst_keeps | with_reducible apply State.rangingBurst_keeps_eq (e := by with_reducible assumption) | with_reducible apply State.count_keeps | fail_if_no_progress with_reducible apply Keeps.upd | dsimp only | split)

theorem State.chimney_keeps {r : State} (s : State) (p : Profile) (g : Grant) (h0 : Keeps r s) : Keeps r (State.chimney s p g) := by
  unfold State.chimney
  conv => zeta
  repeat' (first | with_reducible assumption | (intro _) | with_reducible apply State.modUp_keeps | with_reducible apply State.windowOk_keeps | with_reducible apply State.windowOk_keeps_eq (e := by with_reducible assumption) | with_reducible apply State.admitBurst_keeps | with_reducible apply State.admitBurst_keeps_eq (e := by with_reducible assumption) | with_reducible apply State.modCmd_keeps | with_reducible apply State.launch_keeps | fail_if_no_progress with_reducible apply Keeps.upd | dsimp only | split)

theorem State.ordinary_keeps {r : State} (s : State) (p : Profile) (g : Grant) (slot : Nat) (h0 : Keeps r s) : Keeps r (State.ordinary s p g slot) := by
  unfold State.ordinary
  conv => zeta
  repeat' (first | with_reducible assumption | (intro _) | with_reducible apply State.windowOk_keeps | with_reducible apply State.windowOk_keeps_eq (e := by with_reducible assumption) | with_reducible apply State.modUp_keeps | with_reducible apply State.reserve_keeps | with_reducible apply State.reserve_keeps_eq (e := by with_reducible assumption) | with_reducible apply State.fillLoop_keeps | with_reducible apply State.fillLoop_keeps_eq (e := by with_reducible assumption) | with_reducible apply State.admitBurst_keeps | with_reducible apply State.admitBurst_keeps_eq (e := by with_reducible assumption) | with_reducible apply State.launch_keeps | fail_if_no_progress with_reducible apply Keeps.upd | dsimp only | split)

theorem State.fillGrant_keeps {r : State} (s : State) (g : Grant) (h0 : Keeps r s) : Keeps r (State.fillGrant s g) := by
  unfold State.fillGrant
  conv => zeta
  repeat' (first | with_reducible assumption | (intro _) | with_reducible apply State.discovery_keeps | with_reducible apply State.chimney_keeps | with_reducible apply State.rangingBurst_keeps | with_reducible apply State.rangingBurst_keeps_eq (e := by with_reducible assumption) | with_reducible apply State.ordinary_keeps | fail_if_no_progress with_reducible apply Keeps.upd | dsimp only | split)

theorem State.fillInstant_keeps {r : State} (s : State) (h0 : Keeps r s) : Keeps r (State.fillInstant s) := by
  unfold State.fillInstant
  conv => zeta
  repeat' (first | with_reducible assumption | (intro _) | with_reducible apply State.fillGrant_keeps | with_reducible apply State.modTd_keeps | fail_if_no_progress with_reducible apply Keeps.upd | dsimp only | split)

theorem State.burstUnsent_keeps {r : State} (s : State) (b : Burst) (h0 : Keeps r s) : Keeps r (State.burstUnsent s b) := by
  unfold State.burstUnsent
  conv => zeta
  repeat' (first | with_reducible assumption | (intro _) | with_reducible apply State.refund_keeps | with_reducible apply State.modUp_keeps | with_reducible apply State.modCmd_keeps | fail_if_no_progress with_reducible apply Keeps.upd | dsimp only | split)

theorem State.burstStart_keeps {r : State} (s : State) (h0 : Keeps r s) : Keeps r (State.burstStart s) := by
  unfold State.burstStart
  conv => zeta
  repeat' (first | with_reducible assumption | (intro _) | with_reducible apply State.modUp_keeps | with_reducible apply State.burstUnsent_keeps | with_reducible apply State.count_keeps | with_reducible apply State.decline_keeps | fail_if_no_progress with_reducible apply Keeps.upd | dsimp only | split)

theorem State.chimneyWaitEnd_keeps {r : State} (s : State) (h0 : Keeps r s) : Keeps r (State.chimneyWaitEnd s) := by
  unfold State.chimneyWaitEnd
  conv => zeta
  repeat' (first | with_reducible assumption | (intro _) | with_reducible apply State.modUp_keeps | with_reducible apply State.drawBelow_keeps | with_reducible apply State.drawBelow_keeps_eq (e := by with_reducible assumption) | with_reducible apply State.notify_keeps | with_reducible apply State.count_keeps | with_reducible apply State.modCmd_keeps | fail_if_no_progress with_reducible apply Keeps.upd | with_reducible apply Keeps.foldl | with_reducible apply Keeps.foldl_fst | with_reducible apply Keeps.foldl_snd | dsimp only | split)

theorem State.chimneyAcked_keeps {r : State} (s : State) (h0 : Keeps r s) : Keeps r (State.chimneyAcked s) := by
  unfold State.chimneyAcked
  conv => zeta
  repeat' (first | with_reducible assumption | (intro _) | with_reducible apply State.modUp_keeps | fail_if_no_progress with_reducible apply Keeps.upd | dsimp only | split)

theorem State.keyDrop_keeps {r : State} (s : State) (h0 : Keeps r s) : Keeps r (State.keyDrop s) := by
  unfold State.keyDrop
  conv => zeta
  repeat' (first | with_reducible assumption | (intro _) | with_reducible apply State.ash_keeps | with_reducible apply State.countN_keeps | with_reducible apply State.modQueue_keeps | fail_if_no_progress with_reducible apply Keeps.upd | with_reducible apply Keeps.foldl | with_reducible apply Keeps.foldl_fst | with_reducible apply Keeps.foldl_snd | dsimp only | split)

theorem opUpStatus_keeps {r : State} (op : Nat) (p : List Byte) (s : State) (h0 : Keeps r s) : Keeps r (opUpStatus op p s) := by
  unfold opUpStatus
  conv => zeta
  repeat' (first | with_reducible assumption | (intro _) | with_reducible apply State.finish_keeps | fail_if_no_progress with_reducible apply Keeps.upd | dsimp only | split)

theorem opUpAdmitTest_keeps {r : State} (op : Nat) (p : List Byte) (s : State) (h0 : Keeps r s) : Keeps r (opUpAdmitTest op p s) := by
  unfold opUpAdmitTest
  conv => zeta
  repeat' (first | with_reducible assumption | (intro _) | with_reducible apply State.finish_keeps | fail_if_no_progress with_reducible apply Keeps.upd | dsimp only | split)

end Sys2Proof.Machine
end

