-- ==== Sys2Proof/Laws/KeepsTributary.lean ====
section
/-! SUPPORT. The operations of Machine/Tributary.lean keep what every operation inside a command keeps (`Keeps`). -/

namespace Sys2Proof.Machine

set_option linter.unusedTactic false
set_option linter.unreachableTactic false
set_option linter.unusedVariables false
set_option linter.unnecessarySeqFocus false

theorem State.modTrib_keeps {r : State} (s : State) (a1 : Nat) (f : Trib → Trib) (h0 : Keeps r s) : Keeps r (State.modTrib s a1 f) := by
  unfold State.modTrib
  conv => zeta
  repeat' (first | with_reducible assumption | (intro _) | with_reducible apply State.modTb_keeps | fail_if_no_progress with_reducible apply Keeps.upd | dsimp only | split)

theorem State.tbNotice_keeps {r : State} (s : State) (a1 : Nat) (dir : Nat) (old : Nat) (new : Nat) (h0 : Keeps r s) : Keeps r (State.tbNotice s a1 dir old new) := by
  unfold State.tbNotice
  conv => zeta
  repeat' (first | with_reducible assumption | (intro _) | with_reducible apply State.raise_keeps | fail_if_no_progress with_reducible apply Keeps.upd | dsimp only | split)

theorem State.setEgress_keeps {r : State} (s : State) (a1 : Nat) (new : Nat) (h0 : Keeps r s) : Keeps r (State.setEgress s a1 new) := by
  unfold State.setEgress
  conv => zeta
  repeat' (first | with_reducible assumption | (intro _) | with_reducible apply State.tbNotice_keeps | with_reducible apply State.modTrib_keeps | fail_if_no_progress with_reducible apply Keeps.upd | dsimp only | split)

theorem State.setIngress_keeps {r : State} (s : State) (a1 : Nat) (new : Nat) (h0 : Keeps r s) : Keeps r (State.setIngress s a1 new) := by
  unfold State.setIngress
  conv => zeta
  repeat' (first | with_reducible assumption | (intro _) | with_reducible apply State.tbNotice_keeps | with_reducible apply State.modTrib_keeps | fail_if_no_progress with_reducible apply Keeps.upd | dsimp only | split)

theorem State.tribFollow_keeps {r : State} (s : State) (a1 : Nat) (h0 : Keeps r s) : Keeps r (State.tribFollow s a1) := by
  unfold State.tribFollow
  conv => zeta
  repeat' (first | with_reducible assumption | (intro _) | with_reducible apply State.setIngress_keeps | with_reducible apply State.setEgress_keeps | fail_if_no_progress with_reducible apply Keeps.upd | dsimp only | split)

theorem State.tribsFollow_keeps {r : State} (s : State) (h0 : Keeps r s) : Keeps r (State.tribsFollow s) := by
  unfold State.tribsFollow
  conv => zeta
  repeat' (first | with_reducible assumption | (intro _) | with_reducible apply State.tribFollow_keeps | fail_if_no_progress with_reducible apply Keeps.upd | with_reducible apply Keeps.foldl | with_reducible apply Keeps.foldl_fst | with_reducible apply Keeps.foldl_snd | dsimp only | split)

theorem State.closeContainer_keeps {r : State} (s : State) (a1 : Nat) (h0 : Keeps r s) : Keeps r (State.closeContainer s a1).1 := by
  unfold State.closeContainer
  conv => zeta
  repeat' (first | with_reducible assumption | (intro _) | with_reducible apply State.drawBelow_keeps | with_reducible apply State.drawBelow_keeps_eq (e := by with_reducible assumption) | with_reducible apply State.count_keeps | with_reducible apply State.modTrib_keeps | fail_if_no_progress with_reducible apply Keeps.upd | dsimp only | split)

theorem State.closeContainer_keeps_eq {r : State} (s : State) (a1 : Nat) {xx tt} (e : State.closeContainer s a1 = (tt, xx)) (h0 : Keeps r s) : Keeps r tt := by
  have q := State.closeContainer_keeps (r := r) s a1 h0
  rw [e] at q
  exact q

theorem State.tribCount_keeps {r : State} (s : State) (m : Nat) (a : Nat) (hi : Nat) (lo : Nat) (h0 : Keeps r s) : Keeps r (State.tribCount s m a hi lo) := by
  unfold State.tribCount
  conv => zeta
  repeat' (first | with_reducible assumption | (intro _) | with_reducible apply State.count_keeps | with_reducible apply State.sendMsg_keeps | fail_if_no_progress with_reducible apply Keeps.upd | dsimp only | split)

theorem State.noteRemote_keeps {r : State} (s : State) (member : Nat) (a2 : Nat) (slot : Nat) (port : Nat) (data : List Byte) (h0 : Keeps r s) : Keeps r (State.noteRemote s member a2 slot port data) := by
  unfold State.noteRemote
  conv => zeta
  repeat' (first | with_reducible assumption | (intro _) | with_reducible apply State.modTb_keeps | fail_if_no_progress with_reducible apply Keeps.upd | dsimp only | split)

theorem State.holdContainer_keeps {r : State} (s : State) (member : Nat) (a2 : Nat) (slot : Nat) (up : Nat) (data : List Byte) (h0 : Keeps r s) : Keeps r (State.holdContainer s member a2 slot up data) := by
  unfold State.holdContainer
  conv => zeta
  repeat' (first | with_reducible assumption | (intro _) | with_reducible apply State.modTb_keeps | with_reducible apply State.tribCount_keeps | with_reducible apply State.submit_keeps | with_reducible apply State.submit_keeps_eq (e := by with_reducible assumption) | fail_if_no_progress with_reducible apply Keeps.upd | dsimp only | split)

theorem State.remoteContainer_keeps {r : State} (s : State) (member : Nat) (a2 : Nat) (slot : Nat) (up : Nat) (data : List Byte) (h0 : Keeps r s) : Keeps r (State.remoteContainer s member a2 slot up data) := by
  unfold State.remoteContainer
  conv => zeta
  repeat' (first | with_reducible assumption | (intro _) | with_reducible apply State.noteRemote_keeps | with_reducible apply State.holdContainer_keeps | fail_if_no_progress with_reducible apply Keeps.upd | dsimp only | split)

theorem State.tribReleased_keeps {r : State} (s : State) (a1 : Nat) (h0 : Keeps r s) : Keeps r (State.tribReleased s a1) := by
  unfold State.tribReleased
  conv => zeta
  repeat' (first | with_reducible assumption | (intro _) | with_reducible apply State.sendMsg_keeps | fail_if_no_progress with_reducible apply Keeps.upd | dsimp only | split)

theorem State.closeTrib_keeps {r : State} (s : State) (a1 : Nat) (bits_ : List Bool) (h0 : Keeps r s) : Keeps r (State.closeTrib s a1 bits_) := by
  unfold State.closeTrib
  conv => zeta
  repeat' (first | with_reducible assumption | (intro _) | with_reducible apply State.modTrib_keeps | with_reducible apply State.setIngress_keeps | with_reducible apply State.closeContainer_keeps | with_reducible apply State.closeContainer_keeps_eq (e := by with_reducible assumption) | with_reducible apply State.holdContainer_keeps | with_reducible apply State.sendMsg_keeps | fail_if_no_progress with_reducible apply Keeps.upd | dsimp only | split)

theorem State.dropContainers_keeps {r : State} (s : State) (h0 : Keeps r s) : Keeps r (State.dropContainers s) := by
  unfold State.dropContainers
  conv => zeta
  repeat' (first | with_reducible assumption | (intro _) | with_reducible apply State.countN_keeps | with_reducible apply State.modTb_keeps | fail_if_no_progress with_reducible apply Keeps.upd | dsimp only | split)

theorem State.frameBoundary_keeps {r : State} (s : State) (rx : List (List Bool)) (h0 : Keeps r s) : Keeps r (State.frameBoundary s rx) := by
  unfold State.frameBoundary
  conv => zeta
  repeat' (first | with_reducible assumption | (intro _) | with_reducible apply State.modTb_keeps | with_reducible apply State.modUp_keeps | with_reducible apply State.dropContainers_keeps | with_reducible apply State.damperBoundary_keeps | with_reducible apply State.closeTrib_keeps | fail_if_no_progress with_reducible apply Keeps.upd | with_reducible apply Keeps.foldl | with_reducible apply Keeps.foldl_fst | with_reducible apply Keeps.foldl_snd | dsimp only | split)

theorem State.rxcWindow_keeps {r : State} (s : State) (a1 : Nat) (edges : Nat) (h0 : Keeps r s) : Keeps r (State.rxcWindow s a1 edges) := by
  unfold State.rxcWindow
  conv => zeta
  repeat' (first | with_reducible assumption | (intro _) | with_reducible apply State.setIngress_keeps | with_reducible apply State.modTrib_keeps | fail_if_no_progress with_reducible apply Keeps.upd | dsimp only | split)

theorem State.playOut_keeps {r : State} (s : State) (a1 : Nat) (h0 : Keeps r s) : Keeps r (State.playOut s a1) := by
  unfold State.playOut
  conv => zeta
  repeat' (first | with_reducible assumption | (intro _) | with_reducible apply State.drawBelow_keeps | with_reducible apply State.drawBelow_keeps_eq (e := by with_reducible assumption) | with_reducible apply State.modTrib_keeps | with_reducible apply State.count_keeps | fail_if_no_progress with_reducible apply Keeps.upd | dsimp only | split)

theorem State.appendBits_keeps {r : State} (s : State) (a1 : Nat) (b : List Bool) (h0 : Keeps r s) : Keeps r (State.appendBits s a1 b) := by
  unfold State.appendBits
  conv => zeta
  repeat' (first | with_reducible assumption | (intro _) | with_reducible apply State.count_keeps | with_reducible apply State.modTrib_keeps | fail_if_no_progress with_reducible apply Keeps.upd | dsimp only | split)

theorem State.farFail_keeps {r : State} (s : State) (a1 : Nat) (fail : Bool) (h0 : Keeps r s) : Keeps r (State.farFail s a1 fail) := by
  unfold State.farFail
  conv => zeta
  repeat' (first | with_reducible assumption | (intro _) | with_reducible apply State.tbNotice_keeps | with_reducible apply State.modTrib_keeps | fail_if_no_progress with_reducible apply Keeps.upd | dsimp only | split)

theorem State.judgeFrame_keeps {r : State} (s : State) (a1 : Nat) (c : Option (List Byte)) (h0 : Keeps r s) : Keeps r (State.judgeFrame s a1 c) := by
  unfold State.judgeFrame
  conv => zeta
  repeat' (first | with_reducible assumption | (intro _) | with_reducible apply State.farFail_keeps | with_reducible apply State.countN_keeps | with_reducible apply State.modTrib_keeps | with_reducible apply State.appendBits_keeps | with_reducible apply State.setEgress_keeps | with_reducible apply State.count_keeps | fail_if_no_progress with_reducible apply Keeps.upd | dsimp only | split)

theorem State.judgeTrib_keeps {r : State} (s : State) (a1 : Nat) (h0 : Keeps r s) : Keeps r (State.judgeTrib s a1) := by
  unfold State.judgeTrib
  conv => zeta
  repeat' (first | with_reducible assumption | (intro _) | with_reducible apply State.modTd_keeps | with_reducible apply State.countN_keeps | with_reducible apply State.judgeFrame_keeps | with_reducible apply State.playOut_keeps | fail_if_no_progress with_reducible apply Keeps.upd | dsimp only | split)

theorem State.containerJudge_keeps {r : State} (s : State) (h0 : Keeps r s) : Keeps r (State.containerJudge s) := by
  unfold State.containerJudge
  conv => zeta
  repeat' (first | with_reducible assumption | (intro _) | with_reducible apply State.judgeTrib_keeps | with_reducible apply State.modTb_keeps | fail_if_no_progress with_reducible apply Keeps.upd | with_reducible apply Keeps.foldl | with_reducible apply Keeps.foldl_fst | with_reducible apply Keeps.foldl_snd | dsimp only | split)

theorem opTbStatus_keeps {r : State} (op : Nat) (p : List Byte) (s : State) (h0 : Keeps r s) : Keeps r (opTbStatus op p s) := by
  unfold opTbStatus
  conv => zeta
  repeat' (first | with_reducible assumption | (intro _) | with_reducible apply State.finish_keeps | fail_if_no_progress with_reducible apply Keeps.upd | dsimp only | split)

end Sys2Proof.Machine
end

