-- ==== Sys2Proof/Laws/KeepsMeter.lean ====
section
/-! SUPPORT. The operations of Machine/Meter.lean keep what every operation inside a command keeps (`Keeps`). -/

namespace Sys2Proof.Machine

set_option linter.unusedTactic false
set_option linter.unreachableTactic false
set_option linter.unusedVariables false
set_option linter.unnecessarySeqFocus false

theorem State.modMp_keeps {r : State} (s : State) (f : Meter → Meter) (h0 : Keeps r s) : Keeps r (State.modMp s f) := by
  unfold State.modMp
  conv => zeta
  repeat' (first | with_reducible assumption | (intro _) | fail_if_no_progress with_reducible apply Keeps.upd | dsimp only | split)

theorem State.modPort_keeps {r : State} (s : State) (n : Nat) (f : MPort → MPort) (h0 : Keeps r s) : Keeps r (State.modPort s n f) := by
  unfold State.modPort
  conv => zeta
  repeat' (first | with_reducible assumption | (intro _) | with_reducible apply State.modMp_keeps | fail_if_no_progress with_reducible apply Keeps.upd | dsimp only | split)

theorem State.modProg_keeps {r : State} (s : State) (p : Nat) (f : Prog → Prog) (h0 : Keeps r s) : Keeps r (State.modProg s p f) := by
  unfold State.modProg
  conv => zeta
  repeat' (first | with_reducible assumption | (intro _) | with_reducible apply State.modMp_keeps | fail_if_no_progress with_reducible apply Keeps.upd | dsimp only | split)

theorem State.offerResult_keeps {r : State} (s : State) (q : Nat) (b : List Byte) (h0 : Keeps r s) : Keeps r (State.offerResult s q b).1 := by
  unfold State.offerResult
  conv => zeta
  repeat' (first | with_reducible assumption | (intro _) | with_reducible apply State.enqueue_keeps | with_reducible apply State.enqueue_keeps_eq (e := by with_reducible assumption) | with_reducible apply State.sendMsg_keeps | fail_if_no_progress with_reducible apply Keeps.upd | dsimp only | split)

theorem State.offerResult_keeps_eq {r : State} (s : State) (q : Nat) (b : List Byte) {xx tt} (e : State.offerResult s q b = (tt, xx)) (h0 : Keeps r s) : Keeps r tt := by
  have q := State.offerResult_keeps (r := r) s q b h0
  rw [e] at q
  exact q

theorem State.holdResult_keeps {r : State} (s : State) (prog : Option Nat) (q : Nat) (b : List Byte) (h0 : Keeps r s) : Keeps r (State.holdResult s prog q b).1 := by
  unfold State.holdResult
  conv => zeta
  repeat' (first | with_reducible assumption | (intro _) | with_reducible apply State.modMp_keeps | with_reducible apply State.count_keeps | fail_if_no_progress with_reducible apply Keeps.upd | dsimp only | split)

theorem State.holdResult_keeps_eq {r : State} (s : State) (prog : Option Nat) (q : Nat) (b : List Byte) {xx tt} (e : State.holdResult s prog q b = (tt, xx)) (h0 : Keeps r s) : Keeps r tt := by
  have q := State.holdResult_keeps (r := r) s prog q b h0
  rw [e] at q
  exact q

theorem State.putResult_keeps {r : State} (s : State) (prog : Option Nat) (port : Nat) (b : List Byte) (h0 : Keeps r s) : Keeps r (State.putResult s prog port b).1 := by
  unfold State.putResult
  conv => zeta
  repeat' (first | with_reducible assumption | (intro _) | with_reducible apply State.offerResult_keeps | with_reducible apply State.offerResult_keeps_eq (e := by with_reducible assumption) | with_reducible apply State.holdResult_keeps | with_reducible apply State.holdResult_keeps_eq (e := by with_reducible assumption) | fail_if_no_progress with_reducible apply Keeps.upd | dsimp only | split)

theorem State.putResult_keeps_eq {r : State} (s : State) (prog : Option Nat) (port : Nat) (b : List Byte) {xx tt} (e : State.putResult s prog port b = (tt, xx)) (h0 : Keeps r s) : Keeps r tt := by
  have q := State.putResult_keeps (r := r) s prog port b h0
  rw [e] at q
  exact q

theorem State.endProg_keeps {r : State} (s : State) (p : Nat) (h0 : Keeps r s) : Keeps r (State.endProg s p) := by
  unfold State.endProg
  conv => zeta
  repeat' (first | with_reducible assumption | (intro _) | with_reducible apply State.finish?_keeps | with_reducible apply State.notify_keeps | with_reducible apply State.modProg_keeps | fail_if_no_progress with_reducible apply Keeps.upd | with_reducible apply Keeps.getD | dsimp only | split)

theorem State.stepDone_keeps {r : State} (s : State) (p : Nat) (i : Nat) (at_ : Nat) (h0 : Keeps r s) : Keeps r (State.stepDone s p i at_) := by
  unfold State.stepDone
  conv => zeta
  repeat' (first | with_reducible assumption | (intro _) | with_reducible apply State.modProg_keeps | with_reducible apply State.endProg_keeps | fail_if_no_progress with_reducible apply Keeps.upd | dsimp only | split)

theorem State.stopProg_keeps {r : State} (s : State) (p : Nat) (status : Nat) (h0 : Keeps r s) : Keeps r (State.stopProg s p status) := by
  unfold State.stopProg
  conv => zeta
  repeat' (first | with_reducible assumption | (intro _) | with_reducible apply State.modMp_keeps | with_reducible apply State.modProg_keeps | with_reducible apply State.endProg_keeps | fail_if_no_progress with_reducible apply Keeps.upd | dsimp only | split)

theorem State.stepResult_keeps {r : State} (s : State) (p : Nat) (i : Nat) (port : Nat) (b : List Byte) (h0 : Keeps r s) : Keeps r (State.stepResult s p i port b) := by
  unfold State.stepResult
  conv => zeta
  repeat' (first | with_reducible assumption | (intro _) | with_reducible apply State.putResult_keeps | with_reducible apply State.putResult_keeps_eq (e := by with_reducible assumption) | with_reducible apply State.stepDone_keeps | with_reducible apply State.stopProg_keeps | fail_if_no_progress with_reducible apply Keeps.upd | dsimp only | split)

theorem State.placeStep_keeps {r : State} (s : State) (p : Nat) {t : State} (h0 : Keeps r s) (e : State.placeStep s p = some t) : Keeps r t := by
  unfold State.placeStep at e
  conv at e => zeta
  (repeat' split at e) <;> (try cases e) <;> (try simp only [Option.some.injEq, Prod.mk.injEq] at e) <;> (try obtain ⟨_, e⟩ := e) <;> (try subst e)
  all_goals (repeat' (first | with_reducible assumption | (intro _) | with_reducible apply State.modProg_keeps | with_reducible apply State.modPort_keeps | with_reducible apply State.stepResult_keeps | fail_if_no_progress with_reducible apply Keeps.upd | dsimp only | split))

theorem State.placeSteps_keeps {r : State} (p : Nat) (a1 : Nat) (a2 : State) (h0 : Keeps r a2) : Keeps r (State.placeSteps p a1 a2) := by
  induction a1 generalizing p a2 with
  | zero => exact h0
  | succ k ih =>
    unfold State.placeSteps
    conv => zeta
    repeat' (first | with_reducible assumption | (intro _) | with_reducible apply ih | (with_reducible apply State.placeStep_keeps (e := by with_reducible assumption)) | fail_if_no_progress with_reducible apply Keeps.upd | dsimp only | split)

theorem State.progPump_keeps {r : State} (s : State) (h0 : Keeps r s) : Keeps r (State.progPump s) := by
  unfold State.progPump
  conv => zeta
  repeat' (first | with_reducible assumption | (intro _) | with_reducible apply State.placeSteps_keeps | fail_if_no_progress with_reducible apply Keeps.upd | with_reducible apply Keeps.foldl | with_reducible apply Keeps.foldl_fst | with_reducible apply Keeps.foldl_snd | dsimp only | split)

theorem State.startProg_keeps {r : State} (s : State) (p : Nat) (op : Option Nat) (h0 : Keeps r s) : Keeps r (State.startProg s p op) := by
  unfold State.startProg
  conv => zeta
  repeat' (first | with_reducible assumption | (intro _) | with_reducible apply State.finish?_keeps | with_reducible apply State.count_keeps | with_reducible apply State.notify_keeps | with_reducible apply State.finish_keeps | with_reducible apply State.progPump_keeps | with_reducible apply State.modProg_keeps | fail_if_no_progress with_reducible apply Keeps.upd | dsimp only | split)

theorem State.deliverXact_keeps {r : State} (s : State) (n : Nat) (a2 : Xact) (status : Nat) (flags : Nat) (stamp : List Byte) (reply : List Byte) (bad : Nat) (h0 : Keeps r s) : Keeps r (State.deliverXact s n a2 status flags stamp reply bad) := by
  unfold State.deliverXact
  conv => zeta
  repeat' (first | with_reducible assumption | (intro _) | with_reducible apply State.finish_keeps | with_reducible apply State.putResult_keeps | with_reducible apply State.putResult_keeps_eq (e := by with_reducible assumption) | with_reducible apply State.stepResult_keeps | fail_if_no_progress with_reducible apply Keeps.upd | dsimp only | split)

theorem State.endXact_keeps {r : State} (s : State) (n : Nat) (status : Nat) (at_ : Nat) (again : Bool) (h0 : Keeps r s) : Keeps r (State.endXact s n status at_ again) := by
  unfold State.endXact
  conv => zeta
  repeat' (first | with_reducible assumption | (intro _) | with_reducible apply State.count_keeps | with_reducible apply State.modPort_keeps | with_reducible apply State.progPump_keeps | with_reducible apply State.deliverXact_keeps | fail_if_no_progress with_reducible apply Keeps.upd | dsimp only | split)

theorem State.endQueued_keeps {r : State} (s : State) (n : Nat) (status : Nat) (a3 : Xact) (h0 : Keeps r s) : Keeps r (State.endQueued s n status a3) := by
  unfold State.endQueued
  conv => zeta
  repeat' (first | with_reducible assumption | (intro _) | with_reducible apply State.deliverXact_keeps | fail_if_no_progress with_reducible apply Keeps.upd | dsimp only | split)

theorem State.abandonPort_keeps {r : State} (s : State) (n : Nat) (h0 : Keeps r s) : Keeps r (State.abandonPort s n) := by
  unfold State.abandonPort
  conv => zeta
  repeat' (first | with_reducible assumption | (intro _) | with_reducible apply State.modPort_keeps | with_reducible apply State.endXact_keeps | with_reducible apply State.progPump_keeps | with_reducible apply State.endQueued_keeps | fail_if_no_progress with_reducible apply Keeps.upd | with_reducible apply Keeps.foldl | with_reducible apply Keeps.foldl_fst | with_reducible apply Keeps.foldl_snd | dsimp only | split)

theorem State.quarantinePort_keeps {r : State} (s : State) (n : Nat) (h0 : Keeps r s) : Keeps r (State.quarantinePort s n) := by
  unfold State.quarantinePort
  conv => zeta
  repeat' (first | with_reducible assumption | (intro _) | with_reducible apply State.endQueued_keeps | with_reducible apply State.modPort_keeps | fail_if_no_progress with_reducible apply Keeps.upd | with_reducible apply Keeps.foldl | with_reducible apply Keeps.foldl_fst | with_reducible apply Keeps.foldl_snd | dsimp only | split)

theorem State.metersFollow_keeps {r : State} (s : State) (h0 : Keeps r s) : Keeps r (State.metersFollow s) := by
  unfold State.metersFollow
  conv => zeta
  repeat' (first | with_reducible assumption | (intro _) | with_reducible apply State.abandonPort_keeps | with_reducible apply State.stopProg_keeps | with_reducible apply State.quarantinePort_keeps | fail_if_no_progress with_reducible apply Keeps.upd | with_reducible apply Keeps.foldl | with_reducible apply Keeps.foldl_fst | with_reducible apply Keeps.foldl_snd | dsimp only | split)

theorem State.xactStart_keeps {r : State} (s : State) (n : Nat) (h0 : Keeps r s) : Keeps r (State.xactStart s n) := by
  unfold State.xactStart
  conv => zeta
  repeat' (first | with_reducible assumption | (intro _) | with_reducible apply State.modPort_keeps | fail_if_no_progress with_reducible apply Keeps.upd | dsimp only | split)

theorem State.requestSent_keeps {r : State} (s : State) (n : Nat) (h0 : Keeps r s) : Keeps r (State.requestSent s n) := by
  unfold State.requestSent
  conv => zeta
  repeat' (first | with_reducible assumption | (intro _) | with_reducible apply State.endXact_keeps | with_reducible apply State.modPort_keeps | fail_if_no_progress with_reducible apply Keeps.upd | dsimp only | split)

theorem State.frameDone_keeps {r : State} (s : State) (n : Nat) (status : Nat) (at_ : Nat) (h0 : Keeps r s) : Keeps r (State.frameDone s n status at_) := by
  unfold State.frameDone
  conv => zeta
  repeat' (first | with_reducible assumption | (intro _) | with_reducible apply State.endXact_keeps | with_reducible apply State.modPort_keeps | with_reducible apply State.putResult_keeps | with_reducible apply State.putResult_keeps_eq (e := by with_reducible assumption) | with_reducible apply State.count_keeps | fail_if_no_progress with_reducible apply Keeps.upd | dsimp only | split)

theorem State.charIn_keeps {r : State} (s : State) (n : Nat) (c : Byte) (isBad : Bool) (at_ : Nat) (h0 : Keeps r s) : Keeps r (State.charIn s n c isBad at_) := by
  unfold State.charIn
  conv => zeta
  repeat' (first | with_reducible assumption | (intro _) | with_reducible apply State.modPort_keeps | with_reducible apply State.frameDone_keeps | fail_if_no_progress with_reducible apply Keeps.upd | dsimp only | split)

theorem State.noReply_keeps {r : State} (s : State) (n : Nat) (h0 : Keeps r s) : Keeps r (State.noReply s n) := by
  unfold State.noReply
  conv => zeta
  repeat' (first | with_reducible assumption | (intro _) | with_reducible apply State.endXact_keeps | fail_if_no_progress with_reducible apply Keeps.upd | dsimp only | split)

theorem State.charReceived_keeps {r : State} (s0 : State) (n : Nat) (samples : List Nat) (second : Bool) (h0 : Keeps r s0) : Keeps r (State.charReceived s0 n samples second) := by
  unfold State.charReceived
  extract_lets +onlyGivenNames s
  have ks : Keeps r s := by
    unfold s
    conv => zeta
    repeat' (first | with_reducible assumption | (intro _) | with_reducible apply State.noReply_keeps | with_reducible apply State.charIn_keeps | with_reducible apply State.wake_keeps | with_reducible apply State.count_keeps | with_reducible apply State.countN_keeps | with_reducible apply State.modPort_keeps | fail_if_no_progress with_reducible apply Keeps.upd | dsimp only | split)
  try clear_value s
  conv => zeta
  repeat' (first | with_reducible assumption | (intro _) | with_reducible apply State.noReply_keeps | with_reducible apply State.charIn_keeps | with_reducible apply State.wake_keeps | with_reducible apply State.count_keeps | with_reducible apply State.countN_keeps | with_reducible apply State.modPort_keeps | fail_if_no_progress with_reducible apply Keeps.upd | dsimp only | split)

theorem State.idleGap_keeps {r : State} (s : State) (n : Nat) (h0 : Keeps r s) : Keeps r (State.idleGap s n) := by
  unfold State.idleGap
  conv => zeta
  repeat' (first | with_reducible assumption | (intro _) | with_reducible apply State.frameDone_keeps | fail_if_no_progress with_reducible apply Keeps.upd | dsimp only | split)

theorem State.interTimeout_keeps {r : State} (s : State) (n : Nat) (h0 : Keeps r s) : Keeps r (State.interTimeout s n) := by
  unfold State.interTimeout
  conv => zeta
  repeat' (first | with_reducible assumption | (intro _) | with_reducible apply State.frameDone_keeps | fail_if_no_progress with_reducible apply Keeps.upd | dsimp only | split)

theorem State.busLow_keeps {r : State} (s : State) (n : Nat) (h0 : Keeps r s) : Keeps r (State.busLow s n) := by
  unfold State.busLow
  conv => zeta
  repeat' (first | with_reducible assumption | (intro _) | with_reducible apply State.notify_keeps | with_reducible apply State.count_keeps | with_reducible apply State.modPort_keeps | with_reducible apply State.endXact_keeps | fail_if_no_progress with_reducible apply Keeps.upd | dsimp only | split)

theorem State.busReleased_keeps {r : State} (s : State) (n : Nat) (h0 : Keeps r s) : Keeps r (State.busReleased s n) := by
  unfold State.busReleased
  conv => zeta
  repeat' (first | with_reducible assumption | (intro _) | with_reducible apply State.notify_keeps | with_reducible apply State.modPort_keeps | fail_if_no_progress with_reducible apply Keeps.upd | dsimp only | split)

theorem State.sduResult_keeps {r : State} (s : State) (port : Nat) (ref : Nat) (status : Nat) (h0 : Keeps r s) : Keeps r (State.sduResult s port ref status) := by
  unfold State.sduResult
  conv => zeta
  repeat' (first | with_reducible assumption | (intro _) | with_reducible apply State.putResult_keeps | with_reducible apply State.putResult_keeps_eq (e := by with_reducible assumption) | fail_if_no_progress with_reducible apply Keeps.upd | dsimp only | split)

theorem State.meterSdu_keeps {r : State} (s : State) (b : List Byte) (distrust : Bool) (h0 : Keeps r s) : Keeps r (State.meterSdu s b distrust) := by
  unfold State.meterSdu
  conv => zeta
  repeat' (first | with_reducible assumption | (intro _) | with_reducible apply State.count_keeps | with_reducible apply State.sduResult_keeps | with_reducible apply State.modPort_keeps | fail_if_no_progress with_reducible apply Keeps.upd | dsimp only | split)

theorem State.meterSduIn_keeps {r : State} (s : State) (h0 : Keeps r s) : Keeps r (State.meterSduIn s) := by
  unfold State.meterSduIn
  conv => zeta
  repeat' (first | with_reducible assumption | (intro _) | (with_reducible apply State.takeSdu_keeps (e := by with_reducible assumption)) | with_reducible apply State.meterSdu_keeps | fail_if_no_progress with_reducible apply Keeps.upd | dsimp only | split)

theorem State.holdOffer_keeps {r : State} (s : State) (h0 : Keeps r s) : Keeps r (State.holdOffer s) := by
  unfold State.holdOffer
  conv => zeta
  repeat' (first | with_reducible assumption | (intro _) | with_reducible apply State.offerResult_keeps | with_reducible apply State.offerResult_keeps_eq (e := by with_reducible assumption) | with_reducible apply State.modMp_keeps | fail_if_no_progress with_reducible apply Keeps.upd | with_reducible apply Keeps.foldl | with_reducible apply Keeps.foldl_fst | with_reducible apply Keeps.foldl_snd | dsimp only | split)

theorem opMpXact_keeps {r : State} (op : Nat) (p : List Byte) (s : State) (h0 : Keeps r s) : Keeps r (opMpXact op p s) := by
  unfold opMpXact
  conv => zeta
  repeat' (first | with_reducible assumption | (intro _) | with_reducible apply State.finish_keeps | with_reducible apply State.modPort_keeps | fail_if_no_progress with_reducible apply Keeps.upd | dsimp only | split)

theorem opMpStatus_keeps {r : State} (op : Nat) (p : List Byte) (s : State) (h0 : Keeps r s) : Keeps r (opMpStatus op p s) := by
  unfold opMpStatus
  conv => zeta
  repeat' (first | with_reducible assumption | (intro _) | with_reducible apply State.finish_keeps | fail_if_no_progress with_reducible apply Keeps.upd | dsimp only | split)

theorem State.dropProg_keeps {r : State} (s : State) (p : Nat) (h0 : Keeps r s) : Keeps r (State.dropProg s p) := by
  unfold State.dropProg
  conv => zeta
  repeat' (first | with_reducible assumption | (intro _) | with_reducible apply State.modProg_keeps | fail_if_no_progress with_reducible apply Keeps.upd | dsimp only | split)

theorem State.loadProg_keeps {r : State} (s : State) (b : List Byte) (h0 : Keeps r s) : Keeps r (State.loadProg s b).1 := by
  unfold State.loadProg
  conv => zeta
  repeat' (first | with_reducible assumption | (intro _) | with_reducible apply State.dropProg_keeps | with_reducible apply State.modProg_keeps | fail_if_no_progress with_reducible apply Keeps.upd | dsimp only | split)

theorem State.loadProg_keeps_eq {r : State} (s : State) (b : List Byte) {xx tt} (e : State.loadProg s b = (tt, xx)) (h0 : Keeps r s) : Keeps r tt := by
  have q := State.loadProg_keeps (r := r) s b h0
  rw [e] at q
  exact q

theorem opMpProgLoad_keeps {r : State} (op : Nat) (p : List Byte) (s : State) (h0 : Keeps r s) : Keeps r (opMpProgLoad op p s) := by
  unfold opMpProgLoad
  conv => zeta
  repeat' (first | with_reducible assumption | (intro _) | with_reducible apply State.loadProg_keeps | with_reducible apply State.loadProg_keeps_eq (e := by with_reducible assumption) | with_reducible apply State.finish_keeps | fail_if_no_progress with_reducible apply Keeps.upd | dsimp only | split)

theorem opMpProgStart_keeps {r : State} (op : Nat) (p : List Byte) (s : State) (h0 : Keeps r s) : Keeps r (opMpProgStart op p s) := by
  unfold opMpProgStart
  conv => zeta
  repeat' (first | with_reducible assumption | (intro _) | with_reducible apply State.finish_keeps | with_reducible apply State.startProg_keeps | fail_if_no_progress with_reducible apply Keeps.upd | dsimp only | split)

theorem opMpProgStop_keeps {r : State} (op : Nat) (p : List Byte) (s : State) (h0 : Keeps r s) : Keeps r (opMpProgStop op p s) := by
  unfold opMpProgStop
  conv => zeta
  repeat' (first | with_reducible assumption | (intro _) | with_reducible apply State.finish_keeps | with_reducible apply State.stopProg_keeps | fail_if_no_progress with_reducible apply Keeps.upd | dsimp only | split)

theorem opMpProgStatus_keeps {r : State} (op : Nat) (p : List Byte) (s : State) (h0 : Keeps r s) : Keeps r (opMpProgStatus op p s) := by
  unfold opMpProgStatus
  conv => zeta
  repeat' (first | with_reducible assumption | (intro _) | with_reducible apply State.finish_keeps | fail_if_no_progress with_reducible apply Keeps.upd | dsimp only | split)

end Sys2Proof.Machine
end

