-- ==== Sys2Proof/Laws/KeepsEthernet.lean ====
section
/-! SUPPORT. The operations of Machine/Ethernet.lean keep what every operation inside a command keeps (`Keeps`). -/

namespace Sys2Proof.Machine

set_option linter.unusedTactic false
set_option linter.unreachableTactic false
set_option linter.unusedVariables false
set_option linter.unnecessarySeqFocus false

theorem State.modEm_keeps {r : State} (s : State) (f : Ether → Ether) (h0 : Keeps r s) : Keeps r (State.modEm s f) := by
  unfold State.modEm
  conv => zeta
  repeat' (first | with_reducible assumption | (intro _) | fail_if_no_progress with_reducible apply Keeps.upd | dsimp only | split)

theorem State.modEport_keeps {r : State} (s : State) (n : Nat) (f : EPort → EPort) (h0 : Keeps r s) : Keeps r (State.modEport s n f) := by
  unfold State.modEport
  conv => zeta
  repeat' (first | with_reducible assumption | (intro _) | with_reducible apply State.modEm_keeps | fail_if_no_progress with_reducible apply Keeps.upd | dsimp only | split)

theorem State.emCountN_keeps {r : State} (s : State) (n : Nat) (a2 : Nat) (amount : Nat) (h0 : Keeps r s) : Keeps r (State.emCountN s n a2 amount) := by
  unfold State.emCountN
  conv => zeta
  repeat' (first | with_reducible assumption | (intro _) | with_reducible apply State.countWrap_keeps | with_reducible apply State.modEport_keeps | with_reducible apply State.countN_keeps | fail_if_no_progress with_reducible apply Keeps.upd | dsimp only | split)

theorem State.emCount_keeps {r : State} (s : State) (n : Nat) (a2 : Nat) (h0 : Keeps r s) : Keeps r (State.emCount s n a2) := by
  unfold State.emCount
  conv => zeta
  repeat' (first | with_reducible assumption | (intro _) | with_reducible apply State.emCountN_keeps | fail_if_no_progress with_reducible apply Keeps.upd | dsimp only | split)

theorem State.emGroup_keeps {r : State} (s : State) (n : Nat) (a2 : Nat) (f : List Byte) (h0 : Keeps r s) : Keeps r (State.emGroup s n a2 f) := by
  unfold State.emGroup
  conv => zeta
  repeat' (first | with_reducible assumption | (intro _) | with_reducible apply State.emCount_keeps | fail_if_no_progress with_reducible apply Keeps.upd | dsimp only | split)

theorem State.emSuperframe_keeps {r : State} (s : State) (h0 : Keeps r s) : Keeps r (State.emSuperframe s) := by
  unfold State.emSuperframe
  conv => zeta
  repeat' (first | with_reducible assumption | (intro _) | with_reducible apply State.notify_keeps | with_reducible apply State.modEport_keeps | fail_if_no_progress with_reducible apply Keeps.upd | with_reducible apply Keeps.foldl | with_reducible apply Keeps.foldl_fst | with_reducible apply Keeps.foldl_snd | dsimp only | split)

theorem State.wireDone_keeps {r : State} (s : State) (n : Nat) (good : Bool) (h0 : Keeps r s) : Keeps r (State.wireDone s n good) := by
  unfold State.wireDone
  conv => zeta
  repeat' (first | with_reducible assumption | (intro _) | with_reducible apply State.modEport_keeps | with_reducible apply State.emCount_keeps | with_reducible apply State.emCountN_keeps | with_reducible apply State.emGroup_keeps | fail_if_no_progress with_reducible apply Keeps.upd | with_reducible apply Keeps.getD | dsimp only | split)

theorem State.wiresDone_keeps {r : State} (s : State) (h0 : Keeps r s) : Keeps r (State.wiresDone s) := by
  unfold State.wiresDone
  conv => zeta
  repeat' (first | with_reducible assumption | (intro _) | with_reducible apply State.wireDone_keeps | fail_if_no_progress with_reducible apply Keeps.upd | with_reducible apply Keeps.foldl | with_reducible apply Keeps.foldl_fst | with_reducible apply Keeps.foldl_snd | dsimp only | split)

theorem State.wireVerdict_keeps {r : State} (s : State) (n : Nat) (stream : Nat) (bytes : List Byte) (distrust : Bool) (h0 : Keeps r s) : Keeps r (State.wireVerdict s n stream bytes distrust) := by
  unfold State.wireVerdict
  conv => zeta
  repeat' (first | with_reducible assumption | (intro _) | with_reducible apply State.modEport_keeps | with_reducible apply State.wireDone_keeps | with_reducible apply State.emCount_keeps | with_reducible apply State.count_keeps | fail_if_no_progress with_reducible apply Keeps.upd | with_reducible apply Keeps.getD | dsimp only | split)

theorem State.macVerdict_keeps {r : State} (s : State) (n : Nat) (stream : Nat) (bytes : List Byte) (distrust : Bool) (h0 : Keeps r s) : Keeps r (State.macVerdict s n stream bytes distrust) := by
  unfold State.macVerdict
  conv => zeta
  repeat' (first | with_reducible assumption | (intro _) | with_reducible apply State.wireVerdict_keeps | with_reducible apply State.modEport_keeps | with_reducible apply State.wireDone_keeps | with_reducible apply State.emCountN_keeps | with_reducible apply State.count_keeps | with_reducible apply State.countN_keeps | fail_if_no_progress with_reducible apply Keeps.upd | with_reducible apply Keeps.getD | dsimp only | split)

theorem State.macSend_keeps {r : State} (s : State) (n : Nat) (bytes : List Byte) (whole : Bool) (stream : Option Nat) (h0 : Keeps r s) : Keeps r (State.macSend s n bytes whole stream).1 := by
  unfold State.macSend
  conv => zeta
  repeat' (first | with_reducible assumption | (intro _) | with_reducible apply State.emCount_keeps | with_reducible apply State.count_keeps | with_reducible apply State.modEport_keeps | fail_if_no_progress with_reducible apply Keeps.upd | dsimp only | split)

theorem State.macSend_keeps_eq {r : State} (s : State) (n : Nat) (bytes : List Byte) (whole : Bool) (stream : Option Nat) {xx tt} (e : State.macSend s n bytes whole stream = (tt, xx)) (h0 : Keeps r s) : Keeps r tt := by
  have q := State.macSend_keeps (r := r) s n bytes whole stream h0
  rw [e] at q
  exact q

theorem State.sendWhole_keeps {r : State} (s : State) (n : Nat) (bytes : List Byte) (distrust : Bool) (h0 : Keeps r s) : Keeps r (State.sendWhole s n bytes distrust) := by
  unfold State.sendWhole
  conv => zeta
  repeat' (first | with_reducible assumption | (intro _) | with_reducible apply State.macSend_keeps | with_reducible apply State.macSend_keeps_eq (e := by with_reducible assumption) | with_reducible apply State.countN_keeps | with_reducible apply State.modEport_keeps | fail_if_no_progress with_reducible apply Keeps.upd | dsimp only | split)

theorem State.ethSend_keeps {r : State} (s : State) (n : Nat) (h0 : Keeps r s) : Keeps r (State.ethSend s n) := by
  unfold State.ethSend
  conv => zeta
  repeat' (first | with_reducible assumption | (intro _) | with_reducible apply State.modTd_keeps | with_reducible apply State.sendWhole_keeps | with_reducible apply State.macSend_keeps | with_reducible apply State.macSend_keeps_eq (e := by with_reducible assumption) | with_reducible apply State.dropReasm_keeps | fail_if_no_progress with_reducible apply Keeps.upd | with_reducible apply Keeps.getD | dsimp only | split)

theorem State.ethFrameStart_keeps {r : State} (s : State) (n : Nat) (h0 : Keeps r s) : Keeps r (State.ethFrameStart s n) := by
  unfold State.ethFrameStart
  conv => zeta
  repeat' (first | with_reducible assumption | (intro _) | with_reducible apply State.emCount_keeps | with_reducible apply State.count_keeps | with_reducible apply State.modEport_keeps | fail_if_no_progress with_reducible apply Keeps.upd | dsimp only | split)

theorem State.offerColoured_keeps {r : State} (s : State) (member : Nat) (p : Nat) (q : Nat) (colour : Nat) (sdu : List Byte) (h0 : Keeps r s) : Keeps r (State.offerColoured s member p q colour sdu) := by
  unfold State.offerColoured
  conv => zeta
  repeat' (first | with_reducible assumption | (intro _) | with_reducible apply State.count_keeps | with_reducible apply State.sendMsg_keeps | with_reducible apply State.enqueue_keeps | with_reducible apply State.enqueue_keeps_eq (e := by with_reducible assumption) | fail_if_no_progress with_reducible apply Keeps.upd | dsimp only | split)

theorem State.rxHold_keeps {r : State} (s : State) (n : Nat) (f : List Byte) (h0 : Keeps r s) : Keeps r (State.rxHold s n f) := by
  unfold State.rxHold
  conv => zeta
  repeat' (first | with_reducible assumption | (intro _) | with_reducible apply State.emCount_keeps | with_reducible apply State.count_keeps | with_reducible apply State.modEport_keeps | fail_if_no_progress with_reducible apply Keeps.upd | dsimp only | split)

theorem State.bridgeUp_keeps {r : State} (s : State) (n : Nat) (a2 : RxFrame) (h0 : Keeps r s) : Keeps r (State.bridgeUp s n a2) := by
  unfold State.bridgeUp
  conv => zeta
  repeat' (first | with_reducible assumption | (intro _) | with_reducible apply State.emCount_keeps | with_reducible apply State.police_keeps | with_reducible apply State.police_keeps_eq (e := by with_reducible assumption) | with_reducible apply State.count_keeps | with_reducible apply State.offerColoured_keeps | with_reducible apply State.sendMsg_keeps | fail_if_no_progress with_reducible apply Keeps.upd | dsimp only | split)

theorem State.meterFrames_keeps {r : State} (s : State) (h0 : Keeps r s) : Keeps r (State.meterFrames s) := by
  unfold State.meterFrames
  conv => zeta
  repeat' (first | with_reducible assumption | (intro _) | with_reducible apply State.bridgeUp_keeps | with_reducible apply State.modEport_keeps | fail_if_no_progress with_reducible apply Keeps.upd | with_reducible apply Keeps.foldl | with_reducible apply Keeps.foldl_fst | with_reducible apply Keeps.foldl_snd | dsimp only | split)

theorem State.ethFrameRx_keeps {r : State} (s : State) (n : Nat) (f : List Byte) (symbol : Bool) (h0 : Keeps r s) : Keeps r (State.ethFrameRx s n f symbol) := by
  unfold State.ethFrameRx
  conv => zeta
  repeat' (first | with_reducible assumption | (intro _) | with_reducible apply State.wake_keeps | with_reducible apply State.emCount_keeps | with_reducible apply State.emGroup_keeps | with_reducible apply State.emCountN_keeps | with_reducible apply State.modEport_keeps | with_reducible apply State.rxHold_keeps | fail_if_no_progress with_reducible apply Keeps.upd | dsimp only | split)

theorem State.pauseExpiry_keeps {r : State} (s : State) (n : Nat) (h0 : Keeps r s) : Keeps r (State.pauseExpiry s n) := by
  unfold State.pauseExpiry
  conv => zeta
  repeat' (first | with_reducible assumption | (intro _) | with_reducible apply State.modEport_keeps | fail_if_no_progress with_reducible apply Keeps.upd | dsimp only | split)

theorem State.emLink_keeps {r : State} (s : State) (n : Nat) (h0 : Keeps r s) : Keeps r (State.emLink s n) := by
  unfold State.emLink
  conv => zeta
  repeat' (first | with_reducible assumption | (intro _) | with_reducible apply State.notify_keeps | with_reducible apply State.count_keeps | fail_if_no_progress with_reducible apply Keeps.upd | dsimp only | split)

theorem State.linkDownEm_keeps {r : State} (s : State) (n : Nat) (hi : Nat) (lo : Nat) (keepWire : Bool) (h0 : Keeps r s) : Keeps r (State.linkDownEm s n hi lo keepWire) := by
  unfold State.linkDownEm
  conv => zeta
  repeat' (first | with_reducible assumption | (intro _) | with_reducible apply State.countN_keeps | with_reducible apply State.modEport_keeps | with_reducible apply State.emLink_keeps | fail_if_no_progress with_reducible apply Keeps.upd | dsimp only | split)

theorem State.linkChange_keeps {r : State} (s : State) (n : Nat) (up : Bool) (speed : Nat) (half : Bool) (pause : Bool) (h0 : Keeps r s) : Keeps r (State.linkChange s n up speed half pause) := by
  unfold State.linkChange
  conv => zeta
  repeat' (first | with_reducible assumption | (intro _) | with_reducible apply State.modEport_keeps | with_reducible apply State.emLink_keeps | with_reducible apply State.linkDownEm_keeps | fail_if_no_progress with_reducible apply Keeps.upd | dsimp only | split)

theorem State.emCfgWritten_keeps {r : State} (s : State) (n : Nat) (old : Nat) (h0 : Keeps r s) : Keeps r (State.emCfgWritten s n old) := by
  unfold State.emCfgWritten
  conv => zeta
  repeat' (first | with_reducible assumption | (intro _) | with_reducible apply State.modEport_keeps | with_reducible apply State.setWord_keeps | with_reducible apply State.linkDownEm_keeps | fail_if_no_progress with_reducible apply Keeps.upd | with_reducible apply Keeps.foldl | with_reducible apply Keeps.foldl_fst | with_reducible apply Keeps.foldl_snd | dsimp only | split)

theorem State.etherFollow_keeps {r : State} (s : State) (h0 : Keeps r s) : Keeps r (State.etherFollow s) := by
  unfold State.etherFollow
  conv => zeta
  repeat' (first | with_reducible assumption | (intro _) | with_reducible apply State.linkDownEm_keeps | with_reducible apply State.macVerdict_keeps | with_reducible apply State.meterFrames_keeps | fail_if_no_progress with_reducible apply Keeps.upd | with_reducible apply Keeps.foldl | with_reducible apply Keeps.foldl_fst | with_reducible apply Keeps.foldl_snd | dsimp only | split)

theorem opEmStatus_keeps {r : State} (op : Nat) (p : List Byte) (s : State) (h0 : Keeps r s) : Keeps r (opEmStatus op p s) := by
  unfold opEmStatus
  conv => zeta
  repeat' (first | with_reducible assumption | (intro _) | with_reducible apply State.finish_keeps | fail_if_no_progress with_reducible apply Keeps.upd | dsimp only | split)

theorem opEmStats_keeps {r : State} (op : Nat) (p : List Byte) (s : State) (h0 : Keeps r s) : Keeps r (opEmStats op p s) := by
  unfold opEmStats
  conv => zeta
  repeat' (first | with_reducible assumption | (intro _) | with_reducible apply State.finish_keeps | with_reducible apply State.setWord_keeps | fail_if_no_progress with_reducible apply Keeps.upd | with_reducible apply Keeps.foldl | with_reducible apply Keeps.foldl_fst | with_reducible apply Keeps.foldl_snd | dsimp only | split)

theorem opEmMdio_keeps {r : State} (op : Nat) (p : List Byte) (s : State) (h0 : Keeps r s) : Keeps r (opEmMdio op p s) := by
  unfold opEmMdio
  conv => zeta
  repeat' (first | with_reducible assumption | (intro _) | with_reducible apply State.finish_keeps | with_reducible apply State.drawBelow_keeps | with_reducible apply State.drawBelow_keeps_eq (e := by with_reducible assumption) | fail_if_no_progress with_reducible apply Keeps.upd | dsimp only | split)

end Sys2Proof.Machine
end

