-- ==== Sys2Proof/Laws/KeepsCompletion.lean ====
section
/-! SUPPORT. The operations of Machine/Completion.lean keep what every operation inside a command keeps (`Keeps`). -/

namespace Sys2Proof.Machine

set_option linter.unusedTactic false
set_option linter.unreachableTactic false
set_option linter.unusedVariables false
set_option linter.unnecessarySeqFocus false

theorem State.noteWire_keeps {r : State} (s : State) (v_r : CyReq) (h0 : Keeps r s) : Keeps r (State.noteWire s v_r) := by
  unfold State.noteWire
  conv => zeta
  repeat' (first | with_reducible assumption | (intro _) | with_reducible apply State.modCmd_keeps | fail_if_no_progress with_reducible apply Keeps.upd | dsimp only | split)

theorem State.downDone_keeps {r : State} (s : State) (v_r : CyReq) (id : Nat) (h0 : Keeps r s) : Keeps r (State.downDone s v_r id) := by
  unfold State.downDone
  conv => zeta
  repeat' (first | with_reducible assumption | (intro _) | with_reducible apply State.modTd_keeps | with_reducible apply State.macVerdict_keeps | with_reducible apply State.routeSdus_keeps | fail_if_no_progress with_reducible apply Keeps.upd | with_reducible apply Keeps.foldl | with_reducible apply Keeps.foldl_fst | with_reducible apply Keeps.foldl_snd | dsimp only | split)

theorem State.complete_keeps {r : State} (s : State) (v_r : CyReq) (h0 : Keeps r s) : Keeps r (State.complete s v_r) := by
  unfold State.complete
  conv => zeta
  repeat' (first | with_reducible assumption | (intro _) | with_reducible apply State.modUp_keeps | with_reducible apply State.noteWire_keeps | with_reducible apply State.modTb_keeps | with_reducible apply State.tribCount_keeps | with_reducible apply State.downDone_keeps | with_reducible apply State.finish_keeps | fail_if_no_progress with_reducible apply Keeps.upd | dsimp only | split)

theorem State.completeAll_keeps {r : State} (s : State) (l : List CyReq) (h0 : Keeps r s) : Keeps r (State.completeAll s l) := by
  unfold State.completeAll
  conv => zeta
  repeat' (first | with_reducible assumption | (intro _) | with_reducible apply State.complete_keeps | fail_if_no_progress with_reducible apply Keeps.upd | with_reducible apply Keeps.foldl | with_reducible apply Keeps.foldl_fst | with_reducible apply Keeps.foldl_snd | dsimp only | split)

theorem State.cipherCompletion_keeps {r : State} (s : State) (pipe : Nat) (h0 : Keeps r s) : Keeps r (State.cipherCompletion s pipe) := by
  unfold State.cipherCompletion
  conv => zeta
  repeat' (first | with_reducible assumption | (intro _) | with_reducible apply State.cipherEnd_keeps | with_reducible apply State.cipherEnd_keeps_eq (e := by with_reducible assumption) | with_reducible apply State.completeAll_keeps | fail_if_no_progress with_reducible apply Keeps.upd | dsimp only | split)

theorem State.queueOff_keeps {r : State} (s : State) (q : Nat) (h0 : Keeps r s) : Keeps r (State.queueOff s q) := by
  unfold State.queueOff
  conv => zeta
  repeat' (first | with_reducible assumption | (intro _) | with_reducible apply State.cqDisabled_keeps | with_reducible apply State.cqDisabled_keeps_eq (e := by with_reducible assumption) | with_reducible apply State.completeAll_keeps | fail_if_no_progress with_reducible apply Keeps.upd | dsimp only | split)

theorem State.zeroise_keeps {r : State} (s : State) (cause : Nat) (source : Nat) (h0 : Keeps r s) : Keeps r (State.zeroise s cause source) := by
  unfold State.zeroise
  conv => zeta
  repeat' (first | with_reducible assumption | (intro _) | with_reducible apply State.keyDrop_keeps | with_reducible apply State.modCy_keeps | with_reducible apply State.completeAll_keeps | with_reducible apply State.failRequests_keeps | with_reducible apply State.failRequests_keeps_eq (e := by with_reducible assumption) | with_reducible apply State.finish_keeps | with_reducible apply State.reseed_keeps | with_reducible apply State.notify_keeps | with_reducible apply State.ash_keeps | fail_if_no_progress with_reducible apply Keeps.upd | with_reducible apply Keeps.foldl | with_reducible apply Keeps.foldl_fst | with_reducible apply Keeps.foldl_snd | dsimp only | split)

theorem State.keyLoad_keeps {r : State} (s : State) (op : Nat) (p : List Byte) (h0 : Keeps r s) : Keeps r (State.keyLoad s op p) := by
  unfold State.keyLoad
  conv => zeta
  repeat' (first | with_reducible assumption | (intro _) | with_reducible apply State.finish_keeps | with_reducible apply State.beginUpdate_keeps | fail_if_no_progress with_reducible apply Keeps.upd | dsimp only | split)

theorem State.slotDrop_keeps {r : State} (s : State) (a1 : Nat) (h0 : Keeps r s) : Keeps r (State.slotDrop s a1) := by
  unfold State.slotDrop
  conv => zeta
  repeat' (first | with_reducible assumption | (intro _) | with_reducible apply State.ash_keeps | with_reducible apply State.countN_keeps | with_reducible apply State.modQueue_keeps | fail_if_no_progress with_reducible apply Keeps.upd | with_reducible apply Keeps.foldl | with_reducible apply Keeps.foldl_fst | with_reducible apply Keeps.foldl_snd | dsimp only | split)

theorem State.keyErase_keeps {r : State} (s : State) (op : Nat) (a2 : Nat) (h0 : Keeps r s) : Keeps r (State.keyErase s op a2) := by
  unfold State.keyErase
  conv => zeta
  repeat' (first | with_reducible assumption | (intro _) | with_reducible apply State.finish_keeps | with_reducible apply State.modCy_keeps | with_reducible apply State.slotDrop_keeps | with_reducible apply State.eraseKey_keeps | with_reducible apply State.notify_keeps | fail_if_no_progress with_reducible apply Keeps.upd | dsimp only | split)

theorem State.keyStep_keeps {r : State} (s : State) {t : State} (h0 : Keeps r s) (e : State.keyStep s = some t) : Keeps r t := by
  unfold State.keyStep at e
  conv at e => zeta
  (repeat' split at e) <;> (try cases e) <;> (try simp only [Option.some.injEq, Prod.mk.injEq] at e) <;> (try obtain ⟨_, e⟩ := e) <;> (try subst e)
  all_goals (repeat' (first | with_reducible assumption | (intro _) | with_reducible apply State.modCy_keeps | with_reducible apply State.keyLoad_keeps | with_reducible apply State.keyErase_keeps | fail_if_no_progress with_reducible apply Keeps.upd | dsimp only | split))

theorem State.keyLoop_keeps {r : State} (a0 : Nat) (a1 : State) (h0 : Keeps r a1) : Keeps r (State.keyLoop a0 a1) := by
  induction a0 generalizing a1 with
  | zero => exact h0
  | succ k ih =>
    unfold State.keyLoop
    conv => zeta
    repeat' (first | with_reducible assumption | (intro _) | with_reducible apply ih | (with_reducible apply State.keyStep_keeps (e := by with_reducible assumption)) | fail_if_no_progress with_reducible apply Keeps.upd | dsimp only | split)

theorem State.cyFollow_keeps {r : State} (s : State) (h0 : Keeps r s) : Keeps r (State.cyFollow s) := by
  unfold State.cyFollow
  conv => zeta
  repeat' (first | with_reducible assumption | (intro _) | with_reducible apply State.proceedUpdate_keeps | with_reducible apply State.keyLoop_keeps | fail_if_no_progress with_reducible apply Keeps.upd | dsimp only | split)

theorem opCyKeyLoad_keeps {r : State} (op : Nat) (p : List Byte) (s : State) (h0 : Keeps r s) : Keeps r (opCyKeyLoad op p s) := by
  unfold opCyKeyLoad
  conv => zeta
  repeat' (first | with_reducible assumption | (intro _) | with_reducible apply State.finish_keeps | with_reducible apply State.modCy_keeps | fail_if_no_progress with_reducible apply Keeps.upd | dsimp only | split)

theorem opCyKeyErase_keeps {r : State} (op : Nat) (p : List Byte) (s : State) (h0 : Keeps r s) : Keeps r (opCyKeyErase op p s) := by
  unfold opCyKeyErase
  conv => zeta
  repeat' (first | with_reducible assumption | (intro _) | with_reducible apply State.finish_keeps | with_reducible apply State.modCy_keeps | fail_if_no_progress with_reducible apply Keeps.upd | dsimp only | split)

theorem opCyZeroise_keeps {r : State} (op : Nat) (p : List Byte) (s : State) (h0 : Keeps r s) : Keeps r (opCyZeroise op p s) := by
  unfold opCyZeroise
  conv => zeta
  repeat' (first | with_reducible assumption | (intro _) | with_reducible apply State.finish_keeps | with_reducible apply State.zeroise_keeps | fail_if_no_progress with_reducible apply Keeps.upd | dsimp only | split)

theorem opCyKeyInfo_keeps {r : State} (op : Nat) (p : List Byte) (s : State) (h0 : Keeps r s) : Keeps r (opCyKeyInfo op p s) := by
  unfold opCyKeyInfo
  conv => zeta
  repeat' (first | with_reducible assumption | (intro _) | with_reducible apply State.finish_keeps | fail_if_no_progress with_reducible apply Keeps.upd | dsimp only | split)

theorem opCyRun_keeps {r : State} (op : Nat) (p : List Byte) (s : State) (h0 : Keeps r s) : Keeps r (opCyRun op p s) := by
  unfold opCyRun
  conv => zeta
  repeat' (first | with_reducible assumption | (intro _) | with_reducible apply State.finish_keeps | with_reducible apply State.submit_keeps | with_reducible apply State.submit_keeps_eq (e := by with_reducible assumption) | fail_if_no_progress with_reducible apply Keeps.upd | dsimp only | split)

theorem opCyStatus_keeps {r : State} (op : Nat) (p : List Byte) (s : State) (h0 : Keeps r s) : Keeps r (opCyStatus op p s) := by
  unfold opCyStatus
  conv => zeta
  repeat' (first | with_reducible assumption | (intro _) | with_reducible apply State.finish_keeps | fail_if_no_progress with_reducible apply Keeps.upd | dsimp only | split)

end Sys2Proof.Machine
end

