-- ==== Sys2Proof/Laws/KeepsFuses.lean ====
section
/-! SUPPORT. The operations of Machine/Fuses.lean keep what every operation inside a command keeps (`Keeps`). -/

namespace Sys2Proof.Machine

set_option linter.unusedTactic false
set_option linter.unreachableTactic false
set_option linter.unusedVariables false
set_option linter.unnecessarySeqFocus false

theorem State.modPw_keeps {r : State} (s : State) (f : Fuses → Fuses) (h0 : Keeps r s) : Keeps r (State.modPw s f) := by
  unfold State.modPw
  conv => zeta
  repeat' (first | with_reducible assumption | (intro _) | fail_if_no_progress with_reducible apply Keeps.upd | dsimp only | split)

theorem State.modFuse_keeps {r : State} (s : State) (c : Nat) (f : Fuse → Fuse) (h0 : Keeps r s) : Keeps r (State.modFuse s c f) := by
  unfold State.modFuse
  conv => zeta
  repeat' (first | with_reducible assumption | (intro _) | with_reducible apply State.modPw_keeps | fail_if_no_progress with_reducible apply Keeps.upd | dsimp only | split)

theorem State.pwEvent_keeps {r : State} (s : State) (c : Nat) (kind : Nat) (h0 : Keeps r s) : Keeps r (State.pwEvent s c kind) := by
  unfold State.pwEvent
  conv => zeta
  repeat' (first | with_reducible assumption | (intro _) | with_reducible apply State.modFuse_keeps | with_reducible apply State.ash_keeps | with_reducible apply State.notify_keeps | fail_if_no_progress with_reducible apply Keeps.upd | dsimp only | split)

theorem State.gateOff_keeps {r : State} (s : State) (c : Nat) (st : FuseSt) (h0 : Keeps r s) : Keeps r (State.gateOff s c st) := by
  unfold State.gateOff
  conv => zeta
  repeat' (first | with_reducible assumption | (intro _) | with_reducible apply State.modFuse_keeps | fail_if_no_progress with_reducible apply Keeps.upd | dsimp only | split)

theorem State.trip_keeps {r : State} (s : State) (c : Nat) (kind : Nat) (h0 : Keeps r s) : Keeps r (State.trip s c kind) := by
  unfold State.trip
  conv => zeta
  repeat' (first | with_reducible assumption | (intro _) | with_reducible apply State.count_keeps | with_reducible apply State.modFuse_keeps | with_reducible apply State.pwEvent_keeps | with_reducible apply State.gateOff_keeps | fail_if_no_progress with_reducible apply Keeps.upd | dsimp only | split)

theorem State.inrush_keeps {r : State} (s : State) (c : Nat) (h0 : Keeps r s) : Keeps r (State.inrush s c) := by
  unfold State.inrush
  conv => zeta
  repeat' (first | with_reducible assumption | (intro _) | with_reducible apply State.modFuse_keeps | fail_if_no_progress with_reducible apply Keeps.upd | dsimp only | split)

theorem State.pwSampleChan_keeps {r : State} (s : State) (c : Nat) (h0 : Keeps r s) : Keeps r (State.pwSampleChan s c) := by
  unfold State.pwSampleChan
  conv => zeta
  repeat' (first | with_reducible assumption | (intro _) | with_reducible apply State.modFuse_keeps | with_reducible apply State.trip_keeps | with_reducible apply State.gateOff_keeps | with_reducible apply State.pwEvent_keeps | fail_if_no_progress with_reducible apply Keeps.upd | with_reducible apply Keeps.getD | dsimp only | split)

theorem State.pwSample_keeps {r : State} (s : State) (bus : Nat) (sense : List Nat) (out : List Nat) (h0 : Keeps r s) : Keeps r (State.pwSample s bus sense out) := by
  unfold State.pwSample
  conv => zeta
  repeat' (first | with_reducible assumption | (intro _) | with_reducible apply State.modPw_keeps | with_reducible apply State.pwSampleChan_keeps | fail_if_no_progress with_reducible apply Keeps.upd | with_reducible apply Keeps.foldl | with_reducible apply Keeps.foldl_fst | with_reducible apply Keeps.foldl_snd | dsimp only | split)

theorem State.fastTrip_keeps {r : State} (s : State) (c : Nat) (h0 : Keeps r s) : Keeps r (State.fastTrip s c) := by
  unfold State.fastTrip
  conv => zeta
  repeat' (first | with_reducible assumption | (intro _) | with_reducible apply State.trip_keeps | fail_if_no_progress with_reducible apply Keeps.upd | dsimp only | split)

theorem State.sagFreeze_keeps {r : State} (s : State) (c : Nat) (low : Bool) (h0 : Keeps r s) : Keeps r (State.sagFreeze s c low) := by
  unfold State.sagFreeze
  conv => zeta
  repeat' (first | with_reducible assumption | (intro _) | with_reducible apply State.modFuse_keeps | fail_if_no_progress with_reducible apply Keeps.upd | with_reducible apply Keeps.getD | dsimp only | split)

theorem State.sagTimeout_keeps {r : State} (s : State) (c : Nat) (h0 : Keeps r s) : Keeps r (State.sagTimeout s c) := by
  unfold State.sagTimeout
  conv => zeta
  repeat' (first | with_reducible assumption | (intro _) | with_reducible apply State.sagFreeze_keeps | with_reducible apply State.gateOff_keeps | with_reducible apply State.pwEvent_keeps | with_reducible apply State.count_keeps | fail_if_no_progress with_reducible apply Keeps.upd | dsimp only | split)

theorem State.uvOff_keeps {r : State} (s : State) (c : Nat) (h0 : Keeps r s) : Keeps r (State.uvOff s c) := by
  unfold State.uvOff
  conv => zeta
  repeat' (first | with_reducible assumption | (intro _) | with_reducible apply State.gateOff_keeps | with_reducible apply State.pwEvent_keeps | fail_if_no_progress with_reducible apply Keeps.upd | dsimp only | split)

theorem State.seatChange_keeps {r : State} (s : State) (c : Nat) (a : Bool) (b : Bool) (h0 : Keeps r s) : Keeps r (State.seatChange s c a b) := by
  unfold State.seatChange
  conv => zeta
  repeat' (first | with_reducible assumption | (intro _) | with_reducible apply State.pwEvent_keeps | with_reducible apply State.modFuse_keeps | with_reducible apply State.gateOff_keeps | fail_if_no_progress with_reducible apply Keeps.upd | dsimp only | split)

theorem State.inrushTimeout_keeps {r : State} (s : State) (c : Nat) (h0 : Keeps r s) : Keeps r (State.inrushTimeout s c) := by
  unfold State.inrushTimeout
  conv => zeta
  repeat' (first | with_reducible assumption | (intro _) | with_reducible apply State.trip_keeps | fail_if_no_progress with_reducible apply Keeps.upd | dsimp only | split)

theorem State.backoffExpiry_keeps {r : State} (s : State) (c : Nat) (h0 : Keeps r s) : Keeps r (State.backoffExpiry s c) := by
  unfold State.backoffExpiry
  conv => zeta
  repeat' (first | with_reducible assumption | (intro _) | with_reducible apply State.gateOff_keeps | fail_if_no_progress with_reducible apply Keeps.upd | dsimp only | split)

theorem State.onStable_keeps {r : State} (s : State) (c : Nat) (h0 : Keeps r s) : Keeps r (State.onStable s c) := by
  unfold State.onStable
  conv => zeta
  repeat' (first | with_reducible assumption | (intro _) | with_reducible apply State.modFuse_keeps | fail_if_no_progress with_reducible apply Keeps.upd | dsimp only | split)

theorem State.pwFet_keeps {r : State} (s : State) (c : Nat) (h0 : Keeps r s) : Keeps r (State.pwFet s c) := by
  unfold State.pwFet
  conv => zeta
  repeat' (first | with_reducible assumption | (intro _) | with_reducible apply State.notify_keeps | with_reducible apply State.ash_keeps | fail_if_no_progress with_reducible apply Keeps.upd | dsimp only | split)

theorem State.setDamaged_keeps {r : State} (s : State) (c : Nat) (v : Bool) (h0 : Keeps r s) : Keeps r (State.setDamaged s c v) := by
  unfold State.setDamaged
  conv => zeta
  repeat' (first | with_reducible assumption | (intro _) | fail_if_no_progress with_reducible apply Keeps.upd | dsimp only | split)

theorem State.damagedTimeout_keeps {r : State} (s : State) (c : Nat) (h0 : Keeps r s) : Keeps r (State.damagedTimeout s c) := by
  unfold State.damagedTimeout
  conv => zeta
  repeat' (first | with_reducible assumption | (intro _) | with_reducible apply State.pwFet_keeps | with_reducible apply State.setDamaged_keeps | with_reducible apply State.modFuse_keeps | fail_if_no_progress with_reducible apply Keeps.upd | dsimp only | split)

theorem State.pwFollowChan_keeps {r : State} (s : State) (c : Nat) (h0 : Keeps r s) : Keeps r (State.pwFollowChan s c) := by
  unfold State.pwFollowChan
  conv => zeta
  repeat' (first | with_reducible assumption | (intro _) | with_reducible apply State.gateOff_keeps | with_reducible apply State.modFuse_keeps | fail_if_no_progress with_reducible apply Keeps.upd | dsimp only | split)

theorem State.pwFollow_keeps {r : State} (s : State) (h0 : Keeps r s) : Keeps r (State.pwFollow s) := by
  unfold State.pwFollow
  conv => zeta
  repeat' (first | with_reducible assumption | (intro _) | with_reducible apply State.pwFollowChan_keeps | fail_if_no_progress with_reducible apply Keeps.upd | with_reducible apply Keeps.foldl | with_reducible apply Keeps.foldl_fst | with_reducible apply Keeps.foldl_snd | dsimp only | split)

theorem State.fuseStart_keeps {r : State} (s : State) (h0 : Keeps r s) : Keeps r (State.fuseStart s) := by
  unfold State.fuseStart
  conv => zeta
  repeat' (first | with_reducible assumption | (intro _) | with_reducible apply State.pwFet_keeps | with_reducible apply State.modFuse_keeps | fail_if_no_progress with_reducible apply Keeps.upd | with_reducible apply Keeps.foldl | with_reducible apply Keeps.foldl_fst | with_reducible apply Keeps.foldl_snd | dsimp only | split)

theorem opPwStatus_keeps {r : State} (op : Nat) (p : List Byte) (s : State) (h0 : Keeps r s) : Keeps r (opPwStatus op p s) := by
  unfold opPwStatus
  conv => zeta
  repeat' (first | with_reducible assumption | (intro _) | with_reducible apply State.finish_keeps | fail_if_no_progress with_reducible apply Keeps.upd | dsimp only | split)

theorem opPwClear_keeps {r : State} (op : Nat) (p : List Byte) (s : State) (h0 : Keeps r s) : Keeps r (opPwClear op p s) := by
  unfold opPwClear
  conv => zeta
  repeat' (first | with_reducible assumption | (intro _) | with_reducible apply State.finish_keeps | with_reducible apply State.inrush_keeps | with_reducible apply State.gateOff_keeps | with_reducible apply State.modFuse_keeps | with_reducible apply State.setDamaged_keeps | fail_if_no_progress with_reducible apply Keeps.upd | dsimp only | split)

end Sys2Proof.Machine
end

