-- ==== Sys2Proof/Laws/KeepsImages.lean ====
section
/-! SUPPORT. The operations of Machine/Images.lean keep what every operation inside a command keeps (`Keeps`). -/

namespace Sys2Proof.Machine

set_option linter.unusedTactic false
set_option linter.unreachableTactic false
set_option linter.unusedVariables false
set_option linter.unnecessarySeqFocus false

theorem State.setDigest_keeps {r : State} (s : State) (i : Nat) (d : Option (List Byte)) (h0 : Keeps r s) : Keeps r (State.setDigest s i d) := by
  unfold State.setDigest
  conv => zeta
  repeat' (first | with_reducible assumption | (intro _) | fail_if_no_progress with_reducible apply Keeps.upd | dsimp only | split)

theorem State.recordDigest_keeps {r : State} (s : State) (i : Nat) (d : List Byte) (h0 : Keeps r s) : Keeps r (State.recordDigest s i d) := by
  unfold State.recordDigest
  conv => zeta
  repeat' (first | with_reducible assumption | (intro _) | with_reducible apply State.setDigest_keeps | fail_if_no_progress with_reducible apply Keeps.upd | dsimp only | split)

end Sys2Proof.Machine
end

