-- ==== Sys2Proof/Laws/KeepsMembers.lean ====
section
/-! SUPPORT. The operations of Machine/Members.lean keep what every operation inside a command keeps (`Keeps`). -/

namespace Sys2Proof.Machine

set_option linter.unusedTactic false
set_option linter.unreachableTactic false
set_option linter.unusedVariables false
set_option linter.unnecessarySeqFocus false

theorem State.modSk_keeps {r : State} (s : State) (f : Stack → Stack) (h0 : Keeps r s) : Keeps r (State.modSk s f) := by
  unfold State.modSk
  conv => zeta
  repeat' (first | with_reducible assumption | (intro _) | fail_if_no_progress with_reducible apply Keeps.upd | dsimp only | split)

theorem State.modPeer_keeps {r : State} (s : State) (m : Nat) (f : Peer → Peer) (h0 : Keeps r s) : Keeps r (State.modPeer s m f) := by
  unfold State.modPeer
  conv => zeta
  repeat' (first | with_reducible assumption | (intro _) | with_reducible apply State.modSk_keeps | fail_if_no_progress with_reducible apply Keeps.upd | dsimp only | split)

theorem State.setTerm_keeps {r : State} (s : State) (a1 : Nat) (h0 : Keeps r s) : Keeps r (State.setTerm s a1) := by
  unfold State.setTerm
  conv => zeta
  repeat' (first | with_reducible assumption | (intro _) | with_reducible apply State.modSk_keeps | fail_if_no_progress with_reducible apply Keeps.upd | dsimp only | split)

theorem State.sendAll_keeps {r : State} (s : State) (type : Nat) (body : List Byte) (h0 : Keeps r s) : Keeps r (State.sendAll s type body) := by
  unfold State.sendAll
  conv => zeta
  repeat' (first | with_reducible assumption | (intro _) | with_reducible apply State.sendMsg_keeps | fail_if_no_progress with_reducible apply Keeps.upd | with_reducible apply Keeps.foldl | with_reducible apply Keeps.foldl_fst | with_reducible apply Keeps.foldl_snd | dsimp only | split)

theorem State.announceAll_keeps {r : State} (s : State) (h0 : Keeps r s) : Keeps r (State.announceAll s) := by
  unfold State.announceAll
  conv => zeta
  repeat' (first | with_reducible assumption | (intro _) | with_reducible apply State.modSk_keeps | with_reducible apply State.sendAll_keeps | fail_if_no_progress with_reducible apply Keeps.upd | dsimp only | split)

theorem State.sendStackState_keeps {r : State} (s : State) (h0 : Keeps r s) : Keeps r (State.sendStackState s) := by
  unfold State.sendStackState
  conv => zeta
  repeat' (first | with_reducible assumption | (intro _) | with_reducible apply State.modSk_keeps | with_reducible apply State.sendAll_keeps | fail_if_no_progress with_reducible apply Keeps.upd | dsimp only | split)

theorem State.sendMemberState_keeps {r : State} (s : State) (next : Nat) (blockers : Nat) (h0 : Keeps r s) : Keeps r (State.sendMemberState s next blockers) := by
  unfold State.sendMemberState
  conv => zeta
  repeat' (first | with_reducible assumption | (intro _) | with_reducible apply State.modSk_keeps | with_reducible apply State.sendMsg_keeps | fail_if_no_progress with_reducible apply Keeps.upd | dsimp only | split)

theorem State.takeMsg_keeps {r : State} (s : State) (type : Nat) (h0 : Keeps r s) : Keeps r (State.takeMsg s type).2 := by
  unfold State.takeMsg
  conv => zeta
  repeat' (first | with_reducible assumption | (intro _) | with_reducible apply State.freeWaiting_keeps | fail_if_no_progress with_reducible apply Keeps.upd | dsimp only | split)

theorem State.takeMsg_keeps_eq {r : State} (s : State) (type : Nat) {xx tt} (e : State.takeMsg s type = (xx, tt)) (h0 : Keeps r s) : Keeps r tt := by
  have q := State.takeMsg_keeps (r := r) s type h0
  rw [e] at q
  exact q

theorem State.quarNotice_keeps {r : State} (s : State) (m : Nat) (cause : Nat) (entered : Bool) (status : Nat) (h0 : Keeps r s) : Keeps r (State.quarNotice s m cause entered status) := by
  unfold State.quarNotice
  conv => zeta
  repeat' (first | with_reducible assumption | (intro _) | with_reducible apply State.notify_keeps | fail_if_no_progress with_reducible apply Keeps.upd | dsimp only | split)

theorem State.judge_keeps {r : State} (s : State) (m : Nat) (h0 : Keeps r s) : Keeps r (State.judge s m) := by
  unfold State.judge
  conv => zeta
  repeat' (first | with_reducible assumption | (intro _) | with_reducible apply State.modPeer_keeps | with_reducible apply State.quarNotice_keeps | with_reducible apply State.dropBurst_keeps | fail_if_no_progress with_reducible apply Keeps.upd | dsimp only | split)

theorem State.judgeAll_keeps {r : State} (s : State) (h0 : Keeps r s) : Keeps r (State.judgeAll s) := by
  unfold State.judgeAll
  conv => zeta
  repeat' (first | with_reducible assumption | (intro _) | with_reducible apply State.judge_keeps | fail_if_no_progress with_reducible apply Keeps.upd | with_reducible apply Keeps.foldl | with_reducible apply Keeps.foldl_fst | with_reducible apply Keeps.foldl_snd | dsimp only | split)

theorem State.memberLeft_keeps {r : State} (s : State) (m : Nat) (h0 : Keeps r s) : Keeps r (State.memberLeft s m) := by
  unfold State.memberLeft
  conv => zeta
  repeat' (first | with_reducible assumption | (intro _) | with_reducible apply State.memberResult_keeps | fail_if_no_progress with_reducible apply Keeps.upd | with_reducible apply Keeps.foldl | with_reducible apply Keeps.foldl_fst | with_reducible apply Keeps.foldl_snd | dsimp only | split)

theorem State.setPresent_keeps {r : State} (s : State) (m : Nat) (v : Bool) (h0 : Keeps r s) : Keeps r (State.setPresent s m v) := by
  unfold State.setPresent
  conv => zeta
  repeat' (first | with_reducible assumption | (intro _) | with_reducible apply State.modPeer_keeps | with_reducible apply State.notify_keeps | with_reducible apply State.pushTerm_keeps | with_reducible apply State.sendMsg_keeps | with_reducible apply State.memberLeft_keeps | fail_if_no_progress with_reducible apply Keeps.upd | dsimp only | split)

theorem opSkStatus_keeps {r : State} (op : Nat) (p : List Byte) (s : State) (h0 : Keeps r s) : Keeps r (opSkStatus op p s) := by
  unfold opSkStatus
  conv => zeta
  repeat' (first | with_reducible assumption | (intro _) | with_reducible apply State.finish_keeps | fail_if_no_progress with_reducible apply Keeps.upd | dsimp only | split)

end Sys2Proof.Machine
end

