-- ==== Sys2Proof/Laws/KeepsPackets.lean ====
section
/-! SUPPORT. The operations of Machine/Packets.lean keep what every operation inside a command keeps (`Keeps`). -/

namespace Sys2Proof.Machine

set_option linter.unusedTactic false
set_option linter.unreachableTactic false
set_option linter.unusedVariables false
set_option linter.unnecessarySeqFocus false

theorem State.accept_keeps {r : State} (s : State) (h : Hdr) (params : List Byte) (space : Nat) (h0 : Keeps r s) : Keeps r (State.accept s h params space) := by
  unfold State.accept
  conv => zeta
  repeat' (first | with_reducible assumption | (intro _) | with_reducible apply State.refuse_keeps | with_reducible apply State.modCmd_keeps | fail_if_no_progress with_reducible apply Keeps.upd | dsimp only | split)

theorem State.packet_keeps {r : State} (s : State) (b : List Byte) (whole : Bool) (distrust : Bool) (h0 : Keeps r s) : Keeps r (State.packet s b whole distrust) := by
  unfold State.packet
  conv => zeta
  repeat' (first | with_reducible assumption | (intro _) | with_reducible apply State.count_keeps | with_reducible apply State.refuse_keeps | with_reducible apply State.modCmd_keeps | with_reducible apply State.accept_keeps | fail_if_no_progress with_reducible apply Keeps.upd | dsimp only | split)

theorem State.delimited_keeps {r : State} (s : State) (b : List Byte) (distrust : Bool) (h0 : Keeps r s) : Keeps r (State.delimited s b distrust) := by
  unfold State.delimited
  conv => zeta
  repeat' (first | with_reducible assumption | (intro _) | with_reducible apply State.count_keeps | with_reducible apply State.packet_keeps | fail_if_no_progress with_reducible apply Keeps.upd | dsimp only | split)

theorem State.hunt_keeps {r : State} (a0 : Nat) (a1 : State) (h0 : Keeps r a1) : Keeps r (State.hunt a0 a1) := by
  induction a0 generalizing a1 with
  | zero => exact h0
  | succ k ih =>
    unfold State.hunt
    conv => zeta
    repeat' (first | with_reducible assumption | (intro _) | with_reducible apply ih | with_reducible apply State.modCmd_keeps | with_reducible apply State.count_keeps | with_reducible apply State.packet_keeps | fail_if_no_progress with_reducible apply Keeps.upd | dsimp only | split)

theorem State.packetLeft_keeps {r : State} (s : State) (a1 : OutKind) (h0 : Keeps r s) : Keeps r (State.packetLeft s a1) := by
  unfold State.packetLeft
  conv => zeta
  repeat' (first | with_reducible assumption | (intro _) | with_reducible apply State.pumpOut_keeps | with_reducible apply State.modCmd_keeps | fail_if_no_progress with_reducible apply Keeps.upd | dsimp only | split)

theorem State.spiWrite_keeps {r : State} (s : State) (b : List Byte) (h0 : Keeps r s) : Keeps r (State.spiWrite s b) := by
  unfold State.spiWrite
  conv => zeta
  repeat' (first | with_reducible assumption | (intro _) | with_reducible apply State.delimited_keeps | with_reducible apply State.wake_keeps | fail_if_no_progress with_reducible apply Keeps.upd | dsimp only | split)

theorem State.spiRead_keeps {r : State} (s : State) (clocked : Nat) (h0 : Keeps r s) : Keeps r (State.spiRead s clocked) := by
  unfold State.spiRead
  conv => zeta
  repeat' (first | with_reducible assumption | (intro _) | with_reducible apply State.modCmd_keeps | with_reducible apply State.packetLeft_keeps | fail_if_no_progress with_reducible apply Keeps.upd | dsimp only | split)

theorem State.spiStatus_keeps {r : State} (s : State) (h0 : Keeps r s) : Keeps r (State.spiStatus s) := by
  unfold State.spiStatus
  conv => zeta
  repeat' (first | with_reducible assumption | (intro _) | with_reducible apply State.modCmd_keeps | fail_if_no_progress with_reducible apply Keeps.upd | dsimp only | split)

theorem State.mgmtSdu_keeps {r : State} (s : State) (b : List Byte) (distrust : Bool) (h0 : Keeps r s) : Keeps r (State.mgmtSdu s b distrust) := by
  unfold State.mgmtSdu
  conv => zeta
  repeat' (first | with_reducible assumption | (intro _) | with_reducible apply State.delimited_keeps | fail_if_no_progress with_reducible apply Keeps.upd | dsimp only | split)

theorem State.uartAbandon_keeps {r : State} (s : State) (a1 : Nat) (h0 : Keeps r s) : Keeps r (State.uartAbandon s a1) := by
  unfold State.uartAbandon
  conv => zeta
  repeat' (first | with_reducible assumption | (intro _) | with_reducible apply State.modCmd_keeps | with_reducible apply State.count_keeps | fail_if_no_progress with_reducible apply Keeps.upd | dsimp only | split)

theorem State.uartBytes_keeps {r : State} (s : State) (b : List Byte) (h0 : Keeps r s) : Keeps r (State.uartBytes s b) := by
  unfold State.uartBytes
  conv => zeta
  repeat' (first | with_reducible assumption | (intro _) | with_reducible apply State.modCmd_keeps | with_reducible apply State.uartAbandon_keeps | with_reducible apply State.wake_keeps | with_reducible apply State.hunt_keeps | fail_if_no_progress with_reducible apply Keeps.upd | dsimp only | split)

theorem State.uartGap_keeps {r : State} (s : State) (h0 : Keeps r s) : Keeps r (State.uartGap s) := by
  unfold State.uartGap
  conv => zeta
  repeat' (first | with_reducible assumption | (intro _) | with_reducible apply State.uartAbandon_keeps | fail_if_no_progress with_reducible apply Keeps.upd | dsimp only | split)

theorem State.leave_keeps {r : State} (s : State) (h0 : Keeps r s) : Keeps r (State.leave s) := by
  unfold State.leave
  conv => zeta
  repeat' (first | with_reducible assumption | (intro _) | with_reducible apply State.packetLeft_keeps | with_reducible apply State.modCmd_keeps | fail_if_no_progress with_reducible apply Keeps.upd | dsimp only | split)

theorem State.dropNotice_keeps {r : State} (s : State) (n : Notice) (clearHeld : Bool) (h0 : Keeps r s) : Keeps r (State.dropNotice s n clearHeld) := by
  unfold State.dropNotice
  conv => zeta
  repeat' (first | with_reducible assumption | (intro _) | with_reducible apply State.modCmd_keeps | with_reducible apply State.pumpOut_keeps | fail_if_no_progress with_reducible apply Keeps.upd | dsimp only | split)

theorem State.alarmRepeat_keeps {r : State} (s : State) (num : Nat) (h0 : Keeps r s) : Keeps r (State.alarmRepeat s num) := by
  unfold State.alarmRepeat
  conv => zeta
  repeat' (first | with_reducible assumption | (intro _) | with_reducible apply State.dropNotice_keeps | with_reducible apply State.ash_keeps | with_reducible apply State.pumpOut_keeps | with_reducible apply State.modCmd_keeps | fail_if_no_progress with_reducible apply Keeps.upd | dsimp only | split)

theorem State.withdraw_keeps {r : State} (s : State) (id : Nat) (h0 : Keeps r s) : Keeps r (State.withdraw s id) := by
  unfold State.withdraw
  conv => zeta
  repeat' (first | with_reducible assumption | (intro _) | with_reducible apply State.stopProg_keeps | fail_if_no_progress with_reducible apply Keeps.upd | with_reducible apply Keeps.foldl | with_reducible apply Keeps.foldl_fst | with_reducible apply Keeps.foldl_snd | dsimp only | split)

theorem State.timeout_keeps {r : State} (s : State) (v_e : OpEntry) (h0 : Keeps r s) : Keeps r (State.timeout s v_e) := by
  unfold State.timeout
  conv => zeta
  repeat' (first | with_reducible assumption | (intro _) | with_reducible apply State.withdraw_keeps | with_reducible apply State.unsend_keeps | with_reducible apply State.memberResult_keeps | fail_if_no_progress with_reducible apply Keeps.upd | with_reducible apply Keeps.foldl | with_reducible apply Keeps.foldl_fst | with_reducible apply Keeps.foldl_snd | dsimp only | split)

theorem State.opTimeout_keeps {r : State} (s : State) (tag : Nat) (h0 : Keeps r s) : Keeps r (State.opTimeout s tag) := by
  unfold State.opTimeout
  conv => zeta
  repeat' (first | with_reducible assumption | (intro _) | with_reducible apply State.timeout_keeps | fail_if_no_progress with_reducible apply Keeps.upd | dsimp only | split)

theorem State.limitChanged_keeps {r : State} (s : State) (h0 : Keeps r s) : Keeps r (State.limitChanged s) := by
  unfold State.limitChanged
  conv => zeta
  repeat' (first | with_reducible assumption | (intro _) | with_reducible apply State.timeout_keeps | fail_if_no_progress with_reducible apply Keeps.upd | with_reducible apply Keeps.foldl | with_reducible apply Keeps.foldl_fst | with_reducible apply Keeps.foldl_snd | dsimp only | split)

end Sys2Proof.Machine
end

