-- ==== Sys2Proof/Laws/KeepsTransfers.lean ====
section
/-! SUPPORT. The operations of Machine/Transfers.lean keep what every operation inside a command keeps (`Keeps`). -/

namespace Sys2Proof.Machine

set_option linter.unusedTactic false
set_option linter.unreachableTactic false
set_option linter.unusedVariables false
set_option linter.unnecessarySeqFocus false

theorem State.modPc_keeps {r : State} (s : State) (f : Picture → Picture) (h0 : Keeps r s) : Keeps r (State.modPc s f) := by
  unfold State.modPc
  conv => zeta
  repeat' (first | with_reducible assumption | (intro _) | fail_if_no_progress with_reducible apply Keeps.upd | dsimp only | split)

theorem State.datagram_keeps {r : State} (s : State) (u : List Byte) (h0 : Keeps r s) : Keeps r (State.datagram s u).1 := by
  unfold State.datagram
  conv => zeta
  repeat' (first | with_reducible assumption | (intro _) | with_reducible apply State.drawBytes_keeps | with_reducible apply State.drawBytes_keeps_eq (e := by with_reducible assumption) | fail_if_no_progress with_reducible apply Keeps.upd | with_reducible apply Keeps.getD | dsimp only | split)

theorem State.datagram_keeps_eq {r : State} (s : State) (u : List Byte) {xx tt} (e : State.datagram s u = (tt, xx)) (h0 : Keeps r s) : Keeps r tt := by
  have q := State.datagram_keeps (r := r) s u h0
  rw [e] at q
  exact q

theorem State.offerUnit_keeps {r : State} (s : State) (a1 : SduKind) (q : Nat) (u : List Byte) (h0 : Keeps r s) : Keeps r (State.offerUnit s a1 q u).1 := by
  unfold State.offerUnit
  conv => zeta
  repeat' (first | with_reducible assumption | (intro _) | with_reducible apply State.enqueue_keeps | with_reducible apply State.enqueue_keeps_eq (e := by with_reducible assumption) | (with_reducible apply State.offer_keeps (e := by with_reducible assumption)) | fail_if_no_progress with_reducible apply Keeps.upd | dsimp only | split)

theorem State.offerUnit_keeps_eq {r : State} (s : State) (a1 : SduKind) (q : Nat) (u : List Byte) {xx tt} (e : State.offerUnit s a1 q u = (tt, xx)) (h0 : Keeps r s) : Keeps r tt := by
  have q := State.offerUnit_keeps (r := r) s a1 q u h0
  rw [e] at q
  exact q

theorem State.exportUnit_keeps {r : State} (s : State) (dest : Nat) (u : List Byte) (h0 : Keeps r s) : Keeps r (State.exportUnit s dest u).1 := by
  unfold State.exportUnit
  conv => zeta
  repeat' (first | with_reducible assumption | (intro _) | with_reducible apply State.datagram_keeps | with_reducible apply State.datagram_keeps_eq (e := by with_reducible assumption) | with_reducible apply State.macSend_keeps | with_reducible apply State.macSend_keeps_eq (e := by with_reducible assumption) | fail_if_no_progress with_reducible apply Keeps.upd | dsimp only | split)

theorem State.exportUnit_keeps_eq {r : State} (s : State) (dest : Nat) (u : List Byte) {xx tt} (e : State.exportUnit s dest u = (tt, xx)) (h0 : Keeps r s) : Keeps r tt := by
  have q := State.exportUnit_keeps (r := r) s dest u h0
  rw [e] at q
  exact q

theorem State.endXfer_keeps {r : State} (s : State) (a1 : Xfer) (status : Nat) (h0 : Keeps r s) : Keeps r (State.endXfer s a1 status) := by
  unfold State.endXfer
  conv => zeta
  repeat' (first | with_reducible assumption | (intro _) | with_reducible apply State.modPc_keeps | with_reducible apply State.finish?_keeps | fail_if_no_progress with_reducible apply Keeps.upd | dsimp only | split)

theorem State.xferStep_keeps {r : State} (s : State) {t : State} (h0 : Keeps r s) (e : State.xferStep s = some t) : Keeps r t := by
  unfold State.xferStep at e
  conv at e => zeta
  (repeat' split at e) <;> (try cases e) <;> (try simp only [Option.some.injEq, Prod.mk.injEq] at e) <;> (try obtain ⟨_, e⟩ := e) <;> (try subst e)
  all_goals (repeat' (first | with_reducible assumption | (intro _) | with_reducible apply State.endXfer_keeps | with_reducible apply State.offerUnit_keeps | with_reducible apply State.offerUnit_keeps_eq (e := by with_reducible assumption) | with_reducible apply State.exportUnit_keeps | with_reducible apply State.exportUnit_keeps_eq (e := by with_reducible assumption) | with_reducible apply State.modPc_keeps | fail_if_no_progress with_reducible apply Keeps.upd | dsimp only | split | (with_reducible apply Keeps.ofFst (e := by with_reducible assumption))))

theorem State.xferLoop_keeps {r : State} (a0 : Nat) (a1 : State) (h0 : Keeps r a1) : Keeps r (State.xferLoop a0 a1) := by
  induction a0 generalizing a1 with
  | zero => exact h0
  | succ k ih =>
    unfold State.xferLoop
    conv => zeta
    repeat' (first | with_reducible assumption | (intro _) | with_reducible apply ih | (with_reducible apply State.xferStep_keeps (e := by with_reducible assumption)) | fail_if_no_progress with_reducible apply Keeps.upd | dsimp only | split)

theorem State.xferPump_keeps {r : State} (s : State) (h0 : Keeps r s) : Keeps r (State.xferPump s) := by
  unfold State.xferPump
  conv => zeta
  repeat' (first | with_reducible assumption | (intro _) | with_reducible apply State.xferLoop_keeps | fail_if_no_progress with_reducible apply Keeps.upd | dsimp only | split)

theorem State.unitRefused_keeps {r : State} (s : State) (q : Nat) (u : List Byte) (h0 : Keeps r s) : Keeps r (State.unitRefused s q u) := by
  unfold State.unitRefused
  conv => zeta
  repeat' (first | with_reducible assumption | (intro _) | with_reducible apply State.modPc_keeps | fail_if_no_progress with_reducible apply Keeps.upd | dsimp only | split)

theorem opAlUpload_keeps {r : State} (op : Nat) (p : List Byte) (s : State) (h0 : Keeps r s) : Keeps r (opAlUpload op p s) := by
  unfold opAlUpload
  conv => zeta
  repeat' (first | with_reducible assumption | (intro _) | with_reducible apply State.finish_keeps | with_reducible apply State.modPc_keeps | fail_if_no_progress with_reducible apply Keeps.upd | dsimp only | split)

end Sys2Proof.Machine
end

