-- ==== Sys2Proof/Laws/KeepsClips.lean ====
section
/-! SUPPORT. The operations of Machine/Clips.lean keep what every operation inside a command keeps (`Keeps`). -/

namespace Sys2Proof.Machine

set_option linter.unusedTactic false
set_option linter.unreachableTactic false
set_option linter.unusedVariables false
set_option linter.unnecessarySeqFocus false

theorem State.modChan_keeps {r : State} (s : State) (c : Nat) (f : PcChan → PcChan) (h0 : Keeps r s) : Keeps r (State.modChan s c f) := by
  unfold State.modChan
  conv => zeta
  repeat' (first | with_reducible assumption | (intro _) | with_reducible apply State.modPc_keeps | fail_if_no_progress with_reducible apply Keeps.upd | dsimp only | split)

theorem State.room_keeps {r : State} (s : State) (n : Nat) {t : State} (h0 : Keeps r s) (e : State.room s n = some t) : Keeps r t := by
  unfold State.room at e
  obtain ⟨p, _, rfl⟩ := Option.map_eq_some_iff.mp e
  exact State.modPc_keeps s _ h0

theorem State.modClip_keeps {r : State} (s : State) (id : Nat) (f : Clip → Clip) (h0 : Keeps r s) : Keeps r (State.modClip s id f) := by
  unfold State.modClip
  conv => zeta
  repeat' (first | with_reducible assumption | (intro _) | with_reducible apply State.modPc_keeps | fail_if_no_progress with_reducible apply Keeps.upd | dsimp only | split)

theorem State.clipNotice_keeps {r : State} (s : State) (id : Nat) (chan : Nat) (kind : Nat) (h0 : Keeps r s) : Keeps r (State.clipNotice s id chan kind) := by
  unfold State.clipNotice
  conv => zeta
  repeat' (first | with_reducible assumption | (intro _) | with_reducible apply State.notify_keeps | fail_if_no_progress with_reducible apply Keeps.upd | dsimp only | split)

theorem State.pcEvent_keeps {r : State} (s : State) (chan : Nat) (kind : Nat) (clip : Option Nat) (poc : Nat) (h0 : Keeps r s) : Keeps r (State.pcEvent s chan kind clip poc) := by
  unfold State.pcEvent
  conv => zeta
  repeat' (first | with_reducible assumption | (intro _) | with_reducible apply State.notify_keeps | fail_if_no_progress with_reducible apply Keeps.upd | with_reducible apply Keeps.getD | dsimp only | split)

theorem State.closeClip_keeps {r : State} (s : State) (c : Nat) (cut : Bool) (kind : Nat) (h0 : Keeps r s) : Keeps r (State.closeClip s c cut kind) := by
  unfold State.closeClip
  conv => zeta
  repeat' (first | with_reducible assumption | (intro _) | with_reducible apply State.modChan_keeps | with_reducible apply State.modClip_keeps | with_reducible apply State.clipNotice_keeps | fail_if_no_progress with_reducible apply Keeps.upd | dsimp only | split)

theorem State.modPic_keeps {r : State} (s : State) (c : Nat) (f : Pic → Pic) (h0 : Keeps r s) : Keeps r (State.modPic s c f) := by
  unfold State.modPic
  conv => zeta
  repeat' (first | with_reducible assumption | (intro _) | with_reducible apply State.modChan_keeps | fail_if_no_progress with_reducible apply Keeps.upd | dsimp only | split)

theorem State.cutClip_keeps {r : State} (s : State) (c : Nat) (kind : Nat) (h0 : Keeps r s) : Keeps r (State.cutClip s c kind) := by
  unfold State.cutClip
  conv => zeta
  repeat' (first | with_reducible assumption | (intro _) | with_reducible apply State.modClip_keeps | with_reducible apply State.modChan_keeps | with_reducible apply State.closeClip_keeps | with_reducible apply State.pcEvent_keeps | with_reducible apply State.count_keeps | fail_if_no_progress with_reducible apply Keeps.upd | dsimp only | split)

theorem State.store_keeps {r : State} (s : State) (c : Nat) (b : List Byte) (recs : List PicRec) (h0 : Keeps r s) : Keeps r (State.store s c b recs).1 := by
  unfold State.store
  conv => zeta
  repeat' (first | with_reducible assumption | (intro _) | with_reducible apply State.cutClip_keeps | (with_reducible apply State.room_keeps (e := by with_reducible assumption)) | with_reducible apply State.modClip_keeps | fail_if_no_progress with_reducible apply Keeps.upd | with_reducible apply Keeps.foldl | with_reducible apply Keeps.foldl_fst | with_reducible apply Keeps.foldl_snd | dsimp only | split)

theorem State.store_keeps_eq {r : State} (s : State) (c : Nat) (b : List Byte) (recs : List PicRec) {xx tt} (e : State.store s c b recs = (tt, xx)) (h0 : Keeps r s) : Keeps r tt := by
  have q := State.store_keeps (r := r) s c b recs h0
  rw [e] at q
  exact q

theorem State.openClip_keeps {r : State} (s : State) (c : Nat) (g : PcGeom) (st : CapStamp) (h0 : Keeps r s) : Keeps r (State.openClip s c g st) := by
  unfold State.openClip
  conv => zeta
  repeat' (first | with_reducible assumption | (intro _) | with_reducible apply State.closeClip_keeps | (with_reducible apply State.room_keeps (e := by with_reducible assumption)) | with_reducible apply State.cutClip_keeps | with_reducible apply State.modChan_keeps | with_reducible apply State.modPc_keeps | fail_if_no_progress with_reducible apply Keeps.upd | dsimp only | split)

theorem State.lockClip_keeps {r : State} (s : State) (id : Nat) (evidence : Bool) (kind : Nat) (h0 : Keeps r s) : Keeps r (State.lockClip s id evidence kind).1 := by
  unfold State.lockClip
  conv => zeta
  repeat' (first | with_reducible assumption | (intro _) | with_reducible apply State.clipNotice_keeps | with_reducible apply State.modClip_keeps | fail_if_no_progress with_reducible apply Keeps.upd | dsimp only | split)

theorem State.lockClip_keeps_eq {r : State} (s : State) (id : Nat) (evidence : Bool) (kind : Nat) {xx tt} (e : State.lockClip s id evidence kind = (tt, xx)) (h0 : Keeps r s) : Keeps r tt := by
  have q := State.lockClip_keeps (r := r) s id evidence kind h0
  rw [e] at q
  exact q

theorem State.readClip_keeps {r : State} (s : State) (id : Nat) (h0 : Keeps r s) : Keeps r (State.readClip s id) := by
  unfold State.readClip
  conv => zeta
  repeat' (first | with_reducible assumption | (intro _) | with_reducible apply State.draw_keeps | with_reducible apply State.draw_keeps_eq (e := by with_reducible assumption) | with_reducible apply State.modClip_keeps | fail_if_no_progress with_reducible apply Keeps.upd | dsimp only | split)

theorem State.recordUnsent_keeps {r : State} (s : State) (h0 : Keeps r s) : Keeps r (State.recordUnsent s) := by
  unfold State.recordUnsent
  conv => zeta
  repeat' (first | with_reducible assumption | (intro _) | with_reducible apply State.ash_keeps | fail_if_no_progress with_reducible apply Keeps.upd | with_reducible apply Keeps.foldl | with_reducible apply Keeps.foldl_fst | with_reducible apply Keeps.foldl_snd | dsimp only | split)

theorem opPcClipList_keeps {r : State} (op : Nat) (p : List Byte) (s : State) (h0 : Keeps r s) : Keeps r (opPcClipList op p s) := by
  unfold opPcClipList
  conv => zeta
  repeat' (first | with_reducible assumption | (intro _) | with_reducible apply State.finish_keeps | fail_if_no_progress with_reducible apply Keeps.upd | dsimp only | split)

theorem opPcClipIndex_keeps {r : State} (op : Nat) (p : List Byte) (s : State) (h0 : Keeps r s) : Keeps r (opPcClipIndex op p s) := by
  unfold opPcClipIndex
  conv => zeta
  repeat' (first | with_reducible assumption | (intro _) | with_reducible apply State.finish_keeps | fail_if_no_progress with_reducible apply Keeps.upd | dsimp only | split)

theorem opPcClipSend_keeps {r : State} (op : Nat) (p : List Byte) (s : State) (h0 : Keeps r s) : Keeps r (opPcClipSend op p s) := by
  unfold opPcClipSend
  conv => zeta
  repeat' (first | with_reducible assumption | (intro _) | with_reducible apply State.finish_keeps | with_reducible apply State.readClip_keeps | with_reducible apply State.modPc_keeps | fail_if_no_progress with_reducible apply Keeps.upd | with_reducible apply Keeps.getD | dsimp only | split)

theorem opPcClipLock_keeps {r : State} (op : Nat) (p : List Byte) (s : State) (h0 : Keeps r s) : Keeps r (opPcClipLock op p s) := by
  unfold opPcClipLock
  conv => zeta
  repeat' (first | with_reducible assumption | (intro _) | with_reducible apply State.finish_keeps | with_reducible apply State.lockClip_keeps | with_reducible apply State.lockClip_keeps_eq (e := by with_reducible assumption) | fail_if_no_progress with_reducible apply Keeps.upd | dsimp only | split)

theorem opPcClipUnlock_keeps {r : State} (op : Nat) (p : List Byte) (s : State) (h0 : Keeps r s) : Keeps r (opPcClipUnlock op p s) := by
  unfold opPcClipUnlock
  conv => zeta
  repeat' (first | with_reducible assumption | (intro _) | with_reducible apply State.finish_keeps | with_reducible apply State.modClip_keeps | fail_if_no_progress with_reducible apply Keeps.upd | dsimp only | split)

end Sys2Proof.Machine
end

