-- ==== Sys2Proof/Laws/KeepsCoder.lean ====
section
/-! SUPPORT. The operations of Machine/Coder.lean keep what every operation inside a command keeps (`Keeps`). -/

namespace Sys2Proof.Machine

set_option linter.unusedTactic false
set_option linter.unreachableTactic false
set_option linter.unusedVariables false
set_option linter.unnecessarySeqFocus false

theorem State.skipRecord_keeps {r : State} (s : State) (c : Nat) (st : CapStamp) (h0 : Keeps r s) : Keeps r (State.skipRecord s c st) := by
  unfold State.skipRecord
  conv => zeta
  repeat' (first | with_reducible assumption | (intro _) | with_reducible apply State.count_keeps | with_reducible apply State.store_keeps | with_reducible apply State.store_keeps_eq (e := by with_reducible assumption) | fail_if_no_progress with_reducible apply Keeps.upd | dsimp only | split)

theorem State.modLast_keeps {r : State} (s : State) (c : Nat) (f : Pic → Pic) (h0 : Keeps r s) : Keeps r (State.modLast s c f) := by
  unfold State.modLast
  conv => zeta
  repeat' (first | with_reducible assumption | (intro _) | with_reducible apply State.modChan_keeps | fail_if_no_progress with_reducible apply Keeps.upd | dsimp only | split)

theorem State.skipPic_keeps {r : State} (s : State) (c : Nat) (h0 : Keeps r s) : Keeps r (State.skipPic s c) := by
  unfold State.skipPic
  conv => zeta
  repeat' (first | with_reducible assumption | (intro _) | with_reducible apply State.skipRecord_keeps | with_reducible apply State.modChan_keeps | fail_if_no_progress with_reducible apply Keeps.upd | dsimp only | split)

theorem State.overrun_keeps {r : State} (s : State) (c : Nat) (h0 : Keeps r s) : Keeps r (State.overrun s c) := by
  unfold State.overrun
  conv => zeta
  repeat' (first | with_reducible assumption | (intro _) | with_reducible apply State.modLast_keeps | with_reducible apply State.pcEvent_keeps | with_reducible apply State.count_keeps | fail_if_no_progress with_reducible apply Keeps.upd | with_reducible apply Keeps.getD | dsimp only | split)

theorem State.ringLine_keeps {r : State} (s : State) (c : Nat) (l : PLine) (h0 : Keeps r s) : Keeps r (State.ringLine s c l) := by
  unfold State.ringLine
  conv => zeta
  repeat' (first | with_reducible assumption | (intro _) | with_reducible apply State.overrun_keeps | with_reducible apply State.skipPic_keeps | with_reducible apply State.modLast_keeps | fail_if_no_progress with_reducible apply Keeps.upd | dsimp only | split)

theorem State.pcTrigger_keeps {r : State} (s : State) (c : Nat) (h0 : Keeps r s) : Keeps r (State.pcTrigger s c) := by
  unfold State.pcTrigger
  conv => zeta
  repeat' (first | with_reducible assumption | (intro _) | with_reducible apply State.modChan_keeps | fail_if_no_progress with_reducible apply Keeps.upd | dsimp only | split)

theorem State.pcFrame_keeps {r : State} (s : State) (c : Nat) (st : CapStamp) (lit : Bool) (h0 : Keeps r s) : Keeps r (State.pcFrame s c st lit) := by
  unfold State.pcFrame
  conv => zeta
  repeat' (first | with_reducible assumption | (intro _) | with_reducible apply State.modChan_keeps | fail_if_no_progress with_reducible apply Keeps.upd | with_reducible apply Keeps.getD | dsimp only | split)

theorem State.startPic_keeps {r : State} (s : State) (c : Nat) (h0 : Keeps r s) : Keeps r (State.startPic s c) := by
  unfold State.startPic
  conv => zeta
  repeat' (first | with_reducible assumption | (intro _) | with_reducible apply State.modChan_keeps | with_reducible apply State.openClip_keeps | with_reducible apply State.modPic_keeps | fail_if_no_progress with_reducible apply Keeps.upd | with_reducible apply Keeps.getD | dsimp only | split)

theorem State.stagesFollow_keeps {r : State} (s : State) (h0 : Keeps r s) : Keeps r (State.stagesFollow s) := by
  unfold State.stagesFollow
  conv => zeta
  repeat' (first | with_reducible assumption | (intro _) | with_reducible apply State.modPc_keeps | with_reducible apply State.modPic_keeps | with_reducible apply State.startPic_keeps | fail_if_no_progress with_reducible apply Keeps.upd | with_reducible apply Keeps.getD | dsimp only | split)

theorem State.s2RowDone_keeps {r : State} (s : State) (h0 : Keeps r s) : Keeps r (State.s2RowDone s) := by
  unfold State.s2RowDone
  conv => zeta
  repeat' (first | with_reducible assumption | (intro _) | with_reducible apply State.modPic_keeps | with_reducible apply State.modPc_keeps | fail_if_no_progress with_reducible apply Keeps.upd | dsimp only | split)

theorem State.markNoref_keeps {r : State} (s : State) (c : Nat) (kind : Nat) (h0 : Keeps r s) : Keeps r (State.markNoref s c kind) := by
  unfold State.markNoref
  conv => zeta
  repeat' (first | with_reducible assumption | (intro _) | with_reducible apply State.pcEvent_keeps | with_reducible apply State.count_keeps | with_reducible apply State.modPic_keeps | fail_if_no_progress with_reducible apply Keeps.upd | dsimp only | split)

theorem State.searchRow_keeps {r : State} (s : State) (c : Nat) (p : Pic) (preds : List (Int × Int)) (h0 : Keeps r s) : Keeps r (State.searchRow s c p preds).1 := by
  unfold State.searchRow
  conv => zeta
  repeat' (first | with_reducible assumption | (intro _) | fail_if_no_progress with_reducible apply Keeps.upd | dsimp only | split)

theorem State.searchRow_keeps_eq {r : State} (s : State) (c : Nat) (p : Pic) (preds : List (Int × Int)) {xx tt} (e : State.searchRow s c p preds = (tt, xx)) (h0 : Keeps r s) : Keeps r tt := by
  have q := State.searchRow_keeps (r := r) s c p preds h0
  rw [e] at q
  exact q

theorem State.s3Row_keeps {r : State} (s : State) (bytes : List Byte) (preds : List (Int × Int)) (poison : Option Nat) (h0 : Keeps r s) : Keeps r (State.s3Row s bytes preds poison) := by
  unfold State.s3Row
  conv => zeta
  repeat' (first | with_reducible assumption | (intro _) | with_reducible apply State.modPc_keeps | with_reducible apply State.searchRow_keeps | with_reducible apply State.searchRow_keeps_eq (e := by with_reducible assumption) | with_reducible apply State.modPic_keeps | with_reducible apply State.store_keeps | with_reducible apply State.store_keeps_eq (e := by with_reducible assumption) | with_reducible apply State.markNoref_keeps | with_reducible apply State.poisonedRead_keeps | with_reducible apply State.modMem_keeps | fail_if_no_progress with_reducible apply Keeps.upd | dsimp only | split)

theorem State.completePic_keeps {r : State} (s : State) (c : Nat) (h0 : Keeps r s) : Keeps r (State.completePic s c) := by
  unfold State.completePic
  conv => zeta
  repeat' (first | with_reducible assumption | (intro _) | with_reducible apply State.store_keeps | with_reducible apply State.store_keeps_eq (e := by with_reducible assumption) | with_reducible apply State.modChan_keeps | with_reducible apply State.count_keeps | with_reducible apply State.pcEvent_keeps | fail_if_no_progress with_reducible apply Keeps.upd | dsimp only | split)

theorem State.s5RowDone_keeps {r : State} (s : State) (y : List (List Nat)) (cb : List (List Nat)) (cr : List (List Nat)) (h0 : Keeps r s) : Keeps r (State.s5RowDone s y cb cr) := by
  unfold State.s5RowDone
  conv => zeta
  repeat' (first | with_reducible assumption | (intro _) | with_reducible apply State.modPc_keeps | with_reducible apply State.modPic_keeps | with_reducible apply State.markNoref_keeps | with_reducible apply State.completePic_keeps | fail_if_no_progress with_reducible apply Keeps.upd | dsimp only | split)

theorem State.pcEnable_keeps {r : State} (s : State) (c : Nat) (h0 : Keeps r s) : Keeps r (State.pcEnable s c) := by
  unfold State.pcEnable
  conv => zeta
  repeat' (first | with_reducible assumption | (intro _) | with_reducible apply State.modChan_keeps | (with_reducible apply State.room_keeps (e := by with_reducible assumption)) | fail_if_no_progress with_reducible apply Keeps.upd | with_reducible apply Keeps.getD | dsimp only | split)

theorem State.pcDisable_keeps {r : State} (s : State) (c : Nat) (h0 : Keeps r s) : Keeps r (State.pcDisable s c) := by
  unfold State.pcDisable
  conv => zeta
  repeat' (first | with_reducible assumption | (intro _) | with_reducible apply State.modChan_keeps | with_reducible apply State.skipPic_keeps | with_reducible apply State.modPc_keeps | with_reducible apply State.modPic_keeps | fail_if_no_progress with_reducible apply Keeps.upd | dsimp only | split)

theorem State.pcFollowChan_keeps {r : State} (s : State) (c : Nat) (h0 : Keeps r s) : Keeps r (State.pcFollowChan s c) := by
  unfold State.pcFollowChan
  conv => zeta
  repeat' (first | with_reducible assumption | (intro _) | with_reducible apply State.pcDisable_keeps | with_reducible apply State.pcEnable_keeps | with_reducible apply State.modChan_keeps | with_reducible apply State.closeClip_keeps | fail_if_no_progress with_reducible apply Keeps.upd | dsimp only | split)

theorem State.endDecode_keeps {r : State} (s : State) (status : Nat) (cls : Nat) (ctb : Nat) (h0 : Keeps r s) : Keeps r (State.endDecode s status cls ctb) := by
  unfold State.endDecode
  conv => zeta
  repeat' (first | with_reducible assumption | (intro _) | with_reducible apply State.modPc_keeps | with_reducible apply State.setWord_keeps | with_reducible apply State.finish_keeps | with_reducible apply State.notify_keeps | fail_if_no_progress with_reducible apply Keeps.upd | dsimp only | split)

theorem State.stopDecode_keeps {r : State} (s : State) (h0 : Keeps r s) : Keeps r (State.stopDecode s) := by
  unfold State.stopDecode
  conv => zeta
  repeat' (first | with_reducible assumption | (intro _) | with_reducible apply State.draw_keeps | with_reducible apply State.draw_keeps_eq (e := by with_reducible assumption) | with_reducible apply State.endDecode_keeps | fail_if_no_progress with_reducible apply Keeps.upd | dsimp only | split)

theorem State.decodePictureDone_keeps {r : State} (s : State) (v_r : DecResult) (h0 : Keeps r s) : Keeps r (State.decodePictureDone s v_r) := by
  unfold State.decodePictureDone
  conv => zeta
  repeat' (first | with_reducible assumption | (intro _) | with_reducible apply State.modPc_keeps | with_reducible apply State.endDecode_keeps | with_reducible apply State.drawBytes_keeps | with_reducible apply State.drawBytes_keeps_eq (e := by with_reducible assumption) | fail_if_no_progress with_reducible apply Keeps.upd | with_reducible apply Keeps.getD | dsimp only | split)

theorem opPcStatus_keeps {r : State} (op : Nat) (p : List Byte) (s : State) (h0 : Keeps r s) : Keeps r (opPcStatus op p s) := by
  unfold opPcStatus
  conv => zeta
  repeat' (first | with_reducible assumption | (intro _) | with_reducible apply State.finish_keeps | fail_if_no_progress with_reducible apply Keeps.upd | dsimp only | split)

theorem opPcBudget_keeps {r : State} (op : Nat) (p : List Byte) (s : State) (h0 : Keeps r s) : Keeps r (opPcBudget op p s) := by
  unfold opPcBudget
  conv => zeta
  repeat' (first | with_reducible assumption | (intro _) | with_reducible apply State.finish_keeps | fail_if_no_progress with_reducible apply Keeps.upd | dsimp only | split)

theorem opPcForceIdr_keeps {r : State} (op : Nat) (p : List Byte) (s : State) (h0 : Keeps r s) : Keeps r (opPcForceIdr op p s) := by
  unfold opPcForceIdr
  conv => zeta
  repeat' (first | with_reducible assumption | (intro _) | with_reducible apply State.finish_keeps | with_reducible apply State.modChan_keeps | fail_if_no_progress with_reducible apply Keeps.upd | dsimp only | split)

theorem opPcDecLoad_keeps {r : State} (op : Nat) (p : List Byte) (s : State) (h0 : Keeps r s) : Keeps r (opPcDecLoad op p s) := by
  unfold opPcDecLoad
  conv => zeta
  repeat' (first | with_reducible assumption | (intro _) | with_reducible apply State.finish_keeps | with_reducible apply State.modPc_keeps | fail_if_no_progress with_reducible apply Keeps.upd | dsimp only | split)

theorem opPcDecode_keeps {r : State} (op : Nat) (p : List Byte) (s : State) (h0 : Keeps r s) : Keeps r (opPcDecode op p s) := by
  unfold opPcDecode
  conv => zeta
  repeat' (first | with_reducible assumption | (intro _) | with_reducible apply State.finish_keeps | with_reducible apply State.modPc_keeps | (with_reducible apply State.room_keeps (e := by with_reducible assumption)) | fail_if_no_progress with_reducible apply Keeps.upd | dsimp only | split)

theorem opPcDecStop_keeps {r : State} (op : Nat) (p : List Byte) (s : State) (h0 : Keeps r s) : Keeps r (opPcDecStop op p s) := by
  unfold opPcDecStop
  conv => zeta
  repeat' (first | with_reducible assumption | (intro _) | with_reducible apply State.finish_keeps | with_reducible apply State.stopDecode_keeps | fail_if_no_progress with_reducible apply Keeps.upd | dsimp only | split)

theorem State.pcFollow_keeps {r : State} (s : State) (h0 : Keeps r s) : Keeps r (State.pcFollow s) := by
  unfold State.pcFollow
  conv => zeta
  repeat' (first | with_reducible assumption | (intro _) | with_reducible apply State.pcFollowChan_keeps | with_reducible apply State.stopDecode_keeps | with_reducible apply State.modPc_keeps | with_reducible apply State.xferPump_keeps | with_reducible apply State.stagesFollow_keeps | fail_if_no_progress with_reducible apply Keeps.upd | with_reducible apply Keeps.foldl | with_reducible apply Keeps.foldl_fst | with_reducible apply Keeps.foldl_snd | dsimp only | split)

end Sys2Proof.Machine
end

