-- ==== Sys2Proof/Laws/KeepsWatch.lean ====
section
/-! SUPPORT. The operations of Machine/Watch.lean keep what every operation inside a command keeps (`Keeps`). -/

namespace Sys2Proof.Machine

set_option linter.unusedTactic false
set_option linter.unreachableTactic false
set_option linter.unusedVariables false
set_option linter.unnecessarySeqFocus false

theorem State.modWa_keeps {r : State} (s : State) (f : Watch → Watch) (h0 : Keeps r s) : Keeps r (State.modWa s f) := by
  unfold State.modWa
  conv => zeta
  repeat' (first | with_reducible assumption | (intro _) | fail_if_no_progress with_reducible apply Keeps.upd | dsimp only | split)

theorem State.modCam_keeps {r : State} (s : State) (c : Nat) (f : WaChan → WaChan) (h0 : Keeps r s) : Keeps r (State.modCam s c f) := by
  unfold State.modCam
  conv => zeta
  repeat' (first | with_reducible assumption | (intro _) | with_reducible apply State.modWa_keeps | fail_if_no_progress with_reducible apply Keeps.upd | dsimp only | split)

theorem State.modReader_keeps {r : State} (s : State) (d : Nat) (f : Reader → Reader) (h0 : Keeps r s) : Keeps r (State.modReader s d f) := by
  unfold State.modReader
  conv => zeta
  repeat' (first | with_reducible assumption | (intro _) | with_reducible apply State.modWa_keeps | fail_if_no_progress with_reducible apply Keeps.upd | dsimp only | split)

theorem State.waNotify_keeps {r : State} (s : State) (code : Nat) (alarm : Bool) (st : CapStamp) (contents : List Byte) (h0 : Keeps r s) : Keeps r (State.waNotify s code alarm st contents) := by
  unfold State.waNotify
  conv => zeta
  repeat' (first | with_reducible assumption | (intro _) | with_reducible apply State.raise_keeps | fail_if_no_progress with_reducible apply Keeps.upd | dsimp only | split)

theorem State.camNotice_keeps {r : State} (s : State) (c : Nat) (kind : Nat) (st : CapStamp) (h0 : Keeps r s) : Keeps r (State.camNotice s c kind st) := by
  unfold State.camNotice
  conv => zeta
  repeat' (first | with_reducible assumption | (intro _) | with_reducible apply State.waNotify_keeps | fail_if_no_progress with_reducible apply Keeps.upd | dsimp only | split)

theorem State.lampLight_keeps {r : State} (s : State) (c : Nat) (h0 : Keeps r s) : Keeps r (State.lampLight s c) := by
  unfold State.lampLight
  conv => zeta
  repeat' (first | with_reducible assumption | (intro _) | with_reducible apply State.modCam_keeps | fail_if_no_progress with_reducible apply Keeps.upd | dsimp only | split)

theorem State.lampDark_keeps {r : State} (s : State) (c : Nat) (h0 : Keeps r s) : Keeps r (State.lampDark s c) := by
  unfold State.lampDark
  conv => zeta
  repeat' (first | with_reducible assumption | (intro _) | with_reducible apply State.modCam_keeps | fail_if_no_progress with_reducible apply Keeps.upd | dsimp only | split)

theorem State.lampOn_keeps {r : State} (s : State) (c : Nat) (h0 : Keeps r s) : Keeps r (State.lampOn s c) := by
  unfold State.lampOn
  conv => zeta
  repeat' (first | with_reducible assumption | (intro _) | with_reducible apply State.modCam_keeps | with_reducible apply State.lampLight_keeps | fail_if_no_progress with_reducible apply Keeps.upd | dsimp only | split)

theorem State.lampFollow_keeps {r : State} (s : State) (c : Nat) (h0 : Keeps r s) : Keeps r (State.lampFollow s c) := by
  unfold State.lampFollow
  conv => zeta
  repeat' (first | with_reducible assumption | (intro _) | with_reducible apply State.modCam_keeps | with_reducible apply State.count_keeps | with_reducible apply State.lampOn_keeps | fail_if_no_progress with_reducible apply Keeps.upd | dsimp only | split)

theorem State.lampMax_keeps {r : State} (s : State) (c : Nat) (h0 : Keeps r s) : Keeps r (State.lampMax s c) := by
  unfold State.lampMax
  conv => zeta
  repeat' (first | with_reducible assumption | (intro _) | with_reducible apply State.count_keeps | with_reducible apply State.lampDark_keeps | fail_if_no_progress with_reducible apply Keeps.upd | dsimp only | split)

theorem State.capture_keeps {r : State} (c : Nat) (entry : Option Nat) (op : Option Nat) (s : State) (h0 : Keeps r s) : Keeps r (State.capture c entry op s) := by
  unfold State.capture
  conv => zeta
  repeat' (first | with_reducible assumption | (intro _) | with_reducible apply State.count_keeps | with_reducible apply State.modCam_keeps | with_reducible apply State.pcTrigger_keeps | with_reducible apply State.lampLight_keeps | fail_if_no_progress with_reducible apply Keeps.upd | dsimp only | split)

theorem State.capEnd_keeps {r : State} (s : State) (c : Nat) (h0 : Keeps r s) : Keeps r (State.capEnd s c) := by
  unfold State.capEnd
  conv => zeta
  repeat' (first | with_reducible assumption | (intro _) | with_reducible apply State.lampDark_keeps | with_reducible apply State.modCam_keeps | fail_if_no_progress with_reducible apply Keeps.upd | dsimp only | split)

theorem State.frameStart_keeps {r : State} (s : State) (c : Nat) (vc : Nat) (h0 : Keeps r s) : Keeps r (State.frameStart s c vc) := by
  unfold State.frameStart
  conv => zeta
  repeat' (first | with_reducible assumption | (intro _) | with_reducible apply State.count_keeps | with_reducible apply State.camNotice_keeps | with_reducible apply State.modCam_keeps | with_reducible apply State.pcFrame_keeps | with_reducible apply State.finish?_keeps | fail_if_no_progress with_reducible apply Keeps.upd | dsimp only | split)

theorem State.takeLine_keeps {r : State} (s : State) (c : Nat) (l : Option PLine) (h0 : Keeps r s) : Keeps r (State.takeLine s c l) := by
  unfold State.takeLine
  conv => zeta
  repeat' (first | with_reducible assumption | (intro _) | with_reducible apply State.count_keeps | with_reducible apply State.ringLine_keeps | with_reducible apply State.modCam_keeps | fail_if_no_progress with_reducible apply Keeps.upd | with_reducible apply Keeps.getD | dsimp only | split)

theorem State.lineReceived_keeps {r : State} (s : State) (c : Nat) (vc : Nat) (dtype : Nat) (bad : Bool) (y : List Nat) (cb : List Nat) (cr : List Nat) (h0 : Keeps r s) : Keeps r (State.lineReceived s c vc dtype bad y cb cr) := by
  unfold State.lineReceived
  conv => zeta
  repeat' (first | with_reducible assumption | (intro _) | with_reducible apply State.count_keeps | with_reducible apply State.takeLine_keeps | fail_if_no_progress with_reducible apply Keeps.upd | dsimp only | split)

theorem State.missingLines_keeps {r : State} (c : Nat) (a1 : Nat) (a2 : State) (h0 : Keeps r a2) : Keeps r (State.missingLines c a1 a2) := by
  induction a1 generalizing c a2 with
  | zero => exact h0
  | succ k ih =>
    unfold State.missingLines
    conv => zeta
    repeat' (first | with_reducible assumption | (intro _) | with_reducible apply ih | with_reducible apply State.takeLine_keeps | fail_if_no_progress with_reducible apply Keeps.upd | dsimp only | split)

theorem State.frameEnd_keeps {r : State} (s : State) (c : Nat) (vc : Nat) (h0 : Keeps r s) : Keeps r (State.frameEnd s c vc) := by
  unfold State.frameEnd
  conv => zeta
  repeat' (first | with_reducible assumption | (intro _) | with_reducible apply State.count_keeps | with_reducible apply State.missingLines_keeps | with_reducible apply State.modCam_keeps | with_reducible apply State.camNotice_keeps | with_reducible apply State.capEnd_keeps | fail_if_no_progress with_reducible apply Keeps.upd | dsimp only | split)

theorem State.frameTimeout_keeps {r : State} (s : State) (c : Nat) (h0 : Keeps r s) : Keeps r (State.frameTimeout s c) := by
  unfold State.frameTimeout
  conv => zeta
  repeat' (first | with_reducible assumption | (intro _) | with_reducible apply State.finish?_keeps | with_reducible apply State.skipRecord_keeps | with_reducible apply State.count_keeps | with_reducible apply State.capEnd_keeps | with_reducible apply State.modCam_keeps | with_reducible apply State.camNotice_keeps | fail_if_no_progress with_reducible apply Keeps.upd | dsimp only | split)

theorem State.waLock_keeps {r : State} (s : State) (clip : Option Nat) (evidence : Bool) (kind : Nat) (h0 : Keeps r s) : Keeps r (State.waLock s clip evidence kind).1 := by
  unfold State.waLock
  conv => zeta
  repeat' (first | with_reducible assumption | (intro _) | with_reducible apply State.lockClip_keeps | with_reducible apply State.lockClip_keeps_eq (e := by with_reducible assumption) | fail_if_no_progress with_reducible apply Keeps.upd | dsimp only | split)

theorem State.waLock_keeps_eq {r : State} (s : State) (clip : Option Nat) (evidence : Bool) (kind : Nat) {xx tt} (e : State.waLock s clip evidence kind = (tt, xx)) (h0 : Keeps r s) : Keeps r tt := by
  have q := State.waLock_keeps (r := r) s clip evidence kind h0
  rw [e] at q
  exact q

theorem State.zoneEval_keeps {r : State} (c : Nat) (p : Pic) (s : State) (z : Nat) (h0 : Keeps r s) : Keeps r (State.zoneEval c p s z) := by
  unfold State.zoneEval
  conv => zeta
  repeat' (first | with_reducible assumption | (intro _) | with_reducible apply State.modCam_keeps | with_reducible apply State.waLock_keeps | with_reducible apply State.waLock_keeps_eq (e := by with_reducible assumption) | with_reducible apply State.waNotify_keeps | fail_if_no_progress with_reducible apply Keeps.upd | with_reducible apply Keeps.getD | dsimp only | split)

theorem State.discNotice_keeps {r : State} (s : State) (d : Nat) (kind : Nat) (st : CapStamp) (rot : Int) (h0 : Keeps r s) : Keeps r (State.discNotice s d kind st rot) := by
  unfold State.discNotice
  conv => zeta
  repeat' (first | with_reducible assumption | (intro _) | with_reducible apply State.waNotify_keeps | fail_if_no_progress with_reducible apply Keeps.upd | dsimp only | split)

theorem State.discAlarm_keeps {r : State} (s : State) (d : Nat) (kind : Nat) (p : Pic) (rot : Int) (h0 : Keeps r s) : Keeps r (State.discAlarm s d kind p rot) := by
  unfold State.discAlarm
  conv => zeta
  repeat' (first | with_reducible assumption | (intro _) | with_reducible apply State.waLock_keeps | with_reducible apply State.waLock_keeps_eq (e := by with_reducible assumption) | with_reducible apply State.discNotice_keeps | fail_if_no_progress with_reducible apply Keeps.upd | dsimp only | split)

theorem State.revolution_keeps {r : State} (s : State) (d : Nat) (p : Pic) (rot : Int) (h0 : Keeps r s) : Keeps r (State.revolution s d p rot) := by
  unfold State.revolution
  conv => zeta
  repeat' (first | with_reducible assumption | (intro _) | with_reducible apply State.modReader_keeps | with_reducible apply State.discAlarm_keeps | fail_if_no_progress with_reducible apply Keeps.upd | dsimp only | split)

theorem State.certain_keeps {r : State} (s : State) (d : Nat) (p : Pic) (rot : Int) (dt : Nat) (h0 : Keeps r s) : Keeps r (State.certain s d p rot dt) := by
  unfold State.certain
  conv => zeta
  repeat' (first | with_reducible assumption | (intro _) | with_reducible apply State.modReader_keeps | with_reducible apply State.discNotice_keeps | with_reducible apply State.discAlarm_keeps | with_reducible apply State.revolution_keeps | fail_if_no_progress with_reducible apply Keeps.upd | dsimp only | split)

theorem State.uncertain_keeps {r : State} (s : State) (d : Nat) (p : Pic) (rot : Int) (h0 : Keeps r s) : Keeps r (State.uncertain s d p rot) := by
  unfold State.uncertain
  conv => zeta
  repeat' (first | with_reducible assumption | (intro _) | with_reducible apply State.discNotice_keeps | with_reducible apply State.modReader_keeps | fail_if_no_progress with_reducible apply Keeps.upd | dsimp only | split)

theorem State.overspeed_keeps {r : State} (s : State) (d : Nat) (p : Pic) (rot : Int) (h0 : Keeps r s) : Keeps r (State.overspeed s d p rot) := by
  unfold State.overspeed
  conv => zeta
  repeat' (first | with_reducible assumption | (intro _) | with_reducible apply State.modReader_keeps | with_reducible apply State.discNotice_keeps | fail_if_no_progress with_reducible apply Keeps.upd | dsimp only | split)

theorem State.readDisc_keeps {r : State} (s : State) (d : Nat) (p : Pic) (v : Option Int) (phi0 : Option Int) (h0 : Keeps r s) : Keeps r (State.readDisc s d p v phi0) := by
  unfold State.readDisc
  conv => zeta
  repeat' (first | with_reducible assumption | (intro _) | with_reducible apply State.modReader_keeps | with_reducible apply State.certain_keeps | with_reducible apply State.uncertain_keeps | with_reducible apply State.overspeed_keeps | fail_if_no_progress with_reducible apply Keeps.upd | dsimp only | split)

theorem State.discEval_keeps {r : State} (c : Nat) (p : Pic) (s : State) (d : Nat) (h0 : Keeps r s) : Keeps r (State.discEval c p s d) := by
  unfold State.discEval
  conv => zeta
  repeat' (first | with_reducible assumption | (intro _) | with_reducible apply State.readDisc_keeps | fail_if_no_progress with_reducible apply Keeps.upd | dsimp only | split)

theorem State.fieldFollow_keeps {r : State} (s : State) (c : Nat) (h0 : Keeps r s) : Keeps r (State.fieldFollow s c) := by
  unfold State.fieldFollow
  conv => zeta
  repeat' (first | with_reducible assumption | (intro _) | with_reducible apply State.modCam_keeps | with_reducible apply State.modPic_keeps | with_reducible apply State.discEval_keeps | with_reducible apply State.zoneEval_keeps | fail_if_no_progress with_reducible apply Keeps.upd | with_reducible apply Keeps.foldl | with_reducible apply Keeps.foldl_fst | with_reducible apply Keeps.foldl_snd | dsimp only | split)

theorem State.s3RowDone_keeps {r : State} (s : State) (bytes : List Byte) (preds : List (Int × Int)) (poison : Option Nat) (h0 : Keeps r s) : Keeps r (State.s3RowDone s bytes preds poison) := by
  unfold State.s3RowDone
  conv => zeta
  repeat' (first | with_reducible assumption | (intro _) | with_reducible apply State.fieldFollow_keeps | with_reducible apply State.s3Row_keeps | fail_if_no_progress with_reducible apply Keeps.upd | dsimp only | split)

theorem State.discStop_keeps {r : State} (s : State) (d : Nat) (h0 : Keeps r s) : Keeps r (State.discStop s d) := by
  unfold State.discStop
  conv => zeta
  repeat' (first | with_reducible assumption | (intro _) | with_reducible apply State.modReader_keeps | with_reducible apply State.discNotice_keeps | fail_if_no_progress with_reducible apply Keeps.upd | dsimp only | split)

theorem State.waOff_keeps {r : State} (s : State) (c : Nat) (h0 : Keeps r s) : Keeps r (State.waOff s c) := by
  unfold State.waOff
  conv => zeta
  repeat' (first | with_reducible assumption | (intro _) | with_reducible apply State.modCam_keeps | with_reducible apply State.lampDark_keeps | with_reducible apply State.finish?_keeps | with_reducible apply State.modReader_keeps | fail_if_no_progress with_reducible apply Keeps.upd | with_reducible apply Keeps.foldl | with_reducible apply Keeps.foldl_fst | with_reducible apply Keeps.foldl_snd | dsimp only | split)

theorem State.waFollow_keeps {r : State} (s : State) (h0 : Keeps r s) : Keeps r (State.waFollow s) := by
  unfold State.waFollow
  conv => zeta
  repeat' (first | with_reducible assumption | (intro _) | with_reducible apply State.fieldFollow_keeps | with_reducible apply State.lampFollow_keeps | with_reducible apply State.waOff_keeps | fail_if_no_progress with_reducible apply Keeps.upd | with_reducible apply Keeps.foldl | with_reducible apply Keeps.foldl_fst | with_reducible apply Keeps.foldl_snd | dsimp only | split)

theorem State.zoneWritten_keeps {r : State} (s : State) (c : Nat) (z : Nat) (h0 : Keeps r s) : Keeps r (State.zoneWritten s c z) := by
  unfold State.zoneWritten
  conv => zeta
  repeat' (first | with_reducible assumption | (intro _) | with_reducible apply State.modCam_keeps | fail_if_no_progress with_reducible apply Keeps.upd | dsimp only | split)

theorem State.discWritten_keeps {r : State} (s : State) (d : Nat) (old : Nat) (h0 : Keeps r s) : Keeps r (State.discWritten s d old) := by
  unfold State.discWritten
  conv => zeta
  repeat' (first | with_reducible assumption | (intro _) | with_reducible apply State.modReader_keeps | fail_if_no_progress with_reducible apply Keeps.upd | dsimp only | split)

theorem State.camStart_keeps {r : State} (s : State) (c : Nat) (h0 : Keeps r s) : Keeps r (State.camStart s c) := by
  unfold State.camStart
  conv => zeta
  repeat' (first | with_reducible assumption | (intro _) | with_reducible apply State.modCam_keeps | fail_if_no_progress with_reducible apply Keeps.upd | dsimp only | split)

theorem State.camsStart_keeps {r : State} (s : State) (h0 : Keeps r s) : Keeps r (State.camsStart s) := by
  unfold State.camsStart
  conv => zeta
  repeat' (first | with_reducible assumption | (intro _) | with_reducible apply State.camStart_keeps | fail_if_no_progress with_reducible apply Keeps.upd | with_reducible apply Keeps.foldl | with_reducible apply Keeps.foldl_fst | with_reducible apply Keeps.foldl_snd | dsimp only | split)

theorem opWaStatus_keeps {r : State} (op : Nat) (p : List Byte) (s : State) (h0 : Keeps r s) : Keeps r (opWaStatus op p s) := by
  unfold opWaStatus
  conv => zeta
  repeat' (first | with_reducible assumption | (intro _) | with_reducible apply State.finish_keeps | fail_if_no_progress with_reducible apply Keeps.upd | dsimp only | split)

theorem opWaCapture_keeps {r : State} (op : Nat) (p : List Byte) (s : State) (h0 : Keeps r s) : Keeps r (opWaCapture op p s) := by
  unfold opWaCapture
  conv => zeta
  repeat' (first | with_reducible assumption | (intro _) | with_reducible apply State.finish_keeps | with_reducible apply State.capture_keeps | fail_if_no_progress with_reducible apply Keeps.upd | dsimp only | split)

theorem opWaField_keeps {r : State} (op : Nat) (p : List Byte) (s : State) (h0 : Keeps r s) : Keeps r (opWaField op p s) := by
  unfold opWaField
  conv => zeta
  repeat' (first | with_reducible assumption | (intro _) | with_reducible apply State.finish_keeps | fail_if_no_progress with_reducible apply Keeps.upd | dsimp only | split)

theorem opWaDisc_keeps {r : State} (op : Nat) (p : List Byte) (s : State) (h0 : Keeps r s) : Keeps r (opWaDisc op p s) := by
  unfold opWaDisc
  conv => zeta
  repeat' (first | with_reducible assumption | (intro _) | with_reducible apply State.finish_keeps | fail_if_no_progress with_reducible apply Keeps.upd | dsimp only | split)

theorem opWaI2c_keeps {r : State} (op : Nat) (p : List Byte) (s : State) (h0 : Keeps r s) : Keeps r (opWaI2c op p s) := by
  unfold opWaI2c
  conv => zeta
  repeat' (first | with_reducible assumption | (intro _) | with_reducible apply State.finish_keeps | with_reducible apply State.draw_keeps | with_reducible apply State.draw_keeps_eq (e := by with_reducible assumption) | with_reducible apply State.drawBytes_keeps | with_reducible apply State.drawBytes_keeps_eq (e := by with_reducible assumption) | fail_if_no_progress with_reducible apply Keeps.upd | dsimp only | split)

end Sys2Proof.Machine
end

