-- ==== Sys2Proof/Laws/KeepsApply.lean ====
section
/-! SUPPORT. The operations of Machine/Apply.lean keep what every operation inside a command keeps (`Keeps`). -/

namespace Sys2Proof.Machine

set_option linter.unusedTactic false
set_option linter.unreachableTactic false
set_option linter.unusedVariables false
set_option linter.unnecessarySeqFocus false

theorem State.readReg_keeps {r : State} (s : State) (a : Nat) (h0 : Keeps r s) : Keeps r (State.readReg s a).2 := by
  unfold State.readReg
  conv => zeta
  repeat' (first | with_reducible assumption | (intro _) | with_reducible apply State.setWord_keeps | with_reducible apply State.inCycle_keeps | fail_if_no_progress with_reducible apply Keeps.upd | dsimp only | split)

theorem State.readReg_keeps_eq {r : State} (s : State) (a : Nat) {xx tt} (e : State.readReg s a = (xx, tt)) (h0 : Keeps r s) : Keeps r tt := by
  have q := State.readReg_keeps (r := r) s a h0
  rw [e] at q
  exact q

theorem State.readRegs_keeps {r : State} (s : State) (a : Nat) (a2 : Nat) (h0 : Keeps r s) : Keeps r (State.readRegs s a a2).2 := by
  induction a2 generalizing s a with
  | zero => exact h0
  | succ k ih => exact ih _ _ (State.readReg_keeps _ _ h0)

theorem State.laneWritten_keeps {r : State} (s : State) (n : Nat) (old : Nat) (h0 : Keeps r s) : Keeps r (State.laneWritten s n old) := by
  unfold State.laneWritten
  conv => zeta
  repeat' (first | with_reducible assumption | (intro _) | with_reducible apply State.wakeLane_keeps | with_reducible apply State.laneFailed_keeps | with_reducible apply State.laneGone_keeps | with_reducible apply State.laneOut_keeps | fail_if_no_progress with_reducible apply Keeps.upd | dsimp only | split)

theorem State.wroteA_keeps {r : State} (s : State) (a : Nat) (old : Nat) (h0 : Keeps r s) : Keeps r (State.wroteA s a old) := by
  unfold State.wroteA
  conv => zeta
  repeat' (first | with_reducible assumption | (intro _) | with_reducible apply State.limitChanged_keeps | with_reducible apply State.cutBurst_keeps | with_reducible apply State.maCfgWritten_keeps | with_reducible apply State.entryWritten_keeps | with_reducible apply State.laneWritten_keeps | with_reducible apply State.tdPortWritten_keeps | with_reducible apply State.damperWritten_keeps | with_reducible apply State.tribReleased_keeps | fail_if_no_progress with_reducible apply Keeps.upd | dsimp only | split)

theorem State.wroteB_keeps {r : State} (s : State) (a : Nat) (old : Nat) (h0 : Keeps r s) : Keeps r (State.wroteB s a old) := by
  unfold State.wroteB
  conv => zeta
  repeat' (first | with_reducible assumption | (intro _) | with_reducible apply State.emCfgWritten_keeps | with_reducible apply State.queueOff_keeps | with_reducible apply State.camStart_keeps | with_reducible apply State.discWritten_keeps | with_reducible apply State.stLinkWritten_keeps | with_reducible apply State.zoneWritten_keeps | fail_if_no_progress with_reducible apply Keeps.upd | with_reducible apply Keeps.foldl | with_reducible apply Keeps.foldl_fst | with_reducible apply Keeps.foldl_snd | dsimp only | split)

theorem State.settlePolicer_keeps {r : State} (s : State) (a : Nat) (h0 : Keeps r s) : Keeps r (State.settlePolicer s a) := by
  unfold State.settlePolicer
  conv => zeta
  repeat' (first | with_reducible assumption | (intro _) | with_reducible apply State.modUp_keeps | fail_if_no_progress with_reducible apply Keeps.upd | dsimp only | split)

theorem State.writeReg_keeps {r : State} (s : State) (a : Nat) (v : Nat) (h0 : Keeps r s) : Keeps r (State.writeReg s a v).1 := by
  unfold State.writeReg
  conv => zeta
  repeat' (first | with_reducible assumption | (intro _) | with_reducible apply State.setWord_keeps | with_reducible apply State.settlePolicer_keeps | with_reducible apply State.wroteA_keeps | with_reducible apply State.wroteB_keeps | fail_if_no_progress with_reducible apply Keeps.upd | dsimp only | split)

theorem State.writeReg_keeps_eq {r : State} (s : State) (a : Nat) (v : Nat) {xx tt} (e : State.writeReg s a v = (tt, xx)) (h0 : Keeps r s) : Keeps r tt := by
  have q := State.writeReg_keeps (r := r) s a v h0
  rw [e] at q
  exact q

theorem State.writeRegs_keeps {r : State} (s : State) (a : Nat) (i : Nat) (a3 : List Nat) (h0 : Keeps r s) : Keeps r (State.writeRegs s a i a3).1 := by
  induction a3 generalizing s a i with
  | nil => exact h0
  | cons w l ih =>
    unfold State.writeRegs
    conv => zeta
    repeat' (first | with_reducible assumption | (intro _) | with_reducible apply ih | with_reducible apply State.writeReg_keeps | with_reducible apply State.writeReg_keeps_eq (e := by with_reducible assumption) | fail_if_no_progress with_reducible apply Keeps.upd | dsimp only | split)

theorem State.writeRegs_keeps_eq {r : State} (s : State) (a : Nat) (i : Nat) (a3 : List Nat) {xx tt} (e : State.writeRegs s a i a3 = (tt, xx)) (h0 : Keeps r s) : Keeps r tt := by
  have q := State.writeRegs_keeps (r := r) s a i a3 h0
  rw [e] at q
  exact q

theorem opRegRead_keeps {r : State} (op : Nat) (p : List Byte) (s : State) (h0 : Keeps r s) : Keeps r (opRegRead op p s) := by
  unfold opRegRead
  conv => zeta
  repeat' (first | with_reducible assumption | (intro _) | with_reducible apply State.finish_keeps | with_reducible apply State.readRegs_keeps | with_reducible apply State.readRegs_keeps_eq (e := by with_reducible assumption) | fail_if_no_progress with_reducible apply Keeps.upd | dsimp only | split)

theorem opRegWrite_keeps {r : State} (op : Nat) (p : List Byte) (s : State) (h0 : Keeps r s) : Keeps r (opRegWrite op p s) := by
  unfold opRegWrite
  conv => zeta
  repeat' (first | with_reducible assumption | (intro _) | with_reducible apply State.finish_keeps | with_reducible apply State.writeRegs_keeps | with_reducible apply State.writeRegs_keeps_eq (e := by with_reducible assumption) | fail_if_no_progress with_reducible apply Keeps.upd | dsimp only | split)

theorem opRegModify_keeps {r : State} (op : Nat) (p : List Byte) (s : State) (h0 : Keeps r s) : Keeps r (opRegModify op p s) := by
  unfold opRegModify
  conv => zeta
  repeat' (first | with_reducible assumption | (intro _) | with_reducible apply State.finish_keeps | with_reducible apply State.writeReg_keeps | with_reducible apply State.writeReg_keeps_eq (e := by with_reducible assumption) | fail_if_no_progress with_reducible apply Keeps.upd | with_reducible apply Keeps.foldl | with_reducible apply Keeps.foldl_fst | with_reducible apply Keeps.foldl_snd | dsimp only | split)

theorem State.applyRecord_keeps {r : State} (s : State) (type : Nat) (d : List Byte) {t : State} (h0 : Keeps r s) (e : State.applyRecord s type d = some t) : Keeps r t := by
  unfold State.applyRecord at e
  conv at e => zeta
  (repeat' split at e) <;> (try cases e) <;> (try simp only [Option.some.injEq, Prod.mk.injEq] at e) <;> (try obtain ⟨_, e⟩ := e) <;> (try subst e)
  all_goals (repeat' (first | with_reducible assumption | (intro _) | with_reducible apply State.writeRegs_keeps | with_reducible apply State.writeRegs_keeps_eq (e := by with_reducible assumption) | with_reducible apply State.loadProg_keeps | with_reducible apply State.loadProg_keeps_eq (e := by with_reducible assumption) | with_reducible apply State.modBoot_keeps | fail_if_no_progress with_reducible apply Keeps.upd | dsimp only | split))

theorem State.applyBody_keeps {r : State} (a0 : Nat) (a1 : List Byte) (a2 : State) (h0 : Keeps r a2) : Keeps r (State.applyBody a0 a1 a2).1 := by
  induction a0 generalizing a1 a2 with
  | zero => exact h0
  | succ k ih =>
    unfold State.applyBody
    conv => zeta
    repeat' (first | with_reducible assumption | (intro _) | with_reducible apply ih | (with_reducible apply State.applyRecord_keeps (e := by with_reducible assumption)) | fail_if_no_progress with_reducible apply Keeps.upd | dsimp only | split)

theorem State.applyBody_keeps_eq {r : State} (a0 : Nat) (a1 : List Byte) (a2 : State) {xx tt} (e : State.applyBody a0 a1 a2 = (tt, xx)) (h0 : Keeps r a2) : Keeps r tt := by
  have q := State.applyBody_keeps (r := r) a0 a1 a2 h0
  rw [e] at q
  exact q

theorem State.applyImage_keeps {r : State} (s : State) (b : List Byte) (h0 : Keeps r s) : Keeps r (State.applyImage s b).1 := by
  unfold State.applyImage
  conv => zeta
  repeat' (first | with_reducible assumption | (intro _) | with_reducible apply State.applyBody_keeps | with_reducible apply State.applyBody_keeps_eq (e := by with_reducible assumption) | with_reducible apply State.modBoot_keeps | with_reducible apply State.modSk_keeps | fail_if_no_progress with_reducible apply Keeps.upd | dsimp only | split)

theorem State.applyImage_keeps_eq {r : State} (s : State) (b : List Byte) {xx tt} (e : State.applyImage s b = (tt, xx)) (h0 : Keeps r s) : Keeps r tt := by
  have q := State.applyImage_keeps (r := r) s b h0
  rw [e] at q
  exact q

theorem State.loadConfig_keeps {r : State} (s : State) (h0 : Keeps r s) : Keeps r (State.loadConfig s) := by
  unfold State.loadConfig
  conv => zeta
  repeat' (first | with_reducible assumption | (intro _) | with_reducible apply State.applyImage_keeps | with_reducible apply State.applyImage_keeps_eq (e := by with_reducible assumption) | with_reducible apply State.modSk_keeps | with_reducible apply State.modBoot_keeps | fail_if_no_progress with_reducible apply Keeps.upd | dsimp only | split)

end Sys2Proof.Machine
end

