-- ==== Sys2Proof/Laws/KeepsStack.lean ====
section
/-! SUPPORT. The operations of Machine/Stack.lean keep what every operation inside a command keeps (`Keeps`). -/

namespace Sys2Proof.Machine

set_option linter.unusedTactic false
set_option linter.unreachableTactic false
set_option linter.unusedVariables false
set_option linter.unnecessarySeqFocus false

theorem State.clearOffice_keeps {r : State} (s : State) (h0 : Keeps r s) : Keeps r (State.clearOffice s) := by
  unfold State.clearOffice
  conv => zeta
  repeat' (first | with_reducible assumption | (intro _) | with_reducible apply State.modCmd_keeps | with_reducible apply State.modSk_keeps | with_reducible apply State.modUp_keeps | fail_if_no_progress with_reducible apply Keeps.upd | dsimp only | split)

theorem State.darken_keeps {r : State} (s : State) (h0 : Keeps r s) : Keeps r (State.darken s) := by
  unfold State.darken
  conv => zeta
  repeat' (first | with_reducible assumption | (intro _) | with_reducible apply State.dropBurst_keeps | with_reducible apply State.modUp_keeps | with_reducible apply State.refund_keeps | with_reducible apply State.modSk_keeps | with_reducible apply State.modTm_keeps | with_reducible apply State.modTd_keeps | with_reducible apply State.setTm_keeps | fail_if_no_progress with_reducible apply Keeps.upd | with_reducible apply Keeps.foldl | with_reducible apply Keeps.foldl_fst | with_reducible apply Keeps.foldl_snd | dsimp only | split)

theorem State.dropReplies_keeps {r : State} (s : State) (old : Nat) (h0 : Keeps r s) : Keeps r (State.dropReplies s old) := by
  unfold State.dropReplies
  conv => zeta
  repeat' (first | with_reducible assumption | (intro _) | with_reducible apply State.freeWaiting_keeps | fail_if_no_progress with_reducible apply Keeps.upd | with_reducible apply Keeps.foldl | with_reducible apply Keeps.foldl_fst | with_reducible apply Keeps.foldl_snd | dsimp only | split)

theorem State.turnTraffic_keeps {r : State} (s : State) (old : Nat) (new : Nat) (h0 : Keeps r s) : Keeps r (State.turnTraffic s old new) := by
  unfold State.turnTraffic
  conv => zeta
  repeat' (first | with_reducible assumption | (intro _) | with_reducible apply State.modSk_keeps | with_reducible apply State.dropReplies_keeps | with_reducible apply State.modLink_keeps | fail_if_no_progress with_reducible apply Keeps.upd | with_reducible apply Keeps.foldl | with_reducible apply Keeps.foldl_fst | with_reducible apply Keeps.foldl_snd | dsimp only | split)

theorem State.lostNotice_keeps {r : State} (s : State) (old : Nat) (new : Nat) (h0 : Keeps r s) : Keeps r (State.lostNotice s old new) := by
  unfold State.lostNotice
  conv => zeta
  repeat' (first | with_reducible assumption | (intro _) | with_reducible apply State.raise_keeps | with_reducible apply State.modSk_keeps | fail_if_no_progress with_reducible apply Keeps.upd | dsimp only | split)

theorem State.treeOffice_keeps {r : State} (s : State) (h0 : Keeps r s) : Keeps r (State.treeOffice s) := by
  unfold State.treeOffice
  conv => zeta
  repeat' (first | with_reducible assumption | (intro _) | with_reducible apply State.enterListen_keeps | with_reducible apply State.modTd_keeps | fail_if_no_progress with_reducible apply Keeps.upd | dsimp only | split)

theorem State.setTimeState_keeps {r : State} (s : State) (loose : Bool) (susp : Bool) (h0 : Keeps r s) : Keeps r (State.setTimeState s loose susp) := by
  unfold State.setTimeState
  conv => zeta
  repeat' (first | with_reducible assumption | (intro _) | with_reducible apply State.notify_keeps | with_reducible apply State.modSk_keeps | fail_if_no_progress with_reducible apply Keeps.upd | dsimp only | split)

theorem State.takeOffice_keeps {r : State} (s : State) (term : Nat) (h0 : Keeps r s) : Keeps r (State.takeOffice s term) := by
  unfold State.takeOffice
  conv => zeta
  repeat' (first | with_reducible assumption | (intro _) | with_reducible apply State.modSk_keeps | with_reducible apply State.setTerm_keeps | with_reducible apply State.lostNotice_keeps | with_reducible apply State.turnTraffic_keeps | with_reducible apply State.announceAll_keeps | with_reducible apply State.sendStackState_keeps | with_reducible apply State.judgeAll_keeps | with_reducible apply State.setTimeState_keeps | fail_if_no_progress with_reducible apply Keeps.upd | dsimp only | split)

theorem State.joinStack_keeps {r : State} (s : State) (h0 : Keeps r s) : Keeps r (State.joinStack s) := by
  unfold State.joinStack
  conv => zeta
  repeat' (first | with_reducible assumption | (intro _) | with_reducible apply State.modCmd_keeps | with_reducible apply State.modSk_keeps | with_reducible apply State.raise_keeps | with_reducible apply State.darken_keeps | with_reducible apply State.pumpOut_keeps | fail_if_no_progress with_reducible apply Keeps.upd | with_reducible apply Keeps.foldl | with_reducible apply Keeps.foldl_fst | with_reducible apply Keeps.foldl_snd | dsimp only | split)

theorem State.follow_keeps {r : State} (s : State) (a1 : Taken) (h0 : Keeps r s) : Keeps r (State.follow s a1) := by
  unfold State.follow
  conv => zeta
  repeat' (first | with_reducible assumption | (intro _) | with_reducible apply State.darken_keeps | with_reducible apply State.clearOffice_keeps | with_reducible apply State.modSk_keeps | with_reducible apply State.setTerm_keeps | with_reducible apply State.modPeer_keeps | with_reducible apply State.judge_keeps | with_reducible apply State.turnTraffic_keeps | with_reducible apply State.modCmd_keeps | with_reducible apply State.moveMsgs_keeps | with_reducible apply State.lostNotice_keeps | fail_if_no_progress with_reducible apply Keeps.upd | dsimp only | split)

theorem State.stackState_keeps {r : State} (s : State) (h0 : Keeps r s) : Keeps r (State.stackState s) := by
  unfold State.stackState
  conv => zeta
  repeat' (first | with_reducible assumption | (intro _) | with_reducible apply State.takeMsg_keeps | with_reducible apply State.takeMsg_keeps_eq (e := by with_reducible assumption) | with_reducible apply State.follow_keeps | fail_if_no_progress with_reducible apply Keeps.upd | dsimp only | split)

theorem State.leadBack_keeps {r : State} (s : State) (h0 : Keeps r s) : Keeps r (State.leadBack s) := by
  unfold State.leadBack
  conv => zeta
  repeat' (first | with_reducible assumption | (intro _) | with_reducible apply State.modCmd_keeps | fail_if_no_progress with_reducible apply Keeps.upd | dsimp only | split)

theorem State.electTimeout_keeps {r : State} (s : State) (h0 : Keeps r s) : Keeps r (State.electTimeout s) := by
  unfold State.electTimeout
  conv => zeta
  repeat' (first | with_reducible assumption | (intro _) | with_reducible apply State.stepEnd_keeps | with_reducible apply State.joinStack_keeps | with_reducible apply State.takeOffice_keeps | with_reducible apply State.count_keeps | with_reducible apply State.leadBack_keeps | fail_if_no_progress with_reducible apply Keeps.upd | dsimp only | split)

theorem State.stackStart_keeps {r : State} (s : State) (h0 : Keeps r s) : Keeps r (State.stackStart s) := by
  unfold State.stackStart
  conv => zeta
  repeat' (first | with_reducible assumption | (intro _) | with_reducible apply State.loadTree_keeps | with_reducible apply State.modSk_keeps | with_reducible apply State.stepEnd_keeps | with_reducible apply State.takeOffice_keeps | with_reducible apply State.count_keeps | with_reducible apply State.joinStack_keeps | with_reducible apply State.announceAll_keeps | fail_if_no_progress with_reducible apply Keeps.upd | dsimp only | split)

theorem State.leadLost_keeps {r : State} (s : State) (h0 : Keeps r s) : Keeps r (State.leadLost s) := by
  unfold State.leadLost
  conv => zeta
  repeat' (first | with_reducible assumption | (intro _) | with_reducible apply State.modSk_keeps | fail_if_no_progress with_reducible apply Keeps.upd | dsimp only | split)

theorem State.abdicate_keeps {r : State} (s : State) (h0 : Keeps r s) : Keeps r (State.abdicate s) := by
  unfold State.abdicate
  conv => zeta
  repeat' (first | with_reducible assumption | (intro _) | with_reducible apply State.modSk_keeps | with_reducible apply State.darken_keeps | fail_if_no_progress with_reducible apply Keeps.upd | dsimp only | split)

theorem State.takeover_keeps {r : State} (s : State) (h0 : Keeps r s) : Keeps r (State.takeover s) := by
  unfold State.takeover
  conv => zeta
  repeat' (first | with_reducible assumption | (intro _) | with_reducible apply State.modSk_keeps | with_reducible apply State.count_keeps | with_reducible apply State.clearOffice_keeps | with_reducible apply State.treeOffice_keeps | with_reducible apply State.loadTree_keeps | with_reducible apply State.takeOffice_keeps | fail_if_no_progress with_reducible apply Keeps.upd | dsimp only | split)

theorem State.resumeOffice_keeps {r : State} (s : State) (h0 : Keeps r s) : Keeps r (State.resumeOffice s) := by
  unfold State.resumeOffice
  conv => zeta
  repeat' (first | with_reducible assumption | (intro _) | with_reducible apply State.treeOffice_keeps | with_reducible apply State.takeOffice_keeps | fail_if_no_progress with_reducible apply Keeps.upd | dsimp only | split)

theorem State.stackFollow_keeps {r : State} (s : State) (h0 : Keeps r s) : Keeps r (State.stackFollow s) := by
  unfold State.stackFollow
  conv => zeta
  repeat' (first | with_reducible assumption | (intro _) | with_reducible apply State.modSk_keeps | with_reducible apply State.darken_keeps | with_reducible apply State.resumeOffice_keeps | with_reducible apply State.announceAll_keeps | fail_if_no_progress with_reducible apply Keeps.upd | dsimp only | split)

theorem State.memberState_keeps {r : State} (s : State) (h0 : Keeps r s) : Keeps r (State.memberState s) := by
  unfold State.memberState
  conv => zeta
  repeat' (first | with_reducible assumption | (intro _) | with_reducible apply State.takeMsg_keeps | with_reducible apply State.takeMsg_keeps_eq (e := by with_reducible assumption) | with_reducible apply State.modPeer_keeps | with_reducible apply State.setPresent_keeps | fail_if_no_progress with_reducible apply Keeps.upd | dsimp only | split)

theorem State.memberStateTimeout_keeps {r : State} (s : State) (h0 : Keeps r s) : Keeps r (State.memberStateTimeout s) := by
  unfold State.memberStateTimeout
  conv => zeta
  repeat' (first | with_reducible assumption | (intro _) | with_reducible apply State.setPresent_keeps | fail_if_no_progress with_reducible apply Keeps.upd | with_reducible apply Keeps.foldl | with_reducible apply Keeps.foldl_fst | with_reducible apply Keeps.foldl_snd | dsimp only | split)

theorem State.routeIn_keeps {r : State} (s : State) (h0 : Keeps r s) : Keeps r (State.routeIn s) := by
  unfold State.routeIn
  conv => zeta
  repeat' (first | with_reducible assumption | (intro _) | with_reducible apply State.takeMsg_keeps | with_reducible apply State.takeMsg_keeps_eq (e := by with_reducible assumption) | with_reducible apply State.modSk_keeps | with_reducible apply State.moveMsgs_keeps | with_reducible apply State.sendRoutes_keeps | fail_if_no_progress with_reducible apply Keeps.upd | dsimp only | split)

theorem State.routeTimer_keeps {r : State} (s : State) (h0 : Keeps r s) : Keeps r (State.routeTimer s) := by
  unfold State.routeTimer
  conv => zeta
  repeat' (first | with_reducible assumption | (intro _) | with_reducible apply State.modSk_keeps | with_reducible apply State.sendRoutes_keeps | fail_if_no_progress with_reducible apply Keeps.upd | dsimp only | split)

theorem State.announceTimer_keeps {r : State} (s : State) (h0 : Keeps r s) : Keeps r (State.announceTimer s) := by
  unfold State.announceTimer
  conv => zeta
  repeat' (first | with_reducible assumption | (intro _) | with_reducible apply State.announceAll_keeps | fail_if_no_progress with_reducible apply Keeps.upd | dsimp only | split)

theorem State.stateTimer_keeps {r : State} (s : State) (next : Nat) (blockers : Nat) (h0 : Keeps r s) : Keeps r (State.stateTimer s next blockers) := by
  unfold State.stateTimer
  conv => zeta
  repeat' (first | with_reducible assumption | (intro _) | with_reducible apply State.sendStackState_keeps | with_reducible apply State.sendMemberState_keeps | fail_if_no_progress with_reducible apply Keeps.upd | dsimp only | split)

theorem State.sendParts_keeps {r : State} (s : State) (m : Nat) (type : Nat) (b : List Byte) (h0 : Keeps r s) : Keeps r (State.sendParts s m type b) := by
  unfold State.sendParts
  conv => zeta
  repeat' (first | with_reducible assumption | (intro _) | with_reducible apply State.sendMsg_keeps | fail_if_no_progress with_reducible apply Keeps.upd | with_reducible apply Keeps.foldl | with_reducible apply Keeps.foldl_fst | with_reducible apply Keeps.foldl_snd | dsimp only | split)

theorem State.pushTo_keeps {r : State} (s : State) (m : Nat) (image : List Byte) (h0 : Keeps r s) : Keeps r (State.pushTo s m image) := by
  unfold State.pushTo
  conv => zeta
  repeat' (first | with_reducible assumption | (intro _) | with_reducible apply State.modPeer_keeps | with_reducible apply State.sendParts_keeps | fail_if_no_progress with_reducible apply Keeps.upd | dsimp only | split)

theorem State.offerImage_keeps {r : State} (s : State) (m : Nat) (h0 : Keeps r s) : Keeps r (State.offerImage s m) := by
  unfold State.offerImage
  conv => zeta
  repeat' (first | with_reducible assumption | (intro _) | with_reducible apply State.modPeer_keeps | with_reducible apply State.sendParts_keeps | fail_if_no_progress with_reducible apply Keeps.upd | dsimp only | split)

theorem State.startPush_keeps {r : State} (s : State) (op : Option Nat) (image : List Byte) (h0 : Keeps r s) : Keeps r (State.startPush s op image) := by
  unfold State.startPush
  conv => zeta
  repeat' (first | with_reducible assumption | (intro _) | with_reducible apply State.modSk_keeps | with_reducible apply State.pushTo_keeps | with_reducible apply State.flashAsk_keeps | fail_if_no_progress with_reducible apply Keeps.upd | with_reducible apply Keeps.foldl | with_reducible apply Keeps.foldl_fst | with_reducible apply Keeps.foldl_snd | dsimp only | split)

theorem State.endPush_keeps {r : State} (s : State) (h0 : Keeps r s) : Keeps r (State.endPush s) := by
  unfold State.endPush
  conv => zeta
  repeat' (first | with_reducible assumption | (intro _) | with_reducible apply State.finish?_keeps | with_reducible apply State.modSk_keeps | with_reducible apply State.startPush_keeps | fail_if_no_progress with_reducible apply Keeps.upd | dsimp only | split)

theorem State.pushDone_keeps {r : State} (s : State) (m : Nat) (ok : Bool) (h0 : Keeps r s) : Keeps r (State.pushDone s m ok) := by
  unfold State.pushDone
  conv => zeta
  repeat' (first | with_reducible assumption | (intro _) | with_reducible apply State.endPush_keeps | with_reducible apply State.modSk_keeps | fail_if_no_progress with_reducible apply Keeps.upd | dsimp only | split)

theorem State.configWritten_keeps {r : State} (s : State) (c : Nat) (image : List Byte) (ok : Bool) (h0 : Keeps r s) : Keeps r (State.configWritten s c image ok) := by
  unfold State.configWritten
  conv => zeta
  repeat' (first | with_reducible assumption | (intro _) | with_reducible apply State.applyImage_keeps | with_reducible apply State.applyImage_keeps_eq (e := by with_reducible assumption) | with_reducible apply State.modSk_keeps | with_reducible apply State.judge_keeps | with_reducible apply State.pushDone_keeps | with_reducible apply State.sendMsg_keeps | fail_if_no_progress with_reducible apply Keeps.upd | with_reducible apply RegsKept.set | with_reducible apply RegsKept.nil | with_reducible apply RegsKept.hearthOnly | with_reducible apply RegsKept.filter | with_reducible apply FlashKept.write | with_reducible apply FlashKept.erase | with_reducible apply RegsKept.of | with_reducible apply FlashKept.of | exact Nat.le_refl _ | exact Nat.le_max_left _ _ | exact Nat.left_le_or | dsimp only | split | with_reducible apply Keeps.setBoth)

theorem State.configIn_keeps {r : State} (s : State) (h0 : Keeps r s) : Keeps r (State.configIn s) := by
  unfold State.configIn
  conv => zeta
  repeat' (first | with_reducible assumption | (intro _) | with_reducible apply State.takeMsg_keeps | with_reducible apply State.takeMsg_keeps_eq (e := by with_reducible assumption) | with_reducible apply State.modSk_keeps | with_reducible apply State.flashAsk_keeps | with_reducible apply State.sendMsg_keeps | with_reducible apply State.judge_keeps | fail_if_no_progress with_reducible apply Keeps.upd | dsimp only | split)

theorem State.imageIn_keeps {r : State} (s : State) (h0 : Keeps r s) : Keeps r (State.imageIn s) := by
  unfold State.imageIn
  conv => zeta
  repeat' (first | with_reducible assumption | (intro _) | with_reducible apply State.takeMsg_keeps | with_reducible apply State.takeMsg_keeps_eq (e := by with_reducible assumption) | with_reducible apply State.flashAsk_keeps | with_reducible apply State.modSk_keeps | fail_if_no_progress with_reducible apply Keeps.upd | dsimp only | split)

theorem State.imageWritten_keeps {r : State} (s : State) (slot : Nat) (image : List Byte) (ok : Bool) (h0 : Keeps r s) : Keeps r (State.imageWritten s slot image ok) := by
  unfold State.imageWritten
  conv => zeta
  repeat' (first | with_reducible assumption | (intro _) | with_reducible apply State.recordDigest_keeps | with_reducible apply State.flashAsk_keeps | with_reducible apply State.sendMsg_keeps | fail_if_no_progress with_reducible apply Keeps.upd | with_reducible apply RegsKept.set | with_reducible apply RegsKept.nil | with_reducible apply RegsKept.hearthOnly | with_reducible apply RegsKept.filter | with_reducible apply FlashKept.write | with_reducible apply FlashKept.erase | with_reducible apply RegsKept.of | with_reducible apply FlashKept.of | exact Nat.le_refl _ | exact Nat.le_max_left _ _ | exact Nat.left_le_or | dsimp only | split | with_reducible apply Keeps.setBoth)

theorem State.announceIn_keeps {r : State} (s : State) (h0 : Keeps r s) : Keeps r (State.announceIn s) := by
  unfold State.announceIn
  conv => zeta
  repeat' (first | with_reducible assumption | (intro _) | with_reducible apply State.takeMsg_keeps | with_reducible apply State.takeMsg_keeps_eq (e := by with_reducible assumption) | with_reducible apply State.judge_keeps | with_reducible apply State.modPeer_keeps | with_reducible apply State.offerImage_keeps | with_reducible apply State.pushDone_keeps | with_reducible apply State.pushTo_keeps | fail_if_no_progress with_reducible apply Keeps.upd | dsimp only | split)

theorem State.duplicateQuiet_keeps {r : State} (s : State) (h0 : Keeps r s) : Keeps r (State.duplicateQuiet s) := by
  unfold State.duplicateQuiet
  conv => zeta
  repeat' (first | with_reducible assumption | (intro _) | with_reducible apply State.judge_keeps | with_reducible apply State.modPeer_keeps | fail_if_no_progress with_reducible apply Keeps.upd | with_reducible apply Keeps.foldl | with_reducible apply Keeps.foldl_fst | with_reducible apply Keeps.foldl_snd | dsimp only | split)

theorem State.sendNext_keeps {r : State} (s : State) (a1 : Nat) (kind : Nat) (a3 : Nat) (b : Nat) (h0 : Keeps r s) : Keeps r (State.sendNext s a1 kind a3 b) := by
  unfold State.sendNext
  conv => zeta
  repeat' (first | with_reducible assumption | (intro _) | (with_reducible apply State.offerOn_keeps (e := by with_reducible assumption)) | fail_if_no_progress with_reducible apply Keeps.upd | with_reducible apply Keeps.getD | dsimp only | split)

theorem State.takeTime_keeps {r : State} (s : State) (kind : Nat) {x t} (h0 : Keeps r s) (e : State.takeTime s kind = some (x, t)) : Keeps r t := by
  unfold State.takeTime at e
  obtain ⟨k, _, q⟩ := List.exists_of_findSome?_eq_some e
  obtain ⟨w, _, z⟩ := Option.map_eq_some_iff.mp q
  cases z
  exact State.freeWaiting_keeps s k 1 w h0

theorem State.timeAnswer_keeps {r : State} (s : State) (h0 : Keeps r s) : Keeps r (State.timeAnswer s) := by
  unfold State.timeAnswer
  conv => zeta
  repeat' (first | with_reducible assumption | (intro _) | (with_reducible apply State.takeTime_keeps (e := by with_reducible assumption)) | with_reducible apply State.sendNext_keeps | with_reducible apply State.modSk_keeps | fail_if_no_progress with_reducible apply Keeps.upd | dsimp only | split)

theorem State.timeExchange_keeps {r : State} (s : State) (h0 : Keeps r s) : Keeps r (State.timeExchange s) := by
  unfold State.timeExchange
  conv => zeta
  repeat' (first | with_reducible assumption | (intro _) | with_reducible apply State.modSk_keeps | with_reducible apply State.sendNext_keeps | with_reducible apply State.timeAnswer_keeps | with_reducible apply State.setTimeState_keeps | fail_if_no_progress with_reducible apply Keeps.upd | with_reducible apply Keeps.foldl | with_reducible apply Keeps.foldl_fst | with_reducible apply Keeps.foldl_snd | dsimp only | split)

theorem State.timeResp_keeps {r : State} (s : State) (h0 : Keeps r s) : Keeps r (State.timeResp s) := by
  unfold State.timeResp
  conv => zeta
  repeat' (first | with_reducible assumption | (intro _) | (with_reducible apply State.takeTime_keeps (e := by with_reducible assumption)) | with_reducible apply State.modSk_keeps | with_reducible apply State.ntApply_keeps | with_reducible apply State.modNt_keeps | with_reducible apply State.setTimeState_keeps | fail_if_no_progress with_reducible apply Keeps.upd | dsimp only | split)

theorem State.phaseLatch_keeps {r : State} (s : State) (sec : Nat) (h0 : Keeps r s) : Keeps r (State.phaseLatch s sec) := by
  unfold State.phaseLatch
  conv => zeta
  repeat' (first | with_reducible assumption | (intro _) | with_reducible apply State.modSk_keeps | with_reducible apply State.sendMsg_keeps | fail_if_no_progress with_reducible apply Keeps.upd | dsimp only | split)

theorem State.comparePhase_keeps {r : State} (s : State) (m : Nat) (p : Nat) (d : Int) (h0 : Keeps r s) : Keeps r (State.comparePhase s m p d) := by
  unfold State.comparePhase
  conv => zeta
  repeat' (first | with_reducible assumption | (intro _) | with_reducible apply State.modPeer_keeps | with_reducible apply State.notify_keeps | fail_if_no_progress with_reducible apply Keeps.upd | dsimp only | split)

theorem State.phaseIn_keeps {r : State} (s : State) (h0 : Keeps r s) : Keeps r (State.phaseIn s) := by
  unfold State.phaseIn
  conv => zeta
  repeat' (first | with_reducible assumption | (intro _) | with_reducible apply State.takeMsg_keeps | with_reducible apply State.takeMsg_keeps_eq (e := by with_reducible assumption) | with_reducible apply State.comparePhase_keeps | fail_if_no_progress with_reducible apply Keeps.upd | with_reducible apply Keeps.foldl | with_reducible apply Keeps.foldl_fst | with_reducible apply Keeps.foldl_snd | dsimp only | split)

theorem State.replyNotice_keeps {r : State} (s : State) (h0 : Keeps r s) : Keeps r (State.replyNotice s) := by
  unfold State.replyNotice
  conv => zeta
  repeat' (first | with_reducible assumption | (intro _) | with_reducible apply State.takeMsg_keeps | with_reducible apply State.takeMsg_keeps_eq (e := by with_reducible assumption) | with_reducible apply State.pumpOut_keeps | with_reducible apply State.takePlace_keeps | with_reducible apply State.modCmd_keeps | with_reducible apply State.modOp_keeps | with_reducible apply State.memberResult_keeps | fail_if_no_progress with_reducible apply Keeps.upd | dsimp only | split)

theorem State.meterResult_keeps {r : State} (s : State) (h0 : Keeps r s) : Keeps r (State.meterResult s) := by
  unfold State.meterResult
  conv => zeta
  repeat' (first | with_reducible assumption | (intro _) | with_reducible apply State.takeMsg_keeps | with_reducible apply State.takeMsg_keeps_eq (e := by with_reducible assumption) | with_reducible apply State.enqueue_keeps | with_reducible apply State.enqueue_keeps_eq (e := by with_reducible assumption) | with_reducible apply State.sendMsg_keeps | fail_if_no_progress with_reducible apply Keeps.upd | dsimp only | split)

theorem State.sduDown_keeps {r : State} (s : State) (h0 : Keeps r s) : Keeps r (State.sduDown s) := by
  unfold State.sduDown
  conv => zeta
  repeat' (first | with_reducible assumption | (intro _) | with_reducible apply State.takeMsg_keeps | with_reducible apply State.takeMsg_keeps_eq (e := by with_reducible assumption) | with_reducible apply State.routeSdus_keeps | with_reducible apply State.modTd_keeps | fail_if_no_progress with_reducible apply Keeps.upd | dsimp only | split)

theorem State.sduUp_keeps {r : State} (s : State) (h0 : Keeps r s) : Keeps r (State.sduUp s) := by
  unfold State.sduUp
  conv => zeta
  repeat' (first | with_reducible assumption | (intro _) | with_reducible apply State.takeMsg_keeps | with_reducible apply State.takeMsg_keeps_eq (e := by with_reducible assumption) | with_reducible apply State.enqueue_keeps | with_reducible apply State.enqueue_keeps_eq (e := by with_reducible assumption) | with_reducible apply State.sendMsg_keeps | with_reducible apply State.offerColoured_keeps | with_reducible apply State.remoteContainer_keeps | fail_if_no_progress with_reducible apply Keeps.upd | dsimp only | split)

theorem State.refusalIn_keeps {r : State} (s : State) (h0 : Keeps r s) : Keeps r (State.refusalIn s) := by
  unfold State.refusalIn
  conv => zeta
  repeat' (first | with_reducible assumption | (intro _) | with_reducible apply State.takeMsg_keeps | with_reducible apply State.takeMsg_keeps_eq (e := by with_reducible assumption) | with_reducible apply State.holdResult_keeps | with_reducible apply State.holdResult_keeps_eq (e := by with_reducible assumption) | with_reducible apply State.unitRefused_keeps | with_reducible apply State.pushDone_keeps | with_reducible apply State.quarNotice_keeps | fail_if_no_progress with_reducible apply Keeps.upd | dsimp only | split)

theorem State.regAccess_keeps {r : State} (s : State) (h0 : Keeps r s) : Keeps r (State.regAccess s) := by
  unfold State.regAccess
  conv => zeta
  repeat' (first | with_reducible assumption | (intro _) | with_reducible apply State.takeMsg_keeps | with_reducible apply State.takeMsg_keeps_eq (e := by with_reducible assumption) | with_reducible apply State.count_keeps | fail_if_no_progress with_reducible apply Keeps.upd | dsimp only | split)

theorem State.treeRecordIn_keeps {r : State} (s : State) (h0 : Keeps r s) : Keeps r (State.treeRecordIn s) := by
  unfold State.treeRecordIn
  conv => zeta
  repeat' (first | with_reducible assumption | (intro _) | with_reducible apply State.takeMsg_keeps | with_reducible apply State.takeMsg_keeps_eq (e := by with_reducible assumption) | fail_if_no_progress with_reducible apply Keeps.upd | dsimp only | split)

theorem State.takeEarly_keeps {r : State} (a0 : Nat) (a1 : State) (a2 : List Nat) (h0 : Keeps r a1) : Keeps r (State.takeEarly a0 a1 a2).2 := by
  induction a0 generalizing a1 a2 with
  | zero => exact h0
  | succ k ih =>
    unfold State.takeEarly
    conv => zeta
    repeat' (first | with_reducible assumption | (intro _) | with_reducible apply ih | with_reducible apply State.modSk_keeps | with_reducible apply State.modCmd_keeps | fail_if_no_progress with_reducible apply Keeps.upd | with_reducible apply Keeps.getD | dsimp only | split)

theorem State.takeEarly_keeps_eq {r : State} (a0 : Nat) (a1 : State) (a2 : List Nat) {xx tt} (e : State.takeEarly a0 a1 a2 = (xx, tt)) (h0 : Keeps r a1) : Keeps r tt := by
  have q := State.takeEarly_keeps (r := r) a0 a1 a2 h0
  rw [e] at q
  exact q

theorem State.commandIn_keeps {r : State} (s : State) (h0 : Keeps r s) : Keeps r (State.commandIn s).2 := by
  unfold State.commandIn
  conv => zeta
  repeat' (first | with_reducible assumption | (intro _) | with_reducible apply State.takeMsg_keeps | with_reducible apply State.takeMsg_keeps_eq (e := by with_reducible assumption) | with_reducible apply State.modSk_keeps | with_reducible apply State.takeEarly_keeps | with_reducible apply State.takeEarly_keeps_eq (e := by with_reducible assumption) | fail_if_no_progress with_reducible apply Keeps.upd | with_reducible apply Keeps.getD | dsimp only | split)

theorem State.commandIn_keeps_eq {r : State} (s : State) {xx tt} (e : State.commandIn s = (xx, tt)) (h0 : Keeps r s) : Keeps r tt := by
  have q := State.commandIn_keeps (r := r) s h0
  rw [e] at q
  exact q

theorem opSkCfgWrite_keeps {r : State} (op : Nat) (p : List Byte) (s : State) (h0 : Keeps r s) : Keeps r (opSkCfgWrite op p s) := by
  unfold opSkCfgWrite
  conv => zeta
  repeat' (first | with_reducible assumption | (intro _) | with_reducible apply State.finish_keeps | with_reducible apply State.modSk_keeps | fail_if_no_progress with_reducible apply Keeps.upd | dsimp only | split)

theorem opSkCfgCommit_keeps {r : State} (op : Nat) (p : List Byte) (s : State) (h0 : Keeps r s) : Keeps r (opSkCfgCommit op p s) := by
  unfold opSkCfgCommit
  conv => zeta
  repeat' (first | with_reducible assumption | (intro _) | with_reducible apply State.finish_keeps | with_reducible apply State.modSk_keeps | with_reducible apply State.startPush_keeps | fail_if_no_progress with_reducible apply Keeps.upd | dsimp only | split)

theorem opSkQuarantine_keeps {r : State} (op : Nat) (p : List Byte) (s : State) (h0 : Keeps r s) : Keeps r (opSkQuarantine op p s) := by
  unfold opSkQuarantine
  conv => zeta
  repeat' (first | with_reducible assumption | (intro _) | with_reducible apply State.finish_keeps | with_reducible apply State.judge_keeps | with_reducible apply State.modPeer_keeps | fail_if_no_progress with_reducible apply Keeps.upd | dsimp only | split)

theorem opTmSetSerial_keeps {r : State} (op : Nat) (p : List Byte) (s : State) (h0 : Keeps r s) : Keeps r (opTmSetSerial op p s) := by
  unfold opTmSetSerial
  conv => zeta
  repeat' (first | with_reducible assumption | (intro _) | with_reducible apply State.finish_keeps | with_reducible apply State.pushTerm_keeps | with_reducible apply State.invalidateRecord_keeps | with_reducible apply State.modSk_keeps | with_reducible apply State.startPush_keeps | fail_if_no_progress with_reducible apply Keeps.upd | dsimp only | split)

end Sys2Proof.Machine
end

