-- ==== Sys2Proof/Laws/KeepsStartUp.lean ====
section
/-! SUPPORT. The operations of Machine/StartUp.lean keep what every operation inside a command keeps (`Keeps`). -/

namespace Sys2Proof.Machine

set_option linter.unusedTactic false
set_option linter.unreachableTactic false
set_option linter.unusedVariables false
set_option linter.unnecessarySeqFocus false

theorem State.modHearth_keeps {r : State} (s : State) (f : Hearth → Hearth) (h0 : Keeps r s) : Keeps r (State.modHearth s f) := by
  unfold State.modHearth
  conv => zeta
  repeat' (first | with_reducible assumption | (intro _) | fail_if_no_progress with_reducible apply Keeps.upd | dsimp only | split)

theorem State.reseedMesh_keeps {r : State} (s : State) (h0 : Keeps r s) : Keeps r (State.reseedMesh s) := by
  unfold State.reseedMesh
  conv => zeta
  repeat' (first | with_reducible assumption | (intro _) | with_reducible apply State.draw_keeps | with_reducible apply State.draw_keeps_eq (e := by with_reducible assumption) | with_reducible apply State.modHearth_keeps | fail_if_no_progress with_reducible apply Keeps.upd | dsimp only | split)

theorem State.flashCut_keeps {r : State} (s : State) (op : FlashOp) (h0 : Keeps r s) : Keeps r (State.flashCut s op) := by
  unfold State.flashCut
  conv => zeta
  repeat' (first | with_reducible assumption | (intro _) | with_reducible apply State.draw_keeps | with_reducible apply State.draw_keeps_eq (e := by with_reducible assumption) | fail_if_no_progress with_reducible apply Keeps.upd | with_reducible apply RegsKept.set | with_reducible apply RegsKept.nil | with_reducible apply RegsKept.hearthOnly | with_reducible apply RegsKept.filter | with_reducible apply FlashKept.write | with_reducible apply FlashKept.erase | with_reducible apply RegsKept.of | with_reducible apply FlashKept.of | exact Nat.le_refl _ | exact Nat.le_max_left _ _ | exact Nat.left_le_or | dsimp only | split | with_reducible apply Keeps.setBoth)

theorem State.cutFlashOp_keeps {r : State} (s : State) (h0 : Keeps r s) : Keeps r (State.cutFlashOp s) := by
  unfold State.cutFlashOp
  conv => zeta
  repeat' (first | with_reducible assumption | (intro _) | with_reducible apply State.flashCut_keeps | fail_if_no_progress with_reducible apply Keeps.upd | dsimp only | split)

theorem State.resetMain_keeps {r : State} (s : State) (cause : Nat) (h0 : Keeps r s) : Keeps r (State.resetMain s cause) := by
  unfold State.resetMain
  conv => zeta
  repeat' (first | with_reducible assumption | (intro _) | with_reducible apply State.completeUpdate_keeps | with_reducible apply State.cutFlashOp_keeps | fail_if_no_progress with_reducible apply Keeps.upd | with_reducible apply RegsKept.set | with_reducible apply RegsKept.nil | with_reducible apply RegsKept.hearthOnly | with_reducible apply RegsKept.filter | with_reducible apply FlashKept.write | with_reducible apply FlashKept.erase | with_reducible apply RegsKept.of | with_reducible apply FlashKept.of | exact Nat.le_refl _ | exact Nat.le_max_left _ _ | exact Nat.left_le_or | dsimp only | split | with_reducible apply Keeps.setBoth)

theorem State.resetN_keeps {r : State} (s : State) (lowUs : Nat) (h0 : Keeps r s) : Keeps r (State.resetN s lowUs) := by
  unfold State.resetN
  conv => zeta
  repeat' (first | with_reducible assumption | (intro _) | with_reducible apply State.resetMain_keeps | fail_if_no_progress with_reducible apply Keeps.upd | dsimp only | split)

theorem State.penLow_keeps {r : State} (s : State) (h0 : Keeps r s) : Keeps r (State.penLow s) := by
  unfold State.penLow
  conv => zeta
  repeat' (first | with_reducible assumption | (intro _) | fail_if_no_progress with_reducible apply Keeps.upd | dsimp only | split)

theorem State.railLockout_keeps {r : State} (s : State) (rails : Nat) (h0 : Keeps r s) : Keeps r (State.railLockout s rails) := by
  unfold State.railLockout
  conv => zeta
  repeat' (first | with_reducible assumption | (intro _) | with_reducible apply State.penLow_keeps | with_reducible apply State.ashHearth_keeps | fail_if_no_progress with_reducible apply Keeps.upd | dsimp only | split)

theorem State.railOut_keeps {r : State} (s : State) (mv : List Nat) (ns : Nat) (h0 : Keeps r s) : Keeps r (State.railOut s mv ns) := by
  unfold State.railOut
  conv => zeta
  repeat' (first | with_reducible assumption | (intro _) | with_reducible apply State.resetMain_keeps | with_reducible apply State.ashHearth_keeps | with_reducible apply State.railLockout_keeps | fail_if_no_progress with_reducible apply Keeps.upd | dsimp only | split)

theorem State.railRestart_keeps {r : State} (s : State) (h0 : Keeps r s) : Keeps r (State.railRestart s) := by
  unfold State.railRestart
  conv => zeta
  repeat' (first | with_reducible assumption | (intro _) | fail_if_no_progress with_reducible apply Keeps.upd | with_reducible apply RegsKept.set | with_reducible apply RegsKept.nil | with_reducible apply RegsKept.hearthOnly | with_reducible apply RegsKept.filter | with_reducible apply FlashKept.write | with_reducible apply FlashKept.erase | with_reducible apply RegsKept.of | with_reducible apply FlashKept.of | exact Nat.le_refl _ | exact Nat.le_max_left _ _ | exact Nat.left_le_or | dsimp only | split | with_reducible apply Keeps.setBoth)

theorem State.railsNotUp_keeps {r : State} (s : State) (mv : List Nat) (h0 : Keeps r s) : Keeps r (State.railsNotUp s mv) := by
  unfold State.railsNotUp
  conv => zeta
  repeat' (first | with_reducible assumption | (intro _) | with_reducible apply State.penLow_keeps | with_reducible apply State.ashHearth_keeps | fail_if_no_progress with_reducible apply Keeps.upd | dsimp only | split)

theorem State.railRetry_keeps {r : State} (s : State) (h0 : Keeps r s) : Keeps r (State.railRetry s) := by
  unfold State.railRetry
  conv => zeta
  repeat' (first | with_reducible assumption | (intro _) | fail_if_no_progress with_reducible apply Keeps.upd | dsimp only | split)

theorem State.watchdog_keeps {r : State} (s : State) (core : Nat) (code : Nat) (h0 : Keeps r s) : Keeps r (State.watchdog s core code) := by
  unfold State.watchdog
  conv => zeta
  repeat' (first | with_reducible assumption | (intro _) | with_reducible apply State.resetMain_keeps | with_reducible apply State.ashHearth_keeps | fail_if_no_progress with_reducible apply Keeps.upd | dsimp only | split)

theorem State.lostClips_keeps {r : State} (s : State) (h0 : Keeps r s) : Keeps r (State.lostClips s) := by
  unfold State.lostClips
  conv => zeta
  repeat' (first | with_reducible assumption | (intro _) | with_reducible apply State.notify_keeps | fail_if_no_progress with_reducible apply Keeps.upd | dsimp only | split)

theorem State.firstPacket_keeps {r : State} (s : State) (h0 : Keeps r s) : Keeps r (State.firstPacket s) := by
  unfold State.firstPacket
  conv => zeta
  repeat' (first | with_reducible assumption | (intro _) | with_reducible apply State.storeNotice_keeps | with_reducible apply State.modCmd_keeps | with_reducible apply State.pushOut_keeps | fail_if_no_progress with_reducible apply Keeps.upd | dsimp only | split)

theorem State.queueStart_keeps {r : State} (s : State) (h0 : Keeps r s) : Keeps r (State.queueStart s) := by
  unfold State.queueStart
  conv => zeta
  repeat' (first | with_reducible assumption | (intro _) | with_reducible apply State.firstPacket_keeps | with_reducible apply State.modCmd_keeps | with_reducible apply State.takePlace_keeps | with_reducible apply State.modSk_keeps | with_reducible apply State.modBoot_keeps | with_reducible apply State.pumpOut_keeps | fail_if_no_progress with_reducible apply Keeps.upd | with_reducible apply Keeps.foldl | with_reducible apply Keeps.foldl_fst | with_reducible apply Keeps.foldl_snd | dsimp only | split)

theorem State.revertNotice_keeps {r : State} (s : State) (h0 : Keeps r s) : Keeps r (State.revertNotice s) := by
  unfold State.revertNotice
  conv => zeta
  repeat' (first | with_reducible assumption | (intro _) | with_reducible apply State.flashAsk_keeps | with_reducible apply State.modBoot_keeps | fail_if_no_progress with_reducible apply Keeps.upd | dsimp only | split)

theorem State.localStart_keeps {r : State} (s : State) (h0 : Keeps r s) : Keeps r (State.localStart s) := by
  unfold State.localStart
  conv => zeta
  repeat' (first | with_reducible assumption | (intro _) | with_reducible apply State.stepEnd_keeps | with_reducible apply State.camsStart_keeps | with_reducible apply State.modBoot_keeps | fail_if_no_progress with_reducible apply Keeps.upd | dsimp only | split)

theorem State.goWorking_keeps {r : State} (s : State) (h0 : Keeps r s) : Keeps r (State.goWorking s) := by
  unfold State.goWorking
  conv => zeta
  repeat' (first | with_reducible assumption | (intro _) | with_reducible apply State.pushTerm_keeps | with_reducible apply State.queueStart_keeps | with_reducible apply State.revertNotice_keeps | with_reducible apply State.localStart_keeps | fail_if_no_progress with_reducible apply Keeps.upd | dsimp only | split)

theorem State.step9Timeout_keeps {r : State} (s : State) (h0 : Keeps r s) : Keeps r (State.step9Timeout s) := by
  unfold State.step9Timeout
  conv => zeta
  repeat' (first | with_reducible assumption | (intro _) | with_reducible apply State.localStart_keeps | fail_if_no_progress with_reducible apply Keeps.upd | dsimp only | split)

theorem State.enterRescue_keeps {r : State} (s : State) (h0 : Keeps r s) : Keeps r (State.enterRescue s) := by
  unfold State.enterRescue
  conv => zeta
  repeat' (first | with_reducible assumption | (intro _) | with_reducible apply State.queueStart_keeps | with_reducible apply State.modCmd_keeps | with_reducible apply State.modBoot_keeps | fail_if_no_progress with_reducible apply Keeps.upd | dsimp only | split)

theorem State.step2_keeps {r : State} (s : State) (msel : Nat) (member : Nat) (treeEn : Bool) (h0 : Keeps r s) : Keeps r (State.step2 s msel member treeEn) := by
  unfold State.step2
  conv => zeta
  repeat' (first | with_reducible assumption | (intro _) | with_reducible apply State.ash_keeps | with_reducible apply State.stepEnd_keeps | fail_if_no_progress with_reducible apply Keeps.upd | with_reducible apply Keeps.getD | dsimp only | split)

theorem State.step4_keeps {r : State} (s : State) {t : State} (h0 : Keeps r s) (e : State.step4 s = some t) : Keeps r t := by
  unfold State.step4 at e
  conv at e => zeta
  (repeat' split at e) <;> (try cases e) <;> (try simp only [Option.some.injEq, Prod.mk.injEq] at e) <;> (try obtain ⟨_, e⟩ := e) <;> (try subst e)
  all_goals (repeat' (first | with_reducible assumption | (intro _) | with_reducible apply State.recordDigest_keeps | with_reducible apply State.stepEnd_keeps | with_reducible apply State.modBoot_keeps | fail_if_no_progress with_reducible apply Keeps.upd | dsimp only | split))

theorem State.raiseMinSec_keeps {r : State} (s : State) (h0 : Keeps r s) : Keeps r (State.raiseMinSec s) := by
  unfold State.raiseMinSec
  split
  · exact Keeps.setMinSec h0 (by omega)
  · exact h0

theorem State.reportCutFlush_keeps {r : State} (s : State) (h0 : Keeps r s) : Keeps r (State.reportCutFlush s) := by
  unfold State.reportCutFlush
  conv => zeta
  repeat' (first | with_reducible assumption | (intro _) | with_reducible apply State.count_keeps | with_reducible apply State.notify_keeps | with_reducible apply State.ash_keeps | fail_if_no_progress with_reducible apply Keeps.upd | dsimp only | split)

theorem State.oweFlush_keeps {r : State} (s : State) (h0 : Keeps r s) : Keeps r (State.oweFlush s) := by
  unfold State.oweFlush
  conv => zeta
  repeat' (first | with_reducible assumption | (intro _) | with_reducible apply State.modAsh_keeps | fail_if_no_progress with_reducible apply Keeps.upd | dsimp only | split)

theorem State.step5_keeps {r : State} (s : State) (h0 : Keeps r s) : Keeps r (State.step5 s) := by
  unfold State.step5
  conv => zeta
  repeat' (first | with_reducible assumption | (intro _) | with_reducible apply State.reseedMesh_keeps | with_reducible apply State.loadConfig_keeps | with_reducible apply State.raiseMinSec_keeps | with_reducible apply State.stepFail_keeps | with_reducible apply State.stepEnd_keeps | with_reducible apply State.cyStart_keeps | with_reducible apply State.reportCutFlush_keeps | with_reducible apply State.oweFlush_keeps | fail_if_no_progress with_reducible apply Keeps.upd | dsimp only | split)

theorem State.step6_keeps {r : State} (s : State) (rextOk : Bool) (h0 : Keeps r s) : Keeps r (State.step6 s rextOk) := by
  unfold State.step6
  conv => zeta
  repeat' (first | with_reducible assumption | (intro _) | with_reducible apply State.startLane_keeps | with_reducible apply State.modBoot_keeps | with_reducible apply State.mainsStart_keeps | with_reducible apply State.stepFail_keeps | with_reducible apply State.lanesStart_keeps | fail_if_no_progress with_reducible apply Keeps.upd | dsimp only | split)

theorem State.step6Follow_keeps {r : State} (s : State) (h0 : Keeps r s) : Keeps r (State.step6Follow s) := by
  unfold State.step6Follow
  conv => zeta
  repeat' (first | with_reducible assumption | (intro _) | with_reducible apply State.stepEnd_keeps | with_reducible apply State.stackStart_keeps | with_reducible apply State.stepFail_keeps | fail_if_no_progress with_reducible apply Keeps.upd | dsimp only | split)

theorem State.minimal_keeps {r : State} (s : State) (source : Nat) (h0 : Keeps r s) : Keeps r (State.minimal s source) := by
  unfold State.minimal
  conv => zeta
  repeat' (first | with_reducible assumption | (intro _) | with_reducible apply State.loadTree_keeps | with_reducible apply State.modSk_keeps | with_reducible apply State.pumpOut_keeps | with_reducible apply State.takePlace_keeps | fail_if_no_progress with_reducible apply Keeps.upd | with_reducible apply Keeps.foldl | with_reducible apply Keeps.foldl_fst | with_reducible apply Keeps.foldl_snd | dsimp only | split)

theorem State.resumeStart_keeps {r : State} (s : State) (h0 : Keeps r s) : Keeps r (State.resumeStart s) := by
  unfold State.resumeStart
  conv => zeta
  repeat' (first | with_reducible assumption | (intro _) | with_reducible apply State.startLane_keeps | with_reducible apply State.straitStart_keeps | with_reducible apply State.mainsStart_keeps | with_reducible apply State.lanesStart_keeps | with_reducible apply State.modBoot_keeps | with_reducible apply State.lostClips_keeps | with_reducible apply State.stackStart_keeps | fail_if_no_progress with_reducible apply Keeps.upd | with_reducible apply Keeps.foldl | with_reducible apply Keeps.foldl_fst | with_reducible apply Keeps.foldl_snd | dsimp only | split)

theorem State.romStop_keeps {r : State} (s : State) (b : Boot) (h0 : Keeps r s) : Keeps r (State.romStop s b) := by
  unfold State.romStop
  conv => zeta
  repeat' (first | with_reducible assumption | (intro _) | fail_if_no_progress with_reducible apply Keeps.upd | dsimp only | split)

theorem State.badReference_keeps {r : State} (s : State) (ref : Option Int) (h0 : Keeps r s) : Keeps r (State.badReference s ref) := by
  unfold State.badReference
  conv => zeta
  repeat' (first | with_reducible assumption | (intro _) | with_reducible apply State.draw_keeps | with_reducible apply State.draw_keeps_eq (e := by with_reducible assumption) | with_reducible apply State.drawBytes_keeps | with_reducible apply State.drawBytes_keeps_eq (e := by with_reducible assumption) | with_reducible apply State.romStop_keeps | with_reducible apply State.ashHearth_keeps | fail_if_no_progress with_reducible apply Keeps.upd | dsimp only | split)

theorem State.release_keeps {r : State} (s : State) (msel : Nat) (member : Nat) (treeEn : Bool) (testN : Bool) (ref : Option Int) (faults : List BankFault) (rextOk : Bool) (mv : List Nat) (h0 : Keeps r s) : Keeps r (State.release s msel member treeEn testN ref faults rextOk mv) := by
  unfold State.release
  conv => zeta
  repeat' (first | with_reducible assumption | (intro _) | with_reducible apply State.romStop_keeps | with_reducible apply State.badReference_keeps | with_reducible apply State.step2_keeps | with_reducible apply State.stepEnd_keeps | with_reducible apply State.modBoot_keeps | with_reducible apply State.memStart_keeps | with_reducible apply State.enterRescue_keeps | with_reducible apply State.stepFail_keeps | (with_reducible apply State.step4_keeps (e := by with_reducible assumption)) | with_reducible apply State.fuseStart_keeps | with_reducible apply State.step5_keeps | with_reducible apply State.minimal_keeps | with_reducible apply State.step6_keeps | with_reducible apply State.revertNotice_keeps | with_reducible apply State.queueStart_keeps | with_reducible apply State.lostClips_keeps | fail_if_no_progress with_reducible apply Keeps.upd | dsimp only | split)

theorem opImgStatus_keeps {r : State} (op : Nat) (p : List Byte) (s : State) (h0 : Keeps r s) : Keeps r (opImgStatus op p s) := by
  unfold opImgStatus
  conv => zeta
  repeat' (first | with_reducible assumption | (intro _) | with_reducible apply State.finish_keeps | with_reducible apply State.drawBytes_keeps | with_reducible apply State.drawBytes_keeps_eq (e := by with_reducible assumption) | with_reducible apply State.draw_keeps | with_reducible apply State.draw_keeps_eq (e := by with_reducible assumption) | fail_if_no_progress with_reducible apply Keeps.upd | dsimp only | split)

theorem opImgErase_keeps {r : State} (op : Nat) (p : List Byte) (s : State) (h0 : Keeps r s) : Keeps r (opImgErase op p s) := by
  unfold opImgErase
  conv => zeta
  repeat' (first | with_reducible assumption | (intro _) | with_reducible apply State.finish_keeps | with_reducible apply State.flashAsk_keeps | fail_if_no_progress with_reducible apply Keeps.upd | dsimp only | split)

theorem opImgWrite_keeps {r : State} (op : Nat) (p : List Byte) (s : State) (h0 : Keeps r s) : Keeps r (opImgWrite op p s) := by
  unfold opImgWrite
  conv => zeta
  repeat' (first | with_reducible assumption | (intro _) | with_reducible apply State.finish_keeps | with_reducible apply State.flashAsk_keeps | fail_if_no_progress with_reducible apply Keeps.upd | dsimp only | split)

theorem opImgVerify_keeps {r : State} (op : Nat) (p : List Byte) (s : State) (h0 : Keeps r s) : Keeps r (opImgVerify op p s) := by
  unfold opImgVerify
  conv => zeta
  repeat' (first | with_reducible assumption | (intro _) | with_reducible apply State.finish_keeps | with_reducible apply State.recordDigest_keeps | fail_if_no_progress with_reducible apply Keeps.upd | dsimp only | split)

theorem opImgActivate_keeps {r : State} (op : Nat) (p : List Byte) (s : State) (h0 : Keeps r s) : Keeps r (opImgActivate op p s) := by
  unfold opImgActivate
  conv => zeta
  repeat' (first | with_reducible assumption | (intro _) | with_reducible apply State.finish_keeps | with_reducible apply State.recordDigest_keeps | with_reducible apply State.flashAsk_keeps | fail_if_no_progress with_reducible apply Keeps.upd | dsimp only | split)

theorem opImgCommit_keeps {r : State} (op : Nat) (p : List Byte) (s : State) (h0 : Keeps r s) : Keeps r (opImgCommit op p s) := by
  unfold opImgCommit
  conv => zeta
  repeat' (first | with_reducible assumption | (intro _) | with_reducible apply State.finish_keeps | with_reducible apply State.flashAsk_keeps | fail_if_no_progress with_reducible apply Keeps.upd | dsimp only | split)

theorem opBootReport_keeps {r : State} (op : Nat) (p : List Byte) (s : State) (h0 : Keeps r s) : Keeps r (opBootReport op p s) := by
  unfold opBootReport
  conv => zeta
  repeat' (first | with_reducible assumption | (intro _) | with_reducible apply State.finish_keeps | fail_if_no_progress with_reducible apply Keeps.upd | dsimp only | split)

theorem State.flashEffect_keeps {r : State} (s : State) (op : FlashOp) (ok : Bool) (h0 : Keeps r s) : Keeps r (State.flashEffect s op ok) := by
  unfold State.flashEffect
  conv => zeta
  repeat' (first | with_reducible assumption | (intro _) | with_reducible apply State.modBoot_keeps | with_reducible apply State.finish_keeps | with_reducible apply State.flashCut_keeps | with_reducible apply State.finish?_keeps | with_reducible apply State.resetMain_keeps | with_reducible apply State.notify_keeps | with_reducible apply State.configWritten_keeps | with_reducible apply State.repairLogWritten_keeps | with_reducible apply State.imageWritten_keeps | fail_if_no_progress with_reducible apply Keeps.upd | with_reducible apply RegsKept.set | with_reducible apply RegsKept.nil | with_reducible apply RegsKept.hearthOnly | with_reducible apply RegsKept.filter | with_reducible apply FlashKept.write | with_reducible apply FlashKept.erase | with_reducible apply RegsKept.of | with_reducible apply FlashKept.of | exact Nat.le_refl _ | exact Nat.le_max_left _ _ | exact Nat.left_le_or | dsimp only | split | with_reducible apply Keeps.setBoth)

theorem State.flashDone_keeps {r : State} (s : State) (ok : Bool) (h0 : Keeps r s) : Keeps r (State.flashDone s ok) := by
  unfold State.flashDone
  conv => zeta
  repeat' (first | with_reducible assumption | (intro _) | with_reducible apply State.flashEffect_keeps | with_reducible apply State.startFlush_keeps | with_reducible apply State.flashPump_keeps | fail_if_no_progress with_reducible apply Keeps.upd | dsimp only | split)

end Sys2Proof.Machine
end

