-- ==== Sys2Proof/Laws/KeepsHearth.lean ====
section
/-! SUPPORT. The operations of Machine/Hearth.lean keep what every operation inside a command keeps (`Keeps`). -/

namespace Sys2Proof.Machine

set_option linter.unusedTactic false
set_option linter.unreachableTactic false
set_option linter.unusedVariables false
set_option linter.unnecessarySeqFocus false

theorem State.holdAt_keeps {r : State} (s : State) (source : Nat) (flags : Nat) (kind : Nat) (n : Nat) (a : List Byte) (b : List Byte) (h0 : Keeps r s) : Keeps r (State.holdAt s source flags kind n a b) := by
  unfold State.holdAt
  conv => zeta
  repeat' (first | with_reducible assumption | (intro _) | with_reducible apply State.modHearth_keeps | fail_if_no_progress with_reducible apply Keeps.upd | dsimp only | split)

theorem State.hold_keeps {r : State} (s : State) (source : Nat) (flags : Nat) (kind : Nat) (h0 : Keeps r s) : Keeps r (State.hold s source flags kind) := by
  unfold State.hold
  conv => zeta
  repeat' (first | with_reducible assumption | (intro _) | with_reducible apply State.holdAt_keeps | fail_if_no_progress with_reducible apply Keeps.upd | dsimp only | split)

theorem State.backupAlarm_keeps {r : State} (s : State) (source : Nat) (kind : Nat) (flags : Nat) (code : Nat) (h0 : Keeps r s) : Keeps r (State.backupAlarm s source kind flags code) := by
  unfold State.backupAlarm
  conv => zeta
  repeat' (first | with_reducible assumption | (intro _) | with_reducible apply State.modHearth_keeps | with_reducible apply State.hold_keeps | fail_if_no_progress with_reducible apply Keeps.upd | dsimp only | split)

theorem State.tamperActs_keeps {r : State} (s : State) (source : Nat) (kind : Nat) (code : Nat) (a : Actions) (h0 : Keeps r s) : Keeps r (State.tamperActs s source kind code a) := by
  unfold State.tamperActs
  conv => zeta
  repeat' (first | with_reducible assumption | (intro _) | with_reducible apply State.ashHearth_keeps | with_reducible apply State.zeroise_keeps | with_reducible apply State.pumpOut_keeps | with_reducible apply State.takePlace_keeps | with_reducible apply State.hold_keeps | with_reducible apply State.wake_keeps | with_reducible apply State.raise_keeps | with_reducible apply State.modHearth_keeps | with_reducible apply State.backupAlarm_keeps | fail_if_no_progress with_reducible apply Keeps.upd | dsimp only | split)

theorem State.tamperActive_keeps {r : State} (s : State) (i : Nat) (code : Nat) (h0 : Keeps r s) : Keeps r (State.tamperActive s i code) := by
  unfold State.tamperActive
  conv => zeta
  repeat' (first | with_reducible assumption | (intro _) | with_reducible apply State.tamperActs_keeps | with_reducible apply State.latchFld_keeps | with_reducible apply State.modHearth_keeps | fail_if_no_progress with_reducible apply Keeps.upd | dsimp only | split)

theorem State.tamperInactive_keeps {r : State} (s : State) (i : Nat) (h0 : Keeps r s) : Keeps r (State.tamperInactive s i) := by
  unfold State.tamperInactive
  conv => zeta
  repeat' (first | with_reducible assumption | (intro _) | with_reducible apply State.modHearth_keeps | fail_if_no_progress with_reducible apply Keeps.upd | dsimp only | split)

theorem State.meshBreak_keeps {r : State} (s : State) (n : Nat) (samples : List Bool) (code : Nat) (h0 : Keeps r s) : Keeps r (State.meshBreak s n samples code) := by
  unfold State.meshBreak
  conv => zeta
  repeat' (first | with_reducible assumption | (intro _) | with_reducible apply State.tamperActs_keeps | with_reducible apply State.latchFld_keeps | with_reducible apply State.modHearth_keeps | fail_if_no_progress with_reducible apply Keeps.upd | dsimp only | split)

theorem State.meshRearm_keeps {r : State} (s : State) (n : Nat) (h0 : Keeps r s) : Keeps r (State.meshRearm s n) := by
  unfold State.meshRearm
  conv => zeta
  repeat' (first | with_reducible assumption | (intro _) | with_reducible apply State.modHearth_keeps | fail_if_no_progress with_reducible apply Keeps.upd | dsimp only | split)

theorem State.meshReseed_keeps {r : State} (s : State) (h0 : Keeps r s) : Keeps r (State.meshReseed s) := by
  unfold State.meshReseed
  conv => zeta
  repeat' (first | with_reducible assumption | (intro _) | with_reducible apply State.reseedMesh_keeps | fail_if_no_progress with_reducible apply Keeps.upd | dsimp only | split)

theorem State.cellLevel_keeps {r : State} (s : State) (code : Nat) (h0 : Keeps r s) : Keeps r (State.cellLevel s code) := by
  unfold State.cellLevel
  conv => zeta
  repeat' (first | with_reducible assumption | (intro _) | with_reducible apply State.modHearth_keeps | with_reducible apply State.ashHearth_keeps | with_reducible apply State.notify_keeps | with_reducible apply State.wake_keeps | fail_if_no_progress with_reducible apply Keeps.upd | dsimp only | split)

theorem State.cellMeasure_keeps {r : State} (s : State) (code : Nat) (h0 : Keeps r s) : Keeps r (State.cellMeasure s code) := by
  unfold State.cellMeasure
  conv => zeta
  repeat' (first | with_reducible assumption | (intro _) | with_reducible apply State.cellLevel_keeps | with_reducible apply State.ashHearth_keeps | with_reducible apply State.modHearth_keeps | with_reducible apply State.notify_keeps | with_reducible apply State.wake_keeps | with_reducible apply State.hold_keeps | fail_if_no_progress with_reducible apply Keeps.upd | dsimp only | split)

theorem State.clampWake_keeps {r : State} (s : State) (h0 : Keeps r s) : Keeps r (State.clampWake s) := by
  unfold State.clampWake
  conv => zeta
  repeat' (first | with_reducible assumption | (intro _) | with_reducible apply State.setFld_keeps | with_reducible apply State.setWord_keeps | fail_if_no_progress with_reducible apply Keeps.upd | dsimp only | split)

theorem State.xtalStop_keeps {r : State} (s : State) (h0 : Keeps r s) : Keeps r (State.xtalStop s) := by
  unfold State.xtalStop
  conv => zeta
  repeat' (first | with_reducible assumption | (intro _) | with_reducible apply State.ashHearth_keeps | with_reducible apply State.modHearth_keeps | with_reducible apply State.clampWake_keeps | with_reducible apply State.notify_keeps | with_reducible apply State.wake_keeps | with_reducible apply State.hold_keeps | fail_if_no_progress with_reducible apply Keeps.upd | dsimp only | split)

theorem State.xtalAgain_keeps {r : State} (s : State) (h0 : Keeps r s) : Keeps r (State.xtalAgain s) := by
  unfold State.xtalAgain
  conv => zeta
  repeat' (first | with_reducible assumption | (intro _) | with_reducible apply State.ashHearth_keeps | with_reducible apply State.modHearth_keeps | fail_if_no_progress with_reducible apply Keeps.upd | dsimp only | split)

theorem State.hearthStart_keeps {r : State} (s : State) (aon : Nat) (vbat : Nat) (h0 : Keeps r s) : Keeps r (State.hearthStart s aon vbat) := by
  unfold State.hearthStart
  conv => zeta
  repeat' (first | with_reducible assumption | (intro _) | fail_if_no_progress with_reducible apply Keeps.upd | with_reducible apply RegsKept.set | with_reducible apply RegsKept.nil | with_reducible apply RegsKept.hearthOnly | with_reducible apply RegsKept.filter | with_reducible apply FlashKept.write | with_reducible apply FlashKept.erase | with_reducible apply RegsKept.of | with_reducible apply FlashKept.of | exact Nat.le_refl _ | exact Nat.le_max_left _ _ | exact Nat.left_le_or | dsimp only | split | with_reducible apply Keeps.setBoth)

theorem State.supplySwitch_keeps {r : State} (s : State) (aon : Nat) (vbat : Nat) (h0 : Keeps r s) : Keeps r (State.supplySwitch s aon vbat) := by
  unfold State.supplySwitch
  conv => zeta
  repeat' (first | with_reducible assumption | (intro _) | with_reducible apply State.modHearth_keeps | fail_if_no_progress with_reducible apply Keeps.upd | dsimp only | split)

theorem State.hearthReset_keeps {r : State} (s : State) (aon : Nat) (vbat : Nat) (h0 : Keeps r s) : Keeps r (State.hearthReset s aon vbat) := by
  unfold State.hearthReset
  conv => zeta
  repeat' (first | with_reducible assumption | (intro _) | with_reducible apply State.supplySwitch_keeps | with_reducible apply State.penLow_keeps | with_reducible apply State.cutFlashOp_keeps | fail_if_no_progress with_reducible apply Keeps.upd | with_reducible apply RegsKept.set | with_reducible apply RegsKept.nil | with_reducible apply RegsKept.hearthOnly | with_reducible apply RegsKept.filter | with_reducible apply FlashKept.write | with_reducible apply FlashKept.erase | with_reducible apply RegsKept.of | with_reducible apply FlashKept.of | exact Nat.le_refl _ | exact Nat.le_max_left _ _ | exact Nat.left_le_or | dsimp only | split | with_reducible apply Keeps.setBoth)

theorem State.hearthAlign_keeps {r : State} (s : State) (h0 : Keeps r s) : Keeps r (State.hearthAlign s) := by
  unfold State.hearthAlign
  conv => zeta
  repeat' (first | with_reducible assumption | (intro _) | with_reducible apply State.modHearth_keeps | with_reducible apply State.setFld_keeps | fail_if_no_progress with_reducible apply Keeps.upd | dsimp only | split)

theorem State.penHigh_keeps {r : State} (s : State) (cause : Nat) (src : Nat) (h0 : Keeps r s) : Keeps r (State.penHigh s cause src) := by
  unfold State.penHigh
  conv => zeta
  repeat' (first | with_reducible assumption | (intro _) | with_reducible apply State.modHearth_keeps | fail_if_no_progress with_reducible apply Keeps.upd | dsimp only | split)

theorem State.wakeTimer_keeps {r : State} (s : State) (h0 : Keeps r s) : Keeps r (State.wakeTimer s) := by
  unfold State.wakeTimer
  conv => zeta
  repeat' (first | with_reducible assumption | (intro _) | with_reducible apply State.setFld_keeps | with_reducible apply State.wake_keeps | with_reducible apply State.penHigh_keeps | fail_if_no_progress with_reducible apply Keeps.upd | dsimp only | split)

theorem State.reserveSample_keeps {r : State} (s : State) (code : Nat) (h0 : Keeps r s) : Keeps r (State.reserveSample s code) := by
  unfold State.reserveSample
  conv => zeta
  repeat' (first | with_reducible assumption | (intro _) | with_reducible apply State.modHearth_keeps | with_reducible apply State.flashPump_keeps | with_reducible apply State.cutBurst_keeps | fail_if_no_progress with_reducible apply Keeps.upd | dsimp only | split)

theorem State.psuFall_keeps {r : State} (s : State) (h0 : Keeps r s) : Keeps r (State.psuFall s) := by
  unfold State.psuFall
  conv => zeta
  repeat' (first | with_reducible assumption | (intro _) | with_reducible apply State.modHearth_keeps | with_reducible apply State.wake_keeps | with_reducible apply State.flushOnReserve_keeps | with_reducible apply State.notify_keeps | fail_if_no_progress with_reducible apply Keeps.upd | dsimp only | split)

theorem State.psuRise_keeps {r : State} (s : State) (h0 : Keeps r s) : Keeps r (State.psuRise s) := by
  unfold State.psuRise
  conv => zeta
  repeat' (first | with_reducible assumption | (intro _) | with_reducible apply State.modHearth_keeps | with_reducible apply State.modAsh_keeps | with_reducible apply State.resumeStart_keeps | with_reducible apply State.flashPump_keeps | with_reducible apply State.penHigh_keeps | fail_if_no_progress with_reducible apply Keeps.upd | dsimp only | split)

theorem State.toEmber_keeps {r : State} (s : State) (h0 : Keeps r s) : Keeps r (State.toEmber s) := by
  unfold State.toEmber
  conv => zeta
  repeat' (first | with_reducible assumption | (intro _) | with_reducible apply State.penLow_keeps | with_reducible apply State.completeUpdate_keeps | with_reducible apply State.cutFlashOp_keeps | fail_if_no_progress with_reducible apply Keeps.upd | with_reducible apply RegsKept.set | with_reducible apply RegsKept.nil | with_reducible apply RegsKept.hearthOnly | with_reducible apply RegsKept.filter | with_reducible apply FlashKept.write | with_reducible apply FlashKept.erase | with_reducible apply RegsKept.of | with_reducible apply FlashKept.of | exact Nat.le_refl _ | exact Nat.le_max_left _ _ | exact Nat.left_le_or | dsimp only | split | with_reducible apply Keeps.setBoth)

theorem State.saveStart_keeps {r : State} (s : State) (h0 : Keeps r s) : Keeps r (State.saveStart s) := by
  unfold State.saveStart
  conv => zeta
  repeat' (first | with_reducible assumption | (intro _) | with_reducible apply State.recordUnsent_keeps | with_reducible apply State.saveTree_keeps | with_reducible apply State.drainAsh_keeps | with_reducible apply State.modHearth_keeps | fail_if_no_progress with_reducible apply Keeps.upd | dsimp only | split)

theorem State.holdOne_keeps {r : State} (s : State) (v_r : Raised) (first : List Byte) (n : Nat) (flag : Nat) (h0 : Keeps r s) : Keeps r (State.holdOne s v_r first n flag) := by
  unfold State.holdOne
  conv => zeta
  repeat' (first | with_reducible assumption | (intro _) | with_reducible apply State.modHearth_keeps | with_reducible apply State.holdAt_keeps | fail_if_no_progress with_reducible apply Keeps.upd | dsimp only | split)

theorem State.holdPending_keeps {r : State} (s : State) (h0 : Keeps r s) : Keeps r (State.holdPending s) := by
  unfold State.holdPending
  conv => zeta
  repeat' (first | with_reducible assumption | (intro _) | with_reducible apply State.holdOne_keeps | fail_if_no_progress with_reducible apply Keeps.upd | with_reducible apply Keeps.foldl | with_reducible apply Keeps.foldl_fst | with_reducible apply Keeps.foldl_snd | dsimp only | split)

theorem State.emberEntry_keeps {r : State} (s : State) (h0 : Keeps r s) : Keeps r (State.emberEntry s) := by
  unfold State.emberEntry
  conv => zeta
  repeat' (first | with_reducible assumption | (intro _) | with_reducible apply State.toEmber_keeps | with_reducible apply State.holdPending_keeps | with_reducible apply State.saveStart_keeps | fail_if_no_progress with_reducible apply Keeps.upd | dsimp only | split)

theorem State.alarmMsExpiry_keeps {r : State} (s : State) (h0 : Keeps r s) : Keeps r (State.alarmMsExpiry s) := by
  unfold State.alarmMsExpiry
  conv => zeta
  repeat' (first | with_reducible assumption | (intro _) | with_reducible apply State.toEmber_keeps | with_reducible apply State.holdPending_keeps | fail_if_no_progress with_reducible apply Keeps.upd | dsimp only | split)

theorem State.scheduledReturn_keeps {r : State} (s : State) (h0 : Keeps r s) : Keeps r (State.scheduledReturn s) := by
  unfold State.scheduledReturn
  conv => zeta
  repeat' (first | with_reducible assumption | (intro _) | with_reducible apply State.wake_keeps | with_reducible apply State.count_keeps | fail_if_no_progress with_reducible apply Keeps.upd | dsimp only | split)

theorem State.rebuildLog_keeps {r : State} (s : State) (h0 : Keeps r s) : Keeps r (State.rebuildLog s) := by
  unfold State.rebuildLog
  conv => zeta
  repeat' (first | with_reducible assumption | (intro _) | with_reducible apply State.draw_keeps | with_reducible apply State.draw_keeps_eq (e := by with_reducible assumption) | fail_if_no_progress with_reducible apply Keeps.upd | dsimp only | split)

theorem State.hearthUncorr_keeps {r : State} (s : State) (region : Nat) (offset : Nat) (h0 : Keeps r s) : Keeps r (State.hearthUncorr s region offset) := by
  unfold State.hearthUncorr
  conv => zeta
  repeat' (first | with_reducible assumption | (intro _) | with_reducible apply State.modHearth_keeps | with_reducible apply State.modCy_keeps | with_reducible apply State.eraseKey_keeps | with_reducible apply State.notify_keeps | with_reducible apply State.slotDrop_keeps | with_reducible apply State.rebuildLog_keeps | fail_if_no_progress with_reducible apply Keeps.upd | dsimp only | split)

theorem State.hearthScrub_keeps {r : State} (s : State) (region : Nat) (offset : Nat) (v_r : WordRead) (h0 : Keeps r s) : Keeps r (State.hearthScrub s region offset v_r) := by
  unfold State.hearthScrub
  conv => zeta
  repeat' (first | with_reducible assumption | (intro _) | with_reducible apply State.count_keeps | with_reducible apply State.wake_keeps | with_reducible apply State.ashHearth_keeps | with_reducible apply State.hearthUncorr_keeps | with_reducible apply State.notify_keeps | fail_if_no_progress with_reducible apply Keeps.upd | dsimp only | split)

theorem opHeldRead_keeps {r : State} (op : Nat) (p : List Byte) (s : State) (h0 : Keeps r s) : Keeps r (opHeldRead op p s) := by
  unfold opHeldRead
  conv => zeta
  repeat' (first | with_reducible assumption | (intro _) | with_reducible apply State.finish_keeps | fail_if_no_progress with_reducible apply Keeps.upd | dsimp only | split)

end Sys2Proof.Machine
end

