-- ==== Sys2Proof/Laws/KeepsPower.lean ====
section
/-! SUPPORT. The operations of Machine/Power.lean keep what every operation inside a command keeps (`Keeps`). -/

namespace Sys2Proof.Machine

set_option linter.unusedTactic false
set_option linter.unreachableTactic false
set_option linter.unusedVariables false
set_option linter.unnecessarySeqFocus false

theorem State.plan_keeps {r : State} (s : State) (ps : PState) (h0 : Keeps r s) : Keeps r (State.plan s ps) := by
  unfold State.plan
  conv => zeta
  repeat' (first | with_reducible assumption | (intro _) | with_reducible apply State.modPower_keeps | fail_if_no_progress with_reducible apply Keeps.upd | dsimp only | split)

theorem State.goSleep_keeps {r : State} (s : State) (ps : PState) (c : Nat) (h0 : Keeps r s) : Keeps r (State.goSleep s ps c) := by
  unfold State.goSleep
  conv => zeta
  repeat' (first | with_reducible assumption | (intro _) | with_reducible apply State.modTd_keeps | with_reducible apply State.lanesSleep_keeps | with_reducible apply State.plan_keeps | with_reducible apply State.modPower_keeps | fail_if_no_progress with_reducible apply Keeps.upd | dsimp only | split)

theorem State.sleep_keeps {r : State} (s : State) (ps : PState) (h0 : Keeps r s) : Keeps r (State.sleep s ps) := by
  unfold State.sleep
  conv => zeta
  repeat' (first | with_reducible assumption | (intro _) | with_reducible apply State.modPower_keeps | with_reducible apply State.goSleep_keeps | fail_if_no_progress with_reducible apply Keeps.upd | dsimp only | split)

theorem State.replan_keeps {r : State} (s : State) (h0 : Keeps r s) : Keeps r (State.replan s) := by
  unfold State.replan
  conv => zeta
  repeat' (first | with_reducible assumption | (intro _) | with_reducible apply State.plan_keeps | fail_if_no_progress with_reducible apply Keeps.upd | dsimp only | split)

theorem State.giveOrder_keeps {r : State} (s : State) (n : Nat) (h0 : Keeps r s) : Keeps r (State.giveOrder s n) := by
  unfold State.giveOrder
  conv => zeta
  repeat' (first | with_reducible assumption | (intro _) | with_reducible apply State.modSk_keeps | with_reducible apply State.sendStackState_keeps | fail_if_no_progress with_reducible apply Keeps.upd | dsimp only | split)

theorem State.orderLinks_keeps {r : State} (s : State) (v : Bool) (h0 : Keeps r s) : Keeps r (State.orderLinks s v) := by
  unfold State.orderLinks
  conv => zeta
  repeat' (first | with_reducible assumption | (intro _) | with_reducible apply State.modLink_keeps | fail_if_no_progress with_reducible apply Keeps.upd | with_reducible apply Keeps.foldl | with_reducible apply Keeps.foldl_fst | with_reducible apply Keeps.foldl_snd | dsimp only | split)

theorem State.obey_keeps {r : State} (s : State) (h0 : Keeps r s) : Keeps r (State.obey s) := by
  unfold State.obey
  conv => zeta
  repeat' (first | with_reducible assumption | (intro _) | with_reducible apply State.orderLinks_keeps | with_reducible apply State.sleep_keeps | fail_if_no_progress with_reducible apply Keeps.upd | dsimp only | split)

theorem State.powerFollow_keeps {r : State} (s : State) (old : State) (h0 : Keeps r s) (h1 : Keeps r old) : Keeps r (State.powerFollow s old) := by
  unfold State.powerFollow
  conv => zeta
  repeat' (first | with_reducible assumption | (intro _) | with_reducible apply State.wake_keeps | with_reducible apply State.replan_keeps | with_reducible apply State.giveOrder_keeps | with_reducible apply State.obey_keeps | with_reducible apply State.treeReturn_keeps | with_reducible apply State.cyReturn_keeps | fail_if_no_progress with_reducible apply Keeps.upd | dsimp only | split)

theorem State.step7Follow_keeps {r : State} (s : State) (h0 : Keeps r s) : Keeps r (State.step7Follow s) := by
  unfold State.step7Follow
  conv => zeta
  repeat' (first | with_reducible assumption | (intro _) | with_reducible apply State.stepFail_keeps | fail_if_no_progress with_reducible apply Keeps.upd | dsimp only | split)

theorem State.startFollow_keeps {r : State} (s0 : State) (h0 : Keeps r s0) : Keeps r (State.startFollow s0) := by
  unfold State.startFollow
  conv => zeta
  repeat' (first | with_reducible assumption | (intro _) | with_reducible apply State.step7Follow_keeps | with_reducible apply State.step6Follow_keeps | with_reducible apply State.toEmber_keeps | with_reducible apply State.holdPending_keeps | with_reducible apply State.goWorking_keeps | fail_if_no_progress with_reducible apply Keeps.upd | dsimp only | split)

theorem State.resetFollow_keeps {r : State} (s : State) (h0 : Keeps r s) : Keeps r (State.resetFollow s) := by
  unfold State.resetFollow
  conv => zeta
  repeat' (first | with_reducible assumption | (intro _) | with_reducible apply State.modCmd_keeps | with_reducible apply State.resetMain_keeps | fail_if_no_progress with_reducible apply Keeps.upd | dsimp only | split)

theorem State.settle_keeps {r : State} (s : State) (old : State) (h0 : Keeps r s) (h1 : Keeps r old) : Keeps r (State.settle s old) := by
  unfold State.settle
  conv => zeta
  repeat' (first | with_reducible assumption | (intro _) | with_reducible apply State.pwFollow_keeps | with_reducible apply State.waFollow_keeps | with_reducible apply State.pcFollow_keeps | with_reducible apply State.etherFollow_keeps | with_reducible apply State.metersFollow_keeps | with_reducible apply State.tribsFollow_keeps | with_reducible apply State.cyFollow_keeps | with_reducible apply State.pumpOut_keeps | with_reducible apply State.submitAll_keeps | with_reducible apply State.clampWake_keeps | with_reducible apply State.resetFollow_keeps | with_reducible apply State.powerFollow_keeps | with_reducible apply State.startFollow_keeps | with_reducible apply State.stackFollow_keeps | fail_if_no_progress with_reducible apply Keeps.upd | dsimp only | split)

theorem State.dozeReq_keeps {r : State} (s : State) (h0 : Keeps r s) : Keeps r (State.dozeReq s) := by
  unfold State.dozeReq
  conv => zeta
  repeat' (first | with_reducible assumption | (intro _) | with_reducible apply State.dozeRequest_keeps | fail_if_no_progress with_reducible apply Keeps.upd | dsimp only | split)

theorem State.periodicState_keeps {r : State} (s : State) (h0 : Keeps r s) : Keeps r (State.periodicState s) := by
  unfold State.periodicState
  conv => zeta
  repeat' (first | with_reducible assumption | (intro _) | with_reducible apply State.stateTimer_keeps | fail_if_no_progress with_reducible apply Keeps.upd | dsimp only | split)

theorem State.termData_keeps {r : State} (s : State) (h0 : Keeps r s) : Keeps r (State.termData s) := by
  unfold State.termData
  conv => zeta
  repeat' (first | with_reducible assumption | (intro _) | with_reducible apply State.takeMsg_keeps | with_reducible apply State.takeMsg_keeps_eq (e := by with_reducible assumption) | with_reducible apply State.modTd_keeps | with_reducible apply State.modTm_keeps | with_reducible apply State.modHearth_keeps | with_reducible apply State.revertNotice_keeps | with_reducible apply State.localStart_keeps | fail_if_no_progress with_reducible apply Keeps.upd | dsimp only | split)

theorem opPsStatus_keeps {r : State} (op : Nat) (p : List Byte) (s : State) (h0 : Keeps r s) : Keeps r (opPsStatus op p s) := by
  unfold opPsStatus
  conv => zeta
  repeat' (first | with_reducible assumption | (intro _) | with_reducible apply State.finish_keeps | with_reducible apply State.draw_keeps | with_reducible apply State.draw_keeps_eq (e := by with_reducible assumption) | fail_if_no_progress with_reducible apply Keeps.upd | with_reducible apply Keeps.getD | dsimp only | split)

end Sys2Proof.Machine
end

