-- ==== Sys2Proof/Laws/KeepsCommands.lean ====
section
/-! SUPPORT. The operations of Machine/Commands.lean keep what every operation inside a command keeps (`Keeps`). -/

namespace Sys2Proof.Machine

set_option linter.unusedTactic false
set_option linter.unreachableTactic false
set_option linter.unusedVariables false
set_option linter.unnecessarySeqFocus false

theorem opNop_keeps {r : State} (op : Nat) (p : List Byte) (s : State) (h0 : Keeps r s) : Keeps r (opNop op p s) := by
  unfold opNop
  conv => zeta
  repeat' (first | with_reducible assumption | (intro _) | with_reducible apply State.finish_keeps | fail_if_no_progress with_reducible apply Keeps.upd | dsimp only | split)

theorem opGetInfo_keeps {r : State} (op : Nat) (p : List Byte) (s : State) (h0 : Keeps r s) : Keeps r (opGetInfo op p s) := by
  unfold opGetInfo
  conv => zeta
  repeat' (first | with_reducible assumption | (intro _) | with_reducible apply State.finish_keeps | fail_if_no_progress with_reducible apply Keeps.upd | dsimp only | split)

theorem opOpQuery_keeps {r : State} (op : Nat) (p : List Byte) (s : State) (h0 : Keeps r s) : Keeps r (opOpQuery op p s) := by
  unfold opOpQuery
  conv => zeta
  repeat' (first | with_reducible assumption | (intro _) | with_reducible apply State.finish_keeps | fail_if_no_progress with_reducible apply Keeps.upd | dsimp only | split)

theorem State.cancel_keeps {r : State} (s : State) (p : List Byte) (h0 : Keeps r s) : Keeps r (State.cancel s p).1 := by
  unfold State.cancel
  conv => zeta
  repeat' (first | with_reducible assumption | (intro _) | with_reducible apply State.memberResult_keeps | with_reducible apply State.unsend_keeps | fail_if_no_progress with_reducible apply Keeps.upd | dsimp only | split)

theorem State.cancel_keeps_eq {r : State} (s : State) (p : List Byte) {xx tt} (e : State.cancel s p = (tt, xx)) (h0 : Keeps r s) : Keeps r tt := by
  have q := State.cancel_keeps (r := r) s p h0
  rw [e] at q
  exact q

theorem opCancel_keeps {r : State} (op : Nat) (p : List Byte) (s : State) (h0 : Keeps r s) : Keeps r (opCancel op p s) := by
  unfold opCancel
  conv => zeta
  repeat' (first | with_reducible assumption | (intro _) | with_reducible apply State.cancel_keeps | with_reducible apply State.cancel_keeps_eq (e := by with_reducible assumption) | with_reducible apply State.finish_keeps | fail_if_no_progress with_reducible apply Keeps.upd | dsimp only | split)

theorem opNoticeAck_keeps {r : State} (op : Nat) (p : List Byte) (s : State) (h0 : Keeps r s) : Keeps r (opNoticeAck op p s) := by
  unfold opNoticeAck
  conv => zeta
  repeat' (first | with_reducible assumption | (intro _) | with_reducible apply State.finish_keeps | with_reducible apply State.chimneyAcked_keeps | with_reducible apply State.dropNotice_keeps | with_reducible apply State.sendMsg_keeps | fail_if_no_progress with_reducible apply Keeps.upd | with_reducible apply Keeps.getD | dsimp only | split)

theorem opResetMain_keeps {r : State} (op : Nat) (p : List Byte) (s : State) (h0 : Keeps r s) : Keeps r (opResetMain op p s) := by
  unfold opResetMain
  conv => zeta
  repeat' (first | with_reducible assumption | (intro _) | with_reducible apply State.finish_keeps | with_reducible apply State.modBoot_keeps | fail_if_no_progress with_reducible apply Keeps.upd | dsimp only | split)

theorem runCmd_keeps {r : State} (f : Nat) (id : Nat) (p : List Byte) (s : State) (h0 : Keeps r s) : Keeps r (runCmd f id p s) := by
  unfold runCmd
  conv => zeta
  repeat' (first | with_reducible assumption | (intro _) | with_reducible apply opNop_keeps | with_reducible apply opGetInfo_keeps | with_reducible apply opRegRead_keeps | with_reducible apply opRegWrite_keeps | with_reducible apply opRegModify_keeps | with_reducible apply opOpQuery_keeps | with_reducible apply opCancel_keeps | with_reducible apply opNoticeAck_keeps | with_reducible apply opImgStatus_keeps | with_reducible apply opImgErase_keeps | with_reducible apply opImgWrite_keeps | with_reducible apply opImgVerify_keeps | with_reducible apply opImgActivate_keeps | with_reducible apply opImgCommit_keeps | with_reducible apply opBootReport_keeps | with_reducible apply opResetMain_keeps | with_reducible apply Keeps.ite | fail_if_no_progress with_reducible apply Keeps.upd | dsimp only | split)

theorem blockOps_keeps {r : State} (b : Nat) :
    ∀ f ∈ blockOps b, ∀ id p s, Keeps r s → Keeps r (f id p s) := by
  unfold blockOps
  split <;> simp only [List.forall_mem_cons, List.not_mem_nil, false_implies, implies_true, and_true]
  all_goals (repeat' (with_reducible apply And.intro)) <;> intro id p s h0
  all_goals first | with_reducible exact opPsStatus_keeps id p s h0 | with_reducible exact opHeldRead_keeps id p s h0 | with_reducible exact opNtStatus_keeps id p s h0 | with_reducible exact opNtSet_keeps id p s h0 | with_reducible exact opNtAdjust_keeps id p s h0 | with_reducible exact opCmpArm_keeps id p s h0 | with_reducible exact opCmpDisarm_keeps id p s h0 | with_reducible exact opMaStatus_keeps id p s h0 | with_reducible exact opMaArm_keeps id p s h0 | with_reducible exact opMaPulse_keeps id p s h0 | with_reducible exact opMaWave_keeps id p s h0 | with_reducible exact opLnReport_keeps id p s h0 | with_reducible exact opLnEye_keeps id p s h0 | with_reducible exact opLnTxRelease_keeps id p s h0 | with_reducible exact opLnSpareForce_keeps id p s h0 | with_reducible exact opTdReport_keeps id p s h0 | with_reducible exact opTmStatus_keeps id p s h0 | with_reducible exact opTmSetSerial_keeps id p s h0 | with_reducible exact opTmSetIdent_keeps id p s h0 | with_reducible exact opTmForget_keeps id p s h0 | with_reducible exact opTmClearDisable_keeps id p s h0 | with_reducible exact opUpStatus_keeps id p s h0 | with_reducible exact opUpAdmitTest_keeps id p s h0 | with_reducible exact opMpXact_keeps id p s h0 | with_reducible exact opMpStatus_keeps id p s h0 | with_reducible exact opMpProgLoad_keeps id p s h0 | with_reducible exact opMpProgStart_keeps id p s h0 | with_reducible exact opMpProgStop_keeps id p s h0 | with_reducible exact opMpProgStatus_keeps id p s h0 | with_reducible exact opTbStatus_keeps id p s h0 | with_reducible exact opEmStatus_keeps id p s h0 | with_reducible exact opEmStats_keeps id p s h0 | with_reducible exact opEmMdio_keeps id p s h0 | with_reducible exact opCyStatus_keeps id p s h0 | with_reducible exact opCyKeyInfo_keeps id p s h0 | with_reducible exact opCyKeyLoad_keeps id p s h0 | with_reducible exact opCyKeyErase_keeps id p s h0 | with_reducible exact opCyZeroise_keeps id p s h0 | with_reducible exact opCyRun_keeps id p s h0 | with_reducible exact opPcStatus_keeps id p s h0 | with_reducible exact opPcBudget_keeps id p s h0 | with_reducible exact opPcForceIdr_keeps id p s h0 | with_reducible exact opPcClipList_keeps id p s h0 | with_reducible exact opPcClipIndex_keeps id p s h0 | with_reducible exact opPcClipSend_keeps id p s h0 | with_reducible exact opPcClipLock_keeps id p s h0 | with_reducible exact opPcClipUnlock_keeps id p s h0 | with_reducible exact opPcDecLoad_keeps id p s h0 | with_reducible exact opPcDecode_keeps id p s h0 | with_reducible exact opPcDecStop_keeps id p s h0 | with_reducible exact opWaStatus_keeps id p s h0 | with_reducible exact opWaCapture_keeps id p s h0 | with_reducible exact opWaField_keeps id p s h0 | with_reducible exact opWaDisc_keeps id p s h0 | with_reducible exact opWaI2c_keeps id p s h0 | with_reducible exact opPwStatus_keeps id p s h0 | with_reducible exact opPwClear_keeps id p s h0 | with_reducible exact opStStatus_keeps id p s h0 | with_reducible exact opStRetrain_keeps id p s h0 | with_reducible exact opSkStatus_keeps id p s h0 | with_reducible exact opSkCfgWrite_keeps id p s h0 | with_reducible exact opSkCfgCommit_keeps id p s h0 | with_reducible exact opSkQuarantine_keeps id p s h0 | with_reducible exact opAlStatus_keeps id p s h0 | with_reducible exact opAlRead_keeps id p s h0 | with_reducible exact opAlArchives_keeps id p s h0 | with_reducible exact opAlArchRead_keeps id p s h0 | with_reducible exact opAlUpload_keeps id p s h0 | with_reducible exact opAlFlush_keeps id p s h0 | with_reducible exact opAlWave_keeps id p s h0 | with_reducible exact opAlMark_keeps id p s h0 | with_reducible exact opMmStatus_keeps id p s h0 | with_reducible exact opMmLog_keeps id p s h0 | with_reducible exact opMmWithdraw_keeps id p s h0

theorem State.runOpcode_keeps {r : State} (s : State) (opcode : Nat) (id : Nat) (p : List Byte) (h0 : Keeps r s) : Keeps r (State.runOpcode s opcode id p) := by
  unfold State.runOpcode
  conv => zeta
  repeat' (first | with_reducible assumption | (intro _) | with_reducible apply runCmd_keeps | with_reducible apply State.finish_keeps | exact blockOps_keeps _ _ (List.mem_of_getElem? (by assumption)) _ _ _ (by assumption) | fail_if_no_progress with_reducible apply Keeps.upd | dsimp only | split)

theorem State.forward_keeps {r : State} (s : State) (v_e : OpEntry) (m : Nat) {t : State} (h0 : Keeps r s) (e : State.forward s v_e m = some t) : Keeps r t := by
  unfold State.forward at e
  conv at e => zeta
  (repeat' split at e) <;> (try cases e) <;> (try simp only [Option.some.injEq, Prod.mk.injEq] at e) <;> (try obtain ⟨_, e⟩ := e) <;> (try subst e)
  all_goals (repeat' (first | with_reducible assumption | (intro _) | (with_reducible apply State.offer_keeps (e := by with_reducible assumption)) | with_reducible apply State.modPeer_keeps | fail_if_no_progress with_reducible apply Keeps.upd | dsimp only | split))

theorem State.forwardAllTo_keeps {r : State} (s : State) (v_e : OpEntry) (a2 : List Nat) {t : State} (h0 : Keeps r s) (e : State.forwardAllTo s v_e a2 = some t) : Keeps r t := by
  induction a2 generalizing s t with
  | nil =>
    unfold State.forwardAllTo at e
    cases e
    exact h0
  | cons m l ih =>
    unfold State.forwardAllTo at e
    split at e
    · split at e
      · cases e
        with_reducible apply State.memberResult_keeps
        exact ih _ h0 (by assumption)
      · cases e
    · split at e
      · exact ih _ (State.forward_keeps _ _ _ h0 (by assumption)) e
      · cases e

theorem State.runHere_keeps {r : State} (s : State) (v_e : OpEntry) (h0 : Keeps r s) : Keeps r (State.runHere s v_e) := by
  unfold State.runHere
  conv => zeta
  repeat' (first | with_reducible assumption | (intro _) | with_reducible apply State.memberResult_keeps | with_reducible apply State.runOpcode_keeps | fail_if_no_progress with_reducible apply Keeps.upd | dsimp only | split)

theorem State.startCancel_keeps {r : State} (s : State) (v_e : OpEntry) (h0 : Keeps r s) : Keeps r (State.startCancel s v_e) := by
  unfold State.startCancel
  conv => zeta
  repeat' (first | with_reducible assumption | (intro _) | with_reducible apply State.cancel_keeps | with_reducible apply State.cancel_keeps_eq (e := by with_reducible assumption) | with_reducible apply State.memberResult_keeps | fail_if_no_progress with_reducible apply Keeps.upd | with_reducible apply Keeps.foldl | with_reducible apply Keeps.foldl_fst | with_reducible apply Keeps.foldl_snd | dsimp only | split)

theorem State.startOp_keeps {r : State} (s : State) (v_e : OpEntry) (h0 : Keeps r s) : Keeps r (State.startOp s v_e) := by
  unfold State.startOp
  conv => zeta
  repeat' (first | with_reducible assumption | (intro _) | with_reducible apply State.modOp_keeps | with_reducible apply State.memberResult_keeps | with_reducible apply State.runHere_keeps | with_reducible apply State.startCancel_keeps | (with_reducible apply State.forwardAllTo_keeps (e := by with_reducible assumption)) | fail_if_no_progress with_reducible apply Keeps.upd | dsimp only | split)

theorem State.commandStart_keeps {r : State} (s : State) (tag : Nat) (h0 : Keeps r s) : Keeps r (State.commandStart s tag) := by
  unfold State.commandStart
  conv => zeta
  repeat' (first | with_reducible assumption | (intro _) | with_reducible apply State.wake_keeps | with_reducible apply State.startOp_keeps | fail_if_no_progress with_reducible apply Keeps.upd | dsimp only | split)

theorem State.command_keeps {r : State} (op : Nat) (tag : Nat) (p : List Byte) (s : State) (h0 : Keeps r s) : Keeps r (State.command op tag p s) := by
  unfold State.command
  conv => zeta
  repeat' (first | with_reducible assumption | (intro _) | with_reducible apply State.wake_keeps | with_reducible apply State.refuse_keeps | with_reducible apply State.commandStart_keeps | with_reducible apply State.accept_keeps | fail_if_no_progress with_reducible apply Keeps.upd | dsimp only | split)

theorem State.runShadow_keeps {r : State} (s : State) (id : Nat) (h0 : Keeps r s) : Keeps r (State.runShadow s id) := by
  unfold State.runShadow
  conv => zeta
  repeat' (first | with_reducible assumption | (intro _) | with_reducible apply State.finish_keeps | with_reducible apply State.runOpcode_keeps | fail_if_no_progress with_reducible apply Keeps.upd | dsimp only | split)

theorem State.commandMsg_keeps {r : State} (s : State) (h0 : Keeps r s) : Keeps r (State.commandMsg s) := by
  unfold State.commandMsg
  conv => zeta
  repeat' (first | with_reducible assumption | (intro _) | with_reducible apply State.commandIn_keeps | with_reducible apply State.commandIn_keeps_eq (e := by with_reducible assumption) | with_reducible apply State.runShadow_keeps | fail_if_no_progress with_reducible apply Keeps.upd | with_reducible apply Keeps.foldl | with_reducible apply Keeps.foldl_fst | with_reducible apply Keeps.foldl_snd | dsimp only | split)

end Sys2Proof.Machine
end

