-- ==== Sys2Proof/Laws/KeepsEffects.lean ====
section
/-! SUPPORT. The operations of Machine/Effects.lean keep what every operation inside a command keeps (`Keeps`). -/

namespace Sys2Proof.Machine

set_option linter.unusedTactic false
set_option linter.unreachableTactic false
set_option linter.unusedVariables false
set_option linter.unnecessarySeqFocus false

theorem State.onMain_keeps {r : State} (f : State → State) (s : State) (h0 : ∀ y0, Keeps r y0 → Keeps r (f y0)) (h1 : Keeps r s) : Keeps r (State.onMain f s) := by
  unfold State.onMain
  conv => zeta
  repeat' (first | with_reducible assumption | (intro _) | with_reducible apply h0 | fail_if_no_progress with_reducible apply Keeps.upd | dsimp only | split)

theorem State.onBlocks_keeps {r : State} (f : State → State) (s : State) (h0 : ∀ y0, Keeps r y0 → Keeps r (f y0)) (h1 : Keeps r s) : Keeps r (State.onBlocks f s) := by
  unfold State.onBlocks
  conv => zeta
  repeat' (first | with_reducible assumption | (intro _) | with_reducible apply h0 | fail_if_no_progress with_reducible apply Keeps.upd | dsimp only | split)

theorem State.regWrite_keeps {r : State} (a : Nat) (v : Nat) (s : State) (h0 : Keeps r s) : Keeps r (State.regWrite a v s) := by
  unfold State.regWrite
  conv => zeta
  repeat' (first | with_reducible assumption | (intro _) | with_reducible apply State.writeReg_keeps | with_reducible apply State.writeReg_keeps_eq (e := by with_reducible assumption) | fail_if_no_progress with_reducible apply Keeps.upd | dsimp only | split)

theorem State.enClear_keeps {r : State} (a : Nat) (s : State) (h0 : Keeps r s) : Keeps r (State.enClear a s) := by
  unfold State.enClear
  conv => zeta
  repeat' (first | with_reducible assumption | (intro _) | with_reducible apply State.regWrite_keeps | fail_if_no_progress with_reducible apply Keeps.upd | dsimp only | split)

theorem compareAct_keeps {r : State} (action : Nat) (param : Nat) (s : State) (h0 : Keeps r s) : Keeps r (compareAct action param s) := by
  unfold compareAct
  conv => zeta
  repeat' (first | with_reducible assumption | (intro _) | with_reducible apply State.capture_keeps | with_reducible apply State.startProg_keeps | with_reducible apply State.armEntry_keeps | with_reducible apply State.modNt_keeps | fail_if_no_progress with_reducible apply Keeps.upd | dsimp only | split)

theorem State.secondBoundary_keeps {r : State} (s : State) (h0 : Keeps r s) : Keeps r (State.secondBoundary s) := by
  unfold State.secondBoundary
  conv => zeta
  repeat' (first | with_reducible assumption | (intro _) | with_reducible apply State.phaseLatch_keeps | with_reducible apply State.ppsRise_keeps | fail_if_no_progress with_reducible apply Keeps.upd | dsimp only | split)

theorem State.frameIn_keeps {r : State} (s : State) (lane : Nat) (bytes : List Byte) (h0 : Keeps r s) : Keeps r (State.frameIn s lane bytes) := by
  unfold State.frameIn
  conv => zeta
  repeat' (first | with_reducible assumption | (intro _) | with_reducible apply State.frameReceived_keeps | with_reducible apply State.emSuperframe_keeps | fail_if_no_progress with_reducible apply Keeps.upd | dsimp only | split)

theorem State.mgmtSduIn_keeps {r : State} (s : State) (h0 : Keeps r s) : Keeps r (State.mgmtSduIn s) := by
  unfold State.mgmtSduIn
  conv => zeta
  repeat' (first | with_reducible assumption | (intro _) | (with_reducible apply State.takeSdu_keeps (e := by with_reducible assumption)) | with_reducible apply State.mgmtSdu_keeps | fail_if_no_progress with_reducible apply Keeps.upd | dsimp only | split)

theorem State.sourceOffers_keeps {r : State} (s : State) (queue : Nat) (source : Nat) (bytes : List Byte) (h0 : Keeps r s) : Keeps r (State.sourceOffers s queue source bytes) := by
  unfold State.sourceOffers
  conv => zeta
  repeat' (first | with_reducible assumption | (intro _) | with_reducible apply State.enqueue_keeps | with_reducible apply State.enqueue_keeps_eq (e := by with_reducible assumption) | with_reducible apply State.sendMsg_keeps | fail_if_no_progress with_reducible apply Keeps.upd | dsimp only | split)

theorem State.messageOffered_keeps {r : State} (s : State) (link : Nat) (cls : Nat) (dest : Nat) (bytes : List Byte) (h0 : Keeps r s) : Keeps r (State.messageOffered s link cls dest bytes) := by
  unfold State.messageOffered
  conv => zeta
  repeat' (first | with_reducible assumption | (intro _) | (with_reducible apply State.offerOn_keeps (e := by with_reducible assumption)) | fail_if_no_progress with_reducible apply Keeps.upd | with_reducible apply Keeps.getD | dsimp only | split)

end Sys2Proof.Machine
end

