-- ==== Sys2Proof/Laws/KeepsPool.lean ====
section
/-! SUPPORT. The operations of Machine/Pool.lean keep what every operation inside a command keeps (`Keeps`). -/

namespace Sys2Proof.Machine

set_option linter.unusedTactic false
set_option linter.unreachableTactic false
set_option linter.unusedVariables false
set_option linter.unnecessarySeqFocus false

theorem State.poisonItem_keeps {r : State} (s : State) (a1 : PoolItem) (h0 : Keeps r s) : Keeps r (State.poisonItem s a1) := by
  unfold State.poisonItem
  conv => zeta
  repeat' (first | with_reducible assumption | (intro _) | with_reducible apply State.modCmd_keeps | with_reducible apply State.pumpOut_keeps | with_reducible apply State.modUp_keeps | with_reducible apply State.modLink_keeps | with_reducible apply State.count_keeps | with_reducible apply State.freeWaiting_keeps | with_reducible apply State.modTd_keeps | with_reducible apply State.modMp_keeps | fail_if_no_progress with_reducible apply Keeps.upd | dsimp only | split)

theorem State.poisonFound_keeps {r : State} (s : State) (w : Nat) (h0 : Keeps r s) : Keeps r (State.poisonFound s w) := by
  unfold State.poisonFound
  conv => zeta
  repeat' (first | with_reducible assumption | (intro _) | with_reducible apply State.draw_keeps | with_reducible apply State.draw_keeps_eq (e := by with_reducible assumption) | with_reducible apply State.poisonItem_keeps | with_reducible apply State.poisonedRead_keeps | with_reducible apply State.modMem_keeps | fail_if_no_progress with_reducible apply Keeps.upd | dsimp only | split)

theorem State.scrub_keeps {r : State} (s : State) (v_r : WordRead) (h0 : Keeps r s) : Keeps r (State.scrub s v_r) := by
  unfold State.scrub
  conv => zeta
  repeat' (first | with_reducible assumption | (intro _) | with_reducible apply State.scrubRead_keeps | with_reducible apply State.poisonFound_keeps | fail_if_no_progress with_reducible apply Keeps.upd | dsimp only | split)

end Sys2Proof.Machine
end

