-- ==== Sys2Proof/WellFormed.lean ====
section
/-! DEFINITION. Which commands are well formed: every operand that names a unit names one the chip has, and every
quantity that the chip would sample or receive is one that its input can give. A command that is not well formed stands
for no event of the chip; `Machine.exec` gives it no effect of its own. -/

namespace Sys2Proof

/-- A fault of the memory test lies in the SRAM: 64 banks of 512 rows and 72 lanes, four spare rows and two spare
columns each (R690, R698). -/
def BankFault.wf : BankFault → Bool
  | .cell b r l => decide (b < 64 ∧ r < 512 ∧ l < 72)
  | .spareRow b n => decide (b < 64 ∧ n < 4)
  | .spareCol b n => decide (b < 64 ∧ n < 2)
  | .retest b => decide (b < 64)

/-- A lane that a read finds wrong is one of a word's 72 (R690). -/
def WordRead.wf : WordRead → Bool
  | .single l _ => decide (l < 72)
  | _ => true

/-- A tag of a master is below 0x8000, and a parameter field has at most 4,096 bytes (R85). -/
def opWf (tag : BitVec 16) (params : List Byte) : Bool := decide (tag.toNat < 0x8000 ∧ params.length ≤ 4096)

/-- The samples of a picture line are at 10 bits (R556). -/
def samplesWf (l : List Nat) : Bool := l.all (fun v => decide (v < 1024))

/-- The units that a command names exist, and the quantities it carries are in range. -/
def Instr.wf : Instr → Bool
  | .mainResetRelease _ _ _ _ _ faults _ rails => faults.all BankFault.wf && rails.length == 7
  | .railOutOfWindow _ (rails, _) | .railsNotUp _ rails => rails.length == 7
  | .watchdog _ core _ => decide (core < 4)
  | .tamperActive _ i _ => decide (i < 8)
  | .tamperInactive _ i => decide (i < 8)
  | .meshBreak _ p _ _ => decide (p < 2)
  | .meshRearm _ p => decide (p < 2)
  | .cmpFire _ u => decide (u < 16)
  | .zeroCrossing _ p _ peak samples => decide (p < 3 ∧ peak < 1024) && samples.all (fun v => decide (-512 ≤ v ∧ v < 512))
  | .crossingMissed _ p => decide (p < 3)
  | .entryFire _ e => decide (e < 528)
  | .relayPulseEnd _ r => decide (r < 16)
  | .entryWrite _ e c _ => decide (e < 512 ∧ c < 2)
  | .losDeclared _ l sd => decide (l < 9 ∧ (sd = true → l < 2))
  | .losCleared _ (l, sd) => decide (l < 9 ∧ (sd = true → l < 2))
  | .lockWindowEnd _ l _ _ _ => decide (l < 9)
  | .rogue _ l c => decide (l < 9 ∧ c < 2)
  | .laneMarker _ k l _ syms => decide (k < 2 ∧ l < 3) && syms.all (fun v => decide (v < 512))
  | .laneFail _ l _ => decide (l < 9)
  | .laneRequalify _ l => decide (l < 9)
  | .eyeMeasurementDone _ l ps vs _ => decide (l < 9) && (ps.isEmpty || ps.length == 65) && (vs.isEmpty || vs.length == 127)
  | .frameReceived _ l _ => decide (l < 2)
  | .tdPortWrite _ p _ => decide (p < 4096)
  | .upstreamFrameBoundary _ rx => decide (rx.length ≤ 4)
  | .sduEnqueue _ q src _ => decide (q < 32 ∧ src < 5)
  | .xactStart _ p => decide (p < 48)
  | .requestSent _ p => decide (p < 48)
  | .charReceived _ p samples _ => decide (p < 48) && samples.all (fun v => decide (v < 8))
  | .idleGap _ p => decide (p < 48)
  | .firstMsExpiry _ p => decide (p < 48)
  | .interTimeout _ p => decide (p < 48)
  | .busHeldLow _ p => decide (p < 48)
  | .busReleased _ p => decide (p < 48)
  | .mpPortDisable _ p => decide (p < 48)
  | .rxcWindow _ t _ => decide (t < 4)
  | .tbDisable _ t => decide (t < 4)
  | .ethFrameRx _ p _ _ => decide (p < 2)
  | .linkChange _ p _ speed _ _ => decide (p < 2 ∧ speed < 3)
  | .ethSend _ p => decide (p < 2)
  | .ethFrameStart _ p => decide (p < 2)
  | .pauseExpiry _ p => decide (p < 2)
  | .emCfgWrite _ p _ => decide (p < 2)
  | .cipherRequestStart _ p => decide (p < 2)
  | .cipherCompletion _ p => decide (p < 2)
  | .rngHealthFail _ t => decide (t < 3)
  | .drbgReseed _ i => decide (i < 3)
  | .cyQueueDisable _ q => decide (q < 4)
  | .pcChannelWrite _ c _ => decide (c < 4)
  | .frameStart _ c vc => decide (c < 4 ∧ vc < 4)
  | .lineReceived _ c vc _ _ y cb cr => decide (c < 4 ∧ vc < 4) && samplesWf y && samplesWf cb && samplesWf cr
  | .frameEnd _ c vc => decide (c < 4 ∧ vc < 4)
  | .frameTimeout _ c => decide (c < 4)
  | .lampOn _ c => decide (c < 4)
  | .lampMax _ c => decide (c < 4)
  | .discStopTimeout _ d => decide (d < 4)
  | .phaseClipped _ p => decide (p < 3)
  | .pwSample _ bus sense out =>
    decide (bus < 1024 ∧ sense.length = 12 ∧ out.length = 12) && samplesWf sense && samplesWf out
  | .fastTrip _ c => decide (c < 12)
  | .sagFreeze _ c _ => decide (c < 12)
  | .sagTimeout _ c => decide (c < 12)
  | .uvOff _ c => decide (c < 12)
  | .seatChange _ c _ => decide (c < 12)
  | .insTimeMet _ c => decide (c < 12)
  | .inrushTimeout _ c => decide (c < 12)
  | .backoffExpiry _ c => decide (c < 12)
  | .onStable _ c => decide (c < 12)
  | .damagedTimeout _ c => decide (c < 12)
  | .pwDisable _ c => decide (c < 12)
  | .flitRx _ k flit _ => decide (k < 2 ∧ flit.length = 32)
  | .flitSlot _ k => decide (k < 2)
  | .status _ k _ => decide (k < 2)
  | .nak _ k _ => decide (k < 2)
  | .init _ k _ => decide (k < 2)
  | .retrain _ k _ => decide (k < 2)
  | .idleReq _ k => decide (k < 2)
  | .idleAck _ k => decide (k < 2)
  | .statusTimer _ k => decide (k < 2)
  | .ackTimeout _ k => decide (k < 2)
  | .stMessageOffer _ k c _ _ => decide (k < 2 ∧ c < 4)
  | .trainingDone _ k => decide (k < 2)
  | .trainingTimeout _ k => decide (k < 2)
  | .downRetry _ k => decide (k < 2)
  | .sleepWake _ k _ => decide (k < 2)
  | .stLinkWrite _ k _ => decide (k < 2)
  | .suppressWindowEnd _ src => decide (src < 256)
  | .scrubRead _ r => r.wf
  | .hearthScrub _ region _ r => decide (region < 7) && r.wf
  | .nop _ t p | .getInfo _ t p | .regRead _ t p | .regWrite _ t p | .regModify _ t p | .opQuery _ t p | .cancel _ t p
  | .noticeAck _ t p | .resetMain _ t p | .imgStatus _ t p | .imgErase _ t p | .imgWrite _ t p | .imgVerify _ t p
  | .imgActivate _ t p | .imgCommit _ t p | .bootReport _ t p => opWf t p
  | .psStatus _ t p | .heldRead _ t p | .ntStatus _ t p | .ntSet _ t p | .ntAdjust _ t p | .cmpArm _ t p
  | .cmpDisarm _ t p | .maStatus _ t p | .maArm _ t p | .maPulse _ t p | .maWave _ t p | .lnReport _ t p | .lnEye _ t p
  | .lnTxRelease _ t p | .lnSpareForce _ t p | .tdReport _ t p | .tmStatus _ t p | .tmSetSerial _ t p
  | .tmSetIdent _ t p | .tmForget _ t p | .tmClearDisable _ t p | .upStatus _ t p | .upAdmitTest _ t p => opWf t p
  | .mpXact _ t p | .mpStatus _ t p | .mpProgLoad _ t p | .mpProgStart _ t p | .mpProgStop _ t p | .mpProgStatus _ t p
  | .tbStatus _ t p | .emStatus _ t p | .emStats _ t p | .emMdio _ t p | .cyStatus _ t p | .cyKeyInfo _ t p
  | .cyKeyLoad _ t p | .cyKeyErase _ t p | .cyZeroise _ t p | .cyRun _ t p => opWf t p
  | .pcStatus _ t p | .pcBudget _ t p | .pcForceIdr _ t p | .pcClipList _ t p | .pcClipIndex _ t p | .pcClipSend _ t p
  | .pcClipLock _ t p | .pcClipUnlock _ t p | .pcDecLoad _ t p | .pcDecode _ t p | .pcDecStop _ t p | .waStatus _ t p
  | .waCapture _ t p | .waField _ t p | .waDisc _ t p | .waI2c _ t p | .pwStatus _ t p | .pwClear _ t p => opWf t p
  | .stStatus _ t p | .stRetrain _ t p | .skStatus _ t p | .skCfgWrite _ t p | .skCfgCommit _ t p | .skQuarantine _ t p
  | .alStatus _ t p | .alRead _ t p | .alArchives _ t p | .alArchRead _ t p | .alUpload _ t p | .alFlush _ t p
  | .alWave _ t p | .alMark _ t p | .mmStatus _ t p | .mmLog _ t p | .mmWithdraw _ t p => opWf t p
  | .resetN _ _ | .railRestart _ | .railRetry _ | .step9Timeout _
  | .spiWrite _ _ | .spiRead _ _ | .spiStatus _ | .mgmtSdu _ | .uartPacket _ _ | .uartGapTimeout _
  | .commandStart _ _ | .opTimeout _ _ | .packetLeft _ | .alarmRepeat _ _ | .cmdOpLimitWrite _ _
  | .hearthStart _ _ _ | .hearthReset _ _ _ | .supplySwitch _ _ _ | .hearthAlign _ | .wakeTimer _
  | .meshReseed _ | .cellMeasure _ _ | .reserveSample _ _ | .scheduledReturn _ | .psuOkFall _ | .psuOkRise _
  | .emberEntry _ | .alarmMsExpiry _ | .xtalStop _ | .secondBoundary _ | .ppsEnd _ | .timeOfDay _ | .slewEnd _
  | .timeMessage _ | .timeCorrection _ | .servoMissTimeout _ | .holdoverTimeout _ | .phantomTimeout _
  | .absentTimeout _ | .eyePeriodic _ | .pllUnlock _ _ | .grantMapDeadline _ | .treeProfile _ | .identAssign _
  | .rangingResult _ | .warmAck _ | .allocAssign _ | .portAssign _ | .deregister _ | .disable _ | .dozeGrant _
  | .dozeReq _ | .to1Expiry _ | .twExpiry _ | .to2Expiry _ | .protectionSwitch _ | .treeRecordSave _
  | .fillInstant _ | .burstStart _ | .chimneyAckWaitEnd _ | .meterSdu _ | .holdOffer _ | .containerJudge _
  | .rngRestart _ | .s2RowDone _ | .s3RowDone _ _ _ _ | .s5RowDone _ _ _ _ | .decodePictureDone _ _
  | .announce _ | .stackState _ | .memberState _ | .route _ | .command _ | .replyNotice _ | .meterResult _
  | .sduDown _ | .sduUp _ | .refusal _ | .regAccess _ | .termData _ | .treeRecord _ | .config _ | .image _
  | .timeExchange _ | .timeResp _ | .phase _ | .routeTimer _ | .announceTimer _ | .stackStateTimer _
  | .electTimeout _ | .leadLost _ | .abdicate _ | .takeover _ | .flushStart _ | .flushStepDone _ _
  | .fieldRepair _ | .repairLogFlash _ | .flashOperationDone _ _ | .startUpTestPassed _
  | .crystalRunningAgain _ | .duplicateQuietTimeout _ | .memberStateTimeout _ | .inactiveBankWaitTimeout _ => true

end Sys2Proof
end

