-- ==== Sys2Proof/Tests/Slice0.lean ====
section
/-! SUPPORT. Tests: ill-formed commands, the spec's worked examples, and for every obligation with hypotheses a state and
operands that meet them (`met_<Name>`, one part for each clause). The states are this file's own. -/

namespace Sys2Proof.Tests
open Sys2Proof Sys2Proof.Machine

set_option linter.unusedVariables false
set_option Elab.async false

/-! ### Small states -/

/-- A single member in office, its commands on SPI, working in Blaze. -/
def lone : State := { State.reset with
  now := 2 ^ 50
  hearth := { State.reset.hearth with
    pen := true
    railsUp := true
    psuOk := true
    ps := .blaze }
  main := { Main.cold with
    out := true
    boot := {
      slot := some 0
      ends := List.replicate 9 (some 0)
      local9 := true
      startAt := some 0
      treeEn := true
      msel := 1 }
    cmd := {
      started := true
      bound := .spi }
    sk := {
      leadValid := true
      isLead := true
      formed := true
      step7At := some 0 } } }

/-- The main domain off. -/
def dark : State := { lone with main := .cold }

/-- What makes a command of the master run at once, as a Boolean. -/
def executesB (x : State) (op tag : Nat) (p : List Byte) : Bool :=
  x.main.out && !x.main.boot.stopped && x.leads && decide (p.length ≤ 4096) && (x.opOfTag tag == none)
    && (x.leadChecks op == 0) && (!x.quarantined || quarantineOk op)
    && x.main.cmd.ops.all (fun e => e.shadow || (!e.all && !onLead e.opcode && e.member != x.self) || e.st != .queued)

/-- The Boolean implies what `executes` says. -/
theorem executes_of {x : State} {op tag : Nat} {p : List Byte} (h : executesB x op tag p = true) :
    x.executes op tag p := by
  simp only [executesB, Bool.and_eq_true, List.all_eq_true, Bool.or_eq_true, decide_eq_true_eq, beq_iff_eq,
    Bool.not_eq_true', bne_iff_ne] at h
  obtain ⟨⟨⟨⟨⟨⟨⟨a, b⟩, c⟩, d⟩, e⟩, f⟩, g⟩, k⟩ := h
  refine ⟨⟨a, b⟩, c, d, e, f, fun q => ?_, fun e he => ?_⟩
  · rcases g with g | g
    · rw [q] at g; cases g
    · exact g
  · have := k e he
    tauto

theorem passes_of {x : State} {b : List Byte}
    (h : (16 ≤ b.length ∧ syncOk b = true ∧ hcrcOk b = true ∧ b.length = (hdrOf b).extent ∧ (hdrOf b).kind = 0
      ∧ x.leads = true ∧ x.intake + (b.length + 15) / 16 ≤ intakeLimit ∧ (hdrOf b).formatOk = true
      ∧ (hdrOf b).length ≤ 4096
      ∧ ((hdrOf b).length ≠ 0 → field b (16 + (hdrOf b).length) 4 = crc32 (bytesAt b 16 (hdrOf b).length)))) :
    x.passes b := h

theorem railsFail_of {x : State} {r : List Nat × Nat}
    (h : x.hearth.pen = true ∧ x.hearth.railsUp = true ∧ railMap r.1 ≠ 0 ∧ 2000 ≤ r.2) : x.railsFail r := h

theorem pair_fst {α β : Type} {p : α × β} {a : α} (h : p.1 = a) : p = (a, p.2) := by rw [← h]
theorem pair_snd {α β : Type} {p : α × β} {b : β} (h : p.2 = b) : p = (p.1, b) := by rw [← h]
theorem pair_eta {α β : Type} (p : α × β) : p = (p.1, p.2) := rfl
theorem triple_eta {α β γ : Type} (p : α × β × γ) : p = (p.1, p.2.1, p.2.2) := rfl
theorem some_get {α : Type} {o : Option α} (h : o.isSome = true) : o = some (o.get h) := by simp
theorem cons_of {α : Type} {l : List α} (h : l.isEmpty = false) :
    l = l.head (by intro e; rw [e] at h; cases h) :: l.tail := by simp

theorem triple_of {α β γ : Type} {p : α × β × γ} {b : β} {c : γ} (h : p.2.1 = b) (k : p.2.2 = c) :
    p = (p.1, b, c) := by rw [← h, ← k]

/-- A command packet for member 0. -/
def packet (op tag : Nat) (p : List Byte) : List Byte := mkPacket 0 0 0 op tag 0 0 p

/-- An operation that waits. -/
def waitingOp (member op : Nat) : OpEntry :=
  { id := 0, tag := 0, opcode := op, member := member, st := .queued, params := [], accepted := 0, lastReply := 0 }

/-- An alarm that has left and that nothing has acknowledged. -/
def aNotice : Notice := { num := 0x8000, code := 0x0101, member := 0, bytes := [], alarm := true, placed := true, leftAt := some 0 }

/-- Two members, this one in office, the other one hop away on link 0. -/
def pair : State := { lone with
  main := { lone.main with
    sk := { lone.main.sk with
      peers := lone.main.sk.peers.modify 1 (fun p => { p with
        present := true
        announced := true
        hops := [0, 8] }) }
    st := { lone.main.st with links := lone.main.st.links.modify 0 (fun l => { l with
      st := .up
      partnerMember := 1 }) } } }

theorem some_pair {α β : Type} {o : Option (α × β)} {a : α} (h : o.isSome = true) (k : (o.get h).1 = a) :
    o = some (a, (o.get h).2) := by rw [← k]; simp
theorem some_pair2 {α β : Type} {o : Option (α × β)} (h : o.isSome = true) :
    o = some ((o.get h).1, (o.get h).2) := by simp

/-- A boot record: slot A, committed. -/
def mkBoot : List Byte :=
  let b := be 4 0x43564252 ++ be 4 1 ++ [0#8, 0#8] ++ be 2 0
  b ++ be 4 (crc32 b)

/-- The header of an image of one byte, unsigned. -/
def tinyHead : List Byte :=
  let h := be 4 0x43564657 ++ be 2 1 ++ be 2 0 ++ be 4 0x01000000 ++ be 4 0 ++ be 4 1 ++ List.replicate 12 0#8
  h ++ sha256 (h ++ [7#8])

/-- The main domain off, with an image in slot A whose digest the Hearth holds. -/
def bootable : State := { dark with
  flash := flashWrite (flashWrite ([]) 0x10000 (padTo 256 tinyHead)) 0x10100 [7#8]
  hearth := { dark.hearth with start := { dark.hearth.start with digestA := some (bytesAt tinyHead 32 32) } } }

/-- The main rails at their nominal levels. -/
def railsGood : List Nat := [800, 900, 1800, 1800, 1800, 3300, 1800]

/-- A repair log that withdraws 39 banks. -/
def smallMem : State := { dark with hearth := { dark.hearth with
  repairLog := mkLog 0 ((List.range 39).map (fun b => logEntry b 2 0 0 0 0)) } }

/-- Network time locked. -/
def locked : State := lone.modNt (fun n => { n with servo := .locked, sec := 1000 })

/-- The wake timer enabled and past. -/
def wakeSet : State := lone.setFld 0x010018 31 31 1

/-- The power data changed by a function. -/
def withPower (s : State) (f : Power → Power) : State := { s with main := { s.main with power := f s.main.power } }

/-- A time message for a reference frame. -/
def timeMsg (ref flags : Nat) : List Byte := [1#8, 0#8, 0#8, 0#8] ++ be 4 ref ++ be 6 9 ++ be 4 0 ++ List.replicate 8 0#8 ++ [byte flags, 0#8]

/-- A message of the tree that waits. -/
def withMsg (s : State) (sfc : Nat) (m : List Byte) : State := s.modTd (fun d => { d with msgs := [(sfc, m)] })

/-- The downstream in alignment on lane 0. -/
def downOk : State := locked.modTd (fun d => { d with lost := false, lanes := d.lanes.modify 0 (fun l => { l with st := .locked }) })

/-- The mains angle locked on phase A, at a position. -/
def mains (cycle angle : Nat) : State := lone.modMa (fun m => { m with
  running := true
  st := .locked
  base := .locked
  acc := angle * 2 ^ 24
  cycle := cycle
  phases := m.phases.modify 0 (fun p => { p with present := true }) })

/-- A lane enabled and locked. -/
def withLane (s : State) (n : Nat) : State := (s.setFld (lnCfg n) 31 31 1).modLane n (fun l => { l with
  locked := true
  good := 2
  cleanSince := some 0 })

/-- Both links are up. -/
def bothUp : State := (lone.modLink 0 (fun l => { l with st := .up })).modLink 1 (fun l => { l with st := .up })

/-- Entry 511 waits for angle 0 of cycle 5, which has come, and pulses relay 0. -/
def entrySet : State :=
  ((((mains 5 0).setWord (entReg 511) 0x1000).setWord (entReg 511 + 4) 0x8000).setFld 0x030040 0 0 1).modEnt 511
    (fun e => { e with contact := some (5 * 65536) })

/-- A downstream frame with a valid identity block and nothing else. -/
def frame (sfc : Nat) : List Byte :=
  let h := 0x40#8 :: be 4 sfc ++ List.replicate 9 0#8
  be 4 0x39D46EB2 ++ scramble (h ++ be 2 (crc16 h)) ++ List.replicate 39980 0#8

/-- The identity block of such a frame. -/
def frameId (sfc : Nat) : FrameId := ⟨2, false, sfc, 0, 0, 0, 0, 0⟩

/-- Lane 1 watched beside the active lane 0. -/
def watch1 (st : Align) : State := ((withLane lone 1).setFld 0x050000 0 0 1).modTdLane 1 (fun l => { l with
  st := st
  sfc := 6
  errs := 31
  at_ := 2 ^ 50 - 40000 })

/-- A reassembly under way on port 5. -/
def aReasm : Reasm := { port := 5, bytes := [] }

/-- A membership message. -/
def tmMsg (type : Nat) (body : List Byte) : List Byte := [byte type, 0#8, 0#8, 0#8] ++ padTo 24 body

/-- A tree profile: preamble 4, K 8192. -/
def aProfile : Profile := ⟨1, 4, 0, 0, 8, 0, 8192, false⟩

/-- The lead with terminal serial 0x1234 in a state of tree membership. -/
def member (st : TmState) : State := ((lone.modSk (fun k => { k with serial := 0x1234 })).modTm (fun m => { m with
  st := st
  profile := some aProfile })).modTd (fun d => { d with lost := false })

/-- Lane 0 lost for longer than the hold-off, lane 1 in alignment. -/
def toSwitch : State := (((member .operation).setFld 0x060018 31 31 1).modTd (fun d => { d with lost := true })).modTdLane 1
  (fun l => { l with st := .locked })

/-- A ranging grant of allocation 7. -/
def aGrant : Grant := ⟨5, 7, 0, 2 ^ 51, 2 ^ 50, 24, false, true, false, false⟩

/-- The lead ranging, with allocation 7, on lane 0. -/
def ranging : State := (withLane (member .ranging) 0).modTm (fun m => { m with allocs := m.allocs.set 0 (some ⟨false, 7⟩) })

/-- A burst whose START has come. -/
def aBurst : Burst := ⟨2 ^ 50, 24, 0, 0, 7, 4, 0, false, 7, false, none, false, false, [], none⟩

/-- Queue 31 enabled with a depth of 255 KiB. -/
def queueOn : State := (lone.setFld (0x070100 + 16 * 31) 31 31 1).setFld (0x070100 + 16 * 31) 17 8 255

/-- A transaction of port 47. -/
def aXact (noReply : Bool) : Xact := ⟨.sdu, noReply, 0, 0, [1#8], 0⟩

/-- Port 47 enabled, in a state, with a transaction. -/
def port (st : XactSt) (noReply : Bool) : State :=
  (lone.setFld (0x080100 + 32 * 47) 31 31 1).modPort 47 (fun p => { p with
    xacts := [aXact noReply]
    st := st })

/-- The SDU of a request for port 47. -/
def meterSdu : DownSdu := { port := 9, dest := 1, member := 0, bytes := [47#8, 0#8, 0#8, 0#8, 0#8, 0#8, 0#8, 0#8, 1#8] }

/-- One step of a poll program, at port 47. -/
def aStep : List Byte := [47#8, 0#8, 0#8, 0#8, 0#8, 1#8, 1#8]

/-- A PAUSE frame of 65,535 quanta. -/
def pauseFrame : List Byte :=
  let b := be 6 0x0180C2000001 ++ List.replicate 6 0#8 ++ be 2 0x8808 ++ be 2 1 ++ be 2 65535 ++ List.replicate 42 0#8
  b ++ fcs b

/-- Ethernet port 1 enabled with FLOW, and bridging, with its link up. -/
def ethOn : State := (((lone.setFld 0x0A0200 31 31 1).setFld 0x0A0200 30 30 1).setFld 0x0A0200 25 25 1).modEport 1 (fun p => { p with up := true })

/-- A whole send of one byte. -/
def aSend : Send := ⟨[0#8, 0#8, 0#8, 0#8, 1#8], true, none, false, 0, 0⟩

/-- A request of CY_RUN. -/
def aReq : CyReq := { id := 0, for_ := .run 7, op := 1, slot := 0, fixed := [], data := [], queue := 3, since := 0 }

/-- The cipher engine ready, queue 3 enabled and the default of CY_RUN. -/
def cipherOn : State := (((lone.setFld 0x0B0130 31 31 1).setFld 0x0B0000 1 0 3).modCy (fun c => { c with ready := true }))

/-- A key update that waits. -/
def anUpdate : KeyUpdate := ⟨0, 255, 1, 1, 1, [], 0⟩

/-- A picture of channel 3 with its first row coded. -/
def aPic (lean : Bool) : Pic := { no := 0, poc := 0, rows := 30, geom := { lean := lean } }

/-- A clip of channel 3. -/
def aClip : Clip := { id := 0xFFFE, chan := 3 }

/-- The coder at channel 3: a picture in a stage, and its open clip. -/
def coder (f : Picture → Picture) : State := (lone.modPc (fun p => f { p with
  clips := [aClip] })).modChan 3 (fun c => { c with
  on := true
  pics := [aPic false]
  clip := some 0xFFFE })

/-- A decode that runs. -/
def aDec : Dec := ⟨7, some 0xFFFE, 1, 0, true, [], 0, false, 0, 0⟩

/-- A camera of channel 3 in a state of capture. -/
def camera (cap : CapSt) : State := ((lone.modChan 3 (fun c => { c with on := true })).setFld 0x0D01C0 31 31 1).modCam 3 (fun h => { h with
  cap := cap
  rst := some 0 })

/-- Channel 3's lamp leads entry 511, which waits for an angle that has come. -/
def lampSet : State :=
  (((((((mains 5 0).setWord (entReg 511) 0x2003).setWord (entReg 511 + 4) 0x8000).setFld 0x0D01C0 31 31 1).setFld 0x0C01C0 31 31 1).setFld
    0x0D01CC 31 30 1).setFld 0x0D01CC 29 20 1023).modEnt 511 (fun e => { e with contact := some (5 * 65536) })

/-- Fuse channel 11 in a state. -/
def fuseIn (st : FuseSt) : State := lone.modFuse 11 (fun f => { f with st := st })

/-- Link 1 in a state. -/
def linkIn (st : LinkSt) : State := lone.modLink 1 (fun l => { l with st := st })

/-- Link 1 up, with all its credit. -/
def linkUp : State := (linkIn .up).modLink 1 (fun l => { l with
  classes := List.replicate 4 { hc := 8, dc := 8, ownD := 8, ownH := 8, advH := 8, advD := 8 } })

/-- A TRAFFIC flit of class 3 that is a whole message of one byte, for member 0. -/
def aFlit : List Byte :=
  let h := be 2 (2 * 2 ^ 14 + 3 * 2 ^ 12 + 2 ^ 11 + 2 ^ 5)
  let b := 1#8 :: List.replicate 26 0#8
  h ++ b ++ be 3 (flitCrc 0 h b)

/-- An INIT of member 0's link 0, with session 77. -/
def anInit : List Byte := [1#8, 0#8] ++ be 2 77 ++ List.replicate 21 0#8

/-- A message of the stack that waits at link 0 for this member. -/
def aWait (cls type src term aux : Nat) (b : List Byte) : Waiting :=
  ⟨⟨cls, 0, [byte type, byte src] ++ be 2 term ++ be 4 aux ++ b⟩, 1, true, 0⟩

/-- The link with such a message in its receive buffer. -/
def gets (s : State) (cls type src term aux : Nat) (b : List Byte) : State := s.modLink 0 (fun l => l.modClass cls (fun c => { c with
  wait := [aWait cls type src term aux b] }))

/-- Such a message once taken. -/
def tk (cls src term aux : Nat) (b : List Byte) : Taken := ⟨0, cls, src, term, aux, b, 0⟩

/-- Member 0 not in office; it follows no lead yet. -/
def follower : State := lone.modSk (fun k => { k with isLead := false, leadValid := false })

/-- Member 0 follows member 1. -/
def follows : State := pair.modSk (fun k => { k with isLead := false, lead := 1 })

/-- Before the stack is formed. -/
def unformed (s : State) : State := s.modSk (fun k => { k with formed := false })

/-- A configuration image without records, for a terminal serial of 0x1234. -/
def tinyCfg : List Byte :=
  let h := be 4 0x43564347 ++ be 4 1 ++ be 4 0 ++ be 8 0x1234 ++ sha256 [] ++ List.replicate 8 0#8
  h ++ be 4 (crc32 h)

/-- A COMMAND's packet of an opcode. -/
def aCommand (op : Nat) : List Byte := mkPacket 0 0 0 op 9 0 0 []

/-- The lead with an operation that awaits member 1. -/
def awaiting : State := pair.modCmd (fun c => { c with ops := [{ waitingOp 1 0x0007 with id := 5, tag := 9, st := .running, await := [1] }] })

/-- A flush with one step left. -/
def aFlush (tries : Nat) : Flush := ⟨15, 1, 1, none, [.trailer], 260, 0, 0, [], [], [], [], tries⟩

/-- A record of the ash ring. -/
def aRec : AshRec := mkRecord 0xFFFFFFFF []

/-- The ring with one record. -/
def ringed : State := { lone with hearth := { lone.hearth with ring := [aRec] } }

/-- The header of an archive. -/
def archHead : List Byte :=
  let h := be 4 0x4356414C ++ List.replicate 56 0#8
  h ++ be 4 (crc32 h)

/-- The block with an archive header in slot 15. -/
def archived : State := { lone with flash := flashWrite [] (archAddr 15) archHead }

/-- A repair of bank 63. -/
def aRepair : Repair := ⟨63, true, 511, 3⟩

/-! ### Commands that name no unit or no possible input of the chip -/

/-- Each check of `Instr.wf` refuses a command that breaks it. -/
theorem test_wf_units :
    [Instr.mainResetRelease 0 0 0 (true, true) (some 0) [.cell 64 0 0] true [], .mainResetRelease 0 0 0 (true, true) (some 0) [.spareRow 0 4] true [],
      .mainResetRelease 0 0 0 (true, true) (some 0) [.spareCol 0 2] true [], .mainResetRelease 0 0 0 (true, true) (some 0) [.retest 64] true [],
      .watchdog 0 4 0].all (fun i => !i.wf) = true := by decide

theorem test_wf_tamper : Instr.wf (.tamperInactive 0 8) = false := by decide
theorem test_wf_lane : Instr.wf (.losCleared 0 (9, false)) = false := by decide
theorem test_wf_entry : Instr.wf (.entryFire 0 528) = false := by decide
theorem test_wf_port : Instr.wf (.xactStart 0 48) = false := by decide
theorem test_wf_speed : Instr.wf (.linkChange 0 1 true 3 false false) = false := by decide
theorem test_wf_samples : Instr.wf (.pwSample 0 1023 (List.replicate 12 1024) (List.replicate 12 0)) = false := by decide
theorem test_wf_flit : Instr.wf (.flitRx 0 1 (List.replicate 31 0#8) false) = false := by decide +kernel
theorem test_wf_scrub : Instr.wf (.scrubRead 0 (.single 72 true)) = false := by decide
theorem test_wf_region : Instr.wf (.hearthScrub 0 7 0 .ok) = false := by decide
theorem test_wf_tag : Instr.wf (.nop 0 0x8000 []) = false := by decide
theorem test_wf_fine : Instr.wf (.nop 0 0x7FFF []) = true ∧ Instr.wf (.pwSample 0 1023 (List.replicate 12 1023)
    (List.replicate 12 0)) = true := by decide

/-! ### The worked examples of the spec -/

/-- The check value of R83. -/
theorem test_crc16 : crc16 (be 9 0x313233343536373839) = 0x29B1 := by decide +kernel

/-- The check value of R84. -/
theorem test_crc32 : crc32 (be 9 0x313233343536373839) = 0xCBF43926 := by decide +kernel

/-- The header of Table CMD-9. -/
theorem test_reg_read_header : (mkPacket 0 1 0 0x0010 0x0041 0 0 (be 6 2)).take 14
    = [0xC7#8, 0x16#8, 0x11#8, 0#8, 0#8, 0x10#8, 0#8, 0x41#8, 0#8, 6#8, 0#8, 0#8, 0#8, 0#8] := by decide +kernel

/-- CMD_CHIP_ID of Example SC-1. -/
theorem test_chip_id (h : Config.gradeX = true) : chipIdWord = 0x72163100 := by
  unfold chipIdWord; rw [h]; decide

/-- The reserve of Example HRT-1: CAP_MF, ETA, RATIO and VFLOOR_CODE. -/
def reserve : State := (lone.setWord 0x010050 (2200 * 65536 + 205 * 256 + 160)).setFld 0x010054 9 0 384

/-- The energies of Examples HRT-1, AL-1 and UP-2, in mJ. -/
theorem test_reserve_energy :
    [416, 415, 400, 448, 420].map reserve.energyOf = [5505, 5326, 2697, 11451, 6224] := by decide +kernel

/-- The directory word of Example CY-1. -/
theorem test_directory : dirLen 0x0000000700034103 = 1 ∧ dirActive 0x0000000700034103 = 0
    ∧ dirPrev 0x0000000700034103 = true ∧ dirCeil 0x0000000700034103 = 3 := by decide +kernel

/-- The time message of Example NT-1, and its latch. -/
theorem test_time_error : (lone.setFld 0x02001C 15 0 12).timeError ⟨0x1234567, 1734567890, 123456000, 400000, 32774, 0, 0⟩
    ⟨0x1234567, 1734567890, 123515020, 0, 0x26AC0⟩ = some (-248) := by decide +kernel

/-- The slew of Example NT-1. -/
theorem test_slew : (lone.slew (-248)).main.nt.slewTicks = 126976 := by decide +kernel

/-- NT_INCR of Example NT-1. -/
theorem test_incr : (lone.rateUpdate (-248) 1024000000).word 0x020014 = 0x031FFFF3 := by decide +kernel

/-- The compare units of Example NT-2: ahead at arming, not due at the wrap, due at the target; and unit 4 late. -/
theorem test_compare : let c : Cmp := { armed := true, ns := 0x001C4B40 }
    c.past { ns := 0, sec := 0, frac := 0 } = false
    ∧ [0xFFD00000, 0, 0x001C4B3F, 0x001C4B40].map (fun r => c.due { sec := r / 1000000000, ns := r % 1000000000 })
      = [false, false, false, true]
    ∧ ({ armed := true, ns := 0x90000000 } : Cmp).past { sec := 4, ns := 291821568 } = true := by decide +kernel

/-- The advance and the issue angle of Example MA-1. -/
theorem test_issue_angle : let s := (lone.setFld 0x03004C 31 16 12000).modMa (fun m => { m with calcFreq := 54953591 })
    s.relayAdvance 3 = 39306 ∧ issueOf (65536 + 38227) (s.relayAdvance 3) = 64457 := by decide +kernel

/-- The capacity of Example UP-1. -/
theorem test_capacity : capacity 2400 16 true = 2220 := by decide +kernel

/-- The burst energies of Example UP-2. -/
theorem test_burst_energy : let s := ((lone.setFld 0x070008 19 8 1200).setFld 0x070008 7 0 25).setFld 0x070008 31 20 150
    [2400, 200].map s.burstUj = [287, 254] ∧ s.marginMj = 1500 := by decide +kernel

/-- The lean block of Example PC-1. -/
theorem test_lean_block :
    leanEncode [400, 404, 410, 415, 402, 407, 413, 420, 405, 410, 418, 426, 409, 415, 423, 433]
      = ⟨1, 0x59000443004640888510CA70,
          [400, 405, 410, 415, 400, 405, 415, 420, 405, 410, 420, 425, 410, 415, 425, 435]⟩ := by decide +kernel

/-- The budgets of Example PC-2. -/
theorem test_channel_bytes : PcGeom.chanBytes ⟨1280, 960, false, true, 1, 3⟩ = 2597120
    ∧ PcGeom.chanBytes ⟨640, 480, false, false, 0, 2⟩ = 937600 := by decide +kernel

/-- REV of Example WA-2: a forward total of 1,024 pictures' quarter samples on a disc of 6,400. -/
theorem test_disc_total : (lone.setFld 0x0D0804 31 16 6400).discTotal 0 1024 = 40 := by decide +kernel

/-- The steps and the energy of the flush of Example AL-1. -/
theorem test_flush_energy : lone.stepUj .trailer = 10200 ∧ ((flushSteps true).map lone.stepUj).sum = 2662200 := by
  decide +kernel

/-- The log entry of Example MM-1. -/
theorem test_log_entry : (logEntry 37 0 1 2 210 0).take 4 = [0x25#8, 0x18#8, 0#8, 0xD2#8] := by decide +kernel

/-! ### Steps -/

/-- The clock runs on by the command's ticks, and the command leaves the queue. -/
theorem test_step_queue : (match step { lone with pending := [.routeTimer 7, .routeTimer 8] } with
    | .next s => some (s.now, s.pending)
    | _ => none) = some (2 ^ 50 + 7, [.routeTimer 8]) := by decide +kernel

/-- The table gives its rows no bits: no word spells a command. -/
theorem test_no_words : decodeTableWord 16 1 = none := by decide

/-! ### The hypotheses of the obligations are met -/

theorem met_MainDomainResets :
    (∃ (dt : Nat) (low : Nat) (s : State) (x : State) (t : State), x = s.at dt ∧ 10 ≤ low ∧ x.hearth.pen = true ∧ x.main.out = true ∧ t = x.resetMain 0x04)
    ∧ (∃ (dt : Nat) (low : Nat) (s : State) (x : State), x = s.at dt ∧ 10 ≤ low ∧ x.hearth.pen = true ∧ x.main.out = false)
    ∧ (∃ (dt : Nat) (low : Nat) (s : State) (x : State), x = s.at dt ∧ (low < 10 ∨ x.hearth.pen = false))
    ∧ (∃ (dt : Nat) (core : Nat) (code : BitVec 32) (s : State) (x : State) (y : State), x = s.at dt ∧ x.main.out = true ∧ x.main.boot.slot.isSome = true ∧ x.hearth.ps = .blaze ∧ core < 4 ∧ 2 * secT ≤ x.main.boot.dog ∧ y = x.ashHearth 0x01 0x06 ([byte core] ++ be 4 code.toNat))
    ∧ (∃ (dt : Nat) (rails : List Nat × Nat) (s : State) (x : State), x = s.at dt ∧ x.railsFail rails ∧ x.hearth.psuOk = false)
    ∧ (∃ (dt : Nat) (rails : List Nat × Nat) (s : State) (x : State) (y : State), x = s.at dt ∧ x.railsFail rails ∧ x.hearth.psuOk = true ∧ (x.hearth.railResets.filter (fun t => decide (x.now < t + 60 * secT))).length < 2 ∧ y = (x.railsGone.ashHearth 0x01 0x03 [byte (railMap rails.1), 0#8]).resetMain 0x05)
    ∧ (∃ (dt : Nat) (rails : List Nat × Nat) (s : State) (x : State), x = s.at dt ∧ (x.hearth.pen = false ∨ x.hearth.railsUp = false ∨ railMap rails.1 = 0 ∨ rails.2 < 2000)) :=
  ⟨⟨(0), (10), (lone), _, _, rfl, by decide +kernel, by decide +kernel, by decide +kernel, rfl⟩,
   ⟨(0), (10), (dark), _, rfl, by decide +kernel, by decide +kernel, by decide +kernel⟩,
   ⟨(0), (9), (lone), _, rfl, by decide +kernel⟩,
   ⟨(0), (3), (7), (lone.modBoot (fun b => { b with dog := 2 * secT })), _, _, rfl, by decide +kernel, by decide +kernel, by decide +kernel, by decide +kernel, by decide +kernel, rfl⟩,
   ⟨(0), ([], 2000), (lone.modHearth (fun h => { h with psuOk := false })), _, rfl, railsFail_of (by decide +kernel), by decide +kernel⟩,
   ⟨(0), (railsGood.set 5 3631, 2000), (lone.modHearth (fun h => { h with railResets := [2 ^ 50] })), _, _, rfl, railsFail_of (by decide +kernel), by decide +kernel, by decide +kernel, rfl⟩,
   ⟨(0), (railsGood, 2000), (lone), _, rfl, by decide +kernel⟩⟩

theorem met_RailRetries :
    (∃ (dt : Nat) (rails : List Nat × Nat) (s : State) (x : State) (e : _), x = s.at dt ∧ x.railsFail rails ∧ x.hearth.psuOk = true ∧ 2 ≤ (x.hearth.railResets.filter (fun t => decide (x.now < t + 60 * secT))).length ∧ x.hearth.held[12]? = some e)
    ∧ (∃ (dt : Nat) (rails : List Nat × Nat) (s : State) (x : State) (i : _), x = s.at dt ∧ x.railsFail rails ∧ x.hearth.psuOk = true ∧ 2 ≤ (x.hearth.railResets.filter (fun t => decide (x.now < t + 60 * secT))).length ∧ i ≠ 12)
    ∧ (∃ (dt : Nat) (a : Nat) (s : State) (x : State), x = s.at dt ∧ x.hearth.restartAt = some a ∧ a ≤ x.now ∧ x.main.boot.stopped = false)
    ∧ (∃ (dt : Nat) (a : Nat) (s : State) (x : State), x = s.at dt ∧ x.hearth.restartAt = some a ∧ a ≤ x.now ∧ x.main.boot.stopped = true)
    ∧ (∃ (dt : Nat) (rails : List Nat) (s : State) (x : State) (y : State), x = s.at dt ∧ x.hearth.pen = true ∧ x.main.out = false ∧ x.hearth.railsUp = false ∧ railMap rails ≠ 0 ∧ x.hearth.penRise + 50 * msT ≤ x.now ∧ y = x.ashHearth 0x01 0x03 [byte (railMap rails), 1#8])
    ∧ (∃ (dt : Nat) (a : Nat) (s : State) (x : State), x = s.at dt ∧ x.hearth.retryAt = some a ∧ a ≤ x.now ∧ x.hearth.lockout = false ∧ x.hearth.running = true)
    ∧ (∃ (dt : Nat) (s : State) (x : State), x = s.at dt ∧ x.hearth.lockout = true) :=
  ⟨⟨(0), ([], 2000), (lone.modHearth (fun h => { h with railResets := [2 ^ 50, 2 ^ 50 - 1] })), _, _, rfl, railsFail_of (by decide +kernel), by decide +kernel, by decide +kernel, some_get (by decide +kernel)⟩,
   ⟨(0), ([], 2000), (lone.modHearth (fun h => { h with railResets := [2 ^ 50, 2 ^ 50 - 1] })), _, (0 : Nat), rfl, railsFail_of (by decide +kernel), by decide +kernel, by decide +kernel, by decide +kernel⟩,
   ⟨(0), (2 ^ 50), (dark.modHearth (fun h => { h with restartAt := some (2 ^ 50) })), _, rfl, by decide +kernel, by decide +kernel, by decide +kernel⟩,
   ⟨(0), (1), ((lone.modBoot (fun b => { b with stopped := true })).modHearth (fun h => { h with restartAt := some 1 })), _, rfl, by decide +kernel, by decide +kernel, by decide +kernel⟩,
   ⟨(0), ([]), (dark.modHearth (fun h => { h with railsUp := false })), _, _, rfl, by decide +kernel, by decide +kernel, by decide +kernel, by decide +kernel, by decide +kernel, rfl⟩,
   ⟨(0), (1), (dark.modHearth (fun h => { h with pen := false, retryAt := some 1 })), _, rfl, by decide +kernel, by decide +kernel, by decide +kernel, by decide +kernel⟩,
   ⟨(0), (dark.modHearth (fun h => { h with lockout := true })), _, rfl, by decide +kernel⟩⟩

set_option maxRecDepth 100000 in
theorem met_MainDomainStarts :
    (∃ (dt : Nat) (msel : BitVec 2) (member : BitVec 3) (treeEn : Bool) (p : Int) (faults : List BankFault) (rails : List Nat) (s : State) (x : State) (y : State) (z : State), x = s.at dt ∧ x.mayRelease rails = true ∧ -200 ≤ p ∧ p ≤ 200 ∧ y = (x.modHearth (fun h => { h with railsUp := true })).step2 msel.toNat member.toNat treeEn ∧ z = ((y.memStart (!(x.hearth.cause == 0x02 || x.hearth.cause == 0x03)) faults).modBoot (fun b => { b with fullTest := !(x.hearth.cause == 0x02 || x.hearth.cause == 0x03) })).stepEnd 3 ∧ z.genFits = false)
    ∧ (∃ (dt : Nat) (msel : BitVec 2) (member : BitVec 3) (treeEn : Bool) (p : Int) (faults : List BankFault) (rails : List Nat) (s : State) (x : State) (y : State) (z : State), x = s.at dt ∧ x.mayRelease rails = true ∧ -200 ≤ p ∧ p ≤ 200 ∧ y = (x.modHearth (fun h => { h with railsUp := true })).step2 msel.toNat member.toNat treeEn ∧ z = ((y.memStart (!(x.hearth.cause == 0x02 || x.hearth.cause == 0x03)) faults).modBoot (fun b => { b with fullTest := !(x.hearth.cause == 0x02 || x.hearth.cause == 0x03) })).stepEnd 3 ∧ z.genFits = true ∧ z.step4 = none)
    ∧ (∃ (dt : Nat) (msel : BitVec 2) (member : BitVec 3) (treeEn : Bool) (p : Int) (faults : List BankFault) (rails : List Nat) (s : State) (x : State) (y : State) (z : State) (w : _), x = s.at dt ∧ x.mayRelease rails = true ∧ -200 ≤ p ∧ p ≤ 200 ∧ y = (x.modHearth (fun h => { h with railsUp := true })).step2 msel.toNat member.toNat treeEn ∧ z = ((y.memStart (!(x.hearth.cause == 0x02 || x.hearth.cause == 0x03)) faults).modBoot (fun b => { b with fullTest := !(x.hearth.cause == 0x02 || x.hearth.cause == 0x03) })).stepEnd 3 ∧ z.genFits = true ∧ z.step4 = some w ∧ (w.step5.fuseStart).hearth.minBlaze = none)
    ∧ (∃ (x : State), x.hearth.start.msel = none)
    ∧ (∃ (dt : Nat) (ref : Option Int) (rails : List Nat) (s : State) (x : State), x = s.at dt ∧ x.mayRelease rails = true ∧ (∀ p, ref = some p → p < -200 ∨ 200 < p))
    ∧ (∃ (dt : Nat) (rails : List Nat) (s : State) (x : State), x = s.at dt ∧ x.mayRelease rails = true)
    ∧ (∃ (dt : Nat) (rails : List Nat) (s : State) (x : State), x = s.at dt ∧ x.mayRelease rails = false)
    ∧ (∃ (dt : Nat) (a : Nat) (s : State) (x : State), x = s.at dt ∧ x.blocksRun ∧ x.main.boot.ends[4]? = some (some a) ∧ a + 5 * secT ≤ x.now ∧ x.hearth.minBlaze = none ∧ x.main.boot.local9 = false) :=
  ⟨⟨(0), (0), (0), (true), (-200), ([]), railsGood, smallMem, _, _, _, rfl, by decide +kernel, by decide +kernel, by decide +kernel, rfl, rfl, by decide +kernel⟩,
   ⟨(0), (0), (0), (true), (200), ([]), railsGood, (dark), _, _, _, rfl, by decide +kernel, by decide +kernel, by decide +kernel, rfl, rfl, by decide +kernel, by decide +kernel⟩,
   ⟨(0), (0), (0), (true), (200), ([]), railsGood, (bootable), _, _, _, _, rfl, by decide +kernel, by decide +kernel, by decide +kernel, rfl, rfl, by decide +kernel, some_get (by decide +kernel), by decide +kernel⟩,
   ⟨(dark), by decide +kernel⟩,
   ⟨(0), (some 201), railsGood, dark, _, rfl, by decide +kernel, (by intro p h; cases h; decide)⟩,
   ⟨(0), railsGood, (dark), _, rfl, by decide +kernel⟩,
   ⟨(0), railsGood, (lone), _, rfl, by decide +kernel⟩,
   ⟨(0), (2), (lone.modBoot (fun b => { b with ends := List.replicate 9 (some 2), local9 := false })), _, rfl, ⟨⟨by decide +kernel, by decide +kernel⟩, by decide +kernel⟩, by decide +kernel, by decide +kernel, by decide +kernel, by decide +kernel⟩⟩

theorem met_PacketsAccepted :
    (∃ (dt : Nat) (b : List Byte) (s : State) (x : State) (y : State), x = s.at dt ∧ x.runs ∧ x.main.cmd.bound = .spi ∧ y = x.wake 0x06 ∧ y.takesPacket b)
    ∧ (∃ (dt : Nat) (d : DownSdu) (s : State) (x : State) (y : State), x = s.at dt ∧ x.runs ∧ x.main.cmd.bound = .tree ∧ x.takeSdu (fun d => d.port == 1) = some (d, y) ∧ y.main.cmd.bound = .tree ∧ y.main.out = true ∧ d.distrust = false ∧ y.takesPacket d.bytes)
    ∧ (∃ (dt : Nat) (b : List Byte) (s : State) (x : State) (y : State), x = s.at dt ∧ x.runs ∧ x.main.cmd.bound = .uart ∧ x.main.cmd.uart = [] ∧ y = x.wake 0x06 ∧ y.takesPacket b)
    ∧ (∃ (dt : Nat) (b : List Byte) (s : State) (x : State) (y : State), x = s.at dt ∧ x.runs ∧ x.main.cmd.bound = .spi ∧ y = x.wake 0x06 ∧ y.passes b ∧ (y.opOfTag (hdrOf b).tag).isSome = true)
    ∧ (∃ (dt : Nat) (d : DownSdu) (s : State) (x : State) (y : State), x = s.at dt ∧ x.runs ∧ x.main.cmd.bound = .tree ∧ x.takeSdu (fun d => d.port == 1) = some (d, y) ∧ y.main.cmd.bound = .tree ∧ y.main.out = true ∧ d.distrust = false ∧ y.passes d.bytes ∧ (y.opOfTag (hdrOf d.bytes).tag).isSome = true)
    ∧ (∃ (dt : Nat) (b : List Byte) (s : State) (x : State) (y : State), x = s.at dt ∧ x.runs ∧ x.main.cmd.bound = .uart ∧ x.main.cmd.uart = [] ∧ y = x.wake 0x06 ∧ y.passes b ∧ (y.opOfTag (hdrOf b).tag).isSome = true) :=
  ⟨⟨(0), (packet 0x0001 5 []), (lone), _, _, rfl, ⟨by decide +kernel, by decide +kernel⟩, by decide +kernel, rfl, ⟨passes_of (by decide +kernel), by decide +kernel⟩⟩,
   ⟨(0), ({ port := 1, dest := 0, member := 0, bytes := packet 0x0001 5 [1#8] }), ((lone.modCmd (fun c => { c with bound := .tree })).modTd (fun t => { t with sdus := [{ port := 1, dest := 0, member := 0, bytes := packet 0x0001 5 [1#8] }] })), _, _, rfl, ⟨by decide +kernel, by decide +kernel⟩, by decide +kernel, some_pair (by decide +kernel) (by decide +kernel), by decide +kernel, by decide +kernel, by decide +kernel, ⟨passes_of (by decide +kernel), by decide +kernel⟩⟩,
   ⟨(0), (packet 0x0001 5 []), (lone.modCmd (fun c => { c with bound := .uart })), _, _, rfl, ⟨by decide +kernel, by decide +kernel⟩, by decide +kernel, by decide +kernel, rfl, ⟨passes_of (by decide +kernel), by decide +kernel⟩⟩,
   ⟨(0), (packet 0x0001 5 []), (lone.modCmd (fun c => { c with ops := [{ waitingOp 0 1 with tag := 5 }], nextOp := 1 })), _, _, rfl, ⟨by decide +kernel, by decide +kernel⟩, by decide +kernel, rfl, passes_of (by decide +kernel), by decide +kernel⟩,
   ⟨(0), ({ port := 1, dest := 0, member := 0, bytes := packet 0x0001 5 [1#8] }), ((lone.modCmd (fun c => { c with bound := .tree, ops := [{ waitingOp 0 1 with tag := 5 }], nextOp := 1 })).modTd (fun t => { t with sdus := [{ port := 1, dest := 0, member := 0, bytes := packet 0x0001 5 [1#8] }] })), _, _, rfl, ⟨by decide +kernel, by decide +kernel⟩, by decide +kernel, some_pair (by decide +kernel) (by decide +kernel), by decide +kernel, by decide +kernel, by decide +kernel, passes_of (by decide +kernel), by decide +kernel⟩,
   ⟨(0), (packet 0x0001 5 []), (lone.modCmd (fun c => { c with bound := .uart, ops := [{ waitingOp 0 1 with tag := 5 }], nextOp := 1 })), _, _, rfl, ⟨by decide +kernel, by decide +kernel⟩, by decide +kernel, by decide +kernel, rfl, passes_of (by decide +kernel), by decide +kernel⟩⟩

theorem met_PacketChecks :
    (∃ (dt : Nat) (b : List Byte) (s : State) (x : State) (y : State), x = s.at dt ∧ x.runs ∧ x.main.cmd.bound = .spi ∧ y = x.wake 0x06 ∧ 16 ≤ b.length ∧ syncOk b = true ∧ b.length = (hdrOf b).extent ∧ y.intake + (b.length + 15) / 16 ≤ intakeLimit ∧ hcrcOk b = false)
    ∧ (∃ (dt : Nat) (b : List Byte) (s : State) (x : State) (y : State), x = s.at dt ∧ x.runs ∧ x.main.cmd.bound = .spi ∧ y = x.wake 0x06 ∧ 16 ≤ b.length ∧ syncOk b = true ∧ b.length = (hdrOf b).extent ∧ y.intake + (b.length + 15) / 16 ≤ intakeLimit ∧ hcrcOk b = true ∧ (hdrOf b).kind ≠ 0)
    ∧ (∃ (dt : Nat) (b : List Byte) (s : State) (x : State) (y : State), x = s.at dt ∧ x.runs ∧ x.main.cmd.bound = .spi ∧ y = x.wake 0x06 ∧ 16 ≤ b.length ∧ syncOk b = true ∧ b.length = (hdrOf b).extent ∧ y.intake + (b.length + 15) / 16 ≤ intakeLimit ∧ hcrcOk b = true ∧ (hdrOf b).kind = 0 ∧ y.leads = false)
    ∧ (∃ (dt : Nat) (b : List Byte) (s : State) (x : State) (y : State), x = s.at dt ∧ x.runs ∧ x.main.cmd.bound = .spi ∧ y = x.wake 0x06 ∧ 16 ≤ b.length ∧ syncOk b = true ∧ b.length = (hdrOf b).extent ∧ y.intake + (b.length + 15) / 16 ≤ intakeLimit ∧ hcrcOk b = true ∧ (hdrOf b).kind = 0 ∧ y.leads = true ∧ (hdrOf b).formatOk = false)
    ∧ (∃ (dt : Nat) (b : List Byte) (s : State) (x : State) (y : State), x = s.at dt ∧ x.runs ∧ x.main.cmd.bound = .spi ∧ y = x.wake 0x06 ∧ 16 ≤ b.length ∧ syncOk b = true ∧ b.length = (hdrOf b).extent ∧ y.intake + (b.length + 15) / 16 ≤ intakeLimit ∧ hcrcOk b = true ∧ (hdrOf b).kind = 0 ∧ y.leads = true ∧ (hdrOf b).formatOk = true ∧ 4096 < (hdrOf b).length)
    ∧ (∃ (dt : Nat) (b : List Byte) (s : State) (x : State) (y : State), x = s.at dt ∧ x.runs ∧ x.main.cmd.bound = .spi ∧ y = x.wake 0x06 ∧ 16 ≤ b.length ∧ syncOk b = true ∧ b.length = (hdrOf b).extent ∧ y.intake + (b.length + 15) / 16 ≤ intakeLimit ∧ hcrcOk b = true ∧ (hdrOf b).kind = 0 ∧ y.leads = true ∧ (hdrOf b).formatOk = true ∧ (hdrOf b).length ≤ 4096 ∧ (hdrOf b).length ≠ 0 ∧ field b (16 + (hdrOf b).length) 4 ≠ crc32 (bytesAt b 16 (hdrOf b).length))
    ∧ (∃ (dt : Nat) (b : List Byte) (s : State) (x : State) (y : State), x = s.at dt ∧ x.runs ∧ x.main.cmd.bound = .spi ∧ y = x.wake 0x06 ∧ 16 ≤ b.length ∧ syncOk b = true ∧ b.length = (hdrOf b).extent ∧ y.intake + (b.length + 15) / 16 ≤ intakeLimit ∧ hcrcOk b = true ∧ (hdrOf b).kind = 0 ∧ y.leads = true ∧ (hdrOf b).formatOk = true ∧ (hdrOf b).length ≤ 4096 ∧ ((hdrOf b).length ≠ 0 → field b (16 + (hdrOf b).length) 4 = crc32 (bytesAt b 16 (hdrOf b).length)) ∧ (y.opOfTag (hdrOf b).tag).isSome = true) :=
  ⟨⟨(0), ((packet 0x0001 5 []).set 15 0#8), (lone), _, _, rfl, ⟨by decide +kernel, by decide +kernel⟩, by decide +kernel, rfl, by decide +kernel, by decide +kernel, by decide +kernel, by decide +kernel, by decide +kernel⟩,
   ⟨(0), (mkPacket 1 0 0 1 5 0 0 []), (lone), _, _, rfl, ⟨by decide +kernel, by decide +kernel⟩, by decide +kernel, rfl, by decide +kernel, by decide +kernel, by decide +kernel, by decide +kernel, by decide +kernel, by decide +kernel⟩,
   ⟨(0), (packet 0x0001 5 []), (pair.modSk (fun k => { k with isLead := false })), _, _, rfl, ⟨by decide +kernel, by decide +kernel⟩, by decide +kernel, rfl, by decide +kernel, by decide +kernel, by decide +kernel, by decide +kernel, by decide +kernel, by decide +kernel, by decide +kernel⟩,
   ⟨(0), (mkPacket 0 8 0 1 5 0 0 []), (lone), _, _, rfl, ⟨by decide +kernel, by decide +kernel⟩, by decide +kernel, rfl, by decide +kernel, by decide +kernel, by decide +kernel, by decide +kernel, by decide +kernel, by decide +kernel, by decide +kernel, by decide +kernel⟩,
   ⟨(0), ((packet 0x0001 5 (List.replicate 4097 0#8)).take 16), (lone), _, _, rfl, ⟨by decide +kernel, by decide +kernel⟩, by decide +kernel, rfl, by decide +kernel, by decide +kernel, by decide +kernel, by decide +kernel, by decide +kernel, by decide +kernel, by decide +kernel, by decide +kernel, by decide +kernel⟩,
   ⟨(0), ((packet 0x0001 5 [1#8]).set 16 2#8), (lone), _, _, rfl, ⟨by decide +kernel, by decide +kernel⟩, by decide +kernel, rfl, by decide +kernel, by decide +kernel, by decide +kernel, by decide +kernel, by decide +kernel, by decide +kernel, by decide +kernel, by decide +kernel, by decide +kernel, by decide +kernel, by decide +kernel⟩,
   ⟨(0), (packet 0x0001 0 [1#8]), (lone.modCmd (fun c => { c with ops := [waitingOp 0 1], nextOp := 1 })), _, _, rfl, ⟨by decide +kernel, by decide +kernel⟩, by decide +kernel, rfl, by decide +kernel, by decide +kernel, by decide +kernel, by decide +kernel, by decide +kernel, by decide +kernel, by decide +kernel, by decide +kernel, by decide +kernel, by decide +kernel, by decide +kernel⟩⟩

theorem met_PacketsLeave :
    (∃ (dt : Nat) (clocked : Nat) (p : OutPkt) (t : List OutPkt) (s : State) (x : State), x = s.at dt ∧ x.runs ∧ x.main.cmd.bound = .spi ∧ x.main.cmd.out = p :: t ∧ p.bytes.length ≤ clocked)
    ∧ (∃ (dt : Nat) (clocked : Nat) (p : OutPkt) (t : List OutPkt) (s : State) (x : State), x = s.at dt ∧ x.runs ∧ x.main.cmd.bound = .spi ∧ x.main.cmd.out = p :: t ∧ clocked < p.bytes.length)
    ∧ (∃ (dt : Nat) (s : State) (x : State), x = s.at dt ∧ x.runs ∧ x.main.cmd.bound = .spi ∧ x.main.cmd.out = [])
    ∧ (∃ (dt : Nat) (s : State) (x : State), x = s.at dt ∧ x.runs ∧ x.main.cmd.bound = .spi)
    ∧ (∃ (dt : Nat) (p : OutPkt) (t : List OutPkt) (s : State) (x : State), x = s.at dt ∧ x.runs ∧ x.main.cmd.bound = .uart ∧ x.main.cmd.out = p :: t)
    ∧ (∃ (dt : Nat) (k : OutKind) (t : List OutKind) (s : State) (x : State), x = s.at dt ∧ x.runs ∧ x.main.cmd.bound = .tree ∧ x.main.up.leaving = k :: t)
    ∧ (∃ (dt : Nat) (s : State) (x : State), x = s.at dt ∧ x.runs ∧ x.main.cmd.bound = .uart ∧ 2 ≤ x.main.cmd.uart.length ∧ syncOk x.main.cmd.uart = true ∧ x.main.cmd.uartAt + msT < x.now)
    ∧ (∃ (dt : Nat) (s : State) (x : State), x = s.at dt ∧ x.runs ∧ x.now ≤ x.main.cmd.uartAt + msT)
    ∧ (∃ (dt : Nat) (t : Nat) (num : BitVec 16) (n : Notice) (s : State) (x : State), x = s.at dt ∧ x.runs ∧ x.main.cmd.notices.find? (fun n => n.num == num.toNat && n.alarm && n.placed && !n.copyOut) = some n ∧ n.leftAt = some t ∧ t + 327680000 ≤ x.now ∧ n.repeats < 64)
    ∧ (∃ (dt : Nat) (t : Nat) (num : BitVec 16) (n : Notice) (s : State) (x : State), x = s.at dt ∧ x.runs ∧ x.main.cmd.notices.find? (fun n => n.num == num.toNat && n.alarm && n.placed && !n.copyOut) = some n ∧ n.leftAt = some t ∧ t + 327680000 ≤ x.now ∧ 64 ≤ n.repeats) :=
  ⟨⟨(0), (16), (⟨.refusal, packet 1 2 []⟩), ([]), (lone.modCmd (fun c => { c with out := [⟨.refusal, packet 1 2 []⟩] })), _, rfl, ⟨by decide +kernel, by decide +kernel⟩, by decide +kernel, by decide +kernel, by decide +kernel⟩,
   ⟨(0), (15), (⟨.refusal, packet 1 2 []⟩), ([]), (lone.modCmd (fun c => { c with out := [⟨.refusal, packet 1 2 []⟩] })), _, rfl, ⟨by decide +kernel, by decide +kernel⟩, by decide +kernel, by decide +kernel, by decide +kernel⟩,
   ⟨(0), (lone), _, rfl, ⟨by decide +kernel, by decide +kernel⟩, by decide +kernel, by decide +kernel⟩,
   ⟨(0), (lone), _, rfl, ⟨by decide +kernel, by decide +kernel⟩, by decide +kernel⟩,
   ⟨(0), (⟨.refusal, packet 1 2 []⟩), ([]), (lone.modCmd (fun c => { c with bound := .uart, out := [⟨.refusal, packet 1 2 []⟩] })), _, rfl, ⟨by decide +kernel, by decide +kernel⟩, by decide +kernel, by decide +kernel⟩,
   ⟨(0), (.refusal), ([]), ((lone.modCmd (fun c => { c with bound := .tree })).modUp (fun u => { u with leaving := [.refusal] })), _, rfl, ⟨by decide +kernel, by decide +kernel⟩, by decide +kernel, by decide +kernel⟩,
   ⟨(0), (lone.modCmd (fun c => { c with bound := .uart, uart := (packet 1 2 []).take 2 })), _, rfl, ⟨by decide +kernel, by decide +kernel⟩, by decide +kernel, by decide +kernel, by decide +kernel, by decide +kernel⟩,
   ⟨(0), (lone.modCmd (fun c => { c with uartAt := 2 ^ 50 })), _, rfl, ⟨by decide +kernel, by decide +kernel⟩, by decide +kernel⟩,
   ⟨(0), (0), (0x8000), ({ aNotice with repeats := 63 }), (lone.modCmd (fun c => { c with notices := [{ aNotice with repeats := 63 }] })), _, rfl, ⟨by decide +kernel, by decide +kernel⟩, by decide +kernel, by decide +kernel, by decide +kernel, by decide +kernel⟩,
   ⟨(0), (0), (0x8000), ({ aNotice with repeats := 64 }), (lone.modCmd (fun c => { c with notices := [{ aNotice with repeats := 64 }] })), _, rfl, ⟨by decide +kernel, by decide +kernel⟩, by decide +kernel, by decide +kernel, by decide +kernel, by decide +kernel⟩⟩

theorem met_OperationsRun :
    (∃ (dt : Nat) (tag : BitVec 16) (e : OpEntry) (s : State) (x : State) (y : State), x = s.at dt ∧ x.runs ∧ y = x.wake 0x06 ∧ y.opOfTag tag.toNat = some e ∧ e.st = .queued ∧ y.mayStart e = true ∧ y.leadChecks e.opcode = 0 ∧ e.all = false ∧ e.opcode ≠ 0x21 ∧ (onLead e.opcode = true ∨ e.member = y.self) ∧ (y.quarantined = true → quarantineOk e.opcode = true))
    ∧ (∃ (dt : Nat) (tag : BitVec 16) (e : OpEntry) (s : State) (x : State) (y : State) (z : State), x = s.at dt ∧ x.runs ∧ y = x.wake 0x06 ∧ y.opOfTag tag.toNat = some e ∧ e.st = .queued ∧ y.mayStart e = true ∧ y.leadChecks e.opcode = 0 ∧ e.all = false ∧ onLead e.opcode = false ∧ e.opcode ≠ 0x21 ∧ e.member ≠ y.self ∧ y.named e.member = true ∧ (quarantineOk e.opcode = true ∨ (y.peer e.member).quar = 0) ∧ (y.modOp e.id (fun a => { a with st := .running, space := 0, await := [e.member] })).forward e e.member = some z)
    ∧ (∃ (dt : Nat) (tag : BitVec 16) (e : OpEntry) (s : State) (x : State) (y : State), x = s.at dt ∧ x.runs ∧ y = x.wake 0x06 ∧ y.opOfTag tag.toNat = some e ∧ e.st = .queued ∧ y.mayStart e = true ∧ y.leadChecks e.opcode = 0 ∧ e.all = false ∧ onLead e.opcode = false ∧ e.member ≠ y.self ∧ y.named e.member = false)
    ∧ (∃ (dt : Nat) (tag : BitVec 16) (e : OpEntry) (s : State) (x : State), x = s.at dt ∧ x.runs ∧ x.opOfTag tag.toNat = some e ∧ e.st ≠ .replying ∧ e.shadow = false ∧ e.opcode ≠ 0x0800 ∧ e.all = false ∧ e.lastReply + x.fld 0x00000C 15 0 * secT ≤ x.now)
    ∧ (∃ (dt : Nat) (tag : BitVec 16) (e : OpEntry) (s : State) (x : State), x = s.at dt ∧ x.runs ∧ x.opOfTag tag.toNat = some e ∧ (e.st = .replying ∨ x.now < e.lastReply + x.fld 0x00000C 15 0 * secT))
    ∧ (∃ (dt : Nat) (value : Word) (s : State) (x : State), x = s.at dt ∧ x.blocksRun ∧ x.writeStatus 0x00000C value.toNat = 0) :=
  ⟨⟨(0), (0), (waitingOp 0 0x0001), (lone.modCmd (fun c => { c with ops := [waitingOp 0 0x0001], nextOp := 1 })), _, _, rfl, ⟨by decide +kernel, by decide +kernel⟩, rfl, by decide +kernel, by decide +kernel, by decide +kernel, by decide +kernel, by decide +kernel, by decide +kernel, by decide +kernel, by decide +kernel⟩,
   ⟨(0), (0), (waitingOp 1 0x0001), (pair.modCmd (fun c => { c with ops := [waitingOp 1 0x0001], nextOp := 1 })), _, _, _, rfl, ⟨by decide +kernel, by decide +kernel⟩, rfl, by decide +kernel, by decide +kernel, by decide +kernel, by decide +kernel, by decide +kernel, by decide +kernel, by decide +kernel, by decide +kernel, by decide +kernel, by decide +kernel, some_get (by decide +kernel)⟩,
   ⟨(0), (0), (waitingOp 5 0x0001), (pair.modCmd (fun c => { c with ops := [waitingOp 5 0x0001], nextOp := 1 })), _, _, rfl, ⟨by decide +kernel, by decide +kernel⟩, rfl, by decide +kernel, by decide +kernel, by decide +kernel, by decide +kernel, by decide +kernel, by decide +kernel, by decide +kernel, by decide +kernel⟩,
   ⟨(0), (0), ({ waitingOp 0 0x0001 with st := .running }), (lone.modCmd (fun c => { c with ops := [{ waitingOp 0 0x0001 with st := .running }], nextOp := 1 })), _, rfl, ⟨by decide +kernel, by decide +kernel⟩, by decide +kernel, by decide +kernel, by decide +kernel, by decide +kernel, by decide +kernel, by decide +kernel⟩,
   ⟨(0), (0), ({ waitingOp 0 0x0001 with st := .replying }), (lone.modCmd (fun c => { c with ops := [{ waitingOp 0 0x0001 with st := .replying }], nextOp := 1 })), _, rfl, ⟨by decide +kernel, by decide +kernel⟩, by decide +kernel, by decide +kernel⟩,
   ⟨(0), (5), (lone), _, rfl, ⟨⟨by decide +kernel, by decide +kernel⟩, by decide +kernel⟩, by decide +kernel⟩⟩

theorem met_CmdOpcodesAnswer :
    (∃ (dt : Nat) (tag : BitVec 16) (s : State) (x : State), s.willRun dt 0x0001 tag.toNat [] ∧ x = s.asked dt 0x0001 tag.toNat [])
    ∧ (∃ (dt : Nat) (tag : BitVec 16) (s : State) (x : State), s.willRun dt 0x0002 tag.toNat [] ∧ x = s.asked dt 0x0002 tag.toNat [])
    ∧ (∃ (dt : Nat) (tag : BitVec 16) (p : List Byte) (e : OpEntry) (s : State) (x : State), s.willRun dt 0x0020 tag.toNat p ∧ x = s.asked dt 0x0020 tag.toNat p ∧ p.length = 2 ∧ x.entryOfTag (field p 0 2) = some e)
    ∧ (∃ (dt : Nat) (tag : BitVec 16) (p : List Byte) (s : State) (x : State), s.willRun dt 0x0020 tag.toNat p ∧ x = s.asked dt 0x0020 tag.toNat p ∧ p.length = 2 ∧ x.entryOfTag (field p 0 2) = none)
    ∧ (∃ (dt : Nat) (tag : BitVec 16) (s : State) (x : State), s.willRun dt 0x0046 tag.toNat [] ∧ x = s.asked dt 0x0046 tag.toNat []) :=
  ⟨⟨(0), (0), (lone), _, executes_of (by decide +kernel), rfl⟩,
   ⟨(0), (0), (lone), _, executes_of (by decide +kernel), rfl⟩,
   ⟨(0), (0), ([0#8, 5#8]), ({ waitingOp 0 1 with tag := 5, st := .running }), (lone.modCmd (fun c => { c with ops := [{ waitingOp 0 1 with tag := 5, st := .running }], nextOp := 1 })), _, executes_of (by decide +kernel), rfl, by decide +kernel, by decide +kernel⟩,
   ⟨(0), (0), ([0#8, 6#8]), (lone.modCmd (fun c => { c with ops := [{ waitingOp 0 1 with tag := 5, st := .running }], nextOp := 1 })), _, executes_of (by decide +kernel), rfl, by decide +kernel, by decide +kernel⟩,
   ⟨(0), (0), (lone), _, executes_of (by decide +kernel), rfl⟩⟩

theorem met_RegisterOpcodes :
    (∃ (dt : Nat) (tag : BitVec 16) (p : List Byte) (s : State) (x : State), s.willRun dt 0x0010 tag.toNat p ∧ x = s.asked dt 0x0010 tag.toNat p ∧ p.length = 6 ∧ field p 0 4 % 4 = 0 ∧ 1 ≤ field p 4 2 ∧ field p 4 2 ≤ 1024 ∧ field p 0 4 + 4 * (field p 4 2 - 1) ≤ 0xFFFFFC)
    ∧ (∃ (dt : Nat) (tag : BitVec 16) (p : List Byte) (i : Nat) (st : Nat) (s : State) (x : State) (y : State), s.willRun dt 0x0011 tag.toNat p ∧ x = s.asked dt 0x0011 tag.toNat p ∧ 1 ≤ field p 4 2 ∧ field p 4 2 ≤ 1022 ∧ p.length = 6 + 4 * field p 4 2 ∧ field p 0 4 % 4 = 0 ∧ field p 0 4 + 4 * (field p 4 2 - 1) ≤ 0xFFFFFC ∧ (x.quarantined = true → guarded (field p 0 4) (field p 4 2) = false) ∧ x.writeRegs (field p 0 4) 0 (wordsOf (field p 4 2) (p.drop 6)) = (y, i, st))
    ∧ (∃ (dt : Nat) (tag : BitVec 16) (p : List Byte) (st : Nat) (prev : Nat) (w1c : Nat) (s : State) (x : State) (y : State), s.willRun dt 0x0012 tag.toNat p ∧ x = s.asked dt 0x0012 tag.toNat p ∧ p.length = 12 ∧ field p 0 4 % 4 = 0 ∧ field p 0 4 ≤ 0xFFFFFC ∧ (x.quarantined = true → guarded (field p 0 4) 1 = false) ∧ prev = x.regValue (field p 0 4) ∧ w1c = ((regFields (field p 0 4)).filter (fun f => f.acc == .w1c)).foldl (fun m f => Nat.lor m f.mask) 0 ∧ x.writeReg (field p 0 4) (Nat.lor (Nat.land (Nat.land prev (Nat.xor w1c 0xFFFFFFFF)) (Nat.xor (field p 4 4) 0xFFFFFFFF)) (Nat.land (field p 8 4) (field p 4 4))) = (y, st)) :=
  ⟨⟨(0), (0), (be 4 0xFFFFFC ++ be 2 1), (lone), _, executes_of (by decide +kernel), rfl, by decide +kernel, by decide +kernel, by decide +kernel, by decide +kernel, by decide +kernel⟩,
   ⟨(0), (0), (be 4 0x00000C ++ be 2 1 ++ be 4 30), (1), (0), (lone), _, _, executes_of (by decide +kernel), rfl, by decide +kernel, by decide +kernel, by decide +kernel, by decide +kernel, by decide +kernel, by decide +kernel, (triple_of (by decide +kernel) (by decide +kernel))⟩,
   ⟨(0), (0), (be 4 0x00000C ++ be 4 15 ++ be 4 30), (0), _, _, (lone), _, _, executes_of (by decide +kernel), rfl, by decide +kernel, by decide +kernel, by decide +kernel, by decide +kernel, rfl, rfl, pair_snd (by decide +kernel)⟩⟩

theorem met_CmdOpcodesAct :
    (∃ (dt : Nat) (tag : BitVec 16) (p : List Byte) (e : OpEntry) (s : State) (x : State), s.willRun dt 0x0021 tag.toNat p ∧ x = s.asked dt 0x0021 tag.toNat p ∧ p.length = 2 ∧ x.opOfTag (field p 0 2) = some e ∧ x.opState e = .queued)
    ∧ (∃ (dt : Nat) (tag : BitVec 16) (p : List Byte) (e : OpEntry) (s : State) (x : State), s.willRun dt 0x0021 tag.toNat p ∧ x = s.asked dt 0x0021 tag.toNat p ∧ p.length = 2 ∧ x.opOfTag (field p 0 2) = some e ∧ x.opState e ≠ .queued)
    ∧ (∃ (dt : Nat) (tag : BitVec 16) (p : List Byte) (s : State) (x : State), s.willRun dt 0x0021 tag.toNat p ∧ x = s.asked dt 0x0021 tag.toNat p ∧ p.length = 2 ∧ x.opOfTag (field p 0 2) = none)
    ∧ (∃ (dt : Nat) (tag : BitVec 16) (p : List Byte) (n : Notice) (s : State) (x : State), s.willRun dt 0x0030 tag.toNat p ∧ x = s.asked dt 0x0030 tag.toNat p ∧ p.length = 2 ∧ x.main.cmd.notices.find? (fun n => n.num == field p 0 2 && n.alarm) = some n ∧ n.member = x.self)
    ∧ (∃ (dt : Nat) (i : Nat) (tag : BitVec 16) (p : List Byte) (n : Notice) (s : State) (x : State), s.willRun dt 0x0030 tag.toNat p ∧ x = s.asked dt 0x0030 tag.toNat p ∧ p.length = 2 ∧ x.main.cmd.notices.find? (fun n => n.num == field p 0 2 && n.alarm) = some n ∧ n.member ≠ x.self ∧ noticeSource n = some i ∧ x.main.sk.formed = true)
    ∧ (∃ (dt : Nat) (tag : BitVec 16) (p : List Byte) (s : State) (x : State), s.willRun dt 0x0050 tag.toNat p ∧ x = s.asked dt 0x0050 tag.toNat p ∧ p.length = 2 ∧ field p 0 2 = 0x5A3C) :=
  ⟨⟨(0), (0), ([0#8, 5#8]), ({ waitingOp 1 1 with tag := 5 }), (pair.modCmd (fun c => { c with ops := [{ waitingOp 1 1 with tag := 5 }], nextOp := 1 })), _, executes_of (by decide +kernel), rfl, by decide +kernel, by decide +kernel, by decide +kernel⟩,
   ⟨(0), (0), ([0#8, 5#8]), ({ waitingOp 0 1 with tag := 5, st := .running }), (lone.modCmd (fun c => { c with ops := [{ waitingOp 0 1 with tag := 5, st := .running }], nextOp := 1 })), _, executes_of (by decide +kernel), rfl, by decide +kernel, by decide +kernel, by decide +kernel⟩,
   ⟨(0), (0), ([0#8, 5#8]), (lone), _, executes_of (by decide +kernel), rfl, by decide +kernel, by decide +kernel⟩,
   ⟨(0), (0), (be 2 0x8000), (aNotice), (lone.modCmd (fun c => { c with notices := [aNotice] })), _, executes_of (by decide +kernel), rfl, by decide +kernel, by decide +kernel, by decide +kernel⟩,
   ⟨(0), _, (0), (be 2 0x8000), ({ aNotice with member := 1, held := some 3 }), (pair.modCmd (fun c => { c with notices := [{ aNotice with member := 1, held := some 3 }] })), _, executes_of (by decide +kernel), rfl, by decide +kernel, by decide +kernel, by decide +kernel, some_get (by decide +kernel), by decide +kernel⟩,
   ⟨(0), (0), (be 2 0x5A3C), (lone), _, executes_of (by decide +kernel), rfl, by decide +kernel, by decide +kernel⟩⟩

theorem met_ImageOpcodes :
    (∃ (dt : Nat) (tag : BitVec 16) (b : List Byte) (i : Nat) (s : State) (x : State), s.willRun dt 0x0040 tag.toNat [] ∧ x = s.asked dt 0x0040 tag.toNat [] ∧ x.bootTaken = some b ∧ x.main.boot.slot = some i ∧ field (x.imgHeader 0) 0 4 = 0x43564657 ∧ field (x.imgHeader 1) 0 4 = 0x43564657)
    ∧ (∃ (dt : Nat) (tag : BitVec 16) (p : List Byte) (s : State) (x : State), s.willRun dt 0x0041 tag.toNat p ∧ x = s.asked dt 0x0041 tag.toNat p ∧ p.length = 1 ∧ field p 0 1 ≤ 1 ∧ x.hearth.onReserve = false ∧ x.main.boot.slot ≠ some (field p 0 1))
    ∧ (∃ (dt : Nat) (tag : BitVec 16) (p : List Byte) (s : State) (x : State), s.willRun dt 0x0042 tag.toNat p ∧ x = s.asked dt 0x0042 tag.toNat p ∧ 7 ≤ p.length ∧ field p 0 1 ≤ 1 ∧ field p 1 1 = 0 ∧ field p 2 4 + (p.length - 6) ≤ 0x100000 ∧ x.hearth.onReserve = false ∧ x.main.boot.slot ≠ some (field p 0 1))
    ∧ (∃ (dt : Nat) (tag : BitVec 16) (p : List Byte) (s : State) (x : State), s.willRun dt 0x0043 tag.toNat p ∧ x = s.asked dt 0x0043 tag.toNat p ∧ p.length = 1 ∧ field p 0 1 ≤ 1)
    ∧ (∃ (dt : Nat) (tag : BitVec 16) (p : List Byte) (s : State) (x : State) (y : State), s.willRun dt 0x0044 tag.toNat p ∧ x = s.asked dt 0x0044 tag.toNat p ∧ p.length = 3 ∧ field p 0 1 ≤ 1 ∧ field p 1 1 ≤ 1 ∧ field p 2 1 = 1 ∧ x.main.boot.slot ≠ some (field p 0 1) ∧ y = x.recordDigest (field p 0 1) (bytesAt (x.imgHeader (field p 0 1)) 32 32))
    ∧ (∃ (dt : Nat) (i : Nat) (tag : BitVec 16) (s : State) (x : State), s.willRun dt 0x0045 tag.toNat [] ∧ x = s.asked dt 0x0045 tag.toNat [] ∧ x.main.boot.trial = true ∧ x.main.boot.committed = false ∧ x.main.boot.slot = some i)
    ∧ (∃ (dt : Nat) (tag : BitVec 16) (s : State) (x : State), s.willRun dt 0x0045 tag.toNat [] ∧ x = s.asked dt 0x0045 tag.toNat [] ∧ (x.main.boot.trial = false ∨ x.main.boot.committed = true)) :=
  ⟨⟨(0), (0), (mkBoot), (0), ({ lone with flash := flashWrite (flashWrite (flashWrite [] 0 mkBoot) 0x10000 (be 4 0x43564657)) 0x110000 (be 4 0x43564657) }), _, executes_of (by decide +kernel), rfl, by decide +kernel, by decide +kernel, by decide +kernel, by decide +kernel⟩,
   ⟨(0), (0), ([1#8]), (lone), _, executes_of (by decide +kernel), rfl, by decide +kernel, by decide +kernel, by decide +kernel, by decide +kernel⟩,
   ⟨(0), (0), ([1#8, 0#8, 0#8, 0xF#8, 0xFF#8, 0xFF#8, 7#8]), (lone), _, executes_of (by decide +kernel), rfl, by decide +kernel, by decide +kernel, by decide +kernel, by decide +kernel, by decide +kernel, by decide +kernel⟩,
   ⟨(0), (0), ([1#8]), (lone), _, executes_of (by decide +kernel), rfl, by decide +kernel, by decide +kernel⟩,
   ⟨(0), (0), ([1#8, 1#8, 1#8]), (lone), _, _, executes_of (by decide +kernel), rfl, by decide +kernel, by decide +kernel, by decide +kernel, by decide +kernel, by decide +kernel, rfl⟩,
   ⟨(0), (1), (0), (lone.modBoot (fun b => { b with trial := true, slot := some 1 })), _, executes_of (by decide +kernel), rfl, by decide +kernel, by decide +kernel, by decide +kernel⟩,
   ⟨(0), (0), (lone), _, executes_of (by decide +kernel), rfl, by decide +kernel⟩⟩

theorem met_FlashOperationsEnd :
    (∃ (dt : Nat) (id : Nat) (slot : Nat) (s : State) (x : State), x = s.at dt ∧ x.runs ∧ x.main.boot.flashOp = some (.imgErase id slot) ∧ (x.flashEffect (.imgErase id slot) true).main.out = true ∧ (x.flashEffect (.imgErase id slot) true).main.ash.trigger = none)
    ∧ (∃ (dt : Nat) (id : Nat) (slot : Nat) (s : State) (x : State), x = s.at dt ∧ x.runs ∧ x.main.boot.flashOp = some (.imgErase id slot) ∧ (x.flashEffect (.imgErase id slot) false).main.out = true ∧ (x.flashEffect (.imgErase id slot) false).main.ash.trigger = none)
    ∧ (∃ (dt : Nat) (id : Nat) (slot : Nat) (off : Nat) (d : List Byte) (s : State) (x : State), x = s.at dt ∧ x.runs ∧ x.main.boot.flashOp = some (.imgWrite id slot off d) ∧ (x.flashEffect (.imgWrite id slot off d) true).main.out = true ∧ (x.flashEffect (.imgWrite id slot off d) true).main.ash.trigger = none ∧ nor (x.flashRead (0x10000 + slot * 0x100000 + off) d.length) d = d)
    ∧ (∃ (dt : Nat) (id : Nat) (pref : Nat) (st : Nat) (r : List Byte) (s : State) (x : State), x = s.at dt ∧ x.runs ∧ x.main.boot.flashOp = some (.bootRecord (some id) pref st 0) ∧ r = be 4 0x43564252 ++ be 4 x.bootNextSeq ++ [byte pref, byte st] ++ be 2 0 ∧ (x.flashEffect (.bootRecord (some id) pref st 0) true).main.out = true ∧ (x.flashEffect (.bootRecord (some id) pref st 0) true).main.ash.trigger = none)
    ∧ (∃ (x : State), x.bootCopy = some 0)
    ∧ (∃ (x : State), x.bootCopy = some 1)
    ∧ (∃ (x : State) (b : List Byte), x.bootTaken = some b) :=
  ⟨⟨(0), (0), (1), (lone.modBoot (fun b => { b with flashOp := some (.imgErase 0 1) })), _, rfl, ⟨by decide +kernel, by decide +kernel⟩, by decide +kernel, by decide +kernel, by decide +kernel⟩,
   ⟨(0), (0), (1), (lone.modBoot (fun b => { b with flashOp := some (.imgErase 0 1) })), _, rfl, ⟨by decide +kernel, by decide +kernel⟩, by decide +kernel, (by unfold State.flashEffect State.flashCut; simp only [Bool.false_eq_true, if_false]; split <;> decide +kernel), (by unfold State.flashEffect State.flashCut; simp only [Bool.false_eq_true, if_false]; split <;> decide +kernel)⟩,
   ⟨(0), (0), (1), (0xFFFFF), ([1#8]), (lone.modBoot (fun b => { b with flashOp := some (.imgWrite 0 1 0xFFFFF [1#8]) })), _, rfl, ⟨by decide +kernel, by decide +kernel⟩, by decide +kernel, by decide +kernel, by decide +kernel, by decide +kernel⟩,
   ⟨(0), (0), (1), (0), _, (lone.modBoot (fun b => { b with flashOp := some (.bootRecord (some 0) 1 0 0) })), _, rfl, ⟨by decide +kernel, by decide +kernel⟩, by decide +kernel, rfl, by decide +kernel, by decide +kernel⟩,
   ⟨({ lone with flash := flashWrite [] 0 mkBoot }), by decide +kernel⟩,
   ⟨({ lone with flash := flashWrite [] 0x1000 mkBoot }), by decide +kernel⟩,
   ⟨({ lone with flash := flashWrite [] 0 mkBoot }), (mkBoot), by decide +kernel⟩⟩

theorem met_FlashReads :
    (∃ (m : List Host.Cell), flashWf m = true)
    ∧ (∃ (m : List Host.Cell), flashWf m = true)
    ∧ (∃ (m : List Host.Cell), flashWf m = true) :=
  ⟨⟨([(5, 1#8)]), by decide +kernel⟩,
   ⟨([(5, 1#8)]), by decide +kernel⟩,
   ⟨([(5, 1#8)]), by decide +kernel⟩⟩

theorem met_HearthSupplies :
    (∃ (dt : Nat) (aon : Nat) (vbat : Nat) (s : State) (x : State), x = s.at dt ∧ x.hearth.running = false ∧ (2500 ≤ aon ∨ 2500 ≤ vbat))
    ∧ (∃ (dt : Nat) (aon : Nat) (vbat : Nat) (s : State) (x : State), x = s.at dt ∧ (x.hearth.running = true ∨ (aon < 2500 ∧ vbat < 2500)))
    ∧ (∃ (dt : Nat) (aon : Nat) (vbat : Nat) (s : State) (x : State) (y : State), x = s.at dt ∧ x.hearth.running = true ∧ y = x.supplySwitch aon vbat ∧ (if y.drawsVbat then vbat else aon) < 2200)
    ∧ (∃ (dt : Nat) (aon : Nat) (vbat : Nat) (s : State) (x : State) (y : State), x = s.at dt ∧ x.hearth.running = true ∧ y = x.supplySwitch aon vbat ∧ 2200 ≤ (if y.drawsVbat then vbat else aon))
    ∧ (∃ (h : Hearth) (r : Bool) (aon : Nat) (vbat : Nat) (k : _), k ∈ (freshHearth h r aon vbat).keys)
    ∧ (∃ (dt : Nat) (aon : Nat) (vbat : Nat) (s : State) (x : State), x = s.at dt ∧ x.hearth.running = true ∧ x.supplyHeld = false ∧ ((x.hearth.aonMv < 2900 ↔ aon < 2900) ∨ (x.hearth.vbatMv < 2900 ↔ vbat < 2900)))
    ∧ (∃ (dt : Nat) (aon : Nat) (vbat : Nat) (s : State) (x : State), x = s.at dt ∧ x.hearth.running = true ∧ x.supplyHeld = true ∧ 2500 ≤ (if x.drawsVbat then vbat else aon) ∧ (if x.drawsVbat then aon else vbat) < 2900)
    ∧ (∃ (dt : Nat) (aon : Nat) (vbat : Nat) (s : State) (x : State), x = s.at dt ∧ x.hearth.running = true ∧ (if x.drawsVbat then vbat else aon) < 2500 ∧ 2900 ≤ (if x.drawsVbat then aon else vbat)) :=
  ⟨⟨(0), (2500), (0), (dark.modHearth (fun h => { h with running := false })), _, rfl, by decide +kernel, by decide +kernel⟩,
   ⟨(0), (2499), (0), (dark.modHearth (fun h => { h with running := false })), _, rfl, by decide +kernel⟩,
   ⟨(0), (2199), (2199), (lone), _, _, rfl, by decide +kernel, rfl, by decide +kernel⟩,
   ⟨(0), (2200), (0), (lone), _, _, rfl, by decide +kernel, rfl, by decide +kernel⟩,
   ⟨(lone.hearth), (true), (2500), (0), ({}), by decide +kernel⟩,
   ⟨(0), (2899), (3000), (lone), _, rfl, by decide +kernel, by decide +kernel, by decide +kernel⟩,
   ⟨(0), (2500), (0), (lone.modHearth (fun h => { h with supHold := true })), _, rfl, by decide +kernel, by decide +kernel, by decide +kernel, by decide +kernel⟩,
   ⟨(0), (2499), (2900), (lone), _, rfl, by decide +kernel, by decide +kernel, by decide +kernel⟩⟩

theorem met_HearthTime :
    (∃ (dt : Nat) (s : State) (x : State), x = s.at dt ∧ x.blocksRun ∧ x.blazing = true ∧ x.ntValid = true ∧ x.main.sk.timeLoose = false ∧ x.hearth.aligned = none)
    ∧ (∃ (dt : Nat) (t : Nat) (n0 : Nat) (c0 : Nat) (s : State) (x : State), x = s.at dt ∧ x.blocksRun ∧ x.blazing = true ∧ x.ntValid = true ∧ x.main.sk.timeLoose = false ∧ x.hearth.aligned = some (t, n0, c0) ∧ t + 64 * secT ≤ x.now ∧ c0 < x.hearth.cycles ∧ n0 < x.main.nt.totalNs)
    ∧ (∃ (dt : Nat) (s : State) (x : State), x = s.at dt ∧ x.blocksRun ∧ (x.blazing = false ∨ x.ntValid = false ∨ ∃ t n0 c0, x.hearth.aligned = some (t, n0, c0) ∧ x.now < t + 64 * secT)) :=
  ⟨⟨(0), (locked), _, rfl, ⟨⟨by decide +kernel, by decide +kernel⟩, by decide +kernel⟩, by decide +kernel, by decide +kernel, by decide +kernel, by decide +kernel⟩,
   ⟨(0), (0), (1), (1), (locked.modHearth (fun h => { h with aligned := some (0, 1, 1), cycles := 2 })), _, rfl, ⟨⟨by decide +kernel, by decide +kernel⟩, by decide +kernel⟩, by decide +kernel, by decide +kernel, by decide +kernel, by decide +kernel, by decide +kernel, by decide +kernel, by decide +kernel⟩,
   ⟨(0), (lone), _, rfl, ⟨⟨by decide +kernel, by decide +kernel⟩, by decide +kernel⟩, Or.inr (Or.inl (by decide +kernel))⟩⟩

theorem met_WakeTimerFires :
    (∃ (dt : Nat) (d : Int) (s : State) (x : State) (y : State), x = s.at dt ∧ x.hearth.running = true ∧ d = sdiff 32 (x.hearthSec % 2 ^ 32) (x.word 0x010014) ∧ y = x.setFld 0x010018 31 31 0 ∧ x.bit 0x010018 31 = true ∧ (0 < d ∨ d = 0 ∧ x.fld 0x010018 14 0 ≤ x.hearthFrac) ∧ x.hearth.pen = true)
    ∧ (∃ (dt : Nat) (d : Int) (s : State) (x : State) (y : State), x = s.at dt ∧ x.hearth.running = true ∧ d = sdiff 32 (x.hearthSec % 2 ^ 32) (x.word 0x010014) ∧ y = x.setFld 0x010018 31 31 0 ∧ x.bit 0x010018 31 = true ∧ (0 < d ∨ d = 0 ∧ x.fld 0x010018 14 0 ≤ x.hearthFrac) ∧ x.hearth.pen = false)
    ∧ (∃ (dt : Nat) (d : Int) (s : State) (x : State) (y : State), x = s.at dt ∧ x.hearth.running = true ∧ d = sdiff 32 (x.hearthSec % 2 ^ 32) (x.word 0x010014) ∧ y = x.setFld 0x010018 31 31 0 ∧ (x.bit 0x010018 31 = false ∨ d < 0 ∨ d = 0 ∧ x.hearthFrac < x.fld 0x010018 14 0)) :=
  ⟨⟨(0), _, (wakeSet), _, _, rfl, by decide +kernel, rfl, rfl, by decide +kernel, by decide +kernel, by decide +kernel⟩,
   ⟨(0), _, ({ wakeSet with main := .cold, hearth := { wakeSet.hearth with pen := false } }), _, _, rfl, by decide +kernel, rfl, rfl, by decide +kernel, by decide +kernel, by decide +kernel⟩,
   ⟨(0), _, (lone), _, _, rfl, by decide +kernel, rfl, rfl, by decide +kernel⟩⟩

theorem met_TamperAndMesh :
    (∃ (dt : Nat) (i : Nat) (s : State) (x : State), x = s.at dt ∧ i < 8 ∧ x.hearth.running = true ∧ bits (x.word (0x010020 + 4 * i)) 9 8 ≠ 0 ∧ x.hearth.tampNow[i]? = some false)
    ∧ (∃ (dt : Nat) (n : Nat) (s : State) (x : State), x = s.at dt ∧ n < 2 ∧ x.hearth.running = true ∧ bitOf (x.word (0x010040 + 4 * n)) 31 = true ∧ x.hearth.meshBroken[n]? = some false)
    ∧ (∃ (x : State) (y : State) (z : State) (w : State) (source : Nat) (kind : Nat) (a : Actions), y = (if a.record then x.ashHearth 0x01 (if source < 8 then 1 else 2) (x.tamperContents source kind a.zeroise) else x) ∧ z = (if a.zeroise then y.zeroise (if source < 8 then 0 else 1) (if source < 8 then source else source - 8) else y) ∧ z.stoker = true ∧ z.hearth.minBlaze = none ∧ w = (if a.wake then z.wake 0x03 else z))
    ∧ (∃ (x : State) (y : State) (source : Nat) (kind : Nat) (a : Actions), x.stoker = false ∧ a.zeroise = false ∧ y = (if a.record then x.ashHearth 0x01 (if source < 8 then 1 else 2) (x.tamperContents source kind false) else x) ∧ y.stoker = false ∧ y.hearth.pen = false ∧ a.wake = false)
    ∧ (∃ (x : State) (y : State) (source : Nat) (kind : Nat) (a : Actions), a.zeroise = false ∧ y = (if a.record then x.ashHearth 0x01 (if source < 8 then 1 else 2) (x.tamperContents source kind false) else x) ∧ y.stoker = false ∧ y.hearth.pen = false ∧ a.wake = true)
    ∧ (∃ (dt : Nat) (s : State) (x : State), x = s.at dt)
    ∧ (∃ (dt : Nat) (s : State) (x : State), x = s.at dt)
    ∧ (∃ (dt : Nat) (s : State) (x : State), x = s.at dt ∧ x.blocksRun ∧ x.hearth.ps = .blaze)
    ∧ (∃ (v : _), 1 ≤ v ∧ v ≤ 65535) :=
  ⟨⟨(0), (7), (lone.setFld 0x01003C 9 8 1), _, rfl, by decide +kernel, by decide +kernel, by decide +kernel, by decide +kernel⟩,
   ⟨(0), (1), (lone.setFld 0x010044 31 31 1), _, rfl, by decide +kernel, by decide +kernel, by decide +kernel, by decide +kernel⟩,
   ⟨(lone), _, _, _, (7), (0), (⟨true, false, true, true⟩), rfl, rfl, by decide +kernel, by decide +kernel, rfl⟩,
   ⟨(dark.modHearth (fun h => { h with pen := false })), _, (7), (0), (⟨true, false, false, false⟩), by decide +kernel, by decide +kernel, rfl, by decide +kernel, by decide +kernel, by decide +kernel⟩,
   ⟨(dark.modHearth (fun h => { h with pen := false })), _, (9), (2), (⟨true, false, true, false⟩), by decide +kernel, rfl, by decide +kernel, by decide +kernel, by decide +kernel⟩,
   ⟨(0), (lone), _, rfl⟩,
   ⟨(0), (lone), _, rfl⟩,
   ⟨(0), (lone), _, rfl, ⟨⟨by decide +kernel, by decide +kernel⟩, by decide +kernel⟩, by decide +kernel⟩,
   ⟨(65535), by decide +kernel, by decide +kernel⟩⟩

theorem met_AlarmOnBackupCell :
    (∃ (x : State) (y : State) (source : Nat) (kind : Nat) (flags : Nat) (code : Nat), x.hearth.start.lead = true ∧ x.hearth.lockout = false ∧ ¬ (x.hearth.start.msel = some 0 ∧ x.keysEmpty = true) ∧ x.hearth.resFault = false ∧ 100 * x.fld 0x01005C 7 0 ≤ x.energyOf code ∧ y = x.backupAlarm source kind flags code)
    ∧ (∃ (x : State) (y : State) (source : Nat) (kind : Nat) (flags : Nat) (code : Nat), (x.hearth.resFault = true ∧ 0 < x.fld 0x01005C 7 0 ∨ x.energyOf code < 100 * x.fld 0x01005C 7 0 ∨ x.hearth.start.lead = false ∨ x.hearth.start.msel = some 0 ∧ x.keysEmpty = true) ∧ y = x.backupAlarm source kind flags code)
    ∧ (∃ (x : State) (y : State) (source : Nat) (flags : Nat) (kind : Nat) (e : Held), x.hearth.held[source]? = some e ∧ y = x.hold source flags kind) :=
  ⟨⟨((dark.setFld 0x010050 31 16 60000).modHearth (fun h => { h with start := { h.start with lead := true, msel := some 1 } })), _, (0), (0), (0), (1023), by decide +kernel, by decide +kernel, by decide +kernel, by decide +kernel, by decide +kernel, rfl⟩,
   ⟨(dark), _, (0), (0), (0), (0), by decide +kernel, rfl⟩,
   ⟨(dark), _, (12), (0), (0), ({}), by decide +kernel, rfl⟩⟩

theorem met_HearthMonitors :
    (∃ (dt : Nat) (code : BitVec 8) (s : State) (x : State), x = s.at dt ∧ x.hearth.running = true ∧ x.hearth.cellLow = false ∧ x.hearth.cellAbsent = false ∧ x.fld 0x01004C 23 16 ≤ code.toNat ∧ 50 ≤ code.toNat)
    ∧ (∃ (dt : Nat) (code : BitVec 8) (s : State) (x : State), x = s.at dt ∧ x.hearth.running = true ∧ x.hearth.cellLow = false ∧ x.hearth.cellAbsent = false ∧ code.toNat < x.fld 0x01004C 23 16 ∧ 50 ≤ code.toNat ∧ x.hearth.cellRun = 0)
    ∧ (∃ (dt : Nat) (code : BitVec 8) (s : State) (x : State) (y : State), x = s.at dt ∧ x.hearth.running = true ∧ x.hearth.cellLow = false ∧ x.hearth.cellAbsent = false ∧ code.toNat < x.fld 0x01004C 23 16 ∧ 50 ≤ code.toNat ∧ x.hearth.cellRun = 1 ∧ x.stoker = true ∧ y = (x.modHearth (fun h => { h with cellCode := code.toNat, cellLow := true, cellRun := 0 })).ashHearth 0x01 0x05 [0#8, byte code.toNat])
    ∧ (∃ (dt : Nat) (s : State) (x : State) (y : State), x = s.at dt ∧ x.hearth.running = true ∧ x.hearth.xtalFault = false ∧ x.stoker = true ∧ y = (x.modHearth (fun h => { h with xtalFault := true, xtalSec := x.hearthSec })).ashHearth 0x01 0x04 ([1#8] ++ be 2 0))
    ∧ (∃ (dt : Nat) (s : State) (x : State) (y : State), x = s.at dt ∧ x.hearth.running = true ∧ x.hearth.xtalFault = false ∧ x.stoker = false ∧ y = (x.modHearth (fun h => { h with xtalFault := true, xtalSec := x.hearthSec })).ashHearth 0x01 0x04 ([1#8] ++ be 2 0))
    ∧ (∃ (dt : Nat) (s : State) (x : State), x = s.at dt ∧ x.hearth.running = true ∧ x.hearth.xtalFault = true)
    ∧ (∃ (dt : Nat) (code : BitVec 10) (s : State) (x : State) (y : State), x = s.at dt ∧ x.hearth.pen = true ∧ x.hearth.psuOk = true ∧ code ≠ 0 ∧ y = (x.modHearth (fun h => { h with resCode := code.toNat, resFault := false, resE := x.energyOf code.toNat })).modUp (fun u => { u with admitted := 0 }) ∧ y.hardFloor = false)
    ∧ (∃ (x : State) (code : Nat), code ≤ x.fld 0x010054 9 0) :=
  ⟨⟨(0), (255), (lone), _, rfl, by decide +kernel, by decide +kernel, by decide +kernel, by decide +kernel, by decide +kernel⟩,
   ⟨(0), (50), (lone), _, rfl, by decide +kernel, by decide +kernel, by decide +kernel, by decide +kernel, by decide +kernel, by decide +kernel⟩,
   ⟨(0), (50), (lone.modHearth (fun h => { h with cellRun := 1 })), _, _, rfl, by decide +kernel, by decide +kernel, by decide +kernel, by decide +kernel, by decide +kernel, by decide +kernel, by decide +kernel, rfl⟩,
   ⟨(0), (lone), _, _, rfl, by decide +kernel, by decide +kernel, by decide +kernel, rfl⟩,
   ⟨(0), (dark), _, _, rfl, by decide +kernel, by decide +kernel, by decide +kernel, rfl⟩,
   ⟨(0), (lone.modHearth (fun h => { h with xtalFault := true })), _, rfl, by decide +kernel, by decide +kernel⟩,
   ⟨(0), (1023), (lone), _, _, rfl, by decide +kernel, by decide +kernel, by decide +kernel, rfl, by decide +kernel⟩,
   ⟨(lone), (0), by decide +kernel⟩⟩

theorem met_SupplyLostAndBack :
    (∃ (dt : Nat) (s : State) (x : State) (y : State), x = s.at dt ∧ x.hearth.psuOk = true ∧ x.hearth.running = true ∧ x.stoker = true ∧ y = (x.modHearth (fun h => { h with psuOk := false, onReserve := true, psuFell := some x.now, lockoutLow := h.lockout })).wake 0x05)
    ∧ (∃ (dt : Nat) (s : State) (x : State), x = s.at dt ∧ x.hearth.psuOk = true ∧ x.hearth.running = true ∧ x.stoker = false)
    ∧ (∃ (dt : Nat) (s : State) (x : State), x = s.at dt ∧ x.hearth.psuOk = false ∧ x.main.out = false ∧ x.hearth.pen = false ∧ x.hearth.lockout = false ∧ x.hearth.running = true)
    ∧ (∃ (dt : Nat) (s : State) (x : State), x = s.at dt ∧ x.hearth.psuOk = false ∧ x.hearth.running = true ∧ x.stoker = true ∧ x.hearth.minBlaze = none ∧ x.hearth.lockout = false)
    ∧ (∃ (dt : Nat) (s : State) (x : State), x = s.at dt ∧ x.hearth.running = false) :=
  ⟨⟨(0), (lone), _, _, rfl, by decide +kernel, by decide +kernel, by decide +kernel, rfl⟩,
   ⟨(0), (dark), _, rfl, by decide +kernel, by decide +kernel, by decide +kernel⟩,
   ⟨(0), (dark.modHearth (fun h => { h with psuOk := false, pen := false })), _, rfl, by decide +kernel, by decide +kernel, by decide +kernel, by decide +kernel, by decide +kernel⟩,
   ⟨(0), (lone.modHearth (fun h => { h with psuOk := false })), _, rfl, by decide +kernel, by decide +kernel, by decide +kernel, by decide +kernel, by decide +kernel⟩,
   ⟨(0), (dark.modHearth (fun h => { h with running := false })), _, rfl, by decide +kernel⟩⟩

theorem met_EmberEntered :
    (∃ (dt : Nat) (s : State) (x : State) (y : State), x = s.at dt ∧ x.hearth.pen = true ∧ x.hearth.onReserve = true ∧ x.hearth.minBlaze = none ∧ x.rideOver = true ∧ x.main.out = true ∧ y = x.saveStart.holdPending)
    ∧ (∃ (dt : Nat) (s : State) (x : State), x = s.at dt ∧ x.hearth.pen = true ∧ x.hearth.minBlaze.isSome = true ∧ x.hearth.penRise + x.fld 0x010060 15 0 * msT ≤ x.now)
    ∧ (∃ (x : State), x.main.boot.flashOp = none) :=
  ⟨⟨(0), (lone.modHearth (fun h => { h with psuOk := false, onReserve := true, psuFell := some 0 })), _, _, rfl, by decide +kernel, by decide +kernel, by decide +kernel, by decide +kernel, by decide +kernel, rfl⟩,
   ⟨(0), (lone.modHearth (fun h => { h with minBlaze := some 0 })), _, rfl, by decide +kernel, by decide +kernel, by decide +kernel⟩,
   ⟨(lone), by decide +kernel⟩⟩

theorem met_PowerStates :
    (∃ (dt : Nat) (t : Nat) (s : State) (x : State), x = s.at dt ∧ x.blocksRun ∧ (x.hearth.ps = .bank ∨ x.hearth.ps = .smoulder) ∧ x.main.power.wakeAt = some t ∧ t ≤ x.now ∧ (∀ e, x.main.power.event = some e → x.now + (if x.hearth.ps = .smoulder then 1500 else 15) * usT ≤ e))
    ∧ (∃ (dt : Nat) (t : Nat) (e : Nat) (s : State) (x : State), x = s.at dt ∧ x.blocksRun ∧ (x.hearth.ps = .bank ∨ x.hearth.ps = .smoulder) ∧ x.main.power.wakeAt = some t ∧ t ≤ x.now ∧ x.main.power.event = some e ∧ e < x.now + (if x.hearth.ps = .smoulder then 1500 else 15) * usT)
    ∧ (∃ (x : State) (n : Nat), wakes x.hearth.ps n = true)
    ∧ (∃ (x : State), x.main.power.fired = none)
    ∧ (∃ (x : State) (k : Nat), x.main.power.fired = some (x.hearth.cycles, k))
    ∧ (∃ (x : State) (n : Nat), wakes x.hearth.ps n = false ∧ x.hearth.ps ≠ .blaze)
    ∧ (∃ (dt : Nat) (tag : BitVec 16) (k : Known) (b : Nat) (s : State) (x : State), s.willRun dt 0x0100 tag.toNat [] ∧ x = s.asked dt 0x0100 tag.toNat [] ∧ x.nextKnown = some k ∧ k.block = some b)
    ∧ (∃ (dt : Nat) (tag : BitVec 16) (s : State) (x : State), s.willRun dt 0x0101 tag.toNat [] ∧ x = s.asked dt 0x0101 tag.toNat []) :=
  ⟨⟨(0), (2 ^ 50), (withPower (lone.modHearth (fun h => { h with ps := .bank })) (fun p => { p with wakeAt := some (2 ^ 50) })), _, rfl, ⟨⟨by decide +kernel, by decide +kernel⟩, by decide +kernel⟩, by decide +kernel, by decide +kernel, by decide +kernel, by decide +kernel⟩,
   ⟨(0), (2 ^ 50), (2 ^ 50 - 1), (withPower (lone.modHearth (fun h => { h with ps := .bank })) (fun p => { p with wakeAt := some (2 ^ 50), event := some (2 ^ 50 - 1) })), _, rfl, ⟨⟨by decide +kernel, by decide +kernel⟩, by decide +kernel⟩, by decide +kernel, by decide +kernel, by decide +kernel, by decide +kernel, by decide +kernel⟩,
   ⟨(lone.modHearth (fun h => { h with ps := .smoulder })), (1), by decide +kernel⟩,
   ⟨(lone), by decide +kernel⟩,
   ⟨(withPower lone (fun p => { p with fired := some (0, 3) })), (3), by decide +kernel⟩,
   ⟨(lone.modHearth (fun h => { h with ps := .bank })), (0x10), by decide +kernel, by decide +kernel⟩,
   ⟨(0), (0), _, _, (wakeSet), _, executes_of (by decide +kernel), rfl, some_get (by decide +kernel), some_get (by decide +kernel)⟩,
   ⟨(0), (0), (lone), _, executes_of (by decide +kernel), rfl⟩⟩

theorem met_NetworkTimeEvents :
    (∃ (dt : Nat) (b : Nat) (s : State) (x : State), x = s.at dt ∧ x.blocksRun ∧ x.main.nt.boundary = some b ∧ x.ppsOn = true ∧ (x.bit 0x02002C 31 = false ∨ x.ntValid = true) ∧ x.main.nt.marked.any (fun r => decide (r.1 ≤ b ∧ b ≤ r.2)) = false)
    ∧ (∃ (dt : Nat) (b : Nat) (s : State) (x : State), x = s.at dt ∧ x.blocksRun ∧ x.main.nt.boundary = some b ∧ (x.ppsOn = false ∨ (x.bit 0x02002C 31 = true ∧ x.ntValid = false) ∨ x.main.nt.marked.any (fun r => decide (r.1 ≤ b ∧ b ≤ r.2)) = true))
    ∧ (∃ (dt : Nat) (s : State) (x : State), x = s.at dt ∧ x.blocksRun ∧ x.main.nt.pps = true ∧ x.main.nt.ppsEnd ≤ x.now)
    ∧ (∃ (dt : Nat) (sec : Nat) (due : Nat) (mark : Bool) (pre : List Byte) (s : State) (x : State), x = s.at dt ∧ x.blocksRun ∧ x.main.nt.tod = some (sec, mark, due, pre) ∧ due ≤ x.now ∧ x.main.cmd.bound ≠ .uart)
    ∧ (∃ (dt : Nat) (sec : Nat) (due : Nat) (mark : Bool) (pre : List Byte) (s : State) (x : State), x = s.at dt ∧ x.blocksRun ∧ x.main.nt.tod = some (sec, mark, due, pre) ∧ due ≤ x.now ∧ x.main.cmd.bound = .uart)
    ∧ (∃ (dt : Nat) (s : State) (x : State), x = s.at dt ∧ x.blocksRun ∧ x.main.nt.slewTicks = 0)
    ∧ (∃ (dt : Nat) (s : State) (x : State), x = s.at dt ∧ x.blocksRun ∧ x.main.nt.servo = .locked ∧ x.main.nt.lastAccepted + x.fld 0x020020 11 8 * secT ≤ x.now)
    ∧ (∃ (dt : Nat) (s : State) (x : State), x = s.at dt ∧ x.blocksRun ∧ x.main.nt.servo = .holdover ∧ x.main.nt.holdSince + x.fld 0x020020 7 0 * 60 * secT ≤ x.now) :=
  ⟨⟨(0), (1000), (locked.modNt (fun n => { n with boundary := some 1000 })), _, rfl, ⟨⟨by decide +kernel, by decide +kernel⟩, by decide +kernel⟩, by decide +kernel, by decide +kernel, by decide +kernel, by decide +kernel⟩,
   ⟨(0), (1000), (locked.modNt (fun n => { n with boundary := some 1000, marked := [(1000, 1000)] })), _, rfl, ⟨⟨by decide +kernel, by decide +kernel⟩, by decide +kernel⟩, by decide +kernel, by decide +kernel⟩,
   ⟨(0), (locked.modNt (fun n => { n with pps := true, ppsEnd := 2 ^ 50 })), _, rfl, ⟨⟨by decide +kernel, by decide +kernel⟩, by decide +kernel⟩, by decide +kernel, by decide +kernel⟩,
   ⟨(0), (1), (2 ^ 50), (false), ([]), (locked.modNt (fun n => { n with tod := some (1, false, 2 ^ 50, []) })), _, rfl, ⟨⟨by decide +kernel, by decide +kernel⟩, by decide +kernel⟩, by decide +kernel, by decide +kernel, by decide +kernel⟩,
   ⟨(0), (1), (2 ^ 50), (false), ([]), ((locked.modNt (fun n => { n with tod := some (1, false, 2 ^ 50, []) })).modCmd (fun c => { c with bound := .uart })), _, rfl, ⟨⟨by decide +kernel, by decide +kernel⟩, by decide +kernel⟩, by decide +kernel, by decide +kernel, by decide +kernel⟩,
   ⟨(0), (lone), _, rfl, ⟨⟨by decide +kernel, by decide +kernel⟩, by decide +kernel⟩, by decide +kernel⟩,
   ⟨(0), (locked), _, rfl, ⟨⟨by decide +kernel, by decide +kernel⟩, by decide +kernel⟩, by decide +kernel, by decide +kernel⟩,
   ⟨(0), (locked.modNt (fun n => { n with servo := .holdover })), _, rfl, ⟨⟨by decide +kernel, by decide +kernel⟩, by decide +kernel⟩, by decide +kernel, by decide +kernel⟩⟩

theorem met_TimeMessages :
    (∃ (dt : Nat) (sfc : Nat) (m : List Byte) (b : List Byte) (t : List (Nat × List Byte)) (s : State) (x : State) (y : State), x = s.at dt ∧ x.blocksRun ∧ x.main.td.msgs = (sfc, m) :: t ∧ field m 0 1 = 1 ∧ x.leads = true ∧ x.main.td.lost = false ∧ x.smouldering = false ∧ y = x.modTd (fun d => { d with msgs := t }) ∧ b = (m.drop 4).take 24 ∧ timeBodyOk b = true ∧ 0 < sdiff 30 (field b 0 4 % 2 ^ 30) sfc ∧ sdiff 30 (field b 0 4 % 2 ^ 30) sfc ≤ 8191)
    ∧ (∃ (dt : Nat) (sfc : Nat) (m : List Byte) (b : List Byte) (t : List (Nat × List Byte)) (s : State) (x : State) (y : State), x = s.at dt ∧ x.blocksRun ∧ x.main.td.msgs = (sfc, m) :: t ∧ field m 0 1 = 1 ∧ x.leads = true ∧ x.main.td.lost = false ∧ x.smouldering = false ∧ y = x.modTd (fun d => { d with msgs := t }) ∧ b = (m.drop 4).take 24 ∧ timeBodyOk b = false)
    ∧ (∃ (dt : Nat) (sfc : Nat) (m : List Byte) (b : List Byte) (t : List (Nat × List Byte)) (s : State) (x : State) (y : State), x = s.at dt ∧ x.blocksRun ∧ x.main.td.msgs = (sfc, m) :: t ∧ field m 0 1 = 1 ∧ x.leads = true ∧ x.main.td.lost = false ∧ x.smouldering = false ∧ y = x.modTd (fun d => { d with msgs := t }) ∧ b = (m.drop 4).take 24 ∧ timeBodyOk b = true ∧ sdiff 30 (field b 0 4 % 2 ^ 30) sfc ≤ 0)
    ∧ (∃ (dt : Nat) (m : TimeMsg) (l : Latch) (e : Int) (s : State) (x : State), x = s.at dt ∧ x.blocksRun ∧ x.main.nt.msgs.find? (fun m => (x.main.nt.latchOf m).isSome) = some m ∧ x.main.nt.latchOf m = some l ∧ x.timeError m l = some e) :=
  ⟨⟨(0), (5), (timeMsg 8196 0), _, ([]), (withMsg downOk 5 (timeMsg 8196 0)), _, _, rfl, ⟨⟨by decide +kernel, by decide +kernel⟩, by decide +kernel⟩, by decide +kernel, by decide +kernel, by decide +kernel, by decide +kernel, by decide +kernel, rfl, rfl, by decide +kernel, by decide +kernel, by decide +kernel⟩,
   ⟨(0), (5), (timeMsg 8196 1), _, ([]), (withMsg downOk 5 (timeMsg 8196 1)), _, _, rfl, ⟨⟨by decide +kernel, by decide +kernel⟩, by decide +kernel⟩, by decide +kernel, by decide +kernel, by decide +kernel, by decide +kernel, by decide +kernel, rfl, rfl, by decide +kernel⟩,
   ⟨(0), (5), (timeMsg 5 0), _, ([]), (withMsg downOk 5 (timeMsg 5 0)), _, _, rfl, ⟨⟨by decide +kernel, by decide +kernel⟩, by decide +kernel⟩, by decide +kernel, by decide +kernel, by decide +kernel, by decide +kernel, by decide +kernel, rfl, rfl, by decide +kernel, by decide +kernel⟩,
   ⟨(0), (⟨5, 9, 0, 35000, 0, 0, 0⟩), (⟨5, 9, 0, 0, 0⟩), _, (locked.modNt (fun n => { n with msgs := [⟨5, 9, 0, 35000, 0, 0, 0⟩], latches := [⟨5, 9, 0, 0, 0⟩] })), _, rfl, ⟨⟨by decide +kernel, by decide +kernel⟩, by decide +kernel⟩, by decide +kernel, by decide +kernel, some_get (by decide +kernel)⟩⟩

theorem met_CompareUnits :
    (∃ (dt : Nat) (u : Nat) (c : Cmp) (s : State) (x : State) (y : State), x = s.at dt ∧ x.blocksRun ∧ c = x.cmpUnit u ∧ c.due x.main.nt = true ∧ x.main.sk.suspended = false ∧ y = ((x.modCmp u (fun c => if c.period = 0 then { c with armed := false } else c.next x.main.nt)).latchFld (0x020100 + 16 * u) 28 26 (b2n c.late * 4 + b2n c.stepped)).count (0x020100 + 16 * u) 11 0)
    ∧ (∃ (dt : Nat) (u : Nat) (s : State) (x : State), x = s.at dt ∧ x.blocksRun ∧ (x.cmpUnit u).due x.main.nt = false)
    ∧ (∃ (dt : Nat) (tag : BitVec 16) (p : List Byte) (c : Cmp) (s : State) (x : State), s.willRun dt 0x0203 tag.toNat p ∧ x = s.asked dt 0x0203 tag.toNat p ∧ p.length = 20 ∧ field p 0 1 ≤ 15 ∧ field p 1 1 ≤ 1 ∧ field p 2 1 ≤ 4 ∧ field p 3 1 ≤ 1 ∧ (field p 1 1 = 0 → field p 6 6 = 0) ∧ (field p 1 1 = 1 → field p 12 4 < 1000000000) ∧ (∀ m, cmpParamMax (field p 2 1) = some m → field p 4 2 ≤ m) ∧ c = { armed := true, epoch := field p 1 1 == 1, notify := field p 3 1 == 1, action := field p 2 1, param := field p 4 2 % 1024, sec := field p 6 6, ns := field p 12 4, period := field p 16 4 })
    ∧ (∃ (dt : Nat) (tag : BitVec 16) (p : List Byte) (s : State) (x : State), s.willRun dt 0x0204 tag.toNat p ∧ x = s.asked dt 0x0204 tag.toNat p ∧ p.length = 1 ∧ field p 0 1 ≤ 15 ∧ (x.cmpUnit (field p 0 1)).armed = true) :=
  ⟨⟨(0), (15), ({ armed := true, epoch := true, sec := 1000 }), (locked.modCmp 15 (fun _ => { armed := true, epoch := true, sec := 1000 })), _, _, rfl, ⟨⟨by decide +kernel, by decide +kernel⟩, by decide +kernel⟩, by decide +kernel, by decide +kernel, by decide +kernel, rfl⟩,
   ⟨(0), (15), (lone), _, rfl, ⟨⟨by decide +kernel, by decide +kernel⟩, by decide +kernel⟩, by decide +kernel⟩,
   ⟨(0), (0), ([15#8, 0#8, 4#8, 1#8] ++ be 2 0 ++ be 6 0 ++ be 4 5 ++ be 4 0), _, (lone), _, executes_of (by decide +kernel), rfl, by decide +kernel, by decide +kernel, by decide +kernel, by decide +kernel, by decide +kernel, by decide +kernel, by decide +kernel, (by intro m h; rw [show cmpParamMax (field ([15#8, 0#8, 4#8, 1#8] ++ be 2 0 ++ be 6 0 ++ be 4 5 ++ be 4 0) 2 1) = none by decide +kernel] at h; cases h), rfl⟩,
   ⟨(0), (0), ([15#8]), (locked.modCmp 15 (fun _ => { armed := true, epoch := true, sec := 2000 })), _, executes_of (by decide +kernel), rfl, by decide +kernel, by decide +kernel, by decide +kernel⟩⟩

theorem met_NetworkTimeOpcodes :
    (∃ (dt : Nat) (tag : BitVec 16) (s : State) (x : State), s.willRun dt 0x0200 tag.toNat [] ∧ x = s.asked dt 0x0200 tag.toNat [])
    ∧ (∃ (dt : Nat) (tag : BitVec 16) (p : List Byte) (s : State) (x : State), s.willRun dt 0x0201 tag.toNat p ∧ x = s.asked dt 0x0201 tag.toNat p ∧ p.length = 13 ∧ field p 6 4 < 1000000000 ∧ field p 12 1 ≤ 1 ∧ (field p 12 1 = 1 ∨ (x.leads = true ∧ x.main.nt.servo ≠ .locked)) ∧ x.main.nt.msgs = [])
    ∧ (∃ (dt : Nat) (tag : BitVec 16) (p : List Byte) (s : State) (x : State), s.willRun dt 0x0202 tag.toNat p ∧ x = s.asked dt 0x0202 tag.toNat p ∧ p.length = 5 ∧ (toSigned 32 (field p 0 4)).natAbs ≤ 1000000000 ∧ field p 4 1 ≤ 1 ∧ (field p 4 1 = 1 ∨ (x.leads = true ∧ x.main.nt.servo ≠ .locked)))
    ∧ (∃ (dt : Nat) (tag : BitVec 16) (p : List Byte) (s : State) (x : State), s.willRun dt 0x0202 tag.toNat p ∧ x = s.asked dt 0x0202 tag.toNat p ∧ p.length = 5 ∧ (toSigned 32 (field p 0 4)).natAbs ≤ 1000000000 ∧ field p 4 1 = 0 ∧ (x.leads = false ∨ x.main.nt.servo = .locked))
    ∧ (∃ (x : State) (ns : Nat) (frac : Nat) (delta : Int), x.main.nt.servo = .locked ∧ delta = sat32 (((ns : Int) * 2 ^ 24 + frac - (x.main.nt.totalNs * 2 ^ 24 + x.main.nt.frac : Nat)).tdiv (2 ^ 24))) :=
  ⟨⟨(0), (0), (lone), _, executes_of (by decide +kernel), rfl⟩,
   ⟨(0), (0), (be 6 1 ++ be 4 999999999 ++ be 2 0 ++ [1#8]), (lone), _, executes_of (by decide +kernel), rfl, by decide +kernel, by decide +kernel, by decide +kernel, by decide +kernel, by decide +kernel⟩,
   ⟨(0), (0), (be 4 1000000000 ++ [1#8]), (lone), _, executes_of (by decide +kernel), rfl, by decide +kernel, by decide +kernel, by decide +kernel, by decide +kernel⟩,
   ⟨(0), (0), (be 4 0 ++ [0#8]), (locked), _, executes_of (by decide +kernel), rfl, by decide +kernel, by decide +kernel, by decide +kernel, by decide +kernel⟩,
   ⟨(locked), (1), (0), _, by decide +kernel, rfl⟩⟩

theorem met_MainsAngle :
    (∃ (dt : Nat) (p : Nat) (peak : Nat) (rising : Bool) (s : State) (x : State), x = s.at dt ∧ x.blocksRun ∧ x.main.ma.running = true ∧ x.phaseOn p = true ∧ x.fld 0x030004 15 8 < peak ∧ (peak < 64 ∨ ((x.phase p).present = true ∧ x.main.ma.st = .locked ∧ x.inWindow p rising = false)))
    ∧ (∃ (dt : Nat) (p : Nat) (peak : Nat) (e : Int) (s : State) (x : State) (y : State), x = s.at dt ∧ x.blocksRun ∧ x.main.ma.running = true ∧ x.phaseOn p = true ∧ x.fld 0x030004 15 8 < peak ∧ 64 ≤ peak ∧ (x.phase p).present = true ∧ x.main.ma.st = .locked ∧ x.main.ma.loop = none ∧ x.inWindow p false = true ∧ p = x.refPhase ∧ p = x.main.ma.loopPhase ∧ e = sdiff 16 0x8000 x.angle ∧ y = (x.modPhase p (fun q => { q with missed := 0, lastCross := some x.now, lastRising := false, half := x.nearHalf p })))
    ∧ (∃ (dt : Nat) (p : Nat) (s : State) (x : State), x = s.at dt ∧ x.blocksRun ∧ x.main.ma.st = .locked ∧ x.phaseOn p = true ∧ (x.phase p).present = true ∧ 0 < sdiff 33 (x.closedHalf p) (x.phase p).half ∧ (x.phase p).missed = 0)
    ∧ (∃ (dt : Nat) (p : Nat) (s : State) (x : State) (y : State), x = s.at dt ∧ x.blocksRun ∧ x.main.ma.st = .locked ∧ x.phaseOn p = true ∧ (x.phase p).present = true ∧ 0 < sdiff 33 (x.closedHalf p) (x.phase p).half ∧ 1 ≤ (x.phase p).missed ∧ y = (((x.modPhase p (fun q => { q with present := false, missed := 0, halves := [], lastCross := none, lostAt := some x.now })).notify 0x0303 false [byte p, 0#8])).relocate)
    ∧ (∃ (dt : Nat) (p : Nat) (s : State) (x : State), x = s.at dt ∧ x.blocksRun ∧ x.main.ma.running = true ∧ x.phaseOn p = true)
    ∧ (∃ (dt : Nat) (s : State) (x : State), x = s.at dt ∧ x.blocksRun ∧ x.main.ma.st = .phantom ∧ x.main.ma.since + x.fld 0x030004 31 24 * secT ≤ x.now)
    ∧ (∃ (dt : Nat) (s : State) (x : State), x = s.at dt ∧ x.blocksRun ∧ x.main.ma.running = true ∧ x.main.ma.st = .absent ∧ x.main.ma.since + secT ≤ x.now)
    ∧ (∃ (dt : Nat) (tag : BitVec 16) (s : State) (x : State), s.willRun dt 0x0300 tag.toNat [] ∧ x = s.asked dt 0x0300 tag.toNat [])
    ∧ (∃ (dt : Nat) (tag : BitVec 16) (p : List Byte) (s : State) (x : State), s.willRun dt 0x0303 tag.toNat p ∧ x = s.asked dt 0x0303 tag.toNat p ∧ p.length = 1 ∧ field p 0 1 ≤ 2) :=
  ⟨⟨(0), (0), (63), (false), ((mains 5 0).setFld 0x030004 15 8 62), _, rfl, ⟨⟨by decide +kernel, by decide +kernel⟩, by decide +kernel⟩, by decide +kernel, by decide +kernel, by decide +kernel, by decide +kernel⟩,
   ⟨(0), (0), (64), _, ((mains 5 0x8000).setFld 0x030004 15 8 62), _, _, rfl, ⟨⟨by decide +kernel, by decide +kernel⟩, by decide +kernel⟩, by decide +kernel, by decide +kernel, by decide +kernel, by decide +kernel, by decide +kernel, by decide +kernel, by decide +kernel, by decide +kernel, by decide +kernel, by decide +kernel, rfl, rfl⟩,
   ⟨(0), (0), (mains 5 0), _, rfl, ⟨⟨by decide +kernel, by decide +kernel⟩, by decide +kernel⟩, by decide +kernel, by decide +kernel, by decide +kernel, by decide +kernel, by decide +kernel⟩,
   ⟨(0), (0), ((mains 5 0).modPhase 0 (fun q => { q with missed := 1 })), _, _, rfl, ⟨⟨by decide +kernel, by decide +kernel⟩, by decide +kernel⟩, by decide +kernel, by decide +kernel, by decide +kernel, by decide +kernel, by decide +kernel, rfl⟩,
   ⟨(0), (2), ((mains 5 0).setFld 0x030004 6 6 1), _, rfl, ⟨⟨by decide +kernel, by decide +kernel⟩, by decide +kernel⟩, by decide +kernel, by decide +kernel⟩,
   ⟨(0), ((mains 5 0).modMa (fun m => { m with st := .phantom })), _, rfl, ⟨⟨by decide +kernel, by decide +kernel⟩, by decide +kernel⟩, by decide +kernel, by decide +kernel⟩,
   ⟨(0), ((mains 5 0).modMa (fun m => { m with st := .absent })), _, rfl, ⟨⟨by decide +kernel, by decide +kernel⟩, by decide +kernel⟩, by decide +kernel, by decide +kernel, by decide +kernel⟩,
   ⟨(0), (0), (lone), _, executes_of (by decide +kernel), rfl⟩,
   ⟨(0), (0), ([2#8]), (lone), _, executes_of (by decide +kernel), rfl, by decide +kernel, by decide +kernel⟩⟩

theorem met_Schedule :
    (∃ (dt : Nat) (n : Nat) (i : Nat) (c0 : Nat) (c1 : Nat) (r : Nat) (s : State) (x : State), x = s.at dt ∧ x.blocksRun ∧ n < 512 ∧ x.entIssue n = some i ∧ x.reached i = true ∧ x.main.boot.local9 = true ∧ x.main.ma.st = .locked ∧ x.entCfg n = (c0, c1) ∧ bits c0 15 12 = 1 ∧ r = bits c0 3 0 ∧ x.quarantined = false ∧ x.bit (0x030040 + 4 * r) 0 = true ∧ x.relayHigh r = false ∧ (∀ q < 16, q ≠ r → (x.partners r q || x.partners q r) = true → x.relayHigh q = false))
    ∧ (∃ (dt : Nat) (n : Nat) (i : Nat) (s : State) (x : State), x = s.at dt ∧ x.blocksRun ∧ n < 512 ∧ x.entIssue n = some i ∧ x.reached i = true ∧ x.main.ma.angleValid = false)
    ∧ (∃ (x : State) (n : Nat) (c : Nat) (c1 : Nat), x.entContact n = some c ∧ (x.ent n).cfg = none ∧ (x.ent n).tag = none ∧ (x.ent n).extra = none ∧ 0 < bits c1 31 16 ∧ bitOf c1 11 = false)
    ∧ (∃ (dt : Nat) (r : Nat) (t : Nat) (s : State) (x : State), x = s.at dt ∧ at? x.pulses r none = some t ∧ t ≤ x.now)
    ∧ (∃ (dt : Nat) (r : Nat) (t : Nat) (s : State) (x : State), x = s.at dt ∧ at? x.pulses r none = some t ∧ x.now < t)
    ∧ (∃ (dt : Nat) (n : Nat) (cfg : Nat) (s : State) (x : State), x = s.at dt ∧ x.blocksRun ∧ n < 512 ∧ cfg < 2)
    ∧ (∃ (dt : Nat) (n : Nat) (tag : BitVec 16) (s : State) (x : State), s.willRun dt 0x0301 tag.toNat (be 2 n) ∧ x = s.asked dt 0x0301 tag.toNat (be 2 n) ∧ n < 512 ∧ bitOf (x.entCfg n).2 15 = true ∧ (x.ent n).armed = false ∧ (x.ent n).contact = none)
    ∧ (∃ (dt : Nat) (n : Nat) (tag : BitVec 16) (s : State) (x : State), s.willRun dt 0x0301 tag.toNat (be 2 n) ∧ x = s.asked dt 0x0301 tag.toNat (be 2 n) ∧ n < 512 ∧ bitOf (x.entCfg n).2 15 = true ∧ (x.ent n).armed = false ∧ (x.ent n).contact.isSome = true ∧ x.main.ma.angleValid = true ∧ x.entContact n ≠ some (x.nextContact n))
    ∧ (∃ (dt : Nat) (r : Nat) (ph : Nat) (ang : Nat) (tag : BitVec 16) (p : List Byte) (s : State) (x : State), s.willRun dt 0x0302 tag.toNat p ∧ x = s.asked dt 0x0302 tag.toNat p ∧ p = [byte r, 1#8, byte ph, 0#8] ++ be 2 ang ∧ r < 16 ∧ ph < 3 ∧ ang < 65536 ∧ x.main.ma.angleValid = true ∧ (at? x.main.ma.relays r {}).pulse = none)
    ∧ (∃ (dt : Nat) (r : Nat) (tag : BitVec 16) (p : List Byte) (s : State) (x : State) (y : State), s.willRun dt 0x0302 tag.toNat p ∧ x = s.asked dt 0x0302 tag.toNat p ∧ p = [byte r, 0#8, 0#8, 0#8, 0#8, 0#8] ∧ r < 16 ∧ x.quarantined = false ∧ (at? x.main.ma.relays r {}).pulse = none ∧ y = x.modMa (fun m => { m with relays := m.relays.modify r (fun q => { q with pulse := none }) })) :=
  ⟨⟨(0), (511), _, (0x1000), (0x8000), (0), (entrySet), _, rfl, ⟨⟨by decide +kernel, by decide +kernel⟩, by decide +kernel⟩, by decide +kernel, some_get (by decide +kernel), by decide +kernel, by decide +kernel, by decide +kernel, by decide +kernel, by decide +kernel, by decide +kernel, by decide +kernel, by decide +kernel, by decide +kernel, by decide +kernel⟩,
   ⟨(0), (511), _, (entrySet.modMa (fun m => { m with st := .absent, base := .absent })), _, rfl, ⟨⟨by decide +kernel, by decide +kernel⟩, by decide +kernel⟩, by decide +kernel, some_get (by decide +kernel), by decide +kernel, by decide +kernel⟩,
   ⟨(entrySet), (511), _, (0x00018000), some_get (by decide +kernel), by decide +kernel, by decide +kernel, by decide +kernel, by decide +kernel, by decide +kernel⟩,
   ⟨(0), (15), (2 ^ 50), ({ lone with pulses := List.replicate 16 (some (2 ^ 50)) }), _, rfl, by decide +kernel, by decide +kernel⟩,
   ⟨(0), (15), (2 ^ 50 + 1), ({ lone with pulses := List.replicate 16 (some (2 ^ 50 + 1)) }), _, rfl, by decide +kernel, by decide +kernel⟩,
   ⟨(0), (511), (1), (lone), _, rfl, ⟨⟨by decide +kernel, by decide +kernel⟩, by decide +kernel⟩, by decide +kernel, by decide +kernel⟩,
   ⟨(0), (511), (0), (lone.setWord (entReg 511 + 4) 0x8000), _, executes_of (by decide +kernel), rfl, by decide +kernel, by decide +kernel, by decide +kernel, by decide +kernel⟩,
   ⟨(0), (511), (0), (((mains 5 0).setWord (entReg 511 + 4) 0x8000).modEnt 511 (fun e => { e with contact := some 1 })), _, executes_of (by decide +kernel), rfl, by decide +kernel, by decide +kernel, by decide +kernel, by decide +kernel, by decide +kernel, by decide +kernel⟩,
   ⟨(0), (15), (2), (65535), (0), _, (mains 5 0), _, executes_of (by decide +kernel), rfl, rfl, by decide +kernel, by decide +kernel, by decide +kernel, by decide +kernel, by decide +kernel⟩,
   ⟨(0), (15), (0), _, (lone), _, _, executes_of (by decide +kernel), rfl, rfl, by decide +kernel, by decide +kernel, by decide +kernel, rfl⟩⟩

theorem met_LaneSignal :
    (∃ (dt : Nat) (n : Nat) (s : State) (x : State) (y : State), x = s.at dt ∧ x.blocksRun ∧ x.laneOn n = true ∧ (x.lane n).det = false ∧ (x.lane n).sdLow = false ∧ (x.lane n).lol = false ∧ (x.lane n).lolNew = false ∧ y = (((x.modLane n (fun l => { l with det := true })).count (lnErr n) 15 8).latchFld (lnStat n) 5 5 1).lolDeclared n)
    ∧ (∃ (dt : Nat) (n : Nat) (s : State) (x : State) (y : State), x = s.at dt ∧ x.blocksRun ∧ n < 2 ∧ x.laneOn n = true ∧ (x.lane n).det = false ∧ (x.lane n).sdLow = false ∧ (x.lane n).lol = true ∧ (x.lane n).lolNew = false ∧ y = (((x.modLane n (fun l => { l with sdLow := true })).count (lnErr n) 15 8).latchFld (lnStat n) 5 5 1).lolDeclared n)
    ∧ (∃ (n : Nat) (x : State), (x.lane n).lol = false)
    ∧ (∃ (dt : Nat) (n : Nat) (s : State) (x : State) (y : State), x = s.at dt ∧ x.blocksRun ∧ x.laneOn n = true ∧ (x.lane n).det = true ∧ (x.lane n).sdLow = false ∧ n < x.main.ln.lanes.length ∧ y = (x.modLane n (fun l => { l with det := false })).notify 0x0401 false [byte n, byte 5])
    ∧ (∃ (dt : Nat) (n : Nat) (s : State) (x : State), x = s.at dt ∧ x.blocksRun ∧ (x.lane n).det = true ∧ (x.lane n).sdLow = true ∧ n < x.main.ln.lanes.length)
    ∧ (∃ (dt : Nat) (n : Nat) (off : Int) (s : State) (x : State) (y : State), x = s.at dt ∧ x.blocksRun ∧ x.laneOn n = true ∧ (x.lane n).los = false ∧ (x.lane n).lol = true ∧ (x.lane n).locked = false ∧ 1 ≤ (x.lane n).good ∧ -2500 ≤ off ∧ off ≤ 2500 ∧ x.fld (lnCfg n) 30 29 = 0 ∧ x.main.ln.pllHold = false ∧ y = (x.modLane n (fun l => { l with foff := off, lolNew := false })).countN (lnErr n) 31 16 0)
    ∧ (∃ (dt : Nat) (n : Nat) (cv : Nat) (off : Int) (s : State) (x : State) (y : State), x = s.at dt ∧ x.blocksRun ∧ x.laneOn n = true ∧ (x.lane n).los = false ∧ 5000 < off ∧ off ≤ 32767 ∧ 0 < cv ∧ y = (x.modLane n (fun l => { l with foff := off, lolNew := false, cleanSince := l.cleanSince.map (fun _ => x.now) })).countN (lnErr n) 31 16 cv ∧ (x.lane n).lol = false)
    ∧ (∃ (dt : Nat) (n : Nat) (s : State) (x : State) (y : State), x = s.at dt ∧ x.blocksRun ∧ n < 2 ∧ x.inBurst n = false ∧ x.bit 0x040000 n = false ∧ y = x.modLane n (fun l => { l with rogueAt := some x.now }))
    ∧ (∃ (dt : Nat) (lanes : BitVec 9) (ls : List Nat) (s : State) (x : State) (y : State), x = s.at dt ∧ x.blocksRun ∧ ls = (List.range 9).filter (fun n => bitOf lanes.toNat n && x.laneOn n) ∧ ls ≠ [] ∧ y = (ls.foldl (fun z n => (if (z.lane n).lolNew then z.lolDeclared n else (z.lolDeclared n).notify 0x0401 false [byte n, byte 2]).laneFailed n true false none) x).ash 0x04 0x03 (be 2 ((ls.map (fun n => 2 ^ n)).sum)))
    ∧ (∃ (x : State), x.main.ln.pllHold = true)
    ∧ (∃ (dt : Nat) (tag : BitVec 16) (p : List Byte) (s : State) (x : State), s.willRun dt 0x0402 tag.toNat p ∧ x = s.asked dt 0x0402 tag.toNat p ∧ p.length = 1 ∧ field p 0 1 ≤ 1 ∧ (∀ t, (x.lane (field p 0 1)).rogueAt = some t → t + msT ≤ x.now))
    ∧ (∃ (dt : Nat) (tag : BitVec 16) (p : List Byte) (t : Nat) (s : State) (x : State), s.willRun dt 0x0402 tag.toNat p ∧ x = s.asked dt 0x0402 tag.toNat p ∧ p.length = 1 ∧ field p 0 1 ≤ 1 ∧ (x.lane (field p 0 1)).rogueAt = some t ∧ x.now < t + msT)
    ∧ (∃ (n : Nat) (s : State), n < 2 ∧ s.railsGood = true ∧ (n ≠ s.main.td.active ∧ (∀ b, s.main.up.current = some b → b.lane ≠ n) ∨ s.main.sk.isLead = false ∨ s.hardFloor = true ∨ s.bit 0x040000 n = true ∨ s.main.ln.pllHold = true ∨ s.hearth.ps = .smoulder)) :=
  ⟨⟨(0), (8), (withLane lone 8), _, _, rfl, ⟨⟨by decide +kernel, by decide +kernel⟩, by decide +kernel⟩, by decide +kernel, by decide +kernel, by decide +kernel, by decide +kernel, by decide +kernel, rfl⟩,
   ⟨(0), (1), ((withLane lone 1).modLane 1 (fun l => { l with locked := false, lol := true })), _, _, rfl, ⟨⟨by decide +kernel, by decide +kernel⟩, by decide +kernel⟩, by decide +kernel, by decide +kernel, by decide +kernel, by decide +kernel, by decide +kernel, by decide +kernel, rfl⟩,
   ⟨(8), (lone), by decide +kernel⟩,
   ⟨(0), (8), ((withLane lone 8).modLane 8 (fun l => { l with det := true })), _, _, rfl, ⟨⟨by decide +kernel, by decide +kernel⟩, by decide +kernel⟩, by decide +kernel, by decide +kernel, by decide +kernel, by decide +kernel, rfl⟩,
   ⟨(0), (1), ((withLane lone 1).modLane 1 (fun l => { l with det := true, sdLow := true })), _, rfl, ⟨⟨by decide +kernel, by decide +kernel⟩, by decide +kernel⟩, by decide +kernel, by decide +kernel, by decide +kernel⟩,
   ⟨(0), (8), (2500), ((withLane lone 8).modLane 8 (fun l => { l with lol := true, locked := false, good := 1 })), _, _, rfl, ⟨⟨by decide +kernel, by decide +kernel⟩, by decide +kernel⟩, by decide +kernel, by decide +kernel, by decide +kernel, by decide +kernel, by decide +kernel, by decide +kernel, by decide +kernel, by decide +kernel, by decide +kernel, rfl⟩,
   ⟨(0), (8), (1), (5001), (withLane lone 8), _, _, rfl, ⟨⟨by decide +kernel, by decide +kernel⟩, by decide +kernel⟩, by decide +kernel, by decide +kernel, by decide +kernel, by decide +kernel, by decide +kernel, rfl, by decide +kernel⟩,
   ⟨(0), (1), (withLane lone 1), _, _, rfl, ⟨⟨by decide +kernel, by decide +kernel⟩, by decide +kernel⟩, by decide +kernel, by decide +kernel, by decide +kernel, rfl⟩,
   ⟨(0), (0x1FF), _, (withLane lone 8), _, _, rfl, ⟨⟨by decide +kernel, by decide +kernel⟩, by decide +kernel⟩, rfl, by decide +kernel, rfl⟩,
   ⟨({ lone with main := { lone.main with ln := { lone.main.ln with pllHold := true } } }), by decide +kernel⟩,
   ⟨(0), (0), ([1#8]), (lone), _, executes_of (by decide +kernel), rfl, by decide +kernel, by decide +kernel, (by intro t h; cases h)⟩,
   ⟨(0), (0), ([1#8]), (2 ^ 50), (lone.modLane 1 (fun l => { l with rogueAt := some (2 ^ 50) })), _, executes_of (by decide +kernel), rfl, by decide +kernel, by decide +kernel, by decide +kernel, by decide +kernel⟩,
   ⟨(1), (follower), by decide +kernel, by decide +kernel, Or.inr (Or.inl (by decide +kernel))⟩⟩

theorem met_LaneSparing :
    (∃ (dt : Nat) (n : Nat) (cv : Nat) (s : State) (x : State), x = s.at dt ∧ x.blocksRun ∧ x.laneOn n = true ∧ x.bit 0x040008 0 = true ∧ (∀ k i, linkOfLane n = some (k, i) → (x.link k).st ≠ .training) ∧ x.fld 0x040008 31 24 < cv)
    ∧ (∃ (dt : Nat) (n : Nat) (cv : Nat) (k : Nat) (i : Nat) (s : State) (x : State), x = s.at dt ∧ x.blocksRun ∧ x.laneOn n = true ∧ linkOfLane n = some (k, i) ∧ (x.link k).st = .training ∧ 0 < cv)
    ∧ (∃ (x : State) (n : Nat) (k : Nat) (i : Nat) (force : Bool), linkOfLane n = some (k, i) ∧ x.laneRole k i < 2 ∧ (x.swap k).rx = none ∧ x.spareValid k = true ∧ (x.bit 0x040008 0 = true ∨ force = true))
    ∧ (∃ (x : State) (n : Nat) (k : Nat) (i : Nat) (pos : Nat) (o : Option Nat), linkOfLane n = some (k, i) ∧ x.laneRole k i = pos ∧ (x.swap k).rx = some (pos, o))
    ∧ (∃ (id : Nat) (ctrl : Nat), id < 4 ∧ ctrl < 16 ∧ ctrl % 2 = 0)
    ∧ (∃ (x : State) (k : Nat) (pos : Nat) (op : Option Nat), (x.swap k).rx = some (pos, op))
    ∧ (∃ (dt : Nat) (k : Nat) (i : Nat) (skew : Nat) (pos : Nat) (id : Nat) (symbols : List Nat) (s : State) (x : State) (y : State), x = s.at dt ∧ x.blocksRun ∧ k < 2 ∧ i < 3 ∧ skew ≤ 64 ∧ x.laneOn (laneOf k i) = true ∧ markerOf symbols = some (id, 8 + 2 * pos) ∧ pos < 2 ∧ (x.swap k).rx = none ∧ 1 ≤ (at? (x.swap k).req i (0, 0)).2 ∧ (at? (x.swap k).req i (0, 0)).1 = pos ∧ (x.swap k).accepted = false ∧ y = x.modSwap k (fun w => { w with req := w.req.set i (pos, (at? (x.swap k).req i (0, 0)).2 + 1) }))
    ∧ (∃ (dt : Nat) (k : Nat) (i : Nat) (skew : Nat) (pos : Nat) (op : Option Nat) (symbols : List Nat) (s : State) (x : State) (y : State), x = s.at dt ∧ x.blocksRun ∧ k < 2 ∧ i < 3 ∧ skew ≤ 64 ∧ x.laneOn (laneOf k i) = true ∧ markerOf symbols = some (pos, 0) ∧ pos < 2 ∧ (x.swap k).rx = some (pos, op) ∧ i = mapLane (x.rxMap k) 2 ∧ y = x.modSwap k (fun w => { w with req := List.replicate 3 (0, 0), accepted := false }))
    ∧ (∃ (dt : Nat) (n : Nat) (k : Nat) (i : Nat) (t : Nat) (s : State) (x : State), x = s.at dt ∧ x.blocksRun ∧ linkOfLane n = some (k, i) ∧ (x.lane n).cleanSince = some t ∧ x.laneLocked n = true ∧ x.laneRole k i = 3 ∧ (x.swap k).rx = none ∧ t + x.fld 0x040008 23 16 * secT ≤ x.now)
    ∧ (∃ (dt : Nat) (s : State) (x : State) (y : State), x = s.at dt ∧ x.blocksRun ∧ x.fld 0x040008 15 8 ≠ 0 ∧ x.main.ln.eyeAt + x.fld 0x040008 15 8 * 60 * secT ≤ x.now ∧ y = (List.range 9).foldl (fun z n => if z.laneLocked n ∧ (z.lane n).eye = none then z.modLane n (fun l => { l with eye := some { op := none, mode := 0 } }) else z) x)
    ∧ (∃ (dt : Nat) (n : Nat) (op : Nat) (phase : List Nat) (volt : List Nat) (e : Eye) (s : State) (x : State), x = s.at dt ∧ x.blocksRun ∧ (x.lane n).eye = some e ∧ e.op = some op ∧ e.covers phase volt = true)
    ∧ (∃ (dt : Nat) (n : Nat) (h : Nat) (phase : List Nat) (volt : List Nat) (e : Eye) (s : State) (x : State), x = s.at dt ∧ x.blocksRun ∧ (x.lane n).eye = some e ∧ e.op = none ∧ e.covers phase volt = true ∧ h = opening phase 32 ∧ x.bit 0x040008 1 = false)
    ∧ (∃ (dt : Nat) (n : Nat) (h : Nat) (k : Nat) (i : Nat) (phase : List Nat) (volt : List Nat) (e : Eye) (s : State) (x : State), x = s.at dt ∧ x.blocksRun ∧ (x.lane n).eye = some e ∧ e.op = none ∧ e.covers phase volt = true ∧ h = opening phase 32 ∧ h < x.fld 0x040008 7 2 ∧ linkOfLane n = some (k, i) ∧ x.laneRole k i < 2 ∧ x.bit 0x040008 1 = true ∧ x.bit 0x040008 0 = true)
    ∧ (∃ (dt : Nat) (tag : BitVec 16) (s : State) (x : State), s.willRun dt 0x0400 tag.toNat [] ∧ x = s.asked dt 0x0400 tag.toNat [])
    ∧ (∃ (dt : Nat) (tag : BitVec 16) (p : List Byte) (e : Eye) (s : State) (x : State), s.willRun dt 0x0401 tag.toNat p ∧ x = s.asked dt 0x0401 tag.toNat p ∧ p.length = 5 ∧ field p 0 1 ≤ 8 ∧ field p 1 1 ≤ 1 ∧ 16 ≤ field p 2 1 ∧ field p 2 1 ≤ 30 ∧ -32 ≤ toSigned 8 (field p 3 1) ∧ toSigned 8 (field p 3 1) ≤ 32 ∧ -63 ≤ toSigned 8 (field p 4 1) ∧ toSigned 8 (field p 4 1) ≤ 63 ∧ x.laneLocked (field p 0 1) = true ∧ (x.lane (field p 0 1)).eye = none ∧ e = ⟨some x.lastOp, field p 1 1, field p 2 1, toSigned 8 (field p 3 1), toSigned 8 (field p 4 1)⟩)
    ∧ (∃ (dt : Nat) (k : Nat) (pos : Nat) (tag : BitVec 16) (p : List Byte) (s : State) (x : State), s.willRun dt 0x0403 tag.toNat p ∧ x = s.asked dt 0x0403 tag.toNat p ∧ p = [byte k, byte pos] ∧ k < 2 ∧ pos < 2 ∧ x.spareValid k = true ∧ (x.swap k).rx = none) :=
  ⟨⟨(0), (7), (255), ((withLane bothUp 7).setFld 0x040008 0 0 1), _, rfl, ⟨⟨by decide +kernel, by decide +kernel⟩, by decide +kernel⟩, by decide +kernel, by decide +kernel, (by intro k i h; cases Option.some.inj (h.symm.trans (by decide : linkOfLane 7 = some (1, 2))); decide +kernel), by decide +kernel⟩,
   ⟨(0), (7), (1), (1), (2), (withLane (linkIn .training) 7), _, rfl, ⟨⟨by decide +kernel, by decide +kernel⟩, by decide +kernel⟩, by decide +kernel, by decide +kernel, by decide +kernel, by decide +kernel⟩,
   ⟨(lone), (2), (0), (0), (true), by decide +kernel, by decide +kernel, by decide +kernel, by decide +kernel, by decide +kernel⟩,
   ⟨(lone.modSwap 1 (fun w => { w with rx := some (1, none) })), (6), (1), (1), (1), (none), by decide +kernel, by decide +kernel, by decide +kernel⟩,
   ⟨(3), (14), by decide +kernel, by decide +kernel, by decide +kernel⟩,
   ⟨(lone.modSwap 1 (fun w => { w with rx := some (1, none) })), (1), (1), (none), by decide +kernel⟩,
   ⟨(0), (1), (2), (64), (1), (2), ([k28_5, 2, 10, k28_0]), ((withLane bothUp 7).modSwap 1 (fun w => { w with req := List.replicate 3 (1, 1) })), _, _, rfl, ⟨⟨by decide +kernel, by decide +kernel⟩, by decide +kernel⟩, by decide +kernel, by decide +kernel, by decide +kernel, by decide +kernel, by decide +kernel, by decide +kernel, by decide +kernel, by decide +kernel, by decide +kernel, by decide +kernel, rfl⟩,
   ⟨(0), (1), (2), (64), (1), (none), ([k28_5, 1, 0]), ((withLane bothUp 7).modSwap 1 (fun w => { w with rx := some (1, none) })), _, _, rfl, ⟨⟨by decide +kernel, by decide +kernel⟩, by decide +kernel⟩, by decide +kernel, by decide +kernel, by decide +kernel, by decide +kernel, by decide +kernel, by decide +kernel, by decide +kernel, by decide +kernel, rfl⟩,
   ⟨(0), (3), (0), (1), (0), ((withLane bothUp 3).setMap 0 0x20 0x1A), _, rfl, ⟨⟨by decide +kernel, by decide +kernel⟩, by decide +kernel⟩, by decide +kernel, by decide +kernel, by decide +kernel, by decide +kernel, by decide +kernel, by decide +kernel⟩,
   ⟨(0), (lone.setFld 0x040008 15 8 1), _, _, rfl, ⟨⟨by decide +kernel, by decide +kernel⟩, by decide +kernel⟩, by decide +kernel, by decide +kernel, rfl⟩,
   ⟨(0), (8), (7), (List.replicate 65 0), (List.replicate 127 0), ({ op := some 7, mode := 0 }), (lone.modLane 8 (fun l => { l with eye := some { op := some 7, mode := 0 } })), _, rfl, ⟨⟨by decide +kernel, by decide +kernel⟩, by decide +kernel⟩, by decide +kernel, by decide +kernel, by decide +kernel⟩,
   ⟨(0), (8), _, (List.replicate 65 0), ([]), ({ op := none, mode := 0 }), ((lone.modLane 8 (fun l => { l with eye := some { op := none, mode := 0 } })).setFld 0x040008 1 1 0), _, rfl, ⟨⟨by decide +kernel, by decide +kernel⟩, by decide +kernel⟩, by decide +kernel, by decide +kernel, by decide +kernel, rfl, by decide +kernel⟩,
   ⟨(0), (6), _, (1), (1), (List.replicate 65 1), ([]), ({ op := none, mode := 0 }), ((lone.modLane 6 (fun l => { l with eye := some { op := none, mode := 0 } })).setFld 0x040008 7 0 255), _, rfl, ⟨⟨by decide +kernel, by decide +kernel⟩, by decide +kernel⟩, by decide +kernel, by decide +kernel, by decide +kernel, rfl, by decide +kernel, by decide +kernel, by decide +kernel, by decide +kernel, by decide +kernel⟩,
   ⟨(0), (0), (lone), _, executes_of (by decide +kernel), rfl⟩,
   ⟨(0), (0), ([8#8, 1#8, 30#8, 32#8, 0xC1#8]), _, (withLane lone 8), _, executes_of (by decide +kernel), rfl, by decide +kernel, by decide +kernel, by decide +kernel, by decide +kernel, by decide +kernel, by decide +kernel, by decide +kernel, by decide +kernel, by decide +kernel, by decide +kernel, by decide +kernel, rfl⟩,
   ⟨(0), (1), (1), (0), _, (lone), _, executes_of (by decide +kernel), rfl, rfl, by decide +kernel, by decide +kernel, by decide +kernel, by decide +kernel⟩⟩

theorem met_TreeFrames :
    (∃ (dt : Nat) (k : Nat) (bytes : List Byte) (i : FrameId) (s : State) (x : State), x = s.at dt ∧ x.blocksRun ∧ k < 2 ∧ k ≠ x.main.td.active ∧ x.main.td.miss = none ∧ x.watched k = true ∧ bytes.length = 40000 ∧ (x.tdLane k).st = .hunt ∧ syncErrors bytes = 0 ∧ bodyId (scramble (bytes.drop 4)) = some i ∧ x.fld 0x050000 18 15 ≠ 1)
    ∧ (∃ (dt : Nat) (k : Nat) (bytes : List Byte) (b : List Byte) (s : State) (x : State) (y : State), x = s.at dt ∧ x.blocksRun ∧ k < 2 ∧ x.main.td.miss = none ∧ x.watched k = true ∧ bytes.length = 40000 ∧ (x.tdLane k).st ≠ .hunt ∧ (x.tdLane k).at_ + 40000 = x.now ∧ b = scramble (bytes.drop 4) ∧ y = (if k = x.main.td.active ∧ x.smouldering = false then x.drainMessages 64 else x).timedFrame k x.now (decide (syncErrors bytes ≤ x.fld 0x050000 14 13)) (bodyId b) b ∧ (if k = x.main.td.active ∧ x.smouldering = false then x.drainMessages 64 else x).fld 0x050000 14 13 = x.fld 0x050000 14 13 ∧ (if k = x.main.td.active ∧ x.smouldering = false then x.drainMessages 64 else x).now = x.now)
    ∧ (∃ (dt : Nat) (k : Nat) (s : State) (x : State), x = s.at dt ∧ x.blocksRun ∧ k < 2 ∧ k ≠ x.main.td.active ∧ x.main.td.miss = none ∧ (x.tdLane k).st ≠ .hunt ∧ (x.tdLane k).at_ + 40000 ≠ x.now)
    ∧ (∃ (x : State) (y : State) (k : Nat) (t : Nat) (i : FrameId), (x.tdLane k).st = .confirm ∧ i.sfc = ((x.tdLane k).sfc + 1) % 2 ^ 30 ∧ y = x.modTdLane k (fun l => { l with at_ := t }))
    ∧ (∃ (x : State) (k : Nat), (x.tdLane k).st = .confirm)
    ∧ (∃ (x : State) (y : State) (k : Nat) (t : Nat) (e : Nat), (x.tdLane k).st = .locked ∧ e = ((x.tdLane k).sfc + 1) % 2 ^ 30 ∧ y = (x.modTdLane k (fun l => { l with at_ := t })).modTdLane k (fun l => { l with errs := 0 }))
    ∧ (∃ (x : State) (y : State) (k : Nat) (t : Nat) (near : Bool) (i : Option FrameId), (x.tdLane k).st = .locked ∧ (near = false ∨ i = none) ∧ k ≠ x.main.td.active ∧ x.fld 0x050000 23 19 ≤ (x.tdLane k).errs + 1 ∧ y = x.modTdLane k (fun l => { l with at_ := t }))
    ∧ (∃ (x : State) (y : State) (k : Nat) (t : Nat) (near : Bool) (i : Option FrameId), (x.tdLane k).st = .locked ∧ (near = false ∨ i = none) ∧ (x.tdLane k).errs + 1 < x.fld 0x050000 23 19 ∧ y = x.modTdLane k (fun l => { l with at_ := t }))
    ∧ (∃ (x : State) (k : Nat), (x.tdLane k).st = .locked ∧ (k ≠ x.main.td.active ∨ x.main.sk.isLead = false))
    ∧ (∃ (x : State) (k : Nat), (x.tdLane k).st ≠ .hunt ∧ x.watched k = true ∧ (x.tdLane k).at_ + 40000 < x.now)
    ∧ (∃ (e : Nat) (i : FrameId), i.sfc = e)
    ∧ (∃ (x : State) (k : Nat) (e : Nat) (i : FrameId), i.sfc ≠ e ∧ k ≠ x.main.td.active)
    ∧ (∃ (x : State) (y : State) (z : State) (w : State) (k : Nat) (t : Nat) (i : FrameId) (b : List Byte) (d : Body), k = x.main.td.active ∧ x.main.sk.isLead = true ∧ (x.tdLane k).version = i.version ∧ d = decodeBody i.fec b ∧ y = (x.seeSrq k i).modTdLane k (fun l => { l with version := i.version }) ∧ z = ((y.countN (0x050100 + 32 * k + 4) 31 0 d.bytes).countN (0x050100 + 32 * k + 8) 31 16 d.cws).countN (0x050100 + 32 * k + 8) 15 0 d.bad ∧ w = z.latchFrame (z.tdLane k).sfc (z.now - t) ∧ w.main.td.frameAt < w.now)
    ∧ (∃ (x : State) (i : FrameId) (d : Body) (f : FrameRest), x.main.td.lost = false ∧ x.main.tm.st ≠ .operation ∧ x.main.tm.doze = none ∧ x.smouldering = false ∧ f = ⟨i, x.now, x.stampPoint, 16, d.data.drop 16, d.lost, none⟩ ∧ f.hit (8 * i.gm) = false)
    ∧ (∃ (dt : Nat) (t : Nat) (s : State) (x : State), x = s.at dt ∧ x.blocksRun ∧ x.main.td.miss = some t ∧ t ≤ x.now)
    ∧ (∃ (dt : Nat) (n : Nat) (s : State) (x : State), x = s.at dt ∧ x.blocksRun ∧ n < 4096)
    ∧ (∃ (x : State) (n : Nat) (old : Nat) (r : Reasm), (x.main.td.reasm.find? (fun r => r.port == n)) = some r ∧ bits (x.tdPort n) 24 20 ≠ bits old 24 20)
    ∧ (∃ (dt : Nat) (tag : BitVec 16) (s : State) (x : State), s.willRun dt 0x0500 tag.toNat [] ∧ x = s.asked dt 0x0500 tag.toNat []) :=
  ⟨⟨(0), (1), (frame 7), (frameId 7), (watch1 .hunt), _, rfl, ⟨⟨by decide +kernel, by decide +kernel⟩, by decide +kernel⟩, by decide +kernel, by decide +kernel, by decide +kernel, by decide +kernel, by decide +kernel, by decide +kernel, by decide +kernel, by decide +kernel, by decide +kernel⟩,
   ⟨(0), (1), (List.replicate 40000 0#8), _, (watch1 .locked), _, _, rfl, ⟨⟨by decide +kernel, by decide +kernel⟩, by decide +kernel⟩, by decide +kernel, by decide +kernel, by decide +kernel, by decide +kernel, by decide +kernel, by decide +kernel, rfl, rfl, by decide +kernel, by decide +kernel⟩,
   ⟨(0), (1), ((watch1 .locked).modTdLane 1 (fun l => { l with at_ := 2 ^ 50 - 39999 })), _, rfl, ⟨⟨by decide +kernel, by decide +kernel⟩, by decide +kernel⟩, by decide +kernel, by decide +kernel, by decide +kernel, by decide +kernel, by decide +kernel⟩,
   ⟨(watch1 .confirm), _, (1), (0), (frameId 7), by decide +kernel, by decide +kernel, rfl⟩,
   ⟨(watch1 .confirm), (1), by decide +kernel⟩,
   ⟨(watch1 .locked), _, (1), (0), _, by decide +kernel, rfl, rfl⟩,
   ⟨(watch1 .locked), _, (1), (0), (true), (none), by decide +kernel, by decide +kernel, by decide +kernel, by decide +kernel, rfl⟩,
   ⟨((watch1 .locked).modTdLane 1 (fun l => { l with errs := 0 })), _, (1), (0), (false), (some (frameId 7)), by decide +kernel, by decide +kernel, by decide +kernel, rfl⟩,
   ⟨(watch1 .locked), (1), by decide +kernel, by decide +kernel⟩,
   ⟨((watch1 .locked).modTdLane 1 (fun l => { l with at_ := 0 })), (1), by decide +kernel, by decide +kernel, by decide +kernel⟩,
   ⟨(7), (frameId 7), by decide +kernel⟩,
   ⟨(lone), (1), (6), (frameId 7), by decide +kernel, by decide +kernel⟩,
   ⟨(lone.modTdLane 0 (fun l => { l with version := 2 })), _, _, _, (0), (2 ^ 50), (frameId 7), ([]), _, by decide +kernel, by decide +kernel, by decide +kernel, rfl, rfl, rfl, rfl, by decide +kernel⟩,
   ⟨(downOk), (frameId 7), (decodeBody false (List.replicate 39996 0#8)), _, by decide +kernel, by decide +kernel, by decide +kernel, by decide +kernel, rfl, by decide +kernel⟩,
   ⟨(0), (2 ^ 50), (lone.modTd (fun d => { d with miss := some (2 ^ 50) })), _, rfl, ⟨⟨by decide +kernel, by decide +kernel⟩, by decide +kernel⟩, by decide +kernel, by decide +kernel⟩,
   ⟨(0), (4095), (lone), _, rfl, ⟨⟨by decide +kernel, by decide +kernel⟩, by decide +kernel⟩, by decide +kernel⟩,
   ⟨((lone.setWord 0x054014 0x100000).modTd (fun d => { d with reasm := [aReasm] })), (5), (0), (aReasm), by decide +kernel, by decide +kernel⟩,
   ⟨(0), (0), (lone), _, executes_of (by decide +kernel), rfl⟩⟩

theorem met_MembershipMessages :
    (∃ (dt : Nat) (sfc : Nat) (m : List Byte) (t : List (Nat × List Byte)) (s : State) (x : State) (y : State), x = s.at dt ∧ x.blocksRun ∧ x.main.td.msgs = (sfc, m) :: t ∧ x.smouldering = false ∧ field m 0 1 = 2 ∧ tmFormOk m = true ∧ y = x.modTd (fun d => { d with msgs := t }) ∧ x.main.tm.st ≠ .listen ∧ x.main.tm.st ≠ .operation)
    ∧ (∃ (dt : Nat) (sfc : Nat) (m : List Byte) (t : List (Nat × List Byte)) (s : State) (x : State) (y : State), x = s.at dt ∧ x.blocksRun ∧ x.main.td.msgs = (sfc, m) :: t ∧ x.smouldering = false ∧ field m 0 1 = 3 ∧ tmFormOk m = true ∧ y = x.modTd (fun d => { d with msgs := t }) ∧ field m 4 8 = x.termSerial ∧ (x.main.tm.st = .serial ∨ x.main.tm.st = .ranging))
    ∧ (∃ (dt : Nat) (sfc : Nat) (m : List Byte) (t : List (Nat × List Byte)) (s : State) (x : State) (y : State), x = s.at dt ∧ x.blocksRun ∧ x.main.td.msgs = (sfc, m) :: t ∧ x.smouldering = false ∧ field m 0 1 = 4 ∧ tmFormOk m = true ∧ y = x.modTd (fun d => { d with msgs := t }) ∧ field m 4 8 = x.termSerial ∧ x.main.tm.st = .ranging)
    ∧ (∃ (dt : Nat) (sfc : Nat) (m : List Byte) (t : List (Nat × List Byte)) (s : State) (x : State) (y : State), x = s.at dt ∧ x.blocksRun ∧ x.main.td.msgs = (sfc, m) :: t ∧ x.smouldering = false ∧ field m 0 1 = 5 ∧ tmFormOk m = true ∧ y = x.modTd (fun d => { d with msgs := t }) ∧ field m 4 8 = x.termSerial ∧ x.main.tm.st = .warm ∧ field m 12 1 = 0)
    ∧ (∃ (dt : Nat) (sfc : Nat) (m : List Byte) (t : List (Nat × List Byte)) (s : State) (x : State) (y : State), x = s.at dt ∧ x.blocksRun ∧ x.main.td.msgs = (sfc, m) :: t ∧ x.smouldering = false ∧ field m 0 1 = 5 ∧ tmFormOk m = true ∧ y = x.modTd (fun d => { d with msgs := t }) ∧ field m 4 8 = x.termSerial ∧ x.main.tm.st = .warm ∧ field m 12 1 = 1 ∧ x.hearth.minBlaze = none)
    ∧ (∃ (dt : Nat) (sfc : Nat) (m : List Byte) (t : List (Nat × List Byte)) (s : State) (x : State) (y : State), x = s.at dt ∧ x.blocksRun ∧ x.main.td.msgs = (sfc, m) :: t ∧ x.smouldering = false ∧ field m 0 1 = 5 ∧ tmFormOk m = true ∧ y = x.modTd (fun d => { d with msgs := t }) ∧ field m 4 8 = x.termSerial ∧ x.main.tm.st = .warm ∧ field m 12 1 = 2 ∧ x.hearth.minBlaze = none)
    ∧ (∃ (dt : Nat) (sfc : Nat) (m : List Byte) (t : List (Nat × List Byte)) (s : State) (x : State) (y : State), x = s.at dt ∧ x.blocksRun ∧ x.main.td.msgs = (sfc, m) :: t ∧ x.smouldering = false ∧ field m 0 1 = 6 ∧ tmFormOk m = true ∧ y = x.modTd (fun d => { d with msgs := t }))
    ∧ (∃ (dt : Nat) (sfc : Nat) (m : List Byte) (t : List (Nat × List Byte)) (s : State) (x : State) (y : State), x = s.at dt ∧ x.blocksRun ∧ x.main.td.msgs = (sfc, m) :: t ∧ x.smouldering = false ∧ field m 0 1 = 8 ∧ tmFormOk m = true ∧ y = x.modTd (fun d => { d with msgs := t }) ∧ field m 4 8 = x.termSerial ∧ x.main.tm.st ≠ .disabled)
    ∧ (∃ (dt : Nat) (sfc : Nat) (m : List Byte) (t : List (Nat × List Byte)) (s : State) (x : State) (y : State), x = s.at dt ∧ x.blocksRun ∧ x.main.td.msgs = (sfc, m) :: t ∧ x.smouldering = false ∧ field m 0 1 = 9 ∧ tmFormOk m = true ∧ y = x.modTd (fun d => { d with msgs := t }) ∧ field m 4 8 = x.termSerial ∧ field m 12 1 = 0)
    ∧ (∃ (dt : Nat) (sfc : Nat) (m : List Byte) (t : List (Nat × List Byte)) (s : State) (x : State) (y : State), x = s.at dt ∧ x.blocksRun ∧ x.main.td.msgs = (sfc, m) :: t ∧ x.smouldering = false ∧ field m 0 1 = 9 ∧ tmFormOk m = true ∧ y = x.modTd (fun d => { d with msgs := t }) ∧ field m 4 8 = x.termSerial ∧ field m 12 1 = 1 ∧ x.main.tm.st = .disabled)
    ∧ (∃ (dt : Nat) (sfc : Nat) (m : List Byte) (t : List (Nat × List Byte)) (s : State) (x : State) (y : State), x = s.at dt ∧ x.blocksRun ∧ x.main.td.msgs = (sfc, m) :: t ∧ x.smouldering = false ∧ field m 0 1 = 10 ∧ tmFormOk m = true ∧ y = x.modTd (fun d => { d with msgs := t }) ∧ field m 8 3 ≠ 0 ∧ 1 ≤ sdiff 30 (field m 4 4) sfc ∧ sdiff 30 (field m 4 4) sfc ≤ 8191)
    ∧ (∃ (dt : Nat) (sfc : Nat) (m : List Byte) (t : List (Nat × List Byte)) (s : State) (x : State) (y : State), x = s.at dt ∧ x.blocksRun ∧ x.main.td.msgs = (sfc, m) :: t ∧ x.smouldering = false ∧ field m 0 1 = 10 ∧ tmFormOk m = true ∧ y = x.modTd (fun d => { d with msgs := t }) ∧ field m 8 3 = 0)
    ∧ (∃ (dt : Nat) (sfc : Nat) (m : List Byte) (t : List (Nat × List Byte)) (s : State) (x : State), x = s.at dt ∧ x.blocksRun ∧ x.main.td.msgs = (sfc, m) :: t ∧ x.smouldering = false ∧ field m 0 1 = 6 ∧ tmFormOk m = false) :=
  ⟨⟨(0), (5), (tmMsg 2 (be 4 1 ++ [64#8, 0#8] ++ be 4 0 ++ be 3 0 ++ [8#8] ++ be 2 0 ++ be 2 8192)), ([]), (withMsg (member .initial) 5 (tmMsg 2 (be 4 1 ++ [64#8, 0#8] ++ be 4 0 ++ be 3 0 ++ [8#8] ++ be 2 0 ++ be 2 8192))), _, _, rfl, ⟨⟨by decide +kernel, by decide +kernel⟩, by decide +kernel⟩, by decide +kernel, by decide +kernel, by decide +kernel, by decide +kernel, rfl, by decide +kernel, by decide +kernel⟩,
   ⟨(0), (5), (tmMsg 3 (be 8 0x1234 ++ be 2 7 ++ be 2 4095)), ([]), (withMsg (member .serial) 5 (tmMsg 3 (be 8 0x1234 ++ be 2 7 ++ be 2 4095))), _, _, rfl, ⟨⟨by decide +kernel, by decide +kernel⟩, by decide +kernel⟩, by decide +kernel, by decide +kernel, by decide +kernel, by decide +kernel, rfl, by decide +kernel, by decide +kernel⟩,
   ⟨(0), (5), (tmMsg 4 (be 8 0x1234 ++ be 3 0xFFFFFF)), ([]), (withMsg (member .ranging) 5 (tmMsg 4 (be 8 0x1234 ++ be 3 0xFFFFFF))), _, _, rfl, ⟨⟨by decide +kernel, by decide +kernel⟩, by decide +kernel⟩, by decide +kernel, by decide +kernel, by decide +kernel, by decide +kernel, rfl, by decide +kernel, by decide +kernel⟩,
   ⟨(0), (5), (tmMsg 5 (be 8 0x1234 ++ be 2 0 ++ be 2 0xFFFF)), ([]), (withMsg (member .warm) 5 (tmMsg 5 (be 8 0x1234 ++ be 2 0 ++ be 2 0xFFFF))), _, _, rfl, ⟨⟨by decide +kernel, by decide +kernel⟩, by decide +kernel⟩, by decide +kernel, by decide +kernel, by decide +kernel, by decide +kernel, rfl, by decide +kernel, by decide +kernel, by decide +kernel⟩,
   ⟨(0), (5), (tmMsg 5 (be 8 0x1234 ++ [1#8, 0#8] ++ be 2 0xFFFF)), ([]), (withMsg (member .warm) 5 (tmMsg 5 (be 8 0x1234 ++ [1#8, 0#8] ++ be 2 0xFFFF))), _, _, rfl, ⟨⟨by decide +kernel, by decide +kernel⟩, by decide +kernel⟩, by decide +kernel, by decide +kernel, by decide +kernel, by decide +kernel, rfl, by decide +kernel, by decide +kernel, by decide +kernel, by decide +kernel⟩,
   ⟨(0), (5), (tmMsg 5 (be 8 0x1234 ++ [2#8, 0#8] ++ be 2 0xFFFF)), ([]), (withMsg (member .warm) 5 (tmMsg 5 (be 8 0x1234 ++ [2#8, 0#8] ++ be 2 0xFFFF))), _, _, rfl, ⟨⟨by decide +kernel, by decide +kernel⟩, by decide +kernel⟩, by decide +kernel, by decide +kernel, by decide +kernel, by decide +kernel, rfl, by decide +kernel, by decide +kernel, by decide +kernel, by decide +kernel⟩,
   ⟨(0), (5), (tmMsg 6 [7#8, 2#8, 0x0F#8, 0xFF#8]), ([]), (withMsg (member .operation) 5 (tmMsg 6 [7#8, 2#8, 0x0F#8, 0xFF#8])), _, _, rfl, ⟨⟨by decide +kernel, by decide +kernel⟩, by decide +kernel⟩, by decide +kernel, by decide +kernel, by decide +kernel, by decide +kernel, rfl⟩,
   ⟨(0), (5), (tmMsg 8 (be 8 0x1234)), ([]), (withMsg (member .operation) 5 (tmMsg 8 (be 8 0x1234))), _, _, rfl, ⟨⟨by decide +kernel, by decide +kernel⟩, by decide +kernel⟩, by decide +kernel, by decide +kernel, by decide +kernel, by decide +kernel, rfl, by decide +kernel, by decide +kernel⟩,
   ⟨(0), (5), (tmMsg 9 (be 8 0x1234)), ([]), (withMsg (member .operation) 5 (tmMsg 9 (be 8 0x1234))), _, _, rfl, ⟨⟨by decide +kernel, by decide +kernel⟩, by decide +kernel⟩, by decide +kernel, by decide +kernel, by decide +kernel, by decide +kernel, rfl, by decide +kernel, by decide +kernel⟩,
   ⟨(0), (5), (tmMsg 9 (be 8 0x1234 ++ [1#8])), ([]), (withMsg (member .disabled) 5 (tmMsg 9 (be 8 0x1234 ++ [1#8]))), _, _, rfl, ⟨⟨by decide +kernel, by decide +kernel⟩, by decide +kernel⟩, by decide +kernel, by decide +kernel, by decide +kernel, by decide +kernel, rfl, by decide +kernel, by decide +kernel, by decide +kernel⟩,
   ⟨(0), (5), (tmMsg 10 (be 4 8196 ++ be 3 1)), ([]), (withMsg (member .operation) 5 (tmMsg 10 (be 4 8196 ++ be 3 1))), _, _, rfl, ⟨⟨by decide +kernel, by decide +kernel⟩, by decide +kernel⟩, by decide +kernel, by decide +kernel, by decide +kernel, by decide +kernel, rfl, by decide +kernel, by decide +kernel, by decide +kernel⟩,
   ⟨(0), (5), (tmMsg 10 (be 4 8196 ++ be 3 0)), ([]), (withMsg (member .operation) 5 (tmMsg 10 (be 4 8196 ++ be 3 0))), _, _, rfl, ⟨⟨by decide +kernel, by decide +kernel⟩, by decide +kernel⟩, by decide +kernel, by decide +kernel, by decide +kernel, by decide +kernel, rfl, by decide +kernel⟩,
   ⟨(0), (5), (tmMsg 6 [8#8, 2#8, 0x0F#8, 0xFF#8]), ([]), (withMsg (member .operation) 5 (tmMsg 6 [8#8, 2#8, 0x0F#8, 0xFF#8])), _, rfl, ⟨⟨by decide +kernel, by decide +kernel⟩, by decide +kernel⟩, by decide +kernel, by decide +kernel, by decide +kernel, by decide +kernel⟩⟩

theorem met_PortAssign :
    (∃ (dt : Nat) (sfc : Nat) (n : Nat) (w : Nat) (m : List Byte) (t : List (Nat × List Byte)) (s : State) (x : State) (y : State), x = s.at dt ∧ x.blocksRun ∧ x.main.td.msgs = (sfc, m) :: t ∧ x.smouldering = false ∧ field m 0 1 = 7 ∧ tmFormOk m = true ∧ y = x.modTd (fun d => { d with msgs := t }) ∧ n = field m 4 2 ∧ w = field m 6 4 ∧ tdPortLegal n w = true)
    ∧ (∃ (dt : Nat) (sfc : Nat) (n : Nat) (w : Nat) (m : List Byte) (t : List (Nat × List Byte)) (s : State) (x : State) (y : State), x = s.at dt ∧ x.blocksRun ∧ x.main.td.msgs = (sfc, m) :: t ∧ x.smouldering = false ∧ field m 0 1 = 7 ∧ tmFormOk m = true ∧ y = x.modTd (fun d => { d with msgs := t }) ∧ n = field m 4 2 ∧ w = field m 6 4 ∧ tdPortLegal n w = false) :=
  ⟨⟨(0), (5), (4094), (0), (tmMsg 7 (be 2 4094 ++ be 4 0)), ([]), (withMsg (member .operation) 5 (tmMsg 7 (be 2 4094 ++ be 4 0))), _, _, rfl, ⟨⟨by decide +kernel, by decide +kernel⟩, by decide +kernel⟩, by decide +kernel, by decide +kernel, by decide +kernel, by decide +kernel, rfl, by decide +kernel, by decide +kernel, by decide +kernel⟩,
   ⟨(0), (5), (4094), (0x80000000), (tmMsg 7 (be 2 4094 ++ be 4 0x80000000)), ([]), (withMsg (member .operation) 5 (tmMsg 7 (be 2 4094 ++ be 4 0x80000000))), _, _, rfl, ⟨⟨by decide +kernel, by decide +kernel⟩, by decide +kernel⟩, by decide +kernel, by decide +kernel, by decide +kernel, by decide +kernel, rfl, by decide +kernel, by decide +kernel, by decide +kernel⟩⟩

theorem met_Membership :
    (∃ (dt : Nat) (ms : Nat) (k : Known) (s : State) (x : State), x = s.at dt ∧ x.blocksRun ∧ x.main.sk.isLead = true ∧ x.bit 0x060010 16 = true ∧ x.main.tm.st = .operation ∧ x.busy none = false ∧ x.flitsOut = false ∧ x.membersHeld 0 = false ∧ x.bankHeld = false ∧ x.membersHeld 1 = false ∧ x.fld 0x01005C 31 30 = 2 ∧ x.main.tm.doze = none ∧ x.main.tm.dozeReq = none ∧ x.nextKnown = some k ∧ ms = k.us / 1000 ∧ x.fld 0x060010 31 24 ≤ ms)
    ∧ (∃ (dt : Nat) (s : State) (x : State), x = s.at dt ∧ x.blocksRun ∧ x.main.tm.st = .ranging ∧ x.main.tm.timer + x.fld 0x060014 31 24 * 100 * msT ≤ x.now ∧ x.hearth.minBlaze = none)
    ∧ (∃ (dt : Nat) (s : State) (x : State), x = s.at dt ∧ x.blocksRun ∧ x.main.tm.st = .warm ∧ x.main.tm.timer + x.fld 0x060014 15 8 * 100 * msT ≤ x.now ∧ x.hearth.minBlaze = none)
    ∧ (∃ (dt : Nat) (s : State) (x : State), x = s.at dt ∧ x.blocksRun ∧ x.main.tm.st = .hold ∧ x.main.tm.timer + x.fld 0x060014 23 16 * 10 * msT ≤ x.now)
    ∧ (∃ (dt : Nat) (a : Nat) (n : Nat) (q : Nat) (s : State) (x : State) (y : State) (z : State), x = s.at dt ∧ x.blocksRun ∧ x.main.sk.isLead = true ∧ a = x.main.td.active ∧ x.protect = (n, q) ∧ n ≠ a ∧ x.tdLocked n = true ∧ x.bit 0x060018 31 = true ∧ y = (x.modTd (fun t => { t with active := n })).dropAllReasm ∧ z = (((y.modTm (fun m => { m with req := q, doze := none, seen := none, eqd := match at? m.eqds n none with | some e => e | none => m.preEqd })).count 0x060020 7 0).ash 0x06 0x01 [byte a, byte n, byte q]).notify 0x0603 true [byte a, byte n, byte q] ∧ z.main.tm.st = .operation)
    ∧ (∃ (dt : Nat) (s : State) (x : State), x = s.at dt ∧ x.blocksRun ∧ x.main.tm.st = .operation ∧ x.main.tm.savedAt + 64 * secT ≤ x.now)
    ∧ (∃ (dt : Nat) (tag : BitVec 16) (s : State) (x : State), s.willRun dt 0x0600 tag.toNat [] ∧ x = s.asked dt 0x0600 tag.toNat [])
    ∧ (∃ (dt : Nat) (tag : BitVec 16) (p : List Byte) (s : State) (x : State) (y : State), s.willRun dt 0x0601 tag.toNat p ∧ x = s.asked dt 0x0601 tag.toNat p ∧ p.length = 8 ∧ x.tmIdle = true ∧ y = ((x.modSk (fun k => { k with serial := field p 0 8 })).invalidateRecord).pushTerm ∧ y.main.sk.push.isSome = true)
    ∧ (∃ (dt : Nat) (tag : BitVec 16) (p : List Byte) (s : State) (x : State) (y : State), s.willRun dt 0x0601 tag.toNat p ∧ x = s.asked dt 0x0601 tag.toNat p ∧ p.length = 8 ∧ x.tmIdle = true ∧ y = ((x.modSk (fun k => { k with serial := field p 0 8 })).invalidateRecord).pushTerm ∧ y.main.sk.push = none)
    ∧ (∃ (dt : Nat) (tag : BitVec 16) (p : List Byte) (s : State) (x : State), s.willRun dt 0x0602 tag.toNat p ∧ x = s.asked dt 0x0602 tag.toNat p ∧ p.length = 4 ∧ field p 2 2 < 4096 ∧ x.tmIdle = true)
    ∧ (∃ (dt : Nat) (tag : BitVec 16) (s : State) (x : State), s.willRun dt 0x0603 tag.toNat [] ∧ x = s.asked dt 0x0603 tag.toNat [] ∧ x.tmIdle = true)
    ∧ (∃ (dt : Nat) (tag : BitVec 16) (s : State) (x : State) (y : State), s.willRun dt 0x0604 tag.toNat [] ∧ x = s.asked dt 0x0604 tag.toNat [] ∧ y = (x.modTm (fun m => { m with disabled := false })).saveTree) :=
  ⟨⟨(0), _, _, (((((member .operation).setFld 0x060010 16 16 1).setFld 0x01005C 31 30 2).setFld 0x060010 31 24 0).setFld 0x010018 31 31 1), _, rfl, ⟨⟨by decide +kernel, by decide +kernel⟩, by decide +kernel⟩, by decide +kernel, by decide +kernel, by decide +kernel, by decide +kernel, by decide +kernel, by decide +kernel, by decide +kernel, by decide +kernel, by decide +kernel, by decide +kernel, by decide +kernel, some_get (by decide +kernel), rfl, by decide +kernel⟩,
   ⟨(0), (member .ranging), _, rfl, ⟨⟨by decide +kernel, by decide +kernel⟩, by decide +kernel⟩, by decide +kernel, by decide +kernel, by decide +kernel⟩,
   ⟨(0), (member .warm), _, rfl, ⟨⟨by decide +kernel, by decide +kernel⟩, by decide +kernel⟩, by decide +kernel, by decide +kernel, by decide +kernel⟩,
   ⟨(0), (member .hold), _, rfl, ⟨⟨by decide +kernel, by decide +kernel⟩, by decide +kernel⟩, by decide +kernel, by decide +kernel⟩,
   ⟨(0), _, (1), (7), (toSwitch), _, _, _, rfl, ⟨⟨by decide +kernel, by decide +kernel⟩, by decide +kernel⟩, by decide +kernel, rfl, by decide +kernel, by decide +kernel, by decide +kernel, by decide +kernel, rfl, rfl, by decide +kernel⟩,
   ⟨(0), (member .operation), _, rfl, ⟨⟨by decide +kernel, by decide +kernel⟩, by decide +kernel⟩, by decide +kernel, by decide +kernel⟩,
   ⟨(0), (0), (lone), _, executes_of (by decide +kernel), rfl⟩,
   ⟨(0), (0), (be 8 1), (lone.modSk (fun k => { k with push := some { op := none, image := [] } })), _, _, executes_of (by decide +kernel), rfl, by decide +kernel, by decide +kernel, rfl, by decide +kernel⟩,
   ⟨(0), (0), (be 8 1), (lone), _, _, executes_of (by decide +kernel), rfl, by decide +kernel, by decide +kernel, rfl, by decide +kernel⟩,
   ⟨(0), (0), (be 2 1 ++ be 2 4095), (lone), _, executes_of (by decide +kernel), rfl, by decide +kernel, by decide +kernel, by decide +kernel⟩,
   ⟨(0), (0), (lone), _, executes_of (by decide +kernel), rfl, by decide +kernel⟩,
   ⟨(0), (0), (lone.modCmd (fun c => { c with bound := .uart })), _, _, executes_of (by decide +kernel), rfl, rfl⟩⟩

theorem met_UpstreamBursts :
    (∃ (dt : Nat) (g : Grant) (s : State) (x : State), x = s.at dt ∧ x.blocksRun ∧ x.hearth.ps ≠ .smoulder ∧ x.nextGrant = some g)
    ∧ (∃ (x : State) (p : Profile) (g : Grant), x.main.tm.profile = some p ∧ x.main.sk.isLead = true ∧ x.quarantined = false ∧ g.alloc ≠ 0xFFF ∧ g.chimney = false ∧ x.slotOf g.alloc = some 0 ∧ g.ranging = true ∧ x.main.tm.st = .ranging)
    ∧ (∃ (x : State) (y : State) (p : Profile) (g : Grant) (m : List Byte) (late : Nat) (alarm : Bool), p.preamble + 20 ≤ g.length ∧ x.windowOk (g.at_ + 4 * late) true = (x, true) ∧ x.admitBurst g.alloc (p.preamble + 4 + m.length) alarm = (y, true))
    ∧ (∃ (x : State) (n : Nat) (alarm : Bool), x.txHeld x.main.td.active = false ∧ x.admits (x.burstUj n) (if alarm then 0 else x.flushUj) = true)
    ∧ (∃ (x : State) (n : Nat) (alarm : Bool), (x.txHeld x.main.td.active = true ∨ x.admits (x.burstUj n) (if alarm then 0 else x.flushUj) = false))
    ∧ (∃ (dt : Nat) (b : Burst) (t : List Burst) (s : State) (x : State), x = s.at dt ∧ x.blocksRun ∧ x.main.up.current = none ∧ x.main.up.bursts = b :: t ∧ b.start ≤ x.now ∧ x.laneLocked b.lane = true ∧ x.main.td.lost = false ∧ x.quarantined = false ∧ x.main.tm.disabled = false ∧ x.txHeld b.lane = false ∧ b.chimney = false)
    ∧ (∃ (dt : Nat) (b : Burst) (t : List Burst) (s : State) (x : State), x = s.at dt ∧ x.blocksRun ∧ x.main.up.current = none ∧ x.main.up.bursts = b :: t ∧ b.start ≤ x.now ∧ x.laneLocked b.lane = true ∧ x.main.td.lost = false ∧ x.quarantined = false ∧ x.main.tm.disabled = false ∧ x.txHeld b.lane = true ∧ b.chimney = false)
    ∧ (∃ (dt : Nat) (b : Burst) (t : List Burst) (s : State) (x : State), x = s.at dt ∧ x.blocksRun ∧ x.main.up.current = none ∧ x.main.up.bursts = b :: t ∧ b.start ≤ x.now ∧ x.laneLocked b.lane = false)
    ∧ (∃ (dt : Nat) (tag : BitVec 16) (s : State) (x : State), s.willRun dt 0x0700 tag.toNat [] ∧ x = s.asked dt 0x0700 tag.toNat [])
    ∧ (∃ (dt : Nat) (eb : Nat) (need : Nat) (tag : BitVec 16) (p : List Byte) (s : State) (x : State), s.willRun dt 0x0701 tag.toNat p ∧ x = s.asked dt 0x0701 tag.toNat p ∧ p.length = 3 ∧ field p 2 1 = 0 ∧ eb = x.burstUj (field p 0 2) ∧ need = eb + 1000 * x.marginMj + x.flushUj ∧ x.hearth.onReserve = true) :=
  ⟨⟨(0), (aGrant), (ranging.modTd (fun d => { d with grants := [aGrant] })), _, rfl, ⟨⟨by decide +kernel, by decide +kernel⟩, by decide +kernel⟩, by decide +kernel, by decide +kernel⟩,
   ⟨(ranging), (aProfile), (aGrant), by decide +kernel, by decide +kernel, by decide +kernel, by decide +kernel, by decide +kernel, by decide +kernel, by decide +kernel, by decide +kernel⟩,
   ⟨(ranging), _, (aProfile), (aGrant), ([]), (0), (false), by decide +kernel, by decide +kernel, pair_snd (by decide +kernel)⟩,
   ⟨(lone), (24), (false), by decide +kernel, by decide +kernel⟩,
   ⟨(lone.setFld 0x040000 0 0 1), (24), (true), by decide +kernel⟩,
   ⟨(0), (aBurst), ([]), ((withLane (member .operation) 0).modUp (fun u => { u with bursts := [aBurst] })), _, rfl, ⟨⟨by decide +kernel, by decide +kernel⟩, by decide +kernel⟩, by decide +kernel, by decide +kernel, by decide +kernel, by decide +kernel, by decide +kernel, by decide +kernel, by decide +kernel, by decide +kernel, by decide +kernel⟩,
   ⟨(0), (aBurst), ([]), (((withLane (member .operation) 0).setFld 0x040000 0 0 1).modUp (fun u => { u with bursts := [aBurst] })), _, rfl, ⟨⟨by decide +kernel, by decide +kernel⟩, by decide +kernel⟩, by decide +kernel, by decide +kernel, by decide +kernel, by decide +kernel, by decide +kernel, by decide +kernel, by decide +kernel, by decide +kernel, by decide +kernel⟩,
   ⟨(0), (aBurst), ([]), (lone.modUp (fun u => { u with bursts := [aBurst] })), _, rfl, ⟨⟨by decide +kernel, by decide +kernel⟩, by decide +kernel⟩, by decide +kernel, by decide +kernel, by decide +kernel, by decide +kernel⟩,
   ⟨(0), (0), (lone), _, executes_of (by decide +kernel), rfl⟩,
   ⟨(0), _, _, (0), (be 2 65535 ++ [0#8]), (lone.modHearth (fun h => { h with psuOk := false, onReserve := true })), _, executes_of (by decide +kernel), rfl, by decide +kernel, by decide +kernel, rfl, rfl, by decide +kernel⟩⟩

theorem met_UpstreamQueues :
    (∃ (dt : Nat) (q : Nat) (src : Nat) (b : List Byte) (s : State) (x : State), x = s.at dt ∧ x.blocksRun ∧ q < 32 ∧ src ≤ 4 ∧ b ≠ [] ∧ x.leads = true ∧ x.queueKeyless q = false ∧ x.bit (0x070100 + 16 * q) 31 = true ∧ (x.upQueue q).fill + (x.mkSdu q (sourceKind src) b).len ≤ 1024 * x.fld (0x070100 + 16 * q) 17 8 ∧ (q ≠ 0 → x.poolUsed + (x.mkSdu q (sourceKind src) b).len ≤ 1024 * x.fld 0x07000C 10 0))
    ∧ (∃ (dt : Nat) (q : Nat) (src : Nat) (b : List Byte) (s : State) (x : State), x = s.at dt ∧ x.blocksRun ∧ q < 32 ∧ src ≤ 4 ∧ b ≠ [] ∧ x.leads = true ∧ x.bit (0x070100 + 16 * q) 31 = false)
    ∧ (∃ (dt : Nat) (sfc : Nat) (s : State) (x : State), x = s.at dt ∧ x.blocksRun ∧ sfc = (if x.tdLocked x.main.td.active then x.activeSfc else (x.main.up.frameSfc + 1) % 2 ^ 30))
    ∧ (∃ (x : State) (n : Nat), n < 40 ∧ at? x.main.up.damperOld n none = none ∧ x.bit (0x070400 + 16 * n) 31 = true ∧ x.bit (0x070400 + 16 * n) 30 = true)
    ∧ (∃ (x : State) (n : Nat), n < 40 ∧ (at? x.main.up.damperOld n none).isSome = true)
    ∧ (∃ (dt : Nat) (t : Nat) (s : State) (x : State), x = s.at dt ∧ x.blocksRun ∧ x.main.up.waitUntil = some t ∧ t ≤ x.now ∧ (∀ n ∈ x.main.cmd.notices, n.num ∉ x.main.up.carried))
    ∧ (∃ (dt : Nat) (t : Nat) (un : List Notice) (s : State) (x : State), x = s.at dt ∧ x.blocksRun ∧ x.main.up.waitUntil = some t ∧ t ≤ x.now ∧ un = x.main.cmd.notices.filter (fun n => x.main.up.carried.contains n.num) ∧ un ≠ [] ∧ (∀ n ∈ un, n.chimney < x.fld 0x070014 15 8)) :=
  ⟨⟨(0), (31), (4), ([1#8]), (queueOn.setFld 0x07000C 10 0 1), _, rfl, ⟨⟨by decide +kernel, by decide +kernel⟩, by decide +kernel⟩, by decide +kernel, by decide +kernel, by decide +kernel, by decide +kernel, by decide +kernel, by decide +kernel, by decide +kernel, by decide +kernel⟩,
   ⟨(0), (31), (4), ([1#8]), (lone), _, rfl, ⟨⟨by decide +kernel, by decide +kernel⟩, by decide +kernel⟩, by decide +kernel, by decide +kernel, by decide +kernel, by decide +kernel, by decide +kernel⟩,
   ⟨(0), _, (lone), _, rfl, ⟨⟨by decide +kernel, by decide +kernel⟩, by decide +kernel⟩, rfl⟩,
   ⟨((lone.setFld (0x070400 + 16 * 39) 31 31 1).setFld (0x070400 + 16 * 39) 30 30 1), (39), by decide +kernel, by decide +kernel, by decide +kernel, by decide +kernel⟩,
   ⟨(lone.modUp (fun u => { u with damperOld := u.damperOld.set 39 (some (0, 0)) })), (39), by decide +kernel, by decide +kernel⟩,
   ⟨(0), (2 ^ 50), (lone.modUp (fun u => { u with waitUntil := some (2 ^ 50) })), _, rfl, ⟨⟨by decide +kernel, by decide +kernel⟩, by decide +kernel⟩, by decide +kernel, by decide +kernel, by decide +kernel⟩,
   ⟨(0), (2 ^ 50), ([aNotice]), ((lone.modUp (fun u => { u with waitUntil := some (2 ^ 50), carried := [0x8000] })).modCmd (fun c => { c with notices := [aNotice] })), _, rfl, ⟨⟨by decide +kernel, by decide +kernel⟩, by decide +kernel⟩, by decide +kernel, by decide +kernel, (by decide +kernel), by decide +kernel, by decide +kernel⟩⟩

theorem met_MeterLine :
    (∃ (dt : Nat) (n : Nat) (q : Xact) (t : List Xact) (ws : List Nat) (s : State) (x : State), x = s.at dt ∧ x.blocksRun ∧ x.mpOn n = true ∧ (x.mport n).xacts = q :: t ∧ (x.mport n).st = .queued ∧ (x.mport n).freeAt ≤ x.now ∧ x.hearth.ps = .blaze ∧ x.quarantined = false ∧ ws = (List.range 5).map (fun i => x.word (0x080100 + 32 * n + 4 * i)))
    ∧ (∃ (dt : Nat) (n : Nat) (fall : Nat) (q : Xact) (t : List Xact) (s : State) (x : State), x = s.at dt ∧ x.blocksRun ∧ (x.mport n).xacts = q :: t ∧ (x.mport n).st = .sending ∧ fall = (x.mport n).deRise + x.sendT n q.request.length ∧ fall ≤ x.now ∧ q.noReply = false)
    ∧ (∃ (dt : Nat) (n : Nat) (fall : Nat) (q : Xact) (t : List Xact) (s : State) (x : State), x = s.at dt ∧ x.blocksRun ∧ (x.mport n).xacts = q :: t ∧ (x.mport n).st = .sending ∧ fall = (x.mport n).deRise + x.sendT n q.request.length ∧ fall ≤ x.now ∧ q.noReply = true)
    ∧ (∃ (dt : Nat) (n : Nat) (q : Xact) (t : List Xact) (s : State) (x : State), x = s.at dt ∧ x.blocksRun ∧ (x.mport n).xacts = q :: t ∧ (x.mport n).st = .waiting ∧ (x.mport n).deadline ≤ x.now ∧ q.noReply = false ∧ q.attempts < bits (x.mpWord n 0) 22 21 + 1)
    ∧ (∃ (dt : Nat) (n : Nat) (s : State) (x : State), x = s.at dt ∧ x.blocksRun ∧ (x.mport n).begun = true ∧ (x.mport n).overrun = false ∧ bits (x.mpWord n 0) 24 23 = 1 ∧ (x.mport n).frame ≠ [] ∧ (x.mport n).lastEnd + 16 * x.sixteenth n * bits (x.mpWord n 2) 7 0 ≤ x.now)
    ∧ (∃ (dt : Nat) (n : Nat) (s : State) (x : State), x = s.at dt ∧ x.blocksRun ∧ (x.mport n).begun = true ∧ (x.mport n).lastEnd + 16 * x.sixteenth n * bits (x.mpWord n 3) 15 8 ≤ x.now)
    ∧ (∃ (x : State) (n : Nat), (x.mport n).st = .queued ∧ bitOf (x.mpWord n 0) 29 = false)
    ∧ (∃ (dt : Nat) (n : Nat) (sm : List Nat) (s : State) (x : State) (y : State), x = s.at dt ∧ x.blocksRun ∧ x.mpOn n = true ∧ (x.mport n).st = .queued ∧ (x.mport n).low = false ∧ (x.mport n).armAt ≤ x.now ∧ (x.mport n).deFall + bits (x.mpWord n 2) 15 8 * x.sixteenth n ≤ x.now ∧ x.hearth.ps = .blaze ∧ (sampled (at? sm 0 7)).1 = true ∧ y = x.wake 0x0A)
    ∧ (∃ (dt : Nat) (n : Nat) (s : State) (x : State), x = s.at dt ∧ x.blocksRun ∧ (x.mport n).st ≠ .waiting ∧ (x.now < (x.mport n).armAt ∨ (x.mport n).st = .sending ∨ x.mpOn n = false))
    ∧ (∃ (x : State) (y : State) (n : Nat) (c : Byte) (bad : Bool), (x.mport n).overrun = false ∧ bits (x.mpWord n 0) 24 23 = 1 ∧ (x.mport n).frame.length < bits (x.mpWord n 0) 11 0 ∧ y = x.modPort n (fun p => { p with frame := (x.mport n).frame ++ [c], bad := (x.mport n).bad + b2n bad }))
    ∧ (∃ (dt : Nat) (n : Nat) (s : State) (x : State), x = s.at dt ∧ x.blocksRun ∧ x.mpOn n = true ∧ (x.mport n).st = .queued ∧ (x.mport n).low = false ∧ n < x.main.mp.ports.length)
    ∧ (∃ (dt : Nat) (n : Nat) (s : State) (x : State), x = s.at dt ∧ x.blocksRun ∧ (x.mport n).low = true) :=
  ⟨⟨(0), (47), (aXact false), ([]), _, (port .queued false), _, rfl, ⟨⟨by decide +kernel, by decide +kernel⟩, by decide +kernel⟩, by decide +kernel, by decide +kernel, by decide +kernel, by decide +kernel, by decide +kernel, by decide +kernel, rfl⟩,
   ⟨(0), (47), _, (aXact false), ([]), (port .sending false), _, rfl, ⟨⟨by decide +kernel, by decide +kernel⟩, by decide +kernel⟩, by decide +kernel, by decide +kernel, rfl, by decide +kernel, by decide +kernel⟩,
   ⟨(0), (47), _, (aXact true), ([]), (port .sending true), _, rfl, ⟨⟨by decide +kernel, by decide +kernel⟩, by decide +kernel⟩, by decide +kernel, by decide +kernel, rfl, by decide +kernel, by decide +kernel⟩,
   ⟨(0), (47), (aXact false), ([]), (port .waiting false), _, rfl, ⟨⟨by decide +kernel, by decide +kernel⟩, by decide +kernel⟩, by decide +kernel, by decide +kernel, by decide +kernel, by decide +kernel, by decide +kernel⟩,
   ⟨(0), (47), (((port .waiting false).setFld (0x080100 + 32 * 47) 24 23 1).modPort 47 (fun p => { p with begun := true, frame := [1#8] })), _, rfl, ⟨⟨by decide +kernel, by decide +kernel⟩, by decide +kernel⟩, by decide +kernel, by decide +kernel, by decide +kernel, by decide +kernel, by decide +kernel⟩,
   ⟨(0), (47), ((port .waiting false).modPort 47 (fun p => { p with begun := true })), _, rfl, ⟨⟨by decide +kernel, by decide +kernel⟩, by decide +kernel⟩, by decide +kernel, by decide +kernel⟩,
   ⟨(port .queued false), (47), by decide +kernel, by decide +kernel⟩,
   ⟨(0), (47), ([7,7,7,7,7,7,7,7,7,7]), (port .queued false), _, _, rfl, ⟨⟨by decide +kernel, by decide +kernel⟩, by decide +kernel⟩, by decide +kernel, by decide +kernel, by decide +kernel, by decide +kernel, by decide +kernel, by decide +kernel, by decide +kernel, rfl⟩,
   ⟨(0), (47), ((port .queued false).modPort 47 (fun p => { p with armAt := 2 ^ 51 })), _, rfl, ⟨⟨by decide +kernel, by decide +kernel⟩, by decide +kernel⟩, by decide +kernel, by decide +kernel⟩,
   ⟨(((port .waiting false).setFld (0x080100 + 32 * 47) 24 23 1).setFld (0x080100 + 32 * 47) 11 0 1), _, (47), (1), (false), by decide +kernel, by decide +kernel, by decide +kernel, rfl⟩,
   ⟨(0), (47), (port .queued false), _, rfl, ⟨⟨by decide +kernel, by decide +kernel⟩, by decide +kernel⟩, by decide +kernel, by decide +kernel, by decide +kernel, by decide +kernel⟩,
   ⟨(0), (47), ((port .queued false).modPort 47 (fun p => { p with low := true })), _, rfl, ⟨⟨by decide +kernel, by decide +kernel⟩, by decide +kernel⟩, by decide +kernel⟩⟩

theorem met_MeterCommands :
    (∃ (dt : Nat) (n : Nat) (d : DownSdu) (s : State) (x : State) (y : State), x = s.at dt ∧ x.blocksRun ∧ x.hearth.ps = .blaze ∧ x.takeSdu (fun d => d.dest == 1) = some (d, y) ∧ d.distrust = false ∧ n = field d.bytes 0 1 ∧ n < 48 ∧ 9 ≤ d.bytes.length ∧ d.bytes.length ≤ 2056 ∧ field d.bytes 1 1 ≤ 1 ∧ field d.bytes 6 2 = 0 ∧ y.quarantined = false ∧ y.mpOn n = true ∧ (y.mport n).xacts.length < 4)
    ∧ (∃ (dt : Nat) (h : Option Nat × Nat × List Byte) (s : State) (x : State) (y : State), x = s.at dt ∧ x.blocksRun ∧ x.main.mp.hold = [h] ∧ x.offerResult h.2.1 h.2.2 = (y, true))
    ∧ (∃ (dt : Nat) (n : Nat) (s : State) (x : State), x = s.at dt ∧ x.blocksRun ∧ n < 48)
    ∧ (∃ (dt : Nat) (n : Nat) (tag : BitVec 16) (p : List Byte) (s : State) (x : State), s.willRun dt 0x0800 tag.toNat p ∧ x = s.asked dt 0x0800 tag.toNat p ∧ 7 ≤ p.length ∧ p.length ≤ 2054 ∧ n = field p 0 1 ∧ n < 48 ∧ field p 1 1 ≤ 1 ∧ x.main.boot.local9 = true ∧ x.mpOn n = true ∧ (x.mport n).xacts.length < 4)
    ∧ (∃ (dt : Nat) (n : Nat) (tag : BitVec 16) (p : List Byte) (s : State) (x : State), s.willRun dt 0x0801 tag.toNat p ∧ x = s.asked dt 0x0801 tag.toNat p ∧ p.length = 1 ∧ n = field p 0 1 ∧ n < 48)
    ∧ (∃ (dt : Nat) (g : Nat) (count : Nat) (tag : BitVec 16) (p : List Byte) (l : List PStep) (s : State) (x : State) (y : State), s.willRun dt 0x0802 tag.toNat p ∧ x = s.asked dt 0x0802 tag.toNat p ∧ 4 ≤ p.length ∧ g = field p 0 1 ∧ count = field p 1 1 ∧ field p 2 1 = 0 ∧ parseSteps 33 (p.drop 3) = some l ∧ g < 64 ∧ count ≠ 0 ∧ count ≤ 32 ∧ stepsOk 33 (p.drop 3) = true ∧ l.length ≤ count ∧ (x.prog g).st ≠ 1 ∧ y = x.modProg g (fun _ => { steps := l, count := count }) ∧ (y.main.mp.progs.map Prog.size).sum ≤ 65536)
    ∧ (∃ (dt : Nat) (g : Nat) (tag : BitVec 16) (p : List Byte) (s : State) (x : State), s.willRun dt 0x0803 tag.toNat p ∧ x = s.asked dt 0x0803 tag.toNat p ∧ p.length = 1 ∧ g = field p 0 1 ∧ g < 64 ∧ x.main.boot.local9 = true ∧ (x.prog g).st ≠ 1 ∧ (x.prog g).loaded = true ∧ x.quarantined = false)
    ∧ (∃ (dt : Nat) (g : Nat) (tag : BitVec 16) (p : List Byte) (s : State) (x : State), s.willRun dt 0x0804 tag.toNat p ∧ x = s.asked dt 0x0804 tag.toNat p ∧ p.length = 1 ∧ g = field p 0 1 ∧ g < 64)
    ∧ (∃ (dt : Nat) (g : Nat) (tag : BitVec 16) (p : List Byte) (s : State) (x : State), s.willRun dt 0x0805 tag.toNat p ∧ x = s.asked dt 0x0805 tag.toNat p ∧ p.length = 1 ∧ g = field p 0 1 ∧ g < 64) :=
  ⟨⟨(0), _, (meterSdu), ((lone.setFld (0x080100 + 32 * 47) 31 31 1).modTd (fun t => { t with sdus := [meterSdu] })), _, _, rfl, ⟨⟨by decide +kernel, by decide +kernel⟩, by decide +kernel⟩, by decide +kernel, some_pair (by decide +kernel) (by decide +kernel), by decide +kernel, rfl, by decide +kernel, by decide +kernel, by decide +kernel, by decide +kernel, by decide +kernel, by decide +kernel, by decide +kernel, by decide +kernel⟩,
   ⟨(0), ((none, 31, [1#8])), ((queueOn.setFld 0x07000C 10 0 1).modMp (fun m => { m with hold := [(none, 31, [1#8])] })), _, _, rfl, ⟨⟨by decide +kernel, by decide +kernel⟩, by decide +kernel⟩, by decide +kernel, pair_snd (by decide +kernel)⟩,
   ⟨(0), (47), (lone), _, rfl, ⟨⟨by decide +kernel, by decide +kernel⟩, by decide +kernel⟩, by decide +kernel⟩,
   ⟨(0), _, (0), ([47#8, 1#8, 0#8, 0#8, 0#8, 0#8, 1#8]), (lone.setFld (0x080100 + 32 * 47) 31 31 1), _, executes_of (by decide +kernel), rfl, by decide +kernel, by decide +kernel, rfl, by decide +kernel, by decide +kernel, by decide +kernel, by decide +kernel, by decide +kernel⟩,
   ⟨(0), _, (0), ([47#8]), (lone), _, executes_of (by decide +kernel), rfl, by decide +kernel, rfl, by decide +kernel⟩,
   ⟨(0), _, _, (0), ([63#8, 1#8, 0#8] ++ aStep), _, (lone), _, _, executes_of (by decide +kernel), rfl, by decide +kernel, rfl, rfl, by decide +kernel, some_get (by decide +kernel), by decide +kernel, by decide +kernel, by decide +kernel, by decide +kernel, by decide +kernel, by decide +kernel, rfl, by decide +kernel⟩,
   ⟨(0), _, (0), ([63#8]), (lone.modProg 63 (fun _ => { steps := [⟨47, false, 0, [1#8], 0⟩], count := 1 })), _, executes_of (by decide +kernel), rfl, by decide +kernel, rfl, by decide +kernel, by decide +kernel, by decide +kernel, by decide +kernel, by decide +kernel⟩,
   ⟨(0), _, (0), ([63#8]), (lone), _, executes_of (by decide +kernel), rfl, by decide +kernel, rfl, by decide +kernel⟩,
   ⟨(0), _, (0), ([63#8]), (lone), _, executes_of (by decide +kernel), rfl, by decide +kernel, rfl, by decide +kernel⟩⟩

theorem met_Tributaries :
    (∃ (dt : Nat) (s : State) (x : State) (y : State), x = s.at dt ∧ x.blocksRun ∧ (∀ t, x.judgePoint = some t → t + 20 * usT ≤ x.now ∧ x.main.tb.judged ≠ some t) ∧ y = x.modTb (fun b => { b with judged := x.judgePoint }))
    ∧ (∃ (dt : Nat) (t : Nat) (s : State) (x : State), x = s.at dt ∧ x.blocksRun ∧ x.judgePoint = some t ∧ (x.now < t + 20 * usT ∨ x.main.tb.judged = some t))
    ∧ (∃ (x : State) (t : Nat), (x.trib t).egress = 3 ∧ (x.trib t).missing + 1 < x.fld 0x090000 15 12)
    ∧ (∃ (x : State) (t : Nat), (x.trib t).egress = 3 ∧ x.fld 0x090000 15 12 ≤ (x.trib t).missing + 1)
    ∧ (∃ (dt : Nat) (t : Nat) (e : Nat) (s : State) (x : State), x = s.at dt ∧ x.blocksRun ∧ t < 4 ∧ x.tribOn t = true ∧ (x.trib t).ingress ≠ 0 ∧ 128 * x.tribN t + 2 * x.tribN t + 2 < e)
    ∧ (∃ (dt : Nat) (t : Nat) (s : State) (x : State), x = s.at dt ∧ x.blocksRun ∧ t < 4 ∧ x.tribOn t = true ∧ (x.trib t).ingress = 1)
    ∧ (∃ (dt : Nat) (t : Nat) (s : State) (x : State), x = s.at dt ∧ x.blocksRun ∧ t < 4)
    ∧ (∃ (dt : Nat) (tag : BitVec 16) (s : State) (x : State), s.willRun dt 0x0900 tag.toNat [] ∧ x = s.asked dt 0x0900 tag.toNat []) :=
  ⟨⟨(0), (lone), _, _, rfl, ⟨⟨by decide +kernel, by decide +kernel⟩, by decide +kernel⟩, by decide +kernel, rfl⟩,
   ⟨(0), _, (downOk.modTdLane 0 (fun l => { l with at_ := 2 ^ 50 })), _, rfl, ⟨⟨by decide +kernel, by decide +kernel⟩, by decide +kernel⟩, some_get (by decide +kernel), by decide +kernel⟩,
   ⟨((lone.modTrib 3 (fun t => { t with egress := 3 })).setFld 0x090000 15 12 2), (3), by decide +kernel, by decide +kernel⟩,
   ⟨((lone.modTrib 3 (fun t => { t with egress := 3 })).setFld 0x090000 15 12 1), (3), by decide +kernel, by decide +kernel⟩,
   ⟨(0), (3), (100000), ((lone.setFld (0x090100 + 32 * 3) 31 31 1).modTrib 3 (fun q => { q with ingress := 1 })), _, rfl, ⟨⟨by decide +kernel, by decide +kernel⟩, by decide +kernel⟩, by decide +kernel, by decide +kernel, by decide +kernel, by decide +kernel⟩,
   ⟨(0), (3), ((lone.setFld (0x090100 + 32 * 3) 31 31 1).modTrib 3 (fun q => { q with ingress := 1 })), _, rfl, ⟨⟨by decide +kernel, by decide +kernel⟩, by decide +kernel⟩, by decide +kernel, by decide +kernel, by decide +kernel⟩,
   ⟨(0), (3), (lone), _, rfl, ⟨⟨by decide +kernel, by decide +kernel⟩, by decide +kernel⟩, by decide +kernel⟩,
   ⟨(0), (0), (lone), _, executes_of (by decide +kernel), rfl⟩⟩

theorem met_Ethernet :
    (∃ (dt : Nat) (n : Nat) (f : List Byte) (symbol : Bool) (s : State) (x : State) (w : State), x = s.at dt ∧ x.blocksRun ∧ n < 2 ∧ x.bit (0x0A0100 + 256 * n) 31 = true ∧ (x.eport n).up = true ∧ x.hearth.ps ≠ .smoulder ∧ w = x.wake 0x09 ∧ (symbol = true ∨ f.length < 64))
    ∧ (∃ (dt : Nat) (n : Nat) (f : List Byte) (s : State) (x : State) (w : State) (y : State), x = s.at dt ∧ x.blocksRun ∧ n < 2 ∧ x.bit (0x0A0100 + 256 * n) 31 = true ∧ (x.eport n).up = true ∧ x.hearth.ps ≠ .smoulder ∧ w = x.wake 0x09 ∧ 64 ≤ f.length ∧ f.length ≤ w.fld (0x0A0100 + 256 * n) 13 0 ∧ f.drop (f.length - 4) = fcs (f.take (f.length - 4)) ∧ pauseOf f = none ∧ y = (((w.emCount n 0).emCountN n 1 f.length).emCount n (8 + sizeBin f.length)).emGroup n 15 f)
    ∧ (∃ (dt : Nat) (n : Nat) (q : Nat) (f : List Byte) (s : State) (x : State) (w : State) (y : State), x = s.at dt ∧ x.blocksRun ∧ n < 2 ∧ x.bit (0x0A0100 + 256 * n) 31 = true ∧ (x.eport n).up = true ∧ x.hearth.ps ≠ .smoulder ∧ w = x.wake 0x09 ∧ 64 ≤ f.length ∧ f.length ≤ w.fld (0x0A0100 + 256 * n) 13 0 ∧ f.drop (f.length - 4) = fcs (f.take (f.length - 4)) ∧ pauseOf f = some q ∧ w.bit (0x0A0100 + 256 * n) 25 = true ∧ y = (((w.emCount n 0).emCountN n 1 f.length).emCount n (8 + sizeBin f.length)).emGroup n 15 f)
    ∧ (∃ (dt : Nat) (n : Nat) (s : State) (x : State), x = s.at dt ∧ x.blocksRun ∧ n < 2 ∧ x.bit (0x0A0100 + 256 * n) 31 = true ∧ (at? x.main.boot.ends 4 none).isSome = true ∧ x.hearth.ps ≠ .smoulder ∧ (x.eport n).up = false ∧ x.bit (0x0A0100 + 256 * n) 28 = true ∧ x.bit (0x0A0100 + 256 * n) 29 = true)
    ∧ (∃ (dt : Nat) (n : Nat) (s : State) (x : State), x = s.at dt ∧ x.blocksRun ∧ n < 2 ∧ x.bit (0x0A0100 + 256 * n) 31 = true ∧ (at? x.main.boot.ends 4 none).isSome = true ∧ x.hearth.ps ≠ .smoulder ∧ (x.eport n).up = true)
    ∧ (∃ (dt : Nat) (n : Nat) (d : DownSdu) (s : State) (x : State) (y : State), x = s.at dt ∧ x.blocksRun ∧ n < 2 ∧ x.blazing = true ∧ x.main.td.sdus.find? (fun d => d.dest == 3 + n && d.member == x.self) = some d ∧ d.done = true ∧ d.distrust = false ∧ y = x.modTd (fun t => { t with sdus := t.sdus.erase d }))
    ∧ (∃ (dt : Nat) (n : Nat) (d : DownSdu) (s : State) (x : State) (y : State) (z : State), x = s.at dt ∧ x.blocksRun ∧ n < 2 ∧ x.blazing = true ∧ x.main.td.sdus.find? (fun d => d.dest == 3 + n && d.member == x.self) = some d ∧ d.done = true ∧ d.distrust = true ∧ y = x.modTd (fun t => { t with sdus := t.sdus.erase d }) ∧ y.macSend n d.bytes true none = (z, true))
    ∧ (∃ (x : State) (n : Nat) (b : List Byte) (z : Send), x.bit (0x0A0100 + 256 * n) 31 = true ∧ x.bridges n = true ∧ (x.eport n).up = true ∧ x.txHold n + b.length ≤ 131072 ∧ 5 ≤ b.length ∧ field b 2 2 = 0 ∧ z = { bytes := b, whole := true, stream := none, fwd := x.bit (0x0A0100 + 256 * n) 24 } ∧ z.ok (x.fld (0x0A0100 + 256 * n) 13 0) = true)
    ∧ (∃ (dt : Nat) (n : Nat) (z : Send) (t : List Send) (f : Option (List Byte)) (s : State) (x : State), x = s.at dt ∧ x.blocksRun ∧ (x.eport n).sends = z :: t ∧ (x.eport n).up = true ∧ (x.eport n).wire = none ∧ (x.eport n).freeAt ≤ x.now ∧ (x.eport n).pauseUntil = none ∧ x.blazing = true ∧ z.whole = true ∧ z.stream = none ∧ z.next < z.count ∧ (z.next = 0 → z.broken (x.fld (0x0A0100 + 256 * n) 13 0) = false) ∧ z.frame = some f)
    ∧ (∃ (dt : Nat) (n : Nat) (t : Nat) (s : State) (x : State), x = s.at dt ∧ x.blocksRun ∧ (x.eport n).pauseUntil = some t ∧ t ≤ x.now)
    ∧ (∃ (dt : Nat) (n : Nat) (s : State) (x : State), x = s.at dt ∧ x.blocksRun ∧ n < 2)
    ∧ (∃ (dt : Nat) (n : Nat) (tag : BitVec 16) (p : List Byte) (s : State) (x : State), s.willRun dt 0x0A00 tag.toNat p ∧ x = s.asked dt 0x0A00 tag.toNat p ∧ p.length = 1 ∧ n = field p 0 1 ∧ n < 2)
    ∧ (∃ (dt : Nat) (n : Nat) (tag : BitVec 16) (p : List Byte) (s : State) (x : State), s.willRun dt 0x0A01 tag.toNat p ∧ x = s.asked dt 0x0A01 tag.toNat p ∧ p.length = 1 ∧ n = field p 0 1 ∧ n < 2 ∧ x.bit (0x0A0100 + 256 * n) 23 = true)
    ∧ (∃ (dt : Nat) (tag : BitVec 16) (p : List Byte) (s : State) (x : State), s.willRun dt 0x0A02 tag.toNat p ∧ x = s.asked dt 0x0A02 tag.toNat p ∧ p.length = 6 ∧ (field p 0 1 = 22 ∧ field p 1 1 = 1 ∨ field p 0 1 = 45 ∧ 1 ≤ field p 1 1 ∧ field p 1 1 ≤ 2) ∧ field p 2 1 ≤ 31 ∧ field p 3 1 ≤ 31)
    ∧ (∃ (dt : Nat) (tag : BitVec 16) (p : List Byte) (s : State) (x : State), s.willRun dt 0x0A02 tag.toNat p ∧ x = s.asked dt 0x0A02 tag.toNat p ∧ p.length = 6 ∧ (field p 0 1 = 22 ∨ field p 0 1 = 45) ∧ field p 1 1 = 0 ∧ field p 2 1 ≤ 31 ∧ field p 3 1 ≤ 31) :=
  ⟨⟨(0), (1), ([1#8]), (false), (ethOn), _, _, rfl, ⟨⟨by decide +kernel, by decide +kernel⟩, by decide +kernel⟩, by decide +kernel, by decide +kernel, by decide +kernel, by decide +kernel, rfl, by decide +kernel⟩,
   ⟨(0), (1), (List.replicate 60 0#8 ++ fcs (List.replicate 60 0#8)), (ethOn), _, _, _, rfl, ⟨⟨by decide +kernel, by decide +kernel⟩, by decide +kernel⟩, by decide +kernel, by decide +kernel, by decide +kernel, by decide +kernel, rfl, by decide +kernel, by decide +kernel, by decide +kernel, by decide +kernel, rfl⟩,
   ⟨(0), (1), (65535), (pauseFrame), (ethOn), _, _, _, rfl, ⟨⟨by decide +kernel, by decide +kernel⟩, by decide +kernel⟩, by decide +kernel, by decide +kernel, by decide +kernel, by decide +kernel, rfl, by decide +kernel, by decide +kernel, by decide +kernel, by decide +kernel, by decide +kernel, rfl⟩,
   ⟨(0), (1), ((((lone.setFld 0x0A0200 31 31 1).setFld 0x0A0200 29 29 1).setFld 0x0A0200 28 28 1).modEport 1 (fun p => { p with up := false })), _, rfl, ⟨⟨by decide +kernel, by decide +kernel⟩, by decide +kernel⟩, by decide +kernel, by decide +kernel, by decide +kernel, by decide +kernel, by decide +kernel, by decide +kernel, by decide +kernel⟩,
   ⟨(0), (1), (ethOn), _, rfl, ⟨⟨by decide +kernel, by decide +kernel⟩, by decide +kernel⟩, by decide +kernel, by decide +kernel, by decide +kernel, by decide +kernel, by decide +kernel⟩,
   ⟨(0), (1), (⟨0, 4, 0, [0#8, 0#8, 0#8, 0#8, 1#8], false, true, 0, none⟩), (ethOn.modTd (fun t => { t with sdus := [⟨0, 4, 0, [0#8, 0#8, 0#8, 0#8, 1#8], false, true, 0, none⟩] })), _, _, rfl, ⟨⟨by decide +kernel, by decide +kernel⟩, by decide +kernel⟩, by decide +kernel, by decide +kernel, by decide +kernel, by decide +kernel, by decide +kernel, rfl⟩,
   ⟨(0), (1), (⟨0, 4, 0, [0#8, 0#8, 0#8, 0#8, 1#8], true, true, 0, none⟩), (ethOn.modTd (fun t => { t with sdus := [⟨0, 4, 0, [0#8, 0#8, 0#8, 0#8, 1#8], true, true, 0, none⟩] })), _, _, _, rfl, ⟨⟨by decide +kernel, by decide +kernel⟩, by decide +kernel⟩, by decide +kernel, by decide +kernel, by decide +kernel, by decide +kernel, by decide +kernel, rfl, pair_snd (by decide +kernel)⟩,
   ⟨(ethOn), (1), ([0#8, 0#8, 0#8, 0#8, 1#8]), _, by decide +kernel, by decide +kernel, by decide +kernel, by decide +kernel, by decide +kernel, by decide +kernel, rfl, by decide +kernel⟩,
   ⟨(0), (1), (aSend), ([]), _, (ethOn.modEport 1 (fun p => { p with sends := [aSend] })), _, rfl, ⟨⟨by decide +kernel, by decide +kernel⟩, by decide +kernel⟩, by decide +kernel, by decide +kernel, by decide +kernel, by decide +kernel, by decide +kernel, by decide +kernel, by decide +kernel, by decide +kernel, by decide +kernel, by decide +kernel, some_get (by decide +kernel)⟩,
   ⟨(0), (1), (2 ^ 50), (ethOn.modEport 1 (fun p => { p with pauseUntil := some (2 ^ 50) })), _, rfl, ⟨⟨by decide +kernel, by decide +kernel⟩, by decide +kernel⟩, by decide +kernel, by decide +kernel⟩,
   ⟨(0), (1), (lone), _, rfl, ⟨⟨by decide +kernel, by decide +kernel⟩, by decide +kernel⟩, by decide +kernel⟩,
   ⟨(0), _, (0), ([1#8]), (lone), _, executes_of (by decide +kernel), rfl, by decide +kernel, rfl, by decide +kernel⟩,
   ⟨(0), _, (0), ([1#8]), (lone.setFld 0x0A0200 23 23 1), _, executes_of (by decide +kernel), rfl, by decide +kernel, rfl, by decide +kernel, by decide +kernel⟩,
   ⟨(0), (0), ([22#8, 1#8, 31#8, 31#8, 0#8, 0#8]), (lone), _, executes_of (by decide +kernel), rfl, by decide +kernel, by decide +kernel, by decide +kernel, by decide +kernel⟩,
   ⟨(0), (0), ([22#8, 0#8, 31#8, 31#8, 0#8, 0#8]), (lone), _, executes_of (by decide +kernel), rfl, by decide +kernel, by decide +kernel, by decide +kernel, by decide +kernel, by decide +kernel⟩⟩

theorem met_CipherEngine :
    (∃ (dt : Nat) (pipe : Nat) (q : Nat) (r : CyReq) (t : List CyReq) (op : Nat) (s : State) (x : State), x = s.at dt ∧ x.blocksRun ∧ pipe < 2 ∧ x.blazing = true ∧ x.main.cy.ready = true ∧ at? x.main.cy.stopped pipe true = false ∧ at? x.main.cy.busy pipe 0 ≤ x.now ∧ at? x.main.cy.pipes pipe none = none ∧ x.pickQueue pipe = some q ∧ at? x.main.cy.queues q [] = r :: t ∧ r.for_ = .run op)
    ∧ (∃ (dt : Nat) (op : Nat) (r : CyReq) (s : State) (x : State), x = s.at dt ∧ x.blocksRun ∧ x.main.cy.pipes = [some r, none] ∧ x.hearth.ps = .blaze ∧ 12800 + 1024 * r.data.length ≤ 1000 * (x.now - r.startAt) ∧ r.for_ = .run op ∧ x.main.cy.fin = [])
    ∧ (∃ (dt : Nat) (s : State) (x : State), x = s.at dt ∧ x.blocksRun ∧ x.hearth.ps ≠ .smoulder ∧ x.main.cy.fails = 0)
    ∧ (∃ (dt : Nat) (s : State) (x : State), x = s.at dt ∧ x.blocksRun ∧ x.hearth.ps ≠ .smoulder ∧ x.main.cy.fails = 2 ∧ x.main.cy.rngFail = false)
    ∧ (∃ (dt : Nat) (s : State) (x : State), x = s.at dt ∧ x.blocksRun ∧ x.main.cy.rngFail = true ∧ x.main.cy.restartAt + 10 * secT ≤ x.now)
    ∧ (∃ (dt : Nat) (i : Nat) (s : State) (x : State), x = s.at dt ∧ x.blocksRun ∧ i ≤ 2 ∧ x.main.cy.ready = true ∧ x.main.cy.rngFail = false)
    ∧ (∃ (dt : Nat) (i : Nat) (s : State) (x : State), x = s.at dt ∧ x.blocksRun ∧ i ≤ 2 ∧ x.main.cy.ready = true ∧ x.main.cy.rngFail = true)
    ∧ (∃ (dt : Nat) (s : State) (x : State), x = s.at dt ∧ x.blocksRun ∧ x.hearth.ps ≠ .smoulder ∧ x.main.cy.testing = true ∧ x.main.cy.stopped = [false, false, false])
    ∧ (∃ (dt : Nat) (u : KeyUpdate) (s : State) (x : State), x = s.at dt ∧ x.blocksRun ∧ x.main.cy.update = some u ∧ u.since + msT ≤ x.now)
    ∧ (∃ (x : State) (u : KeyUpdate), x.main.cy.update = some u ∧ x.usingBank u.slot (1 - dirActive (x.keySlot u.slot).dir) = [])
    ∧ (∃ (dt : Nat) (q : Nat) (s : State) (x : State), x = s.at dt ∧ x.blocksRun ∧ q < 4) :=
  ⟨⟨(0), (1), (3), (aReq), ([]), (7), (cipherOn.modCy (fun c => { c with queues := c.queues.set 3 [aReq] })), _, rfl, ⟨⟨by decide +kernel, by decide +kernel⟩, by decide +kernel⟩, by decide +kernel, by decide +kernel, by decide +kernel, by decide +kernel, by decide +kernel, by decide +kernel, by decide +kernel, by decide +kernel, by decide +kernel⟩,
   ⟨(0), (7), (aReq), (cipherOn.modCy (fun c => { c with pipes := [some aReq, none] })), _, rfl, ⟨⟨by decide +kernel, by decide +kernel⟩, by decide +kernel⟩, by decide +kernel, by decide +kernel, by decide +kernel, by decide +kernel, by decide +kernel⟩,
   ⟨(0), (cipherOn), _, rfl, ⟨⟨by decide +kernel, by decide +kernel⟩, by decide +kernel⟩, by decide +kernel, by decide +kernel⟩,
   ⟨(0), (cipherOn.modCy (fun c => { c with fails := 2 })), _, rfl, ⟨⟨by decide +kernel, by decide +kernel⟩, by decide +kernel⟩, by decide +kernel, by decide +kernel, by decide +kernel⟩,
   ⟨(0), (cipherOn.modCy (fun c => { c with rngFail := true })), _, rfl, ⟨⟨by decide +kernel, by decide +kernel⟩, by decide +kernel⟩, by decide +kernel, by decide +kernel⟩,
   ⟨(0), (2), (cipherOn), _, rfl, ⟨⟨by decide +kernel, by decide +kernel⟩, by decide +kernel⟩, by decide +kernel, by decide +kernel, by decide +kernel⟩,
   ⟨(0), (2), (cipherOn.modCy (fun c => { c with rngFail := true })), _, rfl, ⟨⟨by decide +kernel, by decide +kernel⟩, by decide +kernel⟩, by decide +kernel, by decide +kernel, by decide +kernel⟩,
   ⟨(0), (lone), _, rfl, ⟨⟨by decide +kernel, by decide +kernel⟩, by decide +kernel⟩, by decide +kernel, by decide +kernel, by decide +kernel⟩,
   ⟨(0), (anUpdate), (cipherOn.modCy (fun c => { c with update := some anUpdate })), _, rfl, ⟨⟨by decide +kernel, by decide +kernel⟩, by decide +kernel⟩, by decide +kernel, by decide +kernel⟩,
   ⟨(cipherOn.modCy (fun c => { c with update := some anUpdate })), (anUpdate), by decide +kernel, by decide +kernel⟩,
   ⟨(0), (3), (lone), _, rfl, ⟨⟨by decide +kernel, by decide +kernel⟩, by decide +kernel⟩, by decide +kernel⟩⟩

theorem met_CipherOpcodes :
    (∃ (dt : Nat) (tag : BitVec 16) (s : State) (x : State), s.willRun dt 0x0B00 tag.toNat [] ∧ x = s.asked dt 0x0B00 tag.toNat [])
    ∧ (∃ (dt : Nat) (k : Nat) (tag : BitVec 16) (p : List Byte) (s : State) (x : State), s.willRun dt 0x0B01 tag.toNat p ∧ x = s.asked dt 0x0B01 tag.toNat p ∧ p.length = 1 ∧ k = field p 0 1 ∧ dirPaired (x.keySlot k).dir = false ∧ dirPrev (x.keySlot k).dir = false)
    ∧ (∃ (dt : Nat) (tag : BitVec 16) (p : List Byte) (s : State) (x : State), s.willRun dt 0x0B02 tag.toNat p ∧ x = s.asked dt 0x0B02 tag.toNat p ∧ 1 ≤ field p 1 1 ∧ field p 1 1 ≤ 3 ∧ p.length = 38 + keyBytes (field p 1 1) ∧ field p 2 1 ≤ 63 ∧ field p 3 1 = 0 ∧ field p 4 2 ≤ 0x100)
    ∧ (∃ (dt : Nat) (tag : BitVec 16) (p : List Byte) (s : State) (x : State), s.willRun dt 0x0B03 tag.toNat p ∧ x = s.asked dt 0x0B03 tag.toNat p ∧ p.length = 1)
    ∧ (∃ (dt : Nat) (tag : BitVec 16) (s : State) (x : State), s.willRun dt 0x0B04 tag.toNat (be 2 0xA5C3) ∧ x = s.asked dt 0x0B04 tag.toNat (be 2 0xA5C3))
    ∧ (∃ (x : State) (k : Nat), x.main.out = false ∧ k < 256)
    ∧ (∃ (dt : Nat) (q : Nat) (tag : BitVec 16) (p : List Byte) (s : State) (x : State) (y : State), s.willRun dt 0x0B05 tag.toNat p ∧ x = s.asked dt 0x0B05 tag.toNat p ∧ field p 0 1 = 1 ∧ 21 ≤ p.length ∧ p.length ≤ 4020 ∧ field p 2 2 = 0 ∧ dirPaired (x.keySlot (field p 1 1)).dir = false ∧ q = x.fld 0x0B0000 1 0 ∧ x.cqOn q = true ∧ x.canRun = true ∧ x.submit { id := 0, for_ := .run x.lastOp, op := 1, slot := field p 1 1, fixed := bytesAt p 4 16, data := p.drop 20, tag := [], queue := q, since := x.now } = (y, 0))
    ∧ (∃ (x : State) (r : CyReq), x.cqOn r.queue = true ∧ (at? x.main.cy.queues r.queue []).length < 1024) :=
  ⟨⟨(0), (0), (lone), _, executes_of (by decide +kernel), rfl⟩,
   ⟨(0), _, (0), ([255#8]), (lone), _, executes_of (by decide +kernel), rfl, by decide +kernel, rfl, by decide +kernel, by decide +kernel⟩,
   ⟨(0), (0), ([255#8, 3#8, 63#8, 0#8, 1#8] ++ List.replicate 65 0#8), (lone), _, executes_of (by decide +kernel), rfl, by decide +kernel, by decide +kernel, by decide +kernel, by decide +kernel, by decide +kernel, by decide +kernel⟩,
   ⟨(0), (0), ([255#8]), (lone), _, executes_of (by decide +kernel), rfl, by decide +kernel⟩,
   ⟨(0), (0), (lone), _, executes_of (by decide +kernel), rfl⟩,
   ⟨(dark), (255), by decide +kernel, by decide +kernel⟩,
   ⟨(0), _, (0), ([1#8] ++ List.replicate 20 0#8), (cipherOn), _, _, executes_of (by decide +kernel), rfl, by decide +kernel, by decide +kernel, by decide +kernel, by decide +kernel, by decide +kernel, rfl, by decide +kernel, by decide +kernel, pair_snd (by decide +kernel)⟩,
   ⟨(cipherOn), (aReq), by decide +kernel, by decide +kernel⟩⟩

theorem met_PictureStages :
    (∃ (dt : Nat) (c : Nat) (s : State) (x : State), x = s.at dt ∧ x.blocksRun ∧ x.main.pc.s2 = some c)
    ∧ (∃ (dt : Nat) (c : Nat) (preds : List (Int × Int)) (es : List (Int × Int × Nat)) (p : Pic) (s : State) (x : State) (x0 : State) (y : State), x = s.at dt ∧ x.blocksRun ∧ x.main.pc.s3 = some c ∧ x.pic? c = some p ∧ p.cut = false ∧ x.searchRow c p preds = (x0, es) ∧ y = (x0.modPc (fun q => { q with s3 := none })).modPic c (fun q => { q with field := q.field ++ q.fieldRow es, s3At := q.s3At ++ [x.now], ring := q.ring.drop 32, ringRow := q.ringRow + 1, coding := [] }))
    ∧ (∃ (x : State) (y : State) (c : Nat) (id : Nat) (k : Clip) (b : List Byte), (x.pcChan c).clip = some id ∧ x.clip? id = some k ∧ k.locked = false ∧ x.room b.length = some y)
    ∧ (∃ (dt : Nat) (c : Nat) (p : Pic) (s : State) (x : State), x = s.at dt ∧ x.blocksRun ∧ x.main.pc.s5 = some c ∧ x.pic? c = some p ∧ p.geom.lean = false ∧ p.geom.main = false ∧ p.s5 + 1 < p.rows)
    ∧ (∃ (dt : Nat) (c : Nat) (s : State) (x : State), x = s.at dt ∧ x.blocksRun ∧ c < 4)
    ∧ (∃ (dt : Nat) (d : Dec) (s : State) (x : State) (y : State), x = s.at dt ∧ x.blocksRun ∧ x.main.pc.dec = some d ∧ y = x.modPc (fun p => { p with dec := some { d.skipTo with scanning := false } }))
    ∧ (∃ (x : State) (d : Dec), x.main.pc.dec = some d)
    ∧ (∃ (l : List (Int × Int)) (v : Int × Int), v ∈ l)
    ∧ (∃ (q : SearchIn) (i : Nat) (k : Nat) (pred : Int × Int) (free : Nat → Nat) (vx : Int) (vy : Int) (cost : Nat), searchRegion q i k pred free = (vx, vy, cost)) :=
  ⟨⟨(0), (3), (coder (fun p => { p with s2 := some 3 })), _, rfl, ⟨⟨by decide +kernel, by decide +kernel⟩, by decide +kernel⟩, by decide +kernel⟩,
   ⟨(0), (3), ([]), _, (aPic false), (coder (fun p => { p with s3 := some 3 })), _, _, _, rfl, ⟨⟨by decide +kernel, by decide +kernel⟩, by decide +kernel⟩, by decide +kernel, by decide +kernel, by decide +kernel, pair_eta _, rfl⟩,
   ⟨(coder (fun p => p)), _, (3), (0xFFFE), (aClip), ([1#8]), by decide +kernel, by decide +kernel, by decide +kernel, some_get (by decide +kernel)⟩,
   ⟨(0), (3), (aPic false), (coder (fun p => { p with s5 := some 3 })), _, rfl, ⟨⟨by decide +kernel, by decide +kernel⟩, by decide +kernel⟩, by decide +kernel, by decide +kernel, by decide +kernel, by decide +kernel, by decide +kernel⟩,
   ⟨(0), (3), (lone), _, rfl, ⟨⟨by decide +kernel, by decide +kernel⟩, by decide +kernel⟩, by decide +kernel⟩,
   ⟨(0), (aDec), (coder (fun p => { p with dec := some aDec })), _, _, rfl, ⟨⟨by decide +kernel, by decide +kernel⟩, by decide +kernel⟩, by decide +kernel, rfl⟩,
   ⟨(coder (fun p => { p with dec := some aDec })), (aDec), by decide +kernel⟩,
   ⟨([(1, -2)]), (1, -2), by decide +kernel⟩,
   ⟨⟨[], [], [], 0, [], [], [], 0⟩, 0, 0, (0, 0), (fun _ => 0), _, _, _, triple_eta _⟩⟩

theorem met_PictureOpcodes :
    (∃ (dt : Nat) (tag : BitVec 16) (s : State) (x : State), s.willRun dt 0x0C00 tag.toNat [] ∧ x = s.asked dt 0x0C00 tag.toNat [])
    ∧ (∃ (dt : Nat) (w : Nat) (tag : BitVec 16) (p : List Byte) (s : State) (x : State), s.willRun dt 0x0C01 tag.toNat p ∧ x = s.asked dt 0x0C01 tag.toNat p ∧ p.length = 4 ∧ w = field p 0 4 ∧ regLegal (regFields (pcReg 0)) w = true ∧ bitOf w 30 = false ∧ bits w 25 24 = 0 ∧ bits w 7 4 = 0)
    ∧ (∃ (dt : Nat) (c : Nat) (tag : BitVec 16) (p : List Byte) (s : State) (x : State), s.willRun dt 0x0C02 tag.toNat p ∧ x = s.asked dt 0x0C02 tag.toNat p ∧ p.length = 1 ∧ c = field p 0 1 ∧ c < 4 ∧ (x.pcChan c).on = true)
    ∧ (∃ (dt : Nat) (first : Nat) (n : Nat) (tag : BitVec 16) (p : List Byte) (s : State) (x : State), s.willRun dt 0x0C03 tag.toNat p ∧ x = s.asked dt 0x0C03 tag.toNat p ∧ p.length = 3 ∧ first = field p 0 2 ∧ n = field p 2 1 ∧ 1 ≤ n ∧ n ≤ 120)
    ∧ (∃ (dt : Nat) (n : Nat) (k : Clip) (tag : BitVec 16) (p : List Byte) (s : State) (x : State), s.willRun dt 0x0C04 tag.toNat p ∧ x = s.asked dt 0x0C04 tag.toNat p ∧ p.length = 6 ∧ n = field p 4 2 ∧ 1 ≤ n ∧ n ≤ 255 ∧ x.clip? (field p 0 2) = some k)
    ∧ (∃ (dt : Nat) (k : Clip) (us : List (List Byte)) (tag : BitVec 16) (p : List Byte) (s : State) (x : State), s.willRun dt 0x0C05 tag.toNat p ∧ x = s.asked dt 0x0C05 tag.toNat p ∧ p.length = 5 ∧ field p 4 1 = 0 ∧ x.clip? (field p 0 2) = some k ∧ field p 2 2 = k.records.length ∧ x.readClip k.id = x ∧ x.clip? k.id = some k ∧ us = unitsOf 0 k.id 0 (x.unitSize 0) (k.header x))
    ∧ (∃ (dt : Nat) (st : Nat) (tag : BitVec 16) (p : List Byte) (s : State) (x : State) (y : State), s.willRun dt 0x0C06 tag.toNat p ∧ x = s.asked dt 0x0C06 tag.toNat p ∧ p.length = 3 ∧ field p 2 1 ≤ 1 ∧ x.lockClip (field p 0 2) (field p 2 1 == 1) 1 = (y, st))
    ∧ (∃ (x : State) (id : Nat) (k : Clip), x.clip? id = some k ∧ k.locked = false ∧ x.lockFits k.space = true)
    ∧ (∃ (dt : Nat) (k : Clip) (tag : BitVec 16) (p : List Byte) (s : State) (x : State), s.willRun dt 0x0C07 tag.toNat p ∧ x = s.asked dt 0x0C07 tag.toNat p ∧ p.length = 2 ∧ x.clip? (field p 0 2) = some k)
    ∧ (∃ (dt : Nat) (off : Nat) (tag : BitVec 16) (p : List Byte) (s : State) (x : State), s.willRun dt 0x0C08 tag.toNat p ∧ x = s.asked dt 0x0C08 tag.toNat p ∧ 5 ≤ p.length ∧ p.length ≤ 4094 ∧ off = field p 0 4 ∧ off + (p.length - 4) ≤ 262144 ∧ x.main.pc.dec = none)
    ∧ (∃ (dt : Nat) (id : Nat) (dest : Nat) (k : Clip) (tag : BitVec 16) (p : List Byte) (s : State) (x : State) (y : State) (z : State), s.willRun dt 0x0C09 tag.toNat p ∧ x = s.asked dt 0x0C09 tag.toNat p ∧ p.length = 7 ∧ id = field p 0 2 ∧ id ≠ 0xFFFF ∧ dest = field p 6 1 ∧ (dest = 1 ∨ dest = 2) ∧ x.main.pc.dec = none ∧ x.clip? id = some k ∧ x.noExport dest = false ∧ y = x.modPc (fun q => { q with dec := some { op := x.lastOp, clip := some id, dest := dest, mem := k.geom.decBytes, records := k.records }, decStopped := false }) ∧ y.main.pc.taken ≤ 1024 * x.poolKib ∧ y.room 0 = some z)
    ∧ (∃ (dt : Nat) (tag : BitVec 16) (s : State) (x : State), s.willRun dt 0x0C0A tag.toNat [] ∧ x = s.asked dt 0x0C0A tag.toNat [] ∧ x.main.pc.dec.isSome = true) :=
  ⟨⟨(0), (0), (lone), _, executes_of (by decide +kernel), rfl⟩,
   ⟨(0), _, (0), (be 4 (regReset 0x0C0100)), (lone), _, executes_of (by decide +kernel), rfl, by decide +kernel, rfl, by decide +kernel, by decide +kernel, by decide +kernel, by decide +kernel⟩,
   ⟨(0), _, (0), ([3#8]), (coder (fun p => p)), _, executes_of (by decide +kernel), rfl, by decide +kernel, rfl, by decide +kernel, by decide +kernel⟩,
   ⟨(0), _, _, (0), ([0#8, 0#8, 120#8]), (coder (fun p => p)), _, executes_of (by decide +kernel), rfl, by decide +kernel, rfl, rfl, by decide +kernel, by decide +kernel⟩,
   ⟨(0), _, (aClip), (0), ([255#8, 254#8, 0#8, 0#8, 0#8, 255#8]), (coder (fun p => p)), _, executes_of (by decide +kernel), rfl, by decide +kernel, rfl, by decide +kernel, by decide +kernel, by decide +kernel⟩,
   ⟨(0), (aClip), _, (0), ([255#8, 254#8, 0#8, 0#8, 0#8]), (coder (fun p => p)), _, executes_of (by decide +kernel), rfl, by decide +kernel, by decide +kernel, by decide +kernel, by decide +kernel, rfl, by decide +kernel, rfl⟩,
   ⟨(0), _, (0), ([255#8, 254#8, 1#8]), (coder (fun p => p)), _, _, executes_of (by decide +kernel), rfl, by decide +kernel, by decide +kernel, (rfl)⟩,
   ⟨((coder (fun p => p)).setFld 0x0C0000 6 0 50), (0xFFFE), (aClip), by decide +kernel, by decide +kernel, by decide +kernel⟩,
   ⟨(0), (aClip), (0), ([255#8, 254#8]), (coder (fun p => p)), _, executes_of (by decide +kernel), rfl, by decide +kernel, by decide +kernel⟩,
   ⟨(0), _, (0), ([0#8, 0#8, 0#8, 0#8, 1#8]), (lone), _, executes_of (by decide +kernel), rfl, by decide +kernel, by decide +kernel, rfl, by decide +kernel, by decide +kernel⟩,
   ⟨(0), _, _, (aClip), (0), ([255#8, 254#8, 0#8, 0#8, 0#8, 0#8, 2#8]), (((coder (fun p => p)).setFld 0x0C000C 31 30 2).modEport 1 (fun e => { e with up := true })), _, _, _, executes_of (by decide +kernel), rfl, by decide +kernel, rfl, by decide +kernel, rfl, by decide +kernel, by decide +kernel, by decide +kernel, by decide +kernel, rfl, by decide +kernel, some_get (by decide +kernel)⟩,
   ⟨(0), (0), (coder (fun p => { p with dec := some aDec })), _, executes_of (by decide +kernel), rfl, by decide +kernel⟩⟩

theorem met_WatchCaptures :
    (∃ (dt : Nat) (c : Nat) (h : WaChan) (st : CapStamp) (s : State) (x : State), x = s.at dt ∧ x.blocksRun ∧ c < 4 ∧ h = x.waChan c ∧ h.lost = false ∧ h.cap = .awaiting ∧ st = x.capStamp h.entry)
    ∧ (∃ (dt : Nat) (c : Nat) (vc : Nat) (s : State) (x : State), x = s.at dt ∧ x.blocksRun ∧ c < 4 ∧ vc ≠ 0)
    ∧ (∃ (dt : Nat) (c : Nat) (dtype : Nat) (s : State) (x : State), x = s.at dt ∧ x.blocksRun ∧ c < 4 ∧ dtype = csiType (x.fld (0x0D0100 + 64 * c) 30 29) ∧ (x.waChan c).cap = .receiving ∧ (x.waChan c).line < (x.waChan c).geom.h)
    ∧ (∃ (x : State) (y : State) (c : Nat) (raw : PLine), raw = repairLine (x.waChan c).geom (x.waChan c).above ∧ y = x.count (0x0D0100 + 64 * c + 24) 7 0)
    ∧ (∃ (dt : Nat) (c : Nat) (mean : Nat) (h : WaChan) (s : State) (x : State), x = s.at dt ∧ x.blocksRun ∧ c < 4 ∧ h = x.waChan c ∧ h.cap = .receiving ∧ h.line = h.geom.h ∧ h.picLit = false ∧ h.ambient = false ∧ h.ysum = mean * (h.geom.w * h.geom.h) ∧ 0 < h.geom.w * h.geom.h)
    ∧ (∃ (dt : Nat) (c : Nat) (h : WaChan) (s : State) (x : State) (y : State), x = s.at dt ∧ x.blocksRun ∧ c < 4 ∧ h = x.waChan c ∧ h.cap = .awaiting ∧ h.trigAt + x.fld (0x0D0100 + 64 * c) 15 0 * msT ≤ x.now ∧ y = ((((x.count (0x0D0100 + 64 * c + 24) 23 16).skipRecord c (x.capStamp h.entry)).finish? h.op 0x0012 []).modCam c (fun q => { q with noFrame := q.noFrame + 1 })).capEnd c ∧ (y.waChan c).noFrame ≠ 3)
    ∧ (∃ (dt : Nat) (c : Nat) (i : Nat) (key : Option Nat) (s : State) (x : State), x = s.at dt ∧ x.blocksRun ∧ key = x.entHeld (x.fld (0x0D0100 + 64 * c + 12) 29 21) ∧ x.lampPos c = some i ∧ x.reached i = true ∧ x.lampWill c = true ∧ (x.waChan c).lampDone ≠ key)
    ∧ (∃ (dt : Nat) (c : Nat) (s : State) (x : State), x = s.at dt ∧ x.blocksRun ∧ (x.waChan c).lit = true ∧ (x.waChan c).litAt + x.fld (0x0D0100 + 64 * c + 16) 23 16 * msT ≤ x.now)
    ∧ (∃ (dt : Nat) (d : Nat) (s : State) (x : State), x = s.at dt ∧ x.blocksRun ∧ d < 4 ∧ x.bit (0x0D0800 + 32 * d) 31 = true ∧ (x.reader d).stopped = false ∧ (x.reader d).rotAt + x.fld (0x0D0800 + 32 * d + 12) 19 12 * secT ≤ x.now)
    ∧ (∃ (dt : Nat) (c : Nat) (tag : BitVec 16) (p : List Byte) (s : State) (x : State), s.willRun dt 0x0D00 tag.toNat p ∧ x = s.asked dt 0x0D00 tag.toNat p ∧ p.length = 1 ∧ c = field p 0 1 ∧ c < 4)
    ∧ (∃ (dt : Nat) (c : Nat) (tag : BitVec 16) (p : List Byte) (s : State) (x : State), s.willRun dt 0x0D01 tag.toNat p ∧ x = s.asked dt 0x0D01 tag.toNat p ∧ p.length = 1 ∧ c = field p 0 1 ∧ c < 4 ∧ (x.waChan c).cap = .idle ∧ x.trigOk c = true ∧ x.lampInUse c = false ∧ x.bit (0x0D0100 + 64 * c) 28 = true)
    ∧ (∃ (dt : Nat) (c : Nat) (poc : Nat) (a : Nat) (dn : Nat) (f : List Nat) (tag : BitVec 16) (p : List Byte) (s : State) (x : State), s.willRun dt 0x0D02 tag.toNat p ∧ x = s.asked dt 0x0D02 tag.toNat p ∧ p.length = 1 ∧ c = field p 0 1 ∧ c < 4 ∧ (x.waChan c).last = some (poc, a, dn, f))
    ∧ (∃ (dt : Nat) (d : Nat) (tag : BitVec 16) (p : List Byte) (s : State) (x : State), s.willRun dt 0x0D03 tag.toNat p ∧ x = s.asked dt 0x0D03 tag.toNat p ∧ p.length = 1 ∧ d = field p 0 1 ∧ d < 4)
    ∧ (∃ (dt : Nat) (c : Nat) (tag : BitVec 16) (p : List Byte) (s : State) (x : State), s.willRun dt 0x0D04 tag.toNat p ∧ x = s.asked dt 0x0D04 tag.toNat p ∧ p.length = 4 + field p 2 1 ∧ c = field p 0 1 ∧ c < 4 ∧ field p 1 1 ≤ 127 ∧ field p 2 1 ≤ 32 ∧ field p 3 1 ≤ 32 ∧ x.bit (0x0C0100 + 64 * c) 31 = false) :=
  ⟨⟨(0), (3), _, _, (camera .awaiting), _, rfl, ⟨⟨by decide +kernel, by decide +kernel⟩, by decide +kernel⟩, by decide +kernel, rfl, by decide +kernel, by decide +kernel, rfl⟩,
   ⟨(0), (3), (3), (lone), _, rfl, ⟨⟨by decide +kernel, by decide +kernel⟩, by decide +kernel⟩, by decide +kernel, by decide +kernel⟩,
   ⟨(0), (3), (0x2B), (camera .receiving), _, rfl, ⟨⟨by decide +kernel, by decide +kernel⟩, by decide +kernel⟩, by decide +kernel, by decide +kernel, by decide +kernel, by decide +kernel⟩,
   ⟨(lone), _, (3), _, rfl, rfl⟩,
   ⟨(0), (3), (0), _, ((camera .receiving).modCam 3 (fun h => { h with line := 960 })), _, rfl, ⟨⟨by decide +kernel, by decide +kernel⟩, by decide +kernel⟩, by decide +kernel, rfl, by decide +kernel, by decide +kernel, by decide +kernel, by decide +kernel, by decide +kernel, by decide +kernel⟩,
   ⟨(0), (3), _, (camera .awaiting), _, _, rfl, ⟨⟨by decide +kernel, by decide +kernel⟩, by decide +kernel⟩, by decide +kernel, rfl, by decide +kernel, by decide +kernel, rfl, by decide +kernel⟩,
   ⟨(0), (3), _, _, (lampSet), _, rfl, ⟨⟨by decide +kernel, by decide +kernel⟩, by decide +kernel⟩, rfl, some_get (by decide +kernel), by decide +kernel, by decide +kernel, by decide +kernel⟩,
   ⟨(0), (3), (lone.modCam 3 (fun h => { h with lit := true })), _, rfl, ⟨⟨by decide +kernel, by decide +kernel⟩, by decide +kernel⟩, by decide +kernel, by decide +kernel⟩,
   ⟨(0), (3), (lone.setFld 0x0D0860 31 31 1), _, rfl, ⟨⟨by decide +kernel, by decide +kernel⟩, by decide +kernel⟩, by decide +kernel, by decide +kernel, by decide +kernel, by decide +kernel⟩,
   ⟨(0), _, (0), ([3#8]), (lone), _, executes_of (by decide +kernel), rfl, by decide +kernel, rfl, by decide +kernel⟩,
   ⟨(0), _, (0), ([3#8]), ((camera .idle).setFld 0x0D01C0 28 28 1), _, executes_of (by decide +kernel), rfl, by decide +kernel, rfl, by decide +kernel, by decide +kernel, by decide +kernel, by decide +kernel, by decide +kernel⟩,
   ⟨(0), _, (7), (1), (1), ([1]), (0), ([3#8]), (lone.modCam 3 (fun h => { h with last := some (7, 1, 1, [1]) })), _, executes_of (by decide +kernel), rfl, by decide +kernel, rfl, by decide +kernel, by decide +kernel⟩,
   ⟨(0), _, (0), ([3#8]), (lone), _, executes_of (by decide +kernel), rfl, by decide +kernel, rfl, by decide +kernel⟩,
   ⟨(0), _, (0), ([3#8, 127#8, 32#8, 32#8] ++ List.replicate 32 0#8), (lone), _, executes_of (by decide +kernel), rfl, by decide +kernel, rfl, by decide +kernel, by decide +kernel, by decide +kernel, by decide +kernel, by decide +kernel⟩⟩

theorem met_FuseChannels :
    (∃ (dt : Nat) (s : State) (x : State), x = s.at dt ∧ x.blocksRun)
    ∧ (∃ (x : State) (y : State) (c : Nat) (lim : Nat) (f : Fuse), f = x.fuse c ∧ f.st = .on ∧ lim = bits (x.pwWord c 2) 23 16 ∧ lim * 10 ≤ f.sense * 2 ∧ f.sense * 2 ≤ bits (x.pwWord c 2) 31 24 * 10 ∧ 10 * bits (x.pwWord c 2) 7 0 ≤ f.ocRun + 1 ∧ y = x.modFuse c (fun q => { q with busOk := if x.busIn c then some (q.busOk.getD x.now) else none, ocRun := f.ocRun + 1, dmgSince := if x.outHigh c && !q.st.gate && q.st != .damaged then some (q.dmgSince.getD x.now) else none }))
    ∧ (∃ (x : State) (y : State) (c : Nat) (f : Fuse), f = x.fuse c ∧ f.st.gate = true ∧ bits (x.pwWord c 2) 31 24 * 10 < f.sense * 2 ∧ y = x.modFuse c (fun q => { q with busOk := if x.busIn c then some (q.busOk.getD x.now) else none, ocRun := if f.st = .on ∧ bits (x.pwWord c 2) 23 16 * 10 ≤ f.sense * 2 then f.ocRun + 1 else 0, dmgSince := if x.outHigh c && !q.st.gate && q.st != .damaged then some (q.dmgSince.getD x.now) else none }))
    ∧ (∃ (dt : Nat) (c : Nat) (s : State) (x : State), x = s.at dt ∧ x.blocksRun ∧ (x.fuse c).st.gate = true)
    ∧ (∃ (x : State) (y : State) (c : Nat) (kind : Nat), y = (((x.modFuse c (fun f => { f with trips := f.trips + 1 })).count (0x0E0100 + 32 * c + 28) (31 - 8 * kind) (24 - 8 * kind)).pwEvent c kind) ∧ bits (x.pwWord c 4) 15 12 < ((x.modFuse c (fun f => { f with trips := f.trips + 1 })).fuse c).trips)
    ∧ (∃ (dt : Nat) (c : Nat) (s : State) (x : State), x = s.at dt ∧ x.blocksRun ∧ (x.fuse c).st = .inrush ∧ (x.fuse c).frozenAt = none)
    ∧ (∃ (dt : Nat) (c : Nat) (t : Nat) (s : State) (x : State), x = s.at dt ∧ x.blocksRun ∧ (x.fuse c).st = .inrush ∧ (x.fuse c).frozenAt = some t ∧ t + 5 * msT ≤ x.now ∧ (x.fuse c).sampledAt ≠ some x.now)
    ∧ (∃ (dt : Nat) (c : Nat) (t : Nat) (s : State) (x : State), x = s.at dt ∧ x.blocksRun ∧ (x.fuse c).st = .on ∧ (x.fuse c).uvSince = some t ∧ t + bits (x.pwWord c 4) 7 0 * msT ≤ x.now)
    ∧ (∃ (dt : Nat) (c : Nat) (s : State) (x : State), x = s.at dt ∧ x.blocksRun ∧ c < 8 ∧ (x.fuse c).seated = false)
    ∧ (∃ (dt : Nat) (c : Nat) (a : Bool) (b : Bool) (s : State) (x : State), x = s.at dt ∧ x.blocksRun ∧ c < 8 ∧ (x.fuse c).seated = true ∧ (a = true ∨ b = true) ∧ (x.fuse c).st ≠ .off ∧ (x.fuse c).st ≠ .damaged)
    ∧ (∃ (dt : Nat) (c : Nat) (s : State) (x : State), x = s.at dt ∧ x.blocksRun ∧ (x.fuse c).st = .wait ∧ x.startMet c = true ∧ x.outHigh c = false ∧ x.hearth.ps ≠ .smoulder)
    ∧ (∃ (dt : Nat) (c : Nat) (s : State) (x : State), x = s.at dt ∧ x.blocksRun ∧ (x.fuse c).st = .inrush ∧ (x.fuse c).frozenAt = none ∧ (x.fuse c).inrushAt + (x.fuse c).frozen + bits (x.pwWord c 3) 23 16 * msT ≤ x.now)
    ∧ (∃ (dt : Nat) (c : Nat) (s : State) (x : State), x = s.at dt ∧ x.blocksRun ∧ (x.fuse c).st = .backoff ∧ (x.fuse c).offAt + bits (x.pwWord c 4) 23 16 * 10 * msT ≤ x.now)
    ∧ (∃ (dt : Nat) (c : Nat) (s : State) (x : State), x = s.at dt ∧ x.blocksRun ∧ (x.fuse c).st = .on ∧ (x.fuse c).onAt + secT ≤ x.now)
    ∧ (∃ (dt : Nat) (c : Nat) (t : Nat) (s : State) (x : State), x = s.at dt ∧ x.blocksRun ∧ (x.fuse c).dmgSince = some t ∧ (x.fuse c).st.gate = false ∧ (x.fuse c).st ≠ .damaged ∧ t + bits (x.pwWord c 0) 7 0 * 10 * msT ≤ x.now)
    ∧ (∃ (dt : Nat) (c : Nat) (s : State) (x : State), x = s.at dt ∧ x.blocksRun ∧ c < 12)
    ∧ (∃ (dt : Nat) (tag : BitVec 16) (s : State) (x : State), s.willRun dt 0x0E00 tag.toNat [] ∧ x = s.asked dt 0x0E00 tag.toNat [])
    ∧ (∃ (dt : Nat) (c : Nat) (tag : BitVec 16) (p : List Byte) (s : State) (x : State), s.willRun dt 0x0E01 tag.toNat p ∧ x = s.asked dt 0x0E01 tag.toNat p ∧ p.length = 1 ∧ c = field p 0 1 ∧ c < 12 ∧ (x.fuse c).st = .latched)
    ∧ (∃ (dt : Nat) (c : Nat) (tag : BitVec 16) (p : List Byte) (s : State) (x : State), s.willRun dt 0x0E01 tag.toNat p ∧ x = s.asked dt 0x0E01 tag.toNat p ∧ p.length = 1 ∧ c = field p 0 1 ∧ c < 12 ∧ (x.fuse c).st = .on) :=
  ⟨⟨(0), (lone), _, rfl, ⟨⟨by decide +kernel, by decide +kernel⟩, by decide +kernel⟩⟩,
   ⟨(((fuseIn .on).setFld (0x0E0100 + 32 * 11 + 8) 31 16 0xFF01).modFuse 11 (fun f => { f with sense := 1023, ocRun := 3000 })), _, (11), _, _, rfl, by decide +kernel, (rfl), by decide +kernel, by decide +kernel, by decide +kernel, rfl⟩,
   ⟨(((fuseIn .on).setFld (0x0E0100 + 32 * 11 + 8) 31 24 204).modFuse 11 (fun f => { f with sense := 1023 })), _, (11), _, rfl, by decide +kernel, by decide +kernel, rfl⟩,
   ⟨(0), (11), (fuseIn .on), _, rfl, ⟨⟨by decide +kernel, by decide +kernel⟩, by decide +kernel⟩, by decide +kernel⟩,
   ⟨((fuseIn .on).modFuse 11 (fun f => { f with trips := 15 })), _, (11), (2), rfl, by decide +kernel⟩,
   ⟨(0), (11), (fuseIn .inrush), _, rfl, ⟨⟨by decide +kernel, by decide +kernel⟩, by decide +kernel⟩, by decide +kernel, by decide +kernel⟩,
   ⟨(0), (11), (0), ((fuseIn .inrush).modFuse 11 (fun f => { f with frozenAt := some 0 })), _, rfl, ⟨⟨by decide +kernel, by decide +kernel⟩, by decide +kernel⟩, by decide +kernel, by decide +kernel, by decide +kernel, by decide +kernel⟩,
   ⟨(0), (11), (0), ((fuseIn .on).modFuse 11 (fun f => { f with uvSince := some 0 })), _, rfl, ⟨⟨by decide +kernel, by decide +kernel⟩, by decide +kernel⟩, by decide +kernel, by decide +kernel, by decide +kernel⟩,
   ⟨(0), (7), (lone), _, rfl, ⟨⟨by decide +kernel, by decide +kernel⟩, by decide +kernel⟩, by decide +kernel, by decide +kernel⟩,
   ⟨(0), (7), (true), (false), (lone.modFuse 7 (fun f => { f with seated := true, st := .on })), _, rfl, ⟨⟨by decide +kernel, by decide +kernel⟩, by decide +kernel⟩, by decide +kernel, by decide +kernel, by decide +kernel, by decide +kernel, by decide +kernel⟩,
   ⟨(0), (11), ((fuseIn .wait).modFuse 11 (fun f => { f with busOk := some 0 })), _, rfl, ⟨⟨by decide +kernel, by decide +kernel⟩, by decide +kernel⟩, by decide +kernel, by decide +kernel, by decide +kernel, by decide +kernel⟩,
   ⟨(0), (11), (fuseIn .inrush), _, rfl, ⟨⟨by decide +kernel, by decide +kernel⟩, by decide +kernel⟩, by decide +kernel, by decide +kernel, by decide +kernel⟩,
   ⟨(0), (11), (fuseIn .backoff), _, rfl, ⟨⟨by decide +kernel, by decide +kernel⟩, by decide +kernel⟩, by decide +kernel, by decide +kernel⟩,
   ⟨(0), (11), (fuseIn .on), _, rfl, ⟨⟨by decide +kernel, by decide +kernel⟩, by decide +kernel⟩, by decide +kernel, by decide +kernel⟩,
   ⟨(0), (11), (0), ((fuseIn .off).modFuse 11 (fun f => { f with dmgSince := some 0 })), _, rfl, ⟨⟨by decide +kernel, by decide +kernel⟩, by decide +kernel⟩, by decide +kernel, by decide +kernel, by decide +kernel, by decide +kernel⟩,
   ⟨(0), (11), (lone), _, rfl, ⟨⟨by decide +kernel, by decide +kernel⟩, by decide +kernel⟩, by decide +kernel⟩,
   ⟨(0), (0), (lone), _, executes_of (by decide +kernel), rfl⟩,
   ⟨(0), _, (0), ([11#8]), (fuseIn .latched), _, executes_of (by decide +kernel), rfl, by decide +kernel, rfl, by decide +kernel, by decide +kernel⟩,
   ⟨(0), _, (0), ([11#8]), (fuseIn .on), _, executes_of (by decide +kernel), rfl, by decide +kernel, rfl, by decide +kernel, by decide +kernel⟩⟩

theorem met_StraitFlits :
    (∃ (dt : Nat) (k : Nat) (s : State) (x : State), x = s.at dt ∧ x.blocksRun ∧ k < 2 ∧ (x.link k).st = .up ∧ (x.link k).nak = false)
    ∧ (∃ (dt : Nat) (k : Nat) (h : Nat) (flit : List Byte) (body : List Byte) (s : State) (x : State), x = s.at dt ∧ x.blocksRun ∧ k < 2 ∧ (x.link k).st = .up ∧ h = field flit 0 2 ∧ body = bytesAt flit 2 27 ∧ bits h 15 14 = 2 ∧ field flit 29 3 = flitCrc (x.link k).nextRx (bytesAt flit 0 2) body ∧ flit ≠ trainingSlot)
    ∧ (∃ (dt : Nat) (k : Nat) (s : State) (x : State) (y : State), x = s.at dt ∧ x.blocksRun ∧ k < 2 ∧ (x.link k).st = .up ∧ x.draw = (Config.free x.freeIdx, y))
    ∧ (∃ (x : State) (y : State) (k : Nat) (h : Nat) (cls : Nat) (c : StClass), cls = bits h 13 12 ∧ c = at? (x.link k).classes cls {} ∧ h % 4 = 0 ∧ 1 ≤ bits h 9 5 ∧ bits h 9 5 ≤ 27 ∧ bitOf h 11 = true ∧ bitOf h 10 = false ∧ c.rx = none ∧ 1 ≤ sdiff 16 (c.ownD + c.df) c.rd ∧ 1 ≤ sdiff 16 (c.ownH + c.hf) c.rh ∧ y = x.modLink k (fun l => { l with nextRx := (l.nextRx + 1) % 4096, nak := false, nakAt := none, uncovered := l.uncovered + 1, uncoveredAt := some (l.uncoveredAt.getD x.now), due := if l.uncovered = 31 then l.due ++ [(0x01, [])] else l.due }))
    ∧ (∃ (dt : Nat) (k : Nat) (s : State) (x : State), x = s.at dt ∧ x.blocksRun ∧ k < 2 ∧ (x.link k).st = .up ∧ (x.link k).nak = false ∧ (x.link k).due = [] ∧ (x.link k).sleepOrder = false ∧ (x.link k).replayAt = none ∧ x.pickClass k = none)
    ∧ (∃ (dt : Nat) (k : Nat) (c : Nat) (s : State) (x : State), x = s.at dt ∧ x.blocksRun ∧ k < 2 ∧ (x.link k).st = .up ∧ (x.link k).nak = false ∧ (x.link k).due = [] ∧ (x.link k).sleepOrder = false ∧ (x.link k).replayAt = none ∧ x.pickClass k = some c)
    ∧ (∃ (dt : Nat) (k : Nat) (nr : Nat) (b : List Byte) (s : State) (x : State), x = s.at dt ∧ x.blocksRun ∧ k < 2 ∧ (x.link k).st = .up ∧ nr = field b 0 2 ∧ nr < 4096 ∧ (b.drop 18).all (· == 0#8) = true ∧ 0 ≤ sdiff12 nr (x.link k).oldest ∧ sdiff12 nr (x.link k).oldest ≤ (x.link k).out ∧ (∀ i < 4, creditOk (at? (x.link k).classes i {}).advH (at? (x.link k).classes i {}).phf (field b (2 + 4 * i) 2) (at? (x.link k).classes i {}).hc = true ∧ creditOk (at? (x.link k).classes i {}).advD (at? (x.link k).classes i {}).pdf (field b (4 + 4 * i) 2) (at? (x.link k).classes i {}).dc = true))
    ∧ (∃ (x : State) (k : Nat), (x.link k).out ≠ 0 ∧ (x.link k).r < bits (x.linkCfg k) 27 24)
    ∧ (∃ (dt : Nat) (k : Nat) (b : List Byte) (s : State) (x : State), x = s.at dt ∧ x.blocksRun ∧ k < 2 ∧ (x.link k).st = .init ∧ field b 0 1 = 1 ∧ field b 1 1 < 16 ∧ field b 4 2 < 4096 ∧ field b 6 2 < 4096 ∧ field b 8 1 < 4 ∧ (b.drop 25).all (· == 0#8) = true ∧ field b 2 2 ≠ x.main.st.session ∧ ((x.link k).fresh = true ∨ (x.link k).lastUp ≠ some (x.main.st.session, field b 2 2) ∨ bitOf (field b 8 1) 1 = false ∨ (0 ≤ sdiff12 (field b 6 2) (x.link k).nextRx ∧ sdiff12 (field b 6 2) (x.link k).nextRx ≤ 1024))) :=
  ⟨⟨(0), (1), (linkUp), _, rfl, ⟨⟨by decide +kernel, by decide +kernel⟩, by decide +kernel⟩, by decide +kernel, by decide +kernel, by decide +kernel⟩,
   ⟨(0), (1), _, (aFlit), _, (linkUp), _, rfl, ⟨⟨by decide +kernel, by decide +kernel⟩, by decide +kernel⟩, by decide +kernel, by decide +kernel, rfl, rfl, by decide +kernel, by decide +kernel, by decide +kernel⟩,
   ⟨(0), (1), (linkUp), _, _, rfl, ⟨⟨by decide +kernel, rfl⟩, rfl⟩, by decide +kernel, by decide +kernel, rfl⟩,
   ⟨(linkUp), _, (1), (2 * 2 ^ 14 + 3 * 2 ^ 12 + 2 ^ 11 + 2 ^ 5), _, _, (rfl), (rfl), by decide +kernel, by decide +kernel, by decide +kernel, by decide +kernel, by decide +kernel, by decide +kernel, by decide +kernel, by decide +kernel, rfl⟩,
   ⟨(0), (1), (linkIn .up), _, rfl, ⟨⟨by decide +kernel, by decide +kernel⟩, by decide +kernel⟩, by decide +kernel, by decide +kernel, by decide +kernel, by decide +kernel, by decide +kernel, by decide +kernel, by decide +kernel⟩,
   ⟨(0), (1), (2), (linkUp.modLink 1 (fun l => l.modClass 2 (fun c => { c with hc := 0, dc := 0, txq := [⟨2, 0, [1#8]⟩] }))), _, rfl, ⟨⟨by decide +kernel, by decide +kernel⟩, by decide +kernel⟩, by decide +kernel, by decide +kernel, by decide +kernel, by decide +kernel, by decide +kernel, by decide +kernel, by decide +kernel⟩,
   ⟨(0), (1), (0), (List.replicate 27 0#8), (linkUp), _, rfl, ⟨⟨by decide +kernel, by decide +kernel⟩, by decide +kernel⟩, by decide +kernel, by decide +kernel, by decide +kernel, by decide +kernel, by decide +kernel, by decide +kernel, by decide +kernel, by decide +kernel⟩,
   ⟨(linkUp.modLink 1 (fun l => { l with replay := [⟨3, true, true, 0, [1#8]⟩] })), (1), by decide +kernel, by decide +kernel⟩,
   ⟨(0), (1), (anInit), (linkIn .init), _, rfl, ⟨⟨by decide +kernel, by decide +kernel⟩, by decide +kernel⟩, by decide +kernel, by decide +kernel, by decide +kernel, by decide +kernel, by decide +kernel, by decide +kernel, by decide +kernel, by decide +kernel, by decide +kernel, by decide +kernel⟩⟩

theorem met_StraitLinks :
    (∃ (dt : Nat) (k : Nat) (cause : BitVec 8) (s : State) (x : State) (y : State), x = s.at dt ∧ x.blocksRun ∧ k < 2 ∧ (x.link k).st = .up ∧ y = (((x.leaveUp k).count (0x0F0138 + 256 * k) 15 8).train k cause.toNat).modLink k (fun l => { l with due := [] }))
    ∧ (∃ (dt : Nat) (k : Nat) (s : State) (x : State), x = s.at dt ∧ x.blocksRun ∧ k < 2 ∧ (x.link k).st = .up)
    ∧ (∃ (dt : Nat) (k : Nat) (s : State) (x : State), x = s.at dt ∧ x.blocksRun ∧ k < 2 ∧ (x.link k).st = .up ∧ (x.link k).sleepOrder = true)
    ∧ (∃ (dt : Nat) (k : Nat) (t : Nat) (s : State) (x : State), x = s.at dt ∧ x.blocksRun ∧ k < 2 ∧ (x.link k).st = .up ∧ (x.link k).nak = false ∧ (x.link k).uncoveredAt = some t ∧ t + 640 ≤ x.now ∧ (x.link k).due = [])
    ∧ (∃ (dt : Nat) (k : Nat) (s : State) (x : State), x = s.at dt ∧ x.blocksRun ∧ k < 2 ∧ (x.link k).st = .up ∧ (x.link k).out ≠ 0 ∧ (x.link k).lastAdvance + 5120 ≤ x.now)
    ∧ (∃ (dt : Nat) (k : Nat) (cls : Nat) (dest : BitVec 3) (b : List Byte) (s : State) (x : State) (y : State), x = s.at dt ∧ x.blocksRun ∧ x.offerOn k ⟨cls, dest.toNat, b⟩ = some y)
    ∧ (∃ (x : State) (k : Nat) (m : StMsg), (x.link k).st = .up ∧ m.bytes ≠ [] ∧ m.bytes.length ≤ 27648 ∧ (at? (x.link k).classes m.cls {}).queued + m.bytes.length ≤ x.txqSize k m.cls)
    ∧ (∃ (dt : Nat) (k : Nat) (s : State) (x : State), x = s.at dt ∧ x.blocksRun ∧ k < 2 ∧ (x.link k).st = .training ∧ x.laneLocked (laneOf k (mapLane (x.rxMap k) 0)) = true ∧ x.laneLocked (laneOf k (mapLane (x.rxMap k) 1)) = true ∧ (∀ i < 3, x.fld (lnCfg (laneOf k i)) 30 29 ≠ 1) ∧ (x.swap k).rx = none)
    ∧ (∃ (dt : Nat) (k : Nat) (s : State) (x : State), x = s.at dt ∧ x.blocksRun ∧ k < 2 ∧ (x.link k).st = .init ∧ (x.link k).since + msT ≤ x.now)
    ∧ (∃ (dt : Nat) (k : Nat) (s : State) (x : State), x = s.at dt ∧ x.blocksRun ∧ k < 2 ∧ (x.link k).st = .down ∧ (x.link k).since + bits (x.linkCfg k) 7 0 * 10 * msT ≤ x.now)
    ∧ (∃ (dt : Nat) (k : Nat) (s : State) (x : State), x = s.at dt ∧ x.blocksRun ∧ k < 2 ∧ (x.link k).st = .sleep ∧ x.hearth.ps ≠ .smoulder)
    ∧ (∃ (dt : Nat) (k : Nat) (s : State) (x : State), x = s.at dt ∧ x.blocksRun ∧ k < 2)
    ∧ (∃ (dt : Nat) (k : Nat) (tag : BitVec 16) (p : List Byte) (s : State) (x : State), s.willRun dt 0x0F00 tag.toNat p ∧ x = s.asked dt 0x0F00 tag.toNat p ∧ p.length = 1 ∧ k = field p 0 1 ∧ k < 2)
    ∧ (∃ (dt : Nat) (k : Nat) (tag : BitVec 16) (p : List Byte) (s : State) (x : State), s.willRun dt 0x0F01 tag.toNat p ∧ x = s.asked dt 0x0F01 tag.toNat p ∧ p.length = 1 ∧ k = field p 0 1 ∧ k < 2 ∧ (x.link k).st = .up) :=
  ⟨⟨(0), (1), (255), (linkUp), _, _, rfl, ⟨⟨by decide +kernel, by decide +kernel⟩, by decide +kernel⟩, by decide +kernel, by decide +kernel, rfl⟩,
   ⟨(0), (1), (linkUp), _, rfl, ⟨⟨by decide +kernel, by decide +kernel⟩, by decide +kernel⟩, by decide +kernel, by decide +kernel⟩,
   ⟨(0), (1), (linkUp.modLink 1 (fun l => { l with sleepOrder := true })), _, rfl, ⟨⟨by decide +kernel, by decide +kernel⟩, by decide +kernel⟩, by decide +kernel, by decide +kernel, by decide +kernel⟩,
   ⟨(0), (1), (0), (linkUp.modLink 1 (fun l => { l with uncoveredAt := some 0 })), _, rfl, ⟨⟨by decide +kernel, by decide +kernel⟩, by decide +kernel⟩, by decide +kernel, by decide +kernel, by decide +kernel, by decide +kernel, by decide +kernel, by decide +kernel⟩,
   ⟨(0), (1), (linkUp.modLink 1 (fun l => { l with replay := [⟨3, true, true, 0, [1#8]⟩] })), _, rfl, ⟨⟨by decide +kernel, by decide +kernel⟩, by decide +kernel⟩, by decide +kernel, by decide +kernel, by decide +kernel, by decide +kernel⟩,
   ⟨(0), (1), (3), (7), ([1#8]), (linkUp), _, _, rfl, ⟨⟨by decide +kernel, by decide +kernel⟩, by decide +kernel⟩, some_get (by decide +kernel)⟩,
   ⟨(linkUp), (1), (⟨3, 7, [1#8]⟩), by decide +kernel, by decide +kernel, by decide +kernel, by decide +kernel⟩,
   ⟨(0), (1), (withLane (withLane (linkIn .training) 5) 6), _, rfl, ⟨⟨by decide +kernel, by decide +kernel⟩, by decide +kernel⟩, by decide +kernel, by decide +kernel, by decide +kernel, by decide +kernel, by decide +kernel, by decide +kernel⟩,
   ⟨(0), (1), (linkIn .init), _, rfl, ⟨⟨by decide +kernel, by decide +kernel⟩, by decide +kernel⟩, by decide +kernel, by decide +kernel, by decide +kernel⟩,
   ⟨(0), (1), (linkIn .down), _, rfl, ⟨⟨by decide +kernel, by decide +kernel⟩, by decide +kernel⟩, by decide +kernel, by decide +kernel, by decide +kernel⟩,
   ⟨(0), (1), (linkIn .sleep), _, rfl, ⟨⟨by decide +kernel, by decide +kernel⟩, by decide +kernel⟩, by decide +kernel, by decide +kernel, by decide +kernel⟩,
   ⟨(0), (1), (lone), _, rfl, ⟨⟨by decide +kernel, by decide +kernel⟩, by decide +kernel⟩, by decide +kernel⟩,
   ⟨(0), _, (0), ([1#8]), (lone), _, executes_of (by decide +kernel), rfl, by decide +kernel, rfl, by decide +kernel⟩,
   ⟨(0), _, (0), ([1#8]), (linkUp), _, executes_of (by decide +kernel), rfl, by decide +kernel, rfl, by decide +kernel, by decide +kernel⟩⟩

theorem met_StackOffice :
    (∃ (dt : Nat) (s : State) (x : State), x = s.at dt ∧ x.blocksRun ∧ x.main.sk.step7At.isSome = true ∧ x.main.sk.routeAt + 16 * msT ≤ x.now)
    ∧ (∃ (dt : Nat) (s : State) (x : State), x = s.at dt ∧ x.blocksRun ∧ x.main.sk.step7At.isSome = true ∧ x.main.sk.announceAt + 1024 * msT ≤ x.now)
    ∧ (∃ (dt : Nat) (s : State) (x : State), x = s.at dt ∧ x.blocksRun ∧ x.main.sk.formed = true ∧ x.main.sk.isLead = true ∧ x.main.sk.stateAt + 32 * msT ≤ x.now)
    ∧ (∃ (dt : Nat) (s : State) (x : State), x = s.at dt ∧ x.blocksRun ∧ x.main.sk.formed = true ∧ x.main.sk.isLead = false ∧ x.main.sk.stateAt + 32 * msT ≤ x.now ∧ earliest x.ownEvents = none)
    ∧ (∃ (dt : Nat) (a : Nat) (s : State) (x : State), x = s.at dt ∧ x.blocksRun ∧ x.main.sk.formed = false ∧ x.main.sk.step7At = some a ∧ a + x.fld 0x100004 23 16 * msT ≤ x.now ∧ x.main.sk.leadValid = true ∧ x.hops x.main.sk.lead < 8)
    ∧ (∃ (dt : Nat) (a : Nat) (s : State) (x : State), x = s.at dt ∧ x.blocksRun ∧ x.main.sk.formed = false ∧ x.main.sk.step7At = some a ∧ a + x.fld 0x100004 23 16 * msT ≤ x.now ∧ x.main.sk.leadValid = false ∧ x.topCandidate = some x.self ∧ x.main.boot.cause < 4)
    ∧ (∃ (dt : Nat) (a : Nat) (s : State) (x : State), x = s.at dt ∧ x.blocksRun ∧ x.main.sk.formed = false ∧ x.main.sk.step7At = some a ∧ a + x.fld 0x100004 23 16 * msT ≤ x.now ∧ x.main.sk.leadValid = false ∧ x.hearth.start.lead = true ∧ x.candidate x.self = true ∧ 4 ≤ x.main.boot.cause)
    ∧ (∃ (dt : Nat) (s : State) (x : State), x = s.at dt ∧ x.blocksRun ∧ x.main.sk.formed = true ∧ x.main.sk.isLead = false ∧ x.main.sk.leadLost = none ∧ x.hearth.ps ≠ .smoulder ∧ x.main.sk.lastState + x.fld 0x100004 15 8 * 10 * msT ≤ x.now)
    ∧ (∃ (dt : Nat) (a : Nat) (s : State) (x : State), x = s.at dt ∧ x.blocksRun ∧ x.main.sk.formed = true ∧ x.main.sk.isLead = true ∧ x.main.sk.lowSince = some a ∧ a + x.fld 0x100004 15 8 * 10 * msT ≤ x.now)
    ∧ (∃ (dt : Nat) (a : Nat) (s : State) (x : State), x = s.at dt ∧ x.blocksRun ∧ x.main.sk.isLead = false ∧ x.main.sk.leadLost = some a ∧ a + x.fld 0x100004 7 0 * 10 * msT ≤ x.now ∧ x.topCandidate = some x.self ∧ (x.fld 0x100004 31 28 < 2 * x.reachCount ∨ 2 * x.reachCount = x.fld 0x100004 31 28 ∧ x.bit 0x100004 27 = true))
    ∧ (∃ (dt : Nat) (a : Nat) (s : State) (x : State), x = s.at dt ∧ x.blocksRun ∧ x.main.sk.leadLost = some a ∧ (x.now < a + x.fld 0x100004 7 0 * 10 * msT ∨ 2 * x.reachCount < x.fld 0x100004 31 28 ∨ 2 * x.reachCount = x.fld 0x100004 31 28 ∧ x.bit 0x100004 27 = false))
    ∧ (∃ (dt : Nat) (m : Nat) (a : Nat) (s : State) (x : State) (y : State), x = s.at dt ∧ x.blocksRun ∧ m < 8 ∧ (x.peer m).duplicateAt = some a ∧ a + 3 * secT ≤ x.now ∧ (∀ k < 8, k ≠ m → (x.peer k).duplicateAt = none) ∧ y = (x.modPeer m (fun p => { p with duplicateAt := none })).judge m ∧ (∀ k < 8, (y.peer k).duplicateAt = none))
    ∧ (∃ (dt : Nat) (m : Nat) (a : Nat) (s : State) (x : State) (y : State), x = s.at dt ∧ x.blocksRun ∧ x.main.sk.formed = true ∧ x.main.sk.isLead = true ∧ x.hearth.ps ≠ .smoulder ∧ m < 8 ∧ m ≠ x.self ∧ (x.peer m).present = true ∧ (x.peer m).stateAt = some a ∧ a + x.lostT ≤ x.now ∧ x.main.sk.lastState + x.lostT ≤ x.now ∧ (∀ k < 8, k ≠ m → (x.peer k).stateAt = none) ∧ y = x.setPresent m false ∧ (∀ k < 8, k ≠ m → (y.peer k).stateAt = none)) :=
  ⟨⟨(0), (lone), _, rfl, ⟨⟨by decide +kernel, by decide +kernel⟩, by decide +kernel⟩, by decide +kernel, by decide +kernel⟩,
   ⟨(0), (lone), _, rfl, ⟨⟨by decide +kernel, by decide +kernel⟩, by decide +kernel⟩, by decide +kernel, by decide +kernel⟩,
   ⟨(0), (lone), _, rfl, ⟨⟨by decide +kernel, by decide +kernel⟩, by decide +kernel⟩, by decide +kernel, by decide +kernel, by decide +kernel⟩,
   ⟨(0), (follows), _, rfl, ⟨⟨by decide +kernel, by decide +kernel⟩, by decide +kernel⟩, by decide +kernel, by decide +kernel, by decide +kernel, by decide +kernel⟩,
   ⟨(0), (0), (unformed follows), _, rfl, ⟨⟨by decide +kernel, by decide +kernel⟩, by decide +kernel⟩, by decide +kernel, by decide +kernel, by decide +kernel, by decide +kernel, by decide +kernel⟩,
   ⟨(0), (0), (unformed follower), _, rfl, ⟨⟨by decide +kernel, by decide +kernel⟩, by decide +kernel⟩, by decide +kernel, by decide +kernel, by decide +kernel, by decide +kernel, by decide +kernel, by decide +kernel⟩,
   ⟨(0), (0), (((unformed follower).modBoot (fun b => { b with cause := 4 })).modHearth (fun h => { h with start := { h.start with lead := true } })), _, rfl, ⟨⟨by decide +kernel, by decide +kernel⟩, by decide +kernel⟩, by decide +kernel, by decide +kernel, by decide +kernel, by decide +kernel, by decide +kernel, by decide +kernel, by decide +kernel⟩,
   ⟨(0), (follows), _, rfl, ⟨⟨by decide +kernel, by decide +kernel⟩, by decide +kernel⟩, by decide +kernel, by decide +kernel, by decide +kernel, by decide +kernel, by decide +kernel⟩,
   ⟨(0), (0), (lone.modSk (fun k => { k with lowSince := some 0 })), _, rfl, ⟨⟨by decide +kernel, by decide +kernel⟩, by decide +kernel⟩, by decide +kernel, by decide +kernel, by decide +kernel, by decide +kernel⟩,
   ⟨(0), (0), (follower.modSk (fun k => { k with leadLost := some 0 })), _, rfl, ⟨⟨by decide +kernel, by decide +kernel⟩, by decide +kernel⟩, by decide +kernel, by decide +kernel, by decide +kernel, by decide +kernel, by decide +kernel⟩,
   ⟨(0), (2 ^ 50), (follower.modSk (fun k => { k with leadLost := some (2 ^ 50) })), _, rfl, ⟨⟨by decide +kernel, by decide +kernel⟩, by decide +kernel⟩, by decide +kernel, by decide +kernel⟩,
   ⟨(0), (7), (0), (lone.modPeer 7 (fun p => { p with duplicateAt := some 0 })), _, _, rfl, ⟨⟨by decide +kernel, by decide +kernel⟩, by decide +kernel⟩, by decide +kernel, by decide +kernel, by decide +kernel, by decide +kernel, rfl, by decide +kernel⟩,
   ⟨(0), (1), (0), (pair.modPeer 1 (fun p => { p with stateAt := some 0 })), _, _, rfl, ⟨⟨by decide +kernel, by decide +kernel⟩, by decide +kernel⟩, by decide +kernel, by decide +kernel, by decide +kernel, by decide +kernel, by decide +kernel, by decide +kernel, by decide +kernel, by decide +kernel, by decide +kernel, by decide +kernel, rfl, by decide +kernel⟩⟩

theorem met_StackOrders :
    (∃ (dt : Nat) (m : Nat) (t : Taken) (s : State) (x : State) (y : State), x = s.at dt ∧ x.blocksRun ∧ x.takeMsg 0x01 = (some t, y) ∧ m = t.src ∧ m ≠ y.self ∧ (y.peer m).announced = false ∧ y.main.sk.isLead = false ∧ y.main.sk.leadValid = false)
    ∧ (∃ (dt : Nat) (t : Taken) (s : State) (x : State) (y : State), x = s.at dt ∧ x.blocksRun ∧ x.takeMsg 0x01 = (some t, y) ∧ t.src = y.self ∧ field t.body 43 8 ≠ ownSerial)
    ∧ (∃ (dt : Nat) (t : Taken) (s : State) (x : State) (y : State), x = s.at dt ∧ x.blocksRun ∧ x.takeMsg 0x02 = (some t, y) ∧ field t.body 0 1 % 8 ≠ y.self ∧ 0 < sdiff 16 t.term y.main.sk.term)
    ∧ (∃ (dt : Nat) (t : Taken) (s : State) (x : State) (y : State), x = s.at dt ∧ x.blocksRun ∧ x.takeMsg 0x02 = (some t, y) ∧ t.term = y.main.sk.term ∧ y.main.sk.isLead = true ∧ y.outranks (field t.body 0 1 % 8) y.self = false)
    ∧ (∃ (type : Nat) (k : Nat) (c : Nat) (w : Waiting) (x : State), x.findMsg type = some (k, c, w) ∧ type ≠ 0x01 ∧ type ≠ 0x04 ∧ sdiff 16 (field w.msg.bytes 2 2) x.main.sk.term < 0)
    ∧ (∃ (dt : Nat) (t : Taken) (s : State) (x : State) (y : State), x = s.at dt ∧ x.blocksRun ∧ x.takeMsg 0x03 = (some t, y) ∧ y.main.sk.isLead = true)
    ∧ (∃ (x : State) (m : Nat), (x.peer m).present = true)
    ∧ (∃ (dt : Nat) (t : Taken) (s : State) (x : State) (y : State) (z : State), x = s.at dt ∧ x.blocksRun ∧ x.takeMsg 0x04 = (some t, y) ∧ z = y.modSk (fun k => { k with peers := (k.peers.zipIdx).map (fun (p, m) => { p with hops := p.hops.set t.link (min 8 (field t.body m 1)) }) }))
    ∧ (∃ (dt : Nat) (id : Nat) (e : OpEntry) (s : State) (x : State) (y : State), x = s.at dt ∧ x.blocksRun ∧ x.commandIn = ([id], y) ∧ y.op? id = some e ∧ y.quarantined = false)
    ∧ (∃ (dt : Nat) (id : Nat) (e : OpEntry) (s : State) (x : State) (y : State), x = s.at dt ∧ x.blocksRun ∧ x.commandIn = ([id], y) ∧ y.op? id = some e ∧ y.quarantined = true ∧ quarantineOk e.opcode = false)
    ∧ (∃ (dt : Nat) (t : Taken) (e : OpEntry) (s : State) (x : State) (y : State), x = s.at dt ∧ x.blocksRun ∧ x.takeMsg 0x06 = (some t, y) ∧ (hdrOf t.body).kind = 1 ∧ y.opOfTag (hdrOf t.body).tag = some e ∧ e.await.contains t.src = true ∧ e.opcode = (hdrOf t.body).opcode ∧ e.parts = [] ∧ (hdrOf t.body).part = 0 ∧ bitOf (hdrOf t.body).flags 5 = false)
    ∧ (∃ (dt : Nat) (t : Taken) (s : State) (x : State) (y : State), x = s.at dt ∧ x.blocksRun ∧ x.takeMsg 0x06 = (some t, y) ∧ (hdrOf t.body).kind = 2 ∧ y.main.cmd.started = true) :=
  ⟨⟨(0), (1), (tk 0 1 0 0 (List.replicate 51 0#8)), (gets follower 0 0x01 1 0 0 (List.replicate 51 0#8)), _, _, rfl, ⟨⟨by decide +kernel, by decide +kernel⟩, by decide +kernel⟩, pair_fst (by decide +kernel), by decide +kernel, by decide +kernel, by decide +kernel, by decide +kernel, by decide +kernel⟩,
   (if h : (0 : Nat) = ownSerial then ⟨0, tk 0 0 0 0 (List.replicate 50 0#8 ++ [1#8]), gets follower 0 0x01 0 0 0 (List.replicate 50 0#8 ++ [1#8]), _, _, rfl, ⟨⟨by decide +kernel, by decide +kernel⟩, by decide +kernel⟩, pair_fst (by decide +kernel), by decide +kernel, by rw [← h]; decide +kernel⟩ else ⟨0, tk 0 0 0 0 (List.replicate 51 0#8), gets follower 0 0x01 0 0 0 (List.replicate 51 0#8), _, _, rfl, ⟨⟨by decide +kernel, by decide +kernel⟩, by decide +kernel⟩, pair_fst (by decide +kernel), by decide +kernel, fun e => h (Eq.trans (by decide +kernel) e)⟩),
   ⟨(0), (tk 0 1 0 0 [1#8]), ((gets follower 0 0x02 1 0 0 [1#8]).modSk (fun k => { k with term := 0xFFFF })), _, _, rfl, ⟨⟨by decide +kernel, by decide +kernel⟩, by decide +kernel⟩, pair_fst (by decide +kernel), by decide +kernel, by decide +kernel⟩,
   ⟨(0), (tk 0 1 0 0 [1#8]), (gets lone 0 0x02 1 0 0 [1#8]), _, _, rfl, ⟨⟨by decide +kernel, by decide +kernel⟩, by decide +kernel⟩, pair_fst (by decide +kernel), by decide +kernel, by decide +kernel, by decide +kernel⟩,
   ⟨(0x02), (0), (0), (aWait 0 0x02 1 0xFFFF 0 [1#8]), (gets lone 0 0x02 1 0xFFFF 0 [1#8]), by decide +kernel, by decide +kernel, by decide +kernel, by decide +kernel⟩,
   ⟨(0), (tk 0 1 0 0 (List.replicate 8 0#8)), (gets pair 0 0x03 1 0 0 (List.replicate 8 0#8)), _, _, rfl, ⟨⟨by decide +kernel, by decide +kernel⟩, by decide +kernel⟩, pair_fst (by decide +kernel), by decide +kernel⟩,
   ⟨(pair), (1), by decide +kernel⟩,
   ⟨(0), (tk 0 1 0 0 (List.replicate 8 7#8)), (gets pair 0 0x04 1 0 0 (List.replicate 8 7#8)), _, _, _, rfl, ⟨⟨by decide +kernel, by decide +kernel⟩, by decide +kernel⟩, pair_fst (by decide +kernel), rfl⟩,
   ⟨(0), (0), _, (gets follows 0 0x05 1 0 0 (aCommand 0x0800)), _, _, rfl, ⟨⟨by decide +kernel, by decide +kernel⟩, by decide +kernel⟩, (pair_fst (by decide +kernel)), some_get (by decide +kernel), by decide +kernel⟩,
   ⟨(0), (0), _, ((gets follows 0 0x05 1 0 0 (aCommand 0x0800)).modPeer 0 (fun p => { p with quar := 4 })), _, _, rfl, ⟨⟨by decide +kernel, by decide +kernel⟩, by decide +kernel⟩, (pair_fst (by decide +kernel)), some_get (by decide +kernel), by decide +kernel, by decide +kernel⟩,
   ⟨(0), (tk 0 1 0 0 (mkPacket 1 1 0 0x0007 9 0 0 [])), _, (gets awaiting 0 0x06 1 0 0 (mkPacket 1 1 0 0x0007 9 0 0 [])), _, _, rfl, ⟨⟨by decide +kernel, by decide +kernel⟩, by decide +kernel⟩, pair_fst (by decide +kernel), by decide +kernel, some_get (by decide +kernel), by decide +kernel, by decide +kernel, by decide +kernel, by decide +kernel, by decide +kernel⟩,
   ⟨(0), (tk 0 1 0 0 (mkPacket 2 1 0 0x0801 0x8000 0 0 [])), (gets pair 0 0x06 1 0 0 (mkPacket 2 1 0 0x0801 0x8000 0 0 [])), _, _, rfl, ⟨⟨by decide +kernel, by decide +kernel⟩, by decide +kernel⟩, pair_fst (by decide +kernel), by decide +kernel, by decide +kernel⟩⟩

theorem met_StackTraffic :
    (∃ (dt : Nat) (t : Taken) (s : State) (x : State) (y : State) (z : State), x = s.at dt ∧ x.blocksRun ∧ x.takeMsg 0x07 = (some t, y) ∧ y.enqueue (t.aux % 32) (.member t.src) t.body = (z, 0))
    ∧ (∃ (dt : Nat) (t : Taken) (s : State) (x : State) (y : State) (z : State), x = s.at dt ∧ x.blocksRun ∧ x.takeMsg 0x07 = (some t, y) ∧ y.enqueue (t.aux % 32) (.member t.src) t.body = (z, 1))
    ∧ (∃ (dt : Nat) (t : Taken) (s : State) (x : State) (y : State) (z : State), x = s.at dt ∧ x.blocksRun ∧ x.takeMsg 0x09 = (some t, y) ∧ field t.body 0 1 = 0 ∧ y.enqueue (field t.body 1 1 % 32) (.member t.src) (t.body.drop 2) = (z, 0))
    ∧ (∃ (dt : Nat) (t : Taken) (s : State) (x : State) (y : State) (z : State), x = s.at dt ∧ x.blocksRun ∧ x.takeMsg 0x09 = (some t, y) ∧ field t.body 0 1 = 0 ∧ y.enqueue (field t.body 1 1 % 32) (.member t.src) (t.body.drop 2) = (z, 1))
    ∧ (∃ (dt : Nat) (t : Taken) (s : State) (x : State) (y : State), x = s.at dt ∧ x.blocksRun ∧ x.takeMsg 0x08 = (some t, y))
    ∧ (∃ (dt : Nat) (t : Taken) (s : State) (x : State) (y : State), x = s.at dt ∧ x.blocksRun ∧ x.takeMsg 0x0A = (some t, y) ∧ field t.body 0 1 = 0x07 ∧ y.main.mp.held + (t.body.drop 1).length ≤ y.holdLimit)
    ∧ (∃ (dt : Nat) (t : Taken) (s : State) (x : State) (y : State), x = s.at dt ∧ x.blocksRun ∧ x.takeMsg 0x0A = (some t, y) ∧ field t.body 0 1 = 0x0E)
    ∧ (∃ (dt : Nat) (t : Taken) (s : State) (x : State) (y : State), x = s.at dt ∧ x.blocksRun ∧ x.takeMsg 0x0A = (some t, y) ∧ field t.body 0 1 = 0x0F ∧ y.main.sk.isLead = true)
    ∧ (∃ (dt : Nat) (t : Taken) (s : State) (x : State) (y : State), x = s.at dt ∧ x.blocksRun ∧ x.takeMsg 0x0B = (some t, y) ∧ field t.body 0 1 = 1)
    ∧ (∃ (dt : Nat) (t : Taken) (s : State) (x : State) (y : State), x = s.at dt ∧ x.blocksRun ∧ x.takeMsg 0x0C = (some t, y) ∧ field t.body 0 1 = 3)
    ∧ (∃ (dt : Nat) (t : Taken) (s : State) (x : State) (y : State), x = s.at dt ∧ x.blocksRun ∧ x.takeMsg 0x0D = (some t, y))
    ∧ (∃ (dt : Nat) (c : Nat) (t : Taken) (s : State) (x : State) (y : State), x = s.at dt ∧ x.blocksRun ∧ x.takeMsg 0x0E = (some t, y) ∧ y.main.sk.rxCfg = [] ∧ t.aux = 0 ∧ t.body.length = 64 + field t.body 8 4 ∧ cfgOk t.body = true ∧ y.main.sk.cfgCopy = some c)
    ∧ (∃ (dt : Nat) (t : Taken) (s : State) (x : State) (y : State), x = s.at dt ∧ x.blocksRun ∧ x.takeMsg 0x0E = (some t, y) ∧ y.main.sk.rxCfg = [] ∧ t.aux = 0 ∧ t.body.length = 64 + field t.body 8 4 ∧ cfgOk t.body = false)
    ∧ (∃ (dt : Nat) (i : Nat) (t : Taken) (s : State) (x : State) (y : State), x = s.at dt ∧ x.blocksRun ∧ x.takeMsg 0x0F = (some t, y) ∧ y.main.sk.rxImage = [] ∧ t.aux = 0 ∧ t.body.length = 256 + field t.body 16 4 ∧ y.main.boot.slot = some i) :=
  ⟨⟨(0), (tk 2 1 0 31 [1#8]), ((gets queueOn 2 0x07 1 0 31 [1#8]).setFld 0x07000C 10 0 1), _, _, _, rfl, ⟨⟨by decide +kernel, by decide +kernel⟩, by decide +kernel⟩, pair_fst (by decide +kernel), pair_snd (by decide +kernel)⟩,
   ⟨(0), (tk 2 1 0 31 [1#8]), (gets lone 2 0x07 1 0 31 [1#8]), _, _, _, rfl, ⟨⟨by decide +kernel, by decide +kernel⟩, by decide +kernel⟩, pair_fst (by decide +kernel), pair_snd (by decide +kernel)⟩,
   ⟨(0), (tk 2 1 0 0 [0#8, 31#8, 1#8]), ((gets queueOn 2 0x09 1 0 0 [0#8, 31#8, 1#8]).setFld 0x07000C 10 0 1), _, _, _, rfl, ⟨⟨by decide +kernel, by decide +kernel⟩, by decide +kernel⟩, pair_fst (by decide +kernel), by decide +kernel, pair_snd (by decide +kernel)⟩,
   ⟨(0), (tk 2 1 0 0 [0#8, 31#8, 1#8]), (gets lone 2 0x09 1 0 0 [0#8, 31#8, 1#8]), _, _, _, rfl, ⟨⟨by decide +kernel, by decide +kernel⟩, by decide +kernel⟩, pair_fst (by decide +kernel), by decide +kernel, pair_snd (by decide +kernel)⟩,
   ⟨(0), (tk 2 1 0 0 [1#8]), (gets follows 2 0x08 1 0 0 [1#8]), _, _, rfl, ⟨⟨by decide +kernel, by decide +kernel⟩, by decide +kernel⟩, pair_fst (by decide +kernel)⟩,
   ⟨(0), (tk 2 1 0 31 [7#8, 1#8]), ((gets follows 2 0x0A 1 0 31 [7#8, 1#8])), _, _, rfl, ⟨⟨by decide +kernel, by decide +kernel⟩, by decide +kernel⟩, pair_fst (by decide +kernel), by decide +kernel, by decide +kernel⟩,
   ⟨(0), (tk 2 1 0 0 [0x0E#8]), (gets pair 2 0x0A 1 0 0 [0x0E#8]), _, _, rfl, ⟨⟨by decide +kernel, by decide +kernel⟩, by decide +kernel⟩, pair_fst (by decide +kernel), by decide +kernel⟩,
   ⟨(0), (tk 2 1 0 0 [0x0F#8]), (gets pair 2 0x0A 1 0 0 [0x0F#8]), _, _, rfl, ⟨⟨by decide +kernel, by decide +kernel⟩, by decide +kernel⟩, pair_fst (by decide +kernel), by decide +kernel, by decide +kernel⟩,
   ⟨(0), (tk 0 1 0 0 ([1#8] ++ be 4 0x0D0118 ++ [15#8, 8#8])), (gets follows 0 0x0B 1 0 0 ([1#8] ++ be 4 0x0D0118 ++ [15#8, 8#8])), _, _, rfl, ⟨⟨by decide +kernel, by decide +kernel⟩, by decide +kernel⟩, pair_fst (by decide +kernel), by decide +kernel⟩,
   ⟨(0), (tk 0 1 0 0 (3#8 :: List.replicate 18 0#8)), (gets follows 0 0x0C 1 0 0 (3#8 :: List.replicate 18 0#8)), _, _, rfl, ⟨⟨by decide +kernel, by decide +kernel⟩, by decide +kernel⟩, pair_fst (by decide +kernel), by decide +kernel⟩,
   ⟨(0), (tk 0 1 0 0 (List.replicate 256 1#8)), (gets follows 0 0x0D 1 0 0 (List.replicate 256 1#8)), _, _, rfl, ⟨⟨by decide +kernel, by decide +kernel⟩, by decide +kernel⟩, pair_fst (by decide +kernel)⟩,
   ⟨(0), (0), (tk 0 1 0 0 tinyCfg), ((gets follows 0 0x0E 1 0 0 tinyCfg).modSk (fun k => { k with cfgCopy := some 0 })), _, _, rfl, ⟨⟨by decide +kernel, by decide +kernel⟩, by decide +kernel⟩, pair_fst (by decide +kernel), by decide +kernel, by decide +kernel, by decide +kernel, by decide +kernel, by decide +kernel⟩,
   ⟨(0), (tk 0 1 0 0 (List.replicate 64 0#8)), (gets follows 0 0x0E 1 0 0 (List.replicate 64 0#8)), _, _, rfl, ⟨⟨by decide +kernel, by decide +kernel⟩, by decide +kernel⟩, pair_fst (by decide +kernel), by decide +kernel, by decide +kernel, by decide +kernel, by decide +kernel⟩,
   ⟨(0), (0), (tk 0 1 0 0 (List.replicate 256 0#8)), (gets follows 0 0x0F 1 0 0 (List.replicate 256 0#8)), _, _, rfl, ⟨⟨by decide +kernel, by decide +kernel⟩, by decide +kernel⟩, pair_fst (by decide +kernel), by decide +kernel, by decide +kernel, by decide +kernel, by decide +kernel⟩⟩

theorem met_StackTime :
    (∃ (dt : Nat) (s : State) (x : State), x = s.at dt ∧ x.blocksRun ∧ x.main.sk.formed = true ∧ x.main.sk.isLead = true ∧ x.main.sk.exchAt + x.fld 0x100008 31 22 * 8 * msT ≤ x.now ∧ (x.link 0).st = .up ∧ (x.link 1).st ≠ .up)
    ∧ (∃ (dt : Nat) (s : State) (x : State), x = s.at dt ∧ x.blocksRun ∧ x.main.sk.formed = true ∧ x.main.sk.isLead = false ∧ x.now < x.main.sk.exchAt + x.fld 0x100008 31 22 * 8 * msT ∧ x.main.sk.lastExch + 4 * x.periodT ≤ x.now)
    ∧ (∃ (x : State) (y : State) (t : Taken) (z : _), x.takeTime 0 = some (t, y) ∧ y.stale t = false ∧ t.src = y.timeParent ∧ y.main.sk.isLead = false ∧ y.main.sk.leadValid = true ∧ z = (y.modSk (fun k => { k with exch := some ⟨timeOf t.body, t.at_, t.at_, field t.body 11 4, y.main.nt.adjLeft⟩ })).sendNext t.link 1 0 0 ∧ z.takeTime 1 = none)
    ∧ (∃ (x : State) (y : State) (t : Taken), x.takeTime 0 = none ∧ x.takeTime 1 = some (t, y) ∧ y.stale t = false)
    ∧ (∃ (dt : Nat) (b : Nat) (o : Int) (t : Taken) (e : Exch) (s : State) (x : State) (y : State) (z : State), x = s.at dt ∧ x.blocksRun ∧ x.takeTime 2 = some (t, y) ∧ y.main.sk.exch = some e ∧ y.stale t = false ∧ y.main.nt.totalNs ≤ e.t2 + y.fld 0x100008 31 22 * 8000000 ∧ o = Int.tdiv ((e.t2 - e.t1) - ((timeOf t.body : Int) - e.t3)) 2 ∧ b = o.natAbs + e.bParent ∧ z = (((y.modSk (fun k => { k with exch := none })).modNt (fun n => { n with lastAccepted := y.now })).ntApply (-o) e.left e.t1 (y.main.nt.lastRef.map (fun r => e.t1 - r))).modSk (fun k => { k with bound := b, lastExch := y.now }))
    ∧ (∃ (x : State) (loose : Bool), x.main.sk.timeLoose ≠ loose)
    ∧ (∃ (dt : Nat) (t : Taken) (s : State) (x : State) (y : State), x = s.at dt ∧ x.blocksRun ∧ x.takeMsg 0x11 = (some t, y) ∧ y.main.sk.isLead = true ∧ field t.body 0 6 = y.main.sk.latch.1 ∧ bits (y.peer t.src).stateFlags 2 1 = 0 ∧ (at? y.main.sk.latch.2 0 (0, false)).2 = true ∧ field t.body 8 1 = 1 ∧ field t.body 11 1 = 0 ∧ field t.body 14 1 = 0)
    ∧ (∃ (x : State) (m : Nat) (p : Nat) (d : Int), p < 3 ∧ at? (x.peer m).skewed p false = false ∧ at? (x.peer m).skewRun p 0 = 2 ∧ 364 < d.natAbs)
    ∧ (∃ (x : State) (m : Nat) (p : Nat) (d : Int), p < 3 ∧ at? (x.peer m).skewed p false = true ∧ at? (x.peer m).okRun p 0 = 2 ∧ d.natAbs ≤ 300) :=
  ⟨⟨(0), (pair), _, rfl, ⟨⟨by decide +kernel, by decide +kernel⟩, by decide +kernel⟩, by decide +kernel, by decide +kernel, by decide +kernel, by decide +kernel, by decide +kernel⟩,
   ⟨(0), (follows.modSk (fun k => { k with exchAt := 2 ^ 50 })), _, rfl, ⟨⟨by decide +kernel, by decide +kernel⟩, by decide +kernel⟩, by decide +kernel, by decide +kernel, by decide +kernel, by decide +kernel⟩,
   ⟨(gets follows 1 0x10 1 0 0 (List.replicate 15 0#8)), _, (tk 1 1 0 0 (List.replicate 15 0#8)), _, some_pair (by decide +kernel) (by decide +kernel), by decide +kernel, by decide +kernel, by decide +kernel, by decide +kernel, rfl, by decide +kernel⟩,
   ⟨(gets pair 1 0x10 1 0 0 (1#8 :: List.replicate 14 0#8)), _, (tk 1 1 0 0 (1#8 :: List.replicate 14 0#8)), by decide +kernel, some_pair (by decide +kernel) (by decide +kernel), by decide +kernel⟩,
   ⟨(0), _, _, (tk 1 1 0 0 (2#8 :: List.replicate 14 0#8)), (⟨0, 0, 0, 0, 0⟩), ((gets follows 1 0x10 1 0 0 (2#8 :: List.replicate 14 0#8)).modSk (fun k => { k with exch := some ⟨0, 0, 0, 0, 0⟩ })), _, _, _, rfl, ⟨⟨by decide +kernel, by decide +kernel⟩, by decide +kernel⟩, some_pair (by decide +kernel) (by decide +kernel), by decide +kernel, by decide +kernel, by decide +kernel, rfl, rfl, rfl⟩,
   ⟨(lone), (true), by decide +kernel⟩,
   ⟨(0), (tk 0 1 0 0 (List.replicate 8 0#8 ++ [1#8] ++ List.replicate 6 0#8)), ((gets pair 0 0x11 1 0 0 (List.replicate 8 0#8 ++ [1#8] ++ List.replicate 6 0#8)).modSk (fun k => { k with latch := (0, [(0, true)]) })), _, _, rfl, ⟨⟨by decide +kernel, by decide +kernel⟩, by decide +kernel⟩, pair_fst (by decide +kernel), by decide +kernel, by decide +kernel, by decide +kernel, by decide +kernel, by decide +kernel, by decide +kernel, by decide +kernel⟩,
   ⟨(pair.modPeer 1 (fun p => { p with skewRun := [0, 0, 2] })), (1), (2), (365), by decide +kernel, by decide +kernel, by decide +kernel, by decide +kernel⟩,
   ⟨(pair.modPeer 1 (fun p => { p with skewed := [false, false, true], okRun := [0, 0, 2] })), (1), (2), (-300), by decide +kernel, by decide +kernel, by decide +kernel, by decide +kernel⟩⟩

theorem met_StackOpcodes :
    (∃ (dt : Nat) (tag : BitVec 16) (s : State) (x : State), s.willRun dt 0x1000 tag.toNat [] ∧ x = s.asked dt 0x1000 tag.toNat [])
    ∧ (∃ (dt : Nat) (tag : BitVec 16) (p : List Byte) (s : State) (x : State), s.willRun dt 0x1001 tag.toNat p ∧ x = s.asked dt 0x1001 tag.toNat p ∧ 5 ≤ p.length ∧ p.length ≤ 4094 ∧ field p 0 4 + (p.length - 4) ≤ 0x40000)
    ∧ (∃ (dt : Nat) (tag : BitVec 16) (p : List Byte) (b : List Byte) (s : State) (x : State), s.willRun dt 0x1002 tag.toNat p ∧ x = s.asked dt 0x1002 tag.toNat p ∧ p.length = 4 ∧ 64 ≤ field p 0 4 ∧ field p 0 4 ≤ 0x40000 ∧ b = (List.range (field p 0 4)).map (fun i => flashGet x.main.sk.staging i) ∧ cfgOk b = true ∧ 64 + field b 8 4 ≤ field p 0 4 ∧ field b 12 8 = x.termSerial ∧ x.main.sk.push = none)
    ∧ (∃ (dt : Nat) (tag : BitVec 16) (p : List Byte) (b : List Byte) (s : State) (x : State), s.willRun dt 0x1002 tag.toNat p ∧ x = s.asked dt 0x1002 tag.toNat p ∧ p.length = 4 ∧ 64 ≤ field p 0 4 ∧ field p 0 4 ≤ 0x40000 ∧ b = (List.range (field p 0 4)).map (fun i => flashGet x.main.sk.staging i) ∧ (cfgOk b = false ∨ field b 12 8 ≠ x.termSerial))
    ∧ (∃ (dt : Nat) (m : Nat) (tag : BitVec 16) (p : List Byte) (s : State) (x : State), s.willRun dt 0x1003 tag.toNat p ∧ x = s.asked dt 0x1003 tag.toNat p ∧ p.length = 2 ∧ m = field p 0 1 ∧ m ≤ 7 ∧ field p 1 1 = 1)
    ∧ (∃ (dt : Nat) (m : Nat) (tag : BitVec 16) (p : List Byte) (s : State) (x : State), s.willRun dt 0x1003 tag.toNat p ∧ x = s.asked dt 0x1003 tag.toNat p ∧ p.length = 2 ∧ m = field p 0 1 ∧ m ≤ 7 ∧ field p 1 1 = 0 ∧ (x.peer m).quar = 4)
    ∧ (∃ (dt : Nat) (m : Nat) (tag : BitVec 16) (p : List Byte) (s : State) (x : State), s.willRun dt 0x1003 tag.toNat p ∧ x = s.asked dt 0x1003 tag.toNat p ∧ p.length = 2 ∧ m = field p 0 1 ∧ m ≤ 7 ∧ field p 1 1 = 0 ∧ (x.peer m).quar ≠ 4)
    ∧ (∃ (x : State) (m : Nat), x.causeOf m ≠ (x.peer m).quar ∧ x.causeOf m ≠ 0 ∧ m ≠ x.self ∧ x.main.sk.isLead = true) :=
  ⟨⟨(0), (0), (lone), _, executes_of (by decide +kernel), rfl⟩,
   ⟨(0), (0), (be 4 0x3FFFF ++ [1#8]), (lone), _, executes_of (by decide +kernel), rfl, by decide +kernel, by decide +kernel, by decide +kernel⟩,
   ⟨(0), (0), (be 4 64), _, (lone.modSk (fun k => { k with staging := flashWrite [] 0 tinyCfg, serial := 0x1234 })), _, executes_of (by decide +kernel), rfl, by decide +kernel, by decide +kernel, by decide +kernel, rfl, by decide +kernel, by decide +kernel, by decide +kernel, by decide +kernel⟩,
   ⟨(0), (0), (be 4 64), _, (lone), _, executes_of (by decide +kernel), rfl, by decide +kernel, by decide +kernel, by decide +kernel, rfl, by decide +kernel⟩,
   ⟨(0), (7), (0), ([7#8, 1#8]), (lone), _, executes_of (by decide +kernel), rfl, by decide +kernel, by decide +kernel, by decide +kernel, by decide +kernel⟩,
   ⟨(0), (7), (0), ([7#8, 0#8]), (lone.modPeer 7 (fun p => { p with quar := 4 })), _, executes_of (by decide +kernel), rfl, by decide +kernel, by decide +kernel, by decide +kernel, by decide +kernel, by decide +kernel⟩,
   ⟨(0), (7), (0), ([7#8, 0#8]), (lone), _, executes_of (by decide +kernel), rfl, by decide +kernel, by decide +kernel, by decide +kernel, by decide +kernel, by decide +kernel⟩,
   ⟨(pair.modPeer 1 (fun p => { p with duplicateAt := some 0 })), (1), by decide +kernel, by decide +kernel, by decide +kernel, by decide +kernel⟩⟩

theorem met_AshLog :
    (∃ (x : State), x.hearth.ring.length ≤ 2048 ∧ x.hearth.ring.length = 2048)
    ∧ (∃ (x : State) (source : Nat) (w : AshWin), source ≠ 0x01 ∧ source ≠ 0x11 ∧ x.main.ash.wins.find? (fun w => w.source == source && decide (x.now < w.since + ashWindow)) = some w ∧ x.fld 0x110000 23 16 ≤ w.count)
    ∧ (∃ (dt : Nat) (source : Nat) (w : AshWin) (s : State) (x : State), x = s.at dt ∧ x.blocksRun ∧ x.main.ash.wins.find? (fun w => w.source == source && decide (w.since + ashWindow ≤ x.now)) = some w ∧ w.suppressed ≠ 0)
    ∧ (∃ (dt : Nat) (t : Nat) (s : State) (x : State), x = s.at dt ∧ x.blocksRun ∧ x.main.ash.flush = none ∧ x.main.ash.trigger = none ∧ x.main.ash.flushDue = some t ∧ t ≤ x.now ∧ x.hearth.onReserve = true ∧ x.main.boot.flashOp = none)
    ∧ (∃ (dt : Nat) (s : State) (x : State), x = s.at dt ∧ x.blocksRun ∧ x.main.ash.flush = none ∧ x.main.ash.trigger = none ∧ x.main.ash.flushDue = none ∧ x.main.ash.owedDue = true ∧ x.main.boot.local9 = true ∧ x.main.boot.flashOp = none)
    ∧ (∃ (x : State) (last : Nat), last = (x.hearth.seq + 2 ^ 32 - 1) % 2 ^ 32)
    ∧ (∃ (x : State), x.main.ash.flush = none ∧ x.flushPending = true ∧ x.main.boot.flashOp = none)
    ∧ (∃ (x : State) (f : Flush) (st : FlushStep) (l : List FlushStep), f.steps = st :: l ∧ x.hearth.onReserve = true ∧ x.stepUj st + 1000 * x.marginMj + x.main.up.admitted ≤ 1000 * x.hearth.resE)
    ∧ (∃ (x : State) (f : Flush) (st : FlushStep) (l : List FlushStep), f.steps = st :: l ∧ x.hearth.onReserve = true ∧ 1000 * x.hearth.resE < x.stepUj st + 1000 * x.marginMj + x.main.up.admitted)
    ∧ (∃ (dt : Nat) (f : Flush) (st : FlushStep) (l : List FlushStep) (s : State) (x : State), x = s.at dt ∧ x.blocksRun ∧ x.main.ash.flush = some f ∧ f.steps = st :: l ∧ (∀ n, st ≠ .erase n))
    ∧ (∃ (dt : Nat) (f : Flush) (st : FlushStep) (l : List FlushStep) (s : State) (x : State), x = s.at dt ∧ x.blocksRun ∧ x.main.ash.flush = some f ∧ f.steps = st :: l ∧ f.tries ≠ 0) :=
  ⟨⟨({ lone with hearth := { lone.hearth with ring := List.replicate 2048 aRec } }), by decide +kernel, by decide +kernel⟩,
   ⟨(lone.modAsh (fun a => { a with wins := [⟨0x0B, 2 ^ 50, 255, 0⟩] })), (0x0B), (⟨0x0B, 2 ^ 50, 255, 0⟩), by decide +kernel, by decide +kernel, by decide +kernel, by decide +kernel⟩,
   ⟨(0), (0x0B), (⟨0x0B, 0, 255, 1⟩), (lone.modAsh (fun a => { a with wins := [⟨0x0B, 0, 255, 1⟩] })), _, rfl, ⟨⟨by decide +kernel, by decide +kernel⟩, by decide +kernel⟩, by decide +kernel, by decide +kernel⟩,
   ⟨(0), (0), ((lone.modAsh (fun a => { a with flushDue := some 0 })).modHearth (fun h => { h with onReserve := true })), _, rfl, ⟨⟨by decide +kernel, by decide +kernel⟩, by decide +kernel⟩, by decide +kernel, by decide +kernel, by decide +kernel, by decide +kernel, by decide +kernel, by decide +kernel⟩,
   ⟨(0), (lone.modAsh (fun a => { a with owedDue := true })), _, rfl, ⟨⟨by decide +kernel, by decide +kernel⟩, by decide +kernel⟩, by decide +kernel, by decide +kernel, by decide +kernel, by decide +kernel, by decide +kernel, by decide +kernel⟩,
   ⟨(lone), _, rfl⟩,
   ⟨(lone.modAsh (fun a => { a with owedDue := true })), by decide +kernel, by decide +kernel, by decide +kernel⟩,
   ⟨(lone.modHearth (fun h => { h with onReserve := true, resE := 1000000 })), (aFlush 0), (.trailer), ([]), by decide +kernel, by decide +kernel, by decide +kernel⟩,
   ⟨(lone.modHearth (fun h => { h with onReserve := true })), (aFlush 0), (.trailer), ([]), by decide +kernel, by decide +kernel, by decide +kernel⟩,
   ⟨(0), (aFlush 0), (.trailer), ([]), (lone.modAsh (fun a => { a with flush := some (aFlush 0) })), _, rfl, ⟨⟨by decide +kernel, by decide +kernel⟩, by decide +kernel⟩, by decide +kernel, by decide +kernel, (fun _ h => by cases h)⟩,
   ⟨(0), (aFlush 1), (.trailer), ([]), (lone.modAsh (fun a => { a with flush := some (aFlush 1) })), _, rfl, ⟨⟨by decide +kernel, by decide +kernel⟩, by decide +kernel⟩, by decide +kernel, by decide +kernel, by decide +kernel⟩⟩

theorem met_LogOpcodes :
    (∃ (dt : Nat) (tag : BitVec 16) (r : AshRec) (l : List AshRec) (s : State) (x : State), s.willRun dt 0x1100 tag.toNat [] ∧ x = s.asked dt 0x1100 tag.toNat [] ∧ x.hearth.ring = r :: l)
    ∧ (∃ (dt : Nat) (tag : BitVec 16) (p : List Byte) (r : AshRec) (l : List AshRec) (s : State) (x : State), s.willRun dt 0x1101 tag.toNat p ∧ x = s.asked dt 0x1101 tag.toNat p ∧ p.length = 5 ∧ 1 ≤ field p 4 1 ∧ field p 4 1 ≤ 127 ∧ (x.hearth.ring.filter (fun r => decide (0 ≤ sdiff 32 r.seq (field p 0 4)))).take (field p 4 1) = r :: l)
    ∧ (∃ (dt : Nat) (tag : BitVec 16) (s : State) (x : State), s.willRun dt 0x1102 tag.toNat [] ∧ x = s.asked dt 0x1102 tag.toNat [])
    ∧ (∃ (dt : Nat) (tag : BitVec 16) (p : List Byte) (s : State) (x : State), s.willRun dt 0x1103 tag.toNat p ∧ x = s.asked dt 0x1103 tag.toNat p ∧ p.length = 7 ∧ field p 0 1 ≤ 15 ∧ 1 ≤ field p 5 2 ∧ field p 5 2 ≤ 4096 ∧ field p 1 4 + field p 5 2 ≤ 0x20000)
    ∧ (∃ (dt : Nat) (tag : BitVec 16) (p : List Byte) (s : State) (x : State), s.willRun dt 0x1104 tag.toNat p ∧ x = s.asked dt 0x1104 tag.toNat p ∧ p.length = 2 ∧ field p 0 1 ≤ 15 ∧ field p 1 1 ≤ 2 ∧ (x.archHeader (field p 0 1)).isSome = true ∧ x.noExport (field p 1 1) = false)
    ∧ (∃ (dt : Nat) (tag : BitVec 16) (p : List Byte) (s : State) (x : State), s.willRun dt 0x1104 tag.toNat p ∧ x = s.asked dt 0x1104 tag.toNat p ∧ p.length = 2 ∧ 15 < field p 0 1 ∧ field p 0 1 ≠ 0xFF)
    ∧ (∃ (dt : Nat) (tag : BitVec 16) (s : State) (x : State), s.willRun dt 0x1105 tag.toNat [] ∧ x = s.asked dt 0x1105 tag.toNat [] ∧ x.main.ash.flush = none ∧ x.main.ash.trigger = none ∧ x.main.boot.flashOp = none)
    ∧ (∃ (dt : Nat) (tag : BitVec 16) (s : State) (x : State), s.willRun dt 0x1105 tag.toNat [] ∧ x = s.asked dt 0x1105 tag.toNat [] ∧ x.main.ash.flush.isSome = true)
    ∧ (∃ (dt : Nat) (tag : BitVec 16) (s : State) (x : State), s.willRun dt 0x1106 tag.toNat [] ∧ x = s.asked dt 0x1106 tag.toNat [] ∧ x.main.ma.st ≠ .locked)
    ∧ (∃ (dt : Nat) (tag : BitVec 16) (s : State) (x : State), s.willRun dt 0x1106 tag.toNat [] ∧ x = s.asked dt 0x1106 tag.toNat [] ∧ x.main.ma.st = .locked ∧ x.bit 0x110000 31 = true ∧ (x.drainAsh.wave 2).main.ash.buf ≠ [])
    ∧ (∃ (dt : Nat) (tag : BitVec 16) (p : List Byte) (s : State) (x : State), s.willRun dt 0x1107 tag.toNat p ∧ x = s.asked dt 0x1107 tag.toNat p ∧ p.length = 11)
    ∧ (∃ (dt : Nat) (tag : BitVec 16) (s : State) (x : State), s.willRun dt 0x1200 tag.toNat [] ∧ x = s.asked dt 0x1200 tag.toNat [])
    ∧ (∃ (dt : Nat) (tag : BitVec 16) (s : State) (x : State), s.willRun dt 0x1201 tag.toNat [] ∧ x = s.asked dt 0x1201 tag.toNat [])
    ∧ (∃ (dt : Nat) (tag : BitVec 16) (p : List Byte) (gone : Nat → Bool) (s : State) (x : State), s.willRun dt 0x1202 tag.toNat p ∧ x = s.asked dt 0x1202 tag.toNat p ∧ p.length = 1 ∧ field p 0 1 ≤ 63 ∧ (∀ i, gone i = ((at? x.main.mm.banks i {}).withdrawn || x.logWithdrawn i || i == field p 0 1)))
    ∧ (∃ (dt : Nat) (tag : BitVec 16) (p : List Byte) (s : State) (x : State), s.willRun dt 0x1202 tag.toNat p ∧ x = s.asked dt 0x1202 tag.toNat p ∧ p.length = 1 ∧ 63 < field p 0 1) :=
  ⟨⟨(0), (0), (aRec), ([]), (ringed), _, executes_of (by decide +kernel), rfl, by decide +kernel⟩,
   ⟨(0), (0), (be 4 0xFFFFFFF0 ++ [127#8]), (aRec), ([]), (ringed), _, executes_of (by decide +kernel), rfl, by decide +kernel, by decide +kernel, by decide +kernel, by decide +kernel⟩,
   ⟨(0), (0), (lone), _, executes_of (by decide +kernel), rfl⟩,
   ⟨(0), (0), ([15#8] ++ be 4 0x1F000 ++ be 2 4096), (lone), _, executes_of (by decide +kernel), rfl, by decide +kernel, by decide +kernel, by decide +kernel, by decide +kernel, by decide +kernel⟩,
   ⟨(0), (0), ([15#8, 0#8]), (archived), _, executes_of (by decide +kernel), rfl, by decide +kernel, by decide +kernel, by decide +kernel, by decide +kernel, by decide +kernel⟩,
   ⟨(0), (0), ([254#8, 0#8]), (lone), _, executes_of (by decide +kernel), rfl, by decide +kernel, by decide +kernel, by decide +kernel⟩,
   ⟨(0), (0), (lone), _, executes_of (by decide +kernel), rfl, by decide +kernel, by decide +kernel, by decide +kernel⟩,
   ⟨(0), (0), (lone.modAsh (fun a => { a with flush := some (aFlush 0) })), _, executes_of (by decide +kernel), rfl, by decide +kernel⟩,
   ⟨(0), (0), (lone), _, executes_of (by decide +kernel), rfl, by decide +kernel⟩,
   ⟨(0), (0), (((mains 5 0).setFld 0x110000 31 31 1).modMa (fun m => { m with phases := m.phases.modify 0 (fun p => { p with present := true, samples := List.replicate 64 0 }) })), _, executes_of (by decide +kernel), rfl, by decide +kernel, by decide +kernel, by decide +kernel⟩,
   ⟨(0), (0), (List.replicate 11 255#8), (lone), _, executes_of (by decide +kernel), rfl, by decide +kernel⟩,
   ⟨(0), (0), (lone), _, executes_of (by decide +kernel), rfl⟩,
   ⟨(0), (0), (lone), _, executes_of (by decide +kernel), rfl⟩,
   ⟨(0), (0), ([63#8]), _, (lone), _, executes_of (by decide +kernel), rfl, by decide +kernel, by decide +kernel, (fun _ => rfl)⟩,
   ⟨(0), (0), ([255#8]), (lone), _, executes_of (by decide +kernel), rfl, by decide +kernel, by decide +kernel⟩⟩

theorem met_MemoryRepair :
    (∃ (dt : Nat) (s : State) (x : State), x = s.at dt ∧ x.blocksRun ∧ (x.hearth.ps = .blaze ∨ x.hearth.ps = .bank) ∧ x.fld 0x120008 23 16 ≠ 0 ∧ x.main.mm.words ≠ 0 ∧ x.main.mm.scrubAt + x.fld 0x120008 23 16 * secT / x.main.mm.words ≤ x.now)
    ∧ (∃ (dt : Nat) (lane : Nat) (w : Nat) (s : State) (x : State), x = s.at dt ∧ x.blocksRun ∧ (x.hearth.ps = .blaze ∨ x.hearth.ps = .bank) ∧ x.fld 0x120008 23 16 ≠ 0 ∧ x.main.mm.words ≠ 0 ∧ x.main.mm.scrubAt + x.fld 0x120008 23 16 * secT / x.main.mm.words ≤ x.now ∧ lane < 72 ∧ w = x.main.mm.scrubWord % x.main.mm.words)
    ∧ (∃ (dt : Nat) (w : Nat) (s : State) (x : State), x = s.at dt ∧ x.blocksRun ∧ (x.hearth.ps = .blaze ∨ x.hearth.ps = .bank) ∧ x.fld 0x120008 23 16 ≠ 0 ∧ x.main.mm.words ≠ 0 ∧ x.main.mm.scrubAt + x.fld 0x120008 23 16 * secT / x.main.mm.words ≤ x.now ∧ x.bit 0x120008 31 = false ∧ w = x.main.mm.scrubWord % x.main.mm.words)
    ∧ (∃ (x : State) (y : State) (a : Nat) (phys : Nat) (blk : Nat) (c : List Byte), c = be 4 a ++ [byte phys, byte blk] ∧ y = (((x.count 0x12000C 15 0).ash 0x12 0x02 c).wake 0x0E).notify 0x1202 false c)
    ∧ (∃ (x : State), x.bit 0x120008 31 = false)
    ∧ (∃ (x : State) (b : Nat) (row : Nat) (sp : Nat) (l : List Nat), x.main.mm.repaired b true row = false ∧ x.main.mm.spares b true = sp :: l)
    ∧ (∃ (dt : Nat) (r : Repair) (l : List Repair) (e : List Byte) (s : State) (x : State), x = s.at dt ∧ x.blocksRun ∧ x.main.mm.repairs = r :: l ∧ e = r.entry 1 (x.hearthSec % 2 ^ 32))
    ∧ (∃ (dt : Nat) (c : Nat) (s : State) (x : State), x = s.at dt ∧ x.blocksRun ∧ x.main.mm.logDue = true ∧ x.flashLog = some c)
    ∧ (∃ (dt : Nat) (region : Nat) (offset : Nat) (s : State) (x : State) (y : State), x = s.at dt ∧ x.hearth.running = true ∧ region ≤ 6 ∧ x.main.out = false ∧ y = (x.wake 0x0E).hearthUncorr region offset ∧ y.main.boot.local9 = false)
    ∧ (∃ (dt : Nat) (region : Nat) (offset : Nat) (s : State) (x : State) (y : State), x = s.at dt ∧ x.hearth.running = true ∧ region ≤ 6 ∧ x.main.out = true ∧ y = ((x.wake 0x0E).count 0x120010 15 0).hearthUncorr region offset ∧ y.main.boot.local9 = true)
    ∧ (∃ (dt : Nat) (region : Nat) (s : State) (x : State), x = s.at dt ∧ x.hearth.running = true ∧ region ≤ 6 ∧ x.main.out = true) :=
  ⟨⟨(0), (lone), _, rfl, ⟨⟨by decide +kernel, by decide +kernel⟩, by decide +kernel⟩, by decide +kernel, by decide +kernel, by decide +kernel, by decide +kernel⟩,
   ⟨(0), (71), _, (lone), _, rfl, ⟨⟨by decide +kernel, by decide +kernel⟩, by decide +kernel⟩, by decide +kernel, by decide +kernel, by decide +kernel, by decide +kernel, by decide +kernel, rfl⟩,
   ⟨(0), _, (lone.setFld 0x120008 31 31 0), _, rfl, ⟨⟨by decide +kernel, by decide +kernel⟩, by decide +kernel⟩, by decide +kernel, by decide +kernel, by decide +kernel, by decide +kernel, by decide +kernel, rfl⟩,
   ⟨(lone), _, (0), (63), (255), _, rfl, rfl⟩,
   ⟨(lone.setFld 0x120008 31 31 0), by decide +kernel⟩,
   ⟨(lone), (63), (511), _, _, by decide +kernel, cons_of (by decide +kernel)⟩,
   ⟨(0), (aRepair), ([]), _, (lone.modMem (fun m => { m with repairs := [aRepair] })), _, rfl, ⟨⟨by decide +kernel, by decide +kernel⟩, by decide +kernel⟩, by decide +kernel, rfl⟩,
   ⟨(0), (1), ({ lone.modMem (fun m => { m with logDue := true }) with flash := flashWrite [] 0x291000 ((mkLog 7 []).take 16) }), _, rfl, ⟨⟨by decide +kernel, by decide +kernel⟩, by decide +kernel⟩, by decide +kernel, by decide +kernel⟩,
   ⟨(0), (6), (4095), (dark), _, _, rfl, by decide +kernel, by decide +kernel, by decide +kernel, rfl, by decide +kernel⟩,
   ⟨(0), (6), (4095), (lone), _, _, rfl, by decide +kernel, by decide +kernel, by decide +kernel, rfl, by decide +kernel⟩,
   ⟨(0), (6), (lone), _, rfl, by decide +kernel, by decide +kernel, by decide +kernel⟩⟩

theorem met_StepRunsFront :
    (∃ (c : Instr) (rest : List Instr) (s : State), s.pending = c :: rest)
    ∧ (∃ (s : State), s.pending = []) :=
  ⟨⟨(.routeTimer 1), ([]), ({ lone with pending := [.routeTimer 1] }), (rfl)⟩,
   ⟨(lone), by decide +kernel⟩⟩

theorem met_EveryStepKeeps :
    ∃ (s : State), s.sound :=
   ⟨(State.reset), (⟨by decide +kernel, by decide +kernel⟩)⟩

theorem met_PartsInReset :
    (∃ (i : Instr) (s : State), i.part ≠ .hearth ∧ (s.at i.ticks).main.out = false)
    ∧ (∃ (i : Instr) (s : State), i.part ≠ .hearth ∧ (s.at i.ticks).main.boot.stopped = true)
    ∧ (∃ (i : Instr) (s : State), i.part = .blocks ∧ (s.at i.ticks).main.boot.rescue = true)
    ∧ (∃ (s : State), s.main = .cold) :=
  ⟨⟨(.routeTimer 1), (dark), by decide +kernel, by decide +kernel⟩,
   ⟨(.routeTimer 1), (lone.modBoot (fun b => { b with stopped := true })), by decide +kernel, by decide +kernel⟩,
   ⟨(.routeTimer 1), (lone.modBoot (fun b => { b with rescue := true })), by decide +kernel, by decide +kernel⟩,
   ⟨(dark), by decide +kernel⟩⟩

end Sys2Proof.Tests
end

section
/-! PROOFS. Commands (03): a command packet that a transport brings whole meets the operation table (R86). A transport
brings a packet to `State.packet`, whose checks a packet that passes R85 leaves for `State.accept`. -/

namespace Sys2Proof.Machine

/-! ### A packet that passes R85 -/

/-- A packet that passes every check of R85 comes before the operation table. -/
theorem State.packet_passes {y : State} {b : List Byte} (h : y.passes b) :
    y.packet b true false
      = y.accept (hdrOf b) (bytesAt b 16 (hdrOf b).length) ((b.length + 15) / 16) := by
  obtain ⟨_, _, hcrc, hlen, hkind, hlead, hroom, hform, hmax, hpay⟩ := h
  have hfull : ¬ intakeLimit < y.intake + ((hdrOf b).extent + 15) / 16 := by omega
  have hbad : ¬ ((hdrOf b).length ≠ 0
      ∧ field b (16 + (hdrOf b).length) 4 ≠ crc32 (bytesAt b 16 (hdrOf b).length)) :=
    fun ⟨h0, hne⟩ => hne (hpay h0)
  simp only [State.packet, hcrc, hkind, hlead, hform, hfull, hbad, hlen, Nat.not_lt.mpr hmax, decide_false,
    Bool.not_true, Bool.false_eq_true, ne_eq, not_true_eq_false, or_self, if_false]

/-- A command on a tag whose entry is FREE is accepted, and holds the intake of its packet (R86). -/
theorem State.packet_accepted {y : State} {b : List Byte} (h : y.takesPacket b) :
    y.packet b true false = y.accepted b := by
  obtain ⟨hpass, hfree⟩ := h
  rw [State.packet_passes hpass, State.accept_free hfree]
  rfl

/-- The reply that rejects a packet's command because its tag is taken (R86): TAG_BUSY, PART 0 and MORE 0. -/
def State.tagBusy (y : State) (b : List Byte) : List Byte :=
  mkPacket 1 y.self 0 (hdrOf b).opcode (hdrOf b).tag 0x0001 0 []

/-- A command on a tag that is not FREE is answered TAG_BUSY (R86). -/
theorem State.packet_tagBusy {y : State} {b : List Byte} (h : y.passes b)
    (hbusy : (y.opOfTag (hdrOf b).tag).isSome = true) : y.packet b true false = y.answered (y.tagBusy b) := by
  rw [State.packet_passes h]
  exact if_pos hbusy

/-- The entry of the tag of an accepted command is no longer FREE (R86). -/
theorem State.accepted_opOfTag (x : State) (b : List Byte) :
    ((x.accepted b).opOfTag (hdrOf b).tag).isSome = true := by
  simp [State.accepted, State.opOfTag]

/-! ### SPI and the tree: a packet delimited from outside -/

/-- A transaction or an SDU that is one packet as long as its LENGTH sets it counts nothing of its own (R77). -/
theorem State.delimited_passes {y : State} {b : List Byte} (h : y.passes b) :
    y.delimited b false = y.packet b true false := by
  obtain ⟨h16, hsync, -, hlen, -⟩ := h
  have h2 : ¬ b.length < 2 := by omega
  simp only [State.delimited, hsync, h2, Nat.not_lt.mpr h16, ← hlen, lt_irrefl, Bool.not_true, Bool.false_eq_true,
    or_self, and_false, if_false]

/-- SPI WRITE while SPI is the bound transport: the chip wakes and takes the bytes (R77). -/
theorem exec_spiWrite_bound {dt : Nat} {b : List Byte} {s : State} (hruns : (s.at dt).runs)
    (hspi : (s.at dt).main.cmd.bound = .spi) :
    exec (.spiWrite dt b) s = s.leaves (((s.at dt).wake 0x06).delimited b false) := by
  rw [exec_spiWrite, State.onMain_of hruns]
  simp [State.spiWrite, hruns.1, hspi]

/-- An SDU of port 0x001 while the tree is the bound transport: its bytes are one packet (R74). -/
theorem exec_mgmtSdu_bound {dt : Nat} {d : DownSdu} {s y : State} (hruns : (s.at dt).runs)
    (htake : (s.at dt).takeSdu (fun d => d.port == 1) = some (d, y)) (htree : y.main.cmd.bound = .tree)
    (hout : y.main.out = true) : exec (.mgmtSdu dt) s = s.leaves (y.delimited d.bytes d.distrust) := by
  rw [exec_mgmtSdu, State.onMain_of hruns]
  simp [State.mgmtSduIn, htake, State.mgmtSdu, hout, htree]

/-! ### What the UART receiver holds while replies go out -/

@[simp] theorem State.pushOut_uart (s : State) (p : OutPkt) : (s.pushOut p).main.cmd.uart = s.main.cmd.uart := by
  unfold State.pushOut
  split <;> rfl

@[simp] theorem State.freeOp_uart (s : State) (id : Nat) : (s.freeOp id).main.cmd.uart = s.main.cmd.uart := rfl

@[simp] theorem State.placeReply_uart (s : State) (p : OutPkt) :
    (s.placeReply p).main.cmd.uart = s.main.cmd.uart := by
  unfold State.placeReply
  dsimp only
  split <;> simp

@[simp] theorem State.storeNotice_uart (s : State) (r : Raised) (lost : Option Nat) :
    (s.storeNotice r lost).main.cmd.uart = s.main.cmd.uart := rfl

theorem State.promote_uart {s t : State} (h : s.promote = some t) : t.main.cmd.uart = s.main.cmd.uart := by
  unfold State.promote at h
  split at h
  · split at h
    · cases h
      simp
    · cases h
  · cases h

theorem State.pumpOnce_uart {s t : State} (h : s.pumpOnce = some t) : t.main.cmd.uart = s.main.cmd.uart := by
  unfold State.pumpOnce at h
  dsimp only at h
  split at h
  next s1 hs =>
    cases h
    exact State.promote_uart hs
  next =>
    split at h
    · cases h
    · split at h
      next =>
        split at h
        · cases h
          simp
        · cases h
      next =>
        split at h
        · split at h
          · cases h
            simp [Cmd.place]
          · cases h
        · cases h

theorem State.pump_uart (k : Nat) (s : State) : (s.pump k).main.cmd.uart = s.main.cmd.uart := by
  induction k generalizing s with
  | zero => rfl
  | succ k ih =>
    unfold State.pump
    split
    next s' hs => exact (ih s').trans (State.pumpOnce_uart hs)
    next => rfl

@[simp] theorem State.answered_uart (x : State) (p : List Byte) :
    (x.answered p).main.cmd.uart = x.main.cmd.uart := State.pump_uart _ _

@[simp] theorem State.accepted_uart (x : State) (b : List Byte) :
    (x.accepted b).main.cmd.uart = x.main.cmd.uart := rfl

/-! ### The UART: a packet found by the receiver's hunt -/

/-- A string of two bytes or more that `syncOk` accepts begins with the bytes of SYNC. -/
theorem eq_sync_append_of_syncOk {b : List Byte} (h2 : 2 ≤ b.length) (h : syncOk b = true) :
    ∃ t, b = sync0 :: sync1 :: t := by
  match b, h2 with
  | b0 :: b1 :: t, _ =>
    have hv : b0.toNat * 256 + b1.toNat = 0xC716 := by simpa [syncOk, field, ofBe] using h
    have h0 : b0.toNat < 256 := b0.isLt
    have h1 : b1.toNat < 256 := b1.isLt
    have e0 : b0 = sync0 := BitVec.eq_of_toNat_eq (show b0.toNat = 0xC7 by omega)
    have e1 : b1 = sync1 := BitVec.eq_of_toNat_eq (show b1.toNat = 0x16 by omega)
    exact ⟨t, by rw [e0, e1]⟩

/-- What a change of the command port does is what it does to the command port that is there. -/
theorem State.modCmd_congr {s : State} {f g : Cmd → Cmd} (h : f s.main.cmd = g s.main.cmd) :
    s.modCmd f = s.modCmd g := by
  unfold State.modCmd
  rw [h]

/-- The receiver that holds no byte has nothing to hunt through. -/
theorem State.hunt_nil (k : Nat) {s : State} (h : s.main.cmd.uart = []) : s.hunt k = s := by
  cases k with
  | zero => rfl
  | succ k => simp [State.hunt, h]

/-- The receiver that holds one whole packet takes it, and holds nothing any more (R80). -/
theorem State.hunt_whole (k : Nat) {s : State} {b : List Byte} (hb : s.main.cmd.uart = b) (h16 : 16 ≤ b.length)
    (hsync : syncOk b = true) (hcrc : hcrcOk b = true) (hlen : b.length = (hdrOf b).extent) :
    s.hunt (k + 1) = ((s.modCmd (fun c => { c with uart := [] })).packet b true false).hunt k := by
  have hdrop : s.modCmd (fun c => { c with uart := c.uart.drop b.length })
      = s.modCmd (fun c => { c with uart := [] }) :=
    State.modCmd_congr (by simp [hb])
  obtain ⟨t, ht⟩ := eq_sync_append_of_syncOk (by omega) hsync
  rw [State.hunt]
  dsimp only
  rw [hb]
  simp only [ht, ne_eq, not_true_eq_false, if_false]
  simp only [← ht, hcrc, ← hlen, hdrop, List.take_length, Nat.not_lt.mpr h16, lt_irrefl, Bool.not_true,
    Bool.false_eq_true, if_false]

/-- The state in which the UART receiver holds what it held, its last byte having come now. -/
def State.uartTaken (y : State) : State := y.modCmd (fun c => { c with uartAt := y.now })

/-- No check of R85 looks at when the last byte came. -/
theorem State.uartTaken_passes {y : State} {b : List Byte} (h : y.passes b) : y.uartTaken.passes b := h

/-- A wake does not take time. -/
@[simp] theorem State.wake_now (s : State) (n : Nat) : (s.wake n).now = s.now := by
  unfold State.wake
  dsimp only
  split
  · rfl
  · split
    · split <;> rfl
    · rfl

/-- A whole packet on UART_RXD, the receiver holding nothing before it: the chip wakes, the packet is taken, and the
hunt goes on in what is left (R80). -/
theorem exec_uartPacket_whole {dt : Nat} {b : List Byte} {s y : State} (hruns : (s.at dt).runs)
    (huart : (s.at dt).main.cmd.bound = .uart) (hnone : (s.at dt).main.cmd.uart = [])
    (hy : y = (s.at dt).wake 0x06) (h : y.passes b) :
    exec (.uartPacket dt b) s = s.leaves ((y.uartTaken.packet b true false).hunt (b.length - 1)) := by
  obtain ⟨h16, hsync, hcrc, hlen, -⟩ := h
  have hne : b ≠ [] := by
    rintro rfl
    simp at h16
  have hk : b.length = b.length - 1 + 1 := by omega
  have hheld : y.main.cmd.uart = [] := by rw [hy, State.wake_cmd, hnone]
  have hnow : y.now = (s.at dt).now := by rw [hy, State.wake_now]
  have htaken : (y.modCmd (fun c => { c with uart := c.uart ++ b, uartAt := y.now })).modCmd
      (fun c => { c with uart := [] }) = y.uartTaken := by
    simp only [State.uartTaken, State.modCmd, ← hheld]
  have hbytes : (s.at dt).uartBytes b
      = (y.modCmd (fun c => { c with uart := c.uart ++ b, uartAt := y.now })).hunt b.length := by
    simp [State.uartBytes, hruns.1, huart, hne, ← hy, State.uartAbandon, hheld, hnow]
  rw [exec_uartPacket, State.onMain_of hruns, hbytes, hk,
    State.hunt_whole _ (by simp [hheld]) h16 hsync hcrc hlen, htaken, ← hk]

/-- The hunt ends with a packet that leaves the receiver without a byte. -/
theorem exec_uartPacket_ends {dt : Nat} {b : List Byte} {s y z : State} (hruns : (s.at dt).runs)
    (huart : (s.at dt).main.cmd.bound = .uart) (hnone : (s.at dt).main.cmd.uart = [])
    (hy : y = (s.at dt).wake 0x06) (h : y.passes b) (hz : y.uartTaken.packet b true false = z)
    (hheld : z.main.cmd.uart = y.uartTaken.main.cmd.uart) : exec (.uartPacket dt b) s = s.leaves z := by
  have hempty : z.main.cmd.uart = [] := by
    rw [hheld, hy]
    simpa [State.uartTaken] using hnone
  rw [exec_uartPacket_whole hruns huart hnone hy h, hz, State.hunt_nil _ hempty]

/-- Settles O4: each transport brings the packet to `State.packet`, which accepts it where its tag is FREE and answers
TAG_BUSY where it is not (R86). -/
theorem packetsAccepted : Obligations.PacketsAccepted := by
  unfold Obligations.PacketsAccepted
  refine ⟨?spiFree, ?treeFree, ?uartFree, ?spiBusy, ?treeBusy, ?uartBusy, State.accepted_opOfTag⟩
  case spiFree =>
    rintro dt b s x y rfl hruns hspi rfl h
    rw [exec_spiWrite_bound hruns hspi, State.delimited_passes h.1, State.packet_accepted h]
  case treeFree =>
    rintro dt d s x y rfl hruns - htake htree hout hd h
    rw [exec_mgmtSdu_bound hruns htake htree hout, hd, State.delimited_passes h.1, State.packet_accepted h]
  case uartFree =>
    rintro dt b s x y rfl hruns huart hnone hy h
    have htaken : y.uartTaken.takesPacket b := ⟨State.uartTaken_passes h.1, h.2⟩
    exact exec_uartPacket_ends hruns huart hnone hy h.1 (State.packet_accepted htaken) (State.accepted_uart _ _)
  case spiBusy =>
    rintro dt b s x y rfl hruns hspi rfl h hbusy
    rw [exec_spiWrite_bound hruns hspi, State.delimited_passes h, State.packet_tagBusy h hbusy]
    rfl
  case treeBusy =>
    rintro dt d s x y rfl hruns - htake htree hout hd h hbusy
    rw [exec_mgmtSdu_bound hruns htake htree hout, hd, State.delimited_passes h, State.packet_tagBusy h hbusy]
    rfl
  case uartBusy =>
    rintro dt b s x y rfl hruns huart hnone hy h hbusy
    exact exec_uartPacket_ends hruns huart hnone hy h (State.packet_tagBusy (State.uartTaken_passes h) hbusy)
      (State.answered_uart _ _)

end Sys2Proof.Machine
end

section
/-! PROOFS. The Hearth and its power states (05): the wake timer (R162), which fires once Hearth time has reached the wake
value while EN is 1. Where PEN_MAIN is high, that is a wake; from Ember, PEN_MAIN rises. -/

namespace Sys2Proof.Machine

/-! ### The start from Ember -/

/-- The Hearth starts the chip from Ember (R175); in a rail lockout it leaves it there (R66). -/
theorem State.penHigh_ember {s : State} (cause src : Nat) (hpen : s.hearth.pen = false)
    (hrun : s.hearth.running = true) :
    s.penHigh cause src = if s.hearth.lockout then s else s.modHearth (fun h => { h.penRises s.now with
      wakeSrc := src, onReserve := !h.psuOk, retryAt := none, cause := if h.cause = 0x01 then 0x01 else cause }) := by
  simp [State.penHigh, hpen, hrun]

/-! ### When Hearth time has reached the wake value -/

section
variable {s : State} {d : Int} (hd : d = sdiff 32 (s.hearthSec % 2 ^ 32) (s.word 0x010014))
include hd

/-- Hearth time has reached the wake value: the seconds are later, or they are equal and the fraction has reached FRAC. -/
theorem State.wakeDue_iff :
    s.wakeDue = true ↔ 0 < d ∨ d = 0 ∧ s.fld 0x010018 14 0 ≤ s.hearthFrac := by
  subst hd
  simp [State.wakeDue]

/-- Hearth time is before the wake value: the seconds are earlier, or they are equal and the fraction is below FRAC. -/
theorem State.wakeDue_eq_false_iff :
    s.wakeDue = false ↔ d < 0 ∨ d = 0 ∧ s.hearthFrac < s.fld 0x010018 14 0 := by
  rw [← Bool.not_eq_true, State.wakeDue_iff hd]
  omega

end

/-! ### What the wake timer does -/

section
variable {s : State} (hrun : s.hearth.running = true) (hen : s.bit 0x010018 31 = true) (hdue : s.wakeDue = true)
include hrun hen hdue

/-- The timer that fires while PEN_MAIN is high clears EN and wakes the chip (R162). -/
theorem State.wakeTimer_wakes (hpen : s.hearth.pen = true) :
    s.wakeTimer = (s.setFld 0x010018 31 31 0).wake 0x02 := by
  simp [State.wakeTimer, hrun, hen, hdue, hpen]

/-- The timer that fires in Ember clears EN and starts the chip (R162, R175). -/
theorem State.wakeTimer_starts (hpen : s.hearth.pen = false) :
    s.wakeTimer = (s.setFld 0x010018 31 31 0).penHigh 0x03 0x02 := by
  simp [State.wakeTimer, hrun, hen, hdue, hpen]

end

/-- The timer that is not enabled, or not due, does nothing (R162). -/
theorem State.wakeTimer_waits {s : State} (h : s.bit 0x010018 31 = false ∨ s.wakeDue = false) : s.wakeTimer = s := by
  obtain h | h := h <;> simp [State.wakeTimer, h]

/-- Settles O16: the timer acts exactly where EN is 1 and `State.wakeDue` holds, and PEN_MAIN decides between a wake and
a start (R162). -/
theorem wakeTimerFires : Obligations.WakeTimerFires := by
  unfold Obligations.WakeTimerFires
  rintro dt d s x _ hx hrun hd rfl
  rw [exec_wakeTimer, ← hx]
  refine ⟨?wakes, ?starts, ?waits⟩
  case wakes =>
    intro hen hreached hpen
    rw [State.wakeTimer_wakes hrun hen ((State.wakeDue_iff hd).mpr hreached) hpen]
  case starts =>
    intro hen hreached hpen
    rw [State.wakeTimer_starts hrun hen ((State.wakeDue_iff hd).mpr hreached) hpen,
      State.penHigh_ember 0x03 0x02 (by simpa using hpen) (by simpa using hrun)]
    rfl
  case waits =>
    intro hbefore
    rw [State.wakeTimer_waits (hbefore.imp_right (State.wakeDue_eq_false_iff hd).mpr)]

end Sys2Proof.Machine
end

section
/-! PROOFS. Tree membership (10): PORT_ASSIGN (R351). The message at the head of the queue leaves it and is applied; of a
PORT_ASSIGN in form, the word decides between the write of TD_PORTn and the count of UNKNOWN. -/

namespace Sys2Proof.Machine

/-- The tree's downstream state holds no register. -/
@[simp] theorem State.modTd_word (s : State) (f : TreeDown → TreeDown) (a : Nat) : (s.modTd f).word a = s.word a := rfl

/-- A membership message at the head of the queue, outside Smoulder, leaves the queue and is applied (R308). -/
theorem State.takeMessage_head {s : State} {type sfc : Nat} {m : List Byte} {t : List (Nat × List Byte)}
    (hmsgs : s.main.td.msgs = (sfc, m) :: t) (hawake : s.smouldering = false) (htype : field m 0 1 = type)
    (htime : type ≠ 1) :
    s.takeMessage type = (s.modTd (fun d => { d with msgs := t })).tmMessage sfc m := by
  simp [State.takeMessage, hmsgs, hawake, htype, htime]

/-- PORT_ASSIGN carries no SERIAL: in form, it is for every terminal (Table TM-3). -/
theorem State.tmMessage_portAssign {s : State} {carry : Nat} {m : List Byte} (htype : field m 0 1 = 7)
    (hform : tmFormOk m = true) : s.tmMessage carry m = s.portAssign m := by
  simp [State.tmMessage, htype, hform, carriesSerial]

/-- A word that TD_PORTn takes is written there, and what follows a write of TD_PORTn follows (R314, R324). -/
theorem State.portAssign_legal {s : State} {m : List Byte} {n w : Nat} (hn : n = field m 4 2) (hw : w = field m 6 4)
    (hlegal : tdPortLegal n w = true) :
    s.portAssign m = (s.setWord (tdPortReg n)
      (regWritten (regFields (tdPortReg n)) (s.word (tdPortReg n)) w)).tdPortWritten n (s.word (tdPortReg n)) := by
  subst hn hw
  exact if_pos hlegal

/-- A word that would set a reserved value writes nothing, and UNKNOWN is counted (R351). -/
theorem State.portAssign_reserved {s : State} {m : List Byte} {n w : Nat} (hn : n = field m 4 2) (hw : w = field m 6 4)
    (hres : tdPortLegal n w = false) : s.portAssign m = s.count 0x060024 7 4 := by
  subst hn hw
  exact if_neg (by simp [hres])

/-- Settles O33: an accepted PORT_ASSIGN is `State.portAssign` of the message, and `tdPortLegal` of its word says which of
the two outcomes it has (R351). -/
theorem portAssign : Obligations.PortAssign := by
  unfold Obligations.PortAssign
  rintro dt sfc n w m t s x y rfl hruns hmsgs hawake htype hform rfl hn hw
  rw [exec_portAssign, State.onBlocks_of hruns, State.takeMessage_head hmsgs hawake htype (by decide),
    State.tmMessage_portAssign htype hform]
  refine ⟨?written, ?counted⟩
  case written =>
    intro hlegal
    rw [State.portAssign_legal hn hw hlegal, State.modTd_word]
  case counted =>
    intro hres
    rw [State.portAssign_reserved hn hw hres]

end Sys2Proof.Machine
end

section
/-! PROOFS. Every command: its effect is gated by the part of the chip that must run for it, and what it leaves keeps what
no command may break. -/

namespace Sys2Proof.Machine

/-- The effect `f` of a command, where the part of the chip that it needs runs. -/
def gate : Part → (State → State) → State → State
  | .hearth, f => f
  | .main, f => State.onMain f
  | .blocks, f => State.onBlocks f

theorem gate_keeps {r s : State} {f : State → State} (p : Part) (hf : ∀ y, Keeps r y → Keeps r (f y))
    (h : Keeps r s) : Keeps r (gate p f s) := by
  cases p with
  | hearth => exact hf s h
  | main => exact State.onMain_keeps f s hf h
  | blocks => exact State.onBlocks_keeps f s hf h

/-- The command `i` has an effect of its own, in the state its ticks later and where its part runs, and then what
follows from it; and the effect keeps what every operation keeps. -/
def Gated (i : Instr) : Prop :=
  ∃ f : State → State, (∀ s, exec i s = s.leaves (gate i.part f (s.at i.ticks)))
    ∧ ∀ r y, Keeps r y → Keeps r (f y)

section
variable {i : Instr} {dt : Nat} {f : State → State}

theorem Gated.of {p : Part} (hp : i.part = p) (ht : i.ticks = dt)
    (he : ∀ s, exec i s = s.leaves (gate p f (s.at dt))) (hk : ∀ r y, Keeps r y → Keeps r (f y)) : Gated i := by
  subst hp ht
  exact ⟨f, he, hk⟩

theorem Gated.ofHearth (hp : i.part = .hearth) (ht : i.ticks = dt) (he : ∀ s, exec i s = s.leaves (f (s.at dt)))
    (hk : ∀ r y, Keeps r y → Keeps r (f y)) : Gated i := .of hp ht he hk

theorem Gated.ofMain (hp : i.part = .main) (ht : i.ticks = dt)
    (he : ∀ s, exec i s = s.leaves (State.onMain f (s.at dt))) (hk : ∀ r y, Keeps r y → Keeps r (f y)) : Gated i :=
  .of hp ht he hk

theorem Gated.ofBlocks (hp : i.part = .blocks) (ht : i.ticks = dt)
    (he : ∀ s, exec i s = s.leaves (State.onBlocks f (s.at dt))) (hk : ∀ r y, Keeps r y → Keeps r (f y)) : Gated i :=
  .of hp ht he hk

end

/-! ### The actions that a schedule entry has on other blocks -/

theorem entryActs_capture_keeps {r : State} (c : Nat) (e : Option Nat) (y : State) (h : Keeps r y) :
    Keeps r (entryActs.capture c e y) := State.capture_keeps c e none y h

theorem entryActs_prog_keeps {r : State} (p : Nat) (y : State) (h : Keeps r y) : Keeps r (entryActs.prog p y) :=
  State.startProg_keeps y p none h

/-- Every command is gated by its part. -/
theorem exec_gated (i : Instr) : Gated i := by
  cases i with
  | nop _ tag p | getInfo _ tag p | regRead _ tag p | regWrite _ tag p | regModify _ tag p | opQuery _ tag p
  | cancel _ tag p | noticeAck _ tag p | resetMain _ tag p | imgStatus _ tag p | imgErase _ tag p | imgWrite _ tag p
  | imgVerify _ tag p | imgActivate _ tag p | imgCommit _ tag p | bootReport _ tag p | psStatus _ tag p
  | heldRead _ tag p | ntStatus _ tag p | ntSet _ tag p | ntAdjust _ tag p | cmpArm _ tag p | cmpDisarm _ tag p
  | maStatus _ tag p | maArm _ tag p | maPulse _ tag p | maWave _ tag p | lnReport _ tag p | lnEye _ tag p
  | lnTxRelease _ tag p | lnSpareForce _ tag p | tdReport _ tag p | tmStatus _ tag p | tmSetSerial _ tag p
  | tmSetIdent _ tag p | tmForget _ tag p | tmClearDisable _ tag p | upStatus _ tag p | upAdmitTest _ tag p
  | mpXact _ tag p | mpStatus _ tag p | mpProgLoad _ tag p | mpProgStart _ tag p | mpProgStop _ tag p
  | mpProgStatus _ tag p | tbStatus _ tag p | emStatus _ tag p | emStats _ tag p | emMdio _ tag p | cyStatus _ tag p
  | cyKeyInfo _ tag p | cyKeyLoad _ tag p | cyKeyErase _ tag p | cyZeroise _ tag p | cyRun _ tag p | pcStatus _ tag p
  | pcBudget _ tag p | pcForceIdr _ tag p | pcClipList _ tag p | pcClipIndex _ tag p | pcClipSend _ tag p
  | pcClipLock _ tag p | pcClipUnlock _ tag p | pcDecLoad _ tag p | pcDecode _ tag p | pcDecStop _ tag p
  | waStatus _ tag p | waCapture _ tag p | waField _ tag p | waDisc _ tag p | waI2c _ tag p | pwStatus _ tag p
  | pwClear _ tag p | stStatus _ tag p | stRetrain _ tag p | skStatus _ tag p | skCfgWrite _ tag p
  | skCfgCommit _ tag p | skQuarantine _ tag p | alStatus _ tag p | alRead _ tag p | alArchives _ tag p
  | alArchRead _ tag p | alUpload _ tag p | alFlush _ tag p | alWave _ tag p | alMark _ tag p | mmStatus _ tag p
  | mmLog _ tag p | mmWithdraw _ tag p =>
    exact .ofMain (f := State.command _ tag.toNat p) rfl rfl (fun _ => rfl) fun _ _ => State.command_keeps _ _ _ _
  | mainResetRelease _ msel member pins ref faults rextOk rails =>
    exact .ofHearth (f := fun x => x.release msel.toNat member.toNat pins.1 pins.2 ref faults rextOk rails) rfl rfl
      (exec_mainResetRelease _ _ _ _ _ _ _ _) (fun _ _ => State.release_keeps _ _ _ _ _ _ _ _ _)
  | resetN _ lowUs =>
    exact .ofHearth (f := fun x => x.resetN lowUs) rfl rfl (exec_resetN _ _) fun _ _ => State.resetN_keeps _ _
  | railOutOfWindow _ rails =>
    exact .ofHearth (f := fun x => x.railOut rails.1 rails.2) rfl rfl (exec_railOutOfWindow _ _)
      (fun _ _ => State.railOut_keeps _ _ _)
  | railRestart =>
    exact .ofHearth (f := State.railRestart) rfl rfl (exec_railRestart _) fun _ _ => State.railRestart_keeps _
  | railsNotUp _ rails =>
    exact .ofHearth (f := fun x => x.railsNotUp rails) rfl rfl (exec_railsNotUp _ _)
      (fun _ _ => State.railsNotUp_keeps _ _)
  | railRetry => exact .ofHearth (f := State.railRetry) rfl rfl (exec_railRetry _) fun _ _ => State.railRetry_keeps _
  | step9Timeout => exact .ofBlocks rfl rfl (exec_step9Timeout _) fun _ _ => State.step9Timeout_keeps _
  | watchdog _ core code =>
    exact .ofHearth (f := fun x => x.watchdog core code.toNat) rfl rfl (exec_watchdog _ _ _)
      (fun _ _ => State.watchdog_keeps _ _ _)
  | spiWrite => exact .ofMain rfl rfl (exec_spiWrite _ _) fun _ _ => State.spiWrite_keeps _ _
  | spiRead => exact .ofMain rfl rfl (exec_spiRead _ _) fun _ _ => State.spiRead_keeps _ _
  | spiStatus => exact .ofMain rfl rfl (exec_spiStatus _) fun _ _ => State.spiStatus_keeps _
  | mgmtSdu => exact .ofMain rfl rfl (exec_mgmtSdu _) fun _ _ => State.mgmtSduIn_keeps _
  | uartPacket => exact .ofMain rfl rfl (exec_uartPacket _ _) fun _ _ => State.uartBytes_keeps _ _
  | uartGapTimeout => exact .ofMain rfl rfl (exec_uartGapTimeout _) fun _ _ => State.uartGap_keeps _
  | commandStart => exact .ofMain rfl rfl (exec_commandStart _ _) fun _ _ => State.commandStart_keeps _ _
  | opTimeout => exact .ofMain rfl rfl (exec_opTimeout _ _) fun _ _ => State.opTimeout_keeps _ _
  | packetLeft => exact .ofMain rfl rfl (exec_packetLeft _) fun _ _ => State.leave_keeps _
  | alarmRepeat => exact .ofMain rfl rfl (exec_alarmRepeat _ _) fun _ _ => State.alarmRepeat_keeps _ _
  | cmdOpLimitWrite => exact .ofBlocks rfl rfl (exec_cmdOpLimitWrite _ _) fun _ _ => State.regWrite_keeps _ _ _
  | hearthStart _ aonMv vbatMv =>
    exact .ofHearth (f := fun x => x.hearthStart aonMv vbatMv) rfl rfl (exec_hearthStart _ _ _)
      (fun _ _ => State.hearthStart_keeps _ _ _)
  | hearthReset _ aonMv vbatMv =>
    exact .ofHearth (f := fun x => x.hearthReset aonMv vbatMv) rfl rfl (exec_hearthReset _ _ _)
      (fun _ _ => State.hearthReset_keeps _ _ _)
  | supplySwitch _ aonMv vbatMv =>
    exact .ofHearth (f := fun x => x.supplySwitch aonMv vbatMv) rfl rfl (exec_supplySwitch _ _ _)
      (fun _ _ => State.supplySwitch_keeps _ _ _)
  | hearthAlign => exact .ofBlocks rfl rfl (exec_hearthAlign _) fun _ _ => State.hearthAlign_keeps _
  | wakeTimer => exact .ofHearth (f := State.wakeTimer) rfl rfl (exec_wakeTimer _) fun _ _ => State.wakeTimer_keeps _
  | tamperActive _ input code =>
    exact .ofHearth (f := fun x => x.tamperActive input code.toNat) rfl rfl (exec_tamperActive _ _ _)
      (fun _ _ => State.tamperActive_keeps _ _ _)
  | tamperInactive _ input =>
    exact .ofHearth (f := fun x => x.tamperInactive input) rfl rfl (exec_tamperInactive _ _)
      (fun _ _ => State.tamperInactive_keeps _ _)
  | meshBreak _ pair samples code =>
    exact .ofHearth (f := fun x => x.meshBreak pair samples code.toNat) rfl rfl (exec_meshBreak _ _ _ _)
      (fun _ _ => State.meshBreak_keeps _ _ _ _)
  | meshRearm _ pair =>
    exact .ofHearth (f := fun x => x.meshRearm pair) rfl rfl (exec_meshRearm _ _) fun _ _ => State.meshRearm_keeps _ _
  | meshReseed => exact .ofBlocks rfl rfl (exec_meshReseed _) fun _ _ => State.meshReseed_keeps _
  | cellMeasure _ code =>
    exact .ofHearth (f := fun x => x.cellMeasure code.toNat) rfl rfl (exec_cellMeasure _ _)
      (fun _ _ => State.cellMeasure_keeps _ _)
  | reserveSample _ code =>
    exact .ofHearth (f := fun x => x.reserveSample code.toNat) rfl rfl (exec_reserveSample _ _)
      (fun _ _ => State.reserveSample_keeps _ _)
  | scheduledReturn => exact .ofBlocks rfl rfl (exec_scheduledReturn _) fun _ _ => State.scheduledReturn_keeps _
  | psuOkFall => exact .ofHearth (f := State.psuFall) rfl rfl (exec_psuOkFall _) fun _ _ => State.psuFall_keeps _
  | psuOkRise => exact .ofHearth (f := State.psuRise) rfl rfl (exec_psuOkRise _) fun _ _ => State.psuRise_keeps _
  | emberEntry =>
    exact .ofHearth (f := State.emberEntry) rfl rfl (exec_emberEntry _) fun _ _ => State.emberEntry_keeps _
  | alarmMsExpiry =>
    exact .ofHearth (f := State.alarmMsExpiry) rfl rfl (exec_alarmMsExpiry _) fun _ _ => State.alarmMsExpiry_keeps _
  | xtalStop => exact .ofHearth (f := State.xtalStop) rfl rfl (exec_xtalStop _) fun _ _ => State.xtalStop_keeps _
  | secondBoundary => exact .ofBlocks rfl rfl (exec_secondBoundary _) fun _ _ => State.secondBoundary_keeps _
  | ppsEnd => exact .ofBlocks rfl rfl (exec_ppsEnd _) fun _ _ => State.ppsFall_keeps _
  | timeOfDay => exact .ofBlocks rfl rfl (exec_timeOfDay _) fun _ _ => State.timeOfDay_keeps _
  | slewEnd => exact .ofBlocks rfl rfl (exec_slewEnd _) fun _ _ => State.slewEnd_keeps _
  | timeMessage => exact .ofBlocks rfl rfl (exec_timeMessage _) fun _ _ => State.takeMessage_keeps _ _
  | timeCorrection => exact .ofBlocks rfl rfl (exec_timeCorrection _) fun _ _ => State.timeCorrection_keeps _
  | servoMissTimeout => exact .ofBlocks rfl rfl (exec_servoMissTimeout _) fun _ _ => State.servoMiss_keeps _
  | holdoverTimeout => exact .ofBlocks rfl rfl (exec_holdoverTimeout _) fun _ _ => State.holdoverTimeout_keeps _
  | cmpFire => exact .ofBlocks rfl rfl (exec_cmpFire _ _) fun _ _ => (State.cmpFire_keeps _ _ _ · fun _ _ _ => compareAct_keeps _ _ _)
  | zeroCrossing =>
    exact .ofBlocks rfl rfl (exec_zeroCrossing _ _ _ _ _) fun _ _ => (State.zeroCrossing_keeps _ _ _ _ _ _ · entryActs_capture_keeps entryActs_prog_keeps)
  | crossingMissed => exact .ofBlocks rfl rfl (exec_crossingMissed _ _) fun _ _ => State.crossingMissed_keeps _ _
  | phantomTimeout => exact .ofBlocks rfl rfl (exec_phantomTimeout _) fun _ _ => State.phantomTimeout_keeps _
  | absentTimeout => exact .ofBlocks rfl rfl (exec_absentTimeout _) fun _ _ => State.absentTimeout_keeps _
  | entryFire => exact .ofBlocks rfl rfl (exec_entryFire _ _) fun _ _ => (State.entryFire_keeps _ _ _ · entryActs_capture_keeps entryActs_prog_keeps)
  | relayPulseEnd _ relay =>
    exact .ofHearth (f := fun x => x.relayEnd relay) rfl rfl (exec_relayPulseEnd _ _)
      (fun _ _ => State.relayEnd_keeps _ _)
  | entryWrite =>
    exact .ofBlocks rfl rfl (exec_entryWrite _ _ _ _) fun _ _ h => Keeps.ite (State.regWrite_keeps _ _ _ h) h
  | losDeclared =>
    exact .ofBlocks rfl rfl (exec_losDeclared _ _ _)
      (fun _ _ h => State.treeFollow_keeps _ (State.losDeclared_keeps _ _ _ h))
  | losCleared => exact .ofBlocks rfl rfl (exec_losCleared _ _) fun _ _ => State.losCleared_keeps _ _ _
  | lockWindowEnd =>
    exact .ofBlocks rfl rfl (exec_lockWindowEnd _ _ _ _ _)
      (fun _ _ h => State.treeFollow_keeps _ (State.lockWindow_keeps _ _ _ _ _ h))
  | rogue => exact .ofBlocks rfl rfl (exec_rogue _ _ _) fun _ _ => State.rogue_keeps _ _ _
  | laneMarker => exact .ofBlocks rfl rfl (exec_laneMarker _ _ _ _ _) fun _ _ => State.laneMarker_keeps _ _ _ _ _
  | laneFail => exact .ofBlocks rfl rfl (exec_laneFail _ _ _) fun _ _ => State.laneFail_keeps _ _ _
  | laneRequalify => exact .ofBlocks rfl rfl (exec_laneRequalify _ _) fun _ _ => State.laneRequalify_keeps _ _
  | eyePeriodic => exact .ofBlocks rfl rfl (exec_eyePeriodic _) fun _ _ => State.eyePeriodic_keeps _
  | pllUnlock =>
    exact .ofBlocks rfl rfl (exec_pllUnlock _ _) fun _ _ h => State.treeFollow_keeps _ (State.pllUnlock_keeps _ _ h)
  | frameReceived => exact .ofBlocks rfl rfl (exec_frameReceived _ _ _) fun _ _ => State.frameIn_keeps _ _ _
  | grantMapDeadline => exact .ofBlocks rfl rfl (exec_grantMapDeadline _) fun _ _ => State.grantMapDeadline_keeps _
  | tdPortWrite =>
    exact .ofBlocks rfl rfl (exec_tdPortWrite _ _ _) fun _ _ h => Keeps.ite (State.regWrite_keeps _ _ _ h) h
  | treeProfile => exact .ofBlocks rfl rfl (exec_treeProfile _) fun _ _ => State.takeMessage_keeps _ _
  | identAssign => exact .ofBlocks rfl rfl (exec_identAssign _) fun _ _ => State.takeMessage_keeps _ _
  | rangingResult => exact .ofBlocks rfl rfl (exec_rangingResult _) fun _ _ => State.takeMessage_keeps _ _
  | warmAck => exact .ofBlocks rfl rfl (exec_warmAck _) fun _ _ => State.takeMessage_keeps _ _
  | allocAssign => exact .ofBlocks rfl rfl (exec_allocAssign _) fun _ _ => State.takeMessage_keeps _ _
  | portAssign => exact .ofBlocks rfl rfl (exec_portAssign _) fun _ _ => State.takeMessage_keeps _ _
  | deregister => exact .ofBlocks rfl rfl (exec_deregister _) fun _ _ => State.takeMessage_keeps _ _
  | disable => exact .ofBlocks rfl rfl (exec_disable _) fun _ _ => State.takeMessage_keeps _ _
  | dozeGrant => exact .ofBlocks rfl rfl (exec_dozeGrant _) fun _ _ => State.takeMessage_keeps _ _
  | dozeReq => exact .ofBlocks rfl rfl (exec_dozeReq _) fun _ _ => State.dozeReq_keeps _
  | to1Expiry => exact .ofBlocks rfl rfl (exec_to1Expiry _) fun _ _ => State.to1Expiry_keeps _
  | twExpiry => exact .ofBlocks rfl rfl (exec_twExpiry _) fun _ _ => State.twExpiry_keeps _
  | to2Expiry => exact .ofBlocks rfl rfl (exec_to2Expiry _) fun _ _ => State.to2Expiry_keeps _
  | protectionSwitch =>
    exact .ofBlocks rfl rfl (exec_protectionSwitch _)
      (fun _ _ h => State.pllFollow_keeps _ (State.protectionSwitch_keeps _ h))
  | treeRecordSave => exact .ofBlocks rfl rfl (exec_treeRecordSave _) fun _ _ => State.treeRecordSave_keeps _
  | fillInstant => exact .ofBlocks rfl rfl (exec_fillInstant _) fun _ _ => State.fillInstant_keeps _
  | burstStart => exact .ofBlocks rfl rfl (exec_burstStart _) fun _ _ => State.burstStart_keeps _
  | upstreamFrameBoundary =>
    exact .ofBlocks rfl rfl (exec_upstreamFrameBoundary _ _) fun _ _ => State.frameBoundary_keeps _ _
  | sduEnqueue => exact .ofBlocks rfl rfl (exec_sduEnqueue _ _ _ _) fun _ _ => State.sourceOffers_keeps _ _ _ _
  | chimneyAckWaitEnd => exact .ofBlocks rfl rfl (exec_chimneyAckWaitEnd _) fun _ _ => State.chimneyWaitEnd_keeps _
  | xactStart => exact .ofBlocks rfl rfl (exec_xactStart _ _) fun _ _ => State.xactStart_keeps _ _
  | requestSent => exact .ofBlocks rfl rfl (exec_requestSent _ _) fun _ _ => State.requestSent_keeps _ _
  | charReceived => exact .ofBlocks rfl rfl (exec_charReceived _ _ _ _) fun _ _ => State.charReceived_keeps _ _ _ _
  | idleGap => exact .ofBlocks rfl rfl (exec_idleGap _ _) fun _ _ => State.idleGap_keeps _ _
  | firstMsExpiry => exact .ofBlocks rfl rfl (exec_firstMsExpiry _ _) fun _ _ => State.noReply_keeps _ _
  | interTimeout => exact .ofBlocks rfl rfl (exec_interTimeout _ _) fun _ _ => State.interTimeout_keeps _ _
  | busHeldLow => exact .ofBlocks rfl rfl (exec_busHeldLow _ _) fun _ _ => State.busLow_keeps _ _
  | meterSdu => exact .ofBlocks rfl rfl (exec_meterSdu _) fun _ _ => State.meterSduIn_keeps _
  | holdOffer => exact .ofBlocks rfl rfl (exec_holdOffer _) fun _ _ => State.holdOffer_keeps _
  | mpPortDisable =>
    exact .ofBlocks rfl rfl (exec_mpPortDisable _ _) fun _ _ h => Keeps.ite (State.enClear_keeps _ _ h) h
  | containerJudge => exact .ofBlocks rfl rfl (exec_containerJudge _) fun _ _ => State.containerJudge_keeps _
  | rxcWindow => exact .ofBlocks rfl rfl (exec_rxcWindow _ _ _) fun _ _ => State.rxcWindow_keeps _ _ _
  | tbDisable => exact .ofBlocks rfl rfl (exec_tbDisable _ _) fun _ _ h => Keeps.ite (State.enClear_keeps _ _ h) h
  | ethFrameRx => exact .ofBlocks rfl rfl (exec_ethFrameRx _ _ _ _) fun _ _ => State.ethFrameRx_keeps _ _ _ _
  | linkChange => exact .ofBlocks rfl rfl (exec_linkChange _ _ _ _ _ _) fun _ _ => State.linkChange_keeps _ _ _ _ _ _
  | ethSend => exact .ofBlocks rfl rfl (exec_ethSend _ _) fun _ _ => State.ethSend_keeps _ _
  | ethFrameStart => exact .ofBlocks rfl rfl (exec_ethFrameStart _ _) fun _ _ => State.ethFrameStart_keeps _ _
  | pauseExpiry => exact .ofBlocks rfl rfl (exec_pauseExpiry _ _) fun _ _ => State.pauseExpiry_keeps _ _
  | emCfgWrite =>
    exact .ofBlocks rfl rfl (exec_emCfgWrite _ _ _) fun _ _ h => Keeps.ite (State.regWrite_keeps _ _ _ h) h
  | cipherRequestStart => exact .ofBlocks rfl rfl (exec_cipherRequestStart _ _) fun _ _ => State.cipherStart_keeps _ _
  | cipherCompletion =>
    exact .ofBlocks rfl rfl (exec_cipherCompletion _ _) fun _ _ => State.cipherCompletion_keeps _ _
  | rngHealthFail => exact .ofBlocks rfl rfl (exec_rngHealthFail _ _) fun _ _ => State.rngHealthFail_keeps _ _
  | rngRestart => exact .ofBlocks rfl rfl (exec_rngRestart _) fun _ _ => State.rngRestart_keeps _
  | drbgReseed => exact .ofBlocks rfl rfl (exec_drbgReseed _ _) fun _ _ => State.drbgReseed_keeps _ _
  | cyQueueDisable =>
    exact .ofBlocks rfl rfl (exec_cyQueueDisable _ _) fun _ _ h => Keeps.ite (State.enClear_keeps _ _ h) h
  | s2RowDone => exact .ofBlocks rfl rfl (exec_s2RowDone _) fun _ _ => State.s2RowDone_keeps _
  | s3RowDone => exact .ofBlocks rfl rfl (exec_s3RowDone _ _ _ _) fun _ _ => State.s3RowDone_keeps _ _ _ _
  | s5RowDone => exact .ofBlocks rfl rfl (exec_s5RowDone _ _ _ _) fun _ _ => State.s5RowDone_keeps _ _ _ _
  | pcChannelWrite =>
    exact .ofBlocks rfl rfl (exec_pcChannelWrite _ _ _) fun _ _ h => Keeps.ite (State.regWrite_keeps _ _ _ h) h
  | decodePictureDone =>
    exact .ofBlocks rfl rfl (exec_decodePictureDone _ _) fun _ _ => State.decodePictureDone_keeps _ _
  | frameStart => exact .ofBlocks rfl rfl (exec_frameStart _ _ _) fun _ _ => State.frameStart_keeps _ _ _
  | lineReceived =>
    exact .ofBlocks rfl rfl (exec_lineReceived _ _ _ _ _ _ _ _) fun _ _ => State.lineReceived_keeps _ _ _ _ _ _ _ _
  | frameEnd => exact .ofBlocks rfl rfl (exec_frameEnd _ _ _) fun _ _ => State.frameEnd_keeps _ _ _
  | frameTimeout => exact .ofBlocks rfl rfl (exec_frameTimeout _ _) fun _ _ => State.frameTimeout_keeps _ _
  | lampOn => exact .ofBlocks rfl rfl (exec_lampOn _ _) fun _ _ => State.lampOn_keeps _ _
  | lampMax => exact .ofBlocks rfl rfl (exec_lampMax _ _) fun _ _ => State.lampMax_keeps _ _
  | discStopTimeout => exact .ofBlocks rfl rfl (exec_discStopTimeout _ _) fun _ _ => State.discStop_keeps _ _
  | pwSample => exact .ofBlocks rfl rfl (exec_pwSample _ _ _ _) fun _ _ => State.pwSample_keeps _ _ _ _
  | fastTrip => exact .ofBlocks rfl rfl (exec_fastTrip _ _) fun _ _ => State.fastTrip_keeps _ _
  | sagFreeze => exact .ofBlocks rfl rfl (exec_sagFreeze _ _ _) fun _ _ => State.sagFreeze_keeps _ _ _
  | sagTimeout => exact .ofBlocks rfl rfl (exec_sagTimeout _ _) fun _ _ => State.sagTimeout_keeps _ _
  | uvOff => exact .ofBlocks rfl rfl (exec_uvOff _ _) fun _ _ => State.uvOff_keeps _ _
  | seatChange => exact .ofBlocks rfl rfl (exec_seatChange _ _ _) fun _ _ => State.seatChange_keeps _ _ _ _
  | insTimeMet => exact .ofBlocks rfl rfl (exec_insTimeMet _ _) fun _ _ => State.inrush_keeps _ _
  | inrushTimeout => exact .ofBlocks rfl rfl (exec_inrushTimeout _ _) fun _ _ => State.inrushTimeout_keeps _ _
  | backoffExpiry => exact .ofBlocks rfl rfl (exec_backoffExpiry _ _) fun _ _ => State.backoffExpiry_keeps _ _
  | onStable => exact .ofBlocks rfl rfl (exec_onStable _ _) fun _ _ => State.onStable_keeps _ _
  | damagedTimeout => exact .ofBlocks rfl rfl (exec_damagedTimeout _ _) fun _ _ => State.damagedTimeout_keeps _ _
  | pwDisable => exact .ofBlocks rfl rfl (exec_pwDisable _ _) fun _ _ h => Keeps.ite (State.enClear_keeps _ _ h) h
  | flitRx => exact .ofBlocks rfl rfl (exec_flitRx _ _ _ _) fun _ _ h => Keeps.ite (State.flitRx_keeps _ _ _ _ h) h
  | flitSlot => exact .ofBlocks rfl rfl (exec_flitSlot _ _) fun _ _ => State.flitSlot_keeps _ _
  | status => exact .ofBlocks rfl rfl (exec_status _ _ _) fun _ _ h => Keeps.ite (State.rxStatus_keeps _ _ _ _ h) h
  | nak => exact .ofBlocks rfl rfl (exec_nak _ _ _) fun _ _ h => Keeps.ite (State.rxStatus_keeps _ _ _ _ h) h
  | init => exact .ofBlocks rfl rfl (exec_init _ _ _) fun _ _ h => Keeps.ite (State.rxInit_keeps _ _ _ h) h
  | retrain => exact .ofBlocks rfl rfl (exec_retrain _ _ _) fun _ _ h => Keeps.ite (State.rxRetrain_keeps _ _ _ h) h
  | idleReq => exact .ofBlocks rfl rfl (exec_idleReq _ _) fun _ _ h => Keeps.ite (State.rxIdleReq_keeps _ _ h) h
  | idleAck => exact .ofBlocks rfl rfl (exec_idleAck _ _) fun _ _ h => Keeps.ite (State.rxIdleAck_keeps _ _ h) h
  | statusTimer =>
    exact .ofBlocks rfl rfl (exec_statusTimer _ _) fun _ _ h => Keeps.ite (State.statusTimer_keeps _ _ h) h
  | ackTimeout =>
    exact .ofBlocks rfl rfl (exec_ackTimeout _ _) fun _ _ h => Keeps.ite (State.ackTimeout_keeps _ _ h) h
  | stMessageOffer =>
    exact .ofBlocks rfl rfl (exec_stMessageOffer _ _ _ _ _) fun _ _ => State.messageOffered_keeps _ _ _ _ _
  | trainingDone =>
    exact .ofBlocks rfl rfl (exec_trainingDone _ _) fun _ _ h => Keeps.ite (State.trainingDone_keeps _ _ h) h
  | trainingTimeout =>
    exact .ofBlocks rfl rfl (exec_trainingTimeout _ _) fun _ _ h => Keeps.ite (State.trainingTimeout_keeps _ _ h) h
  | downRetry => exact .ofBlocks rfl rfl (exec_downRetry _ _) fun _ _ h => Keeps.ite (State.downRetry_keeps _ _ h) h
  | sleepWake =>
    exact .ofBlocks rfl rfl (exec_sleepWake _ _ _) fun _ _ h => Keeps.ite (State.sleepWake_keeps _ _ _ h) h
  | stLinkWrite =>
    exact .ofBlocks rfl rfl (exec_stLinkWrite _ _ _) fun _ _ h => Keeps.ite (State.regWrite_keeps _ _ _ h) h
  | announce => exact .ofBlocks rfl rfl (exec_announce _) fun _ _ => State.announceIn_keeps _
  | stackState => exact .ofBlocks rfl rfl (exec_stackState _) fun _ _ => State.stackState_keeps _
  | memberState => exact .ofBlocks rfl rfl (exec_memberState _) fun _ _ => State.memberState_keeps _
  | route => exact .ofBlocks rfl rfl (exec_route _) fun _ _ => State.routeIn_keeps _
  | command => exact .ofBlocks rfl rfl (exec_command _) fun _ _ => State.commandMsg_keeps _
  | replyNotice => exact .ofBlocks rfl rfl (exec_replyNotice _) fun _ _ => State.replyNotice_keeps _
  | meterResult => exact .ofBlocks rfl rfl (exec_meterResult _) fun _ _ => State.meterResult_keeps _
  | sduDown => exact .ofBlocks rfl rfl (exec_sduDown _) fun _ _ => State.sduDown_keeps _
  | sduUp => exact .ofBlocks rfl rfl (exec_sduUp _) fun _ _ => State.sduUp_keeps _
  | refusal => exact .ofBlocks rfl rfl (exec_refusal _) fun _ _ => State.refusalIn_keeps _
  | regAccess => exact .ofBlocks rfl rfl (exec_regAccess _) fun _ _ => State.regAccess_keeps _
  | termData => exact .ofBlocks rfl rfl (exec_termData _) fun _ _ => State.termData_keeps _
  | treeRecord => exact .ofBlocks rfl rfl (exec_treeRecord _) fun _ _ => State.treeRecordIn_keeps _
  | config => exact .ofBlocks rfl rfl (exec_config _) fun _ _ => State.configIn_keeps _
  | image => exact .ofBlocks rfl rfl (exec_image _) fun _ _ => State.imageIn_keeps _
  | timeExchange => exact .ofBlocks rfl rfl (exec_timeExchange _) fun _ _ => State.timeExchange_keeps _
  | timeResp => exact .ofBlocks rfl rfl (exec_timeResp _) fun _ _ => State.timeResp_keeps _
  | phase => exact .ofBlocks rfl rfl (exec_phase _) fun _ _ => State.phaseIn_keeps _
  | routeTimer => exact .ofBlocks rfl rfl (exec_routeTimer _) fun _ _ => State.routeTimer_keeps _
  | announceTimer => exact .ofBlocks rfl rfl (exec_announceTimer _) fun _ _ => State.announceTimer_keeps _
  | stackStateTimer => exact .ofBlocks rfl rfl (exec_stackStateTimer _) fun _ _ => State.periodicState_keeps _
  | electTimeout => exact .ofBlocks rfl rfl (exec_electTimeout _) fun _ _ => State.electTimeout_keeps _
  | leadLost => exact .ofBlocks rfl rfl (exec_leadLost _) fun _ _ => State.leadLost_keeps _
  | abdicate => exact .ofBlocks rfl rfl (exec_abdicate _) fun _ _ => State.abdicate_keeps _
  | takeover => exact .ofBlocks rfl rfl (exec_takeover _) fun _ _ => State.takeover_keeps _
  | suppressWindowEnd => exact .ofBlocks rfl rfl (exec_suppressWindowEnd _ _) fun _ _ => State.suppressEnd_keeps _ _
  | flushStart => exact .ofBlocks rfl rfl (exec_flushStart _) fun _ _ => State.flushStart_keeps _
  | flushStepDone => exact .ofBlocks rfl rfl (exec_flushStepDone _ _) fun _ _ => State.flushStepDone_keeps _ _
  | scrubRead => exact .ofBlocks rfl rfl (exec_scrubRead _ _) fun _ _ => State.scrub_keeps _ _
  | fieldRepair => exact .ofBlocks rfl rfl (exec_fieldRepair _) fun _ _ => State.fieldRepair_keeps _
  | repairLogFlash => exact .ofBlocks rfl rfl (exec_repairLogFlash _) fun _ _ => State.repairLogFlash_keeps _
  | hearthScrub _ region offset r =>
    exact .ofHearth (f := fun x => x.hearthScrub region offset r) rfl rfl (exec_hearthScrub _ _ _ _)
      (fun _ _ => State.hearthScrub_keeps _ _ _ _)
  | flashOperationDone => exact .ofMain rfl rfl (exec_flashOperationDone _ _) fun _ _ => State.flashDone_keeps _ _
  | eyeMeasurementDone =>
    exact .ofBlocks rfl rfl (exec_eyeMeasurementDone _ _ _ _ _) fun _ _ => State.eyeDone_keeps _ _ _ _ _
  | busReleased => exact .ofBlocks rfl rfl (exec_busReleased _ _) fun _ _ => State.busReleased_keeps _ _
  | startUpTestPassed => exact .ofBlocks rfl rfl (exec_startUpTestPassed _) fun _ _ => State.rngPassed_keeps _
  | crystalRunningAgain =>
    exact .ofHearth (f := State.xtalAgain) rfl rfl (exec_crystalRunningAgain _) fun _ _ => State.xtalAgain_keeps _
  | duplicateQuietTimeout =>
    exact .ofBlocks rfl rfl (exec_duplicateQuietTimeout _) fun _ _ => State.duplicateQuiet_keeps _
  | memberStateTimeout =>
    exact .ofBlocks rfl rfl (exec_memberStateTimeout _) fun _ _ => State.memberStateTimeout_keeps _
  | phaseClipped => exact .ofBlocks rfl rfl (exec_phaseClipped _ _) fun _ _ => State.phaseClipped_keeps _ _
  | inactiveBankWaitTimeout =>
    exact .ofBlocks rfl rfl (exec_inactiveBankWaitTimeout _) fun _ _ => State.bankWaitOver_keeps _

/-! ### Time passes -/

/-- What is kept is kept from a later tick too. -/
theorem Keeps.atTick {s t : State} (n : Nat) (h : Keeps s t) : Keeps { s with now := n } { t with now := n } :=
  ⟨h.pending, rfl, h.minSec, h.regs, h.flash⟩

/-- Time that passes is `dt` ticks, and nothing else that is kept changes (log entry 1). -/
theorem State.elapse_keeps (s : State) (dt : Nat) : Keeps { s with now := s.now + dt } (s.elapse dt) := by
  have hpass : Keeps s ((s.passMain dt).passHearth dt) :=
    State.passHearth_keeps _ dt (State.passMain_keeps s dt (Keeps.refl s))
  have hticks := hpass.atTick (s.now + dt)
  unfold State.elapse
  dsimp only
  split
  · exact hticks
  · exact State.drainAsh_keeps _ hticks.upd

/-- The state in which a command takes effect keeps what was there, `dt` ticks later. -/
theorem State.at_keeps (s : State) (dt : Nat) : Keeps { s with now := s.now + dt } (s.at dt) :=
  State.wiresDone_keeps _ (State.burstEnd_keeps _ (State.treeGo_keeps _ (s.elapse_keeps dt)))

/-! ### What follows from a command -/

/-- What follows from the power state keeps what is kept, whatever the state before the command (R173). -/
theorem State.powerFollow_keeps_of {r s : State} (old : State) (h : Keeps r s) : Keeps r (s.powerFollow old) := by
  unfold State.powerFollow
  dsimp only
  repeat' split
  all_goals grind [State.wake_keeps, State.replan_keeps, State.giveOrder_keeps, State.obey_keeps, State.treeReturn_keeps,
    State.cyReturn_keeps, Keeps.upd]

/-- What follows from a command keeps what is kept. -/
theorem State.settle_keeps_of {r t : State} (s : State) (h : Keeps r t) : Keeps r (t.settle s) := by
  unfold State.settle
  dsimp only
  split
  · exact h
  · have h1 := State.pwFollow_keeps _ (State.waFollow_keeps _ (State.pcFollow_keeps _ (State.etherFollow_keeps _
      (State.metersFollow_keeps _ (State.tribsFollow_keeps _ (State.cyFollow_keeps _ (State.pumpOut_keeps _
      (State.submitAll_keeps _ h))))))))
    refine State.resetFollow_keeps _ (State.powerFollow_keeps_of s (State.startFollow_keeps _
      (State.stackFollow_keeps _ ?_)))
    exact Keeps.ite (State.clampWake_keeps _ h1) h1

/-- A command answers a next state, which keeps what was there, its ticks later. -/
theorem exec_keeps (i : Instr) (s : State) :
    ∃ t, exec i s = .next t ∧ Keeps { s with now := s.now + i.ticks } t := by
  obtain ⟨f, he, hf⟩ := exec_gated i
  have heff : Keeps (s.at i.ticks) (gate i.part f (s.at i.ticks)) :=
    gate_keeps i.part (hf (s.at i.ticks)) (Keeps.refl _)
  exact ⟨_, he s, (s.at_keeps i.ticks).trans (State.settle_keeps_of s heff)⟩

/-- Settles O59: a command's effect and what follows from it keep what `Keeps` says (log entries 1, 3, 13); an empty queue
leaves the state as it is. -/
theorem everyStepKeeps : Obligations.EveryStepKeeps := by
  unfold Obligations.EveryStepKeeps
  rintro s ⟨hregs, hflash⟩
  cases hq : s.pending with
  | nil => exact ⟨s, by simp [step, hq], ⟨hregs, hflash⟩, le_rfl, hq, rfl⟩
  | cons c rest =>
    obtain ⟨t, ht, hk⟩ := exec_keeps c { s with pending := rest }
    exact ⟨t, by simp [step, hq, ht], ⟨hk.regs hregs, hk.flash hflash⟩, hk.minSec, hk.pending, hk.now⟩

/-! ### A part that does not run -/

theorem State.onMain_off {f : State → State} {x : State} (h : x.main.out = false ∨ x.main.boot.stopped = true) :
    State.onMain f x = x := by
  obtain h | h := h <;> simp [State.onMain, h]

theorem State.onBlocks_off {f : State → State} {x : State}
    (h : x.main.out = false ∨ x.main.boot.stopped = true ∨ x.main.boot.rescue = true) : State.onBlocks f x = x := by
  obtain h | h | h := h <;> simp [State.onBlocks, h]

/-- A command of a part that is in reset or stopped in the boot ROM has no effect of its own (R60, R68). -/
theorem exec_stopped {i : Instr} {s : State} (hp : i.part ≠ .hearth)
    (h : (s.at i.ticks).main.out = false ∨ (s.at i.ticks).main.boot.stopped = true) :
    exec i s = s.leaves (s.at i.ticks) := by
  obtain ⟨f, he, -⟩ := exec_gated i
  rw [he]
  cases hpart : i.part with
  | hearth => exact absurd hpart hp
  | main => rw [gate, State.onMain_off h]
  | blocks => rw [gate, State.onBlocks_off (h.imp_right .inl)]

/-- A command of a block has no effect of its own in rescue (R138). -/
theorem exec_rescue {i : Instr} {s : State} (hp : i.part = .blocks) (h : (s.at i.ticks).main.boot.rescue = true) :
    exec i s = s.leaves (s.at i.ticks) := by
  obtain ⟨f, he, -⟩ := exec_gated i
  rw [he, hp, gate, State.onBlocks_off (.inr (.inr h))]

/-! ### Time passes while the main domain is in reset -/

/-- In reset no record waits for the ring. -/
theorem State.drainAsh_cold {x : State} (h : x.main = .cold) : x.drainAsh = x := by
  cases x
  cases h
  rfl

/-- With the main domain in reset, time passes for the Hearth alone. -/
theorem State.elapse_cold {s : State} (dt : Nat) (h : s.main = .cold) :
    (s.elapse dt).main = .cold ∧ (s.elapse dt).regs = s.regs ∧ (s.elapse dt).flash = s.flash
      ∧ (s.elapse dt).minSec = s.minSec ∧ (s.elapse dt).pending = s.pending ∧ (s.elapse dt).now = s.now + dt := by
  have hmain : s.passMain dt = s := by simp [State.passMain, h]
  unfold State.elapse State.passHearth
  rw [hmain]
  dsimp only
  by_cases hdt : dt = 0 <;> by_cases hrun : s.hearth.running = true <;> simp [hdt, hrun, State.drainAsh_cold, h]

theorem State.tdLane_cold {x : State} (k : Nat) (h : x.main = .cold) : x.tdLane k = {} := by
  have hl : Main.cold.td.lanes = List.replicate 2 {} := rfl
  rw [State.tdLane, h, at?, hl]
  grind

theorem State.eport_cold {x : State} (n : Nat) (h : x.main = .cold) : x.eport n = {} := by
  have hl : Main.cold.em.ports = List.replicate 2 {} := rfl
  rw [State.eport, h, at?, hl]
  grind

/-- In reset no lane follows frames. -/
theorem State.framesMissed_cold {x : State} (k n : Nat) (h : x.main = .cold) : State.framesMissed k n x = x := by
  cases n with
  | zero => rfl
  | succ n => simp [State.framesMissed, State.tdLane_cold k h]

theorem State.treeGo_cold {x : State} (h : x.main = .cold) : x.treeGo = x := by
  have hframe : x.frameStep = none := by
    rw [State.frameStep, h]
    rfl
  have hgo : State.frameGo 6000 x = x := by simp [State.frameGo, hframe]
  rw [State.treeGo, hgo, State.framesMissed_cold 0 32 h, State.framesMissed_cold 1 32 h]

theorem State.burstEnd_cold {x : State} (h : x.main = .cold) : x.burstEnd = x := by
  rw [State.burstEnd, h]
  rfl

theorem State.wiresDone_cold {x : State} (h : x.main = .cold) : x.wiresDone = x := by
  have hwire : ∀ n, (x.eport n).wireEnd = none := fun n => by rw [State.eport_cold n h]; rfl
  simp [State.wiresDone, hwire, List.range_succ]

/-- With the main domain in reset, what a command finds is what time alone has left. -/
theorem State.at_cold {s : State} (dt : Nat) (h : s.main = .cold) : s.at dt = s.elapse dt := by
  have hc := (State.elapse_cold dt h).1
  rw [State.at, State.begin, State.treeGo_cold hc, State.burstEnd_cold hc, State.wiresDone_cold hc]

/-- Settles O60: the gate of a command's part is closed, so only time passes, and with the main domain in reset nothing
follows (log entries 20, 21). -/
theorem partsInReset : Obligations.PartsInReset := by
  unfold Obligations.PartsInReset
  refine ⟨?inReset, ?inRom, ?inRescue, ?timeAlone⟩
  case inReset =>
    intro i s hp hoff
    rw [exec_stopped hp (.inl hoff), State.leaves_off hoff]
  case inRom =>
    intro i s hp hstop
    exact exec_stopped hp (.inr hstop)
  case inRescue =>
    intro i s hp hres
    exact exec_rescue hp hres
  case timeAlone =>
    intro s dt hcold
    rw [State.at_cold dt hcold]
    exact State.elapse_cold dt hcold

/-! ### The state after reset -/

/-- Settles O58: the state after reset is the state with every field at its default. -/
theorem resetState : Obligations.ResetState := by
  unfold Obligations.ResetState
  exact ⟨⟨rfl, rfl⟩, rfl, rfl, rfl, fun _ => rfl, fun _ => rfl, rfl, rfl, rfl⟩

/-- Settles O57: a step takes the queue's head, if there is one (log entry 6). -/
theorem stepRunsFront : Obligations.StepRunsFront := by
  unfold Obligations.StepRunsFront
  constructor
  · intro c rest s hq
    simp [step, hq]
  · intro s hq
    simp [step, hq]

end Sys2Proof.Machine
end

section
/-! PROOFS. From power to Working (02, 04): the resets of the main domain and what they leave, the retries of its rails,
and the steps of its start. -/

namespace Sys2Proof.Machine

/-! ### What a reset of the main domain leaves -/

/-- A key update that is committed changes the key store alone (R489). -/
theorem State.commitKey_hearth (x : State) (u : KeyUpdate) :
    (x.commitKey u).hearth = { x.hearth with keys := (x.commitKey u).hearth.keys } := by
  unfold State.commitKey State.modKey
  dsimp only
  split
  · rfl
  · split <;> rfl

theorem State.completeUpdate_hearth (x : State) :
    x.completeUpdate.hearth = { x.hearth with keys := x.completeUpdate.hearth.keys } := by
  unfold State.completeUpdate
  split
  · exact x.commitKey_hearth _
  · rfl

theorem State.commitKey_frame (x : State) (u : KeyUpdate) :
    x.commitKey u = { x with hearth := (x.commitKey u).hearth } := by
  unfold State.commitKey State.modKey
  dsimp only
  split
  · rfl
  · split <;> rfl

/-- The completion of a key update looks at the Hearth and at the main domain, and changes the Hearth alone (R63). -/
theorem State.completeUpdate_frame (x : State) : x.completeUpdate = { x with hearth := x.completeUpdate.hearth } := by
  unfold State.completeUpdate
  split
  · exact x.commitKey_frame _
  · rfl

theorem State.commitKey_flash (x : State) (u : KeyUpdate) (i : Nat) (f : List Host.Cell) :
    (({ x with freeIdx := i, flash := f } : State).commitKey u).hearth = (x.commitKey u).hearth := by
  unfold State.commitKey State.modKey State.keySlot
  dsimp only
  by_cases h1 : 1 < u.len
  · simp only [h1, if_true]
  · by_cases h2 : 1 < dirLen (at? x.hearth.keys u.slot {}).dir
    · simp only [h1, h2, if_true, if_false]
    · simp only [h1, h2, if_false]

/-- The flash holds no key. -/
theorem State.completeUpdate_flash (x : State) (i : Nat) (f : List Host.Cell) :
    ({ x with freeIdx := i, flash := f } : State).completeUpdate.hearth = x.completeUpdate.hearth := by
  unfold State.completeUpdate
  dsimp only
  split
  · exact x.commitKey_flash _ i f
  · rfl

/-- A flash operation that is cut off changes the flash alone (R148; log entry 10). -/
theorem State.cutFlashOp_frame (x : State) :
    x.cutFlashOp = { x with freeIdx := x.cutFlashOp.freeIdx, flash := x.cutFlashOp.flash } := by
  unfold State.cutFlashOp State.flashCut State.draw
  dsimp only
  split
  · rfl
  · split <;> rfl

theorem State.cutFlashOp_none {x : State} (h : x.main.boot.flashOp = none) : x.cutFlashOp = x := by
  simp [State.cutFlashOp, h]

/-- What holds of the Hearth alone comes through a reset of the main domain, and the rest is at its reset value (R46, R63,
R119, R148). -/
theorem State.resetMain_leaves (x : State) (c : Nat) : x.mainReset (x.resetMain c) c := by
  have hcut := x.cutFlashOp_frame
  have hkeys : x.cutFlashOp.completeUpdate.hearth = { x.hearth with keys := x.completeUpdate.hearth.keys } := by
    rw [hcut, State.completeUpdate_flash]
    exact x.completeUpdate_hearth
  unfold State.mainReset State.resetMain
  dsimp only
  rw [hkeys, State.completeUpdate_frame]
  refine ⟨by rw [hcut], by rw [hcut], by rw [hcut], rfl, by rw [hcut], by rw [hcut], ?_, rfl⟩
  intro hop
  rw [State.cutFlashOp_none hop]

theorem State.resetMain_out (x : State) (c : Nat) : (x.resetMain c).main.out = false := rfl

/-! ### RESET_N and the watchdog -/

theorem State.resetN_short {x : State} {low : Nat} (h : low < 10 ∨ x.hearth.pen = false) : x.resetN low = x := by
  refine if_neg ?_
  rintro ⟨hlow, hpen⟩
  obtain h | h := h
  · omega
  · simp [h] at hpen

/-! ### The main rails -/

/-- A rail that is not out of its window for 2 µs while PEN_MAIN is high does nothing (R66). -/
theorem State.railOut_ignored {x : State} {rails : List Nat × Nat}
    (h : x.hearth.pen = false ∨ x.hearth.railsUp = false ∨ railMap rails.1 = 0 ∨ rails.2 < 2000) :
    x.railOut rails.1 rails.2 = x := by
  unfold State.railOut
  obtain h | h | h | h := h <;> simp [h]

/-- A rail that fails on the reserve resets the main domain, and nothing is recorded (R66). -/
theorem State.railOut_reserve {x : State} {rails : List Nat × Nat} (h : x.railsFail rails)
    (hpsu : x.hearth.psuOk = false) : x.railOut rails.1 rails.2 = x.railsGone.resetMain 0x05 := by
  obtain ⟨hpen, hup, hmap, htime⟩ := h
  have hlong : ¬ rails.2 < 2000 := by omega
  have hfail : ¬ (!x.hearth.pen || !x.hearth.railsUp || railMap rails.1 == 0 || decide (rails.2 < 2000)) = true := by
    simp [hpen, hup, hmap, hlong]
  have hreserve : (!x.hearth.psuOk) = true := by simp [hpsu]
  rw [State.railOut, if_neg hfail]
  exact if_pos hreserve

/-- The state after a rail reset that is recorded: its time is among those of the last 60 s, and the start is requested
again 10 ms later (R66). -/
def State.railRecorded (x : State) (rails : Nat) : State :=
  let y := (x.railsGone.ashHearth 0x01 0x03 [byte rails, 0#8]).resetMain 0x05
  { y with hearth := { y.hearth with
    railResets := x.now :: x.hearth.railResets.filter (fun t => decide (x.now < t + 60 * secT))
    restartAt := some (x.now + 10 * msT) } }

/-- A rail that fails while PSU_OK is high is recorded; the third reset in 60 s locks the chip out (R66). -/
theorem State.railOut_mains {x : State} {rails : List Nat × Nat} (h : x.railsFail rails) (hpsu : x.hearth.psuOk = true) :
    x.railOut rails.1 rails.2
      = if 2 ≤ (x.hearth.railResets.filter (fun t => decide (x.now < t + 60 * secT))).length
        then (x.railRecorded (railMap rails.1)).railLockout (railMap rails.1) else x.railRecorded (railMap rails.1) := by
  obtain ⟨hpen, hup, hmap, htime⟩ := h
  have hlong : ¬ rails.2 < 2000 := by omega
  have hfail : ¬ (!x.hearth.pen || !x.hearth.railsUp || railMap rails.1 == 0 || decide (rails.2 < 2000)) = true := by
    simp [hpen, hup, hmap, hlong]
  have hmains : ¬ (!x.hearth.psuOk) = true := by simp [hpsu]
  rw [State.railOut, if_neg hfail]
  dsimp only
  rw [if_neg hmains]
  exact if_congr (by simp) rfl rfl

/-- Settles O1: each of the causes runs `State.resetMain`, and with the main domain off nothing follows (log entries 10,
23). -/
theorem mainDomainResets : Obligations.MainDomainResets := by
  unfold Obligations.MainDomainResets
  refine ⟨State.resetMain_leaves, ?resetLow, ?resetAgain, ?resetShort, ?watchdog, ?railReserve, ?railMains, ?railIgnored⟩
  case resetLow =>
    rintro dt low s x t hx hlow hpen hout rfl
    rw [exec_resetN, ← hx]
    simp only [State.resetN, hlow, hpen, hout, and_self, if_true]
    exact State.leaves_off rfl
  case resetAgain =>
    rintro dt low s x hx hlow hpen hout
    rw [exec_resetN, ← hx]
    simp only [State.resetN, hlow, hpen, hout, and_self, Bool.false_eq_true, if_true, if_false]
    exact State.leaves_off hout
  case resetShort =>
    rintro dt low s x hx h
    rw [exec_resetN, ← hx]
    exact congrArg s.leaves (State.resetN_short h)
  case watchdog =>
    rintro dt core code s x y hx hout hslot hps hcore hdog rfl
    rw [exec_watchdog, ← hx]
    simp only [State.watchdog, hout, hslot, hps, hcore, hdog, beq_self_eq_true, decide_true, Bool.and_self, if_true]
    exact State.leaves_off rfl
  case railReserve =>
    rintro dt rails s x hx hfail hpsu
    rw [exec_railOutOfWindow, ← hx]
    dsimp only
    rw [State.railOut_reserve hfail hpsu]
    exact State.leaves_off (State.resetMain_out _ _)
  case railMains =>
    rintro dt rails s x y hx hfail hpsu hfew rfl
    rw [exec_railOutOfWindow, ← hx]
    dsimp only
    rw [State.railOut_mains hfail hpsu, if_neg (by omega)]
    exact State.leaves_off rfl
  case railIgnored =>
    rintro dt rails s x hx h
    rw [exec_railOutOfWindow, ← hx]
    exact congrArg s.leaves (State.railOut_ignored h)

/-- What the lockout changes (R66, Table HRT-8): PEN_MAIN, the times of the rails, one record more, and the held entry of
the rails. -/
theorem State.railLockout_main (x : State) (rails : Nat) : (x.railLockout rails).main = x.main := by
  simp [State.railLockout, State.penLow]

theorem State.railLockout_minSec (x : State) (rails : Nat) : (x.railLockout rails).minSec = x.minSec := by
  simp [State.railLockout, State.penLow]

theorem State.railLockout_seq (x : State) (rails : Nat) :
    (x.railLockout rails).hearth.seq = (x.hearth.seq + 1) % 2 ^ 32 := rfl

theorem State.railLockout_cause (x : State) (rails : Nat) : (x.railLockout rails).hearth.cause = x.hearth.cause := by
  simp [State.railLockout, State.penLow]

/-- The held entry of the rails counts the lockout and holds the reserve at it. -/
theorem State.railLockout_rails {x : State} {rails : Nat} {e : Held} (h : x.hearth.held[12]? = some e) :
    ∃ f, (x.railLockout rails).hearth.held[12]? = some f ∧ f.count = sat 0xFFFF (e.count + 1)
      ∧ f.reserve = x.hearth.resCode ∧ bitOf f.flags 0 = true := by
  simp [State.railLockout, State.penLow, h, bitOf]

/-- No other held entry changes. -/
theorem State.railLockout_held (x : State) (rails : Nat) {i : Nat} (hi : i ≠ 12) :
    (x.railLockout rails).hearth.held[i]? = x.hearth.held[i]? := by
  simp [State.railLockout, State.penLow, Ne.symm hi]

theorem State.railRecorded_hearth (x : State) (rails : Nat) :
    (x.railRecorded rails).hearth.held = x.hearth.held ∧ (x.railRecorded rails).hearth.resCode = x.hearth.resCode
      ∧ (x.railRecorded rails).hearth.seq = (x.hearth.seq + 1) % 2 ^ 32
      ∧ (x.railRecorded rails).hearth.cause = 0x05 := by
  obtain ⟨-, -, -, -, -, -, -, hh⟩ := State.resetMain_leaves (x.railsGone.ashHearth 0x01 0x03 [byte rails, 0#8]) 0x05
  simp only [State.railRecorded, hh, State.ashHearth_hearth_held, State.ashHearth_hearth_resCode]
  exact ⟨rfl, rfl, rfl, trivial⟩

theorem State.railRecorded_minSec (x : State) (rails : Nat) : (x.railRecorded rails).minSec = x.minSec := by
  obtain ⟨-, -, -, -, -, hmin, -, -⟩ :=
    State.resetMain_leaves (x.railsGone.ashHearth 0x01 0x03 [byte rails, 0#8]) 0x05
  exact hmin.trans (State.ashHearth_minSec _ _ _ _)

/-- Settles O2: the third reset in 60 s takes `State.railLockout`; the two timers of R66 and R67 run the start again. -/
theorem railRetries : Obligations.RailRetries := by
  unfold Obligations.RailRetries
  refine ⟨?lockout, ?restart, ?restartStopped, ?notUp, ?retry, ?retryLockout⟩
  case lockout =>
    rintro dt rails s x hx hfail hpsu hthird
    obtain ⟨hheld, hres, hseq, hcause⟩ := x.railRecorded_hearth (railMap rails.1)
    refine ⟨(x.railRecorded (railMap rails.1)).railLockout (railMap rails.1), ?_, ?_, rfl, rfl, rfl, rfl, ?_, ?_, ?_,
      ?_, ?_⟩
    · rw [exec_railOutOfWindow, ← hx]
      dsimp only
      rw [State.railOut_mains hfail hpsu, if_pos hthird]
      exact State.leaves_off (by rw [State.railLockout_main]; rfl)
    · exact State.railLockout_main _ _
    · rw [State.railLockout_cause, hcause]
    · rw [State.railLockout_minSec, State.railRecorded_minSec]
    · rw [State.railLockout_seq, hseq]
      omega
    · intro e he
      rw [← hheld] at he
      rw [← hres]
      exact State.railLockout_rails he
    · intro i hi
      rw [State.railLockout_held _ _ hi, hheld]
  case restart =>
    rintro dt a s x hx hat hdue hstop
    rw [exec_railRestart, ← hx]
    simp only [State.railRestart, hat, hdue, hstop, if_true, Bool.false_eq_true, if_false]
  case restartStopped =>
    rintro dt a s x hx hat hdue hstop
    rw [exec_railRestart, ← hx]
    simp only [State.railRestart, hat, hdue, hstop, if_true]
    exact State.leaves_off rfl
  case notUp =>
    rintro dt rails s x y hx hpen hout hup hmap hlate rfl
    rw [exec_railsNotUp, ← hx]
    dsimp only
    rw [State.railsNotUp, if_pos ⟨hpen, by simp [hout], by simp [hup], hmap, hlate⟩]
    have hmain := x.ashHearth_main 0x01 0x03 [byte (railMap rails), 1#8]
    refine (State.leaves_off ?_).trans ?_
    · exact (congrArg Main.out hmain).trans hout
    · dsimp only [State.penLow]
  case retry =>
    rintro dt a s x hx hat hdue hlock hrun
    rw [exec_railRetry, ← hx]
    refine congrArg s.leaves ?_
    rw [State.railRetry, hat]
    exact if_pos ⟨hdue, by simp [hlock], hrun⟩
  case retryLockout =>
    rintro dt s x hx hlock
    rw [exec_railRetry, ← hx]
    refine congrArg s.leaves ?_
    simp only [State.railRetry, hlock, Bool.not_true, Bool.false_eq_true, false_and, and_false, if_false]
    split <;> rfl

/-! ### The start -/

/-- A record leaves the start steps of the main domain as they were. -/
@[simp] theorem State.ash_boot (x : State) (source kind : Nat) (d : List Byte) :
    (x.ash source kind d).main.boot = x.main.boot := by
  unfold State.ash State.ashGroup
  dsimp only
  split <;> simp

/-- Step 2 keeps the cause of the start in hand (Table CMD-8). -/
theorem State.step2_cause (x : State) (msel member : Nat) (treeEn : Bool) :
    (x.step2 msel member treeEn).main.boot.cause = x.hearth.cause := by
  unfold State.step2 State.stepEnd
  dsimp only [State.modBoot]
  split
  · rw [State.ash_boot]
  · rfl

/-- The start is not released while one of its conditions is missing (R45, R46). -/
theorem State.mayRelease_iff (x : State) (rails : List Nat) : x.mayRelease rails = true ↔
    x.hearth.running = true ∧ x.hearth.pen = true ∧ x.main.out = false ∧ x.hearth.restartAt = none ∧ railMap rails = 0
      ∧ x.hearth.rstHighAt + msT ≤ x.now ∧ (x.hearth.railsUp = true ∨ x.hearth.railsFrom + msT ≤ x.now) := by
  simp [State.mayRelease, and_assoc]

/-- Settles O3: the clauses follow the branches of `State.release` (log entries 22, 130). -/
theorem mainDomainStarts : Obligations.MainDomainStarts := by
  unfold Obligations.MainDomainStarts
  refine ⟨State.mayRelease_iff, ?runs, ?step2, ?noReference, ?testLow, ?notYet, ?step9⟩
  case runs =>
    rintro dt msel member treeEn rextOk p faults rails s x y z hx hrel hlow hhigh rfl rfl
    have hin : (decide (200 < p) || decide (p < -200)) = false := by simp; omega
    rw [exec_mainResetRelease, ← hx]
    refine ⟨?fit, ?image, ?goesOn⟩
    case fit =>
      intro hfit
      refine congrArg s.leaves ?_
      simp only [State.modHearth] at hfit ⊢
      simp only [State.release, hrel, hin, hfit, State.step2_cause, Bool.not_true, Bool.not_false, Bool.false_eq_true,
        if_true, if_false]
    case image =>
      intro hfit h4
      refine congrArg s.leaves ?_
      simp only [State.modHearth] at hfit h4 ⊢
      simp only [State.release, hrel, hin, hfit, h4, State.step2_cause, Bool.not_true, Bool.false_eq_true, if_false]
    case goesOn =>
      intro w hfit h4 hmin
      refine congrArg s.leaves ?_
      simp only [State.modHearth] at hfit h4 ⊢
      simp only [State.release, hrel, hin, hfit, h4, hmin, State.step2_cause, Bool.not_true, Bool.false_eq_true, if_false]
  case step2 =>
    rintro x msel member treeEn hfirst
    have hsame : ¬ ((x.hearth.start.msel.isSome && x.hearth.start.msel != some msel)
        && (x.hearth.cause == 0x02 || x.hearth.cause == 0x03)) = true := by simp [hfirst]
    unfold State.step2
    dsimp only
    rw [if_neg hsame]
    exact ⟨rfl, rfl, rfl, rfl, rfl, rfl, rfl, rfl, rfl, rfl, rfl⟩
  case noReference =>
    rintro dt msel member treeEn rextOk ref faults rails s x hx hrel hbad
    refine ⟨(x.modHearth (fun h => { h with railsUp := true })).badReference ref, ?_, rfl, rfl, rfl, rfl, rfl, rfl, rfl,
      rfl, rfl⟩
    rw [exec_mainResetRelease, ← hx]
    refine congrArg s.leaves ?_
    simp only [State.release, hrel, State.modHearth, Bool.not_true, Bool.false_eq_true, if_false]
    cases ref with
    | none => rfl
    | some p => exact if_pos (by simpa [or_comm] using hbad p rfl)
  case testLow =>
    rintro dt msel member treeEn rextOk ref faults rails s x hx hrel
    rw [exec_mainResetRelease, ← hx]
    refine congrArg s.leaves ?_
    simp only [State.release, hrel, State.modHearth, Bool.not_true, Bool.not_false, Bool.false_eq_true, if_true, if_false]
  case notYet =>
    rintro dt msel member pins rextOk ref faults rails s x hx hrel
    rw [exec_mainResetRelease, ← hx]
    exact congrArg s.leaves (if_pos (by simp [hrel]))
  case step9 =>
    rintro dt a s x hx hb h5 hlate hmin hlocal
    rw [exec_step9Timeout, ← hx, State.onBlocks_of hb]
    simp [State.step9Timeout, at?, h5, hlate, hmin, hlocal, State.localStart]

end Sys2Proof.Machine
end

section
/-! PROOFS. Commands (03): the checks of a packet over SPI, the packets that leave, the turn of a command and its limit, and
the opcodes of block CMD. -/

namespace Sys2Proof.Machine

/-! ### The checks of R85 -/

/-- A transaction as long as its LENGTH sets it, that begins with SYNC, is one packet (R77). -/
theorem State.delimited_whole {y : State} {b : List Byte} (h16 : 16 ≤ b.length) (hsync : syncOk b = true)
    (hlen : b.length = (hdrOf b).extent) : y.delimited b false = y.packet b true false := by
  have h2 : ¬ b.length < 2 := by omega
  simp only [State.delimited, hsync, h2, Nat.not_lt.mpr h16, ← hlen, lt_irrefl, Bool.not_true, Bool.false_eq_true,
    or_self, and_false, if_false]

/-- Settles O5: `State.packet` makes its checks in the order of the clauses (log entry 28). -/
theorem packetChecks : Obligations.PacketChecks := by
  unfold Obligations.PacketChecks
  intro dt b s x y hx hruns hspi hy h16 hsync hlen hroom
  have hfull : ¬ intakeLimit < y.intake + ((hdrOf b).extent + 15) / 16 := by omega
  have hexec : exec (.spiWrite dt b) s = s.leaves (y.packet b true false) := by
    rw [exec_spiWrite_bound (hx ▸ hruns) (hx ▸ hspi), ← hx, ← hy, State.delimited_whole h16 hsync hlen]
  rw [hexec]
  refine ⟨?hcrc, ?kind, ?lead, ?format, ?length, ?payload, ?busy⟩
  case hcrc =>
    intro hcrc
    simp [State.packet, hfull, hcrc]
  case kind =>
    intro hcrc hkind
    simp [State.packet, hfull, hcrc, hkind]
  case lead =>
    intro hcrc hkind hlead
    simp [State.packet, hfull, hcrc, hkind, hlead]
  case format =>
    intro hcrc hkind hlead hform
    simp [State.packet, hfull, hcrc, hkind, hlead, hform]
  case length =>
    intro hcrc hkind hlead hform hlong
    simp [State.packet, hfull, hcrc, hkind, hlead, hform, hlong]
  case payload =>
    intro hcrc hkind hlead hform hmax h0 hpay
    simp [State.packet, hfull, hcrc, hkind, hlead, hform, Nat.not_lt.mpr hmax, h0, hpay]
  case busy =>
    intro hcrc hkind hlead hform hmax hpay hbusy
    have hgood : ¬ ((hdrOf b).length ≠ 0
        ∧ field b (16 + (hdrOf b).length) 4 ≠ crc32 (bytesAt b 16 (hdrOf b).length)) := fun ⟨h0, hne⟩ => hne (hpay h0)
    simp only [State.packet, hfull, hcrc, hkind, hlead, hform, Nat.not_lt.mpr hmax, hgood, decide_false, Bool.not_true,
      Bool.false_eq_true, ne_eq, not_true_eq_false, or_self, if_false]
    exact congrArg s.leaves (if_pos hbusy)

/-! ### Packets leave -/

/-- Settles O6: each transport takes the first packet that waits, and `State.packetLeft` gives its place free (log
entry 25). -/
theorem packetsLeave : Obligations.PacketsLeave := by
  unfold Obligations.PacketsLeave
  refine ⟨?readWhole, ?readPart, ?readNone, ?status, ?uart, ?tree, ?gap, ?noGap, fun _ _ => rfl, fun _ => rfl, ?again,
    ?givenUp⟩
  case readWhole =>
    rintro dt clocked p t s x hx hruns hspi hout hall
    rw [exec_spiRead, ← hx, State.onMain_of hruns]
    simp only [State.spiRead, hruns.1, hspi, hout, hall, beq_self_eq_true, Bool.and_self, if_true]
    rfl
  case readPart =>
    rintro dt clocked p t s x hx hruns hspi hout hpart
    rw [exec_spiRead, ← hx, State.onMain_of hruns]
    simp only [State.spiRead, hruns.1, hspi, hout, Nat.not_le.mpr hpart, beq_self_eq_true, Bool.and_self, if_true,
      if_false]
  case readNone =>
    rintro dt clocked s x hx hruns hspi hout
    rw [exec_spiRead, ← hx, State.onMain_of hruns]
    simp only [State.spiRead, hruns.1, hspi, hout, beq_self_eq_true, Bool.and_self, if_true]
  case status =>
    rintro dt s x hx hruns hspi
    rw [exec_spiStatus, ← hx, State.onMain_of hruns]
    simp only [State.spiStatus, hruns.1, hspi, beq_self_eq_true, Bool.and_self, if_true]
    cases x.main.cmd.out <;> rfl
  case uart =>
    rintro dt p t s x hx hruns hbound hout
    rw [exec_packetLeft, ← hx, State.onMain_of hruns]
    simp only [State.leave, hbound, hout]
  case tree =>
    rintro dt k t s x hx hruns hbound hleaving
    rw [exec_packetLeft, ← hx, State.onMain_of hruns]
    simp only [State.leave, hbound, hleaving]
    rfl
  case gap =>
    rintro dt s x hx hruns hbound h2 hsync hlate
    have hsome : ¬ (x.main.cmd.uart = [] ∨ x.now ≤ x.main.cmd.uartAt + msT) := by
      rintro (hnone | hsoon)
      · simp [hnone] at h2
      · omega
    rw [exec_uartGapTimeout, ← hx, State.onMain_of hruns]
    simp only [State.uartGap, State.uartAbandon, hruns.1, hbound, hsome, h2, hsync, beq_self_eq_true, Bool.and_self,
      and_self, if_true, if_false]
  case noGap =>
    rintro dt s x hx hruns hsoon
    rw [exec_uartGapTimeout, ← hx, State.onMain_of hruns]
    refine congrArg s.leaves ?_
    unfold State.uartGap State.uartAbandon
    rw [if_pos (Or.inr hsoon), ite_self]
  case again =>
    rintro dt t num n s x hx hruns hfind hleft hdue hfew
    rw [exec_alarmRepeat, ← hx, State.onMain_of hruns]
    simp only [State.alarmRepeat, hfind, hleft, repeatT, Nat.not_lt.mpr hdue, Nat.not_le.mpr hfew, if_false]
  case givenUp =>
    rintro dt t num n s x hx hruns hfind hleft hdue hmany
    rw [exec_alarmRepeat, ← hx, State.onMain_of hruns]
    simp only [State.alarmRepeat, hfind, hleft, repeatT, Nat.not_lt.mpr hdue, hmany, if_false, if_true]

/-! ### The turn of a command, and its limit -/

/-- A queued command whose turn has come starts (R88). -/
theorem exec_commandStart_turn {dt : Nat} {tag : BitVec 16} {e : OpEntry} {s x y : State} (hx : x = s.at dt)
    (hruns : x.runs) (hy : y = x.wake 0x06) (htag : y.opOfTag tag.toNat = some e) (hst : e.st = .queued)
    (hmay : y.mayStart e = true) : exec (.commandStart dt tag) s = s.leaves (y.startOp e) := by
  rw [exec_commandStart, ← hx, State.onMain_of hruns]
  simp only [State.commandStart, hruns.1, ← hy, htag, hst, hmay, Bool.not_true, Bool.false_eq_true, and_self, if_false,
    if_true]

/-- The members that a command of one member addresses: that member, where the stack has it (R96). -/
theorem State.targets_single {y : State} {e : OpEntry} (hall : e.all = false) :
    y.targets e = if y.named e.member then [e.member] else [] := by
  simp [State.targets, hall]

/-- A command that a quarantined member may run runs there (R89, check 6). -/
theorem State.runHere_allowed {y : State} {e : OpEntry} (h : y.quarantined = true → quarantineOk e.opcode = true) :
    y.runHere e = y.runOpcode e.opcode e.id e.params := by
  refine if_neg ?_
  rintro ⟨hq, hno⟩
  simp [h hq] at hno

/-- A register write that is accepted, below the picture coder's addresses: the word, and what follows from it. -/
theorem State.regWrite_accepted {x : State} {a v : Nat} (h : x.writeStatus a v = 0) (hfields : regFields a ≠ [])
    (ha : a < 0x080000) : State.regWrite a v x = ((x.settlePolicer a).setWord a
      (Nat.lor (regWritten (regFields a) (x.word a) v) (x.cycleOf a).latched)).wroteA a (x.word a) := by
  simp only [State.regWrite, State.writeReg, h, hfields, ha, ne_eq, not_true_eq_false, or_self, if_false, if_true]

/-- Settles O7: `State.startOp` takes the branch of the clause, and `State.overLimit` decides the limit (log entries 54, 55,
56, 134). -/
theorem operationsRun : Obligations.OperationsRun := by
  unfold Obligations.OperationsRun
  refine ⟨?own, ?forward, ?noMember, ?timeout, ?inTime, ?limit⟩
  case own =>
    rintro dt tag e s x y hx hruns hy htag hst hmay hchecks hall hnc hown hquar
    rw [exec_commandStart_turn hx hruns hy htag hst hmay]
    refine congrArg s.leaves (Eq.trans ?_ (State.runHere_allowed hquar))
    obtain hlead | hself := hown
    · simp only [State.startOp, hchecks, hlead, ne_eq, not_true_eq_false, if_false, if_true]
    · exact State.startOp_own hchecks hself hall hnc
  case forward =>
    rintro dt tag e s x y z hx hruns hy htag hst hmay hchecks hall hlead hnc hother hnamed hquar hforward
    have hbar : ¬ (((y.modOp e.id (fun a => { a with st := .running, space := 0, await := [e.member] })).peer
        e.member).quar ≠ 0 ∧ (!quarantineOk e.opcode) = true) := by
      rintro ⟨hq, hno⟩
      obtain hok | hfree := hquar
      · simp [hok] at hno
      · exact hq hfree
    have hall' : (y.modOp e.id (fun a => { a with st := .running, space := 0, await := [e.member] })).forwardAllTo e
        [e.member] = some z := by
      rw [State.forwardAllTo, if_neg hbar, hforward]
      rfl
    rw [exec_commandStart_turn hx hruns hy htag hst hmay]
    simp [State.startOp, hchecks, hlead, hnc, State.targets_single hall, hnamed, hother, Ne.symm hother, hall']
  case noMember =>
    rintro dt tag e s x y hx hruns hy htag hst hmay hchecks hall hlead hother hnamed
    rw [exec_commandStart_turn hx hruns hy htag hst hmay]
    simp [State.startOp, hchecks, hlead, State.targets_single hall, hnamed]
  case timeout =>
    rintro dt tag e s x hx hruns htag hst hshadow hop hall hlate
    have hover : x.overLimit e = true := by
      simp [State.overLimit, State.xactQueued, State.opLimit, hst, hshadow, hop, hlate]
    rw [exec_opTimeout, ← hx, State.onMain_of hruns]
    simp [State.opTimeout, htag, hover, State.timeout, hall]
  case inTime =>
    rintro dt tag e s x hx hruns htag hin
    have hover : x.overLimit e = false := by
      obtain hrep | hsoon := hin
      · simp [State.overLimit, hrep]
      · simp [State.overLimit, State.opLimit, Nat.not_le.mpr hsoon]
    rw [exec_opTimeout, ← hx, State.onMain_of hruns]
    simp [State.opTimeout, htag, hover]
  case limit =>
    rintro dt value s x hx hb hlegal
    rw [exec_cmdOpLimitWrite, ← hx, State.onBlocks_of hb, State.regWrite_accepted hlegal (by decide) (by decide)]
    rfl

/-! ### The opcodes of block CMD -/

/-- Settles O8: each opcode answers from the state with its command in the operation table. -/
theorem cmdOpcodesAnswer : Obligations.CmdOpcodesAnswer := by
  unfold Obligations.CmdOpcodesAnswer
  refine ⟨?nop, ?info, ?query, ?noTag, ?report⟩
  case nop =>
    rintro dt tag s x h hx
    rw [exec_nop, State.command_asked h (by decide), ← hx]
    simp [State.runOpcode, runCmd, opNop, State.replies]
  case info =>
    rintro dt tag s x h hx
    rw [exec_getInfo, State.command_asked h (by decide), ← hx]
    simp [State.runOpcode, runCmd, opGetInfo, State.replies]
  case query =>
    rintro dt tag p e s x h hx hlen hentry
    rw [exec_opQuery, State.command_asked h (by decide), ← hx]
    simp [State.runOpcode, runCmd, opOpQuery, hlen, hentry, State.replies]
  case noTag =>
    rintro dt tag p s x h hx hlen hentry
    rw [exec_opQuery, State.command_asked h (by decide), ← hx]
    simp [State.runOpcode, runCmd, opOpQuery, hlen, hentry, State.replies]
  case report =>
    rintro dt tag s x h hx
    rw [exec_bootReport, State.command_asked h (by decide), ← hx]
    have hends : x.main.boot.ends.flatMap (fun e => match e with
        | some t => be 4 (sat 0xFFFFFFFF ((t - x.hearth.penRise) / usT))
        | none => be 4 0xFFFFFFFF) = x.main.boot.ends.flatMap (fun e =>
        be 4 ((e.map (fun t => sat 0xFFFFFFFF ((t - x.hearth.penRise) / usT))).getD 0xFFFFFFFF)) := by
      congr 1
      funext e
      cases e <;> rfl
    rw [State.replies, ← hends]
    rfl

/-- Settles O10: CANCEL looks at the state of its operation, NOTICE_ACK drops the notice, RESET_MAIN waits for its reply (log
entry 53). -/
theorem cmdOpcodesAct : Obligations.CmdOpcodesAct := by
  unfold Obligations.CmdOpcodesAct
  refine ⟨?queued, ?begun, ?noTag, ?ack, ?ackOther, ?reset⟩
  case queued =>
    rintro dt tag p e s x h hx hlen htag hst
    rw [exec_cancel, State.cancel_asked h, ← hx]
    simp only [State.cancel, hlen, htag, hst, ne_eq, not_true_eq_false, if_false, if_true]
  case begun =>
    rintro dt tag p e s x h hx hlen htag hst
    rw [exec_cancel, State.cancel_asked h, ← hx]
    simp only [State.cancel, hlen, htag, hst, ne_eq, not_true_eq_false, if_false]
  case noTag =>
    rintro dt tag p s x h hx hlen htag
    rw [exec_cancel, State.cancel_asked h, ← hx]
    simp only [State.cancel, hlen, htag, ne_eq, not_true_eq_false, if_false]
  case ack =>
    rintro dt tag p n s x h hx hlen hfind hown
    rw [exec_noticeAck, State.command_asked h (by decide), ← hx]
    simp [State.runOpcode, runCmd, opNoticeAck, hlen, hfind, hown]
  case ackOther =>
    rintro dt i tag p n s x h hx hlen hfind hother hsource hformed
    rw [exec_noticeAck, State.command_asked h (by decide), ← hx]
    simp [State.runOpcode, runCmd, opNoticeAck, hlen, hfind, hother, hsource, hformed]
  case reset =>
    rintro dt tag p s x h hx hlen hkey
    rw [exec_resetMain, State.command_asked h (by decide), ← hx]
    simp [State.runOpcode, runCmd, opResetMain, hlen, hkey]

end Sys2Proof.Machine
end

section
/-! PROOFS. Images and the flash (04): the image opcodes, the end of a flash operation, and what the flash reads. -/

namespace Sys2Proof.Machine

/-! ### What the flash reads (R131, R147) -/

/-- A cell outside the range that is erased reads as before, and every cell in it reads 0xFF. -/
theorem flashGet_erase (m : List Host.Cell) (a n b : Nat) (h : flashWf m = true) :
    flashGet (flashErase m a n) b = if a ≤ b ∧ b < a + n then 0xFF#8 else flashGet m b := by
  induction m with
  | nil => simp [flashErase, flashGet]
  | cons p t ih =>
    obtain ⟨c, v⟩ := p
    obtain ⟨-, hlow, ht⟩ := (flashWf_cons c v t).mp h
    have hrest := ih ht
    by_cases hin : a ≤ c ∧ c < a + n
    · have hskip : flashErase ((c, v) :: t) a n = flashErase t a n := by simp [flashErase, hin.1, hin.2]
      rw [hskip, hrest]
      by_cases hb : a ≤ b ∧ b < a + n
      · rw [if_pos hb, if_pos hb]
      · rw [if_neg hb, if_neg hb, flashGet]
        have hne : c ≠ b := fun hcb => hb (hcb ▸ hin)
        rw [if_neg hne]
        by_cases hlt : c < b
        · rw [if_pos hlt]
        · rw [if_neg hlt]
          exact flashGet_below t b (fun q hq => by have := hlow q hq; omega)
    · have hkeep : flashErase ((c, v) :: t) a n = (c, v) :: flashErase t a n :=
        List.filter_cons_of_pos (by simp; omega)
      rw [hkeep, flashGet, flashGet]
      by_cases hcb : c = b
      · rw [if_pos hcb, if_pos hcb, if_neg (hcb ▸ hin)]
      · rw [if_neg hcb, if_neg hcb, hrest]
        by_cases hlt : c < b
        · rw [if_pos hlt, if_pos hlt]
        · rw [if_neg hlt, if_neg hlt, ite_self]

/-- A cell outside the range that is programmed reads as before, and every cell in it reads its new byte. -/
theorem flashGet_write (l : List Byte) (m : List Host.Cell) (a b : Nat) (h : flashWf m = true) :
    flashGet (flashWrite m a l) b = if a ≤ b ∧ b < a + l.length then l.getD (b - a) 0 else flashGet m b := by
  induction l generalizing m a with
  | nil => simp [flashWrite]
  | cons v t ih =>
    rw [flashWrite, ih _ _ (flashWf_set m a v h)]
    obtain hlow | rfl | hhigh := Nat.lt_trichotomy b a
    · rw [if_neg (by omega), if_neg (by omega), flashGet_set_other m a b v h (by omega)]
    · rw [if_neg (by omega), if_pos (by simp), flashGet_set_same m b v h]
      simp
    · have hsplit : b - a = (b - (a + 1)) + 1 := by omega
      rw [flashGet_set_other m a b v h (by omega), hsplit, List.getD_cons_succ]
      refine if_congr ?_ rfl rfl
      rw [List.length_cons]
      omega

/-- Settles O13: by induction on the cells that are erased and on the bytes that are programmed (log entry 13). -/
theorem flashReads : Obligations.FlashReads := by
  unfold Obligations.FlashReads
  exact ⟨flashGet_erase, fun m a b l h => flashGet_write l m a b h,
    fun m a n l h => ⟨flashWf_erase m a n h, flashWf_write l m a h⟩⟩

/-! ### The image opcodes -/

/-- Settles O11: each opcode passes its checks and asks the flash or the full check (log entries 11, 131). -/
theorem imageOpcodes : Obligations.ImageOpcodes := by
  unfold Obligations.ImageOpcodes
  refine ⟨?status, ?erase, ?write, ?verify, ?activate, ?commit, ?noTrial⟩
  case status =>
    rintro dt tag b i s x h hx htaken hslot h0 h1
    rw [exec_imgStatus, State.command_asked h (by decide), ← hx]
    simp [State.runOpcode, runCmd, opImgStatus, State.drawBytes, State.draw, htaken, hslot, h0, h1]
  case erase =>
    rintro dt tag p s x h hx hlen hidx hres hother
    rw [exec_imgErase, State.command_asked h (by decide), ← hx]
    simp [State.runOpcode, runCmd, opImgErase, hlen, Nat.not_lt.mpr hidx, hres, hother]
  case write =>
    rintro dt tag p s x h hx hlen hidx hzero hfits hres hother
    rw [exec_imgWrite, State.command_asked h (by decide), ← hx]
    simp [State.runOpcode, runCmd, opImgWrite, Nat.not_lt.mpr hlen, Nat.not_lt.mpr hidx, hzero, Nat.not_lt.mpr hfits,
      hres, hother]
  case verify =>
    rintro dt tag p s x h hx hlen hidx
    rw [exec_imgVerify, State.command_asked h (by decide), ← hx]
    cases hcheck : x.imgCheck (field p 0 1) <;>
      simp [State.runOpcode, runCmd, opImgVerify, hlen, Nat.not_lt.mpr hidx, State.replies, hcheck]
  case activate =>
    rintro dt tag p s x y h hx hlen hidx hpref hforce hother rfl
    rw [exec_imgActivate, State.command_asked h (by decide), ← hx]
    cases hcheck : x.imgCheck (field p 0 1) with
    | zero =>
      simp [State.runOpcode, runCmd, opImgActivate, hlen, Nat.not_lt.mpr hidx, Nat.not_lt.mpr hpref, hforce, hother,
        hcheck]
      rfl
    | succ e =>
      simp [State.runOpcode, runCmd, opImgActivate, hlen, Nat.not_lt.mpr hidx, Nat.not_lt.mpr hpref, hforce, hother,
        hcheck, State.replies]
  case commit =>
    rintro dt i tag s x h hx htrial hnew hslot
    rw [exec_imgCommit, State.command_asked h (by decide), ← hx]
    simp [State.runOpcode, runCmd, opImgCommit, htrial, hnew, hslot, State.modHearth]
  case noTrial =>
    rintro dt tag s x h hx hno
    rw [exec_imgCommit, State.command_asked h (by decide), ← hx]
    have hnone : (x.main.boot.trial && !x.main.boot.committed) = false := by
      obtain h0 | h0 := hno <;> simp [h0]
    simp [State.runOpcode, runCmd, opImgCommit, hnone, State.replies]

/-! ### The end of a flash operation -/

/-- A flash operation ends, nothing else of the log waiting: its effect, and the next operation (R147). -/
theorem exec_flashOperationDone_of {dt : Nat} {ok : Bool} {op : FlashOp} {s x : State} (hx : x = s.at dt) (hruns : x.runs)
    (hop : x.main.boot.flashOp = some op) (hout : (x.flashEffect op ok).main.out = true)
    (htrig : (x.flashEffect op ok).main.ash.trigger = none) :
    exec (.flashOperationDone dt ok) s = s.leaves (x.flashEffect op ok).flashPump := by
  rw [exec_flashOperationDone, ← hx, State.onMain_of hruns]
  simp only [State.flashDone, hop, hout, htrig, Bool.not_true, Bool.false_eq_true, if_false]

/-- Settles O12: `State.flashEffect` for each operation (log entries 8, 10). -/
theorem flashOperationsEnd : Obligations.FlashOperationsEnd := by
  unfold Obligations.FlashOperationsEnd
  refine ⟨?erased, ?cut, ?written, ?record, ?copyB, ?copyA, ?seq⟩
  case erased =>
    rintro dt id slot s x hx hruns hop hout htrig
    rw [exec_flashOperationDone_of hx hruns hop hout htrig]
    rfl
  case cut =>
    rintro dt id slot s x hx hruns hop hout htrig
    rw [exec_flashOperationDone_of hx hruns hop hout htrig]
    rfl
  case written =>
    rintro dt id slot off d s x hx hruns hop hout htrig hnor
    rw [exec_flashOperationDone_of hx hruns hop hout htrig]
    simp only [State.flashEffect, hnor, if_true, beq_self_eq_true, Bool.and_self]
  case record =>
    rintro dt id pref st r s x hx hruns hop rfl hout htrig
    rw [exec_flashOperationDone_of hx hruns hop hout htrig]
    rfl
  case copyB =>
    intro x h
    rw [State.bootWriteCopy, h]
  case copyA =>
    intro x h
    rw [State.bootWriteCopy, h]
  case seq =>
    intro x b h
    rw [State.bootNextSeq, h]

end Sys2Proof.Machine
end

section
/-! PROOFS. The Hearth (02, 05): its supplies, its time, the tamper inputs and the mesh, and what it measures. -/

namespace Sys2Proof.Machine

/-! ### The supplies (R48, R49, R64, R194) -/

/-- The supplies change the Hearth alone. -/
theorem State.supplySwitch_frame (x : State) (aon vbat : Nat) :
    x.supplySwitch aon vbat = { x with hearth := (x.supplySwitch aon vbat).hearth } := by
  unfold State.supplySwitch
  dsimp only
  split_ifs <;> rfl

/-- Settles O14: the branches of `State.hearthStart`, `State.hearthReset` and `State.supplySwitch` (log entries 14, 15). -/
theorem hearthSupplies : Obligations.HearthSupplies := by
  unfold Obligations.HearthSupplies
  refine ⟨?starts, ?stays, ?resets, ?drawn, ?fresh, ?switches, ?holds, ?ends⟩
  case starts =>
    rintro dt aon vbat s x hx hrun hup
    have hgo : ¬ (x.hearth.running = true ∨ aon < 2500 ∧ vbat < 2500) := by
      rw [hrun]
      simp
      omega
    rw [exec_hearthStart, ← hx]
    simp only [State.hearthStart, hgo, if_false]
    exact State.leaves_off rfl
  case stays =>
    rintro dt aon vbat s x hx hno
    rw [exec_hearthStart, ← hx]
    exact congrArg s.leaves (if_pos hno)
  case resets =>
    rintro dt aon vbat s x y hx hrun hy hlow
    have hcut := y.cutFlashOp_frame
    have hsw : y = { x with hearth := y.hearth } := by
      rw [hy]
      exact x.supplySwitch_frame aon vbat
    refine ⟨{ y.cutFlashOp.penLow with
      regs := [], main := .cold, hearth := freshHearth y.cutFlashOp.penLow.hearth false aon vbat }, ?_, rfl, rfl, ?_, rfl,
      ?_, ?_⟩
    · rw [exec_hearthReset, ← hx]
      simp only [State.hearthReset, hrun, ← hy, hlow, Bool.not_true, Bool.false_eq_true, if_true, if_false]
      exact State.leaves_off rfl
    · show freshHearth y.cutFlashOp.penLow.hearth false aon vbat = _
      rw [hcut]
      rfl
    · show y.cutFlashOp.minSec = x.minSec
      rw [hcut, hsw]
    · show y.cutFlashOp.pending = x.pending
      rw [hcut, hsw]
  case drawn =>
    rintro dt aon vbat s x y hx hrun hy hhigh
    rw [exec_hearthReset, ← hx]
    simp only [State.hearthReset, hrun, ← hy, Nat.not_lt.mpr hhigh, Bool.not_true, Bool.false_eq_true, if_false]
  case fresh =>
    intro h r aon vbat
    exact ⟨rfl, rfl, rfl, fun k hk => by rw [List.eq_of_mem_replicate hk], rfl⟩
  case switches =>
    rintro dt aon vbat s x hx hrun hheld hone
    have hnone : ¬ ((x.supplyHeld || (decide (x.hearth.aonMv < 2900) != decide (aon < 2900))
        && (decide (x.hearth.vbatMv < 2900) != decide (vbat < 2900)))
        && !(decide ((if x.drawsVbat then vbat else aon) < 2500) && decide (2900 ≤ if x.drawsVbat then aon else vbat)))
        = true := by
      obtain h | h := hone <;> simp [hheld, h]
    rw [exec_supplySwitch, ← hx]
    refine congrArg s.leaves ?_
    simp only [State.supplySwitch, hrun, Bool.not_true, Bool.false_eq_true, if_false]
    exact if_neg hnone
  case holds =>
    rintro dt aon vbat s x hx hrun hheld hdrawn hother
    rw [exec_supplySwitch, ← hx]
    simp [State.supplySwitch, hrun, hheld, Nat.not_lt.mpr hdrawn, Nat.not_le.mpr hother, hother]
  case ends =>
    rintro dt aon vbat s x hx hrun hdrawn hother
    rw [exec_supplySwitch, ← hx]
    simp [State.supplySwitch, hrun, hdrawn, hother]

/-! ### Hearth time (R160) -/

/-- Settles O15: `State.hearthAlign` aligns where it is due, and TRIM takes the rate of the two counts (log entry 4). -/
theorem hearthTime : Obligations.HearthTime := by
  unfold Obligations.HearthTime
  refine ⟨?first, ?again, ?notDue⟩
  case first =>
    rintro dt s x hx hb hblaze hvalid hloose hnone
    rw [exec_hearthAlign, ← hx, State.onBlocks_of hb]
    simp only [State.hearthAlign, hblaze, hvalid, hloose, hnone, Bool.not_false, Bool.not_true, Bool.and_self,
      Bool.false_eq_true, if_false]
  case again =>
    rintro dt t n0 c0 s x hx hb hblaze hvalid hloose hat hdue hcycles hnow
    rw [exec_hearthAlign, ← hx, State.onBlocks_of hb]
    simp only [State.hearthAlign, hblaze, hvalid, hloose, hat, hdue, hcycles, hnow, decide_true, Bool.not_false,
      Bool.not_true, Bool.and_self, Bool.false_eq_true, and_self, if_false, if_true]
  case notDue =>
    rintro dt s x hx hb hno
    rw [exec_hearthAlign, ← hx, State.onBlocks_of hb]
    refine congrArg s.leaves (if_pos ?_)
    obtain h | h | ⟨t, n0, c0, hat, hsoon⟩ := hno
    · simp [h]
    · simp [h]
    · simp [hat, Nat.not_le.mpr hsoon]

/-! ### Tamper inputs and the mesh (R163 to R166) -/

/-- The LFSR of the mesh steps from a state other than 0 to one (R165). -/
theorem lfsrStep_range {v : Nat} (hlow : 1 ≤ v) (hhigh : v ≤ 65535) : 1 ≤ lfsrStep v ∧ lfsrStep v ≤ 65535 := by
  by_cases htop : v = 32768
  · subst htop
    decide
  · have heven : 1 ≤ v * 2 % 65536 ∧ v * 2 % 65536 ≤ 65534 := by omega
    unfold lfsrStep
    omega

/-- Settles O17: the checks of `State.tamperActive` and `State.meshBreak`, and `State.tamperActs` in each state of the chip
(log entries 9, 30, 133). -/
theorem tamperAndMesh : Obligations.TamperAndMesh := by
  unfold Obligations.TamperAndMesh
  refine ⟨?input, ?pair, ?running, ?dark, ?wakes, ?inactive, ?rearm, ?reseed, @lfsrStep_range⟩
  case input =>
    rintro dt i code s x hx hi hrun hconf hidle
    have hgo : ¬ (8 ≤ i ∨ (!x.hearth.running) = true ∨ bits (x.word (0x010020 + 4 * i)) 9 8 = 0
        ∨ at? x.hearth.tampNow i true = true) := by
      simp [Nat.not_le.mpr hi, hrun, hconf, at?, hidle]
    rw [exec_tamperActive, ← hx]
    exact congrArg s.leaves (if_neg hgo)
  case pair =>
    rintro dt n l code s x hx hn hrun hen hidle
    have hgo : ¬ (2 ≤ n ∨ (!x.hearth.running) = true ∨ (!bitOf (x.word (0x010040 + 4 * n)) 31) = true
        ∨ at? x.hearth.meshBroken n true = true) := by
      simp [Nat.not_le.mpr hn, hrun, hen, at?, hidle]
    rw [exec_meshBreak, ← hx]
    exact congrArg s.leaves (if_neg hgo)
  case running =>
    rintro x y z w source kind code a hy hz hstoker hmin hw
    simp only [State.tamperActs, ← hy, ← hz, hstoker, hmin, ← hw, Option.isSome_none, Bool.and_false, Bool.false_eq_true,
      if_false, if_true]
  case dark =>
    rintro x y source kind code a hx hz hy hstoker hpen hwake
    simp only [State.tamperActs, ← hy, hz, hstoker, hpen, hwake, Bool.false_and, Bool.false_eq_true, if_false]
    rfl
  case wakes =>
    rintro x y source kind code a hz hy hstoker hpen hwake
    simp only [State.tamperActs, ← hy, hz, hstoker, hpen, hwake, Bool.false_and, Bool.false_eq_true, if_false, if_true]
    rfl
  case inactive =>
    rintro dt i s x hx
    rw [exec_tamperInactive, ← hx]
    rfl
  case rearm =>
    rintro dt n s x hx
    rw [exec_meshRearm, ← hx]
    rfl
  case reseed =>
    rintro dt s x hx hb hps
    refine ⟨1 + Config.free x.freeIdx % 65535, 1 + Config.free (x.freeIdx + 1) % 65535, by omega, by omega, by omega,
      by omega, ?_⟩
    rw [exec_meshReseed, ← hx, State.onBlocks_of hb]
    rw [State.meshReseed, if_pos (by simp [hb.1.1, hps])]
    rfl

/-! ### The cell, the crystal and the reserve (R69, R167, R168, R190) -/

/-- A record of the Hearth does not change which program runs. -/
theorem State.stoker_ashHearth (x : State) (source kind : Nat) (d : List Byte) :
    (x.ashHearth source kind d).stoker = x.stoker := by
  rw [State.stoker, State.stoker, State.ashHearth_main]

theorem State.stoker_modHearth (x : State) (f : Hearth → Hearth) : (x.modHearth f).stoker = x.stoker := rfl

/-- A crystal that stops is recorded once, with Hearth time (R69). -/
theorem exec_xtalStop_good {dt : Nat} {s x y : State} (hx : x = s.at dt) (hrun : x.hearth.running = true)
    (hgood : x.hearth.xtalFault = false)
    (hy : y = (x.modHearth (fun h => { h with xtalFault := true, xtalSec := x.hearthSec })).ashHearth 0x01 0x04
      ([1#8] ++ be 2 0)) :
    exec (.xtalStop dt) s = s.leaves (if y.stoker then ((y.wake 0x0D).notify 0x0105 false (be 6 x.hearthSec)).clampWake
      else y.hold 11 1 0) := by
  have hgo : ¬ (!x.hearth.running || x.hearth.xtalFault) = true := by simp [hrun, hgood]
  rw [exec_xtalStop, ← hx, State.xtalStop, if_neg hgo, hy]

/-- A measurement of at least 50 with the cell there is one of its level alone (R167). -/
theorem exec_cellMeasure_present {dt : Nat} {code : BitVec 8} {s x : State} (hx : x = s.at dt)
    (hrun : x.hearth.running = true) (hthere : x.hearth.cellAbsent = false) (hcode : 50 ≤ code.toNat) :
    exec (.cellMeasure dt code) s = s.leaves (x.cellLevel code.toNat) := by
  rw [exec_cellMeasure, ← hx]
  simp [State.cellMeasure, hrun, hthere, Nat.not_lt.mpr hcode]

/-- Settles O19: `State.cellLevel`, `State.xtalStop` and `State.reserveSample` by their branches (log entries 4, 27). -/
theorem hearthMonitors : Obligations.HearthMonitors := by
  unfold Obligations.HearthMonitors
  refine ⟨?cellGood, ?cellOnce, ?cellTwice, ?stops, ?stopsDark, ?starts, ?reserve, ?floor⟩
  case cellGood =>
    rintro dt code s x hx hrun hlow hthere hlevel hcode
    rw [exec_cellMeasure_present hx hrun hthere hcode]
    simp [State.cellLevel, hlow, Nat.not_lt.mpr hlevel]
  case cellOnce =>
    rintro dt code s x hx hrun hlow hthere hlevel hcode hfirst
    rw [exec_cellMeasure_present hx hrun hthere hcode]
    simp [State.cellLevel, hlow, hlevel, hfirst]
  case cellTwice =>
    rintro dt code s x y hx hrun hlow hthere hlevel hcode hsecond hstoker rfl
    rw [exec_cellMeasure_present hx hrun hthere hcode]
    simp only [State.cellLevel, hlow, hlevel, hsecond, hstoker, State.stoker_ashHearth, State.stoker_modHearth,
      decide_true, Bool.or_self, Bool.not_true, Bool.false_eq_true, Nat.reduceAdd, Nat.le_refl, if_true,
      if_false]
    simp only [State.modHearth, hlow, Bool.not_false]
  case stops =>
    rintro dt s x y hx hrun hgood hstoker hy
    have hy' : y.stoker = true := by rw [hy]; exact hstoker
    rw [exec_xtalStop_good hx hrun hgood hy, if_pos hy']
  case stopsDark =>
    rintro dt s x y hx hrun hgood hstoker hy
    have hy' : ¬ y.stoker = true := by rw [hy]; exact Bool.eq_false_iff.mp hstoker
    rw [exec_xtalStop_good hx hrun hgood hy, if_neg hy']
  case starts =>
    rintro dt s x hx hrun hfault
    rw [exec_crystalRunningAgain, ← hx]
    simp only [State.xtalAgain, hrun, hfault, Bool.and_self, if_true]
  case reserve =>
    rintro dt code s x y hx hpen hpsu hcode hy hfloor
    have hne : (code.toNat == 0) = false := by simpa using fun h => hcode (BitVec.eq_of_toNat_eq h)
    rw [exec_reserveSample, ← hx]
    simp only [State.modHearth, State.modUp, hpen, hpsu] at hy
    simp only [State.reserveSample, State.modHearth, hpen, hpsu, hne, ← hy, hfloor, Bool.not_true, Bool.false_eq_true,
      if_true, if_false]
  case floor =>
    intro x code h
    exact if_pos h

end Sys2Proof.Machine
end

section
/-! PROOFS. The power states (05): an alarm on the backup cell, the supply lost and back, Ember, the scheduled return, and
the opcodes of block HRT. -/

namespace Sys2Proof.Machine

/-! ### An alarm on the backup cell (R179, R182) -/

/-- The held entry of a source counts one more alarm, with the time, the kind and the reserve of it (Table HRT-8). -/
theorem State.hold_entry {x : State} {source flags kind : Nat} {e : Held} (h : x.hearth.held[source]? = some e) :
    ∃ f, (x.hold source flags kind).hearth.held[source]? = some f ∧ f.count = sat 0xFFFF (e.count + 1)
      ∧ f.flags = Nat.lor e.flags flags ∧ f.last = x.eventTime ∧ f.kind = kind ∧ f.reserve = x.hearth.resCode
      ∧ f.first = (if e.count = 0 then x.eventTime else e.first) := by
  simp [State.hold, State.holdAt, State.modHearth, h]

/-- Settles O18: `State.backupAlarm` holds the alarm first, and raises PEN_MAIN where nothing is against it (log entries 52,
132). -/
theorem alarmOnBackupCell : Obligations.AlarmOnBackupCell := by
  unfold Obligations.AlarmOnBackupCell
  refine ⟨?rises, ?held, ?entry⟩
  case rises =>
    rintro x y source kind flags code hlead hlock hkeys hres henergy rfl
    have hgo : ¬ ((if x.hearth.resFault then 0 else x.energyOf code) < 100 * x.fld 0x01005C 7 0
        ∨ (!x.hearth.start.lead) = true ∨ (x.hearth.start.msel = some 0 ∧ x.keysEmpty = true)
        ∨ x.hearth.lockout = true) := by
      simp only [hlead, hlock, hkeys, hres, Bool.not_true, Bool.false_eq_true, if_false, or_false]
      omega
    unfold State.backupAlarm
    dsimp only
    rw [show (x.modHearth _).hearth.resE = if x.hearth.resFault then 0 else x.energyOf code from rfl, if_neg hgo]
    refine ⟨rfl, rfl, rfl, rfl, rfl, ?_⟩
    show (if x.hearth.resFault then 0 else x.energyOf code) = _
    rw [hres]
    rfl
  case held =>
    rintro x y source kind flags code hno rfl
    have hstop : (if x.hearth.resFault then 0 else x.energyOf code) < 100 * x.fld 0x01005C 7 0
        ∨ (!x.hearth.start.lead) = true ∨ (x.hearth.start.msel = some 0 ∧ x.keysEmpty = true)
        ∨ x.hearth.lockout = true := by
      obtain ⟨hfault, hmin⟩ | hlow | hlead | hkeys := hno
      · exact .inl (by rw [hfault, if_pos rfl]; omega)
      · refine .inl ?_
        split <;> omega
      · exact .inr (.inl (by simp [hlead]))
      · exact .inr (.inr (.inl hkeys))
    unfold State.backupAlarm
    dsimp only
    rw [show (x.modHearth _).hearth.resE = if x.hearth.resFault then 0 else x.energyOf code from rfl, if_pos hstop]
    exact ⟨rfl, rfl, rfl⟩
  case entry =>
    rintro x y source flags kind e he rfl
    exact State.hold_entry he

/-! ### The supply lost and back (R175, R176, R178) -/

/-- PSU_OK set to what it is changes nothing. -/
theorem State.psuOk_kept {x : State} {ok : Bool} (h : x.hearth.psuOk = ok) :
    x.modHearth (fun h => { h with psuOk := ok }) = x := by
  subst h
  rfl

/-- Settles O20: the branches of `State.psuFall` and `State.psuRise` (log entry 50). -/
theorem supplyLostAndBack : Obligations.SupplyLostAndBack := by
  unfold Obligations.SupplyLostAndBack
  refine ⟨?falls, ?fallsDark, ?risesEmber, ?risesRunning, ?noHearth⟩
  case falls =>
    rintro dt s x y hx hpsu hrun hstoker rfl
    rw [exec_psuOkFall, ← hx]
    refine congrArg s.leaves ?_
    unfold State.psuFall
    rw [if_neg (by simp [hpsu]), if_neg (by simp [hrun])]
    exact if_pos hstoker
  case fallsDark =>
    rintro dt s x hx hpsu hrun hstoker
    rw [exec_psuOkFall, ← hx]
    refine congrArg s.leaves ?_
    unfold State.psuFall
    rw [if_neg (by simp [hpsu]), if_neg (by simp [hrun])]
    exact if_neg (Bool.eq_false_iff.mp hstoker)
  case risesEmber =>
    rintro dt s x hx hpsu hout hpen hlock hrun
    have hoff : x.stoker = false := by simp [State.stoker, hout]
    rw [exec_psuOkRise, ← hx, State.psuRise, if_neg (by simp [hpsu]), if_neg (by simp [hrun])]
    dsimp only
    rw [State.stoker_modHearth, hoff, hlock, if_neg (by simp), if_neg (by simpa using hout),
      State.penHigh_ember 0x02 0x04 (by exact hpen) (by exact hrun), if_neg (by simp [State.modHearth, hlock])]
    simp only [State.modHearth, Hearth.penRises, hlock, Bool.false_and, Bool.false_eq_true, if_false]
    exact State.leaves_off hout
  case risesRunning =>
    rintro dt s x hx hpsu hrun hstoker hmin hlock
    rw [exec_psuOkRise, ← hx, State.psuRise, if_neg (by simp [hpsu]), if_neg (by simp [hrun])]
    dsimp only
    rw [State.stoker_modHearth, hstoker, hlock, if_pos rfl, if_neg (by simp [State.modHearth, State.modAsh, hmin])]
    simp only [State.modHearth, hlock, Bool.false_and, Bool.false_eq_true, if_false]
  case noHearth =>
    rintro dt s x hx hrun
    rw [exec_psuOkRise, exec_psuOkFall, ← hx]
    cases hpsu : x.hearth.psuOk with
    | true =>
      refine ⟨congrArg s.leaves ((if_pos hpsu).trans (State.psuOk_kept hpsu).symm),
        congrArg s.leaves ?_⟩
      rw [State.psuFall, if_neg (by simp [hpsu]), if_pos (by simp [hrun])]
    | false =>
      refine ⟨congrArg s.leaves ?_, congrArg s.leaves ?_⟩
      · rw [State.psuRise, if_neg (by simp [hpsu]), if_pos (by simp [hrun])]
      · rw [State.psuFall, if_pos (by simp [hpsu]), State.psuOk_kept hpsu]

/-! ### Ember (R119, R177, R179) -/

/-- What Ember leaves: of the main domain nothing, and of the Hearth all but PEN_MAIN and what a reset ends. -/
theorem State.toEmber_leaves (x : State) : x.toEmber.main = .cold ∧ x.toEmber.hearth.pen = false
    ∧ x.toEmber.hearth.ps = .ember ∧ x.toEmber.hearth.minBlaze = none ∧ x.toEmber.regs = RegFile.hearthOnly x.regs
    ∧ (x.main.boot.flashOp = none → x.toEmber.flash = x.flash) ∧ x.toEmber.minSec = x.minSec
    ∧ x.toEmber.hearth.keys = x.completeUpdate.hearth.keys ∧ x.toEmber.hearth.ring = x.hearth.ring
    ∧ x.toEmber.hearth.held = x.hearth.held ∧ x.toEmber.hearth.time = x.hearth.time := by
  have hcut := x.cutFlashOp_frame
  have hkeys : x.cutFlashOp.completeUpdate.hearth = { x.hearth with keys := x.completeUpdate.hearth.keys } := by
    rw [hcut, State.completeUpdate_flash]
    exact x.completeUpdate_hearth
  unfold State.toEmber State.penLow
  dsimp only
  rw [hkeys, State.completeUpdate_frame]
  refine ⟨rfl, rfl, rfl, rfl, by rw [hcut], ?_, by rw [hcut], rfl, rfl, rfl, rfl⟩
  intro hop
  rw [State.cutFlashOp_none hop]

/-- Settles O21: both ways into Ember hold what is pending and take `State.toEmber` (log entry 51). -/
theorem emberEntered : Obligations.EmberEntered := by
  unfold Obligations.EmberEntered
  refine ⟨?ride, ?minimal, State.toEmber_leaves⟩
  case ride =>
    rintro dt s x y hx hpen hres hmin hover hout rfl
    rw [exec_emberEntry, ← hx]
    simp only [State.emberEntry, hpen, hres, hmin, hover, hout, Option.isNone_none, Bool.and_self, if_true]
    exact State.leaves_off rfl
  case minimal =>
    rintro dt s x hx hpen hmin hlate
    rw [exec_alarmMsExpiry, ← hx]
    simp only [State.alarmMsExpiry, hpen, hmin, hlate, decide_true, Bool.and_self, if_true]
    exact State.leaves_off rfl

/-! ### The scheduled return and the opcodes (R113, R173, R182, R191) -/

/-- Settles O22: the scheduled return is due in Bank and Smoulder, and `State.wake` leaves them (log entries 44, 45, 49). -/
theorem powerStates : Obligations.PowerStates := by
  unfold Obligations.PowerStates
  refine ⟨?inTime, ?late, ?wakes, ?code, ?first, ?stays, ?status, ?heldRead⟩
  case inTime =>
    rintro dt t s x hx hb hps hat hdue hsoon
    have hdeep : ¬ (x.hearth.ps ≠ .bank ∧ x.hearth.ps ≠ .smoulder) := by tauto
    rw [exec_scheduledReturn, ← hx, State.onBlocks_of hb]
    simp only [State.scheduledReturn, hdeep, hat, Nat.not_lt.mpr hdue, if_false]
    cases hev : x.main.power.event with
    | none => simp
    | some e => simp only [Nat.not_lt.mpr (hsoon e hev), decide_false, Bool.false_eq_true, if_false]
  case late =>
    rintro dt t e s x hx hb hps hat hdue hev hlate
    have hdeep : ¬ (x.hearth.ps ≠ .bank ∧ x.hearth.ps ≠ .smoulder) := by tauto
    rw [exec_scheduledReturn, ← hx, State.onBlocks_of hb]
    simp only [State.scheduledReturn, hdeep, hat, Nat.not_lt.mpr hdue, hev, hlate, decide_true, if_true, if_false]
  case wakes =>
    rintro x n h
    rw [State.wake]
    dsimp only
    rw [if_pos h]
    exact ⟨rfl, rfl, rfl⟩
  case code =>
    intro x n h
    rw [State.firedCode, h]
  case first =>
    intro x n k h
    rw [State.firedCode, h]
    exact if_pos rfl
  case stays =>
    rintro x n h hps
    simp [State.wake, h, hps]
  case status =>
    rintro dt tag k b s x h hx hk hblock
    rw [exec_psStatus, State.command_asked h (by decide), ← hx]
    simp [State.runOpcode, blockOps, opPsStatus, State.draw, hk, hblock]
  case heldRead =>
    rintro dt tag s x h hx
    rw [exec_heldRead, State.command_asked h (by decide), ← hx]
    simp [State.runOpcode, blockOps, opHeldRead, State.replies]

end Sys2Proof.Machine
end

section
/-! PROOFS. Network time (06): its events, the time messages and their corrections, the compare units, and the opcodes of
block NT. -/

namespace Sys2Proof.Machine

/-! ### The events of the counter and of the servo (R202, R209, R219, R220) -/

/-- The boundary of a second that PPS_OUT does not mark leaves it only forgotten (R219, R220). -/
theorem State.ppsRise_unmarked {x : State} {b : Nat} (hat : x.main.nt.boundary = some b)
    (h : x.ppsOn = false ∨ (x.bit 0x02002C 31 = true ∧ x.ntValid = false)
      ∨ x.main.nt.marked.any (fun r => decide (r.1 ≤ b ∧ b ≤ r.2)) = true) :
    x.ppsRise = x.modNt (fun n => { n with boundary := none }) := by
  rw [State.ppsRise, hat]
  refine if_pos ?_
  obtain h | ⟨hgate, hno⟩ | h := h
  · simp [h]
  · simp [hgate, hno]
  · rw [h, Bool.or_true]

/-- Settles O23: each event's function by its branches (log entry 63). -/
theorem networkTimeEvents : Obligations.NetworkTimeEvents := by
  unfold Obligations.NetworkTimeEvents
  refine ⟨?marked, ?unmarked, ?ppsEnd, ?line, ?notice, ?slewEnd, ?miss, ?holdover⟩
  case marked =>
    rintro dt b s x hx hb hat hon hvalid hnew
    have hgo : ¬ (!x.ppsOn || (x.bit 0x02002C 31 && !x.ntValid)
        || x.main.nt.marked.any (fun r => decide (r.1 ≤ b ∧ b ≤ r.2))) = true := by
      rw [hon, hnew]
      obtain h | h := hvalid <;> simp [h]
    rw [exec_secondBoundary, ← hx, State.onBlocks_of hb, State.secondBoundary, hat]
    refine congrArg (fun y : State => s.leaves (y.phaseLatch b)) ?_
    rw [State.ppsRise, hat]
    exact if_neg hgo
  case unmarked =>
    rintro dt b s x hx hb hat hno
    rw [exec_secondBoundary, ← hx, State.onBlocks_of hb, State.secondBoundary, hat]
    exact congrArg (fun y : State => s.leaves (y.phaseLatch b)) (State.ppsRise_unmarked hat hno)
  case ppsEnd =>
    rintro dt s x hx hb hpps hdue
    rw [exec_ppsEnd, ← hx, State.onBlocks_of hb]
    exact congrArg s.leaves (if_pos ⟨hpps, hdue⟩)
  case line =>
    rintro dt sec due mark pre s x hx hb htod hdue hbound
    rw [exec_timeOfDay, ← hx, State.onBlocks_of hb]
    simp only [State.timeOfDay, htod, Nat.not_lt.mpr hdue, hbound, if_false]
  case notice =>
    rintro dt sec due mark pre s x hx hb htod hdue hbound
    rw [exec_timeOfDay, ← hx, State.onBlocks_of hb]
    simp only [State.timeOfDay, htod, Nat.not_lt.mpr hdue, hbound, if_false, if_true]
  case slewEnd =>
    rintro dt s x hx hb hticks
    rw [exec_slewEnd, ← hx, State.onBlocks_of hb]
    simp only [State.slewEnd, State.modNt, hticks, if_true]
  case miss =>
    rintro dt s x hx hb hservo hlate
    rw [exec_servoMissTimeout, ← hx, State.onBlocks_of hb]
    exact congrArg s.leaves (if_pos ⟨hservo, hlate⟩)
  case holdover =>
    rintro dt s x hx hb hservo hlate
    rw [exec_holdoverTimeout, ← hx, State.onBlocks_of hb]
    exact congrArg s.leaves (if_pos ⟨hservo, hlate⟩)

/-! ### Time messages (R203 to R208) -/

/-- A time message at the head of the queue, while the member is awake, is looked at (R203). -/
theorem exec_timeMessage_head {dt sfc : Nat} {m : List Byte} {t : List (Nat × List Byte)} {s x : State} (hx : x = s.at dt)
    (hb : x.blocksRun) (hmsgs : x.main.td.msgs = (sfc, m) :: t) (htype : field m 0 1 = 1) (hawake : x.smouldering = false) :
    exec (.timeMessage dt) s
      = s.leaves ((x.modTd (fun d => { d with msgs := t })).timeMessage sfc ((m.drop 4).take 24)) := by
  rw [exec_timeMessage, ← hx, State.onBlocks_of hb]
  simp [State.takeMessage, hmsgs, htype, hawake]

/-- The lead of a terminal that has not lost its tree takes the messages (R204). -/
theorem State.hears {x : State} {f : TreeDown → TreeDown} (hlead : x.leads = true) (hlost : (f x.main.td).lost = false) :
    ¬ (!(x.modTd f).leads || (x.modTd f).main.td.lost) = true := by
  have hl : (x.modTd f).leads = true := hlead
  simp [hl, hlost]

/-- Settles O24: the checks of `State.timeMessage`, and the first message whose frame has been latched (log entry 62). -/
theorem timeMessages : Obligations.TimeMessages := by
  unfold Obligations.TimeMessages
  refine ⟨?accepted, ?bad, ?late, ?applied, fun _ _ _ => rfl⟩
  case accepted =>
    rintro dt sfc m b t s x y hx hb hmsgs htype hlead hlost hawake rfl rfl hok hpos hnear
    rw [exec_timeMessage_head hx hb hmsgs htype hawake]
    refine congrArg s.leaves ?_
    have hgo : ¬ ((!timeBodyOk ((m.drop 4).take 24)) = true
        ∨ 8191 < sdiff 30 (field ((m.drop 4).take 24) 0 4 % 2 ^ 30) sfc) := by
      rintro (hbad | hfar)
      · simp [hok] at hbad
      · omega
    rw [State.timeMessage, if_neg (State.hears hlead hlost), if_neg hgo, if_neg (Int.not_le.mpr hpos)]
    rfl
  case bad =>
    rintro dt sfc m b t s x y hx hb hmsgs htype hlead hlost hawake rfl rfl hok
    rw [exec_timeMessage_head hx hb hmsgs htype hawake, State.timeMessage, if_neg (State.hears hlead hlost),
      if_pos (Or.inl (by rw [hok]; rfl))]
    rfl
  case late =>
    rintro dt sfc m b t s x y hx hb hmsgs htype hlead hlost hawake rfl rfl hok hneg
    have hgo : ¬ ((!timeBodyOk ((m.drop 4).take 24)) = true
        ∨ 8191 < sdiff 30 (field ((m.drop 4).take 24) 0 4 % 2 ^ 30) sfc) := by
      rintro (hbad | hfar)
      · simp [hok] at hbad
      · omega
    rw [exec_timeMessage_head hx hb hmsgs htype hawake, State.timeMessage, if_neg (State.hears hlead hlost), if_neg hgo,
      if_pos hneg]
    rfl
  case applied =>
    rintro dt m l e s x hx hb hfind hlatch herr
    rw [exec_timeCorrection, ← hx, State.onBlocks_of hb]
    simp only [State.timeCorrection, hfind, hlatch, herr]

/-! ### The compare units (R213, R215 to R218) -/

/-- Settles O25: `State.cmpFire` where the unit is due, and the checks of CMP_ARM and CMP_DISARM. -/
theorem compareUnits : Obligations.CompareUnits := by
  unfold Obligations.CompareUnits
  refine ⟨?fires, ?waits, ?arm, ?disarm⟩
  case fires =>
    rintro dt u c s x y hx hb rfl hdue hrun rfl
    rw [exec_cmpFire, ← hx, State.onBlocks_of hb]
    simp only [State.cmpFire, hdue, hrun, b2n, Bool.not_true, Bool.or_false, Bool.false_eq_true, if_false, Nat.zero_mul, Nat.add_zero]
  case waits =>
    rintro dt u s x hx hb hdue
    rw [exec_cmpFire, ← hx, State.onBlocks_of hb]
    simp [State.cmpFire, hdue]
  case arm =>
    rintro dt tag p c s x h hx hlen hu hmode hact hnot hrel habs hpar rfl
    have hzero : ¬ (field p 1 1 = 0 ∧ field p 6 6 ≠ 0) := fun ⟨h0, hne⟩ => hne (hrel h0)
    have hsec : ¬ (field p 1 1 = 1 ∧ 1000000000 ≤ field p 12 4) := fun ⟨h1, hge⟩ => absurd (habs h1) (by omega)
    rw [exec_cmpArm, State.command_asked h (by decide), ← hx]
    refine congrArg s.leaves ?_
    show opCmpArm _ p x = _
    have hpar' : ∀ m, cmpParamMax (field p 2 1) = some m → ¬ m < field p 4 2 := fun m hmax => Nat.not_lt.mpr (hpar m hmax)
    cases hmax : cmpParamMax (field p 2 1) with
    | none =>
      simp only [opCmpArm, hmax, hlen, hzero, hsec, Nat.not_lt.mpr hu, Nat.not_lt.mpr hmode, Nat.not_lt.mpr hact,
        Nat.not_lt.mpr hnot, decide_false, Bool.or_self, ne_eq, not_true_eq_false, Bool.false_eq_true, if_false]
    | some m =>
      simp only [opCmpArm, hmax, hpar' m hmax, hlen, hzero, hsec, Nat.not_lt.mpr hu, Nat.not_lt.mpr hmode,
        Nat.not_lt.mpr hact, Nat.not_lt.mpr hnot, decide_false, Bool.or_self, ne_eq, not_true_eq_false,
        Bool.false_eq_true, if_false]
  case disarm =>
    rintro dt tag p s x h hx hlen hu harmed
    rw [exec_cmpDisarm, State.command_asked h (by decide), ← hx]
    simp [State.runOpcode, blockOps, opCmpDisarm, hlen, Nat.not_lt.mpr hu, harmed]

/-! ### The opcodes of block NT (R202, R222, R229) -/

/-- NT_SET and NT_ADJUST act with FORCE, or on a lead whose servo is not LOCKED (R222). -/
theorem State.ntRefused_eq_false {x : State} {force : Nat}
    (h : force = 1 ∨ (x.leads = true ∧ x.main.nt.servo ≠ .locked)) : x.ntRefused force = false := by
  obtain h | ⟨hlead, hservo⟩ := h
  · simp [State.ntRefused, h]
  · simp [State.ntRefused, hlead, hservo]

/-- Settles O26: the checks of each opcode, and `State.ntStep` while the servo is LOCKED. -/
theorem networkTimeOpcodes : Obligations.NetworkTimeOpcodes := by
  unfold Obligations.NetworkTimeOpcodes
  refine ⟨?status, ?set, ?adjust, ?refused, ?step⟩
  case status =>
    rintro dt tag s x h hx
    rw [exec_ntStatus, State.command_asked h (by decide), ← hx]
    simp [State.runOpcode, blockOps, opNtStatus, State.replies]
  case set =>
    rintro dt tag p s x h hx hlen hns hforce hmay hnone
    have hgo := State.ntRefused_eq_false hmay
    rw [exec_ntSet, State.command_asked h (by decide), ← hx]
    simp [State.runOpcode, blockOps, opNtSet, hlen, Nat.not_le.mpr hns, Nat.not_lt.mpr hforce, hgo, hnone, State.ntLate,
      State.modNt]
  case adjust =>
    rintro dt tag p s x h hx hlen hoff hforce hmay
    rw [exec_ntAdjust, State.command_asked h (by decide), ← hx]
    simp [State.runOpcode, blockOps, opNtAdjust, hlen, Nat.not_lt.mpr hoff, Nat.not_lt.mpr hforce,
      State.ntRefused_eq_false hmay, State.slew]
  case refused =>
    rintro dt tag p s x h hx hlen hoff hforce hno
    have hrefused : x.ntRefused 0 = true := by
      obtain h | h := hno <;> simp [State.ntRefused, h]
    rw [exec_ntAdjust, State.command_asked h (by decide), ← hx]
    simp [State.runOpcode, blockOps, opNtAdjust, hlen, Nat.not_lt.mpr hoff, hforce, hrefused, State.replies]
  case step =>
    rintro x ns frac delta hservo rfl
    have hfree : (x.main.nt.servo == .free) = false := by rw [hservo]; rfl
    unfold State.ntStep
    simp only [hfree, Bool.false_eq_true, if_false]
    refine ⟨_, ?_, ?_, ?_, ?_, rfl⟩ <;> split <;> rfl

end Sys2Proof.Machine
end

section
/-! PROOFS. The mains angle (07): crossings, lost phases and timeouts, the schedule table, and the relays. -/

namespace Sys2Proof.Machine

/-! ### Crossings (R231, R237, R238) -/

/-- A correction moves the angle; the state of the angle stays. -/
theorem Mains.moveBy_st (m : Mains) (units : Int) : (m.moveBy units).st = m.st := by
  unfold Mains.moveBy Mains.recalc
  dsimp only
  split <;> rfl

theorem State.offsetOf_refPhase {x : State} {p : Nat} (h : p = x.refPhase) : x.offsetOf p = 0 := if_pos h

/-- While no second loop runs, the loop corrects the running angle (R237). -/
theorem State.loopCorrect_running {x : State} (e : Int) (h : x.main.ma.loop = none) :
    x.loopCorrect e = x.modMa (fun m => { m.moveBy (max (-(x.fld 0x030008 31 24 : Int))
        (min (x.fld 0x030008 31 24) (e.tdiv (2 ^ x.fld 0x030008 15 12)))) with
      freq := clampFreq (m.freq + e * x.fld 0x030008 23 16) }) := by
  simp only [State.loopCorrect, h]

/-- In LOCKED, a falling crossing of the reference phase corrects the loop, and its frequency is noted (R237, R243). -/
theorem State.loopCrossing_locked {x : State} {p : Nat} (acts : Acts) (hloop : x.main.ma.loop = none)
    (hst : x.main.ma.st = .locked) (href : p = x.refPhase) :
    x.loopCrossing acts p false = (x.loopCorrect (sdiff 16 0x8000 x.angle)).noteFreq x.main.ma.freq := by
  have hmeas : x.measured = x.angle := by simp only [State.measured, hloop]
  have hst' : (x.loopCorrect (sdiff 16 0x8000 x.angle)).main.ma.st = .locked := by
    rw [State.loopCorrect_running _ hloop]
    exact (Mains.moveBy_st _ _).trans hst
  simp only [State.loopCrossing, State.offsetOf_refPhase href, hmeas, Bool.false_eq_true, if_false, Nat.zero_add, hst']

/-- A phase missed a second time in a row is lost (R238). -/
theorem State.phaseLost_present {x : State} {p : Nat} (h : (x.phase p).present = true) :
    x.phaseLost p = (let y := (((x.modPhase p (fun q => { q with
        present := false, missed := 0, halves := [], lastCross := none, lostAt := some x.now })).notify 0x0303 false
          [byte p, 0#8])).relocate
      if y.main.ma.phases.any (·.present) = true then y
      else if y.main.ma.st = .locked then y.mainsLost
      else if y.main.ma.st = .acquire then y.acquireLost else y) := by
  rw [State.phaseLost, if_neg (by simp [h])]
  dsimp only
  split
  · rfl
  · split <;> simp_all

/-- Settles O27: `State.zeroCrossing`, `State.crossingMissed` and the timeouts by their branches (log entries 66, 67). -/
theorem mainsAngle : Obligations.MainsAngle := by
  unfold Obligations.MainsAngle
  refine ⟨?stray, ?loop, ?missed, ?lost, ?clipped, ?phantom, ?absent, ?status, ?wave⟩
  case stray =>
    rintro dt p peak rising sm s x hx hb hrun hon hpeak hstray
    have hgo : ¬ ((!x.main.ma.running) = true ∨ (!x.phaseOn p) = true ∨ peak ≤ x.fld 0x030004 15 8) := by
      simp [hrun, hon, hpeak]
    have hcount : peak < 64 ∨ ((x.phase p).present = true ∧ x.main.ma.st = .locked
        ∧ (!x.inWindow p rising) = true) := by
      simpa using hstray
    rw [exec_zeroCrossing, ← hx, State.onBlocks_of hb]
    refine congrArg s.leaves ?_
    rw [State.zeroCrossing, if_neg hgo, if_pos hcount]
  case loop =>
    rintro dt p peak sm e s x y hx hb hrun hon hpeak hstrong hpres hst hloop hwin href hlp rfl rfl
    have hgo : ¬ ((!x.main.ma.running) = true ∨ (!x.phaseOn p) = true ∨ peak ≤ x.fld 0x030004 15 8) := by
      simp [hrun, hon, hpeak]
    have hcount : ¬ (peak < 64 ∨ ((x.phase p).present = true ∧ x.main.ma.st = .locked
        ∧ (!x.inWindow p false) = true)) := by
      simp [hwin, hstrong]
    rw [exec_zeroCrossing, ← hx, State.onBlocks_of hb]
    refine congrArg s.leaves ?_
    rw [State.zeroCrossing, if_neg hgo, if_neg hcount]
    simp only [Bool.false_eq_true, if_false, hpres, if_true]
    rw [State.trackedCrossing]
    simp only [Bool.false_and, Bool.false_eq_true, if_false]
    rw [if_pos ⟨hlp, by simp [State.modPhase, State.modMa, hst]⟩,
      State.loopCrossing_locked entryActs (by exact hloop) (by exact hst) (by exact href),
      State.loopCorrect_running _ (by exact hloop)]
    rfl
  case missed =>
    rintro dt p s x hx hb hst hon hpres hlate hfirst
    rw [exec_crossingMissed, ← hx, State.onBlocks_of hb]
    simp [State.crossingMissed, hon, hpres, hst, Int.not_le.mpr hlate, hfirst]
  case lost =>
    rintro dt p s x y hx hb hst hon hpres hlate hsecond rfl
    rw [exec_crossingMissed, ← hx, State.onBlocks_of hb]
    simp only [State.crossingMissed, hon, hpres, hst, Int.not_le.mpr hlate, hsecond, Bool.not_true, Bool.false_eq_true, or_self,
      if_true, if_false]
    exact congrArg s.leaves (State.phaseLost_present hpres)
  case clipped =>
    rintro dt p s x hx hb hrun hon
    rw [exec_phaseClipped, ← hx, State.onBlocks_of hb]
    exact congrArg s.leaves (if_pos ⟨hrun, hon⟩)
  case phantom =>
    rintro dt s x hx hb hst hlate
    rw [exec_phantomTimeout, ← hx, State.onBlocks_of hb]
    exact congrArg s.leaves (if_pos ⟨hst, hlate⟩)
  case absent =>
    rintro dt s x hx hb hrun hst hlate
    rw [exec_absentTimeout, ← hx, State.onBlocks_of hb]
    exact congrArg s.leaves (if_pos ⟨hrun, hst, hlate⟩)
  case status =>
    rintro dt tag s x h hx
    rw [exec_maStatus, State.command_asked h (by decide), ← hx]
    simp [State.runOpcode, blockOps, opMaStatus, State.replies, List.range_succ]
  case wave =>
    rintro dt tag p s x h hx hlen hp
    rw [exec_maWave, State.command_asked h (by decide), ← hx]
    simp [State.runOpcode, blockOps, opMaWave, hlen, Nat.not_lt.mpr hp, State.replies]

/-! ### The schedule table and the relays (R247 to R252, R255, R256) -/

/-- A relay whose drive is enabled, whose coil rests, and whose partners rest, takes a pulse (R252). -/
theorem State.relayPulse_free {x : State} {r : Nat} (hen : x.bit (0x030040 + 4 * r) 0 = true)
    (hlow : x.relayHigh r = false)
    (hothers : ∀ q < 16, q ≠ r → (x.partners r q || x.partners q r) = true → x.relayHigh q = false) :
    x.relayPulse r = some { x with pulses := x.pulses.set r (some (x.now + x.fld (0x030040 + 4 * r) 15 8 * msT)) } := by
  refine if_neg ?_
  rw [hen, hlow]
  simpa using hothers

/-- MA_ARM arms the entry that its operand names (R247). -/
theorem opMaArm_entry {op n : Nat} (hn : n < 512) (x : State) : opMaArm op (be 2 n) x = x.armEntry n (some op) := by
  have hf : field (be 2 n) 0 2 = n := by
    have := field_be 2 n []
    rw [List.append_nil] at this
    omega
  simp [opMaArm, hf, Nat.not_lt.mpr (Nat.le_of_lt_succ hn)]

/-- Settles O28: `State.entryFire`, `State.entDone`, `State.armEntry` and `State.pulseIssue` by their branches (log entries 68,
69, 137). -/
theorem schedule : Obligations.Schedule := by
  unfold Obligations.Schedule
  refine ⟨?fires, ?invalid, ?done, ?pulseEnd, ?pulseRuns, ?write, ?arm, ?armAgain, ?pulseAt, ?pulseNow⟩
  case fires =>
    rintro dt n i c0 c1 r s x hx hb hn hissue hreach hlocal hst hcfg hact rfl hquar hen hlow hothers
    rw [exec_entryFire, ← hx, State.onBlocks_of hb]
    refine congrArg s.leaves ?_
    simp only [State.entryFire, Nat.not_le.mpr hn, hissue, hreach, hlocal, State.entAllowed, Mains.angleValid, hst, State.entFire, hcfg,
      State.entAct, hact, hquar, State.relayPulse_free hen hlow hothers, Bool.not_true, Bool.and_self, Bool.false_eq_true, if_false, if_true]
  case invalid =>
    rintro dt n i s x hx hb hn hissue hreach hvalid
    rw [exec_entryFire, ← hx, State.onBlocks_of hb]
    simp [State.entryFire, Nat.not_le.mpr hn, hissue, hreach, hvalid]
  case done =>
    rintro x n c c1 hcontact hcfg htag hextra hper hquiet
    have h1 : bitOf 0 1 = false := rfl
    have h2 : bitOf 0 2 = false := rfl
    simp [State.entDone, hcfg, htag, hextra, hper, hquiet, hcontact, h1, h2, State.finish?]
  case pulseEnd =>
    rintro dt r t s x hx hat hdue
    have hlow : ¬ x.relayHigh r = true := by simp [State.relayHigh, hat, Nat.not_lt.mpr hdue]
    rw [exec_relayPulseEnd, ← hx]
    exact congrArg s.leaves (if_neg hlow)
  case pulseRuns =>
    rintro dt r t s x hx hat hsoon
    have hhigh : x.relayHigh r = true := by simp [State.relayHigh, hat, hsoon]
    refine ⟨hhigh, ?_⟩
    rw [exec_relayPulseEnd, ← hx]
    exact congrArg s.leaves (if_pos hhigh)
  case write =>
    rintro dt n cfg v s x hx hb hn hcfg
    rw [exec_entryWrite, ← hx, State.onBlocks_of hb]
    exact congrArg s.leaves (if_pos ⟨hn, hcfg⟩)
  case arm =>
    rintro dt n tag s x h hx hn hen hidle hnone
    rw [exec_maArm, State.command_asked h (by decide), ← hx]
    refine congrArg s.leaves ((opMaArm_entry hn x).trans ?_)
    rw [State.armEntry, if_neg (by simp [hen, hidle]), if_neg (by simp [hnone])]
  case armAgain =>
    rintro dt n tag s x h hx hn hen hidle hsome hvalid hother
    rw [exec_maArm, State.command_asked h (by decide), ← hx]
    refine congrArg s.leaves ((opMaArm_entry hn x).trans ?_)
    rw [State.armEntry, if_neg (by simp [hen, hidle]), if_pos ⟨hvalid, hsome, hother⟩]
  case pulseAt =>
    rintro dt r ph ang tag p s x h hx hp hr hph hang hvalid hidle
    have hr' : (byte r).toNat = r := by simp [byte]; omega
    have hph' : (byte ph).toNat = ph := by simp [byte]; omega
    have f0 : field p 0 1 = r := by rw [hp]; exact (field_byte _ _).trans hr'
    have f1 : field p 1 1 = 1 := by rw [hp]; rfl
    have f2 : field p 2 1 = ph := by rw [hp]; exact (field_byte _ _).trans hph'
    have f3 : field p 3 1 = 0 := by rw [hp]; rfl
    have f4 : field p 4 2 = ang := by
      have := field_be 2 ang []
      rw [List.append_nil] at this
      rw [hp]
      exact this.trans (by omega)
    have hlen : p.length = 6 := by simp [hp]
    rw [exec_maPulse, State.command_asked h (by decide), ← hx]
    refine congrArg s.leaves ?_
    show opMaPulse _ p x = _
    simp [opMaPulse, hlen, f0, f1, f2, f3, f4, Nat.not_lt.mpr (Nat.le_of_lt_succ hr), Nat.not_lt.mpr (Nat.le_of_lt_succ hph), hvalid, hidle]
  case pulseNow =>
    rintro dt r tag p s x y h hx hp hr hquar hidle hy
    have hr' : (byte r).toNat = r := by simp [byte]; omega
    have f0 : field p 0 1 = r := by rw [hp]; exact (field_byte _ _).trans hr'
    have f1 : field p 1 1 = 0 := by rw [hp]; rfl
    have f2 : field p 2 1 = 0 := by rw [hp]; rfl
    have f3 : field p 3 1 = 0 := by rw [hp]; rfl
    have hlen : p.length = 6 := by simp [hp]
    rw [exec_maPulse, State.command_asked h (by decide), ← hx]
    have hop : opMaPulse x.lastOp p x = x.pulseIssue r x.lastOp := by
      simp [opMaPulse, hlen, f0, f1, f2, f3, Nat.not_lt.mpr (Nat.le_of_lt_succ hr), hidle]
    refine (congrArg s.leaves hop).trans ?_
    rw [State.pulseIssue, if_neg (by simp [hquar]), ← hy]
    cases y.relayPulse r <;> rfl

end Sys2Proof.Machine
end

section
/-! PROOFS. What a notice or a message changes (03, 19): the command port, the queues it waits in, the ash log's buffer and two
counters, and nothing else. -/

namespace Sys2Proof.Machine

/-! ### A register that has been written reads on, whatever another write does -/

/-- A register that is not at its reset value stands in the file, and a write to another register leaves it there. -/
theorem RegFile.get_set_kept (r : RegFile) {a b : Nat} (v : Nat) (hab : a ≠ b) (h : RegFile.get r a ≠ regReset a) :
    RegFile.get (RegFile.set r b v) a = RegFile.get r a := by
  induction r with
  | nil => exact absurd rfl h
  | cons p t ih =>
    obtain ⟨c, w⟩ := p
    rw [RegFile.get] at h
    by_cases hca : c = a
    · subst hca
      by_cases hcb : c < b
      · simp [RegFile.set, RegFile.get, hcb]
      · have hlt : b < c := by omega
        by_cases hv : v = regReset b
        · simp [RegFile.set, RegFile.get, hcb, hab, hv]
        · simp [RegFile.set, RegFile.get, hcb, hab, hv, Ne.symm hab, hlt]
    · rw [if_neg hca] at h
      have hlt : c < a := by
        by_contra hge
        exact h (if_neg hge)
      rw [if_pos hlt] at h
      by_cases hcb : c < b
      · simp [RegFile.set, RegFile.get, hcb, hca, hlt, ih h]
      · by_cases heq : c = b
        · subst heq
          by_cases hv : v = regReset c
          · simp [RegFile.set, RegFile.get, hca, hlt, hv]
          · simp [RegFile.set, RegFile.get, hca, hlt, hv]
        · by_cases hv : v = regReset b
          · simp [RegFile.set, RegFile.get, hcb, heq, hv]
          · have hba : b < a := by omega
            simp [RegFile.set, RegFile.get, hcb, heq, hv, hba, Ne.symm hab]

theorem State.word_setWord_kept {x : State} {a b : Nat} (v : Nat) (hab : a ≠ b) (h : x.word a ≠ regReset a) :
    (x.setWord b v).word a = x.word a := RegFile.get_set_kept x.regs v hab h

theorem State.word_countN_kept {x : State} {a b : Nat} (hi lo n : Nat) (hab : a ≠ b) (h : x.word a ≠ regReset a) :
    (x.countN b hi lo n).word a = x.word a := State.word_setWord_kept _ hab h

/-! ### The frame of a notice or a message -/

/-- `t` is `s` after notices or messages: the command port, the ash log's buffer, the upstream queues, what the stack holds, and
the links' queues may differ, and the two counters of what was lost. -/
def Posted (s t : State) : Prop :=
  ∃ (c : Cmd) (al : Ash) (q : List UpQueue) (held : List StMsg) (links : List Link) (regs : RegFile) (cyc : List Cycle),
    t = { s with
      regs := regs
      cycle := cyc
      main := { s.main with
        cmd := c
        ash := al
        up := { s.main.up with queues := q }
        sk := { s.main.sk with held := held }
        st := { s.main.st with links := links } } }
    ∧ ∀ a, a ≠ 0x000018 → a ≠ 0x110014 → s.word a ≠ regReset a → RegFile.get regs a = s.word a

theorem Posted.refl (s : State) : Posted s s := ⟨_, _, _, _, _, _, _, rfl, fun _ _ _ _ => rfl⟩

theorem Posted.trans {s t u : State} (h : Posted s t) (g : Posted t u) : Posted s u := by
  obtain ⟨c, al, q, held, links, regs, cyc, rfl, hregs⟩ := h
  obtain ⟨c', al', q', held', links', regs', cyc', rfl, hregs'⟩ := g
  refine ⟨c', al', q', held', links', regs', cyc', rfl, fun a h1 h2 hne => ?_⟩
  have hget := hregs a h1 h2 hne
  exact (hregs' a h1 h2 (by rw [State.word, hget]; exact hne)).trans hget

theorem Posted.modCmd (s : State) (f : Cmd → Cmd) : Posted s (s.modCmd f) :=
  ⟨_, _, _, _, _, _, _, rfl, fun _ _ _ _ => rfl⟩

theorem Posted.countN (s : State) {b : Nat} (hi lo n : Nat) (hb : b = 0x000018 ∨ b = 0x110014) :
    Posted s (s.countN b hi lo n) := by
  refine ⟨_, _, _, _, _, _, _, rfl, fun a h1 h2 hne => State.word_countN_kept hi lo n ?_ hne⟩
  obtain rfl | rfl := hb
  · exact h1
  · exact h2

theorem Posted.ashGroup (s : State) (source : Nat) (bodies : List (List Byte)) : Posted s (s.ashGroup source bodies) := by
  have hbuf : ∀ (t : State) (a : Ash), Posted s t → Posted s { t with main := { t.main with ash := a } } := by
    intro t a h
    exact h.trans ⟨_, _, _, _, _, _, _, rfl, fun _ _ _ _ => rfl⟩
  unfold State.ashGroup
  dsimp only
  refine hbuf _ _ ?_
  split
  · exact Posted.refl s
  · exact Posted.countN s 31 16 _ (.inr rfl)

theorem Posted.ash (s : State) (source kind : Nat) (d : List Byte) : Posted s (s.ash source kind d) :=
  Posted.ashGroup s source _

theorem Posted.storeNotice (s : State) (r : Raised) (lost : Option Nat) : Posted s (s.storeNotice r lost) := by
  unfold State.storeNotice
  exact Posted.modCmd s _

theorem Posted.noticeLost (s : State) (source : Nat) : Posted s (s.noticeLost source) :=
  (Posted.modCmd s _).trans (Posted.countN _ 31 0 1 (.inl rfl))

theorem Posted.defer (s : State) (r : Raised) : Posted s (s.defer r) := by
  unfold State.defer
  split
  · exact Posted.modCmd s _
  · exact (Posted.modCmd s _).trans (Posted.ash _ _ _ _)

theorem Posted.takePlace (s : State) (r : Raised) : Posted s (s.takePlace r) := by
  unfold State.takePlace
  dsimp only
  split
  · exact Posted.storeNotice s r none
  · split
    · exact ((Posted.modCmd s _).trans (Posted.noticeLost _ _)).trans (Posted.storeNotice _ r none)
    · split
      · exact ((Posted.modCmd s _).trans (Posted.noticeLost _ _)).trans (Posted.storeNotice _ r none)
      · split
        · exact Posted.defer s r
        · exact Posted.noticeLost s _

theorem Posted.pushOut (s : State) (p : OutPkt) : Posted s (s.pushOut p) := by
  unfold State.pushOut
  split
  · exact ⟨_, _, _, _, _, _, _, rfl, fun _ _ _ _ => rfl⟩
  · exact Posted.modCmd s _

theorem Posted.placeReply (s : State) (p : OutPkt) : Posted s (s.placeReply p) := by
  unfold State.placeReply
  dsimp only
  split
  · exact (Posted.pushOut s p).trans (Posted.modCmd _ _)
  · exact Posted.pushOut s p

theorem Posted.promote {s t : State} (h : s.promote = some t) : Posted s t := by
  unfold State.promote at h
  split at h
  · split at h
    · cases h
      exact (Posted.modCmd s _).trans (Posted.storeNotice _ _ _)
    · cases h
  · cases h

theorem Posted.pumpOnce {s t : State} (h : s.pumpOnce = some t) : Posted s t := by
  unfold State.pumpOnce at h
  dsimp only at h
  split at h
  next s1 hs =>
    cases h
    exact Posted.promote hs
  next =>
    split at h
    · cases h
    · split at h
      · split at h
        · cases h
          exact (Posted.modCmd s _).trans (Posted.placeReply _ _)
        · cases h
      · split at h
        · split at h
          · cases h
            exact (Posted.modCmd s _).trans (Posted.pushOut _ _)
          · cases h
        · cases h

theorem Posted.pump (k : Nat) (s : State) : Posted s (s.pump k) := by
  induction k generalizing s with
  | zero => exact Posted.refl s
  | succ k ih =>
    unfold State.pump
    split
    next s' hs => exact (Posted.pumpOnce hs).trans (ih s')
    next => exact Posted.refl s

theorem Posted.offer {s t : State} {m : StMsg} (h : s.offer m = some t) : Posted s t := by
  unfold State.offer State.offerOn at h
  split at h
  · cases h
  · dsimp only at h
    split at h
    · cases h
    · split at h
      · cases h
        exact ⟨_, _, _, _, _, _, _, rfl, fun _ _ _ _ => rfl⟩
      · cases h

theorem Posted.sendMsg (s : State) (cls dest type aux : Nat) (body : List Byte) :
    Posted s (s.sendMsg cls dest type aux body) := by
  have hheld : ∀ l : List StMsg, Posted s { s with main := { s.main with sk := { s.main.sk with held := l } } } :=
    fun l => ⟨_, _, _, _, _, _, _, rfl, fun _ _ _ _ => rfl⟩
  unfold State.sendMsg
  dsimp only
  split
  · split
    · exact Posted.refl s
    · exact hheld _
  · split
    next t ht => exact Posted.offer ht
    next =>
      split
      · exact Posted.refl s
      · exact hheld _

theorem Posted.raise (s : State) (r : Raised) : Posted s (s.raise r) := by
  unfold State.raise
  split
  · exact Posted.refl s
  · split
    · exact Posted.refl s
    · split
      · exact Posted.sendMsg s _ _ _ _ _
      · split
        · exact Posted.modCmd s _
        · exact (Posted.takePlace s r).trans (Posted.pump _ _)

theorem Posted.notify (s : State) (code : Nat) (alarm : Bool) (contents : List Byte) :
    Posted s (s.notify code alarm contents) := Posted.raise s _

/-- A register other than the two counters, that is not at its reset value, reads on. -/
theorem Posted.word {s t : State} (h : Posted s t) {a : Nat} (h1 : a ≠ 0x000018) (h2 : a ≠ 0x110014)
    (hne : s.word a ≠ regReset a) : t.word a = s.word a := by
  obtain ⟨c, al, q, held, links, regs, cyc, rfl, hregs⟩ := h
  exact hregs a h1 h2 hne

theorem Posted.ln {s t : State} (h : Posted s t) : t.main.ln = s.main.ln := by
  obtain ⟨c, al, q, held, links, regs, cyc, rfl, hregs⟩ := h
  rfl

theorem Posted.td {s t : State} (h : Posted s t) : t.main.td = s.main.td := by
  obtain ⟨c, al, q, held, links, regs, cyc, rfl, hregs⟩ := h
  rfl

end Sys2Proof.Machine
end

section
/-! PROOFS. Serial lanes (08): signal and lock, the sparing of Strait lanes, and eye margins. -/

namespace Sys2Proof.Machine

/-! ### A lane after a change -/

/-- What a change of a lane leaves of it, the change leaves of the lane that is read. -/
theorem State.modLane_lane_kept {α : Type} (x : State) (n : Nat) (f : Lane → Lane) (g : Lane → α)
    (h : ∀ l, g (f l) = g l) : g ((x.modLane n f).lane n) = g (x.lane n) := by
  unfold State.lane State.modLane at?
  simp only [List.getD_eq_getElem?_getD, List.getElem?_modify]
  cases x.main.ln.lanes[n]? with
  | none => rfl
  | some l => simpa using h l

/-- A lane that there is reads as it was changed. -/
theorem State.modLane_lane (x : State) {n : Nat} (f : Lane → Lane) (h : n < x.main.ln.lanes.length) :
    (x.modLane n f).lane n = f (x.lane n) := by
  unfold State.lane State.modLane at?
  simp [h]

/-- The lanes of the trees belong to no link. -/
theorem linkOfLane_tree {n : Nat} (h : n < 2) : linkOfLane n = none := if_neg (by omega)

theorem State.laneFailed_tree {n : Nat} (h : n < 2) (x : State) (hard force : Bool) (op : Option Nat) :
    x.laneFailed n hard force op = x := by
  rw [State.laneFailed, linkOfLane_tree h]

/-! ### Signal and lock (R263 to R265, R281, R287) -/

/-- LOS on a lane that has not declared LOL in this window: its notice says whether LOL comes with it (R265, R281). -/
theorem State.losNow_alone {x : State} {n : Nat} {lol : Bool} (hnew : (x.lane n).lolNew = false)
    (hlol : (x.lane n).lol = lol) :
    x.losNow n = ((((x.count (lnErr n) 15 8).latchFld (lnStat n) 5 5 1).lolDeclared n).losNotice n
      (if lol then 1 else 3)).laneFailed n true false none := by
  simp only [State.losNow, hnew, hlol, Bool.false_eq_true, if_false]

/-- A lane that is on has a configuration that has been written: EN is 0 after reset. -/
theorem State.laneOn_written {x : State} {n : Nat} (h : x.laneOn n = true) :
    x.word (lnCfg n) ≠ regReset (lnCfg n) := by
  simp only [State.laneOn, Bool.and_eq_true, decide_eq_true_eq] at h
  obtain ⟨⟨⟨hn, hen⟩, -⟩, -⟩ := h
  intro hreset
  have hoff : bitOf (regReset (lnCfg n)) 31 = false := by interval_cases n <;> decide
  rw [State.bit, hreset, hoff] at hen
  exact Bool.false_ne_true hen

theorem State.pllFollow_free {x : State} (h : x.main.ln.pllHold = false) : x.pllFollow = x := by
  simp [State.pllFollow, h]

/-- A lane with a fixed equaliser locks: LN_LOS says so where LOL was declared (R265). -/
theorem State.lockNow_fixed {x : State} {n : Nat} (hlol : (x.lane n).lol = true) (heq : x.fld (lnCfg n) 30 29 = 0)
    (hhold : x.main.ln.pllHold = false) :
    x.lockNow n = (x.modLane n (fun l => { l with lol := false, locked := true, cleanSince := some x.now })).losNotice
      n 6 := by
  have hne : ¬ (n = 8 ∧ x.fld (lnCfg n) 30 29 = 1) := by simp [heq]
  have hln := (Posted.notify (x.modLane n (fun l => { l with lol := false, locked := true, cleanSince := some x.now }))
    0x0401 false [byte n, byte 6]).ln
  simp only [State.lockNow, hlol, hne, if_true, if_false]
  exact State.pllFollow_free (by rw [State.losNotice, hln]; exact hhold)

/-- An equaliser that does not adapt stays. -/
theorem State.adapt_fixed {x : State} {n : Nat} (heq : x.fld (lnCfg n) 30 29 = 0) : x.adapt n = x := by
  simp [State.adapt, heq]

/-- Settles O29: each event's function by its branches (log entries 39, 43, 121). -/
theorem laneSignal : Obligations.LaneSignal := by
  unfold Obligations.LaneSignal
  refine ⟨?los, ?sdLow, ?lol, ?cleared, ?sdCleared, ?locks, ?leaves, ?rogue, ?pll, ?follows, ?release, ?early, ?dark⟩
  case los =>
    rintro dt n s x y hx hb hon hdet hsd hlol hnew rfl
    have hgo : ¬ ((!x.laneOn n) = true ∨ (x.lane n).det = true) := by simp [hon, hdet]
    have hnew' := (State.modLane_lane_kept x n (fun l => { l with det := true }) (·.lolNew) (fun _ => rfl)).trans hnew
    have hlol' := (State.modLane_lane_kept x n (fun l => { l with det := true }) (·.lol) (fun _ => rfl)).trans hlol
    rw [exec_losDeclared, ← hx, State.onBlocks_of hb]
    refine congrArg (fun z : State => s.leaves z.treeFollow) ?_
    simp only [State.losDeclared, hgo, hsd, Bool.false_eq_true, if_false]
    rw [State.losNow_alone hnew' hlol']
    simp only [State.losNotice, Bool.false_eq_true, if_false]
  case sdLow =>
    rintro dt n s x y hx hb hn hon hdet hsd hlol hnew rfl
    have hgo : ¬ (2 ≤ n ∨ (x.lane n).sdLow = true) := by simp [Nat.not_le.mpr hn, hsd]
    have hnew' := (State.modLane_lane_kept x n (fun l => { l with sdLow := true }) (·.lolNew) (fun _ => rfl)).trans hnew
    have hlol' := (State.modLane_lane_kept x n (fun l => { l with sdLow := true }) (·.lol) (fun _ => rfl)).trans hlol
    rw [exec_losDeclared, ← hx, State.onBlocks_of hb]
    refine congrArg (fun z : State => s.leaves z.treeFollow) ?_
    simp only [State.losDeclared, hgo, hon, hdet, Bool.not_false, and_self, if_true, if_false]
    rw [State.losNow_alone hnew' hlol', State.laneFailed_tree hn]
    simp only [State.losNotice, if_true]
  case lol =>
    intro n x hlol
    rw [State.lolDeclared]
    simp only [hlol, Bool.false_eq_true, if_false]
    rfl
  case cleared =>
    rintro dt n s x y hx hb hon hdet hsd hn rfl
    have hwas : (x.lane n).los = true := by simp [Lane.los, hdet]
    have hnow : ((x.modLane n (fun l => { l with det := false })).lane n).los = false := by
      rw [State.modLane_lane x _ hn]
      simp [Lane.los, hsd]
    rw [exec_losCleared, ← hx, State.onBlocks_of hb]
    refine congrArg s.leaves ?_
    simp only [State.losCleared, hwas, hnow, hon, Bool.not_true, Bool.false_eq_true, or_self, if_false]
    rfl
  case sdCleared =>
    rintro dt n s x hx hb hdet hsd hn
    have hnow : ((x.modLane n (fun l => { l with sdLow := false })).lane n).los = true := by
      rw [State.modLane_lane x _ hn]
      simp [Lane.los, hdet]
    rw [exec_losCleared, ← hx, State.onBlocks_of hb]
    refine congrArg s.leaves ?_
    simp only [State.losCleared, hnow, if_true, true_or, or_true]
  case locks =>
    rintro dt n off s x y hx hb hon hlos hlol hlock hgood hlow hhigh heq hhold hy
    have hfoff : max (-32768) (min 32767 off) = off := by omega
    have hword : y.word (lnCfg n) = x.word (lnCfg n) := by
      rw [hy]
      exact State.word_countN_kept _ _ _ (by unfold lnCfg lnErr; omega) (State.laneOn_written hon)
    have hlol' : ((y.modLane n (fun l => { l with good := l.good + 1 })).lane n).lol = true := by
      refine (State.modLane_lane_kept y n (fun l => { l with good := l.good + 1 }) (·.lol) (fun _ => rfl)).trans ?_
      rw [hy]
      exact (State.modLane_lane_kept x n (fun l => { l with foff := off, lolNew := false }) (·.lol) (fun _ => rfl)).trans
        hlol
    have hnow : y.now = x.now := by rw [hy]; rfl
    have hin : ¬ (false || decide (5000 < off) || decide (off < -5000)) = true := by simp; omega
    rw [exec_lockWindowEnd, ← hx, State.onBlocks_of hb]
    refine congrArg (fun z : State => s.leaves z.treeFollow) ?_
    simp only [State.lockWindow, hon, hlos, hfoff, hin, hlow, hhigh, hlock, hgood, and_self, Bool.not_true, Bool.not_false,
      Bool.false_eq_true, if_false, if_true]
    rw [← hy, State.lockNow_fixed hlol' ((congrArg (fun w => bits w 30 29) hword).trans heq) (by rw [hy]; exact hhold)]
    have hpost := Posted.notify ((y.modLane n (fun l => { l with good := l.good + 1 })).modLane n
      (fun l => { l with lol := false, locked := true, cleanSince := some y.now })) 0x0401 false [byte n, byte 6]
    have hkept := hpost.word (a := lnCfg n) (by unfold lnCfg; omega) (by unfold lnCfg; omega)
      (hword.trans_ne (State.laneOn_written hon))
    rw [State.losNotice, State.modLane_now,
      State.adapt_fixed ((congrArg (fun w => bits w 30 29) (hkept.trans hword)).trans heq), hnow]
  case leaves =>
    rintro dt n cv off s x y hx hb hon hlos hoff hmax hcv rfl hlol
    have hfoff : max (-32768) (min 32767 off) = off := by omega
    rw [exec_lockWindowEnd, ← hx, State.onBlocks_of hb]
    refine congrArg (fun z : State => s.leaves z.treeFollow) ?_
    simp only [State.lockWindow, hon, hlos, hlol, hoff, hfoff, Nat.ne_of_gt hcv, decide_true, Bool.or_true, Bool.true_or, Bool.not_true,
      Bool.false_eq_true, if_false, if_true]
    rfl
  case rogue =>
    rintro dt n cause s x y hx hb hn hburst hlatch rfl
    rw [exec_rogue, ← hx, State.onBlocks_of hb]
    have hgo : ¬ (2 ≤ n ∨ (!x.main.out) = true ∨ x.inBurst n = true) := by
      simp [Nat.not_le.mpr hn, hb.1.1, hburst]
    refine congrArg s.leaves ?_
    rw [State.rogue, if_neg hgo]
    exact if_neg (by simp [State.rogueLatched, hlatch])
  case pll =>
    rintro dt lanes ls s x y hx hb rfl hne rfl
    rw [exec_pllUnlock, ← hx, State.onBlocks_of hb]
    exact congrArg (fun z : State => s.leaves z.treeFollow) (if_neg hne)
  case follows =>
    intro x hhold
    cases hlock : x.laneLocked x.main.td.active <;> simp [State.pllFollow, hhold, hlock]
  case release =>
    rintro dt tag p s x h hx hlen hn hago
    rw [exec_lnTxRelease, State.command_asked h (by decide), ← hx]
    refine congrArg s.leaves ?_
    show opLnTxRelease _ p x = _
    cases hrogue : (x.lane (field p 0 1)).rogueAt with
    | none => simp [opLnTxRelease, hlen, Nat.not_lt.mpr hn, hrogue]
    | some t => simp [opLnTxRelease, hlen, Nat.not_lt.mpr hn, hrogue, Nat.not_lt.mpr (hago t hrogue)]
  case early =>
    rintro dt tag p t s x h hx hlen hn hat hsoon
    rw [exec_lnTxRelease, State.command_asked h (by decide), ← hx]
    refine congrArg s.leaves ?_
    show opLnTxRelease _ p x = _
    simp [opLnTxRelease, hlen, Nat.not_lt.mpr hn, hat, hsoon]
  case dark =>
    intro n s hn hrails hdark
    have hlight : s.mayLight n = false := by
      unfold State.mayLight State.rogueLatched
      obtain ⟨hact, hcur⟩ | h | h | h | h | h := hdark
      · have hnone : s.main.up.current.any (fun b => b.lane == n) = false := by
          cases hc : s.main.up.current with
          | none => rfl
          | some b => simpa using hcur b hc
        simp [Ne.symm hact, hnone]
      all_goals simp [h]
    simp only [State.txDis, State.outPin, hrails, hlight, Level.ofBool, Bool.not_true, Bool.not_false, Bool.false_eq_true,
      if_false, if_true]
    split <;> rfl

/-! ### Sparing and eye margins (R272 to R279) -/

/-- What a change of a link's swap leaves of it, the change leaves of the swap that is read. -/
theorem State.modSwap_swap_kept {α : Type} (x : State) (k : Nat) (f : Swap → Swap) (g : Swap → α)
    (h : ∀ w, g (f w) = g w) : g ((x.modSwap k f).swap k) = g (x.swap k) := by
  unfold State.swap State.modSwap at?
  simp only [List.getD_eq_getElem?_getD, List.getElem?_modify]
  cases x.main.ln.swaps[k]? with
  | none => rfl
  | some w => simpa using h w

/-- The event of a spare changes no lane. -/
theorem Posted.spareEvent (x : State) (k dir pos kind map : Nat) : Posted x (x.spareEvent k dir pos kind map) :=
  (Posted.ash x _ _ _).trans (Posted.notify _ _ _ _)

/-- A transmitter that accepts a request asks for nothing itself. -/
theorem State.acceptSwap_rx (x : State) (k pos : Nat) : ((x.acceptSwap k pos).swap k).rx = (x.swap k).rx := by
  unfold State.acceptSwap
  dsimp only
  rw [State.swap, (Posted.spareEvent _ _ _ _ _ _).ln]
  exact State.modSwap_swap_kept (x.setMap k (x.rxMap k) (swapMap (x.txMap k) pos)) k
    (fun w => { w with accepted := true }) (·.rx) (fun _ => rfl)

/-- CTRL of a marker that asks for a position on the spare (Table LN-3). -/
theorem ctrl_request {pos : Nat} (h : pos < 2) : bits (8 + 2 * pos) 2 1 = pos ∧ bitOf (8 + 2 * pos) 3 = true := by
  interval_cases pos <;> decide

/-- A marker that arrives on an enabled lane within the skew is read (R272). -/
theorem exec_laneMarker_read {dt k i skew id ctrl : Nat} {symbols : List Nat} {s x : State} (hx : x = s.at dt)
    (hb : x.blocksRun) (hk : k < 2) (hi : i < 3) (hskew : skew ≤ 64) (hon : x.laneOn (laneOf k i) = true)
    (hmark : markerOf symbols = some (id, ctrl)) :
    exec (.laneMarker dt k i skew symbols) s = s.leaves (match ((x.sawRequest k i ctrl).swap k).rx with
      | some (p, op) => if id = p ∧ i = mapLane ((x.sawRequest k i ctrl).rxMap k) 2
          then (x.sawRequest k i ctrl).resteer k p op else x.sawRequest k i ctrl
      | none => x.sawRequest k i ctrl) := by
  have hgo : ¬ (2 ≤ k ∨ 3 ≤ i ∨ 64 < skew ∨ (!x.laneOn (laneOf k i)) = true) := by
    simp only [hon, Bool.not_true, Bool.false_eq_true, or_false]
    omega
  rw [exec_laneMarker, ← hx, State.onBlocks_of hb]
  refine congrArg s.leaves ?_
  refine (if_neg hgo).trans ?_
  generalize markerOf symbols = r at hmark ⊢
  subst hmark
  rfl

/-- Settles O30: the branches of `State.laneFail`, `State.laneFailed`, `State.laneMarker` and `State.eyeDone` (log entries 40,
41, 42, 138, 139). -/
theorem laneSparing : Obligations.LaneSparing := by
  unfold Obligations.LaneSparing
  refine ⟨?fails, ?training, ?asks, ?asked, ?marker, ?sends, ?accepts, ?arrives, ?requalify, ?periodic, ?answers, ?low,
    ?lowActive, ?report, ?eye, ?force⟩
  case fails =>
    rintro dt n cv s x hx hb hon hen htrain hcv
    rw [exec_laneFail, ← hx, State.onBlocks_of hb]
    cases hlink : linkOfLane n with
    | none => simp [State.laneFail, hlink, hon, hen, hcv]
    | some ki =>
      have hst := htrain ki.1 ki.2 hlink
      simp [State.laneFail, hlink, hon, hen, hcv, hst]
  case training =>
    rintro dt n cv k i s x hx hb hon hlink htrain hcv
    rw [exec_laneFail, ← hx, State.onBlocks_of hb]
    simp [State.laneFail, hlink, hon, htrain, Nat.ne_of_gt hcv]
  case asks =>
    rintro x n k i hard force op hlink hrole hrx hspare hen
    simp only [State.laneFailed, hlink, hrx, Nat.not_le.mpr hrole, hspare, hen, and_self, if_true, if_false]
  case asked =>
    rintro x n k i pos hard force op o hlink hrole hrx
    simp only [State.laneFailed, hlink, hrx, hrole, true_or, if_true]
  case marker =>
    rintro id ctrl hid hctrl heven
    simp [markerOf, k28_5, k28_0, hid, hctrl, heven]
  case sends =>
    rintro x k i pos op hrx
    simp [State.marker, hrx, k28_5, k28_0]
  case accepts =>
    rintro dt k i skew pos id symbols s x y hx hb hk hi hskew hon hmark hpos hrx hagain hsame hnew hy
    obtain ⟨hbits, hbit⟩ := ctrl_request hpos
    have hsaw : x.sawRequest k i (8 + 2 * pos) = y.acceptSwap k pos := by
      rw [hy]
      simp only [State.sawRequest, hbits, hbit, hpos, hsame, hnew, and_self, if_true, Bool.not_false,
        Nat.add_le_add_right hagain 1]
    have hrx' : ((y.acceptSwap k pos).swap k).rx = none := by
      rw [State.acceptSwap_rx, hy]
      refine (State.modSwap_swap_kept x k _ (·.rx) ?_).trans hrx
      exact fun _ => rfl
    rw [exec_laneMarker_read hx hb hk hi hskew hon hmark, hsaw, hrx']
  case arrives =>
    rintro dt k i skew pos op symbols s x y hx hb hk hi hskew hon hmark hpos hrx hlane hy
    have hsaw : x.sawRequest k i 0 = y := by
      rw [hy]
      rfl
    have hrx' : (y.swap k).rx = some (pos, op) := by
      rw [hy]
      refine (State.modSwap_swap_kept x k _ (·.rx) ?_).trans hrx
      exact fun _ => rfl
    have hlane' : i = mapLane (y.rxMap k) 2 := by
      rw [hy]
      exact hlane
    rw [exec_laneMarker_read hx hb hk hi hskew hon hmark, hsaw, hrx']
    exact congrArg s.leaves (if_pos ⟨rfl, hlane'⟩)
  case requalify =>
    rintro dt n k i t s x hx hb hlink hclean hlock hrole hrx hlate
    rw [exec_laneRequalify, ← hx, State.onBlocks_of hb]
    simp only [State.laneRequalify, hlink, hclean, hlock, hrole, hrx, hlate, and_self, if_true]
  case periodic =>
    rintro dt s x y hx hb hper hlate rfl
    have hgo : ¬ ((!x.main.out) = true ∨ x.fld 0x040008 15 8 = 0
        ∨ x.now < x.main.ln.eyeAt + x.fld 0x040008 15 8 * 60 * secT) := by
      simp [hb.1.1, hper, Nat.not_lt.mpr hlate]
    rw [exec_eyePeriodic, ← hx, State.onBlocks_of hb]
    refine congrArg s.leaves ?_
    rw [State.eyePeriodic]
    exact if_neg hgo
  case answers =>
    rintro dt n m op phase volt e s x hx hb heye hop hcover
    rw [exec_eyeMeasurementDone, ← hx, State.onBlocks_of hb]
    simp only [State.eyeDone, heye, hop, hcover, Bool.not_true, Bool.false_eq_true, if_false]
  case low =>
    rintro dt n m h phase volt e s x hx hb heye hop hcover rfl hoff
    rw [exec_eyeMeasurementDone, ← hx, State.onBlocks_of hb]
    simp only [State.eyeDone, heye, hop, hcover, hoff, Bool.not_true, Bool.and_false, Bool.false_and, Bool.false_eq_true,
      if_false]
  case lowActive =>
    rintro dt n m h k i phase volt e s x hx hb heye hop hcover rfl hlow hlink hrole hen hspare
    rw [exec_eyeMeasurementDone, ← hx, State.onBlocks_of hb]
    simp only [State.eyeDone, heye, hop, hcover, hlow, hlink, hrole, hen, hspare, decide_true, Bool.and_self, Bool.not_true,
      Bool.false_eq_true, if_false, if_true]
  case report =>
    rintro dt tag s x h hx
    rw [exec_lnReport, State.command_asked h (by decide), ← hx]
    rfl
  case eye =>
    rintro dt tag p e s x h hx hlen hn hmode hlow hhigh hp0 hp1 hv0 hv1 hlock hnone rfl
    have hgo : ¬ (8 < field p 0 1 ∨ 1 < field p 1 1 ∨ field p 2 1 < 16 ∨ 30 < field p 2 1 ∨ toSigned 8 (field p 3 1) < -32
        ∨ 32 < toSigned 8 (field p 3 1) ∨ toSigned 8 (field p 4 1) < -63 ∨ 63 < toSigned 8 (field p 4 1)) := by omega
    rw [exec_lnEye, State.command_asked h (by decide), ← hx]
    refine congrArg s.leaves ?_
    show opLnEye _ p x = _
    simp only [opLnEye, hlen, hgo, hlock, hnone, ne_eq, not_true_eq_false, Bool.not_true, Option.isSome_none,
      Bool.false_eq_true, if_false]
  case force =>
    rintro dt k pos tag p s x h hx hp hk hpos hspare hrx
    have f0 : field p 0 1 = k := by rw [hp]; exact (field_byte _ _).trans (by simp [byte]; omega)
    have f1 : field p 1 1 = pos := by rw [hp]; exact (field_byte _ _).trans (by simp [byte]; omega)
    have hlen : p.length = 2 := by rw [hp]; rfl
    have hgo : ¬ (1 < k ∨ 1 < pos) := by omega
    rw [exec_lnSpareForce, State.command_asked h (by decide), ← hx]
    refine congrArg s.leaves ?_
    show opLnSpareForce _ p x = _
    simp [opLnSpareForce, hlen, f0, f1, hgo, hspare, hrx, laneOf]

end Sys2Proof.Machine
end

section
/-! PROOFS. Downstream frames (09): alignment, the superframe counter, and the delivery of a frame. -/

namespace Sys2Proof.Machine

/-- Two changes of an element of a list that agree on it are one. -/
theorem list_modify_congr {α : Type} {l : List α} {k : Nat} {f g : α → α} (h : ∀ a, l[k]? = some a → f a = g a) :
    l.modify k f = l.modify k g := by
  refine List.ext_getElem? fun i => ?_
  simp only [List.getElem?_modify]
  split
  next hi =>
    subst hi
    cases ha : l[k]? with
    | none => rfl
    | some a => simp [h a ha]
  next => rfl

/-- A lane that has been changed twice: the second change may name what the first has left of it. -/
theorem State.modTdLane_congr {x : State} {k : Nat} {f g : TdLane → TdLane} (h : f (x.tdLane k) = g (x.tdLane k)) :
    x.modTdLane k f = x.modTdLane k g := by
  unfold State.modTdLane State.modTd
  refine congrArg (fun l => ({ x with main := { x.main with td := { x.main.td with lanes := l } } } : State))
    (list_modify_congr fun a ha => ?_)
  simpa [State.tdLane, at?, ha] using h

/-- What a change of a lane leaves of it, the change leaves of the lane that is read. -/
theorem State.modTdLane_tdLane_kept {α : Type} (x : State) (k : Nat) (f : TdLane → TdLane) (g : TdLane → α)
    (h : ∀ l, g (f l) = g l) : g ((x.modTdLane k f).tdLane k) = g (x.tdLane k) := by
  unfold State.tdLane State.modTdLane State.modTd at?
  simp only [List.getD_eq_getElem?_getD, List.getElem?_modify]
  cases x.main.td.lanes[k]? with
  | none => rfl
  | some l => simpa using h l

/-- A change of alignment leaves the active lane as it is. -/
theorem State.setAlign_active (x : State) (k : Nat) (st : Align) :
    (x.setAlign k st).main.td.active = x.main.td.active := by
  unfold State.setAlign
  dsimp only
  split
  · rfl
  · rw [(Posted.notify _ _ _ _).td]
    rfl

/-- No grant map is being looked for. -/
theorem State.grantMapDeadline_none {x : State} (h : x.main.td.miss = none) : x.grantMapDeadline = x := by
  rw [State.grantMapDeadline, h]

/-- A frame on another lane than the active one begins no superframe. -/
theorem State.frameIn_other {x y : State} {k : Nat} {bytes : List Byte} (hy : x.frameReceived k bytes = y)
    (h : k ≠ y.main.td.active) : x.frameIn k bytes = y := by
  subst hy
  exact if_neg fun ⟨ha, _⟩ => h ha

/-- A frame on a lane that has found its alignment and is on its timing is timed (R301, R302). -/
theorem State.frameReceived_timed {x : State} {k : Nat} {bytes : List Byte} (hout : x.main.out = true) (hk : k < 2)
    (hmiss : x.main.td.miss = none) (hwatch : x.watched k = true) (hlen : bytes.length = 40000)
    (hst : (x.tdLane k).st ≠ .hunt) (hat : (x.tdLane k).at_ + 40000 = x.now) :
    x.frameReceived k bytes
      = (if k = x.main.td.active ∧ x.smouldering = false then x.drainMessages 64 else x).timedFrame k x.now
          (decide (syncErrors bytes ≤ x.fld 0x050000 14 13)) (bodyId (scramble (bytes.drop 4)))
          (scramble (bytes.drop 4)) := by
  have hgo : ¬ (2 ≤ k ∨ (!x.main.out) = true ∨ (!x.watched k) = true ∨ bytes.length ≠ 40000) := by
    simp [Nat.not_le.mpr hk, hout, hwatch, hlen]
  unfold State.frameReceived
  rw [State.grantMapDeadline_none hmiss]
  dsimp only
  rw [if_neg hgo, if_neg hst, if_neg (not_not.mpr hat)]
  simp only [Bool.not_eq_true']

/-- A field that begins where a wider one begins is its remainder. -/
theorem bits_of_wider {v hi hi' lo : Nat} (h : hi' ≤ hi) : bits v hi' lo = bits v hi lo % 2 ^ (hi' + 1 - lo) :=
  (Nat.mod_mod_of_dvd _ (Nat.pow_dvd_pow 2 (by omega))).symm

/-- Settles O31: the branches of `State.frameReceived`, `State.timedFrame`, `State.lockedFrame` and `State.deliver` (log entries
29, 72). -/
theorem treeFrames : Obligations.TreeFrames := by
  unfold Obligations.TreeFrames
  refine ⟨?found, ?timed, ?stray, ?confirmed, ?unconfirmed, ?locked, ?lostOther, ?errored, ?hunt, ?missed, ?expected, ?jumped,
    ?active, ?delivered, ?deadline, ?write, ?written, ?report⟩
  case found =>
    rintro dt k bytes i s x hx hb hk hother hmiss hwatch hlen hst hsync hid hone
    have hgo : ¬ (2 ≤ k ∨ (!x.main.out) = true ∨ (!x.watched k) = true ∨ bytes.length ≠ 40000) := by
      simp [Nat.not_le.mpr hk, hb.1.1, hwatch, hlen]
    rw [exec_frameReceived, ← hx, State.onBlocks_of hb]
    refine congrArg s.leaves (State.frameIn_other ?_ ?_)
    · unfold State.frameReceived
      rw [State.grantMapDeadline_none hmiss]
      simp only [hgo, hst, hid, hsync, hone, ne_eq, not_true_eq_false, if_false, if_true]
    · exact (State.setAlign_active _ _ _).symm ▸ hother
  case timed =>
    rintro dt k bytes b s x y hx hb hk hmiss hwatch hlen hst hat rfl rfl - -
    rw [exec_frameReceived, ← hx, State.onBlocks_of hb]
    refine congrArg s.leaves ?_
    rw [State.frameIn, State.frameReceived_timed hb.1.1 hk hmiss hwatch hlen hst hat]
  case stray =>
    rintro dt k bytes s x hx hb hk hother hmiss hst hat
    rw [exec_frameReceived, ← hx, State.onBlocks_of hb]
    refine congrArg s.leaves (State.frameIn_other ?_ hother)
    unfold State.frameReceived
    rw [State.grantMapDeadline_none hmiss]
    simp only [hst, hat, ne_eq, not_false_eq_true, if_true, if_false, ite_self]
  case confirmed =>
    rintro x y k t i b hst hsfc rfl
    have hgood := State.modTdLane_tdLane_kept x k (fun l => { l with at_ := t }) (·.good) (fun _ => rfl)
    simp only [State.timedFrame, hst, hsfc, beq_self_eq_true, Bool.and_self, if_true]
    refine if_congr Iff.rfl rfl (State.modTdLane_congr ?_)
    rw [hgood]
  case unconfirmed =>
    rintro x k t near b hst
    simp only [State.timedFrame, hst]
  case locked =>
    rintro x y k t e i b hst rfl rfl
    simp only [State.timedFrame, hst, Option.isSome_some, Bool.and_self, if_true]
  case lostOther =>
    rintro x y k t near i b hst hbad hother hmany rfl
    have hno : ¬ (near && i.isSome) = true := by
      obtain h | h := hbad <;> simp [h]
    have hother' : ¬ (k = x.main.td.active ∧ x.main.sk.isLead = true) := fun ⟨h, _⟩ => hother h
    have hmany' : (x.modTdLane k (fun l => { l with at_ := t })).fld 0x050000 23 19 ≤ (x.tdLane k).errs + 1 := hmany
    simp only [State.timedFrame, hst, hno, hmany', if_true]
    exact congrArg (fun z : State => z.toHunt k 2) (if_neg hother')
  case errored =>
    rintro x y k t near i b hst hbad hfew rfl
    have hno : ¬ (near && i.isSome) = true := by
      obtain h | h := hbad <;> simp [h]
    have hfew' : ¬ (x.modTdLane k (fun l => { l with at_ := t })).fld 0x050000 23 19 ≤ (x.tdLane k).errs + 1 :=
      Nat.not_le.mpr hfew
    have herrs := State.modTdLane_tdLane_kept x k (fun l => { l with at_ := t }) (·.errs) (fun _ => rfl)
    simp only [State.timedFrame, hst, hno, hfew', if_false]
    refine congrArg (fun z : State => (z.jump k _ i).lockedFrame k t i b) (State.modTdLane_congr ?_)
    rw [← herrs]
    rfl
  case hunt =>
    rintro x k hst hno
    have hno' : ¬ (k = x.main.td.active ∧ x.main.sk.isLead = true) := by
      rintro ⟨hact, hlead⟩
      obtain h | h := hno
      · exact h hact
      · simp [h] at hlead
    simp only [State.toHunt, hst, hno', if_false]
  case missed =>
    rintro x k n hst hwatch hlate
    exact if_pos ⟨hst, hwatch, hlate⟩
  case expected =>
    rintro x k e i rfl
    exact if_pos rfl
  case jumped =>
    rintro x k e i hne hother
    simp only [State.jump, hne, hother, if_false]
  case active =>
    rintro x y z w k t i b d hk hlead hver hd hy hz hw hnew
    have hold : ((x.tdLane k).version != i.version) = false := by simp [hver]
    have hact : (k == x.main.td.active) = true := by simp [hk]
    simp only [State.lockedFrame, hact, hlead, hold, ← hd, ← hy, Bool.and_false, Bool.false_eq_true, if_false, Bool.not_true,
      Bool.or_self, Nat.add_zero]
    rw [← hz, ← hw, if_pos hnew]
  case delivered =>
    rintro x i d f hlost hst hdoze hawake hf hhit
    have hsame : ∀ y : State, y.main.td.lost = false → y.tdRestored = y := fun y h => if_neg (by simp [h])
    have hdozes : ∀ y : State, y.main.tm.doze = none → y.dozeEnd = y := fun y h => by rw [State.dozeEnd, h]
    rw [State.deliver, hsame _ (by exact hlost), if_neg (by exact hst), hdozes _ (by exact hdoze), State.startFrame, if_neg (by exact ne_true_of_eq_false hawake), if_neg (by exact hf ▸ ne_true_of_eq_false hhit)]
    exact hf ▸ rfl
  case deadline =>
    rintro dt t s x hx hb hmiss hdue
    rw [exec_grantMapDeadline, ← hx, State.onBlocks_of hb]
    simp only [State.grantMapDeadline, hmiss, hdue, if_true]
  case write =>
    rintro dt n v s x hx hb hn
    rw [exec_tdPortWrite, ← hx, State.onBlocks_of hb]
    exact congrArg s.leaves (if_pos hn)
  case written =>
    rintro x n old r hfind hvc
    have hdiff : (bits (x.tdPort n) 29 20 == bits old 29 20) = false := by
      refine beq_eq_false_iff_ne.mpr fun h => hvc ?_
      rw [bits_of_wider (hi := 29) (by decide), h, ← bits_of_wider (by decide)]
    simp only [State.tdPortWritten, hdiff, hfind, Bool.and_false, Bool.false_and, Bool.false_eq_true, if_false]
  case report =>
    rintro dt tag s x h hx
    rw [exec_tdReport, State.command_asked h (by decide), ← hx]
    rfl

end Sys2Proof.Machine
end

section
/-! PROOFS. Membership messages, the timers and the opcodes of membership (10). -/

namespace Sys2Proof.Machine

theorem Posted.hearth {s t : State} (h : Posted s t) : t.hearth = s.hearth := by
  obtain ⟨c, al, q, held, links, regs, cyc, rfl, hregs⟩ := h
  rfl

/-- Messages sent one after another. -/
theorem Posted.foldl {α : Type} (f : State → α → State) (h : ∀ x a, Posted x (f x a)) (l : List α) (s : State) :
    Posted s (l.foldl f s) := by
  induction l generalizing s with
  | nil => exact Posted.refl s
  | cons a l ih => exact (h s a).trans (ih _)

/-- The tree record written leaves a minimal Blaze as it is. -/
theorem State.saveTree_minBlaze (s : State) : s.saveTree.hearth.minBlaze = s.hearth.minBlaze := by
  unfold State.saveTree
  rw [(Posted.foldl _ (fun x m => ?_) _ _).hearth]
  · rfl
  · split
    · exact Posted.sendMsg _ _ _ _ _ _
    · exact Posted.refl x

/-- Identity and allocations sent leave the Hearth as it is. -/
theorem State.pushTerm_hearth (s : State) : s.pushTerm.hearth = s.hearth := by
  unfold State.pushTerm
  refine (Posted.foldl _ (fun x m => ?_) _ _).hearth
  split
  · exact Posted.sendMsg _ _ _ _ _ _
  · exact Posted.refl x

theorem State.invalidateRecord_minBlaze (s : State) : s.invalidateRecord.hearth.minBlaze = s.hearth.minBlaze := by
  rw [State.invalidateRecord, State.pushTerm_hearth, State.saveTree_minBlaze]
  rfl

/-- Outside a minimal Blaze a failed warm resume leads on (R348). -/
theorem State.warmOut_awake {s next : State} (h : s.hearth.minBlaze = none) : s.warmOut next = next := by
  simp [State.warmOut, h]

/-- A message out of form is counted as UNKNOWN, whatever its type (R337). -/
theorem State.tmMessage_malformed {s : State} {carry : Nat} {m : List Byte} (hform : tmFormOk m = false) :
    s.tmMessage carry m = s.tmUnknown := by
  simp [State.tmMessage, hform]

/-- What a message in form does, by its type (Table TM-3). -/
def State.tmApplied (y : State) (type carry : Nat) (m : List Byte) : State :=
  match type with
  | 2 => y.treeProfile m
  | 3 => y.identAssign m
  | 4 => y.rangingResult m
  | 5 => y.warmAck m
  | 6 => y.allocAssign m
  | 7 => y.portAssign m
  | 8 => y.deregister
  | 9 => y.disableTerm (field m 12 1)
  | _ => y.dozeGrant carry m

/-- A message in form that carries this terminal's SERIAL, or none, leaves the queue and is applied by its type (R308, R337,
Table TM-3). -/
theorem State.takeMessage_mine {x y : State} {type sfc : Nat} {m : List Byte} {t : List (Nat × List Byte)}
    (hmsgs : x.main.td.msgs = (sfc, m) :: t) (hawake : x.smouldering = false) (htype : field m 0 1 = type)
    (htime : type ≠ 1) (hform : tmFormOk m = true) (hmine : carriesSerial type = false ∨ field m 4 8 = x.termSerial)
    (hy : y = x.modTd (fun d => { d with msgs := t })) :
    x.takeMessage type = y.tmApplied type sfc m := by
  have hno : (carriesSerial type && field m 4 8 != y.termSerial) = false := by
    obtain h | h := hmine
    · simp [h]
    · simp [show y.termSerial = x.termSerial from hy ▸ rfl, h]
  rw [State.takeMessage_head hmsgs hawake htype htime, ← hy]
  unfold State.tmMessage
  simp only [htype, hform, hno, Bool.not_true, Bool.false_eq_true, if_false]
  rfl

/-- Settles O32: a message at the head of the queue leaves it and is applied by its type (log entries 74, 75). -/
theorem membershipMessages : Obligations.MembershipMessages := by
  unfold Obligations.MembershipMessages
  refine ⟨?profile, ?identity, ?ranged, ?warm, ?warmRange, ?warmSerial, ?alloc, ?gone, ?off, ?on, ?doze, ?dozeNone, ?bad⟩
  case profile =>
    rintro dt sfc m t s x y hx hb hmsgs hawake htype hform hy hlisten hop
    rw [exec_treeProfile, ← hx, State.onBlocks_of hb, State.takeMessage_mine hmsgs hawake htype (by decide) hform
      (.inl rfl) hy]
    subst hy
    simp only [State.tmApplied, State.treeProfile]
    split
    next h => exact absurd h hlisten
    next h => exact absurd h hop
    next => rfl
  case identity =>
    rintro dt sfc m t s x y hx hb hmsgs hawake htype hform hy hser hst
    have hst' : y.main.tm.st = .serial ∨ y.main.tm.st = .ranging := hy ▸ hst
    rw [exec_identAssign, ← hx, State.onBlocks_of hb, State.takeMessage_mine hmsgs hawake htype (by decide) hform
      (.inr hser) hy]
    exact congrArg s.leaves (if_pos hst')
  case ranged =>
    rintro dt sfc m t s x y hx hb hmsgs hawake htype hform hy hser hst
    rw [exec_rangingResult, ← hx, State.onBlocks_of hb, State.takeMessage_mine hmsgs hawake htype (by decide) hform
      (.inr hser) hy]
    have hst' : y.main.tm.st = .ranging := hy ▸ hst
    have hact : y.main.td.active = x.main.td.active := hy ▸ rfl
    simp only [State.tmApplied, State.rangingResult, hst', if_true, hact]
  case warm =>
    rintro dt sfc m t s x y hx hb hmsgs hawake htype hform hy hser hst hres
    rw [exec_warmAck, ← hx, State.onBlocks_of hb, State.takeMessage_mine hmsgs hawake htype (by decide) hform
      (.inr hser) hy]
    have hst' : y.main.tm.st = .warm := hy ▸ hst
    have hact : y.main.td.active = x.main.td.active := hy ▸ rfl
    have heqd : y.main.tm.eqd = x.main.tm.eqd := hy ▸ rfl
    simp only [State.tmApplied, State.warmAck, hst', hres, hact, heqd, ne_eq, not_true_eq_false, if_false]
  case warmRange =>
    rintro dt sfc m t s x y hx hb hmsgs hawake htype hform hy hser hst hres hmin
    rw [exec_warmAck, ← hx, State.onBlocks_of hb, State.takeMessage_mine hmsgs hawake htype (by decide) hform
      (.inr hser) hy]
    have hst' : y.main.tm.st = .warm := hy ▸ hst
    have hact : y.main.td.active = x.main.td.active := hy ▸ rfl
    have hmin' : y.hearth.minBlaze = none := hy ▸ hmin
    simp only [State.tmApplied, State.warmAck, hst', hres, hact, ne_eq, not_true_eq_false, if_false]
    exact congrArg s.leaves (State.warmOut_awake hmin')
  case warmSerial =>
    rintro dt sfc m t s x y hx hb hmsgs hawake htype hform hy hser hst hres hmin
    rw [exec_warmAck, ← hx, State.onBlocks_of hb, State.takeMessage_mine hmsgs hawake htype (by decide) hform
      (.inr hser) hy]
    have hst' : y.main.tm.st = .warm := hy ▸ hst
    have hmin' : y.hearth.minBlaze = none := hy ▸ hmin
    simp only [State.tmApplied, State.warmAck, hst', hres, ne_eq, not_true_eq_false, if_false]
    exact congrArg s.leaves (State.warmOut_awake ((State.invalidateRecord_minBlaze _).trans hmin'))
  case alloc =>
    rintro dt sfc m t s x y hx hb hmsgs hawake htype hform hy
    rw [exec_allocAssign, ← hx, State.onBlocks_of hb, State.takeMessage_mine hmsgs hawake htype (by decide) hform
      (.inl rfl) hy]
    simp only [State.tmApplied, State.allocAssign]
  case gone =>
    rintro dt sfc m t s x y hx hb hmsgs hawake htype hform hy hser hst
    have hst' : y.main.tm.st ≠ .disabled := hy ▸ hst
    rw [exec_deregister, ← hx, State.onBlocks_of hb, State.takeMessage_mine hmsgs hawake htype (by decide) hform
      (.inr hser) hy]
    exact congrArg s.leaves (if_neg hst')
  case off =>
    rintro dt sfc m t s x y hx hb hmsgs hawake htype hform hy hser hact
    rw [exec_disable, ← hx, State.onBlocks_of hb, State.takeMessage_mine hmsgs hawake htype (by decide) hform
      (.inr hser) hy]
    exact congrArg s.leaves (if_pos hact)
  case on =>
    rintro dt sfc m t s x y hx hb hmsgs hawake htype hform hy hser hact hst
    rw [exec_disable, ← hx, State.onBlocks_of hb, State.takeMessage_mine hmsgs hawake htype (by decide) hform
      (.inr hser) hy]
    have hst' : y.main.tm.st = .disabled := hy ▸ hst
    simp only [State.tmApplied, State.disableTerm, hact, hst', one_ne_zero, if_true, if_false]
  case doze =>
    rintro dt sfc m t s x y hx hb hmsgs hawake htype hform hy hframes hlo hhi
    rw [exec_dozeGrant, ← hx, State.onBlocks_of hb, State.takeMessage_mine hmsgs hawake htype (by decide) hform
      (.inl rfl) hy]
    simp only [State.tmApplied, State.dozeGrant, hframes, hlo, hhi, and_self, if_true, if_false]
  case dozeNone =>
    rintro dt sfc m t s x y hx hb hmsgs hawake htype hform hy hframes
    rw [exec_dozeGrant, ← hx, State.onBlocks_of hb, State.takeMessage_mine hmsgs hawake htype (by decide) hform
      (.inl rfl) hy]
    simp only [State.tmApplied, State.dozeGrant, hframes, if_true]
  case bad =>
    rintro dt sfc m t s x hx hb hmsgs hawake htype hform
    rw [exec_allocAssign, ← hx, State.onBlocks_of hb, State.takeMessage_head hmsgs hawake htype (by decide),
      State.tmMessage_malformed hform]
    rfl

/-- A terminal in OPERATION falls back to LISTEN when its lane changes. -/
theorem State.listens_of_operation {z : State} (hst : z.main.tm.st = .operation) :
    (match z.main.tm.st with
      | .ranging | .warm | .operation | .hold => z.setTm .listen
      | _ => z) = z.setTm .listen := by
  rw [hst]

/-- Settles O34: the branches of the timers, of protection and of the opcodes of membership. -/
theorem membership : Obligations.Membership := by
  unfold Obligations.Membership
  refine ⟨?doze, ?to1, ?tw, ?to2, ?protection, ?save, ?status, ?serial, ?ident, ?forget, ?enable⟩
  case doze =>
    rintro dt ms k s x hx hb hlead hbit hst hbusy hflits hheld0 hbank hheld1 hps hdoze hreq hnext hms hmin
    rw [exec_dozeReq, ← hx, State.onBlocks_of hb]
    refine congrArg s.leaves ?_
    rw [State.dozeReq, if_pos]
    · simp only [hnext, ← hms]
      rfl
    · simp [hb.1.1, hlead, hbit, hst, hbusy, hflits, hheld0, hbank, hheld1, hps, hdoze, hreq, hnext, ← hms, hmin]
  case to1 =>
    rintro dt s x hx hb hst hdue hmin
    rw [exec_to1Expiry, ← hx, State.onBlocks_of hb, State.to1Expiry, if_pos ⟨hst, hdue⟩, State.warmOut_awake hmin]
  case tw =>
    rintro dt s x hx hb hst hdue hmin
    rw [exec_twExpiry, ← hx, State.onBlocks_of hb, State.twExpiry, if_pos ⟨hst, hdue⟩]
    exact congrArg s.leaves (State.warmOut_awake hmin)
  case to2 =>
    rintro dt s x hx hb hst hdue
    rw [exec_to2Expiry, ← hx, State.onBlocks_of hb, State.to2Expiry, if_pos ⟨hst, hdue⟩]
  case protection =>
    rintro dt a n q s x y z hx hb hlead ha hprot hne hlock hbit hy hz hst
    rw [exec_protectionSwitch, ← hx, State.onBlocks_of hb]
    refine congrArg (fun w : State => s.leaves w.pllFollow) ?_
    have hgo : ¬ ((!x.main.sk.isLead) = true ∨ x.protect.1 = x.main.td.active ∨ (!x.tdLocked x.protect.1) = true
        ∨ (!x.bit 0x060018 31) = true) := by
      simp [hprot, hlead, ← ha, hne, hlock, hbit]
    rw [State.protectionSwitch, if_neg hgo]
    subst hz hy ha
    simp only [hprot]
    exact congrArg State.saveTree (State.listens_of_operation hst)
  case save =>
    rintro dt s x hx hb hst hdue
    rw [exec_treeRecordSave, ← hx, State.onBlocks_of hb, State.treeRecordSave, if_pos ⟨hst, hdue⟩]
  case status =>
    rintro dt tag s x h hx
    rw [exec_tmStatus, State.command_asked h (by decide), ← hx]
    rfl
  case serial =>
    rintro dt tag p s x y h hx hlen hidle hy
    rw [exec_tmSetSerial, State.command_asked h (by decide), ← hx]
    show ∃ t, s.leaves (opTmSetSerial _ p x) = _ ∧ _
    simp only [opTmSetSerial, hlen, hidle, ne_eq, not_true_eq_false, if_false, Bool.not_true, Bool.false_eq_true, ← hy]
    refine ⟨_, rfl, fun hpush => ⟨_, if_pos hpush⟩, fun hpush => ⟨_, if_neg ?_⟩⟩
    simp [hpush]
  case ident =>
    rintro dt tag p s x h hx hlen halloc hidle
    rw [exec_tmSetIdent, State.command_asked h (by decide), ← hx]
    refine congrArg s.leaves ?_
    show opTmSetIdent _ p x = _
    simp only [opTmSetIdent, hlen, hidle, Nat.not_le.mpr halloc, ne_eq, not_true_eq_false, if_false, Bool.not_true,
      Bool.false_eq_true]
  case forget =>
    rintro dt tag s x h hx hidle
    rw [exec_tmForget, State.command_asked h (by decide), ← hx]
    refine congrArg s.leaves ?_
    show opTmForget _ [] x = _
    simp only [opTmForget, hidle, ne_eq, not_true_eq_false, if_false, Bool.not_true, Bool.false_eq_true]
  case enable =>
    rintro dt tag s x y h hx hy
    rw [exec_tmClearDisable, State.command_asked h (by decide), ← hx, hy]
    rfl

end Sys2Proof.Machine
end

section
/-! PROOFS. Upstream bursts and scheduling (11): grants, bursts, queues, dampers and the chimney. -/

namespace Sys2Proof.Machine

/-- What BURST_START does with the burst at the head, once its START has come and no burst is under way (R267, R269). -/
theorem State.burstStart_due {x : State} {b : Burst} {t : List Burst} (hout : x.main.out = true)
    (hcur : x.main.up.current = none) (hbursts : x.main.up.bursts = b :: t) (hdue : b.start ≤ x.now) :
    x.burstStart =
      (if x.laneLocked b.lane = false then
        ((x.modUp (fun u => { u with bursts := t })).count 0x040004 31 16).burstUnsent b
      else if x.main.td.lost ∨ x.quarantined ∨ x.main.tm.disabled then
        (x.modUp (fun u => { u with bursts := t })).burstUnsent b
      else if x.txHeld b.lane then
        ((x.modUp (fun u => { u with bursts := t })).burstUnsent b).decline b.alloc (x.burstUj b.length)
          (x.flushTerm b.chimney)
      else if b.chimney then
        (((x.modUp (fun u => { u with bursts := t })).modUp (fun u => { u with current := some b })).count 0x070024 31 0).count
          0x070020 31 16
      else ((x.modUp (fun u => { u with bursts := t })).modUp (fun u => { u with current := some b })).count 0x070024 31 0) := by
  have hgo : ¬ (x.main.out = false ∨ x.main.up.current.isSome = true) := by simp [hout, hcur]
  simp only [State.burstStart, Bool.not_eq_true', if_neg hgo, hbursts, if_neg (Nat.not_lt.mpr hdue)]

/-- Settles O35: the decisions of `State.fillGrant`, of `State.rangingBurst`, of admission and of `State.burstStart` (log
entries 29, 77). -/
theorem upstreamBursts : Obligations.UpstreamBursts := by
  unfold Obligations.UpstreamBursts
  refine ⟨?fill, ?grant, ?ranging, ?admitted, ?declined, ?starts, ?held, ?unlocked, ?status, ?test⟩
  case fill =>
    rintro dt g s x hx hb hps hg
    have hgo : ¬ ((!x.main.out) = true ∨ x.hearth.ps = .smoulder) := by simp [hb.1.1, hps]
    rw [exec_fillInstant, ← hx, State.onBlocks_of hb, State.fillInstant, if_neg hgo]
    simp only [hg]
  case grant =>
    rintro x p g hp hlead hquar halloc hchim hslot hranging hst
    simp [State.fillGrant, hp, hlead, hquar, halloc, hchim, hslot, hranging, hst]
  case ranging =>
    rintro x y p g m late alarm hlen hwin hadmit
    simp only [State.rangingBurst, if_neg (Nat.not_lt.mpr hlen), hwin, hadmit]
  case admitted =>
    rintro x alloc n alarm hheld hadmits
    simp [State.admitBurst, State.flushTerm, hheld, hadmits]
  case declined =>
    rintro x alloc n alarm hno
    have hno' : ¬ (!x.txHeld x.main.td.active && x.admits (x.burstUj n) (x.flushTerm alarm)) = true := by
      obtain h | h := hno <;> simp [State.flushTerm, h]
    simp only [State.admitBurst, if_neg hno']
    rfl
  case starts =>
    rintro dt b t s x hx hb hcur hbursts hdue hlock hlost hquar hdis hheld hchim
    rw [exec_burstStart, ← hx, State.onBlocks_of hb, State.burstStart_due hb.1.1 hcur hbursts hdue]
    simp only [hlock, hlost, hquar, hdis, hheld, hchim, Bool.true_eq_false, Bool.false_eq_true, or_self, if_false]
  case held =>
    rintro dt b t s x hx hb hcur hbursts hdue hlock hlost hquar hdis hheld hchim
    rw [exec_burstStart, ← hx, State.onBlocks_of hb, State.burstStart_due hb.1.1 hcur hbursts hdue]
    simp only [hlock, hlost, hquar, hdis, hheld, hchim, Bool.true_eq_false, Bool.false_eq_true, or_self, if_false, if_true]
    rfl
  case unlocked =>
    rintro dt b t s x hx hb hcur hbursts hdue hlock
    rw [exec_burstStart, ← hx, State.onBlocks_of hb, State.burstStart_due hb.1.1 hcur hbursts hdue, if_pos hlock]
  case status =>
    rintro dt tag s x h hx
    rw [exec_upStatus, State.command_asked h (by decide), ← hx]
    rfl
  case test =>
    rintro dt eb need tag p s x h hx hlen halarm heb hneed hres
    rw [exec_upAdmitTest, State.command_asked h (by decide), ← hx]
    refine congrArg s.leaves ?_
    show opUpAdmitTest _ p x = _
    simp [opUpAdmitTest, hlen, halarm, hres, ← heb, ← hneed]

/-- An SDU offered to a queue of this chip meets the queue's own checks (R372, R373). -/
theorem State.sourceOffers_leads {x : State} {q src : Nat} {b : List Byte} (hq : q < 32) (hsrc : src ≤ 4) (hb : b ≠ [])
    (hleads : x.leads = true) : x.sourceOffers q src b = (x.enqueue q (sourceKind src) b).1 := by
  have hgo : ¬ (32 ≤ q ∨ 4 < src ∨ b = []) := by
    rintro (h | h | h)
    · omega
    · omega
    · exact hb h
  rw [State.sourceOffers, if_neg hgo, if_pos hleads]

/-- The credit of a damper after a frame boundary (R381, R382). -/
theorem State.damperBoundary_credit (x : State) {n : Nat} (hn : n < 40) :
    at? x.damperBoundary.main.up.credits n 0 =
      (if (at? x.main.up.damperOld n none).isSome then 0
      else if x.bit (damperReg n) 31 && x.bit (damperReg n) 30 then
        min (at? x.main.up.credits n 0 + x.fld (damperReg n + 4) 23 0) ((x.fld (damperReg n) 19 0 * 256 : Nat) : Int)
      else at? x.main.up.credits n 0) := by
  unfold State.damperBoundary State.modUp
  simp only [at?, List.getD_eq_getElem?_getD, List.getElem?_map, List.getElem?_range hn, Option.map_some, Option.getD_some]
  rfl

/-- Settles O36: the branches of `State.enqueue`, of the frame boundary and of `State.chimneyWaitEnd` (log entries 78, 79, 105,
114). -/
theorem upstreamQueues : Obligations.UpstreamQueues := by
  unfold Obligations.UpstreamQueues
  refine ⟨?taken, ?disabled, ?boundary, ?refilled, ?written, ?acked, ?again⟩
  case taken =>
    rintro dt q src b s x hx hb hq hsrc hne hleads hkey hen hfill hpool
    rw [exec_sduEnqueue, ← hx, State.onBlocks_of hb, State.sourceOffers_leads hq hsrc hne hleads]
    refine congrArg s.leaves ?_
    have hen' : bitOf (x.word (upCfg q)) 31 = true := hen
    have hfill' : ¬ 1024 * bits (x.word (upCfg q)) 17 8 < (x.upQueue q).fill + (x.mkSdu q (sourceKind src) b).len :=
      Nat.not_lt.mpr hfill
    have hpool' : (q != 0 && decide (1024 * x.fld 0x07000C 10 0 < x.poolUsed + (x.mkSdu q (sourceKind src) b).len)) = false := by
      by_cases h : q = 0
      · simp [h]
      · simp [h, hpool h]
    simp only [State.enqueue, hkey, hen', hfill', hpool', Bool.not_true, decide_false, Bool.or_self, Bool.false_eq_true, if_false]
  case disabled =>
    rintro dt q src b s x hx hb hq hsrc hne hleads hen
    rw [exec_sduEnqueue, ← hx, State.onBlocks_of hb, State.sourceOffers_leads hq hsrc hne hleads]
    refine congrArg s.leaves ?_
    have hen' : bitOf (x.word (upCfg q)) 31 = false := hen
    unfold State.enqueue
    split
    · rfl
    · simp only [hen', Bool.not_false, Bool.true_or, if_true]
  case boundary =>
    rintro dt sfc rx s x hx hb hsfc
    rw [exec_upstreamFrameBoundary, ← hx, State.onBlocks_of hb, State.frameBoundary, if_neg (by simp [hb.1.1]), hsfc]
  case refilled =>
    rintro x n hn hold hen hlim
    have hrate : damperReg n + 4 = 0x070404 + 16 * n := by rw [damperReg]; omega
    rw [State.damperBoundary_credit x hn, hold, if_neg (by simp), hrate, damperReg,
      if_pos (Bool.and_eq_true_iff.mpr ⟨hen, hlim⟩)]
  case written =>
    rintro x n hn hold
    rw [State.damperBoundary_credit x hn, if_pos hold]
  case acked =>
    rintro dt t s x hx hb hwait hdue hacked
    have hun : x.main.cmd.notices.filter (fun n => x.main.up.carried.contains n.num) = [] := by
      simpa [List.filter_eq_nil_iff] using hacked
    rw [exec_chimneyAckWaitEnd, ← hx, State.onBlocks_of hb]
    simp only [State.chimneyWaitEnd, hwait, if_neg (Nat.not_lt.mpr hdue), hun, if_true]
  case again =>
    rintro dt t un s x hx hb hwait hdue hun hne hfew
    have hoff : un.filter (fun n => decide (x.fld 0x070014 15 8 ≤ n.chimney)) = [] := by
      simpa [List.filter_eq_nil_iff] using hfew
    refine ⟨_, _, rfl, ?_⟩
    rw [exec_chimneyAckWaitEnd, ← hx, State.onBlocks_of hb]
    simp only [State.chimneyWaitEnd, hwait, if_neg (Nat.not_lt.mpr hdue), ← hun, hne, if_false, hoff, List.foldl_nil]
    rfl

end Sys2Proof.Machine
end

section
/-! PROOFS. Meter ports (12): characters, transactions, poll programs, the hold, and the MP opcodes. -/

namespace Sys2Proof.Machine

/-- Settles O37: the branches of the transaction's instants and of the characters (log entries 80, 140). -/
theorem meterLine : Obligations.MeterLine := by
  unfold Obligations.MeterLine
  refine ⟨?start, ?sent, ?broadcast, ?again, ?gap, ?timeout, ?ended, ?falseStart, ?ignored, ?char, ?low, ?released⟩
  case start =>
    rintro dt n q t ws s x hx hb hon hxacts hst hfree hps hquar hws
    have hgo : ¬ ((!x.mpOn n) = true ∨ (x.mport n).st ≠ .queued ∨ x.now < (x.mport n).freeAt ∨ x.hearth.ps ≠ .blaze
        ∨ x.quarantined = true) := by
      simp [hon, hst, hfree, hps, hquar]
    rw [exec_xactStart, ← hx, State.onBlocks_of hb]
    simp only [State.xactStart, hxacts, if_neg hgo, mpReg, ← hws]
  case sent =>
    rintro dt n fall q t s x hx hb hxacts hst hfall hdue hreply
    have hgo : ¬ ((x.mport n).st ≠ .sending ∨ x.now < fall) := by simp [hst, hdue]
    rw [exec_requestSent, ← hx, State.onBlocks_of hb]
    simp only [State.requestSent, hxacts, ← hfall, if_neg hgo, hreply, Bool.false_eq_true, if_false]
    rfl
  case broadcast =>
    rintro dt n fall q t s x hx hb hxacts hst hfall hdue hreply
    have hgo : ¬ ((x.mport n).st ≠ .sending ∨ x.now < fall) := by simp [hst, hdue]
    rw [exec_requestSent, ← hx, State.onBlocks_of hb]
    simp only [State.requestSent, hxacts, ← hfall, if_neg hgo, hreply, if_true]
  case again =>
    rintro dt n q t s x hx hb hxacts hst hdue hreply htries
    rw [exec_firstMsExpiry, ← hx, State.onBlocks_of hb, State.noReply, if_pos ⟨hst, hdue⟩]
    refine congrArg s.leaves ?_
    simp [State.endXact, hxacts, hreply, htries, mpReg]
  case gap =>
    rintro dt n s x hx hb hbegun hover hmode hframe hdue
    rw [exec_idleGap, ← hx, State.onBlocks_of hb]
    simp [State.idleGap, hbegun, hover, hmode, hframe, hdue]
  case timeout =>
    rintro dt n s x hx hb hbegun hdue
    rw [exec_interTimeout, ← hx, State.onBlocks_of hb]
    exact congrArg s.leaves (if_pos ⟨hbegun, hdue⟩)
  case ended =>
    rintro x n status t hst hunsol
    simp only [State.frameDone, hst, hunsol, Bool.false_eq_true, if_false, reduceCtorEq]
    rfl
  case falseStart =>
    rintro dt n sm second s x y hx hb hon hst hlow harm hturn hps hhigh hy
    have hgo : ¬ ((!x.mpOn n) = true ∨ (x.mport n).st = .sending ∨ (x.mport n).low = true ∨ x.now < (x.mport n).armAt
        ∨ x.now < (x.mport n).deFall + bits (x.mpWord n 2) 15 8 * x.sixteenth n) := by
      simp [hon, hst, hlow, harm, hturn]
    have hidle : ¬ (x.hearth.ps = .smoulder ∨ x.hearth.ps = .ember ∨ (x.hearth.ps = .bank ∧ (!bitOf (x.mpWord n 0) 30) = true)) := by
      simp [hps]
    have hhigh' : (at? ((List.range (y.charBits n + 1)).map (fun i => sampled (at? sm i 7))) 0 (true, false)).1 = true := by
      simpa [at?, List.range_succ_eq_map] using hhigh
    rw [exec_charReceived, ← hx, State.onBlocks_of hb]
    simp only [State.charReceived, hst, reduceCtorEq, false_and, if_false]
    rw [if_neg (by simpa [hst] using hgo), if_neg hidle, ← hy, if_pos hhigh']
    rfl
  case ignored =>
    rintro dt n sm second s x hx hb hst hno
    have hno' : (!x.mpOn n) = true ∨ (x.mport n).st = .sending ∨ (x.mport n).low = true ∨ x.now < (x.mport n).armAt
        ∨ x.now < (x.mport n).deFall + bits (x.mpWord n 2) 15 8 * x.sixteenth n := by
      obtain h | h | h := hno <;> simp [h]
    rw [exec_charReceived, ← hx, State.onBlocks_of hb]
    simp only [State.charReceived, hst, false_and, if_false, if_pos hno']
  case char =>
    rintro x y n c bad t hover hmode hroom hy
    simp only [State.charIn, hover, hmode, Nat.not_le.mpr hroom, ← hy, Bool.false_eq_true, one_ne_zero, OfNat.one_ne_ofNat,
      false_and, if_false]
  case low =>
    rintro dt n s x hx hb hon hst hlow -
    have hgo : ¬ ((!x.mpOn n) = true ∨ (x.mport n).st = .sending ∨ (x.mport n).low = true) := by simp [hon, hst, hlow]
    rw [exec_busHeldLow, ← hx, State.onBlocks_of hb, State.busLow, if_neg hgo]
    simp only [hst, reduceCtorEq, if_false]
    rfl
  case released =>
    rintro dt n s x hx hb hlow
    rw [exec_busReleased, ← hx, State.onBlocks_of hb]
    exact congrArg s.leaves (if_pos hlow)

/-- Settles O38: the branches of the meter SDU, of the hold and of the MP opcodes (log entry 81). -/
theorem meterCommands : Obligations.MeterCommands := by
  unfold Obligations.MeterCommands
  refine ⟨?sdu, ?hold, ?disable, ?xact, ?status, ?load, ?start, ?stop, ?progStatus⟩
  case sdu =>
    rintro dt n d s x y hx hb hps htake htrust hn hlt hlo hhi hflags hres hquar hon hroom
    have hform : ¬ (d.bytes.length < 9 ∨ 2056 < d.bytes.length ∨ 47 < n ∨ 1 < field d.bytes 1 1
        ∨ field d.bytes 6 2 ≠ 0) := by
      omega
    rw [exec_meterSdu, ← hx, State.onBlocks_of hb]
    refine congrArg s.leaves ?_
    simp only [State.meterSduIn, hps, htake, ne_eq, not_true_eq_false, if_false]
    simp only [State.meterSdu, htrust, if_neg hform, hquar, ← hn, hon, Nat.not_le.mpr hroom, Bool.false_eq_true, if_false,
      Bool.not_true]
  case hold =>
    rintro dt h s x y hx hb hhold hoffer
    rw [exec_holdOffer, ← hx, State.onBlocks_of hb]
    simp [State.holdOffer, hhold, hoffer]
  case disable =>
    rintro dt n s x hx hb hn
    rw [exec_mpPortDisable, ← hx, State.onBlocks_of hb]
    exact congrArg s.leaves (if_pos hn)
  case xact =>
    rintro dt n tag p s x h hx hlo hhi hn hlt hflags hlocal hon hroom
    rw [exec_mpXact, State.command_asked h (by decide), ← hx]
    refine congrArg s.leaves ?_
    show opMpXact _ p x = _
    simp only [opMpXact, ← hn, hlocal, hon, Nat.not_lt.mpr hlo, Nat.not_lt.mpr hhi, Nat.not_lt.mpr hflags,
      Nat.not_le.mpr hroom, Nat.not_lt.mpr (Nat.le_of_lt_succ hlt), or_self, if_false, Bool.not_true, Bool.false_eq_true]
  case status =>
    rintro dt n tag p s x h hx hlen hn hlt
    rw [exec_mpStatus, State.command_asked h (by decide), ← hx]
    refine congrArg s.leaves ?_
    show opMpStatus _ p x = _
    simp only [opMpStatus, hlen, ← hn, Nat.not_lt.mpr (Nat.le_of_lt_succ hlt), ne_eq, not_true_eq_false, if_false, mpReg]
  case load =>
    rintro dt g count tag p l s x y h hx hlen hg hcount hfirst hparse hlt hne hmany hok hfit hst hy hsize
    have hform : ¬ (63 < g ∨ count = 0 ∨ 32 < count ∨ 31 < 0 ∨ (!stepsOk 33 (p.drop 3)) = true ∨ count < 0 + l.length) := by
      simp only [hok, Bool.not_true, Bool.false_eq_true, false_or]
      omega
    rw [exec_mpProgLoad, State.command_asked h (by decide), ← hx]
    refine congrArg s.leaves ?_
    show opMpProgLoad _ p x = _
    simp only [opMpProgLoad, State.loadProg, Nat.not_lt.mpr hlen, hparse, ← hg, ← hcount, hfirst, if_neg hform, hst, ← hy,
      Nat.not_lt.mpr hsize, ne_eq, not_true_eq_false, false_and, if_false, if_true]
  case start =>
    rintro dt g tag p s x h hx hlen hg hlt hlocal hst hloaded hquar
    rw [exec_mpProgStart, State.command_asked h (by decide), ← hx]
    refine congrArg s.leaves ?_
    show opMpProgStart _ p x = _
    simp only [opMpProgStart, hlen, ← hg, Nat.not_lt.mpr (Nat.le_of_lt_succ hlt), ne_eq, not_true_eq_false, if_false,
      State.startProg, hlocal, hst, hloaded, hquar, Bool.not_true, Bool.false_eq_true]
  case stop =>
    rintro dt g tag p s x h hx hlen hg hlt
    rw [exec_mpProgStop, State.command_asked h (by decide), ← hx]
    refine congrArg s.leaves ?_
    show opMpProgStop _ p x = _
    simp only [opMpProgStop, hlen, ← hg, Nat.not_lt.mpr (Nat.le_of_lt_succ hlt), ne_eq, not_true_eq_false, if_false]
  case progStatus =>
    rintro dt g tag p s x h hx hlen hg hlt
    rw [exec_mpProgStatus, State.command_asked h (by decide), ← hx]
    refine congrArg s.leaves ?_
    show opMpProgStatus _ p x = _
    simp only [opMpProgStatus, hlen, ← hg, Nat.not_lt.mpr (Nat.le_of_lt_succ hlt), ne_eq, not_true_eq_false, if_false]

end Sys2Proof.Machine
end

section
/-! PROOFS. Telecontrol tributaries (13) and the Ethernet ports (14). -/

namespace Sys2Proof.Machine

/-- Settles O39: the branches of the judgement, of the receive window and of the TB opcode (log entry 82). -/
theorem tributaries : Obligations.Tributaries := by
  unfold Obligations.Tributaries
  refine ⟨?judged, ?early, ?missing, ?lost, ?fast, ?inWindow, ?disable, ?status⟩
  case judged =>
    rintro dt s x y hx hb hdue hy
    have hgo : ¬ (!x.main.out || x.judgePoint.any (fun t => decide (x.now < t + 20 * usT))
        || (x.judgePoint.isSome && x.main.tb.judged == x.judgePoint)) = true := by
      cases hp : x.judgePoint with
      | none => simp [hb.1.1]
      | some t =>
        obtain ⟨hlate, hnew⟩ := hdue t hp
        simp [hb.1.1, hlate, hnew]
    rw [exec_containerJudge, ← hx, State.onBlocks_of hb]
    simp only [State.containerJudge, if_neg hgo, ← hy]
    rfl
  case early =>
    rintro dt t s x hx hb hp hno
    have hstop : (!x.main.out || x.judgePoint.any (fun t => decide (x.now < t + 20 * usT))
        || (x.judgePoint.isSome && x.main.tb.judged == x.judgePoint)) = true := by
      obtain h | h := hno <;> simp [hp, h]
    rw [exec_containerJudge, ← hx, State.onBlocks_of hb]
    simp only [State.containerJudge, if_pos hstop]
  case missing =>
    rintro x t hrun hfew
    simp only [State.judgeFrame, hrun, Nat.not_le.mpr hfew, if_false]
  case lost =>
    rintro x t hrun hmany
    simp only [State.judgeFrame, hrun, hmany, if_true]
  case fast =>
    rintro dt t e s x hx hb ht hon hin hfast
    have hgo : ¬ (4 ≤ t ∨ (!x.tribOn t) = true ∨ (x.trib t).ingress = 0) := by simp [hon, hin, ht]
    have hbad : decide (e ≤ 128 * x.tribN t + 2 * x.tribN t + 2) = false := by simpa using hfast
    rw [exec_rxcWindow, ← hx, State.onBlocks_of hb, State.rxcWindow, if_neg hgo]
    simp only [hbad, Bool.false_and, Bool.not_false, if_true]
  case inWindow =>
    rintro dt t s x hx hb ht hon hin
    have hgo : ¬ (4 ≤ t ∨ (!x.tribOn t) = true ∨ (x.trib t).ingress = 0) := by simp [hon, hin, ht]
    have hfast : decide (128 * x.tribN t ≤ 128 * x.tribN t + 2 * x.tribN t + 2) = true := by
      simp only [decide_eq_true_eq]; omega
    rw [exec_rxcWindow, ← hx, State.onBlocks_of hb, State.rxcWindow, if_neg hgo]
    simp only [hfast, hin, Bool.and_self, Bool.not_true, Bool.false_eq_true, if_true, if_false]
  case disable =>
    rintro dt t s x hx hb ht
    rw [exec_tbDisable, ← hx, State.onBlocks_of hb]
    exact congrArg s.leaves (if_pos ht)
  case status =>
    rintro dt tag s x h hx
    rw [exec_tbStatus, State.command_asked h (by decide), ← hx]
    refine congrArg s.leaves ?_
    show opTbStatus _ [] x = _
    simp only [opTbStatus, ne_eq, not_true_eq_false, if_false, List.flatMap_cons, List.flatMap_nil, List.append_nil,
      List.append_assoc, tbCfg]

/-- An enabled port whose link is up receives outside Smoulder (R458, R466). -/
theorem State.ethFrameRx_open {x : State} {n : Nat} (hn : n < 2) (hout : x.main.out = true)
    (hen : x.bit (0x0A0100 + 256 * n) 31 = true) (hup : (x.eport n).up = true) (hps : x.hearth.ps ≠ .smoulder) :
    ¬ (2 ≤ n ∨ (!x.main.out) = true ∨ (!x.bit (emReg n) 31) = true ∨ (!(x.eport n).up) = true ∨ x.hearth.ps = .smoulder) := by
  simp [Nat.not_le.mpr hn, hout, show x.bit (emReg n) 31 = true from hen, hup, hps]

/-- Settles O40: the branches of the frame received, of the link, of the sends and of the EM opcodes (log entries 83, 84,
85). -/
theorem ethernet : Obligations.Ethernet := by
  unfold Obligations.Ethernet
  refine ⟨?bad, ?good, ?pause, ?up, ?down, ?send, ?cut, ?mac, ?start, ?expiry, ?cfg, ?status, ?stats, ?mdio, ?mdioRead⟩
  case bad =>
    rintro dt n f symbol s x w hx hb hn hen hup hps hw hbad
    rw [exec_ethFrameRx, ← hx, State.onBlocks_of hb, State.ethFrameRx, if_neg (State.ethFrameRx_open hn hb.1.1 hen hup hps)]
    simp only [← hw]
    obtain rfl | hshort := hbad
    · rfl
    · cases symbol
      · simp only [hshort, Bool.false_eq_true, if_true, if_false]
      · rfl
  case good =>
    rintro dt n f s x w y hx hb hn hen hup hps hw hlo hhi hfcs hpause hy
    rw [exec_ethFrameRx, ← hx, State.onBlocks_of hb, State.ethFrameRx, if_neg (State.ethFrameRx_open hn hb.1.1 hen hup hps)]
    have hhi' : ¬ w.fld (emReg n) 13 0 < f.length := Nat.not_lt.mpr hhi
    simp only [← hw, Bool.false_eq_true, if_false, Nat.not_lt.mpr hlo, hhi', hfcs, ne_eq, not_true_eq_false, ← hy, hpause]
  case pause =>
    rintro dt n q f s x w y hx hb hn hen hup hps hw hlo hhi hfcs hpause hbit hy
    rw [exec_ethFrameRx, ← hx, State.onBlocks_of hb, State.ethFrameRx, if_neg (State.ethFrameRx_open hn hb.1.1 hen hup hps)]
    have hhi' : ¬ w.fld (emReg n) 13 0 < f.length := Nat.not_lt.mpr hhi
    have hbit' : w.bit (emReg n) 25 = true := hbit
    simp only [← hw, Bool.false_eq_true, if_false, Nat.not_lt.mpr hlo, hhi', hfcs, ne_eq, not_true_eq_false, ← hy, hpause,
      hbit', if_true]
  case up =>
    rintro dt n speed s x hx hb hn hen hstep hps hup hauto hgiga
    have hgo : ¬ (2 ≤ n ∨ (!x.main.out) = true ∨ (!x.bit (emReg n) 31) = true
        ∨ (at? x.main.boot.ends 4 none).isNone = true ∨ x.hearth.ps = .smoulder) := by
      simp [Nat.not_le.mpr hn, hb.1.1, show x.bit (emReg n) 31 = true from hen, hps, Option.isSome_iff_ne_none.mp hstep]
    have hauto' : x.bit (emReg n) 28 = true := hauto
    have hgiga' : x.bit (emReg n) 29 = true := hgiga
    rw [exec_linkChange, ← hx, State.onBlocks_of hb, State.linkChange, if_neg hgo]
    simp only [hup, hauto', hgiga', Bool.not_false, Bool.and_self, Bool.true_eq_false, Bool.not_true, Bool.false_eq_true,
      and_false, if_true, if_false, Bool.true_and]
    rfl
  case down =>
    rintro dt n speed half pause s x hx hb hn hen hstep hps hup
    have hgo : ¬ (2 ≤ n ∨ (!x.main.out) = true ∨ (!x.bit (emReg n) 31) = true
        ∨ (at? x.main.boot.ends 4 none).isNone = true ∨ x.hearth.ps = .smoulder) := by
      simp [Nat.not_le.mpr hn, hb.1.1, show x.bit (emReg n) 31 = true from hen, hps, Option.isSome_iff_ne_none.mp hstep]
    rw [exec_linkChange, ← hx, State.onBlocks_of hb, State.linkChange, if_neg hgo]
    simp only [hup, Bool.false_and, Bool.false_eq_true, if_false]
  case send =>
    rintro dt n d s x y hx hb hn hblaze hfind hdone htrust hy
    have hgo : ¬ ((!x.blazing) = true ∨ 2 ≤ n) := by simp [hblaze, hn]
    rw [exec_ethSend, ← hx, State.onBlocks_of hb, State.ethSend, if_neg hgo]
    simp only [hfind, hdone, ← hy, if_true, State.sendWhole, htrust]
    obtain ⟨z, taken⟩ := y.macSend n d.bytes true none
    cases taken <;> rfl
  case cut =>
    rintro dt n d s x y z hx hb hn hblaze hfind hdone htrust hy hmac
    have hgo : ¬ ((!x.blazing) = true ∨ 2 ≤ n) := by simp [hblaze, hn]
    rw [exec_ethSend, ← hx, State.onBlocks_of hb, State.ethSend, if_neg hgo]
    have hcount : emReg n + 8 = 0x0A0108 + 256 * n := by rw [emReg]; omega
    simp only [hfind, hdone, ← hy, if_true, State.sendWhole, hmac, htrust, hcount]
  case mac =>
    rintro x n b z hen hbr hup hroom hlen hfield hz hok
    have hen' : x.bit (emReg n) 31 = true := hen
    have hform : ¬ ((4 ≤ b.length ∧ field b 2 2 ≠ 0) ∨ (True ∧ b.length < 5)) := by simp [hfield, hlen]
    have hok' : z.ok (x.fld (emReg n) 13 0) = true := hok
    have hz' : z = { bytes := b, whole := true, stream := none, fwd := x.bit (emReg n) 24 } := hz
    simp only [State.macSend, hen', hup, hbr, Nat.not_lt.mpr hroom, ← hz', hok', Bool.not_true, Bool.false_eq_true,
      if_false, Bool.and_false]
    rw [if_neg hform]
  case start =>
    rintro dt n z t f s x hx hb hsends hup hwire hfree hpause hblaze hwhole hstream hmore hfirst hframe
    have hgo : ¬ ((!(x.eport n).up) = true ∨ (x.eport n).wire.isSome = true ∨ x.now < (x.eport n).freeAt ∨ False
        ∨ (!x.blazing) = true) := by
      simp [hup, hwire, hfree, hblaze]
    have hwait : (!z.fwd && (!true || (none : Option Nat).isSome)) = false := by simp
    have hend : ¬ (True ∧ z.count ≤ z.next) := by simp [hmore]
    have hfirst' : ¬ (decide (z.next = 0) && z.broken (x.fld (emReg n) 13 0)) = true := by
      simpa using show z.next = 0 → z.broken (x.fld (emReg n) 13 0) = false from hfirst
    rw [exec_ethFrameStart, ← hx, State.onBlocks_of hb]
    simp only [State.ethFrameStart, hsends, hpause, hwait, Bool.false_eq_true, if_false, if_neg hgo, hstream, hwhole,
      if_neg hend, if_neg hfirst', hframe]
  case expiry =>
    rintro dt n t s x hx hb hpause hdue
    rw [exec_pauseExpiry, ← hx, State.onBlocks_of hb]
    simp only [State.pauseExpiry, hpause, hdue, if_true]
  case cfg =>
    rintro dt n v s x hx hb hn
    rw [exec_emCfgWrite, ← hx, State.onBlocks_of hb]
    exact congrArg s.leaves (if_pos hn)
  case status =>
    rintro dt n tag p s x h hx hlen hn hlt
    rw [exec_emStatus, State.command_asked h (by decide), ← hx]
    refine congrArg s.leaves ?_
    show opEmStatus _ p x = _
    simp only [opEmStatus, hlen, ← hn, Nat.not_lt.mpr (Nat.le_of_lt_succ hlt), ne_eq, not_true_eq_false, if_false, emReg]
  case stats =>
    rintro dt n tag p s x h hx hlen hn hlt hbit
    have hbit' : x.bit (emReg n) 23 = true := hbit
    rw [exec_emStats, State.command_asked h (by decide), ← hx]
    refine congrArg s.leaves ?_
    show opEmStats _ p x = _
    simp only [opEmStats, hlen, ← hn, Nat.not_lt.mpr (Nat.le_of_lt_succ hlt), ne_eq, not_true_eq_false, if_false, hbit',
      if_true, emStat]
  case mdio =>
    rintro dt tag p s x h hx hlen hop hphy hreg
    have hform : ¬ ((field p 0 1 ≠ 22 ∧ field p 0 1 ≠ 45) ∨ 2 < field p 1 1 ∨ (field p 1 1 = 2 ∧ field p 0 1 = 22)
        ∨ 31 < field p 2 1 ∨ 31 < field p 3 1) := by
      omega
    have hwrite : field p 1 1 ≠ 0 := by omega
    rw [exec_emMdio, State.command_asked h (by decide), ← hx]
    refine congrArg s.leaves ?_
    show opEmMdio _ p x = _
    simp only [opEmMdio, hlen, ne_eq, not_true_eq_false, if_false, hwrite]
    rw [if_neg hform]
  case mdioRead =>
    rintro dt tag p s x h hx hlen hop hread hphy hreg
    have hform : ¬ ((field p 0 1 ≠ 22 ∧ field p 0 1 ≠ 45) ∨ 2 < 0 ∨ (0 = 2 ∧ field p 0 1 = 22)
        ∨ 31 < field p 2 1 ∨ 31 < field p 3 1) := by
      omega
    refine ⟨_, _, rfl, ?_⟩
    rw [exec_emMdio, State.command_asked h (by decide), ← hx]
    refine congrArg s.leaves ?_
    show opEmMdio _ p x = _
    simp only [opEmMdio, hlen, hread, ne_eq, not_true_eq_false, if_false, if_true]
    rw [if_neg hform]
    rfl

end Sys2Proof.Machine
end

section
/-! PROOFS. The cipher engine, its entropy source, and the CY opcodes (15). -/

namespace Sys2Proof.Machine

/-- A CY_RUN that is alone in the engine leaves it when its time is over (R495, R496). -/
theorem State.cipherEnd_run {x : State} {r r1 : CyReq} {op : Nat} (hout : x.main.out = true)
    (hpipes : x.main.cy.pipes = [some r, none]) (hps : x.hearth.ps = .blaze)
    (hdue : 12800 + 1024 * r.data.length ≤ 1000 * (x.now - r.startAt)) (hrun : r.for_ = .run op)
    (hfin : x.main.cy.fin = []) (hr1 : r1 = { r with out := r.runResult.1, status := r.runResult.2 }) :
    x.cipherEnd 0 = (x.modCy (fun c => { c with pipes := [none, none], fin := [] }), [r1]) := by
  have hgo : ¬ ((!x.main.out) = true ∨ x.hearth.ps ≠ .blaze ∨ (!r.elapsed x.now) = true) := by
    simp [hout, hps, CyReq.elapsed, hdue]
  have hpipe : at? [some r, none] 0 none = some r := rfl
  have hend : x.endRequest r = (x, r1) := by simp only [State.endRequest, hrun, hr1]
  simp only [State.cipherEnd, State.modCy, hpipes, hpipe, if_neg hgo, hend, hfin, Cipher.sendable, List.set_cons_zero,
    List.nil_append, List.all_cons, List.all_nil, Bool.and_self, List.filter_cons, List.filter_nil, if_true,
    List.mergeSort_singleton, List.contains_cons, beq_self_eq_true, Bool.true_or, Bool.not_true, Bool.false_eq_true, if_false]

/-- Its operation is answered with what it has produced (R503). -/
theorem State.cipherCompletion_run {x : State} {r : CyReq} {op : Nat} (hout : x.main.out = true)
    (hpipes : x.main.cy.pipes = [some r, none]) (hps : x.hearth.ps = .blaze)
    (hdue : 12800 + 1024 * r.data.length ≤ 1000 * (x.now - r.startAt)) (hrun : r.for_ = .run op)
    (hfin : x.main.cy.fin = []) :
    x.cipherCompletion 0 = (x.modCy (fun c => { c with pipes := [none, none], fin := [] })).finish op r.runResult.2
      r.runResult.1 := by
  rw [State.cipherCompletion, State.cipherEnd_run hout hpipes hps hdue hrun hfin rfl]
  simp only [State.completeAll, List.foldl_cons, List.foldl_nil, State.complete, hrun]

/-- A member whose main domain is off is zeroised in its Hearth alone (R189). -/
theorem State.zeroise_off {x : State} (c src : Nat) (hout : x.main.out = false) :
    x.zeroise c src = { x with hearth := { x.hearth with keys := List.replicate 256 {} } } := by
  unfold State.zeroise
  exact if_pos (by simp [hout])

/-- Settles O41: the branches of the pipelines, of the health tests and of a key's update (log entries 30, 86). -/
theorem cipherEngine : Obligations.CipherEngine := by
  unfold Obligations.CipherEngine
  refine ⟨?start, ?completion, ?first, ?third, ?restart, ?reseed, ?stopped, ?passed, ?bank, ?update, ?disable⟩
  case start =>
    rintro dt pipe q r t op s x hx hb hpipe hblaze hready hstop hbusy hfree hpick hqueue hrun
    have hgo : ¬ (1 < pipe ∨ (!x.main.out) = true ∨ (!x.blazing) = true ∨ (!x.main.cy.ready) = true
        ∨ at? x.main.cy.stopped pipe true = true ∨ (at? x.main.cy.pipes pipe none).isSome = true
        ∨ x.now < at? x.main.cy.busy pipe 0) := by
      simp [hb.1.1, hblaze, hready, hstop, hfree, hbusy]
      omega
    rw [exec_cipherRequestStart, ← hx, State.onBlocks_of hb]
    refine congrArg s.leaves ?_
    simp only [State.cipherStart, if_neg hgo, hpick, hqueue, hrun]
    rfl
  case completion =>
    rintro dt op r s x hx hb hpipes hps hdue hrun hfin
    rw [exec_cipherCompletion, ← hx, State.onBlocks_of hb]
    exact congrArg s.leaves (State.cipherCompletion_run hb.1.1 hpipes hps hdue hrun hfin)
  case first =>
    rintro dt s x hx hb hps hfails
    rw [exec_rngHealthFail, ← hx, State.onBlocks_of hb]
    simp [State.rngHealthFail, hb.1.1, hps, hfails]
  case third =>
    rintro dt s x hx hb hps hfails hrng
    rw [exec_rngHealthFail, ← hx, State.onBlocks_of hb]
    simp [State.rngHealthFail, hb.1.1, hps, hfails, hrng, sat]
  case restart =>
    rintro dt s x hx hb hrng hdue
    rw [exec_rngRestart, ← hx, State.onBlocks_of hb]
    exact congrArg s.leaves (if_pos ⟨hrng, hdue⟩)
  case reseed =>
    rintro dt i s x hx hb hi hready hrng
    have hgo : ¬ ((!x.main.out) = true ∨ 2 < i ∨ (!x.main.cy.ready) = true) := by simp [hb.1.1, hi, hready]
    rw [exec_drbgReseed, ← hx, State.onBlocks_of hb]
    simp only [State.drbgReseed, if_neg hgo, hrng, Bool.false_eq_true, if_false]
    rfl
  case stopped =>
    rintro dt i s x hx hb hi hready hrng
    have hgo : ¬ ((!x.main.out) = true ∨ 2 < i ∨ (!x.main.cy.ready) = true) := by simp [hb.1.1, hi, hready]
    rw [exec_drbgReseed, ← hx, State.onBlocks_of hb]
    simp only [State.drbgReseed, if_neg hgo, hrng, if_true]
  case passed =>
    rintro dt s x hx hb hps htest hstop
    have hgo : ¬ ((!x.main.out) = true ∨ (!x.main.cy.testing) = true ∨ x.hearth.ps = .smoulder) := by
      simp [hb.1.1, htest, hps]
    rw [exec_startUpTestPassed, ← hx, State.onBlocks_of hb]
    simp only [State.rngPassed, if_neg hgo, hstop]
    rfl
  case bank =>
    rintro dt u s x hx hb hupd hdue
    rw [exec_inactiveBankWaitTimeout, ← hx, State.onBlocks_of hb]
    simp only [State.bankWaitOver, hupd, if_neg (Nat.not_lt.mpr hdue)]
  case update =>
    rintro x u hupd husing
    simp only [State.proceedUpdate, hupd, husing, ne_eq, not_true_eq_false, if_false]
  case disable =>
    rintro dt q s x hx hb hq
    rw [exec_cyQueueDisable, ← hx, State.onBlocks_of hb]
    exact congrArg s.leaves (if_pos hq)

/-- CY_ZEROISE with its key zeroises the member (R510). -/
theorem exec_cyZeroise_key {dt : Nat} {tag : BitVec 16} {p : List Byte} {s x : State} (h : s.willRun dt 0x0B04 tag.toNat p)
    (hx : x = s.asked dt 0x0B04 tag.toNat p) (hlen : p.length = 2) (hkey : field p 0 2 = 0xA5C3) :
    exec (.cyZeroise dt tag p) s = s.leaves ((x.zeroise 2 0).finish x.lastOp 0 []) := by
  rw [exec_cyZeroise, State.command_asked h (by decide), ← hx]
  refine congrArg s.leaves ?_
  show opCyZeroise _ p x = _
  rw [opCyZeroise, if_neg (not_not.mpr hlen), if_neg (not_not.mpr hkey)]

/-- Settles O42: the branches of the CY opcodes, of a zeroisation and of `State.submit` (log entries 86, 87). -/
theorem cipherOpcodes : Obligations.CipherOpcodes := by
  unfold Obligations.CipherOpcodes
  refine ⟨?status, ?info, ?load, ?erase, ?zeroise, ?zeroised, ?run, ?submit⟩
  case status =>
    rintro dt tag s x h hx
    rw [exec_cyStatus, State.command_asked h (by decide), ← hx]
    rfl
  case info =>
    rintro dt k tag p s x h hx hlen hk hpaired hprev
    rw [exec_cyKeyInfo, State.command_asked h (by decide), ← hx]
    refine congrArg s.leaves ?_
    show opCyKeyInfo _ p x = _
    simp only [opCyKeyInfo, ← hk, hlen, hpaired, hprev, ne_eq, not_true_eq_false, if_false, Bool.false_eq_true]
  case load =>
    rintro dt tag p s x h hx hlo hhi hlen husage hres hslot
    have hsizes : ¬ (p.length ≠ 54 ∧ p.length ≠ 62 ∧ p.length ≠ 70) := by
      rw [hlen, keyBytes]
      omega
    have hform : ¬ (field p 1 1 < 1 ∨ 3 < field p 1 1 ∨ 63 < field p 2 1 ∨ field p 3 1 ≠ 0 ∨ 0x100 < field p 4 2) := by
      omega
    rw [exec_cyKeyLoad, State.command_asked h (by decide), ← hx]
    refine congrArg s.leaves ?_
    show opCyKeyLoad _ p x = _
    simp only [opCyKeyLoad, if_neg hsizes, if_neg hform, if_neg (not_not.mpr hlen)]
  case erase =>
    rintro dt tag p s x h hx hlen
    rw [exec_cyKeyErase, State.command_asked h (by decide), ← hx]
    exact congrArg s.leaves (if_neg (not_not.mpr hlen))
  case zeroise =>
    rintro dt tag s x h hx
    exact exec_cyZeroise_key h hx (by decide) (by decide)
  case zeroised =>
    rintro x c src k hout hk
    rw [State.zeroise_off c src hout]
    refine ⟨?_, rfl, rfl, rfl⟩
    simp only [State.keySlot, at?, List.getD_eq_getElem?_getD, List.getElem?_replicate, hk, if_true, Option.getD_some]
  case run =>
    rintro dt q tag p s x y h hx hop hlo hhi hres hpaired hq hon hcan hsubmit
    have hlen : ¬ (p.length < 20 + 1 ∨ 20 + 4000 < p.length) := by omega
    rw [exec_cyRun, State.command_asked h (by decide), ← hx]
    refine congrArg s.leaves ?_
    show opCyRun _ p x = _
    simp only [opCyRun, hop, OfNat.one_ne_ofNat, or_self, decide_false, Bool.false_eq_true, if_false, if_neg hlen, hres, hpaired,
      ← hq, hon, hcan, ne_eq, not_true_eq_false, Bool.not_true, hsubmit]
    rw [if_neg (by omega)]
  case submit =>
    rintro x r hon hroom
    simp only [State.submit, hon, Nat.not_le.mpr hroom, Bool.not_true, Bool.false_eq_true, if_false]

end Sys2Proof.Machine
end

section
/-! PROOFS. The picture coder (16): the stages of its pipeline, the search, the decoder, and the PC opcodes. -/

namespace Sys2Proof.Machine

/-! ### The search (R527, R528) -/

/-- The least of a list's costs is at most each of them. -/
theorem foldl_min_le (l : List Nat) (a : Nat) : l.foldl min a ≤ a ∧ ∀ b ∈ l, l.foldl min a ≤ b := by
  induction l generalizing a with
  | nil => exact ⟨le_rfl, fun _ h => absurd h List.not_mem_nil⟩
  | cons c t ih =>
    obtain ⟨hle, hall⟩ := ih (min a c)
    refine ⟨hle.trans (min_le_left a c), fun b hb => ?_⟩
    obtain rfl | hb := List.mem_cons.mp hb
    · exact hle.trans (min_le_right a b)
    · exact hall b hb

/-- The least of a list's costs is one of them, or the one begun with. -/
theorem foldl_min_mem (l : List Nat) (a : Nat) : l.foldl min a = a ∨ l.foldl min a ∈ l := by
  induction l generalizing a with
  | nil => exact .inl rfl
  | cons c t ih =>
    obtain h | h := ih (min a c)
    · rcases min_choice a c with hm | hm
      · exact .inl (h.trans hm)
      · exact .inr (by rw [List.foldl_cons, h, hm]; exact List.mem_cons_self)
    · exact .inr (List.mem_cons_of_mem c h)

/-- A search takes a vector of the least cost: one of the list's, whatever the free value is. -/
theorem leastOf_least {l : List (Int × Int)} (cost : Int × Int → Nat) (free : Nat) {v : Int × Int} (hv : v ∈ l) :
    (leastOf l cost free).1 ∈ l ∧ (leastOf l cost free).2 = cost (leastOf l cost free).1
      ∧ (leastOf l cost free).2 ≤ cost v := by
  obtain ⟨u, t, rfl⟩ := List.exists_cons_of_ne_nil (List.ne_nil_of_mem hv)
  have hmin := (foldl_min_le ((u :: t).map cost) (cost u)).2
  have hmem : ((u :: t).map cost).foldl min (cost u) ∈ (u :: t).map cost := by
    obtain h | h := foldl_min_mem ((u :: t).map cost) (cost u)
    · rw [h]; exact List.mem_cons_self
    · exact h
  have hzip : (u :: t).zip ((u :: t).map cost) = (u :: t).map (fun a => (a, cost a)) := by
    rw [List.zip, List.zipWith_map_right, List.zipWith_self]
  have hpick : ∀ (b : List ((Int × Int) × Nat)) (k : Nat), b ≠ [] → at? b (k % max 1 b.length) ((0, 0), 0) ∈ b := by
    intro b k hb
    have hlen : 0 < b.length := List.length_pos_iff.mpr hb
    have hlt : k % max 1 b.length < b.length := by
      rw [max_eq_right hlen]
      exact Nat.mod_lt k hlen
    rw [at?, List.getD_eq_getElem _ _ hlt]
    exact List.getElem_mem hlt
  have hm : (leastOf (u :: t) cost free).2 = ((u :: t).map cost).foldl min (cost u) := rfl
  have hbest : ((u :: t).map (fun a => (a, cost a))).filter (fun p => p.2 == (leastOf (u :: t) cost free).2) ≠ [] := by
    obtain ⟨w, hw, hcost⟩ := List.mem_map.mp hmem
    refine List.ne_nil_of_mem (List.mem_filter.mpr ⟨List.mem_map_of_mem hw, ?_⟩)
    rw [hm, ← hcost]
    exact beq_self_eq_true _
  obtain ⟨hin, heq⟩ := List.mem_filter.mp (hpick _ free hbest)
  obtain ⟨w, hw, hval⟩ := List.mem_map.mp hin
  have hfst : (leastOf (u :: t) cost free).1 = w := by
    rw [leastOf, hzip]
    exact (congrArg Prod.fst hval).symm
  rw [← hval] at heq
  exact ⟨hfst ▸ hw, by rw [hfst]; exact (beq_iff_eq.mp heq).symm, hm ▸ hmin _ (List.mem_map_of_mem hv)⟩

theorem leastOf_nil (cost : Int × Int → Nat) (free : Nat) : (leastOf [] cost free).1 = (0, 0) := rfl

/-- The vector of a region lies within the search's reach (R527). -/
theorem searchRegion_inReach (q : SearchIn) (i k : Nat) (pred : Int × Int) (free : Nat → Nat) :
    (searchRegion q i k pred free).1.natAbs ≤ 555 ∧ (searchRegion q i k pred free).2.1.natAbs ≤ 299 := by
  have hreach : ∀ (l : List (Int × Int)) (cost : Int × Int → Nat) (n : Nat),
      (leastOf (l.filter (inReach 1)) cost n).1.1.natAbs ≤ 555 ∧ (leastOf (l.filter (inReach 1)) cost n).1.2.natAbs ≤ 299 := by
    intro l cost n
    cases h : l.filter (inReach 1) with
    | nil => exact ⟨by simp [leastOf_nil], by simp [leastOf_nil]⟩
    | cons u t =>
      obtain ⟨hmem, -, -⟩ := leastOf_least cost n (List.mem_cons_self (a := u) (l := t))
      rw [← h] at hmem ⊢
      simpa [inReach] using (List.mem_filter.mp hmem).2
  unfold searchRegion
  dsimp only
  exact hreach _ _ _

/-! ### The obligations -/

/-- A row of a picture that is not cut, without a poisoned word, leaves stage 3: its vectors enter the field, its bytes the clip
store (R524, R531). -/
theorem State.s3RowDone_stored {x x0 : State} {c : Nat} {p : Pic} {bytes : List Byte} {preds : List (Int × Int)}
    {es : List (Int × Int × Nat)} (hs3 : x.main.pc.s3 = some c) (hpic : x.pic? c = some p) (hcut : p.cut = false)
    (hsearch : x.searchRow c p preds = (x0, es)) :
    x.s3RowDone bytes preds none
      = ((((x0.modPc (fun q => { q with s3 := none })).modPic c (fun q => { q with
          field := q.field ++ q.fieldRow es
          s3At := q.s3At ++ [x.now]
          ring := q.ring.drop 32
          ringRow := q.ringRow + 1
          coding := [] })).store c bytes []).1.fieldFollow c) := by
  simp only [State.s3RowDone, hs3, State.s3Row, hpic, hsearch, hcut, Bool.false_eq_true, if_false]

/-- Settles O43: the branches of the stages and of the decoder's end, and the bounds of the search (log entries 90, 91, 94,
142). -/
theorem pictureStages : Obligations.PictureStages := by
  unfold Obligations.PictureStages
  refine ⟨?s2, ?s3, ?stored, ?s5, ?channel, ?damaged, ?ended, ?least, ?reach⟩
  case s2 =>
    rintro dt c s x hx hb hs2
    rw [exec_s2RowDone, ← hx, State.onBlocks_of hb]
    simp only [State.s2RowDone, hs2]
  case s3 =>
    rintro dt c bytes preds es p s x x0 y hx hb hs3 hpic hcut hsearch hy
    rw [exec_s3RowDone, ← hx, State.onBlocks_of hb, State.s3RowDone_stored hs3 hpic hcut hsearch, ← hy]
  case stored =>
    rintro x y c id k b hclip hk hlock hroom
    simp only [State.store, hclip, hk, hlock, Bool.false_and, Bool.false_eq_true, if_false, List.length_nil, Nat.mul_zero,
      Nat.add_zero, hroom, List.foldl_nil]
  case s5 =>
    rintro dt c ly lcb lcr p s x hx hb hs5 hpic hlean hmain hrows
    rw [exec_s5RowDone, ← hx, State.onBlocks_of hb]
    simp only [State.s5RowDone, hs5, hpic, hlean, hmain, Bool.false_eq_true, false_and, if_false, Nat.not_le.mpr hrows]
  case channel =>
    rintro dt c v s x hx hb hc
    rw [exec_pcChannelWrite, ← hx, State.onBlocks_of hb]
    exact congrArg s.leaves (if_pos hc)
  case damaged =>
    rintro dt cls ctb d s x y hx hb hdec hy
    rw [exec_decodePictureDone, ← hx, State.onBlocks_of hb]
    simp only [State.decodePictureDone, hdec, ← hy]
  case ended =>
    rintro x d cls ctb hdec
    simp only [State.endDecode, hdec, ne_eq, not_true_eq_false, decide_false, if_true]
  case least =>
    rintro l cost free v hv
    exact leastOf_least cost free hv
  case reach =>
    rintro q i k pred free vx vy cost h
    have hreach := searchRegion_inReach q i k pred free
    rwa [h] at hreach

/-- Settles O44: the branches of the PC opcodes (log entries 96, 97, 98). -/
theorem pictureOpcodes : Obligations.PictureOpcodes := by
  unfold Obligations.PictureOpcodes
  refine ⟨?status, ?budget, ?idr, ?list, ?index, ?send, ?lock, ?locked, ?unlock, ?load, ?decode, ?stop⟩
  case status =>
    rintro dt tag s x h hx
    rw [exec_pcStatus, State.command_asked h (by decide), ← hx]
    rfl
  case budget =>
    rintro dt w tag p s x h hx hlen hw hlegal hprofile hbits hres
    rw [exec_pcBudget, State.command_asked h (by decide), ← hx]
    refine congrArg s.leaves ?_
    show opPcBudget _ p x = _
    have hform : (!regLegal (regFields (pcReg 0)) w || (bitOf w 29 && bitOf w 30) || bits w 25 24 != 0 || bits w 7 4 != 0)
        = false := by
      simp [hlegal, hprofile, hbits, hres]
    simp only [opPcBudget, hlen, ← hw, hform, ne_eq, not_true_eq_false, if_false, Bool.false_eq_true]
  case idr =>
    rintro dt c tag p s x h hx hlen hc hlt hon
    rw [exec_pcForceIdr, State.command_asked h (by decide), ← hx]
    refine congrArg s.leaves ?_
    show opPcForceIdr _ p x = _
    simp only [opPcForceIdr, hlen, ← hc, Nat.not_lt.mpr (Nat.le_of_lt_succ hlt), hon, ne_eq, not_true_eq_false, if_false,
      Bool.not_true, Bool.false_eq_true]
  case list =>
    rintro dt first n tag p s x h hx hlen hfirst hn hlo hhi
    rw [exec_pcClipList, State.command_asked h (by decide), ← hx]
    refine congrArg s.leaves ?_
    show opPcClipList _ p x = _
    simp only [opPcClipList, hlen, ← hfirst, ← hn, Nat.not_lt.mpr hlo, Nat.not_lt.mpr hhi, or_self, ne_eq,
      not_true_eq_false, if_false]
  case index =>
    rintro dt n k tag p s x h hx hlen hn hlo hhi hk
    rw [exec_pcClipIndex, State.command_asked h (by decide), ← hx]
    refine congrArg s.leaves ?_
    show opPcClipIndex _ p x = _
    simp only [opPcClipIndex, hlen, ← hn, Nat.not_lt.mpr hlo, Nat.not_lt.mpr hhi, or_self, ne_eq, not_true_eq_false,
      if_false, hk]
  case send =>
    rintro dt k us tag p s x h hx hlen hdest hk hfrom hread hagain hus
    rw [exec_pcClipSend, State.command_asked h (by decide), ← hx]
    refine congrArg s.leaves ?_
    show opPcClipSend _ p x = _
    have hexport : x.noExport 0 = false := by simp [State.noExport]
    simp only [opPcClipSend, hlen, hdest, hk, hfrom, hread, hagain, hexport, ne_eq, not_true_eq_false, if_false,
      Nat.not_lt_zero, Nat.lt_irrefl, Bool.false_eq_true, Option.getD_some, List.drop_length, List.flatMap_nil,
      List.append_nil, ← hus]
  case lock =>
    rintro dt st tag p s x y h hx hlen hflag hlock
    rw [exec_pcClipLock, State.command_asked h (by decide), ← hx]
    refine congrArg s.leaves ?_
    show opPcClipLock _ p x = _
    simp only [opPcClipLock, hlen, Nat.not_lt.mpr hflag, hlock, ne_eq, not_true_eq_false, if_false]
  case locked =>
    rintro x id kind k hk hlock hfits
    simp only [State.lockClip, hk, hlock, hfits, Bool.false_and, Bool.not_false, Bool.not_true, Bool.and_false,
      Bool.false_eq_true, if_false]
  case unlock =>
    rintro dt k tag p s x h hx hlen hk
    rw [exec_pcClipUnlock, State.command_asked h (by decide), ← hx]
    refine congrArg s.leaves ?_
    show opPcClipUnlock _ p x = _
    simp only [opPcClipUnlock, hlen, hk, ne_eq, not_true_eq_false, if_false]
  case load =>
    rintro dt off tag p s x h hx hlo hhi hoff hfit hdec
    rw [exec_pcDecLoad, State.command_asked h (by decide), ← hx]
    refine congrArg s.leaves ?_
    show opPcDecLoad _ p x = _
    have hfit' : ¬ 262144 < off + (p.drop 4).length := by rw [List.length_drop]; omega
    simp only [opPcDecLoad, Nat.not_lt.mpr hlo, Nat.not_lt.mpr hhi, or_self, if_false, ← hoff, hfit', hdec,
      Option.isSome_none, Bool.false_eq_true]
  case decode =>
    rintro dt id dest k tag p s x y z h hx hlen hid hne hdest hwhere hdec hk hexport hy htaken hroom
    rw [exec_pcDecode, State.command_asked h (by decide), ← hx]
    refine congrArg s.leaves ?_
    show opPcDecode _ p x = _
    have hform : ¬ (dest < 1 ∨ 2 < dest ∨ (False ∧ (field p 2 4 < 1 ∨ x.main.pc.load.length < field p 2 4))) := by
      obtain rfl | rfl := hwhere <;> simp
    simp only [opPcDecode, hlen, ← hid, decide_eq_false hne, ← hdest, if_neg hform, hdec, hk, hexport, ne_eq,
      not_true_eq_false, if_false, Option.isSome_none, Option.isNone_some, Bool.false_eq_true, and_false, ← hy,
      Nat.not_lt.mpr htaken, hroom]
  case stop =>
    rintro dt tag s x h hx hdec
    rw [exec_pcDecStop, State.command_asked h (by decide), ← hx]
    refine congrArg s.leaves ?_
    show opPcDecStop _ [] x = _
    have hdec' : ¬ x.main.pc.dec.isNone = true := by simpa [Option.isSome_iff_ne_none] using hdec
    simp only [opPcDecStop, ne_eq, not_true_eq_false, if_false, hdec', Bool.false_eq_true]

end Sys2Proof.Machine
end

section
/-! PROOFS. Watch (17): captures, lamps, disc readers, and the WA opcodes. -/

namespace Sys2Proof.Machine

/-- Settles O45: the branches of a capture's steps, of the lamp, of the discs and of the WA opcodes (log entries 99, 100, 101,
102). -/
theorem watchCaptures : Obligations.WatchCaptures := by
  unfold Obligations.WatchCaptures
  refine ⟨?start, ?channel, ?line, ?repaired, ?ended, ?timeout, ?lampOn, ?lampMax, ?disc, ?status, ?capture, ?field, ?total,
    ?i2c⟩
  case start =>
    rintro dt c h st s x hx hb hc hh hlost hcap hst
    have hgo : ¬ (4 ≤ c ∨ (!x.main.out) = true) := by simp [hc, hb.1.1]
    rw [exec_frameStart, ← hx, State.onBlocks_of hb, State.frameStart, if_neg hgo]
    simp only [ne_eq, not_true_eq_false, if_false, ← hh, ← hst, hlost, hcap, Bool.false_eq_true]
  case channel =>
    rintro dt c vc s x hx hb hc hvc
    have hgo : ¬ (4 ≤ c ∨ (!x.main.out) = true) := by simp [hc, hb.1.1]
    rw [exec_frameStart, ← hx, State.onBlocks_of hb, State.frameStart, if_neg hgo, if_pos hvc]
    rfl
  case line =>
    rintro dt c dtype bad y cb cr s x hx hb hc hdtype hcap hline
    have hgo : ¬ (4 ≤ c ∨ (!x.main.out) = true) := by simp [hc, hb.1.1]
    have hmine : ¬ (False ∨ ¬ dtype = csiType (x.fld (waReg c) 30 29)) := by
      rintro (h | h)
      · exact h
      · exact h hdtype
    rw [exec_lineReceived, ← hx, State.onBlocks_of hb, State.lineReceived]
    simp only [if_neg hgo, if_neg hmine, hcap, ne_eq, not_true_eq_false, if_false, Nat.not_le.mpr hline]
  case repaired =>
    rintro x y c raw hraw hy
    have hy' : y = x.count (waReg c + 24) 7 0 := hy
    simp only [State.takeLine, Option.getD_none, ← hraw, Option.isNone_none, if_true, ← hy']
    rfl
  case ended =>
    rintro dt c mean h s x hx hb hc hh hcap hline hlit hamb hsum hpos
    have hgo : ¬ (4 ≤ c ∨ (!x.main.out) = true) := by simp [hc, hb.1.1]
    rw [exec_frameEnd, ← hx, State.onBlocks_of hb]
    refine congrArg s.leaves ?_
    simp only [State.frameEnd, if_neg hgo, ne_eq, not_true_eq_false, if_false, ← hh, hcap, hline, Nat.sub_self,
      State.missingLines, hsum, Nat.mul_div_cancel mean hpos, hlit, Bool.false_and, Bool.false_eq_true]
    rfl
  case timeout =>
    rintro dt c h s x y hx hb hc hh hcap hdue hy hfew
    have hgo : ¬ (4 ≤ c ∨ h.cap ≠ .awaiting ∨ x.now < h.trigAt + x.fld (waReg c) 15 0 * msT) := by
      simp [hc, hcap]
      exact hdue
    have hy' : y = ((((x.count (waReg c + 24) 23 16).skipRecord c (x.capStamp h.entry)).finish? h.op 0x0012 []).modCam c
        (fun q => { q with noFrame := q.noFrame + 1 })).capEnd c := hy
    rw [exec_frameTimeout, ← hx, State.onBlocks_of hb]
    simp only [State.frameTimeout, ← hh, if_neg hgo, ← hy', hfew, if_false]
  case lampOn =>
    rintro dt c i key s x hx hb hkey hpos hreach hwill hdone
    have hkey' : key = x.entHeld (x.fld (waReg c + 12) 29 21) := hkey
    rw [exec_lampOn, ← hx, State.onBlocks_of hb]
    refine congrArg s.leaves ?_
    simp only [State.lampOn, hpos, ← hkey', hreach, hwill, Bool.and_self, Bool.true_and, bne_iff_ne, ne_eq, hdone,
      not_false_eq_true, if_true]
    rfl
  case lampMax =>
    rintro dt c s x hx hb hlit hdue
    rw [exec_lampMax, ← hx, State.onBlocks_of hb]
    refine congrArg s.leaves (if_pos ?_)
    simp only [hlit, Bool.true_and, decide_eq_true_eq]
    exact hdue
  case disc =>
    rintro dt d s x hx hb hd hen hstop hdue
    have hgo : ¬ (4 ≤ d ∨ (!x.main.out) = true ∨ (!x.bit (discReg d) 31) = true ∨ (x.reader d).stopped = true
        ∨ x.now < (x.reader d).rotAt + x.fld (discReg d + 12) 19 12 * secT) := by
      simp [hd, hb.1.1, hstop, show x.bit (discReg d) 31 = true from hen]
      exact hdue
    rw [exec_discStopTimeout, ← hx, State.onBlocks_of hb]
    exact congrArg s.leaves (if_neg hgo)
  case status =>
    rintro dt c tag p s x h hx hlen hc hlt
    rw [exec_waStatus, State.command_asked h (by decide), ← hx]
    refine congrArg s.leaves ?_
    show opWaStatus _ p x = _
    simp only [opWaStatus, hlen, ← hc, Nat.not_lt.mpr (Nat.le_of_lt_succ hlt), ne_eq, not_true_eq_false, if_false, waReg]
  case capture =>
    rintro dt c tag p s x h hx hlen hc hlt hcap htrig hlamp hbit
    rw [exec_waCapture, State.command_asked h (by decide), ← hx]
    refine congrArg s.leaves ?_
    show opWaCapture _ p x = _
    have hbit' : bitOf (x.word (waReg c)) 28 = true := hbit
    simp only [opWaCapture, hlen, ← hc, Nat.not_lt.mpr (Nat.le_of_lt_succ hlt), ne_eq, not_true_eq_false, if_false, hcap, htrig,
      Bool.not_true, Bool.false_eq_true, State.capture, hlamp, Bool.false_and, hbit', if_true]
    rfl
  case field =>
    rintro dt c poc a dn f tag p s x h hx hlen hc hlt hlast
    rw [exec_waField, State.command_asked h (by decide), ← hx]
    refine congrArg s.leaves ?_
    show opWaField _ p x = _
    simp only [opWaField, hlen, ← hc, Nat.not_lt.mpr (Nat.le_of_lt_succ hlt), ne_eq, not_true_eq_false, if_false, hlast]
  case total =>
    rintro dt d tag p s x h hx hlen hd hlt
    rw [exec_waDisc, State.command_asked h (by decide), ← hx]
    refine congrArg s.leaves ?_
    show opWaDisc _ p x = _
    simp only [opWaDisc, hlen, ← hd, Nat.not_lt.mpr (Nat.le_of_lt_succ hlt), ne_eq, not_true_eq_false, if_false]
  case i2c =>
    rintro dt c tag p s x h hx hlen hc hlt haddr hw hr hbit
    refine ⟨_, _, _, rfl, rfl, ?_⟩
    rw [exec_waI2c, State.command_asked h (by decide), ← hx]
    refine congrArg s.leaves ?_
    show opWaI2c _ p x = _
    have hform : ¬ (p.length < 4 ∨ (field p 2 1 ≤ 32 ∧ p.length ≠ 4 + field p 2 1)) := by omega
    have hrange : ¬ (3 < c ∨ 127 < field p 1 1 ∨ 32 < field p 2 1 ∨ 32 < field p 3 1) := by omega
    have hoff : ¬ x.bit (pcReg c) 31 = true := ne_true_of_eq_false hbit
    rw [opWaI2c, if_neg hform]
    simp only [← hc, if_neg hrange, if_neg hoff]
    rfl

end Sys2Proof.Machine
end

section
/-! PROOFS. Electronic fuse channels (18): samples, trips, timers, seating, and the PW opcodes. -/

namespace Sys2Proof.Machine

/-- Settles O46: the branches of a sample, of a trip, of the timers and of the PW opcodes (log entries 103, 104, 144). -/
theorem fuseChannels : Obligations.FuseChannels := by
  unfold Obligations.FuseChannels
  refine ⟨?sample, ?overcurrent, ?fast, ?fastTrip, ?latched, ?freeze, ?sag, ?uv, ?seated, ?unseated, ?inrush, ?budget, ?backoff,
    ?stable, ?damaged, ?disable, ?status, ?clear, ?clearOn⟩
  case sample =>
    rintro dt bus sense out s x hx hb
    rw [exec_pwSample, ← hx, State.onBlocks_of hb]
    exact congrArg s.leaves (if_neg (by simp [hb.1.1]))
  case overcurrent =>
    rintro x y c lim f hf hon hlim hlo hhi hrun hy
    have hover : f.st = .on ∧ bits (x.pwWord c 2) 23 16 * 10 ≤ f.sense * 2 := ⟨hon, hlim ▸ hlo⟩
    have hslow : ¬ (f.st.gate = true ∧ bits (x.pwWord c 2) 31 24 * 10 < f.sense * 2) := fun ⟨_, h⟩ => absurd h (Nat.not_lt.mpr hhi)
    simp only [State.pwSampleChan, ← hf, decide_eq_true_eq, if_pos hover, ← hy, if_neg hslow]
    exact if_pos ⟨hon, hrun⟩
  case fast =>
    rintro x y c f hf hgate hfast hy
    simp only [State.pwSampleChan, ← hf, decide_eq_true_eq, ← hy]
    exact if_pos ⟨hgate, hfast⟩
  case fastTrip =>
    rintro dt c s x hx hb hgate
    rw [exec_fastTrip, ← hx, State.onBlocks_of hb]
    exact congrArg s.leaves (if_pos hgate)
  case latched =>
    rintro x y c kind rfl hmany
    exact if_neg (Nat.not_le.mpr hmany)
  case freeze =>
    rintro dt c s x hx hb hst hfrozen
    rw [exec_sagFreeze, ← hx, State.onBlocks_of hb]
    simp only [State.sagFreeze, hst, hfrozen]
  case sag =>
    rintro dt c t s x hx hb hst hfrozen hdue hsample
    rw [exec_sagTimeout, ← hx, State.onBlocks_of hb]
    simp only [State.sagTimeout, hst, hfrozen, Nat.not_lt.mpr hdue, hsample, false_and, if_false]
    rfl
  case uv =>
    rintro dt c t s x hx hb hst hsince hdue
    rw [exec_uvOff, ← hx, State.onBlocks_of hb]
    simp only [State.uvOff, hst, hsince, hdue, if_true]
  case seated =>
    rintro dt c s x hx hb hc hseat
    have hgo : ¬ (8 ≤ c ∨ (!x.main.out) = true ∨ (x.fuse c).seated = true) := by simp [hc, hb.1.1, hseat]
    rw [exec_seatChange, ← hx, State.onBlocks_of hb]
    simp only [State.seatChange, Bool.not_false, Bool.and_self, if_neg hgo, if_true]
  case unseated =>
    rintro dt c a b s x hx hb hc hseat hpins hoff hdam
    have hout : (!a && !b) = false := by
      obtain h | h := hpins <;> simp [h]
    have hgo : ¬ (8 ≤ c ∨ (!x.main.out) = true ∨ (x.fuse c).seated = false) := by simp [hc, hb.1.1, hseat]
    rw [exec_seatChange, ← hx, State.onBlocks_of hb]
    simp only [State.seatChange, hout, if_neg hgo, Bool.false_eq_true, if_false, hoff, hdam, or_self]
  case inrush =>
    rintro dt c s x hx hb hst hmet hout hps
    rw [exec_insTimeMet, ← hx, State.onBlocks_of hb]
    exact congrArg s.leaves (if_pos ⟨hst, hmet, by simp [hout], hps⟩)
  case budget =>
    rintro dt c s x hx hb hst hfrozen hdue
    rw [exec_inrushTimeout, ← hx, State.onBlocks_of hb]
    exact congrArg s.leaves (if_pos ⟨hst, hfrozen, hdue⟩)
  case backoff =>
    rintro dt c s x hx hb hst hdue
    rw [exec_backoffExpiry, ← hx, State.onBlocks_of hb]
    exact congrArg s.leaves (if_pos ⟨hst, hdue⟩)
  case stable =>
    rintro dt c s x hx hb hst hdue
    rw [exec_onStable, ← hx, State.onBlocks_of hb]
    exact congrArg s.leaves (if_pos ⟨hst, hdue⟩)
  case damaged =>
    rintro dt c t s x hx hb hsince hgate hst hdue
    have hgo : (!(x.fuse c).st.gate) = true ∧ (x.fuse c).st ≠ .damaged ∧ t + bits (x.pwWord c 0) 7 0 * 10 * msT ≤ x.now :=
      ⟨by simp [hgate], hst, hdue⟩
    rw [exec_damagedTimeout, ← hx, State.onBlocks_of hb]
    simp only [State.damagedTimeout, hsince, if_pos hgo]
  case disable =>
    rintro dt c s x hx hb hc
    rw [exec_pwDisable, ← hx, State.onBlocks_of hb]
    exact congrArg s.leaves (if_pos hc)
  case status =>
    rintro dt tag s x h hx
    rw [exec_pwStatus, State.command_asked h (by decide), ← hx]
    rfl
  case clear =>
    rintro dt c tag p s x h hx hlen hc hlt hst
    rw [exec_pwClear, State.command_asked h (by decide), ← hx]
    refine congrArg s.leaves ?_
    show opPwClear _ p x = _
    simp only [opPwClear, hlen, ← hc, Nat.not_lt.mpr (Nat.le_of_lt_succ hlt), ne_eq, not_true_eq_false, if_false, hst]
  case clearOn =>
    rintro dt c tag p s x h hx hlen hc hlt hst
    rw [exec_pwClear, State.command_asked h (by decide), ← hx]
    refine congrArg s.leaves ?_
    show opPwClear _ p x = _
    simp only [opPwClear, hlen, ← hc, Nat.not_lt.mpr (Nat.le_of_lt_succ hlt), ne_eq, not_true_eq_false, if_false, hst]

end Sys2Proof.Machine
end

section
/-! PROOFS. The Strait links (19): flits, credits, replay, link states, and the ST opcodes. -/

namespace Sys2Proof.Machine

/-- The counts that a class's entry of a STATUS or a NAK returns. -/
theorem at_creditsOf (b : List Byte) {i : Nat} (hi : i < 4) :
    at? (creditsOf b) i (0, 0) = (field b (2 + 4 * i) 2, field b (4 + 4 * i) 2) := by
  simp [at?, creditsOf, List.getD_eq_getElem?_getD, List.getElem?_range hi]

/-- A STATUS or a NAK in form, whose sequence and credits are as R625 and R627 ask, is taken (R625, R627). -/
theorem State.rxStatus_taken {x : State} {k : Nat} {b : List Byte} (nak : Bool) (hst : (x.link k).st = .up)
    (hseq : field b 0 2 < 4096) (hres : (b.drop 18).all (· == 0#8) = true)
    (hlo : 0 ≤ sdiff12 (field b 0 2) (x.link k).oldest) (hhi : sdiff12 (field b 0 2) (x.link k).oldest ≤ (x.link k).out)
    (hcredit : ∀ i < 4, creditOk (at? (x.link k).classes i {}).advH (at? (x.link k).classes i {}).phf (field b (2 + 4 * i) 2)
        (at? (x.link k).classes i {}).hc = true
      ∧ creditOk (at? (x.link k).classes i {}).advD (at? (x.link k).classes i {}).pdf (field b (4 + 4 * i) 2)
        (at? (x.link k).classes i {}).dc = true) :
    x.rxStatus k b nak
      = (if nak then (x.modLink k (fun l => { (l.ack (sdiff12 (field b 0 2) (x.link k).oldest).toNat x.now) with
          classes := (l.ack (sdiff12 (field b 0 2) (x.link k).oldest).toNat x.now).classes.zipIdx.map (fun (c, i) =>
            c.credit (at? (creditsOf b) i (0, 0)).1 (at? (creditsOf b) i (0, 0)).2) })).replayTrigger k
        else x.modLink k (fun l => { (l.ack (sdiff12 (field b 0 2) (x.link k).oldest).toNat x.now) with
          classes := (l.ack (sdiff12 (field b 0 2) (x.link k).oldest).toNat x.now).classes.zipIdx.map (fun (c, i) =>
            c.credit (at? (creditsOf b) i (0, 0)).1 (at? (creditsOf b) i (0, 0)).2) })) := by
  have hok : (decide (field b 0 2 < 4096) && (b.drop 18).all (· == 0#8)
      && decide (0 ≤ sdiff12 (field b 0 2) (x.link k).oldest) && decide (sdiff12 (field b 0 2) (x.link k).oldest ≤ (x.link k).out)
      && (List.range 4).all (fun i => creditOk (at? (x.link k).classes i {}).advH (at? (x.link k).classes i {}).phf
          (at? (creditsOf b) i (0, 0)).1 (at? (x.link k).classes i {}).hc
        && creditOk (at? (x.link k).classes i {}).advD (at? (x.link k).classes i {}).pdf
          (at? (creditsOf b) i (0, 0)).2 (at? (x.link k).classes i {}).dc)) = true := by
    simp only [hseq, hres, hlo, hhi, decide_true, Bool.and_self, Bool.true_and, List.all_eq_true, List.mem_range]
    intro i hi
    obtain ⟨hh, hd⟩ := hcredit i hi
    rw [at_creditsOf b hi, hh, hd]
    rfl
  simp only [State.rxStatus, hok, hst, ne_eq, not_true_eq_false, false_and, if_false, Bool.not_true, Bool.false_eq_true,
    reduceCtorEq]
  cases nak <;> rfl

/-- Settles O47: the branches of the flits received and sent, of STATUS, NAK and INIT (log entries 36, 37, 138). -/
theorem straitFlits : Obligations.StraitFlits := by
  unfold Obligations.StraitFlits
  refine ⟨?failed, ?traffic, ?training, ?accepted, ?idle, ?new, ?status, ?replay, ?init⟩
  case failed =>
    rintro dt k flit s x hx hb hk hst hnak
    rw [exec_flitRx, ← hx, State.onBlocks_of hb, if_pos hk]
    refine congrArg s.leaves ?_
    simp [State.flitRx, Nat.not_le.mpr hk, hst, State.failFlit, hnak]
  case traffic =>
    rintro dt k h flit body s x hx hb hk hst hh hbody hkind hcrc hpattern
    rw [exec_flitRx, ← hx, State.onBlocks_of hb, if_pos hk]
    refine congrArg s.leaves ?_
    simp only [State.flitRx, if_neg (Nat.not_le.mpr hk), hst, ← hh, ← hbody, hkind, if_true, hcrc, hpattern, false_and,
      if_false, Bool.not_false, Bool.true_and, beq_self_eq_true, Bool.not_true, Bool.false_eq_true]
  case training =>
    rintro dt k s x y hx hb hk hst hdraw
    rw [exec_flitRx, ← hx, State.onBlocks_of hb, if_pos hk]
    refine congrArg s.leaves ?_
    simp only [State.flitRx, if_neg (Nat.not_le.mpr hk), hst, Bool.not_false, and_self, if_true, State.partnerTrains, hdraw]
  case accepted =>
    rintro x y k h cls body c hcls hc hres hlo hhi hfirst hlast hrx hdata hhead hy
    have hbad : ((h % 4 != 0 || bits h 9 5 == 0 || decide (27 < bits h 9 5) || !decide (1 ≤ sdiff 16 (c.ownD + c.df) c.rd)
        || !(!true || decide (1 ≤ sdiff 16 (c.ownH + c.hf) c.rh)) || (true && (none : Option Partial).isSome)
        || (!true && (none : Option Partial).isNone) || decide (1024 < 1)) : Bool) = false := by
      simp [hres, hhi, hdata, hhead, show bits h 9 5 ≠ 0 by omega]
    simp only [State.rxTraffic, ← hcls, ← hc, hfirst, hlast, hrx, hbad, Bool.false_eq_true, if_false, if_true, Bool.not_false,
      ← hy]
  case idle =>
    rintro dt k s x hx hb hk hst hnak hdue hsleep hreplay hpick
    rw [exec_flitSlot, ← hx, State.onBlocks_of hb]
    refine congrArg s.leaves ?_
    simp only [State.flitSlot, if_neg (Nat.not_le.mpr hk), hst, State.slotUp, hnak, hdue, hsleep, hreplay, hpick,
      Bool.false_eq_true, false_and, if_false, Bool.false_and]
    rfl
  case new =>
    rintro dt k c s x hx hb hk hst hnak hdue hsleep hreplay hpick
    rw [exec_flitSlot, ← hx, State.onBlocks_of hb]
    refine congrArg s.leaves ?_
    simp only [State.flitSlot, if_neg (Nat.not_le.mpr hk), hst, State.slotUp, hnak, hdue, hsleep, hreplay, hpick,
      Bool.false_eq_true, false_and, if_false, Bool.false_and]
  case status =>
    rintro dt k nr b s x hx hb hk hst rfl hseq hres hlo hhi hcredit
    refine ⟨_, rfl, ?_, ?_⟩
    · rw [exec_status, ← hx, State.onBlocks_of hb, if_pos hk, State.rxStatus_taken false hst hseq hres hlo hhi hcredit]
      rfl
    · rw [exec_nak, ← hx, State.onBlocks_of hb, if_pos hk, State.rxStatus_taken true hst hseq hres hlo hhi hcredit]
      rfl
  case replay =>
    rintro x k hout htries
    simp only [State.replayTrigger, hout, htries, if_true, if_false]
  case init =>
    rintro dt k b s x hx hb hk hst hver hmember hrx htx hflags hrest hsession hwindow
    have hreserved : ((bits (field b 1 1) 7 4 != 0 || decide (field b 4 2 ≥ 4096) || decide (field b 6 2 ≥ 4096)
        || field b 8 1 / 4 != 0 || !(b.drop 25).all (· == 0#8)) : Bool) = false := by
      simp [bits, Nat.div_eq_of_lt hmember, hrx, htx, Nat.div_eq_of_lt hflags, hrest]
    have hform : ¬ (false = true ∨ (!(x.link k).fresh && (x.link k).lastUp == some (x.main.st.session, field b 2 2)
        && bitOf (field b 8 1) 1) = true
        ∧ (sdiff12 (field b 6 2) (x.link k).nextRx < 0 ∨ 1024 < sdiff12 (field b 6 2) (x.link k).nextRx)) := by
      rintro (h | ⟨hresume, hout⟩)
      · cases h
      · simp only [Bool.and_eq_true, Bool.not_eq_true', beq_iff_eq] at hresume
        obtain ⟨⟨hfresh, hlast⟩, hflag⟩ := hresume
        obtain h | h | h | ⟨hlo, hhi⟩ := hwindow
        · simp [hfresh] at h
        · exact h hlast
        · simp [hflag] at h
        · omega
    have hpartner : ¬ (field b 0 1 ≠ 1 ∨ field b 2 2 = x.main.st.session ∧ field b 1 1 % 8 = x.self) := by
      rintro (h | ⟨h, _⟩)
      · exact h hver
      · exact hsession h
    rw [exec_init, ← hx, State.onBlocks_of hb, if_pos hk]
    refine congrArg s.leaves ?_
    simp only [State.rxInit, hst, hreserved]
    rw [if_neg (not_not.mpr rfl), if_neg hform, if_neg hpartner]

/-- No lane of a link adapts its equaliser: training leaves it as it is (R634). -/
theorem State.trainingDone_fixed {x : State} {k : Nat} (hk : k < 2) (hst : (x.link k).st = .training)
    (h0 : x.laneLocked (laneOf k (mapLane (x.rxMap k) 0)) = true) (h1 : x.laneLocked (laneOf k (mapLane (x.rxMap k) 1)) = true)
    (heq : ∀ i < 3, x.fld (lnCfg (laneOf k i)) 30 29 ≠ 1) (hrx : (x.swap k).rx = none) :
    x.trainingDone k = x.setLink k .init (x.link k).cause := by
  have hgo : ¬ (2 ≤ k ∨ (x.link k).st ≠ .training ∨ (x.swap k).rx.isSome = true
      ∨ (!x.laneLocked (laneOf k (mapLane (x.rxMap k) 0))) = true ∨ (!x.laneLocked (laneOf k (mapLane (x.rxMap k) 1))) = true) := by
    simp [hk, hst, hrx, h0, h1]
  have hrange : List.range 3 = [0, 1, 2] := rfl
  simp only [State.trainingDone, if_neg hgo, hrange, List.foldl_cons, List.foldl_nil, heq 0 (by decide), heq 1 (by decide),
    heq 2 (by decide), if_false]

/-- Settles O48: the branches of a link's states, of its timers and of the ST opcodes (log entries 38, 138). -/
theorem straitLinks : Obligations.StraitLinks := by
  unfold Obligations.StraitLinks
  refine ⟨?retrain, ?idleReq, ?idleAck, ?statusTimer, ?ackTimeout, ?offer, ?offered, ?trained, ?timeout, ?retry, ?wake, ?write,
    ?report, ?ask⟩
  case retrain =>
    rintro dt k cause s x y hx hb hk hst hy
    rw [exec_retrain, ← hx, State.onBlocks_of hb, if_pos hk]
    refine congrArg s.leaves ?_
    simp only [State.rxRetrain, State.retrain, hst, ne_eq, not_true_eq_false, if_false, Bool.false_eq_true, ← hy]
  case idleReq =>
    rintro dt k s x hx hb hk hst
    rw [exec_idleReq, ← hx, State.onBlocks_of hb, if_pos hk]
    exact congrArg s.leaves (if_neg (not_not.mpr hst))
  case idleAck =>
    rintro dt k s x hx hb hk hst hsleep
    rw [exec_idleAck, ← hx, State.onBlocks_of hb, if_pos hk]
    exact congrArg s.leaves (if_pos (by simp [hst, hsleep]))
  case statusTimer =>
    rintro dt k t s x hx hb hk hst hnak hunc hdue hempty
    rw [exec_statusTimer, ← hx, State.onBlocks_of hb, if_pos hk]
    refine congrArg s.leaves ?_
    simp only [State.statusTimer, hst, hnak, hunc, hdue, ne_eq, not_true_eq_false, if_false, Bool.false_and,
      Bool.false_eq_true, decide_true, Bool.true_or, Bool.true_and]
  case ackTimeout =>
    rintro dt k s x hx hb hk hst hout hdue
    rw [exec_ackTimeout, ← hx, State.onBlocks_of hb, if_pos hk]
    exact congrArg s.leaves (if_pos ⟨hst, hout, hdue⟩)
  case offer =>
    rintro dt k cls dest b s x y hx hb hoffer
    rw [exec_stMessageOffer, ← hx, State.onBlocks_of hb, State.messageOffered, hoffer, Option.getD_some]
  case offered =>
    rintro x k m hst hne hlen hroom
    have hgo : ¬ ((m.cls = 1 ∧ (x.link k).st ≠ .up) ∨ (x.link k).st = .disabled ∨ m.bytes = [] ∨ 27648 < m.bytes.length) := by
      simp [hst, hne, hlen]
    rw [State.link] at hgo
    simp only [State.offerOn, if_neg hgo]
    exact if_pos hroom
  case trained =>
    rintro dt k s x hx hb hk hst h0 h1 heq hrx
    rw [exec_trainingDone, ← hx, State.onBlocks_of hb, if_pos hk, State.trainingDone_fixed hk hst h0 h1 heq hrx]
  case timeout =>
    rintro dt k s x hx hb hk hst hdue
    rw [exec_trainingTimeout, ← hx, State.onBlocks_of hb, if_pos hk]
    simp only [State.trainingTimeout, hst, hdue, if_true]
  case retry =>
    rintro dt k s x hx hb hk hst hdue
    rw [exec_downRetry, ← hx, State.onBlocks_of hb, if_pos hk]
    exact congrArg s.leaves (if_pos ⟨hst, hdue⟩)
  case wake =>
    rintro dt k s x hx hb hk hst hps
    rw [exec_sleepWake, ← hx, State.onBlocks_of hb, if_pos hk]
    simp only [State.sleepWake, hst, hps, ne_eq, not_true_eq_false, if_false, Bool.false_eq_true]
  case write =>
    rintro dt k v s x hx hb hk
    rw [exec_stLinkWrite, ← hx, State.onBlocks_of hb, if_pos hk]
    rfl
  case report =>
    rintro dt k tag p s x h hx hlen hk hlt
    rw [exec_stStatus, State.command_asked h (by decide), ← hx]
    refine congrArg s.leaves ?_
    show opStStatus _ p x = _
    simp only [opStStatus, hlen, ← hk, Nat.not_lt.mpr (Nat.le_of_lt_succ hlt), ne_eq, not_true_eq_false, if_false]
  case ask =>
    rintro dt k tag p s x h hx hlen hk hlt hst
    rw [exec_stRetrain, State.command_asked h (by decide), ← hx]
    refine congrArg s.leaves ?_
    show opStRetrain _ p x = _
    simp only [opStRetrain, hlen, ← hk, Nat.not_lt.mpr (Nat.le_of_lt_succ hlt), ne_eq, not_true_eq_false, if_false, hst]

end Sys2Proof.Machine
end

section
/-! PROOFS. Office in a stack and the messages of its order (20): elections, takeovers, the present map, ANNOUNCE,
STACK_STATE, MEMBER_STATE, ROUTE, COMMAND and REPLY_NOTICE. -/

namespace Sys2Proof.Machine

/-- A sweep over distinct indices that changes the state at one of them alone ends in what that one makes of it. -/
theorem foldl_eq_of_one_acts {α β : Type*} {f : α → β → α} {x y : α} {m : β} (hm : f x m = y) :
    ∀ {l : List β}, l.Nodup → m ∈ l → (∀ k ∈ l, k ≠ m → f x k = x) → (∀ k ∈ l, k ≠ m → f y k = y) → l.foldl f x = y
  | [], _, h, _, _ => absurd h List.not_mem_nil
  | k :: l, hnodup, hmem, hx, hy => by
    obtain ⟨hk, hl⟩ := List.nodup_cons.mp hnodup
    rw [List.foldl_cons]
    by_cases hkm : k = m
    · subst hkm
      have hkeep : ∀ j ∈ l, f y j = y := fun j hj => hy j (List.mem_cons_of_mem _ hj) (fun h => hk (h ▸ hj))
      rw [hm]
      exact List.foldlRecOn l f (motive := fun z => z = y) rfl (fun z hz j hj => hz ▸ hkeep j hj)
    · rw [hx k List.mem_cons_self hkm]
      exact foldl_eq_of_one_acts hm hl ((List.mem_cons.mp hmem).resolve_left (Ne.symm hkm))
        (fun j hj => hx j (List.mem_cons_of_mem _ hj)) (fun j hj => hy j (List.mem_cons_of_mem _ hj))

/-- Settles O49: the branches of the timers of a stack and of the lead's office (log entries 108, 110, 111). -/
theorem stackOffice : Obligations.StackOffice := by
  unfold Obligations.StackOffice
  refine ⟨?routes, ?announce, ?state, ?memberState, ?joins, ?elected, ?back, ?lost, ?abdicates, ?takes, ?stays, ?quiet,
    ?absent⟩
  case routes =>
    rintro dt s x hx hb h7 hat
    rw [exec_routeTimer, ← hx, State.onBlocks_of hb]
    exact congrArg s.leaves (if_pos ⟨hb.1.1, h7, hat⟩)
  case announce =>
    rintro dt s x hx hb h7 hat
    rw [exec_announceTimer, ← hx, State.onBlocks_of hb]
    exact congrArg s.leaves (if_pos ⟨hb.1.1, h7, hat⟩)
  case state =>
    rintro dt s x hx hb hf hl hat
    rw [exec_stackStateTimer, ← hx, State.onBlocks_of hb]
    exact congrArg s.leaves ((if_pos ⟨hb.1.1, hf, hat⟩).trans (if_pos hl))
  case memberState =>
    rintro dt s x hx hb hf hl hat hev
    rw [exec_stackStateTimer, ← hx, State.onBlocks_of hb]
    refine congrArg s.leaves ?_
    simp only [State.periodicState, State.stateTimer, hev, if_pos (⟨hb.1.1, hf, hat⟩ : _ ∧ _ ∧ _), hl, Bool.false_eq_true,
      if_false]
  case joins =>
    rintro dt a s x hx hb hf h7 hat hv hr
    rw [exec_electTimeout, ← hx, State.onBlocks_of hb]
    refine congrArg s.leaves ?_
    have hgo : ¬ (False ∨ x.now < a + x.electT) := (false_or _).mp.mt (Nat.not_lt.mpr hat)
    simp only [State.electTimeout, h7, hf, Bool.false_eq_true, if_neg hgo, hv, State.reach, hr, decide_true, Bool.and_self,
      if_true]
  case elected =>
    rintro dt a s x hx hb hf h7 hat hv htop hcause
    rw [exec_electTimeout, ← hx, State.onBlocks_of hb]
    refine congrArg s.leaves ?_
    have hgo : ¬ (False ∨ x.now < a + x.electT) := (false_or _).mp.mt (Nat.not_lt.mpr hat)
    simp only [State.electTimeout, h7, hf, Bool.false_eq_true, if_neg hgo, hv, Bool.false_and, if_false, htop, true_or,
      if_true, decide_eq_false (Nat.not_le.mpr hcause), Bool.and_false]
    rfl
  case back =>
    rintro dt a s x hx hb hf h7 hat hv hlead hcand hcause
    rw [exec_electTimeout, ← hx, State.onBlocks_of hb]
    refine congrArg s.leaves ?_
    have hgo : ¬ (False ∨ x.now < a + x.electT) := (false_or _).mp.mt (Nat.not_lt.mpr hat)
    simp only [State.electTimeout, h7, hf, Bool.false_eq_true, if_neg hgo, hv, Bool.false_and, if_false, hlead, hcand,
      decide_eq_true hcause, Bool.and_self, or_true, if_true]
    rfl
  case lost =>
    rintro dt s x hx hb hf hl hlost hps hat
    rw [exec_leadLost, ← hx, State.onBlocks_of hb]
    have hlate : x.main.sk.lastState + x.lostT ≤ x.now := hat
    refine congrArg s.leaves (if_neg ?_)
    simpa [hf, hl, hlost, hps] using hlate
  case abdicates =>
    rintro dt a s x hx hb hf hl hlow hat
    rw [exec_abdicate, ← hx, State.onBlocks_of hb]
    refine congrArg s.leaves ?_
    simp only [State.abdicate, hl, hf, hlow, Bool.and_self]
    exact if_pos hat
  case takes =>
    rintro dt a s x hx hb hl hlost hat htop henough
    rw [exec_takeover, ← hx, State.onBlocks_of hb]
    refine congrArg s.leaves ?_
    have hgo : ¬ (x.main.sk.isLead = true ∨ x.now < a + x.takeoverT ∨ x.topCandidate ≠ some x.self
        ∨ (!(decide (x.expect < 2 * x.reachCount) || (2 * x.reachCount == x.expect && x.bit 0x100004 27))) = true) := by
      have hwait : ¬ x.now < a + x.takeoverT := Nat.not_lt.mpr hat
      have hmany : x.expect < 2 * x.reachCount ∨ 2 * x.reachCount = x.expect ∧ x.bit 0x100004 27 = true := henough
      simpa [hl, hwait, htop, or_iff_not_imp_left] using hmany
    simp only [State.takeover, hlost, if_neg hgo]
  case stays =>
    rintro dt a s x hx hb hlost hwhy
    rw [exec_takeover, ← hx, State.onBlocks_of hb]
    refine congrArg s.leaves ?_
    have hstop : x.main.sk.isLead = true ∨ x.now < a + x.takeoverT ∨ x.topCandidate ≠ some x.self
        ∨ (!(decide (x.expect < 2 * x.reachCount) || (2 * x.reachCount == x.expect && x.bit 0x100004 27))) = true := by
      have hwhy' : x.now < a + x.takeoverT ∨ 2 * x.reachCount < x.expect
        ∨ 2 * x.reachCount = x.expect ∧ x.bit 0x100004 27 = false := hwhy
      rcases hwhy' with hwait | hfew | ⟨hhalf, htie⟩
      · exact .inr (.inl hwait)
      · simp [Nat.not_lt.mpr hfew.le, hfew.ne]
      · simp [hhalf, htie]
    simp only [State.takeover, hlost, if_pos hstop]
  case quiet =>
    rintro dt m a s x y hx hb hm hdup hat hothers hy hleft
    rw [exec_duplicateQuietTimeout, ← hx, State.onBlocks_of hb]
    refine congrArg s.leaves (foldl_eq_of_one_acts (m := m) ?_ List.nodup_range (List.mem_range.mpr hm) ?_ ?_)
    · simp only [hdup, if_pos hat, hy]
    · intro k hk hkm
      simp only [hothers k (List.mem_range.mp hk) hkm]
    · intro k hk _
      simp only [hleft k (List.mem_range.mp hk)]
  case absent =>
    rintro dt m a s x y hx hb hf hl hps hm hself hpresent hstate hat hlast hothers hy hleft
    rw [exec_memberStateTimeout, ← hx, State.onBlocks_of hb]
    have hgo : ¬ (!x.main.sk.isLead || !x.main.sk.formed || x.hearth.ps == .smoulder) = true := by simp [hl, hf, hps]
    have hlate : max a x.main.sk.lastState + x.lostT ≤ x.now := by omega
    refine congrArg s.leaves ((if_neg hgo).trans
      (foldl_eq_of_one_acts (m := m) ?_ List.nodup_range (List.mem_range.mpr hm) ?_ ?_))
    · simp only [hstate, if_pos (⟨hself, hpresent, hlate⟩ : _ ∧ _ ∧ _), hy]
    · intro k hk hkm
      simp only [hothers k (List.mem_range.mp hk) hkm]
    · intro k hk hkm
      simp only [hleft k (List.mem_range.mp hk) hkm]

/-- A TERM lies 0 from itself (R648). -/
theorem sdiff_self (w a : Nat) : sdiff w a a = 0 := by
  simp [sdiff, toSigned]

/-- A member that is not the lead judges another without a word to anyone: its own place in the stack stays (R650). -/
theorem State.judge_office_kept {x : State} {m : Nat} (hl : x.main.sk.isLead = false) (hm : m ≠ x.self) :
    (x.judge m).main.sk.isLead = false ∧ (x.judge m).main.sk.leadValid = x.main.sk.leadValid := by
  by_cases hc : x.causeOf m = (x.peer m).quar
  · simp [State.judge, hc, hl]
  · simp [State.judge, hc, hl, hm, State.modPeer, State.modSk]

/-- Settles O50: the branches of ANNOUNCE, STACK_STATE, MEMBER_STATE, ROUTE, COMMAND and REPLY_NOTICE (log entries
105, 106, 107). -/
theorem stackOrders : Obligations.StackOrders := by
  unfold Obligations.StackOrders
  refine ⟨?announced, ?duplicate, ?later, ?equal, ?old, ?member, ?leaves, ?route, ?runs, ?quarantined, ?reply, ?notice⟩
  case announced =>
    rintro dt m t s x y hx hb ht hm hself hnew hl hv
    rw [exec_announce, ← hx, State.onBlocks_of hb]
    refine congrArg s.leaves ?_
    generalize hz : y.modPeer m (fun p => { p with
      announced := true
      flags := field t.body 0 1
      fw := field t.body 1 4
      seq := field t.body 5 4
      hash := bytesAt t.body 9 32
      term := field t.body 41 2
      serial := field t.body 43 8
      announcedAt := y.now
      stateFlags := p.stateFlags / 2 * 2 + b2n (bitOf (field t.body 0 1) 1) }) = z
    have hzl : z.main.sk.isLead = false := by rw [← hz]; exact hl
    have hzself : m ≠ z.self := by rw [← hz]; exact hself
    have hzv : z.main.sk.leadValid = false := by rw [← hz]; exact hv
    obtain ⟨hlead, hvalid⟩ := State.judge_office_kept hzl hzself
    simp only [State.announceIn, ht, ← hm, if_neg hself, hnew, Bool.false_and, Bool.false_eq_true, if_false, hz, hlead,
      hvalid, hzv]
  case duplicate =>
    rintro dt t s x y hx hb ht hself hserial
    rw [exec_announce, ← hx, State.onBlocks_of hb]
    refine congrArg s.leaves ?_
    simp only [State.announceIn, ht, hself, if_true, if_neg hserial]
  case later =>
    rintro dt t s x y hx hb ht hself hterm
    rw [exec_stackState, ← hx, State.onBlocks_of hb]
    refine congrArg s.leaves ?_
    simp only [State.stackState, ht, if_neg hself, if_pos hterm]
  case equal =>
    rintro dt t s x y hx hb ht hterm hl hrank
    rw [exec_stackState, ← hx, State.onBlocks_of hb]
    refine congrArg s.leaves ?_
    simp only [State.stackState, ht, hterm, sdiff_self, lt_irrefl, if_false, hl, if_true, hrank, Bool.false_eq_true,
      ite_self]
  case old =>
    rintro type k c w x hfind hann hroute hterm
    simp only [State.takeMsg, hfind]
    exact if_pos ⟨hann, hroute, hterm⟩
  case member =>
    rintro dt t s x y hx hb ht hl
    rw [exec_memberState, ← hx, State.onBlocks_of hb]
    refine congrArg s.leaves ?_
    simp only [State.memberState, ht]
    exact if_pos hl
  case leaves =>
    rintro x m hp
    simp only [State.setPresent, hp, Bool.true_eq_false, Bool.false_eq_true, if_false, Bool.false_and]
  case route =>
    rintro dt t s x y z hx hb ht hz
    rw [exec_route, ← hx, State.onBlocks_of hb]
    refine congrArg s.leaves ?_
    simp only [State.routeIn, ht, ← hz]
    exact apply_ite State.moveMsgs _ _ _
  case runs =>
    rintro dt id e s x y hx hb hin he hq
    rw [exec_command, ← hx, State.onBlocks_of hb]
    refine congrArg s.leaves ?_
    simp only [State.commandMsg, hin, List.foldl_cons, List.foldl_nil, State.runShadow, he, hq, Bool.false_eq_true,
      false_and, if_false]
  case quarantined =>
    rintro dt id e s x y hx hb hin he hq hbad
    rw [exec_command, ← hx, State.onBlocks_of hb]
    refine congrArg s.leaves ?_
    simp only [State.commandMsg, hin, List.foldl_cons, List.foldl_nil, State.runShadow, he, hq, hbad, Bool.not_false,
      and_self, if_true]
  case reply =>
    rintro dt t e s x y hx hb ht hkind hop hawait hopcode hparts hpart hmore
    rw [exec_replyNotice, ← hx, State.onBlocks_of hb]
    refine congrArg s.leaves ?_
    have hgo : ¬ ((!true) = true ∨ e.opcode ≠ (hdrOf t.body).opcode ∨ (0 : Nat) ≠ ([] : List (Nat × List Byte)).length) := by
      simp [hopcode]
    simp only [State.replyNotice, ht, hkind, hop, hawait, hparts, List.filter_nil, hpart, if_neg hgo, List.map_nil,
      List.flatten_nil, List.nil_append, hmore, Bool.false_eq_true, if_false, OfNat.one_ne_ofNat]
  case notice =>
    rintro dt t s x y hx hb ht hkind hstarted
    rw [exec_replyNotice, ← hx, State.onBlocks_of hb]
    refine congrArg s.leaves ?_
    simp only [State.replyNotice, ht, hkind, hstarted, if_true]

end Sys2Proof.Machine
end

section
/-! PROOFS. The traffic and the time of a stack and its opcodes (20): results, SDUs, refusals and pushes between
members, TIME_SYNC and its answers, PHASE, and the SK opcodes. -/

namespace Sys2Proof.Machine

/-! ### Traffic -/

/-- An image that arrives in one part is whole at once. -/
theorem assembled_one_part {n : Nat} {b : List Byte} (k : Nat) (hn : 0 < n) (hb : b.length = n) :
    assembled (k + 2) n [(0, b)] [] = some b := by
  have hne : b ≠ [] := List.ne_nil_of_length_pos (hb ▸ hn)
  have htake : b.take n = b := List.take_of_length_le hb.le
  simp [assembled, hn.ne', hne, hb, htake]

/-- The first part at offset 0 begins what has arrived. -/
theorem addPart_first (b : List Byte) : addPart [] 0 b = [(0, b)] := rfl

/-- Settles O51: the branches of the messages that carry a stack's traffic (log entries 81, 105, 112, 113). -/
theorem stackTraffic : Obligations.StackTraffic := by
  unfold Obligations.StackTraffic
  refine ⟨?result, ?resultBack, ?up, ?upBack, ?down, ?hold, ?push, ?image, ?count, ?identity, ?record, ?config,
    ?badConfig, ?firmware⟩
  case result =>
    rintro dt t s x y z hx hb ht hq
    rw [exec_meterResult, ← hx, State.onBlocks_of hb]
    refine congrArg s.leaves ?_
    simp only [State.meterResult, ht, hq]
  case resultBack =>
    rintro dt t s x y z hx hb ht hq
    rw [exec_meterResult, ← hx, State.onBlocks_of hb]
    refine congrArg s.leaves ?_
    simp only [State.meterResult, ht, hq]
  case up =>
    rintro dt t s x y z hx hb ht hkind hq
    rw [exec_sduUp, ← hx, State.onBlocks_of hb]
    refine congrArg s.leaves ?_
    simp only [State.sduUp, ht, hkind, hq]
  case upBack =>
    rintro dt t s x y z hx hb ht hkind hq
    rw [exec_sduUp, ← hx, State.onBlocks_of hb]
    refine congrArg s.leaves ?_
    simp only [State.sduUp, ht, hkind, hq]
  case down =>
    rintro dt t s x y hx hb ht
    rw [exec_sduDown, ← hx, State.onBlocks_of hb]
    refine congrArg s.leaves ?_
    simp only [State.sduDown, ht]
  case hold =>
    rintro dt t s x y hx hb ht hkind hroom
    rw [exec_refusal, ← hx, State.onBlocks_of hb]
    refine congrArg s.leaves ?_
    simp only [State.refusalIn, ht, hkind, State.holdResult, if_pos hroom]
  case push =>
    rintro dt t s x y hx hb ht hkind
    rw [exec_refusal, ← hx, State.onBlocks_of hb]
    refine congrArg s.leaves ?_
    simp only [State.refusalIn, ht, hkind]
  case image =>
    rintro dt t s x y hx hb ht hkind hl
    rw [exec_refusal, ← hx, State.onBlocks_of hb]
    refine congrArg s.leaves ?_
    simp only [State.refusalIn, ht, hkind, hl, if_true]
    rfl
  case count =>
    rintro dt t s x y hx hb ht hkind
    rw [exec_regAccess, ← hx, State.onBlocks_of hb]
    refine congrArg s.leaves ?_
    simp only [State.regAccess, ht, hkind, if_true]
  case identity =>
    rintro dt t s x y hx hb ht hflags
    rw [exec_termData, ← hx, State.onBlocks_of hb]
    refine congrArg s.leaves ?_
    have hident : bitOf 3 0 = true := by decide
    have hlost : bitOf 3 1 = true := by decide
    have hhere : bitOf 3 2 = false := by decide
    simp only [State.termData, ht, hflags, hident, hlost, hhere, if_true, Bool.false_eq_true, false_and, if_false]
  case record =>
    rintro dt t s x y hx hb ht
    rw [exec_treeRecord, ← hx, State.onBlocks_of hb]
    refine congrArg s.leaves ?_
    simp only [State.treeRecordIn, ht]
  case config =>
    rintro dt c t s x y hx hb ht hnone haux hlen hok hc
    rw [exec_config, ← hx, State.onBlocks_of hb]
    refine congrArg s.leaves ?_
    have hwhole := assembled_one_part 64 (by omega) hlen
    simp only [State.configIn, ht, hnone, haux, addPart_first, List.find?_cons, beq_self_eq_true, Option.map_some, hwhole,
      hok, hc, if_true]
  case badConfig =>
    rintro dt t s x y hx hb ht hnone haux hlen hbad
    rw [exec_config, ← hx, State.onBlocks_of hb]
    refine congrArg s.leaves ?_
    have hwhole := assembled_one_part 64 (by omega) hlen
    simp only [State.configIn, ht, hnone, haux, addPart_first, List.find?_cons, beq_self_eq_true, Option.map_some, hwhole,
      hbad, Bool.false_eq_true, if_false]
    rfl
  case firmware =>
    rintro dt i t s x y hx hb ht hnone haux hlen hslot
    rw [exec_image, ← hx, State.onBlocks_of hb]
    refine congrArg s.leaves ?_
    have hwhole := assembled_one_part 256 (by omega) hlen
    simp only [State.imageIn, ht, hnone, haux, addPart_first, List.find?_cons, beq_self_eq_true, Option.map_some, hwhole,
      hslot]

/-! ### Time over Strait and the phase check -/

/-- A change of one link leaves the other link. -/
theorem State.modLink_link_other (x : State) {j k : Nat} (f : Link → Link) (h : j ≠ k) :
    (x.modLink j f).link k = x.link k := by
  simp [State.link, State.modLink, at?, List.getD_eq_getElem?_getD, List.getElem?_modify_ne _ _ h]

/-- A message to the neighbour on one link leaves the other link. -/
theorem State.sendNext_link_other (x : State) {j k : Nat} (kind t b : Nat) (h : j ≠ k) :
    (x.sendNext j kind t b).link k = x.link k := by
  unfold State.sendNext State.offerOn
  dsimp only
  split
  · rfl
  · split
    · exact x.modLink_link_other _ h
    · rfl

/-- Two changes of what is held of one member are one. -/
theorem State.modPeer_modPeer (x : State) (m : Nat) (f g : Peer → Peer) :
    (x.modPeer m f).modPeer m g = x.modPeer m (g ∘ f) := by
  simp [State.modPeer, State.modSk, List.modify_modify_eq]

/-- Settles O52: the branches of TIME_EXCHANGE, its messages, and PHASE (log entries 12, 65, 111). -/
theorem stackTime : Obligations.StackTime := by
  unfold Obligations.StackTime
  refine ⟨?sync, ?loose, ?request, ?answer, ?complete, ?told, ?compared, ?skewed, ?cleared⟩
  case sync =>
    rintro dt s x hx hb hf hl hdue h0 h1
    rw [exec_timeExchange, ← hx, State.onBlocks_of hb]
    refine congrArg s.leaves ?_
    have hperiod : x.main.sk.exchAt + x.periodT ≤ x.now := hdue
    have hother : ((x.sendNext 0 0 0 0).link 1).st ≠ .up := by
      rwa [x.sendNext_link_other 0 0 0 (by decide : (0 : Nat) ≠ 1)]
    have hrange : List.range 2 = [0, 1] := rfl
    simp only [State.timeExchange, hb.1.1, hf, hl, hperiod, hrange, List.foldl_cons, List.foldl_nil, h0, hother,
      Bool.not_true, Bool.false_eq_true, or_self, if_false, decide_true, Bool.true_or, Bool.and_self, and_self, or_true,
      if_true, false_and, Bool.false_and]
  case loose =>
    rintro dt s x hx hb hf hl hearly hlate
    rw [exec_timeExchange, ← hx, State.onBlocks_of hb]
    refine congrArg s.leaves ?_
    have hperiod : ¬ x.main.sk.exchAt + x.periodT ≤ x.now := Nat.not_le.mpr hearly
    simp only [State.timeExchange, hb.1.1, hf, hl, hperiod, hlate, Bool.not_true, Bool.not_false, Bool.false_eq_true,
      or_self, if_false, decide_false, Bool.false_and, decide_true, Bool.and_self, if_true]
  case request =>
    rintro x y t ht hs hparent hl hv z hz hnone
    simp only [State.timeAnswer, ht, hs, hparent, hl, hv, Bool.not_false, and_self, if_true, ← hz, hnone]
  case answer =>
    rintro x y t h0 h1 hs
    simp only [State.timeAnswer, h0, h1, hs, Bool.false_eq_true, if_false]
  case complete =>
    rintro dt b o t e s x y z hx hb ht he hs hin ho hbound hz
    rw [exec_timeResp, ← hx, State.onBlocks_of hb]
    refine congrArg s.leaves ?_
    simp only [State.timeResp, ht, he, hs, Bool.false_eq_true, if_false, not_lt.mpr hin, ← ho, ← hbound]
    rw [hz]
    rfl
  case told =>
    rintro x loose susp h
    exact if_neg (fun hsame => h hsame.1)
  case compared =>
    rintro dt t s x y hx hb ht hl hsec hstate hown hfirst hsecond hthird
    rw [exec_phase, ← hx, State.onBlocks_of hb]
    refine congrArg s.leaves ?_
    have hrange : List.range 3 = [0, 1, 2] := rfl
    simp [State.phaseIn, ht, hl, hsec, hstate, hrange, hown, hfirst, hsecond, hthird]
  case skewed =>
    rintro x m p d hp hon hrun hd
    have hsmall : ¬ d.natAbs ≤ 300 := by omega
    simp only [State.comparePhase, hon, hrun, hd, hsmall, decide_true, decide_false, Bool.false_eq_true, if_true, if_false,
      Bool.not_false, Bool.and_self, le_refl, State.modPeer_modPeer]
    rfl
  case cleared =>
    rintro x m p d hp hon hrun hd
    have hbig : ¬ 364 < d.natAbs := by omega
    simp only [State.comparePhase, hon, hrun, hd, hbig, decide_true, decide_false, Bool.false_eq_true, if_true, if_false,
      Bool.not_true, Bool.false_and, Bool.and_self, le_refl, State.modPeer_modPeer]
    rfl

/-! ### The opcodes -/

/-- Settles O53: the branches of the SK opcodes (log entries 13, 107). -/
theorem stackOpcodes : Obligations.StackOpcodes := by
  unfold Obligations.StackOpcodes
  refine ⟨?status, ?write, ?commit, ?refused, ?enter, ?release, ?other, ?judged⟩
  case status =>
    rintro dt tag s x h hx
    rw [exec_skStatus, State.command_asked h (by decide), ← hx]
    rfl
  case write =>
    rintro dt tag p s x h hx hmin hmax hfit
    rw [exec_skCfgWrite, State.command_asked h (by decide), ← hx]
    refine congrArg s.leaves ?_
    show opSkCfgWrite _ p x = _
    have hlen : ¬ (p.length < 5 ∨ 4094 < p.length) := by omega
    simp only [opSkCfgWrite, if_neg hlen, if_neg (Nat.not_lt.mpr hfit)]
  case commit =>
    rintro dt tag p b s x h hx hlen hmin hmax hb hok hfit hserial hpush
    rw [exec_skCfgCommit, State.command_asked h (by decide), ← hx]
    refine congrArg s.leaves ?_
    show opSkCfgCommit _ p x = _
    have hin : ¬ (field p 0 4 < 64 ∨ 0x40000 < field p 0 4) := by omega
    have hgo : ¬ ((!true) = true ∨ field p 0 4 < 64 + field b 8 4 ∨ False) := by
      simpa using hfit
    simp only [opSkCfgCommit, hlen, ne_eq, not_true_eq_false, if_false, if_neg hin, ← hb, hok, hserial, if_neg hgo, hpush,
      Option.isSome_none, Bool.false_eq_true]
  case refused =>
    rintro dt tag p b s x h hx hlen hmin hmax hb hwhy
    rw [exec_skCfgCommit, State.command_asked h (by decide), ← hx]
    refine congrArg s.leaves ?_
    show opSkCfgCommit _ p x = _
    have hin : ¬ (field p 0 4 < 64 ∨ 0x40000 < field p 0 4) := by omega
    have hstop : (!cfgOk b) = true ∨ field p 0 4 < 64 + field b 8 4 ∨ field b 12 8 ≠ x.termSerial :=
      hwhy.imp (fun hbad => by rw [hbad]; rfl) .inr
    simp only [opSkCfgCommit, hlen, ne_eq, not_true_eq_false, if_false, if_neg hin, ← hb]
    exact if_pos hstop
  case enter =>
    rintro dt m tag p s x h hx hlen hm hlt hact
    rw [exec_skQuarantine, State.command_asked h (by decide), ← hx]
    refine congrArg s.leaves ?_
    show opSkQuarantine _ p x = _
    simp only [opSkQuarantine, hlen, ← hm, hact, Nat.not_lt.mpr hlt, ne_eq, not_true_eq_false, lt_irrefl, or_self, if_false,
      if_true]
  case release =>
    rintro dt m tag p s x h hx hlen hm hlt hact hq
    rw [exec_skQuarantine, State.command_asked h (by decide), ← hx]
    refine congrArg s.leaves ?_
    show opSkQuarantine _ p x = _
    simp only [opSkQuarantine, hlen, ← hm, hact, hq, Nat.not_lt.mpr hlt, ne_eq, not_true_eq_false, Nat.not_lt_zero, or_self,
      if_false, Nat.zero_ne_one]
  case other =>
    rintro dt m tag p s x h hx hlen hm hlt hact hq
    rw [exec_skQuarantine, State.command_asked h (by decide), ← hx]
    refine congrArg s.leaves ?_
    show opSkQuarantine _ p x = _
    simp only [opSkQuarantine, hlen, ← hm, hact, hq, Nat.not_lt.mpr hlt, ne_eq, not_true_eq_false, not_false_eq_true,
      Nat.not_lt_zero, or_self, if_false, if_true, Nat.zero_ne_one]
  case judged =>
    rintro x m hchange hcause hself hl
    simp only [State.judge, if_neg hchange, hl, if_true, if_neg hcause, hself, false_and, if_false]
    rfl

end Sys2Proof.Machine
end

section
/-! PROOFS. The ash log, the memory and its repair (21, 22): the ring, the record port, the flush, the AL and MM
opcodes, the scrubber and the repair log. -/

namespace Sys2Proof.Machine

/-! ### The record port and the flush -/

theorem bytesAt_length (l : List Byte) (o n : Nat) : (bytesAt l o n).length = n := by
  simp [bytesAt]
  omega

theorem crc16Bit_lt (c : Nat) : crc16Bit c < 2 ^ 16 := by
  unfold crc16Bit
  have hshift : c * 2 % 0x10000 < 2 ^ 16 := Nat.mod_lt _ (by decide)
  split
  · exact Nat.xor_lt_two_pow hshift (by decide)
  · exact hshift

/-- A CRC-16 has 16 bits. -/
theorem crc16_lt (l : List Byte) : crc16 l < 2 ^ 16 :=
  List.foldlRecOn l crc16Byte (motive := fun c => c < 2 ^ 16) (by decide) (fun _ _ _ _ => crc16Bit_lt _)

/-- A record's bytes before its CRC. -/
theorem mkRecord_body_length (seq : Nat) (b : List Byte) : (be 4 seq ++ padTo 26 b).length = 30 := by
  simp [padTo, bytesAt_length]

/-- The bytes of a record: SEQ, its content in 26 bytes, and their CRC (R671). -/
theorem mkRecord_bytes (seq : Nat) (b : List Byte) :
    (mkRecord seq b).bytes.length = 32 ∧ field (mkRecord seq b).bytes 0 4 = seq % 2 ^ 32
      ∧ field (mkRecord seq b).bytes 30 2 = crc16 ((mkRecord seq b).bytes.take 30) := by
  have hlen := mkRecord_body_length seq b
  have hbytes : (mkRecord seq b).bytes = (be 4 seq ++ padTo 26 b) ++ be 2 (crc16 (be 4 seq ++ padTo 26 b)) := rfl
  refine ⟨?_, ?_, ?_⟩
  · rw [hbytes, List.length_append, hlen, be_length]
  · rw [hbytes, List.append_assoc, field_be]
    rfl
  · have hcrc := field_be 2 (crc16 (be 4 seq ++ padTo 26 b)) []
    rw [List.append_nil, Nat.mod_eq_of_lt ((crc16_lt _).trans_eq (by norm_num))] at hcrc
    rw [hbytes, List.take_left' hlen, field_skip _ _ _ _ hlen.le, hlen]
    exact hcrc

/-- A step's energy fits beside the margin and what is admitted, or does not (R384, R681). -/
theorem State.admits_iff {x : State} {uj f : Nat} (hres : x.hearth.onReserve = true) :
    x.admits uj f = true ↔ uj + 1000 * x.marginMj + f + x.main.up.admitted ≤ 1000 * x.hearth.resE := by
  simp [State.admits, hres]

/-- Settles O54: the ring, the record port, and the flush from its start to its end (log entries 7, 8, 60, 61). -/
theorem ashLog : Obligations.AshLog := by
  unfold Obligations.AshLog
  refine ⟨?ring, mkRecord_bytes, ?limited, ?windowEnd, ?due, ?owed, ?start, ?steps, ?energy, ?admission, ?programmed,
    ?failed⟩
  case ring =>
    rintro x b hlen
    have hring : (x.ringWrite b).hearth.ring
        = (x.hearth.ring ++ [mkRecord x.hearth.seq b]).drop (x.hearth.ring.length + 1 - 2048) := by
      simp [State.ringWrite]
    refine ⟨by rw [State.ringWrite], ?_, ?_, ?_, State.ringWrite_regs x b,
      State.ringWrite_main x b, State.ringWrite_flash x b⟩
    · rw [hring, List.length_drop, List.length_append, List.length_singleton]
      omega
    · rw [hring, List.getLast?_drop]
      simp
    · intro hfull
      rw [hring, hfull, List.drop_one, List.tail_append_of_ne_nil]
      exact List.ne_nil_of_length_pos (by omega)
  case limited =>
    rintro x source kind d w h1 h11 hwin hfull
    have hfit : ¬ w.count + 1 ≤ x.fld 0x110000 23 16 := by omega
    simp [State.ash, State.ashGroup, State.modAsh, hwin, h1, h11, hfit]
  case windowEnd =>
    rintro dt source w s x hx hb hwin hsup
    rw [exec_suppressWindowEnd, ← hx, State.onBlocks_of hb]
    refine congrArg s.leaves ?_
    simp only [State.suppressEnd, hwin, if_neg hsup]
  case due =>
    rintro dt t s x hx hb hflush htrig hdue hat hres hop
    rw [exec_flushStart, ← hx, State.onBlocks_of hb]
    refine congrArg s.leaves ?_
    simp only [State.flushStart, hb.1.1, hflush, htrig, hdue, hat, hres, Bool.not_true, Option.isSome_none, Bool.or_self,
      Bool.false_eq_true, if_false, and_self, if_true, State.triggerFlush, hop]
  case owed =>
    rintro dt s x hx hb hflush htrig hdue howed h9 hop
    rw [exec_flushStart, ← hx, State.onBlocks_of hb]
    refine congrArg s.leaves ?_
    simp only [State.flushStart, hb.1.1, hflush, htrig, hdue, howed, h9, Bool.not_true, Option.isSome_none, Bool.or_self,
      Bool.false_eq_true, if_false, Bool.and_self, if_true, State.triggerFlush, hop]
  case start =>
    rintro x cause last tag hlast
    simp only [State.startFlush, ← hlast]
  case steps => simp [flushSteps]
  case energy =>
    rintro x hflush hpending hop
    simp only [State.flushUj, hflush, hpending, if_true, hop, State.eraseLeftUj, Bool.false_or, Nat.add_zero]
  case admission =>
    rintro x f st l hsteps hres
    have hiff := State.admits_iff (uj := x.stepUj st) (f := 0) hres
    refine ⟨fun hfits => ?_, fun hover => ?_⟩
    · have hyes : x.admits (x.stepUj st) 0 = true := hiff.mpr hfits
      simp only [State.admitStep, hsteps, hyes, if_true]
    · have hno : ¬ x.admits (x.stepUj st) 0 = true := fun h => absurd (hiff.mp h) (by omega)
      simp only [State.admitStep, hsteps, if_neg hno]
  case programmed =>
    rintro dt f st l s x hx hb hflush hsteps hkind
    rw [exec_flushStepDone, ← hx, State.onBlocks_of hb]
    refine congrArg s.leaves ?_
    cases st with
    | erase n => exact absurd rfl (hkind n)
    | _ => simp only [State.flushStepDone, hflush, hsteps, Bool.not_true, Bool.false_eq_true, if_false]
  case failed =>
    rintro dt f st l s x hx hb hflush hsteps htries
    rw [exec_flushStepDone, ← hx, State.onBlocks_of hb]
    refine congrArg s.leaves ?_
    simp only [State.flushStepDone, hflush, hsteps, Bool.not_false, if_true, if_neg htries]

/-! ### The opcodes of the log and of the memory -/

/-- Settles O55: the branches of the AL and MM opcodes (log entries 31, 59, 60). -/
theorem logOpcodes : Obligations.LogOpcodes := by
  unfold Obligations.LogOpcodes
  refine ⟨?status, ?read, ?archives, ?archRead, ?upload, ?noSlot, ?flush, ?flushing, ?unlocked, ?wave, ?mark, ?memory,
    ?log, ?withdraw, ?noBank⟩
  case status =>
    rintro dt tag r l s x h hx hring
    rw [exec_alStatus, State.command_asked h (by decide), ← hx]
    refine congrArg s.leaves ?_
    show opAlStatus _ [] x = _
    simp only [opAlStatus, hring, ne_eq, not_true_eq_false, if_false]
  case read =>
    rintro dt tag p r l s x h hx hlen hmin hmax hrecs
    rw [exec_alRead, State.command_asked h (by decide), ← hx]
    refine congrArg s.leaves ?_
    show opAlRead _ p x = _
    have hcount : ¬ (field p 4 1 < 1 ∨ 127 < field p 4 1) := by omega
    simp only [opAlRead, hlen, ne_eq, not_true_eq_false, if_false, if_neg hcount, hrecs]
  case archives =>
    rintro dt tag s x h hx
    rw [exec_alArchives, State.command_asked h (by decide), ← hx]
    rfl
  case archRead =>
    rintro dt tag p s x h hx hlen hslot hmin hmax hend
    rw [exec_alArchRead, State.command_asked h (by decide), ← hx]
    have hin : ¬ (15 < field p 0 1 ∨ field p 5 2 < 1 ∨ 4096 < field p 5 2 ∨ 0x20000 < field p 1 4 + field p 5 2) := by omega
    show s.leaves (opAlArchRead _ p x) = _
    simp only [opAlArchRead, hlen, ne_eq, not_true_eq_false, if_false, if_neg hin]
    cases x.archHeader (field p 0 1) <;> rfl
  case upload =>
    rintro dt tag p s x h hx hlen hslot hdest harch hexport
    rw [exec_alUpload, State.command_asked h (by decide), ← hx]
    refine congrArg s.leaves ?_
    show opAlUpload _ p x = _
    have hring : ¬ field p 0 1 = 0xFF := by omega
    obtain ⟨b, hhead⟩ := Option.isSome_iff_exists.mp harch
    have hin : ¬ (15 < field p 0 1 ∧ (!false) = true ∨ 2 < field p 1 1) := by omega
    simp only [opAlUpload, hlen, ne_eq, not_true_eq_false, if_false, hring, decide_false, if_neg hin, hhead,
      Option.isNone_some, Bool.false_eq_true, and_false, hexport]
  case noSlot =>
    rintro dt tag p s x h hx hlen hslot hring
    rw [exec_alUpload, State.command_asked h (by decide), ← hx]
    refine congrArg s.leaves ?_
    show opAlUpload _ p x = _
    simp only [opAlUpload, hlen, ne_eq, not_true_eq_false, if_false, hring, decide_false, hslot, Bool.not_false, and_self,
      true_or, if_true]
  case flush =>
    rintro dt tag s x h hx hflush htrig hop
    rw [exec_alFlush, State.command_asked h (by decide), ← hx]
    refine congrArg s.leaves ?_
    show opAlFlush _ [] x = _
    simp only [opAlFlush, ne_eq, not_true_eq_false, if_false, hflush, htrig, Option.isSome_none, Bool.or_self,
      Bool.false_eq_true, State.triggerFlush, hop]
  case flushing =>
    rintro dt tag s x h hx hflush
    rw [exec_alFlush, State.command_asked h (by decide), ← hx]
    refine congrArg s.leaves ?_
    show opAlFlush _ [] x = _
    simp only [opAlFlush, ne_eq, not_true_eq_false, if_false, hflush, Bool.true_or, if_true]
  case unlocked =>
    rintro dt tag s x h hx hst
    rw [exec_alWave, State.command_asked h (by decide), ← hx]
    refine congrArg s.leaves ?_
    show opAlWave _ [] x = _
    simp only [opAlWave, ne_eq, not_true_eq_false, if_false, hst, not_false_eq_true, true_or, if_true]
  case wave =>
    rintro dt tag s x h hx hst hon hbuf
    rw [exec_alWave, State.command_asked h (by decide), ← hx]
    refine congrArg s.leaves ?_
    show opAlWave _ [] x = _
    simp only [opAlWave, ne_eq, not_true_eq_false, if_false, hst, hon, Bool.not_true, Bool.false_eq_true, or_self, hbuf]
  case mark =>
    rintro dt tag p s x h hx hlen
    rw [exec_alMark, State.command_asked h (by decide), ← hx]
    refine congrArg s.leaves ?_
    show opAlMark _ p x = _
    simp only [opAlMark, hlen, ne_eq, not_true_eq_false, if_false]
  case memory =>
    rintro dt tag s x h hx
    rw [exec_mmStatus, State.command_asked h (by decide), ← hx]
    rfl
  case log =>
    rintro dt tag s x h hx
    rw [exec_mmLog, State.command_asked h (by decide), ← hx]
    rfl
  case withdraw =>
    rintro dt tag p gone s x h hx hlen hbank hgone
    rw [exec_mmWithdraw, State.command_asked h (by decide), ← hx]
    show s.leaves (opMmWithdraw _ p x) = _
    simp only [opMmWithdraw, hlen, ne_eq, not_true_eq_false, if_false, Nat.not_lt.mpr hbank, ← hgone]
    exact apply_ite s.leaves _ _ _
  case noBank =>
    rintro dt tag p s x h hx hlen hbank
    rw [exec_mmWithdraw, State.command_asked h (by decide), ← hx]
    refine congrArg s.leaves ?_
    show opMmWithdraw _ p x = _
    simp only [opMmWithdraw, hlen, ne_eq, not_true_eq_false, if_false, if_pos hbank]

/-! ### Scrubbing and repair -/

theorem Posted.mm {s t : State} (h : Posted s t) : t.main.mm = s.main.mm := by
  obtain ⟨c, al, q, held, links, regs, cyc, rfl, -⟩ := h
  rfl

theorem State.wake_mm (s : State) (n : Nat) : (s.wake n).main.mm = s.main.mm := by
  unfold State.wake
  dsimp only
  split
  · rfl
  · split
    · split <;> rfl
    · rfl

/-- With field repair off a poisoned word is told, and the memory stays as it is (R693). -/
theorem State.poisonedRead_mm {x : State} (a phys blk : Nat) (hoff : x.bit 0x120008 31 = false) :
    (x.poisonedRead a phys blk).main.mm = x.main.mm := by
  simp only [State.poisonedRead, hoff, Bool.false_eq_true, if_false]
  rw [(Posted.notify _ _ _ _).mm, State.wake_mm, (Posted.ash _ _ _ _).mm]
  rfl

/-- The scrubber's next word is another, as a pool that has words has thousands (R696). -/
theorem Memory.next_word_ne {m : Memory} (h : m.words ≠ 0) : (m.scrubWord % m.words + 1) % m.words ≠ m.scrubWord := by
  have hmany : 2 ≤ m.words := by
    unfold Memory.words at h ⊢
    omega
  intro heq
  have hlt : m.scrubWord < m.words := heq ▸ Nat.mod_lt _ (by omega)
  rw [Nat.mod_eq_of_lt hlt] at heq
  rcases Nat.lt_or_ge (m.scrubWord + 1) m.words with hnext | hlast
  · rw [Nat.mod_eq_of_lt hnext] at heq
    omega
  · have hwrap : m.scrubWord + 1 = m.words := by omega
    rw [hwrap, Nat.mod_self] at heq
    omega

/-- A word that is due is read, and the scrubber goes on to the next (R696). -/
theorem State.scrubRead_due {x : State} (hb : x.blocksRun) (hps : x.hearth.ps = .blaze ∨ x.hearth.ps = .bank)
    (hsec : x.fld 0x120008 23 16 ≠ 0) (hwords : x.main.mm.words ≠ 0)
    (hdue : x.main.mm.scrubAt + x.fld 0x120008 23 16 * secT / x.main.mm.words ≤ x.now) :
    ¬ ((!(x.main.out && !x.main.boot.stopped && (x.hearth.ps == .blaze || x.hearth.ps == .bank))) = true
      ∨ x.fld 0x120008 23 16 = 0 ∨ x.main.mm.words = 0
      ∨ x.now < x.main.mm.scrubAt + x.fld 0x120008 23 16 * secT / x.main.mm.words) := by
  obtain ⟨⟨hout, hstop⟩, -⟩ := hb
  rcases hps with hps | hps <;> simp [hout, hstop, hps, hsec, hwords, hdue]

/-- Settles O56: the scrubber, field repair, the repair log and the Hearth's words (log entries 31, 33, 34, 35, 143). -/
theorem memoryRepair : Obligations.MemoryRepair := by
  unfold Obligations.MemoryRepair
  refine ⟨?ok, ?single, ?double, ?found, ?poisoned, ?corrected, ?triggered, ?repaired, ?logged, ?hearthOff, ?hearthOn,
    ?hearthSingle, fun x => ⟨rfl, rfl⟩⟩
  case ok =>
    rintro dt s x hx hb hps hsec hwords hdue
    rw [exec_scrubRead, ← hx, State.onBlocks_of hb]
    refine congrArg s.leaves ?_
    simp only [State.scrub, State.scrubRead, if_neg (State.scrubRead_due hb hps hsec hwords hdue)]
    rfl
  case single =>
    rintro dt lane w hard s x hx hb hps hsec hwords hdue hlane hw
    rw [exec_scrubRead, ← hx, State.onBlocks_of hb]
    refine congrArg s.leaves ?_
    simp only [State.scrub, State.scrubRead, if_neg (State.scrubRead_due hb hps hsec hwords hdue), ← hw,
      Nat.mod_eq_of_lt hlane]
  case double =>
    rintro dt w s x hx hb hps hsec hwords hdue hoff hw
    rw [exec_scrubRead, ← hx, State.onBlocks_of hb]
    refine congrArg s.leaves ?_
    simp only [State.scrub, State.scrubRead, if_neg (State.scrubRead_due hb hps hsec hwords hdue), ← hw]
    have hmoved := Memory.next_word_ne hwords
    rw [← hw] at hmoved
    refine if_neg ?_
    rw [State.poisonedRead_mm]
    · exact hmoved
    · exact hoff
  case found =>
    rintro x w
    simp only [State.poisonFound]
    cases hi : (x.itemsAt w)[x.draw.1 % ((x.itemsAt w).length + 1)]? with
    | none => exact .inl rfl
    | some i => exact .inr ⟨i, List.mem_of_getElem? hi, rfl⟩
  case poisoned =>
    rintro x y a phys blk c rfl rfl
    rfl
  case corrected =>
    rintro x b row lane hoff
    simp only [State.correctedRead, hoff, Bool.not_false, if_true]
  case triggered =>
    rintro x b row sp l hfree hspare
    simp only [State.repairTrigger, hfree, hspare, Bool.false_eq_true, if_false]
  case repaired =>
    rintro dt r l e s x hx hb hrepairs he
    rw [exec_fieldRepair, ← hx, State.onBlocks_of hb]
    refine congrArg s.leaves ?_
    simp only [State.fieldRepair, hrepairs, ← he]
  case logged =>
    rintro dt c s x hx hb hdue hlog
    rw [exec_repairLogFlash, ← hx, State.onBlocks_of hb]
    refine congrArg s.leaves ?_
    simp only [State.repairLogFlash, hb.1.1, hdue, hlog, Bool.and_self, if_true]
  case hearthOff =>
    rintro dt region offset s x y hx hrun hregion hout hy h9
    rw [exec_hearthScrub, ← hx]
    refine congrArg s.leaves ?_
    have hgo : ¬ ((!true) = true ∨ 6 < region) := by simpa using hregion
    simp only [State.hearthScrub, hrun, if_neg hgo, State.wake_out, hout, Bool.false_eq_true, if_false, ← hy]
    simp only [State.ashHearth_main, h9, Bool.false_eq_true, if_false]
  case hearthOn =>
    rintro dt region offset s x y hx hrun hregion hout hy h9
    rw [exec_hearthScrub, ← hx]
    refine congrArg s.leaves ?_
    have hgo : ¬ ((!true) = true ∨ 6 < region) := by simpa using hregion
    simp only [State.hearthScrub, hrun, if_neg hgo, State.wake_out, hout, if_true, ← hy]
    simp only [State.ashHearth_main, h9, if_true]
  case hearthSingle =>
    rintro dt region offset lane hard s x hx hrun hregion hout
    rw [exec_hearthScrub, ← hx]
    refine congrArg s.leaves ?_
    have hgo : ¬ ((!true) = true ∨ 6 < region) := by simpa using hregion
    simp only [State.hearthScrub, hrun, if_neg hgo, hout, if_true]

end Sys2Proof.Machine
end
